-- ==== Sys2Proof/Word.lean ====
section
/-! DEFINITION. The words of the machine: a BAR0 register is 64 bits wide (R9); a byte is the unit of every memory. -/

namespace Sys2Proof

/-- A BAR0 register or table word (R9). -/
abbrev Word := BitVec 64

/-- One byte of a memory or of a message. -/
abbrev Byte := BitVec 8

end Sys2Proof
end

