-- ==== Sys2Proof/Syntax.lean ====
section
/-! DEFINITION. The commands of the block: the messages that arrive on its ports, and `Instr`, one constructor per row of the
opcode table. Checks of arriving messages that rest on secrets or on the physical layer (a tag, a signature, a residue, a lock)
are operands: the command says how they came out. -/

namespace Sys2Proof

/-- Which bytes of a register an access covers (R9): all eight, or an aligned half. -/
inductive Lanes where
  /-- An aligned 64-bit access. -/
  | full
  /-- The aligned 32-bit half of bits 31:0. -/
  | lo
  /-- The aligned 32-bit half of bits 63:32. -/
  | hi
deriving DecidableEq, Repr

/-- A read or a write of a select-and-data register. -/
inductive Access where
  | read
  | write (l : Lanes) (d : Word)
deriving DecidableEq, Repr

/-- An error of one checked operation of a 64-byte beat (R89, R90): the lane and the beat, the aligned significands it takes, whether it
subtracts the second from the first, and the result Z that the lane forms, that a replay in the same lane forms, and that a replay
in the spare lane forms. For BAND, BOR and BXOR they are the element bytes. -/
structure BeatFault where
  lane : Fin 33
  beat : Nat
  a : Nat
  b : Nat
  sub : Bool
  z : Nat
  zSame : Nat
  zSpare : Nat
deriving DecidableEq, Repr

/-- A piece of arriving work on a context: operation number `n` of an OP_REQ (`kind` 1) or OP_RESP (`kind` 2), or piece
(`coll`, chunk `n`, `piece`, `step`, `ring`) of a tour (`kind` 3) (R164, Tables 6.3 and 6.4). -/
structure ItemKey where
  kind : Nat
  coll : Nat
  n : Nat
  piece : Nat
  step : Nat
  ring : Nat
deriving DecidableEq, Repr

/-- A segment: the header of Tables 6.3 and 6.4 field by field, the payload as it travels (ciphertext), and the tag. The
bytes 20 to 47 are kept as the 28 bytes of Table 6.4. -/
structure Segment where
  ver : BitVec 4
  typ : BitVec 4
  kph : Bool
  cep : Bool
  first : Bool
  last : Bool
  poison : Bool
  gen : BitVec 8
  cls : BitVec 4
  wing : BitVec 2
  dst : BitVec 15
  seq : BitVec 32
  opn : BitVec 16
  segidx : BitVec 24
  blkOff : BitVec 16
  opcode : BitVec 8
  /-- Bytes 20 to 47 (Table 6.4). -/
  tail : List Byte
  /-- PLEN payload bytes. -/
  payload : List Byte
  tag : List Byte
deriving DecidableEq, Repr

/-- A receipt (Table 6.5). -/
structure Receipt where
  kph : Bool
  cep : Bool
  gen : BitVec 8
  reason : BitVec 4
  dst : BitVec 15
  cum : BitVec 32
  high : BitVec 32
  base : BitVec 32
  nseq : BitVec 32
  rseq : BitVec 32
  credit : BitVec 32
  sack : BitVec 256
deriving DecidableEq, Repr

/-- An accession message (Table 6.1): ACCEDE, ACCEPT, REFUSE, DEACCEDE or DEACCEDE_ACK, by the command that carries it. -/
structure AccessionMsg where
  sealed : Bool
  gen : BitVec 8
  cls : BitVec 4
  wing : BitVec 2
  src : BitVec 15
  dst : BitVec 15
  jobId : BitVec 32
  site : BitVec 5
  rail : BitVec 6
  status : BitVec 8
  credit : BitVec 32
  tTx : BitVec 64
  tEcho : BitVec 64
deriving DecidableEq, Repr

/-- A MARK (Table 7.3). -/
structure TimeMark where
  seq : BitVec 16
  sec : BitVec 48
  ns : BitVec 32
  frac : BitVec 16
deriving DecidableEq, Repr

/-- An ECHO (Table 7.3): DIFF is a signed count of 2^-16 ns. -/
structure TimeEcho where
  seq : BitVec 16
  diff : BitVec 64
deriving DecidableEq, Repr

/-- The UDP datagram around a PTP message (R208): its length, the message's messageLength, its checksum, its last two bytes. -/
structure Udp where
  len : BitVec 16
  msgLen : BitVec 16
  cksum : BitVec 16
  tail : BitVec 16
deriving DecidableEq, Repr

/-- A PTP message (IEEE 1588-2019) by the fields the gateway reads or writes: message type, domainNumber, twoStepFlag, sequenceId,
source and requesting port identity, correctionField, the timestamp of its body, and of an Announce the clockClass,
currentUtcOffset and leap flags; its ingress timestamp in 2^-16 ns of the timebase; and the UDP datagram
that carries it, none over IEEE 802.3. -/
structure PtpMsg where
  typ : BitVec 4
  domain : BitVec 8
  twoStep : Bool
  seq : BitVec 16
  src : BitVec 80
  req : BitVec 80
  corr : BitVec 64
  sec : BitVec 48
  ns : BitVec 32
  clockClass : BitVec 8
  utcOfs : BitVec 16
  leap : BitVec 2
  rxTime : Nat
  udp : Option Udp
deriving DecidableEq, Repr

/-- A plan control message (Table 8.6); SUB is the command that carries it. -/
structure PlanMsg where
  site : BitVec 5
  plane : BitVec 3
  kind : BitVec 2
  id : BitVec 32
  t : BitVec 40
  colour : BitVec 7
  accept : Bool
  gwId : BitVec 32
  orderPrint : BitVec 32
deriving DecidableEq, Repr

/-- The two kinds of item with a commit point (R238). -/
inductive PlanKind where
  | catalogue
  | page
deriving DecidableEq, Repr

/-- A PATH_REPORT (Table 9.7). -/
structure PathReport where
  site : BitVec 5
  plane : BitVec 3
  colour : BitVec 7
  cd : BitVec 32
  dgd : BitVec 16
  osnr : BitVec 16
  qmarg : BitVec 16
  rxPow : BitVec 16
  gwId : BitVec 32
deriving DecidableEq, Repr

/-- What the monitors of one carrier show at a 1 ms sample (R259, R290): the monitor values of Table 9.8, the path state of
Table 9.5, the corrected and coded bits since the last sample, the locker and bias errors of the four heater loops (MHz), and the
temperature, bulk heater and total receive power of its engine. -/
structure Monitors where
  txPow : BitVec 16
  rxPow : BitVec 16
  loPow : BitVec 16
  ferr : BitVec 16
  cd : BitVec 32
  dgd : BitVec 16
  osnr : BitVec 16
  qmarg : BitVec 16
  biasTx : BitVec 16
  biasLo : BitVec 16
  fofs : BitVec 16
  seed0 : BitVec 64
  seed1 : BitVec 64
  corrected : Nat
  coded : Nat
  loopErr : List Int
  temp : BitVec 16
  bulk : BitVec 16
  rxTotal : BitVec 16
deriving DecidableEq, Repr

/-- A service message (Tables 10.11 and 10.12); SUB is the command that carries it. -/
structure ServiceMsg where
  site : BitVec 5
  status : BitVec 8
  id : BitVec 32
  key : BitVec 32
  t : BitVec 40
  v : Bool
  slot : BitVec 13
  frag : BitVec 8
  nfrag : BitVec 8
  dlen : BitVec 16
  gwId : BitVec 32
  txn : BitVec 32
  data : List Byte
deriving DecidableEq, Repr

/-- A CARRIER_OUT message (Table 10.4). -/
structure CarrierOutMsg where
  site : BitVec 5
  plane : BitVec 3
  colour : BitVec 7
  gwId : BitVec 32
deriving DecidableEq, Repr

/-- A line frame after FEC decoding and descrambling: the overhead of Table 10.2 field by field, and bytes 72 to 16,383. -/
structure Frame where
  fas : BitVec 48
  mfas : BitVec 8
  tti : Byte
  bip : Byte
  bei : BitVec 4
  bdi : Bool
  som : Bool
  cont : Bool
  jc1 : BitVec 2
  jc2 : BitVec 2
  jc3 : BitVec 2
  njo : List Byte
  race : Bool
  ptr : BitVec 14
  /-- Bytes 24 to 39: time transfer (Table 7.3). -/
  time : List Byte
  /-- Bytes 40 to 47: the receipt and control channel. -/
  rcc : List Byte
  anchor : Bool
  wake : Bool
  colour : BitVec 7
  site : BitVec 5
  plane : BitVec 3
  index : BitVec 4
  rail : BitVec 6
  pjo : List Byte
  data : List Byte
deriving DecidableEq, Repr

/-- A codeword with errors that overlaps a received frame (R285, R286): the first and the last byte of the frame it covers, whether it
ends in this frame, and how many of its symbols are wrong. A KF-L codeword with at most 15 is corrected; a KF-S codeword is listed when
its decoding fails. -/
structure BadWord where
  first : Fin 16384
  last : Fin 16384
  ends : Bool
  errs : Nat := 16
deriving DecidableEq, Repr

/-- A SEAL fragment (Table 11.6) of the STEP its command names, and how the checks of R305 that rest on certificates, signatures
and the session's secrets come out once the body is whole: CHAIN, credential signature and SERIAL, the alias signature, the MAC. -/
structure SealMsg where
  frag : BitVec 8
  nfrag : BitVec 8
  session : BitVec 32
  flen : BitVec 16
  body : List Byte
  chainOk : Bool
  credOk : Bool
  sigOk : Bool
  macOk : Bool
deriving DecidableEq, Repr

/-- A load record (Table 11.9): its fields, whether a reserved bit is set, and the bytes from +0x10 on. -/
structure LoadRecord where
  half : BitVec 1
  tenant : BitVec 10
  slot : BitVec 16
  job : BitVec 12
  site : BitVec 5
  cls : BitVec 4
  wing : BitVec 2
  epoch : BitVec 32
  reserved : Bool
  key : List Byte
  tag : List Byte
  nonce : List Byte
deriving DecidableEq, Repr

/-- A write to a doorbell page of BAR2 (R60): its offset in the page and its size in bytes. -/
structure PageWrite where
  off : Fin 4096
  size : Nat
deriving DecidableEq, Repr

/-- The data of a read of host memory, and the beat errors of a combine they go into (R89). -/
structure ReadData where
  bytes : List Byte
  faults : List BeatFault
deriving DecidableEq, Repr

/-- An LRM frame as received, from its destination MAC to its FCS (R331). -/
structure LrmPacket where
  raw : List Byte
deriving DecidableEq, Repr

/-- A READ_RESP frame, and the beat errors of a combine its data go into (R89). -/
structure ReadResp where
  frame : LrmPacket
  faults : List BeatFault
deriving DecidableEq, Repr

/-- A firmware part as it is checked (R299): its SVN, its length and the SHA-384 digest of its bytes, whether its signing key's digest
equals a fused one that is not revoked, and whether the signature verifies. -/
structure ImageHeader where
  svn : BitVec 8
  len : BitVec 32
  digest : List Byte
  keyOk : Bool
  sigOk : Bool
deriving DecidableEq, Repr

/-- A JTAG instruction, as R298 and Table 11.2 divide them: those that LOCKED reaches, EXTEST, and every other. -/
inductive JtagInstr where
  | bypass
  | idcode
  | sample
  | extest
  | other
deriving DecidableEq, Repr

/-- What a tamper sensor reports beside its number: the cluster, of sensors 9 to 12 (R324), and the JTAG instruction shifted in, of
sensor 13 (R298). -/
structure SensorSight where
  cluster : Fin 40
  jtag : JtagInstr
deriving DecidableEq, Repr

/-- The rails of Table 15.2. -/
inductive Rail where
  | aon | vio18 | vit | ctrl | pcie | fio
  | vpp (q : Fin 4)
  | hbm (q : Fin 4)
  | hbmq (q : Fin 4)
  | wing (q : Fin 4)
  | eic (q : Fin 4)
  | pic (q : Fin 4)
  | lsr (q : Fin 4)
deriving DecidableEq, Repr

/-- The two parts of a firmware image (R299). -/
inductive ImagePart where
  | vitrine
  | curator
deriving DecidableEq, Repr

/-- The key of an alarm occurrence: unit class (Table 14.3), unit, condition (Table 14.4) (R377). -/
structure AlarmKey where
  uclass : Nat
  unit : Nat
  cond : Nat
deriving DecidableEq, Repr

/-- A NOTE (Table 14.6). -/
structure NoteMsg where
  site : BitVec 5
  suspect : BitVec 32
  lost : BitVec 32
  gwId : BitVec 32
deriving DecidableEq, Repr

/-- The commands, one per row of the opcode table, in the order of the table. -/
inductive Instr where
  /-- REGISTER_WRITE (R11): A write to a BAR0 register that has no row of its own is applied field by field according to each field's change class. -/
  | registerWrite (off : Nat) (size : Nat) (d : Word)
  /-- GLOBAL_TBL_DATA_ACCESS (R15): A read or write of GLOBAL_TBL_DATA accesses the selected table word and, with AUTOINC set, advances WORD and then INDEX. -/
  | globalTblDataAccess (a : Access)
  /-- RING_DOORBELL (R61): An SQ_DB write moves a ring's TAIL when the function and range checks pass, and is otherwise refused or dropped. -/
  | ringDoorbell (f : Fin 256) (n : Fin 4096) (w : PageWrite) (index : BitVec 32)
  /-- QUEUE_DOORBELL (R66): A CQ_DB write moves a completion queue's HEAD, re-arms the queue and may fire it at once. -/
  | queueDoorbell (f : Fin 256) (q : Fin 4096) (w : PageWrite) (index : BitVec 32)
  /-- DESCRIPTOR_FETCH (R55): The gateway selects a ring by weighted round robin and fetches descriptors while its completion queue has slot credit. -/
  | descriptorFetch
  /-- FETCH_FAILED (R58): A failed descriptor read sets FETCH, clears ENABLE and freezes TAIL. -/
  | fetchFailed (n : Fin 4096)
  /-- ABORT_RECORD_WRITE (R59): Once a slot is free, an ABORTED record is written for the next unfetched descriptor of an aborted or failed ring, and HEAD advances. -/
  | abortRecordWrite (n : Fin 4096) (readOk writeOk : Bool)
  /-- SQ_CTL_WRITE (R54): A write of SQ_CTL that enables a ring is checked against its queue, tenant, job and Registrar entry; a write that disables it stops fetching. -/
  | sqCtlWrite (n : Fin 4096) (l : Lanes) (d : Word)
  /-- SQ_ABORT (R57): Writing SQ_ABORT = 1 ends the ring's admitted operations with ABORTED and starts writing abort records for descriptors not yet run. -/
  | sqAbort (n : Fin 4096)
  /-- CQ_CTL_WRITE (R64): A write of CQ_CTL that enables a queue is checked, and a write that disables it is refused while the queue is still in use. -/
  | cqCtlWrite (q : Fin 4096) (l : Lanes) (d : Word)
  /-- NOP (R50): A NOP descriptor passes the submission checks and completes with one record. -/
  | nop (n : Fin 4096)
  /-- PUT (R32): A PUT descriptor is checked, translated and admitted to copy local window bytes to the remote window. -/
  | put (n : Fin 4096)
  /-- GET (R32): A GET descriptor is checked and admitted to copy remote window bytes into the local window. -/
  | get (n : Fin 4096)
  /-- PUT_REDUCE (R33): A PUT_REDUCE descriptor is checked for format, operation and alignment, and admitted to combine into the remote window. -/
  | putReduce (n : Fin 4096)
  /-- ATOMIC (R35): An ATOMIC descriptor is checked for sub-operation and alignment, and sent to its target. -/
  | atomic (n : Fin 4096)
  /-- SIGNAL (R37): A SIGNAL descriptor is checked and sent, with release semantics toward its target rank. -/
  | signal (n : Fin 4096)
  /-- FENCE (R38): A FENCE descriptor holds back later operations in its scope until earlier ones have written their records. -/
  | fence (n : Fin 4096)
  /-- FENCE_RELEASE (R38): When every earlier operation in its scope has completed, the FENCE completes and the operations it held start and are checked. -/
  | fenceRelease (n : Fin 4096)
  /-- DELTA_PUT (R40): A DELTA_PUT descriptor binds or uses its delta slot and sends the difference from the last value sent. -/
  | deltaPut (n : Fin 4096)
  /-- ALL_REDUCE (R113): A COLLECTIVE descriptor of kind ALL_REDUCE is checked and held for admission of its collective. -/
  | allReduce (n : Fin 4096)
  /-- REDUCE_SCATTER (R113): A COLLECTIVE descriptor of kind REDUCE_SCATTER is checked and held for admission of its collective. -/
  | reduceScatter (n : Fin 4096)
  /-- ALL_GATHER (R113): A COLLECTIVE descriptor of kind ALL_GATHER is checked and held for admission of its collective. -/
  | allGather (n : Fin 4096)
  /-- BROADCAST (R113): A COLLECTIVE descriptor of kind BROADCAST is checked, including its root, and held for admission of its collective. -/
  | broadcast (n : Fin 4096)
  /-- TABLE_PUBLISH_CODEC (R146): A TABLE_PUBLISH of KIND 0 validates a codec table image and starts its reserve to the peers. -/
  | tablePublishCodec (n : Fin 4096)
  /-- TABLE_PUBLISH_CATALOGUE (R236): A TABLE_PUBLISH of KIND 1 validates a Catalogue image and installs it as the pending version. -/
  | tablePublishCatalogue (n : Fin 4096)
  /-- TABLE_PUBLISH_PAGE (R224): A TABLE_PUBLISH of KIND 2 validates an Itinerary page image and installs it as the pending page. -/
  | tablePublishPage (n : Fin 4096)
  /-- COMPLETION_RECORD_WRITE (R65): A finished operation writes its completion record with the PHASE of its pass and releases its slot reservation. -/
  | completionRecordWrite (n : Fin 4096) (index : BitVec 32) (writeOk : Bool)
  /-- COALESCING_TIMER (R66): When the coalescing time expires on an armed queue with pending records, the queue fires. -/
  | coalescingTimer (q : Fin 4096)
  /-- FADD64 (R36): At the target atomic unit, FADD64 adds its operand modulo 2^64 and returns the prior value. -/
  | fadd64
  /-- CAS64 (R36): At the target atomic unit, CAS64 replaces the value with b when it equals a, and returns the prior value. -/
  | cas64
  /-- SWAP64 (R36): At the target atomic unit, SWAP64 writes its operand and returns the prior value. -/
  | swap64
  /-- FMIN64 (R36): At the target atomic unit, FMIN64 keeps the signed minimum and returns the prior value. -/
  | fmin64
  /-- FMAX64 (R36): At the target atomic unit, FMAX64 keeps the signed maximum and returns the prior value. -/
  | fmax64
  /-- SIGNAL_TAKE_EFFECT (R37): Once the earlier operations of its ring to the same rank are complete at the target, the SIGNAL's FADD64 is applied. -/
  | signalTakeEffect
  /-- COURIER_GO (R70): Writing GO loads the shadow set of a courier channel that is not running, and starts the transfer. -/
  | courierGo (c : Fin 16)
  /-- COURIER_ARM (R71): Setting ARM requests a load and start of the shadow set at the end of the current transfer. -/
  | courierArm (c : Fin 16) (on : Bool)
  /-- COURIER_ABORT (R72): Writing ABORT stops the transfer at the next 4 KiB boundary and writes an ABORTED record. -/
  | courierAbort (c : Fin 16) (bursts : Nat) (writeOk : Bool)
  /-- COURIER_TRANSFER_END (R71): At the end of a transfer, the channel writes its record and, if ARM is set, loads and starts the next transfer. -/
  | courierTransferEnd (c : Fin 16) (writeOk : Bool)
  /-- COURIER_MEMORY_ERROR (R72): A memory error during a transfer halts the channel with an ABORTED record. -/
  | courierMemoryError (c : Fin 16) (moved : Nat) (writeOk : Bool)
  /-- TOUR_CTL_WRITE (R103): A write of TOUR_CTL.ENABLE is checked against the provenance buffer; a write of 0 stops new chunks. -/
  | tourCtlWrite (w : Fin 4) (l : Lanes) (d : Word)
  /-- TOUR_PROV_IDX_WRITE (R101): A write of RD consumes provenance records, and is ignored if it moves RD backward or past WR. -/
  | tourProvIdxWrite (w : Fin 4) (l : Lanes) (d : Word)
  /-- PARTIAL_COMBINE (R93): Once its local operand is staged, an arriving partial is combined in the tour engine and passed on. -/
  | partialCombine (coll : BitVec 32) (chunk : Nat) (piece : Fin 32) (faults : List BeatFault)
  /-- TOUR_TS_DATA_ACCESS (R104): An access to TOUR_TS_DATA reads or writes a tour set word, and a write is copied to every enabled wing. -/
  | tourTsDataAccess (a : Access)
  /-- COLLECTIVE_ADMIT (R108): When LOCAL descriptors of one COLL_ID are held, the gateway admits the collective, forms COLL_PRINT and binds its codec version. -/
  | collectiveAdmit (coll : BitVec 32)
  /-- COLLECTIVE_START (R116): At START, or at the first tour-start action after admission, the gateway begins sending the pieces it starts. -/
  | collectiveStart (coll : BitVec 32)
  /-- COLL_END_RECEIVE (R117): A COLL_END notice completes the collective at the receiver with the status it carries. -/
  | collEndReceive (m : ServiceMsg) (tagOk : Bool)
  /-- COLLECTIVE_COMPLETE (R119): When every destination write is acknowledged and every segment is receipted, one record is written per local descriptor. -/
  | collectiveComplete (coll : BitVec 32)
  /-- RACE_COPY (R120): A tail segment still queued RACE_LAG after its cut is copied onto another carrier of the ring. -/
  | raceCopy (c : Fin 32768) (seq : BitVec 32) (m : Fin 128)
  /-- SEGMENT_CUT (R167): When window, credit, Annex log room and a transmit loan permit, the sender cuts the next segment and logs it in the Annex. -/
  | segmentCut (c : Fin 32768) (m : Fin 128)
  /-- BLOCK_DECODE (R137): Once every segment holding a block has verified its tag, the block is CRC-checked and decoded. -/
  | blockDecode (c : Fin 32768) (item : ItemKey) (off : Nat) (faults : List BeatFault)
  /-- CODEC_SLOT_DATA_ACCESS (R139): An access to CODEC_SLOT_DATA reads or writes a slot word, and a write that enables a slot is checked. -/
  | codecSlotDataAccess (a : Access)
  /-- CODEC_STAGE (R142): CODEC_STAGE GO stages the slot's ACTIVE version into the wings named. -/
  | codecStage (l : Lanes) (d : Word)
  /-- STAGING_COMPLETE (R142): Staging of a table version into a wing finishes, and blocks waiting on it may proceed. -/
  | stagingComplete (slot : Fin 8192) (ver : Fin 2) (w : Fin 4)
  /-- CODEC_BUILD (R145): CODEC_BUILD GO has Curator firmware build a table image from the slot's histogram. -/
  | codecBuild (l : Lanes) (d : Word)
  /-- CODEC_BUILD_DONE (R145): The build ends, the image or EMPTY is set, the histogram is cleared and GO clears. -/
  | codecBuildDone
  /-- PUB_RESERVE_RECEIVE (R147): A peer reassembles the PUB_RESERVE fragments and answers accept, BUSY, BAD_DESCRIPTOR or none. -/
  | pubReserveReceive (m : ServiceMsg) (tagOk : Bool)
  /-- PUB_ANSWER_RECEIVE (R147): The publisher records a PUB_ANSWER and sends PUB_COMMIT or PUB_ABORT once every peer has answered. -/
  | pubAnswerReceive (m : ServiceMsg) (tagOk : Bool)
  /-- PUB_COMMIT_RECEIVE (R148): A peer commits the staged image and answers PUB_COMMIT_ACK. -/
  | pubCommitReceive (m : ServiceMsg) (tagOk : Bool)
  /-- PUB_ABORT_RECEIVE (R147): A peer drops the staged image, clears PEND and answers PUB_COMMIT_ACK. -/
  | pubAbortReceive (m : ServiceMsg) (tagOk : Bool)
  /-- PUB_COMMIT_ACK_RECEIVE (R150): Once every accepting peer has acknowledged, the TABLE_PUBLISH completes. -/
  | pubCommitAckReceive (m : ServiceMsg) (tagOk : Bool)
  /-- CODEC_INSTALL (R148): Once the REF of version v is 0, a committed image is installed as version v. -/
  | codecInstall (slot : Fin 8192)
  /-- CODEC_ACTIVATE (R148): At ACTIVATE, or at installation if that is later, ACTIVE becomes v and PEND clears. -/
  | codecActivate (slot : Fin 8192)
  /-- RESERVE_DISCARD (R274): A PUB_RESERVE not whole within 100 ms of its first fragment is discarded. -/
  | reserveDiscard (txn : BitVec 32)
  /-- DELTA_RELEASE_RECEIVE (R44): The receiver frees the snapshot pages that a DELTA_RELEASE names and answers DELTA_RELEASE_ACK. -/
  | deltaReleaseReceive (m : ServiceMsg) (tagOk : Bool)
  /-- DELTA_RELEASE_ACK_RECEIVE (R44): A DELTA_RELEASE_ACK stops the sender repeating its release. -/
  | deltaReleaseAckReceive (m : ServiceMsg) (tagOk : Bool)
  /-- STREAM_OPEN (R158): STREAM_CMD OPEN reserves resources for a context and sends ACCEDE, or reports an existing context. -/
  | streamOpen (d : Word)
  /-- STREAM_CLOSE (R162): STREAM_CMD CLOSE moves an OPEN context to DRAINING. -/
  | streamClose (d : Word)
  /-- STREAM_ABORT (R163): STREAM_CMD ABORT ends a context's operations with ABORTED, sends DEACCEDE and closes the context. -/
  | streamAbort (d : Word)
  /-- ACCEDE_RECEIVE (R159): A peer checks and reserves for an ACCEDE, then answers ACCEPT or REFUSE, or holds it. -/
  | accedeReceive (m : AccessionMsg) (tagOk : Bool)
  /-- ACCEPT_RECEIVE (R161): An ACCEPT opens the context and takes the first round-trip sample. -/
  | acceptReceive (m : AccessionMsg) (tagOk : Bool)
  /-- REFUSE_RECEIVE (R160): A REFUSE closes the context and completes its waiting operations with the peer's status. -/
  | refuseReceive (m : AccessionMsg) (tagOk : Bool)
  /-- DEACCEDE_RECEIVE (R163): A DEACCEDE makes the peer drain, or, with STATUS ABORTED, abort and close. -/
  | deaccedeReceive (m : AccessionMsg) (tagOk : Bool)
  /-- DEACCEDE_ACK_RECEIVE (R162): A DEACCEDE_ACK closes a draining context and releases its resources. -/
  | deaccedeAckReceive (m : AccessionMsg) (tagOk : Bool)
  /-- ACCESSION_TIMEOUT (R160): An accession with no answer within PEER_LEASE fails its operations with PEER_LOST. -/
  | accessionTimeout (c : Fin 32768)
  /-- ACCEDE_HOLD_EXPIRY (R159): A PINNED peer whose host has not opened the context within PEER_LEASE answers REFUSE. -/
  | accedeHoldExpiry (job : Fin 4096) (site : Fin 32) (cls : Fin 16) (w : Fin 4)
  /-- IDLE_CLOSE (R162): A context idle for IDLE_CLOSE ms enters DRAINING. -/
  | idleClose (c : Fin 32768)
  /-- DRAIN_COMPLETE (R162): When both directions are receipted and operations complete, a draining context sends DEACCEDE. -/
  | drainComplete (c : Fin 32768)
  /-- SEGMENT_RECEIVE (R168): An arriving segment is tested for stream, duplicate, window and tag, then held and marked received. -/
  | segmentReceive (m : Fin 128) (g : Segment) (race tagOk : Bool)
  /-- RECEIPT_TIMER (R169): When RCPT_INT has passed since the last receipt and a segment has arrived, a receipt is sent. -/
  | receiptTimer (c : Fin 32768)
  /-- RECEIPT_RECEIVE (R172): An accepted receipt advances SND_UNA, restarts the timer and releases Annex space. -/
  | receiptReceive (r : Receipt) (tagOk : Bool)
  /-- RETRANSMISSION_TIMEOUT (R172): On timer expiry, the lowest unreceipted segment is resent and the backoff grows. -/
  | retransmissionTimeout (c : Fin 32768)
  /-- STACK_FAILURE (R181): A failed HBM stack makes mirrored directions continue from the survivor and start resilvering. -/
  | stackFailure (k : Fin 8)
  /-- ANNEX_RELOCATE (R180): One RTO after a stack failure, an unmirrored direction fails with DATA_LOST or moves its log to the other stack. -/
  | annexRelocate (c : Fin 32768)
  /-- RESILVER_COMPLETE (R181): When resilvering ends, the target stack takes the failed stack's role and the mirror is whole again. -/
  | resilverComplete (c : Fin 32768)
  /-- QUARTER_CONTEXT_END (R156): One RTO after a quarter fence, each context homed on it ends with DATA_LOST or is closed and re-acceded. -/
  | quarterContextEnd (c : Fin 32768)
  /-- BUFFER_RETURN (R185): A returned buffer pointer is checked and freed, or discarded with BAD_PTR or DOUBLE counted. -/
  | bufferReturn (p : Fin 64) (ptr : BitVec 40)
  /-- POOL_ENABLE (R183): A write that sets a pool's EN is checked for size, alignment, placement and overlap. -/
  | poolEnable (p : Fin 64) (l : Lanes) (d : Word)
  /-- SERVO_SAMPLE (R197): A valid time sample runs the domain's PI loop and moves its servo state. -/
  | servoSample (dom : Fin 2) (o : Int)
  /-- SOURCE_LOST (R196): Eight sample intervals without a valid sample, or peer suspicion, mark the domain's source lost. -/
  | sourceLost (dom : Fin 2)
  /-- PTP_MESSAGE_RECEIVE (R194): A PTP message on a slave port supplies the domain's offset sample, or is answered as master. -/
  | ptpMessageReceive (p : Fin 128) (m : PtpMsg)
  /-- PTP_SYNC_SEND (R201): Master ports send Sync for their domain every 2^LOG_SYNC s. -/
  | ptpSyncSend (dom : Fin 2)
  /-- PTP_RELAY (R207): The transparent clock relays a PTP message and adds its residence time to correctionField. -/
  | ptpRelay (p : Fin 128) (m : PtpMsg) (residence : Nat)
  /-- TIME_ADJ_STEP (R198): TIME_ADJ with MODE step adds OFFSET to the timebase. -/
  | timeAdjStep (ofs : BitVec 48)
  /-- TIME_ADJ_SLEW (R198): TIME_ADJ with MODE slew removes OFFSET through y at SLEW_MAX. -/
  | timeAdjSlew (ofs : BitVec 48)
  /-- TIME_ADJ_SET (R198): TIME_ADJ with MODE set sets the timebase to TIME_SET.SEC plus OFFSET. -/
  | timeAdjSet (ofs : BitVec 48)
  /-- STEER_WRITE (R199): A write that changes TIME_CTL.STEER is a switchover. -/
  | steerWrite (dom : Fin 2)
  /-- DOMAIN_ENABLE (R214): A write of TIME_DOM_d_CFG.EN = 1 is checked against SRC and sets the servo to FREERUN. -/
  | domainEnable (dom : Fin 2) (l : Lanes) (d : Word)
  /-- TIME_NOW_READ (R190): A read of TIME_NOW_SEC latches the whole timebase. -/
  | timeNowRead
  /-- PPS_OUT_PULSE (R210): PPS_OUT rises at each whole second plus OUT_OFS. -/
  | ppsOutPulse
  /-- TOD_OUT_SEND (R210): TOD_OUT sends the message for the second 10 ms after the PPS edge. -/
  | todOutSend
  /-- PPS_IN_EDGE (R209): A PPS_IN rising edge is timestamped for the domain sample. -/
  | ppsInEdge
  /-- TOD_IN_MESSAGE (R211): A TOD_IN message is parsed and, if valid and timely, completes the PPS sample. -/
  | todInMessage (bytes : List Byte)
  /-- TOD_IN_TIMEOUT (R209): A missing or late TOD_IN message skips the sample and sets TOD_BAD. -/
  | todInTimeout
  /-- LEAP_EVENT (R212): At the end of the UTC day, the leap indication is applied to the UTC offset and LEAP clears. -/
  | leapEvent
  /-- MARK_RECEIVE (R204): A MARK from a peer is timestamped, and D_in is kept. -/
  | markReceive (e : Fin 8) (p : Fin 4096) (m : TimeMark) (arrival : Nat)
  /-- ECHO_RECEIVE (R205): An ECHO forms the line time sample O and the mean path delay. -/
  | echoReceive (e : Fin 8) (p : Fin 4096) (m : TimeEcho)
  /-- ANCHOR_VISIT (R221): Every 20 µs, the anchor retunes to the next site of the rota and sends MARK, ECHO, QUAL, PATH_REPORT, NOTE and queued control messages. -/
  | anchorVisit (e : Fin 8)
  /-- ITINERARY_NOP (R225): A NOP Itinerary entry launches at its slot with no effect. -/
  | itineraryNop (w : Fin 4)
  /-- RETUNE (R231): A RETUNE entry blanks and moves the transmitter and/or local oscillator to new colours. -/
  | retune (w : Fin 4)
  /-- WINDOW_OPEN (R230): A WINDOW_OPEN entry admits stream classes on a carrier, unrestricted or pinned to a tenant. -/
  | windowOpen (w : Fin 4)
  /-- WINDOW_CLOSE (R231): A WINDOW_CLOSE entry withdraws stream classes from a carrier's window. -/
  | windowClose (w : Fin 4)
  /-- PARK (R233): A PARK entry darkens the named sides of a carrier and keeps them warm. -/
  | park (w : Fin 4)
  /-- WAKE (R235): A WAKE entry wakes the named sides of a carrier at its slot. -/
  | wake (w : Fin 4)
  /-- PHASE_START (R116): A PHASE_START entry is the tour-start action that starts collectives bound to its phase. -/
  | phaseStart (w : Fin 4)
  /-- HEATER_FF (R253): A HEATER_FF entry starts a feed-forward heater pulse and freezes the loop integrator. -/
  | heaterFf (w : Fin 4)
  /-- HEATER_PULSE_END (R253): At the end of HOLD, the heater output returns to its base and the loop resumes. -/
  | heaterPulseEnd (m : Fin 128) (h : Fin 4)
  /-- GUARD_END (R231): At SLOT plus GUARD, segments resume on a retuned or woken carrier. -/
  | guardEnd (m : Fin 128)
  /-- FINE_LOCK (R248): A laser reaches fine lock and frames carry the new colour; late locks increment LATE_LOCK. -/
  | fineLock (m : Fin 128) (lo : Bool)
  /-- RECEIVER_RELOCK (R249): A receiver relocks from a valid path state entry. -/
  | receiverRelock (m : Fin 128) (ok : Bool)
  /-- COLD_ACQUISITION (R249): A receiver without usable path state ends a cold acquisition and increments COLD. -/
  | coldAcquisition (m : Fin 128)
  /-- PARK_CANCEL_RECEIVE (R234): A PARK_CANCEL received before the RX park's slot skips the park; later ones set CANCEL_LATE. -/
  | parkCancelReceive (m : PlanMsg) (tagOk : Bool)
  /-- WAKE_REQUEST (R234): A write of ITIN_WAKE makes a wake request that cancels a pending park or waits for a wake slot. -/
  | wakeRequest (m : Fin 128)
  /-- WAKE_SLOT (R235): At a wake slot, requested transmitters relight and send frames with WAKE = 1. -/
  | wakeSlot (m : Fin 128)
  /-- WAKE_CHECK_EXPIRY (R235): A parked receiver that sees no WAKE frame by its deadline parks again. -/
  | wakeCheckExpiry (m : Fin 128)
  /-- RETURN_RECEIVE (R229): A sender answers RETURN with RETURN_ACK, accepting if it arrived before T minus 10 µs. -/
  | returnReceive (m : PlanMsg) (tagOk : Bool)
  /-- RETURN_ACK_RECEIVE (R229): A RETURN_ACK ends the RETURN repeats, or with ACCEPT = 0 makes the receiver propose again. -/
  | returnAckReceive (m : PlanMsg) (tagOk : Bool)
  /-- CARRIER_REJOIN (R229): At time T, the relocked side returns to its group on the scheduled colours. -/
  | carrierRejoin (m : Fin 128)
  /-- RELOCK_ATTEMPT (R229): The Conservator attempts to relock a carrier out of its group, using its scheduled state. -/
  | relockAttempt (m : Fin 128) (ok : Bool)
  /-- ANNOUNCE_RECEIVE (R237): An ANNOUNCE matching the own pending item sets the sender's READY bit, unless ORDER_PRINT differs. -/
  | announceReceive (m : PlanMsg) (tagOk : Bool)
  /-- CANCEL_RECEIVE (R238): A CANCEL before the commit point drops the pending item; a later one sets CANCEL_LATE. -/
  | cancelReceive (m : PlanMsg) (tagOk : Bool)
  /-- COMMIT_POINT (R238): At ACTIVATE minus COMMIT_LEAD, the pending item is committed and can no longer be cancelled. -/
  | commitPoint (k : PlanKind)
  /-- PAGE_ACTIVATE (R239): At ACTIVATE, the pending Itinerary page becomes active and unexecuted old entries are dropped. -/
  | pageActivate
  /-- CATALOGUE_ACTIVATE (R220): At ACTIVATE, the pending Catalogue version becomes active and contexts whose peer changed are aborted. -/
  | catalogueActivate
  /-- ITIN_CANCEL (R238): ITIN_CANCEL GO drops the pending page before its commit point and starts sending CANCEL. -/
  | itinCancel
  /-- CAT_CANCEL (R238): CAT_CANCEL GO drops the pending Catalogue version before its commit point and starts sending CANCEL. -/
  | catCancel
  /-- CEP_HOLD_END (R218): HOLD ms after a Catalogue activation, the other CEP value is no longer accepted. -/
  | cepHoldEnd
  /-- ITIN_PAGE_DATA_READ (R241): A read of ITIN_PAGE_DATA returns the selected page word and, with AUTOINC set, advances WORD. -/
  | itinPageDataRead
  /-- CAT_DATA_READ (R241): A read of CAT_DATA returns the selected Catalogue word and, with AUTOINC set, advances WORD. -/
  | catDataRead
  /-- CONNECTOR_CHANGE (R243): A fibre connector that goes absent darkens the transmitters of its four engines. -/
  | connectorChange (f : Fin 2) (present : Bool)
  /-- CONNECTOR_SETTLE (R243): After a connector has been present for 100 ms, its transmitters relight under their scheduled state. -/
  | connectorSettle (f : Fin 2)
  /-- FIBRE_LOS (R243): Receive power below LOS_THR for 10 µs sets FIBRE_LOS, and the plane is lost. -/
  | fibreLos (e : Fin 8) (rxTotal : BitVec 16)
  /-- PIC_TEMP_DEVIATION (R250): A PIC temperature deviation for 10 ms sets TEMP, or beyond ±5 °C darkens the engine. -/
  | picTempDeviation (e : Fin 8) (temp : BitVec 16)
  /-- PATH_REPORT_RECEIVE (R260): A PATH_REPORT from a peer is stored in KW_PEER_p. -/
  | pathReportReceive (m : PathReport) (tagOk : Bool)
  /-- MONITOR_SAMPLE (R259): Every 1 ms, the monitors and path state of a lit, locked side are rewritten and sampled into the PM bins. -/
  | monitorSample (m : Fin 128) (v : Monitors)
  /-- PATH_CLEAR (R249): KW_PATH_CLR GO clears VALID in the path state entries of one carrier. -/
  | pathClear (m : Fin 128)
  /-- PATH_CLEAR_ALL (R249): KW_PATH_CLR GO with ALL clears VALID in the path state entries of every carrier. -/
  | pathClearAll
  /-- CARRIER_CFG_WRITE (R262): A write of KW_CAR_m_CFG.EN is checked against MODE, FEC and the anchor carrier. -/
  | carrierCfgWrite (m : Fin 128) (l : Lanes) (d : Word)
  /-- RECEIVER_LOCK_LOSS (R276): Loss of receiver lock or light sets dLOS. -/
  | receiverLockLoss (m : Fin 128)
  /-- FRAME_TRANSMIT (R263): The transmitter sends the next frame with its overhead, control bytes and packed segments. -/
  | frameTransmit (m : Fin 128) (fill : Int)
  /-- FRAME_RECEIVE (R275): A decoded frame is aligned and checked, and its segments and control bytes are delivered. -/
  | frameReceive (m : Fin 128) (f : Frame) (bad : List BadWord)
  /-- CARRIER_OUT_RECEIVE (R283): A CARRIER_OUT removes the named carrier from the transmit group and triggers resends. -/
  | carrierOutReceive (m : CarrierOutMsg) (tagOk : Bool)
  /-- PM_SECOND (R287): Each TAI second is classified into the performance monitoring counters. -/
  | pmSecond (ent : Fin 384)
  /-- INIT_RECEIVE (R305): A reassembled INIT is checked and answered with REPLY or ALERT. -/
  | initReceive (p : Fin 4096) (m : SealMsg)
  /-- REPLY_RECEIVE (R305): A reassembled REPLY is checked and answered with FINISH or ALERT. -/
  | replyReceive (p : Fin 4096) (m : SealMsg)
  /-- FINISH_RECEIVE (R306): A FINISH is verified; the responder derives keys, becomes SEALED and sends DONE. -/
  | finishReceive (p : Fin 4096) (m : SealMsg)
  /-- DONE_RECEIVE (R306): A verified DONE makes the initiator SEALED. -/
  | doneReceive (p : Fin 4096) (m : SealMsg)
  /-- ALERT_RECEIVE (R305): An ALERT ends the sealing session in FAILED with its REASON. -/
  | alertReceive (p : Fin 4096) (m : SealMsg)
  /-- SEAL_REASSEMBLY_TIMEOUT (R304): A SEAL body not reassembled within 100 ms is discarded. -/
  | sealReassemblyTimeout (p : Fin 4096) (step : Fin 8)
  /-- SEAL_RETRY (R303): SEAL_RETRY ms in FAILED, or in UNSEALED with a lost peer, restart sealing. -/
  | sealRetry (p : Fin 4096)
  /-- COMMIT_SVN (R300): VT_CMD COMMIT_SVN raises SVN_MIN to the running Vitrine SVN. -/
  | commitSvn
  /-- OPKEY_PROGRAM (R301): VT_CMD OPKEY_PROGRAM fuses the operator key digest once. -/
  | opkeyProgram
  /-- CRED_INSTALL (R301): VT_CMD CRED_INSTALL verifies and installs the operator credential. -/
  | credInstall (keyOk sigOk : Bool)
  /-- ATTEST (R302): VT_CMD ATTEST places a signed attestation record and the certificates in VT_BUF. -/
  | attest
  /-- SEAL_PEER (R303): VT_CMD SEAL_PEER starts sealing with a named peer. -/
  | sealPeer (arg : BitVec 16)
  /-- DBG_CHALLENGE (R302): VT_CMD DBG_CHALLENGE places a fresh nonce in VT_BUF. -/
  | dbgChallenge
  /-- DBG_UNLOCK (R297): VT_CMD DBG_UNLOCK moves LOCKED to NW with a valid token and restricts every sealing. -/
  | dbgUnlock (sigOk : Bool)
  /-- DBG_LOCK (R297): VT_CMD DBG_LOCK returns NW to LOCKED. -/
  | dbgLock
  /-- REHASH (R349): VT_CMD REHASH in P3 redraws the keys of the three hashed maps. -/
  | rehash
  /-- RMA (R293): VT_CMD RMA with a Nimmor token erases as L3 and fuses the RMA state. -/
  | rma (sigOk : Bool)
  /-- SELFTEST (R296): VT_CMD SELFTEST repeats the known-answer tests within 2 ms. -/
  | selftest (pass : Bool)
  /-- LOAD (R313): A BAR4 commit with OP LOAD writes a plaintext half-key after the ordered checks. -/
  | load (f : Fin 256) (ch : Fin 16) (r : LoadRecord)
  /-- LOAD_WRAPPED (R314): A BAR4 commit with OP LOAD_WRAPPED unwraps a half-key under KEK_t and writes it. -/
  | loadWrapped (f : Fin 256) (ch : Fin 16) (r : LoadRecord) (tagOk : Bool)
  /-- CLEAR (R313): A BAR4 commit with OP CLEAR zeroises the named half-key. -/
  | clear (f : Fin 256) (ch : Fin 16) (r : LoadRecord)
  /-- SET_KEK (R314): A BAR4 commit with OP SET_KEK derives a new KEK for the tenant. -/
  | setKek (f : Fin 256) (ch : Fin 16) (r : LoadRecord)
  /-- VT_TEN_WRITE (R309): A write of a tenant's pair range is refused with MISMATCH if ranges overlap or exceed the pairs. -/
  | vtTenWrite (t : Fin 1024) (l : Lanes) (d : Word)
  /-- TAMPER_SENSOR_TRIP (R324): A sensor trip acts at its level: log, quarantine of contexts, or erasure of keys. -/
  | tamperSensorTrip (sensor : Fin 16) (sight : SensorSight)
  /-- TRNG_RECOVERY (R324): After 1,024 consecutive passing samples, TRNG_OK returns to 1. -/
  | trngRecovery
  /-- POWER_GATE (R326): VT_PWR_REQ with ACTION gate requests gating of a cluster or a quarter. -/
  | powerGate (target : Fin 128)
  /-- POWER_UNGATE (R326): VT_PWR_REQ with ACTION ungate restores power to a cluster or a quarter. -/
  | powerUngate (target : Fin 128)
  /-- GATE_DEFER_END (R326): A deferred gate is granted once its unit is idle, or refused with BUSY after 10 ms. -/
  | gateDeferEnd
  /-- CLUSTER_POWER_LOSS (R327): A cluster that loses power without a grant is zeroised, and its contexts end with KEY_LOST. -/
  | clusterPowerLoss (k : Fin 40)
  /-- LRM_READ_RESP (R332): An accepted READ_RESP delivers data toward its outstanding READ_REQ. -/
  | lrmReadResp (p : Fin 128) (m : ReadResp)
  /-- LRM_WRITE_ACK (R332): A WRITE_ACK completes an outstanding WRITE. -/
  | lrmWriteAck (p : Fin 128) (m : LrmPacket)
  /-- LRM_DOORBELL (R333): A DOORBELL packet applies a ring or queue doorbell for a LOC = 1 queue. -/
  | lrmDoorbell (p : Fin 128) (m : LrmPacket)
  /-- LRM_CNP (R337): A CNP reduces, or creates, the write rate limiter of its flow. -/
  | lrmCnp (p : Fin 128) (m : LrmPacket)
  /-- LRM_NAK (R334): A NAK ends its request with the outcome for what the request served. -/
  | lrmNak (p : Fin 128) (m : LrmPacket)
  /-- LRM_RETRY_TIMEOUT (R334): An unanswered READ_REQ or unacknowledged WRITE is sent again, and fails after 8 attempts. -/
  | lrmRetryTimeout (tag : BitVec 32)
  /-- PORT_STATE_CHANGE (R330): A logical port going up or down changes the egress set and discards its queued packets. -/
  | portStateChange (p : Fin 128) (up : Bool)
  /-- RATE_INCREASE (R337): After RAI_INT without reduction, a limiter's rate rises by RAI, and it is freed at port rate. -/
  | rateIncrease (limiter : Fin 16384)
  /-- SCHEDULING_SELECTION (R341): At each packet or segment start, the levels of the scheduler choose the next item by WFQ tags. -/
  | schedulingSelection (ent : Fin 256)
  /-- QUEUE_SAMPLE (R345): Every 1 µs, each level-3 queue's depth and sojourn delay are sampled. -/
  | queueSample
  /-- FAB_QS_DATA_READ (R345): A read of FAB_QS_DATA returns the last and largest samples and clears MAX. -/
  | fabQsDataRead
  /-- FLIT_INJECT (R348): A flit enters the package ring once two buffers of its channel are free. -/
  | flitInject (stop : Fin 8) (flit : Option (Fin 3 × Fin 8))
  /-- FLIT_ARRIVE (R348): A flit arriving at its stop is ejected, or deflected when the ejection buffer is full. -/
  | flitArrive (stop : Fin 8) (vc : Fin 3) (up full : Bool)
  /-- SKEW_CHECK (R351): Every 1 ms, the pseudo-channel skew of each stack is computed and HASH_SKEW raised when persistent. -/
  | skewCheck (k : Fin 8) (counts : List Nat) (tenant : Fin 1024)
  /-- POWER_ON (R355): The power-on detector holds reset until every rail is in range and all state is lost except fuses and flash. -/
  | powerOn
  /-- POWER_RAIL_FAULT (R355): A rail that leaves its range asserts reset. -/
  | powerRailFault (rail : Rail) (mv : Nat)
  /-- RESET_N_ASSERT (R355): A low level on RESET_N of at least 1 µs starts a stretched reset. -/
  | resetNAssert (lowNs : Nat)
  /-- RESET_RELEASE (R355): 20 ms after the last reset cause ends, the gateway releases RESET_N. -/
  | resetRelease (bootSel clkMode : Fin 4)
  /-- CFG_SENSE_CONVERSION (R357): The CFG_SENSE conversion completes with a resistance in ohms, and sets the effective boot source and clock mode. -/
  | cfgSenseConversion (ohms : Nat)
  /-- BOOT_SELFTEST_DONE (R360): The ROM tests end and boot moves to LOADING or FAILED. -/
  | bootSelftestDone (pass refclk : Bool)
  /-- IMAGE_CHECK (R299): A firmware part is read and checked against the key digests, its signature and SVN_MIN. -/
  | imageCheck (part : ImagePart) (h : ImageHeader)
  /-- BOOT_INIT_DONE (R360): Curator initialisation ends and boot moves to READY or FAILED. -/
  | bootInitDone (pllOk : Bool) (stacksOk : Fin 256) (wingsOk : Fin 16)
  /-- PCIE_CONFIG_READY (R359): 100 ms after reset release, the PCIe endpoint answers configuration requests. -/
  | pcieConfigReady
  /-- HOST_DOWNLOAD (R361): CUR_DL GO has the ROM read and check an image from host memory. -/
  | hostDownload (vit cur : ImageHeader)
  /-- DOWNLOAD_TIMEOUT (R361): A host download not started within 60 s ends boot with code 0x05. -/
  | downloadTimeout
  /-- POWER_TARGET_WRITE (R365): A write of SYS_PWR.TARGET requests a power state move, checked for drain and allowed moves. -/
  | powerTargetWrite (t : Fin 4)
  /-- POWER_MOVE_DONE (R366): A power state move completes and STATE reports the new state. -/
  | powerMoveDone
  /-- THROTTLE (R367): A junction reaching THROTTLE_C throttles its wing or sets THERM_FIX, and asserts THERM_N. -/
  | throttle (q : Fin 4) (temp : BitVec 16)
  /-- JUNCTION_125C (R368): A quarter whose junction reaches 125 °C is powered off at once and fenced. -/
  | junction125c (q : Fin 4)
  /-- PLL_LOCK_LOSS (R364): A PLL losing lock clears its LOCK bit, increments LOSS and raises an alarm. -/
  | pllLockLoss (dom : Fin 25)
  /-- TOUR_ENGINE_RESET (R369): SYS_BLK_RST with BLOCK 0x01 resets a quiesced tour engine. -/
  | tourEngineReset (unit : Fin 256)
  /-- CODEC_STAGING_RESET (R369): SYS_BLK_RST with BLOCK 0x02 clears a wing's staged tables. -/
  | codecStagingReset (unit : Fin 256)
  /-- CIPHER_CLUSTER_RESET (R369): SYS_BLK_RST with BLOCK 0x03 zeroises a cluster's key store and lifts its fence. -/
  | cipherClusterReset (unit : Fin 256)
  /-- KWAVE_ENGINE_RESET (R369): SYS_BLK_RST with BLOCK 0x04 resets a disabled Kwave engine. -/
  | kwaveEngineReset (unit : Fin 256)
  /-- FABRIC_PORT_RESET (R369): SYS_BLK_RST with BLOCK 0x05 resets a disabled fabric port. -/
  | fabricPortReset (unit : Fin 256)
  /-- COURIER_CHANNEL_RESET (R369): SYS_BLK_RST with BLOCK 0x06 resets an idle courier channel. -/
  | courierChannelReset (unit : Fin 256)
  /-- BLOCK_RESET_DONE (R369): A block reset ends and GO clears. -/
  | blockResetDone
  /-- VERSION (R370): Mailbox VERSION returns the Curator SVN, build and calibration version. -/
  | version
  /-- FLASH_WRITE (R371): Mailbox FLASH_WRITE checks an image and writes it to the named flash slot. -/
  | flashWrite (arg : BitVec 32) (vit cur : ImageHeader) (otherGood : Bool)
  /-- CAL_READ (R370): Mailbox CAL_READ returns a calibration record. -/
  | calRead (arg : BitVec 32)
  /-- LOG_READ (R370): Mailbox LOG_READ returns firmware log bytes from an offset. -/
  | logRead (arg : BitVec 32)
  /-- MAILBOX_COMPLETE (R370): A mailbox command ends, writes STATUS and LEN, clears GO and may send an interrupt. -/
  | mailboxComplete
  /-- HEARTBEAT (R370): CUR_STATE.HEARTBEAT increments every 1 ms while the firmware runs. -/
  | heartbeat
  /-- ALARM_WINDOW_CLOSE (R377): When a coalescing window closes, its record is written and one MSI-X is sent. -/
  | alarmWindowClose (k : AlarmKey)
  /-- PEER_SUSPECT (R382): A peer without contact for SUSPECT_MS enters SUSPECT. -/
  | peerSuspect (p : Fin 4096)
  /-- PEER_LEASE_EXPIRY (R382): A peer whose deadline is reached enters LOST. -/
  | peerLeaseExpiry (p : Fin 4096)
  /-- VOUCH (R384): HEALTH_PEER_CMD VOUCH extends a peer's deadline by EXT_MS. -/
  | vouch (p : Fin 4096) (extMs : BitVec 16)
  /-- CONDEMN (R384): HEALTH_PEER_CMD CONDEMN moves a peer to LOST at once. -/
  | condemn (p : Fin 4096)
  /-- NOTE_RECEIVE (R385): A NOTE raises remote suspicion records and may cause a mutual loss. -/
  | noteReceive (m : NoteMsg) (tagOk : Bool)
  /-- MARGIN_SAMPLE (R386): Every 1 ms, the Conservator updates each margin and its state. -/
  | marginSample (k : Fin 4) (u : Fin 128) (v : BitVec 16)
  /-- TREND_FIT (R387): Every 1 s, the Conservator fits a trend to each margin, raises MARGIN_TREND and steps voltages. -/
  | trendFit (k : Fin 4) (u : Fin 128) (mean : Int)
  /-- HEALTH_MDATA_READ (R386): A read of HEALTH_MDATA returns the margin values and clears MIN. -/
  | healthMdataRead
  /-- TRANSMITTER_LOCK_LOSS (R283): A transmit side that loses fine lock leaves its transmit group at its own end, and its unreceipted segments are resent. -/
  | transmitterLockLoss (m : Fin 128)
  /-- WING_FAULT (R374): A wing fault fences its quarter (cause 7), moves its chunks and ends its contexts. -/
  | wingFault (w : Fin 4)
  /-- EIC_FAULT (R373): An EIC fault removes one engine from service as the loss of a plane. -/
  | eicFault (e : Fin 8)
  /-- CURATOR_FIRMWARE_STOP (R373): Curator firmware stops, HEARTBEAT stops, and background work (table builds, Conservator, relock) ceases while the data path continues. -/
  | curatorFirmwareStop
  /-- HOLDOVER_TRUST_LOSS (R203): In HOLDOVER, TE grows past TE_LIMIT, TRUST falls to 0 and an L1 LOG alarm is raised. -/
  | holdoverTrustLoss (dom : Fin 2)
  /-- PPS_IN_MISSING (R209): A PPS_IN edge that does not come sets PPS_MISS and skips the sample. -/
  | ppsInMissing
  /-- REFERENCE_LOST (R202): The CLK_MODE reference (REF10M_IN or PPS_IN) disappears or returns, setting REF_LOST and changing the reference that the timebase frequency follows. -/
  | referenceLost (ref10m pps : Bool)
  /-- THROTTLE_RELEASE (R368): When every junction falls below THROTTLE_C, THERM_N is released and throttling stops. -/
  | throttleRelease
  /-- PCIE_READ_COMPLETION (R55): A PCIe read completion from host memory delivers descriptor slots or window data requested by the gateway. -/
  | pcieReadCompletion (tag : BitVec 32) (data : ReadData)
  /-- BPM_POOL_STAT_READ (R189): A read of BPM_POOL_STAT returns FREE, RESV and LOW, and restarts the LOW minimum. -/
  | bpmPoolStatRead (p : Fin 64)
  /-- PINNED_CHUNK_WAIT_EXPIRY (R156): Moved chunks of a PINNED tenant's collective that find no OPEN context on the new wing within PEER_LEASE end the collective with ABORTED. -/
  | pinnedChunkWaitExpiry (coll : BitVec 32)
deriving DecidableEq, Repr

end Sys2Proof
end

