-- ==== Sys2Proof/Decode.lean ====
section
/-! DEFINITION. The command a word spells by the bits of the opcode table. No row of this hardware's table gives bits (every row's
`fields` is empty), so no word spells a command. -/

namespace Sys2Proof

/-- The command that `nbits` bits `w` spell: none, since the table gives no row any bits. -/
def decodeTableWord (_nbits _w : Nat) : Option Instr := none

end Sys2Proof
end

