-- ==== Sys2Proof/Config.lean ====
section
/-! DEFINITION. What the spec leaves open and what rests on secrets or on analogue parts: opaque constants, so that no proof can
see a value, and the one number the model fixes by choice. -/

namespace Sys2Proof.Config

/-- A value the spec leaves open: the n-th free value (log entry 3). Nothing is known of it. -/
opaque free : Nat → Word

/-- Free bytes: the n-th free value's byte at an offset (log entry 3). -/
opaque freeByte : Nat → Nat → Byte

/-- A tamper sensor that has tripped trips at a tick (log entry 118). -/
opaque sensorNow : Nat → Nat → Bool

/-- A choice the spec leaves open among several values: the n-th free value's number at an offset (log entry 3). -/
opaque freePick : Nat → Nat → Nat

/-- Byte i of the AES-256-GCM key stream of a key and an IV (SP 800-38D) (log entry 5). -/
opaque gcmStream : List Byte → List Byte → Nat → Byte

/-- The 16-byte AES-256-GCM tag: key, IV, AAD, ciphertext (log entry 5). -/
opaque gcmTag : List Byte → List Byte → List Byte → List Byte → List Byte

/-- AES-256-GCM decryption of a ciphertext whose tag has been checked: key, IV, AAD, ciphertext; plaintext. GCM is a counter mode: each
byte is combined with its byte of the key stream (log entry 5). -/
def gcmOpen (key iv _aad c : List Byte) : List Byte := c.mapIdx (fun i b => b ^^^ gcmStream key iv i)

/-- AES-256-GCM encryption: key, IV, AAD, plaintext; ciphertext and tag. -/
def gcmSeal (key iv aad p : List Byte) : List Byte × List Byte := (gcmOpen key iv aad p, gcmTag key iv aad (gcmOpen key iv aad p))

/-- SHA-384 (FIPS 180-4) (log entry 5). -/
opaque sha384 : List Byte → List Byte

/-- HMAC-SHA-384 (RFC 2104): key, message (log entry 5). -/
opaque hmac384 : List Byte → List Byte → List Byte

/-- HKDF-Expand (RFC 5869): key, info, length (log entry 5). -/
opaque hkdfExpand : List Byte → List Byte → Nat → List Byte

/-- ECDH on P-384 (SP 800-56A): private key, public point; shared secret (log entry 5). -/
opaque ecdh : List Byte → List Byte → List Byte

/-- The public point of a P-384 private key (log entry 5). -/
opaque ecPublic : List Byte → List Byte

/-- ECDSA on P-384 (FIPS 186-5): private key, message, nonce; signature (log entry 5). -/
opaque ecdsaSign : List Byte → List Byte → List Byte → List Byte

/-- Draws of the TRNG (SP 800-90B): the n-th draw of a length (log entry 5). -/
opaque trng : Nat → Nat → List Byte

/-- The keyed 64-bit hash of the three hashed maps (R155, R349): key, message (log entry 5). -/
opaque keyedHash : Nat → List Byte → Nat

/-- The entries of the KF-S parity-check matrix (R285): the spec gives none (log entry 6). -/
opaque kfsShift : Nat → Byte

/-- The frequency a timebase without a steering servo follows, in 2^-16 ppb of the nominal: 0 the recovered clock of SRC_PORT,
1 REF10M_IN, 2 PPS_IN (R202) (log entry 11). -/
opaque refFreq : Nat → Int

/-- The PTP port identity of a logical port (R201): IEEE 1588 has one, the spec gives no value (log entry 12). -/
opaque portIdentity : Nat → BitVec 80

/-- A logical port's own PTP messages travel over UDP/IPv6, not IEEE 802.3 (R201): the spec carries PTP over both and names no choice (log
entry 47). -/
opaque ptpUdp : Nat → Bool

/-- The stepsRemoved that a QUAL carries (Table 7.3): the spec keeps no such count, so each is a free value (log entry 3). -/
opaque stepsRemoved : Nat → Byte

/-- The size of a function's MSI-X table (R64): fixed by the PCIe configuration, no register of the spec holds it (log entry 7). -/
opaque msixSize : Nat → Nat

/-- The calibrated setpoint of heater h (0 to 3) of carrier m at a colour, in 0.01 mW (R252): the spec gives no table (log entry 9). -/
opaque heaterBase : Nat → Nat → Nat → Int

/-- The calibrated dark offset of heater h of carrier m, in 0.01 mW (R257) (log entry 9). -/
opaque darkOffset : Nat → Nat → Int

/-- The manufacturing certificate of the DIK (R301): fused identity, no value in the spec (log entry 5). -/
opaque dikCert : List Byte

/-- The alias certificate and the alias private key, derived from the DIK seed and the two measurements (R301) (log entry 5). -/
opaque aliasCert : List Byte → List Byte → List Byte
/-- The alias private key. -/
opaque aliasKey : List Byte → List Byte → List Byte

/-- The 8 bytes of the device SERIAL (R301) (log entry 5). -/
opaque serial : List Byte

/-- Vitrine's static load key, the private half of VT_LOADPUB (R314) (log entry 5). -/
opaque loadKey : List Byte

/-- The buffers of one virtual channel at a ring stop in one direction (R348): the spec gives no number (log entry 3). -/
opaque ringBuffers : Nat

/-- Where the Curator SVN stands among the 16 bytes of VERSION (R370): the spec gives no layout (log entry 3). -/
opaque versionSvnAt : Nat

/-- The other bytes of VERSION: the build identifier and the calibration version (R370; log entry 3). -/
opaque versionByte : Nat → Byte

/-- A calibration record (R370), at most 4 KiB (log entry 3). -/
opaque calRecord : Nat → List Byte

/-- The firmware log from an offset (R370, R380): records kept, free counter, offset; the spec gives no layout (log entry 3). -/
opaque logBytes : List (List Byte) → Nat → Nat → List Byte

end Sys2Proof.Config
end

