-- ==== Sys2Proof/Machine/Bits.lean ====
section
/-! DEFINITION. Fields of words, byte orders, sparse tables in one canonical form, and the checksums the spec names. -/

namespace Sys2Proof.Machine

/-- The field of `w` that starts at bit `lo` and is `n` bits long, as a number (R8: bit 0 is the least significant). -/
def bitsOf (w : Word) (lo n : Nat) : Nat := w.toNat / 2 ^ lo % 2 ^ n

/-- `w` with the field `[lo + n - 1 : lo]` replaced by the low `n` bits of `v`. -/
def setBits (w : Word) (lo n v : Nat) : Word :=
  (w &&& ~~~((BitVec.ofNat 64 (2 ^ n - 1)) <<< lo)) ||| ((BitVec.ofNat 64 (v % 2 ^ n)) <<< lo)

/-- The place of one field of a register: instance `i` stands at `base + stride·i`, bits `[lo + w - 1 : lo]`. -/
structure Fld where
  base : Nat
  stride : Nat
  lo : Nat
  w : Nat
deriving DecidableEq, Repr

/-- The key of the word that holds instance `i` of a field. -/
def Fld.key (x : Fld) (i : Nat) : Nat := x.base + x.stride * i

/-- A number of `n` bits read as two's complement. -/
def signed (n v : Nat) : Int := if v % 2 ^ n < 2 ^ (n - 1) then (v % 2 ^ n : Nat) else ((v % 2 ^ n : Nat) : Int) - (2 ^ n : Nat)

/-- An integer as an `n`-bit two's complement number. -/
def unsigned (n : Nat) (z : Int) : Nat := (z % (2 ^ n : Nat)).toNat

/-- An integer held to the range of `n`-bit two's complement. -/
def clampS (n : Nat) (z : Int) : Int :=
  max (-(2 ^ (n - 1) : Nat)) (min z ((2 ^ (n - 1) : Nat) - 1))

/-- Number of ones among the low `n` bits. -/
def popcount (n v : Nat) : Nat := ((List.range n).filter (fun i => v.testBit i)).length

/-- The bits set among the low `n`. -/
def bitsSet (n v : Nat) : List Nat := (List.range n).filter (fun i => v.testBit i)

/-- `n` bytes of `v`, least significant first (R8: in-memory structures are little-endian). -/
def leBytes (n v : Nat) : List Byte := (List.range n).map (fun i => BitVec.ofNat 8 (v / 2 ^ (8 * i)))

/-- `n` bytes of `v`, most significant first (R8: traffic is in network byte order). -/
def beBytes (n v : Nat) : List Byte := (leBytes n v).reverse

/-- The number that little-endian bytes spell. -/
def ofLE : List Byte → Nat
  | [] => 0
  | b :: t => b.toNat + 256 * ofLE t

/-- The number that big-endian bytes spell. -/
def ofBE (l : List Byte) : Nat := ofLE l.reverse

/-- `n` bytes of a list from `o`; bytes past its end read 0. -/
def slice (l : List Byte) (o n : Nat) : List Byte :=
  let t := (l.drop o).take n
  t ++ List.replicate (n - t.length) 0

/-- The little-endian number in bytes `o` to `o + n - 1`. -/
def leAt (l : List Byte) (o n : Nat) : Nat := ofLE (slice l o n)

/-- A list cut into pieces of `n` (`n` > 0), the last one perhaps shorter. -/
def chunksFuel {α : Type} (n : Nat) : Nat → List α → List (List α)
  | 0, _ => []
  | _, [] => []
  | fuel + 1, l => l.take n :: chunksFuel n fuel (l.drop n)

/-- A list cut into pieces of `n`. -/
def chunksOf {α : Type} (n : Nat) (l : List α) : List (List α) := chunksFuel n l.length l

/-- Ceiling division. -/
def ceilDiv (a b : Nat) : Nat := (a + b - 1) / b

/-! ### Sparse tables: strictly rising keys, no entry equal to the default of its key -/

/-- The value at a key; the key's default where nothing is listed. -/
def tabGet {α : Type} (dflt : Nat → α) : List (Nat × α) → Nat → α
  | [], k => dflt k
  | (j, v) :: t, k => if k = j then v else tabGet dflt t k

/-- Insert or replace an entry, keeping the keys rising. -/
def tabIns {α : Type} (k : Nat) (v : α) : List (Nat × α) → List (Nat × α)
  | [] => [(k, v)]
  | (j, u) :: t => if k < j then (k, v) :: (j, u) :: t else if k = j then (k, v) :: t else (j, u) :: tabIns k v t

/-- Remove an entry. -/
def tabDel {α : Type} (k : Nat) (m : List (Nat × α)) : List (Nat × α) := m.filter (fun p => decide (p.1 ≠ k))

/-- Write a value: an entry equal to its default is not listed, so equal tables are equal lists. -/
def tabPut {α : Type} [DecidableEq α] (dflt : Nat → α) (k : Nat) (v : α) (m : List (Nat × α)) : List (Nat × α) :=
  if v = dflt k then tabDel k m else tabIns k v m

/-- The canonical form of a table. -/
abbrev tabWf {α : Type} (dflt : Nat → α) (m : List (Nat × α)) : Prop :=
  m.Pairwise (fun p q => p.1 < q.1) ∧ ∀ p ∈ m, p.2 ≠ dflt p.1

/-! ### Memory -/

/-- The byte an unlisted address reads as. DESIGN CHOICE, log entry 2. -/
def memDefault (_ : Nat) : Byte := 0

/-- Read one byte. -/
def memGet (m : List Host.Cell) (a : Nat) : Byte := tabGet memDefault m a

/-- Write one byte. -/
def memPut (m : List Host.Cell) (a : Nat) (b : Byte) : List Host.Cell := tabPut memDefault a b m

/-- Read `n` bytes from `a`. -/
def memRead (m : List Host.Cell) (a n : Nat) : List Byte := (List.range n).map (fun i => memGet m (a + i))

/-- Write bytes at `a`, `a + 1`, … -/
def memWrite (m : List Host.Cell) (a : Nat) : List Byte → List Host.Cell
  | [] => m
  | b :: t => memWrite (memPut m a b) (a + 1) t

/-- The canonical form of memory. -/
abbrev memWf (m : List Host.Cell) : Prop := tabWf memDefault m

/-! ### Checksums -/

/-- One bit of a reflected CRC of 32 bits. -/
def crcBit (poly c : BitVec 32) : BitVec 32 := if c.getLsbD 0 then (c >>> 1) ^^^ poly else c >>> 1

/-- One byte of a reflected CRC of 32 bits. -/
def crcByte (poly c : BitVec 32) (b : Byte) : BitVec 32 :=
  (List.range 8).foldl (fun a _ => crcBit poly a) (c ^^^ b.setWidth 32)

/-- CRC-32C (Castagnoli): reflected polynomial 0x82F6_3B78, initial value and final exclusive-or all ones. -/
def crc32c (l : List Byte) : BitVec 32 := ~~~(l.foldl (crcByte 0x82F63B78) 0xFFFFFFFF)

end Sys2Proof.Machine
end

