-- ==== Sys2Proof/Machine/Layout.lean ====
section
/-! DEFINITION. The registers of BAR0 and the words of the selected tables: one `Fld` per field (its place), and
`layout`, one row per register (the change class and the reset value of each field). Written from the register tables of the
spec's chapters (Tables 0.4, 1.1 to 1.11, 2.4 to 2.11, 3.7, 4.1, 4.2, 5.4, 5.5, 6.6 to 6.9, 7.5, 8.7, 8.8, 9.8, 10.10, 11.13,
12.8 to 12.10, 13.7, 13.11, 14.8). A key below 2^26 is a BAR0 offset; a key from 2^26 up is word `w` of entry `i` of table `t`
at 2^26·(t+1) + 16·i + w (t: 0 tenants, 1 jobs, 2 layouts, 3 Registrar, 4 windows, 5 delta slots, 6 tour sets, 7 codec slots,
8 fabric tenants, 9 Vitrine tenants, 10 BPM quotas, 11 fabric queue samples, 12 margins). -/

namespace Sys2Proof.Machine

/-- The change class of a field (R11, Table 0.7) and how a generic write treats it. -/
inductive Kind where
  /-- Read-only (class "—"): a write is ignored. -/
  | ro
  /-- L-class: takes the value written. -/
  | live
  /-- S-class: takes the value written only while its owner is disabled (R11). -/
  | static
  /-- E-class: a shadow, in force at the next boundary (R12). -/
  | epoch
  /-- Write 1 to clear. -/
  | w1c
  /-- A counter that a write of 0 clears (R402). -/
  | cnt
  /-- A command bit: a write starts the operation its own row describes; the plain write leaves it alone. -/
  | cmd
deriving DecidableEq, Repr

/-- Which block's enable decides whether an S-class field may change (Table 15.5), and whose BUSY is logged. -/
inductive Owner where
  | none | global | ring | queue | courier | tour | domain | cat | annex | pool | fabric | port | line
  | engine | carrier | vitrine | health | table
deriving DecidableEq, Repr

/-- One field of a register row of `layout`. -/
structure LField where
  lo : Nat
  w : Nat
  kind : Kind
  reset : Nat
deriving DecidableEq, Repr

/-- One register of `layout`: instance `i < count` stands at `base + stride·i`. `div` ≠ 0 says that the instance belongs to
wing `i / div` (R5). -/
structure LReg where
  base : Nat
  stride : Nat
  count : Nat
  own : Owner
  div : Nat
  fields : List LField
deriving DecidableEq, Repr

namespace R.GLOBAL_ID
/-- PART[15:0], Table 0.4. -/
abbrev PART : Fld := ⟨0x0, 0x0, 0, 16⟩
/-- REV[23:16], Table 0.4. -/
abbrev REV : Fld := ⟨0x0, 0x0, 16, 8⟩
/-- WING_MASK[27:24], Table 0.4. -/
abbrev WING_MASK : Fld := ⟨0x0, 0x0, 24, 4⟩
/-- VENDOR[47:32], Table 0.4. -/
abbrev VENDOR : Fld := ⟨0x0, 0x0, 32, 16⟩
end R.GLOBAL_ID
namespace R.GLOBAL_CTL
/-- TEN_EN[0:0], Table 1.1. -/
abbrev TEN_EN : Fld := ⟨0x100, 0x0, 0, 1⟩
end R.GLOBAL_CTL
namespace R.GLOBAL_LOC
/-- SITE[4:0], Table 1.1. -/
abbrev SITE : Fld := ⟨0x108, 0x0, 0, 5⟩
/-- RAIL[13:8], Table 1.1. -/
abbrev RAIL : Fld := ⟨0x108, 0x0, 8, 6⟩
end R.GLOBAL_LOC
namespace R.GLOBAL_TBL_SEL
/-- TABLE[3:0], Table 1.1. -/
abbrev TABLE : Fld := ⟨0x110, 0x0, 0, 4⟩
/-- WORD[5:4], Table 1.1. -/
abbrev WORD : Fld := ⟨0x110, 0x0, 4, 2⟩
/-- AUTOINC[6:6], Table 1.1. -/
abbrev AUTOINC : Fld := ⟨0x110, 0x0, 6, 1⟩
/-- INDEX[29:8], Table 1.1. -/
abbrev INDEX : Fld := ⟨0x110, 0x0, 8, 22⟩
end R.GLOBAL_TBL_SEL
namespace R.GLOBAL_TBL_DATA
/-- DATA[63:0], Table 1.1. -/
abbrev DATA : Fld := ⟨0x118, 0x0, 0, 64⟩
end R.GLOBAL_TBL_DATA
namespace R.GLOBAL_ERR
/-- BUSY[0:0], Table 1.1. -/
abbrev BUSY : Fld := ⟨0x120, 0x0, 0, 1⟩
/-- RANGE[1:1], Table 1.1. -/
abbrev RANGE : Fld := ⟨0x120, 0x0, 1, 1⟩
/-- MISMATCH[2:2], Table 1.1. -/
abbrev MISMATCH : Fld := ⟨0x120, 0x0, 2, 1⟩
/-- QUOTA[3:3], Table 1.1. -/
abbrev QUOTA : Fld := ⟨0x120, 0x0, 3, 1⟩
/-- DENIED[63:32], Table 1.1. -/
abbrev DENIED : Fld := ⟨0x120, 0x0, 32, 32⟩
end R.GLOBAL_ERR
namespace R.TENANT
/-- ENABLE[0:0], Table 1.3. -/
abbrev ENABLE : Fld := ⟨0x4000000, 0x10, 0, 1⟩
/-- SEC_MODE[1:1], Table 1.3. -/
abbrev SEC_MODE : Fld := ⟨0x4000000, 0x10, 1, 1⟩
/-- PLACE_MODE[2:2], Table 1.3. -/
abbrev PLACE_MODE : Fld := ⟨0x4000000, 0x10, 2, 1⟩
/-- QUAR[3:3], Table 1.3. -/
abbrev QUAR : Fld := ⟨0x4000000, 0x10, 3, 1⟩
/-- FUNC[15:8], Table 1.3. -/
abbrev FUNC : Fld := ⟨0x4000000, 0x10, 8, 8⟩
/-- IDLE[63:63], Table 1.3. -/
abbrev IDLE : Fld := ⟨0x4000000, 0x10, 63, 1⟩
/-- MAX_WINDOWS[16:0], Table 1.3. -/
abbrev MAX_WINDOWS : Fld := ⟨0x4000001, 0x10, 0, 17⟩
/-- MAX_STREAMS[32:17], Table 1.3. -/
abbrev MAX_STREAMS : Fld := ⟨0x4000001, 0x10, 17, 16⟩
/-- MAX_JOBS[45:33], Table 1.3. -/
abbrev MAX_JOBS : Fld := ⟨0x4000001, 0x10, 33, 13⟩
/-- ANNEX_PAGES[23:0], Table 1.3. -/
abbrev ANNEX_PAGES : Fld := ⟨0x4000002, 0x10, 0, 24⟩
/-- DELTA_BASE[37:24], Table 1.3. -/
abbrev DELTA_BASE : Fld := ⟨0x4000002, 0x10, 24, 14⟩
/-- DELTA_COUNT[52:38], Table 1.3. -/
abbrev DELTA_COUNT : Fld := ⟨0x4000002, 0x10, 38, 15⟩
/-- HBM_SHARE[62:53], Table 1.3. -/
abbrev HBM_SHARE : Fld := ⟨0x4000002, 0x10, 53, 10⟩
/-- SEED[63:0], Table 1.3. -/
abbrev SEED : Fld := ⟨0x4000003, 0x10, 0, 64⟩
end R.TENANT
namespace R.JOB
/-- VALID[0:0], Table 1.4. -/
abbrev VALID : Fld := ⟨0x8000000, 0x10, 0, 1⟩
/-- TENANT[10:1], Table 1.4. -/
abbrev TENANT : Fld := ⟨0x8000000, 0x10, 1, 10⟩
/-- RANKS[33:11], Table 1.4. -/
abbrev RANKS : Fld := ⟨0x8000000, 0x10, 11, 23⟩
/-- IDLE[63:63], Table 1.4. -/
abbrev IDLE : Fld := ⟨0x8000000, 0x10, 63, 1⟩
/-- REG_BASE[21:0], Table 1.4. -/
abbrev REG_BASE : Fld := ⟨0x8000001, 0x10, 0, 22⟩
/-- ORDS[28:22], Table 1.4. -/
abbrev ORDS : Fld := ⟨0x8000001, 0x10, 22, 7⟩
/-- JOB_ID[63:32], Table 1.4. -/
abbrev JOB_ID : Fld := ⟨0x8000001, 0x10, 32, 32⟩
end R.JOB
namespace R.LAYOUT
/-- LEN[39:0], Table 1.5. -/
abbrev LEN : Fld := ⟨0xC000000, 0x10, 0, 40⟩
/-- RIGHTS[44:40], Table 1.5. -/
abbrev RIGHTS : Fld := ⟨0xC000000, 0x10, 40, 5⟩
end R.LAYOUT
namespace R.REGISTRAR
/-- VALID[0:0], Table 1.6. -/
abbrev VALID : Fld := ⟨0x10000000, 0x10, 0, 1⟩
/-- SITE[5:1], Table 1.6. -/
abbrev SITE : Fld := ⟨0x10000000, 0x10, 1, 5⟩
/-- RAIL[11:6], Table 1.6. -/
abbrev RAIL : Fld := ⟨0x10000000, 0x10, 6, 6⟩
/-- EP[35:12], Table 1.6. -/
abbrev EP : Fld := ⟨0x10000000, 0x10, 12, 24⟩
/-- WIN_BASE[51:36], Table 1.6. -/
abbrev WIN_BASE : Fld := ⟨0x10000000, 0x10, 36, 16⟩
end R.REGISTRAR
namespace R.WINDOW
/-- VALID[0:0], Table 1.7. -/
abbrev VALID : Fld := ⟨0x14000000, 0x10, 0, 1⟩
/-- TENANT[10:1], Table 1.7. -/
abbrev TENANT : Fld := ⟨0x14000000, 0x10, 1, 10⟩
/-- JOB[22:11], Table 1.7. -/
abbrev JOB : Fld := ⟨0x14000000, 0x10, 11, 12⟩
/-- ORD[28:23], Table 1.7. -/
abbrev ORD : Fld := ⟨0x14000000, 0x10, 23, 6⟩
/-- RIGHTS[33:29], Table 1.7. -/
abbrev RIGHTS : Fld := ⟨0x14000000, 0x10, 29, 5⟩
/-- LOC[34:34], Table 1.7. -/
abbrev LOC : Fld := ⟨0x14000000, 0x10, 34, 1⟩
/-- EP[58:35], Table 1.7. -/
abbrev EP : Fld := ⟨0x14000000, 0x10, 35, 24⟩
/-- IDLE[63:63], Table 1.7. -/
abbrev IDLE : Fld := ⟨0x14000000, 0x10, 63, 1⟩
/-- ADDR[63:0], Table 1.7. -/
abbrev ADDR : Fld := ⟨0x14000001, 0x10, 0, 64⟩
/-- LEN[39:0], Table 1.7. -/
abbrev LEN : Fld := ⟨0x14000002, 0x10, 0, 40⟩
/-- TOKEN[31:0], Table 1.7. -/
abbrev TOKEN : Fld := ⟨0x14000003, 0x10, 0, 32⟩
/-- NOTIFY_CQ[43:32], Table 1.7. -/
abbrev NOTIFY_CQ : Fld := ⟨0x14000003, 0x10, 32, 12⟩
/-- NOTIFY_EN[44:44], Table 1.7. -/
abbrev NOTIFY_EN : Fld := ⟨0x14000003, 0x10, 44, 1⟩
end R.WINDOW
namespace R.DELTA
/-- STATE[1:0], Table 1.11. -/
abbrev STATE : Fld := ⟨0x18000000, 0x10, 0, 2⟩
/-- FORMAT[5:2], Table 1.11. -/
abbrev FORMAT : Fld := ⟨0x18000000, 0x10, 2, 4⟩
/-- JOB[17:6], Table 1.11. -/
abbrev JOB : Fld := ⟨0x18000000, 0x10, 6, 12⟩
/-- RANK[39:18], Table 1.11. -/
abbrev RANK : Fld := ⟨0x18000000, 0x10, 18, 22⟩
/-- PAGES[63:40], Table 1.11. -/
abbrev PAGES : Fld := ⟨0x18000000, 0x10, 40, 24⟩
/-- LEN[31:0], Table 1.11. -/
abbrev LEN : Fld := ⟨0x18000001, 0x10, 0, 32⟩
end R.DELTA
namespace R.SQ_CTL
/-- ENABLE[0:0], Table 2.4. -/
abbrev ENABLE : Fld := ⟨0x800000, 0x40, 0, 1⟩
/-- LOC[1:1], Table 2.4. -/
abbrev LOC : Fld := ⟨0x800000, 0x40, 1, 1⟩
/-- SIZE_LOG[8:4], Table 2.4. -/
abbrev SIZE_LOG : Fld := ⟨0x800000, 0x40, 4, 5⟩
/-- TENANT[25:16], Table 2.4. -/
abbrev TENANT : Fld := ⟨0x800000, 0x40, 16, 10⟩
/-- CQ[43:32], Table 2.4. -/
abbrev CQ : Fld := ⟨0x800000, 0x40, 32, 12⟩
/-- WEIGHT[51:48], Table 2.4. -/
abbrev WEIGHT : Fld := ⟨0x800000, 0x40, 48, 4⟩
/-- IDLE[63:63], Table 2.4. -/
abbrev IDLE : Fld := ⟨0x800000, 0x40, 63, 1⟩
end R.SQ_CTL
namespace R.SQ_BASE
/-- ADDR[63:0], Table 2.4. -/
abbrev ADDR : Fld := ⟨0x800008, 0x40, 0, 64⟩
end R.SQ_BASE
namespace R.SQ_BIND
/-- JOB[11:0], Table 2.4. -/
abbrev JOB : Fld := ⟨0x800010, 0x40, 0, 12⟩
/-- RANK[33:12], Table 2.4. -/
abbrev RANK : Fld := ⟨0x800010, 0x40, 12, 22⟩
/-- SRC[57:34], Table 2.4. -/
abbrev SRC : Fld := ⟨0x800010, 0x40, 34, 24⟩
end R.SQ_BIND
namespace R.SQ_STATE
/-- HEAD[31:0], Table 2.4. -/
abbrev HEAD : Fld := ⟨0x800018, 0x40, 0, 32⟩
/-- TAIL[63:32], Table 2.4. -/
abbrev TAIL : Fld := ⟨0x800018, 0x40, 32, 32⟩
end R.SQ_STATE
namespace R.SQ_ERR
/-- BUSY[0:0], Table 2.4, R59. -/
abbrev BUSY : Fld := ⟨0x800020, 0x40, 0, 1⟩
/-- MISMATCH[1:1], Table 2.4. -/
abbrev MISMATCH : Fld := ⟨0x800020, 0x40, 1, 1⟩
/-- DB_RANGE[2:2], Table 2.4, R61. -/
abbrev DB_RANGE : Fld := ⟨0x800020, 0x40, 2, 1⟩
/-- FETCH[3:3], Table 2.4. -/
abbrev FETCH : Fld := ⟨0x800020, 0x40, 3, 1⟩
end R.SQ_ERR
namespace R.SQ_ABORT
/-- ABORT[0:0], Table 2.4. -/
abbrev ABORT : Fld := ⟨0x800028, 0x40, 0, 1⟩
end R.SQ_ABORT
namespace R.CQ_CTL
/-- ENABLE[0:0], Table 2.6. -/
abbrev ENABLE : Fld := ⟨0x840000, 0x40, 0, 1⟩
/-- LOC[1:1], Table 2.6. -/
abbrev LOC : Fld := ⟨0x840000, 0x40, 1, 1⟩
/-- SIZE_LOG[8:4], Table 2.6. -/
abbrev SIZE_LOG : Fld := ⟨0x840000, 0x40, 4, 5⟩
/-- TENANT[25:16], Table 2.6. -/
abbrev TENANT : Fld := ⟨0x840000, 0x40, 16, 10⟩
/-- VECTOR[42:32], Table 2.6. -/
abbrev VECTOR : Fld := ⟨0x840000, 0x40, 32, 11⟩
/-- IDLE[63:63], Table 2.6. -/
abbrev IDLE : Fld := ⟨0x840000, 0x40, 63, 1⟩
end R.CQ_CTL
namespace R.CQ_BASE
/-- ADDR[63:0], Table 2.6. -/
abbrev ADDR : Fld := ⟨0x840008, 0x40, 0, 64⟩
end R.CQ_BASE
namespace R.CQ_BIND
/-- DST[23:0], Table 2.6. -/
abbrev DST : Fld := ⟨0x840010, 0x40, 0, 24⟩
end R.CQ_BIND
namespace R.CQ_SIG
/-- SIG_ADDR[63:0], Table 2.6. -/
abbrev SIG_ADDR : Fld := ⟨0x840018, 0x40, 0, 64⟩
end R.CQ_SIG
namespace R.CQ_COAL
/-- COUNT[7:0], Table 2.6. -/
abbrev COUNT : Fld := ⟨0x840020, 0x40, 0, 8⟩
/-- TIME[31:16], Table 2.6. -/
abbrev TIME : Fld := ⟨0x840020, 0x40, 16, 16⟩
end R.CQ_COAL
namespace R.CQ_STATE
/-- TAIL[31:0], Table 2.6. -/
abbrev TAIL : Fld := ⟨0x840028, 0x40, 0, 32⟩
/-- HEAD[63:32], Table 2.6. -/
abbrev HEAD : Fld := ⟨0x840028, 0x40, 32, 32⟩
end R.CQ_STATE
namespace R.CQ_ERR
/-- BUSY[0:0], Table 2.6. -/
abbrev BUSY : Fld := ⟨0x840030, 0x40, 0, 1⟩
/-- MISMATCH[1:1], Table 2.6. -/
abbrev MISMATCH : Fld := ⟨0x840030, 0x40, 1, 1⟩
/-- DB_RANGE[2:2], Table 2.6, R61. -/
abbrev DB_RANGE : Fld := ⟨0x840030, 0x40, 2, 1⟩
/-- WRITE[3:3], Table 2.6. -/
abbrev WRITE : Fld := ⟨0x840030, 0x40, 3, 1⟩
/-- DROPPED[63:32], Table 2.6. -/
abbrev DROPPED : Fld := ⟨0x840030, 0x40, 32, 32⟩
end R.CQ_ERR
namespace R.CQ_CREDIT
/-- RESERVED[31:0], Table 2.6. -/
abbrev RESERVED : Fld := ⟨0x840038, 0x40, 0, 32⟩
end R.CQ_CREDIT
namespace R.RING_GERR
/-- DB_DROP[31:0], Table 2.8, R60. -/
abbrev DB_DROP : Fld := ⟨0x880000, 0x0, 0, 32⟩
end R.RING_GERR
namespace R.RING_GCTL
/-- BURST[3:0], Table 2.8. -/
abbrev BURST : Fld := ⟨0x880008, 0x0, 0, 4⟩
end R.RING_GCTL
namespace R.RING_RETAIN
/-- TAIL[31:0], Table 2.8. -/
abbrev TAIL : Fld := ⟨0x888000, 0x8, 0, 32⟩
/-- VALID[32:32], Table 2.8. -/
abbrev VALID : Fld := ⟨0x888000, 0x8, 32, 1⟩
end R.RING_RETAIN
namespace R.CR_SRC
/-- SRC[63:0], Table 2.10. -/
abbrev SRC : Fld := ⟨0xE00000, 0x100, 0, 64⟩
end R.CR_SRC
namespace R.CR_DST
/-- DST[63:0], Table 2.10. -/
abbrev DST : Fld := ⟨0xE00008, 0x100, 0, 64⟩
end R.CR_DST
namespace R.CR_CNT
/-- ACNT[19:0], Table 2.10. -/
abbrev ACNT : Fld := ⟨0xE00010, 0x100, 0, 20⟩
/-- BCNT[35:20], Table 2.10. -/
abbrev BCNT : Fld := ⟨0xE00010, 0x100, 20, 16⟩
/-- CCNT[51:36], Table 2.10. -/
abbrev CCNT : Fld := ⟨0xE00010, 0x100, 36, 16⟩
end R.CR_CNT
namespace R.CR_BSTRIDE
/-- SRC_B[31:0], Table 2.10. -/
abbrev SRC_B : Fld := ⟨0xE00018, 0x100, 0, 32⟩
/-- DST_B[63:32], Table 2.10. -/
abbrev DST_B : Fld := ⟨0xE00018, 0x100, 32, 32⟩
end R.CR_BSTRIDE
namespace R.CR_CSTRIDE
/-- SRC_C[31:0], Table 2.10. -/
abbrev SRC_C : Fld := ⟨0xE00020, 0x100, 0, 32⟩
/-- DST_C[63:32], Table 2.10. -/
abbrev DST_C : Fld := ⟨0xE00020, 0x100, 32, 32⟩
end R.CR_CSTRIDE
namespace R.CR_ATTR
/-- SRC_SPACE[2:0], Table 2.10. -/
abbrev SRC_SPACE : Fld := ⟨0xE00028, 0x100, 0, 3⟩
/-- DST_SPACE[6:4], Table 2.10. -/
abbrev DST_SPACE : Fld := ⟨0xE00028, 0x100, 4, 3⟩
/-- REC_EN[8:8], Table 2.10. -/
abbrev REC_EN : Fld := ⟨0xE00028, 0x100, 8, 1⟩
/-- IRQ[9:9], Table 2.10. -/
abbrev IRQ : Fld := ⟨0xE00028, 0x100, 9, 1⟩
/-- TAG[63:32], Table 2.10. -/
abbrev TAG : Fld := ⟨0xE00028, 0x100, 32, 32⟩
end R.CR_ATTR
namespace R.CR_CTL
/-- GO[0:0], Table 2.10. -/
abbrev GO : Fld := ⟨0xE00030, 0x100, 0, 1⟩
/-- ARM[1:1], Table 2.10. -/
abbrev ARM : Fld := ⟨0xE00030, 0x100, 1, 1⟩
/-- ABORT[2:2], Table 2.10. -/
abbrev ABORT : Fld := ⟨0xE00030, 0x100, 2, 1⟩
end R.CR_CTL
namespace R.CR_STAT
/-- STATE[1:0], Table 2.10. -/
abbrev STATE : Fld := ⟨0xE00038, 0x100, 0, 2⟩
/-- BUSY[8:8], Table 2.10. -/
abbrev BUSY : Fld := ⟨0xE00038, 0x100, 8, 1⟩
/-- LAST[23:16], Table 2.10. -/
abbrev LAST : Fld := ⟨0xE00038, 0x100, 16, 8⟩
/-- LOADS[63:32], Table 2.10. -/
abbrev LOADS : Fld := ⟨0xE00038, 0x100, 32, 32⟩
end R.CR_STAT
namespace R.CR_CQ
/-- CQ[11:0], Table 2.10. -/
abbrev CQ : Fld := ⟨0xE00040, 0x100, 0, 12⟩
end R.CR_CQ
namespace R.CR_PROG
/-- DONE[63:0], Table 2.10. -/
abbrev DONE : Fld := ⟨0xE00048, 0x100, 0, 64⟩
end R.CR_PROG
namespace R.TOUR_CTL
/-- ENABLE[0:0], Table 3.7. -/
abbrev ENABLE : Fld := ⟨0x500000, 0x40000, 0, 1⟩
/-- PROV_MODE[5:4], Table 3.7, R99. -/
abbrev PROV_MODE : Fld := ⟨0x500000, 0x40000, 4, 2⟩
/-- FENCE_THR[15:8], Table 3.7. -/
abbrev FENCE_THR : Fld := ⟨0x500000, 0x40000, 8, 8⟩
/-- IDLE[63:63], Table 3.7. -/
abbrev IDLE : Fld := ⟨0x500000, 0x40000, 63, 1⟩
end R.TOUR_CTL
namespace R.TOUR_ERR
/-- BUSY[0:0], Table 3.7. -/
abbrev BUSY : Fld := ⟨0x500008, 0x40000, 0, 1⟩
/-- RESID[1:1], Table 3.7. -/
abbrev RESID : Fld := ⟨0x500008, 0x40000, 1, 1⟩
/-- PROV_OVF[2:2], Table 3.7. -/
abbrev PROV_OVF : Fld := ⟨0x500008, 0x40000, 2, 1⟩
/-- FENCE[3:3], Table 3.7. -/
abbrev FENCE : Fld := ⟨0x500008, 0x40000, 3, 1⟩
/-- MISMATCH[4:4], Table 3.7, R103. -/
abbrev MISMATCH : Fld := ⟨0x500008, 0x40000, 4, 1⟩
end R.TOUR_ERR
namespace R.TOUR_LANES
/-- FENCED[32:0], Table 3.7. -/
abbrev FENCED : Fld := ⟨0x500010, 0x40000, 0, 33⟩
/-- SPARE_USED[33:33], Table 3.7. -/
abbrev SPARE_USED : Fld := ⟨0x500010, 0x40000, 33, 1⟩
/-- WORKING[39:34], Table 3.7. -/
abbrev WORKING : Fld := ⟨0x500010, 0x40000, 34, 6⟩
end R.TOUR_LANES
namespace R.TOUR_ARITH
/-- SAT[31:0], Table 3.7. -/
abbrev SAT : Fld := ⟨0x500018, 0x40000, 0, 32⟩
/-- NAN[63:32], Table 3.7. -/
abbrev NAN : Fld := ⟨0x500018, 0x40000, 32, 32⟩
end R.TOUR_ARITH
namespace R.TOUR_PROV_BASE
/-- ADDR[39:0], Table 3.7. -/
abbrev ADDR : Fld := ⟨0x500020, 0x40000, 0, 40⟩
/-- SIZE_LOG[44:40], Table 3.7. -/
abbrev SIZE_LOG : Fld := ⟨0x500020, 0x40000, 40, 5⟩
end R.TOUR_PROV_BASE
namespace R.TOUR_PROV_IDX
/-- WR[31:0], Table 3.7. -/
abbrev WR : Fld := ⟨0x500028, 0x40000, 0, 32⟩
/-- RD[63:32], Table 3.7. -/
abbrev RD : Fld := ⟨0x500028, 0x40000, 32, 32⟩
end R.TOUR_PROV_IDX
namespace R.TOUR_PROV_DROP
/-- DROP[31:0], Table 3.7. -/
abbrev DROP : Fld := ⟨0x500030, 0x40000, 0, 32⟩
end R.TOUR_PROV_DROP
namespace R.VAR_RETX
/-- VALUE[63:0], Table 3.7. -/
abbrev VALUE : Fld := ⟨0x500100, 0x40000, 0, 64⟩
end R.VAR_RETX
namespace R.VAR_RACE_WIN
/-- VALUE[63:0], Table 3.7. -/
abbrev VALUE : Fld := ⟨0x500108, 0x40000, 0, 64⟩
end R.VAR_RACE_WIN
namespace R.VAR_LATE
/-- VALUE[63:0], Table 3.7. -/
abbrev VALUE : Fld := ⟨0x500110, 0x40000, 0, 64⟩
end R.VAR_LATE
namespace R.VAR_SKIP
/-- VALUE[63:0], Table 3.7. -/
abbrev VALUE : Fld := ⟨0x500118, 0x40000, 0, 64⟩
end R.VAR_SKIP
namespace R.VAR_RAW_FALLBACK
/-- VALUE[63:0], Table 3.7. -/
abbrev VALUE : Fld := ⟨0x500120, 0x40000, 0, 64⟩
end R.VAR_RAW_FALLBACK
namespace R.VAR_RESIDUE_RETRY
/-- VALUE[63:0], Table 3.7. -/
abbrev VALUE : Fld := ⟨0x500128, 0x40000, 0, 64⟩
end R.VAR_RESIDUE_RETRY
namespace R.VAR_OPEN_ARB
/-- VALUE[63:0], Table 3.7. -/
abbrev VALUE : Fld := ⟨0x500130, 0x40000, 0, 64⟩
end R.VAR_OPEN_ARB
namespace R.TOUR_TS_SEL
/-- WORD[2:0], Table 4.1. -/
abbrev WORD : Fld := ⟨0x500040, 0x0, 0, 3⟩
/-- AUTOINC[3:3], Table 4.1. -/
abbrev AUTOINC : Fld := ⟨0x500040, 0x0, 3, 1⟩
/-- INDEX[17:8], Table 4.1. -/
abbrev INDEX : Fld := ⟨0x500040, 0x0, 8, 10⟩
end R.TOUR_TS_SEL
namespace R.TOUR_TS_DATA
/-- DATA[63:0], Table 4.1. -/
abbrev DATA : Fld := ⟨0x500048, 0x0, 0, 64⟩
end R.TOUR_TS_DATA
namespace R.TOUR_TS_ERR
/-- BUSY[0:0], Table 4.1. -/
abbrev BUSY : Fld := ⟨0x500050, 0x0, 0, 1⟩
/-- RANGE[1:1], Table 4.1. -/
abbrev RANGE : Fld := ⟨0x500050, 0x0, 1, 1⟩
/-- MISMATCH[2:2], Table 4.1, R105. -/
abbrev MISMATCH : Fld := ⟨0x500050, 0x0, 2, 1⟩
end R.TOUR_TS_ERR
namespace R.TOUR_COLL
/-- ACTIVE[8:0], Table 4.1. -/
abbrev ACTIVE : Fld := ⟨0x500058, 0x0, 0, 9⟩
end R.TOUR_COLL
namespace R.TOURSET
/-- VALID[0:0], Table 4.2. -/
abbrev VALID : Fld := ⟨0x1C000000, 0x10, 0, 1⟩
/-- N_LOG[3:1], Table 4.2. -/
abbrev N_LOG : Fld := ⟨0x1C000000, 0x10, 1, 3⟩
/-- RINGS[7:4], Table 4.2. -/
abbrev RINGS : Fld := ⟨0x1C000000, 0x10, 4, 4⟩
/-- WINGS[10:8], Table 4.2. -/
abbrev WINGS : Fld := ⟨0x1C000000, 0x10, 8, 3⟩
/-- PARTIAL[12:11], Table 4.2. -/
abbrev PARTIAL : Fld := ⟨0x1C000000, 0x10, 11, 2⟩
/-- LOCAL[19:14], Table 4.2. -/
abbrev LOCAL : Fld := ⟨0x1C000000, 0x10, 14, 6⟩
/-- RACE_K[23:20], Table 4.2. -/
abbrev RACE_K : Fld := ⟨0x1C000000, 0x10, 20, 4⟩
/-- RACE_LAG[31:24], Table 4.2. -/
abbrev RACE_LAG : Fld := ⟨0x1C000000, 0x10, 24, 8⟩
/-- PHASE[47:32], Table 4.2. -/
abbrev PHASE : Fld := ⟨0x1C000000, 0x10, 32, 16⟩
/-- TENANT[57:48], Table 4.2. -/
abbrev TENANT : Fld := ⟨0x1C000000, 0x10, 48, 10⟩
/-- IDLE[63:63], Table 4.2. -/
abbrev IDLE : Fld := ⟨0x1C000000, 0x10, 63, 1⟩
/-- STRIDE[31:0], Table 4.2. -/
abbrev STRIDE : Fld := ⟨0x1C000001, 0x10, 0, 32⟩
/-- PRINT[63:32], Table 4.2, R106. -/
abbrev PRINT : Fld := ⟨0x1C000001, 0x10, 32, 32⟩
/-- ORDER_A[59:0], Table 4.2. -/
abbrev ORDER_A : Fld := ⟨0x1C000002, 0x10, 0, 60⟩
/-- ORDER_B[59:0], Table 4.2. -/
abbrev ORDER_B : Fld := ⟨0x1C000003, 0x10, 0, 60⟩
/-- ORDER_C[39:0], Table 4.2. -/
abbrev ORDER_C : Fld := ⟨0x1C000004, 0x10, 0, 40⟩
end R.TOURSET
namespace R.SLOT
/-- VALID[0:0], Table 5.4. -/
abbrev VALID : Fld := ⟨0x20000000, 0x10, 0, 1⟩
/-- JOB[12:1], Table 5.4. -/
abbrev JOB : Fld := ⟨0x20000000, 0x10, 1, 12⟩
/-- FORMAT[16:13], Table 5.4. -/
abbrev FORMAT : Fld := ⟨0x20000000, 0x10, 13, 4⟩
/-- ACTIVE[17:17], Table 5.4. -/
abbrev ACTIVE : Fld := ⟨0x20000000, 0x10, 17, 1⟩
/-- OK0[18:18], Table 5.4. -/
abbrev OK0 : Fld := ⟨0x20000000, 0x10, 18, 1⟩
/-- OK1[19:19], Table 5.4. -/
abbrev OK1 : Fld := ⟨0x20000000, 0x10, 19, 1⟩
/-- PEND[20:20], Table 5.4. -/
abbrev PEND : Fld := ⟨0x20000000, 0x10, 20, 1⟩
/-- HIST_EN[21:21], Table 5.4. -/
abbrev HIST_EN : Fld := ⟨0x20000000, 0x10, 21, 1⟩
/-- IDLE[63:63], Table 5.4. -/
abbrev IDLE : Fld := ⟨0x20000000, 0x10, 63, 1⟩
/-- TID[31:0], Table 5.4. -/
abbrev TID : Fld := ⟨0x20000001, 0x10, 0, 32⟩
/-- REF0[43:32], Table 5.4. -/
abbrev REF0 : Fld := ⟨0x20000001, 0x10, 32, 12⟩
/-- REF1[55:44], Table 5.4. -/
abbrev REF1 : Fld := ⟨0x20000001, 0x10, 44, 12⟩
/-- STAGED[59:56], Table 5.4. -/
abbrev STAGED : Fld := ⟨0x20000001, 0x10, 56, 4⟩
/-- ACT_AT[39:0], Table 5.4. -/
abbrev ACT_AT : Fld := ⟨0x20000002, 0x10, 0, 40⟩
/-- HCOUNT[63:0], Table 5.4. -/
abbrev HCOUNT : Fld := ⟨0x20000003, 0x10, 0, 64⟩
end R.SLOT
namespace R.CODEC_CTL
/-- ENABLE[0:0], Table 5.5. -/
abbrev ENABLE : Fld := ⟨0x600000, 0x0, 0, 1⟩
end R.CODEC_CTL
namespace R.CODEC_ERR
/-- BUSY[0:0], Table 5.5. -/
abbrev BUSY : Fld := ⟨0x600008, 0x0, 0, 1⟩
/-- RANGE[1:1], Table 5.5. -/
abbrev RANGE : Fld := ⟨0x600008, 0x0, 1, 1⟩
/-- MISMATCH[2:2], Table 5.5, R139. -/
abbrev MISMATCH : Fld := ⟨0x600008, 0x0, 2, 1⟩
/-- DECODE[3:3], Table 5.5. -/
abbrev DECODE : Fld := ⟨0x600008, 0x0, 3, 1⟩
/-- CRC[4:4], Table 5.5. -/
abbrev CRC : Fld := ⟨0x600008, 0x0, 4, 1⟩
end R.CODEC_ERR
namespace R.CODEC_SLOT_SEL
/-- WORD[1:0], Table 5.5. -/
abbrev WORD : Fld := ⟨0x600010, 0x0, 0, 2⟩
/-- AUTOINC[2:2], Table 5.5. -/
abbrev AUTOINC : Fld := ⟨0x600010, 0x0, 2, 1⟩
/-- INDEX[20:8], Table 5.5. -/
abbrev INDEX : Fld := ⟨0x600010, 0x0, 8, 13⟩
end R.CODEC_SLOT_SEL
namespace R.CODEC_SLOT_DATA
/-- DATA[63:0], Table 5.5. -/
abbrev DATA : Fld := ⟨0x600018, 0x0, 0, 64⟩
end R.CODEC_SLOT_DATA
namespace R.CODEC_STAGE
/-- SLOT[12:0], Table 5.5. -/
abbrev SLOT : Fld := ⟨0x600020, 0x0, 0, 13⟩
/-- WINGS[19:16], Table 5.5. -/
abbrev WINGS : Fld := ⟨0x600020, 0x0, 16, 4⟩
/-- GO[31:31], Table 5.5. -/
abbrev GO : Fld := ⟨0x600020, 0x0, 31, 1⟩
/-- FAIL[32:32], Table 5.5. -/
abbrev FAIL : Fld := ⟨0x600020, 0x0, 32, 1⟩
end R.CODEC_STAGE
namespace R.CODEC_BUILD
/-- SLOT[12:0], Table 5.5. -/
abbrev SLOT : Fld := ⟨0x600028, 0x0, 0, 13⟩
/-- GO[31:31], Table 5.5, R145. -/
abbrev GO : Fld := ⟨0x600028, 0x0, 31, 1⟩
/-- EMPTY[32:32], Table 5.5. -/
abbrev EMPTY : Fld := ⟨0x600028, 0x0, 32, 1⟩
end R.CODEC_BUILD
namespace R.CODEC_BUILD_ADDR
/-- ADDR[39:0], Table 5.5. -/
abbrev ADDR : Fld := ⟨0x600030, 0x0, 0, 40⟩
end R.CODEC_BUILD_ADDR
namespace R.CODEC_LATE_ACT
/-- LATE_ACT[31:0], Table 5.5. -/
abbrev LATE_ACT : Fld := ⟨0x600038, 0x0, 0, 32⟩
end R.CODEC_LATE_ACT
namespace R.CODEC_STAT_CODED
/-- CODED[63:0], Table 5.5. -/
abbrev CODED : Fld := ⟨0x600100, 0x40, 0, 64⟩
end R.CODEC_STAT_CODED
namespace R.CODEC_STAT_RAW
/-- RAW[63:0], Table 5.5. -/
abbrev RAW : Fld := ⟨0x600108, 0x40, 0, 64⟩
end R.CODEC_STAT_RAW
namespace R.CODEC_STAT_IN_BYTES
/-- IN_BYTES[63:0], Table 5.5. -/
abbrev IN_BYTES : Fld := ⟨0x600110, 0x40, 0, 64⟩
end R.CODEC_STAT_IN_BYTES
namespace R.CODEC_STAT_OUT_BYTES
/-- OUT_BYTES[63:0], Table 5.5. -/
abbrev OUT_BYTES : Fld := ⟨0x600118, 0x40, 0, 64⟩
end R.CODEC_STAT_OUT_BYTES
namespace R.CODEC_STAT_STAGE_WAIT
/-- STAGE_WAIT[63:0], Table 5.5, R143. -/
abbrev STAGE_WAIT : Fld := ⟨0x600120, 0x40, 0, 64⟩
end R.CODEC_STAT_STAGE_WAIT
namespace R.CODEC_STAT_DEC_FAIL
/-- DEC_FAIL[63:0], Table 5.5, R138. -/
abbrev DEC_FAIL : Fld := ⟨0x600128, 0x40, 0, 64⟩
end R.CODEC_STAT_DEC_FAIL
namespace R.STREAM_CTL
/-- ENABLE[0:0], Table 6.6. -/
abbrev ENABLE : Fld := ⟨0x700000, 0x0, 0, 1⟩
/-- IDLE[63:63], Table 6.6. -/
abbrev IDLE : Fld := ⟨0x700000, 0x0, 63, 1⟩
end R.STREAM_CTL
namespace R.STREAM_ERR
/-- BUSY[0:0], Table 6.6. -/
abbrev BUSY : Fld := ⟨0x700008, 0x0, 0, 1⟩
/-- RANGE[1:1], Table 6.6. -/
abbrev RANGE : Fld := ⟨0x700008, 0x0, 1, 1⟩
/-- CMD[2:2], Table 6.6. -/
abbrev CMD : Fld := ⟨0x700008, 0x0, 2, 1⟩
end R.STREAM_ERR
namespace R.STREAM_SEL
/-- WORD[2:0], Table 6.6. -/
abbrev WORD : Fld := ⟨0x700010, 0x0, 0, 3⟩
/-- AUTOINC[3:3], Table 6.6. -/
abbrev AUTOINC : Fld := ⟨0x700010, 0x0, 3, 1⟩
/-- INDEX[22:8], Table 6.6. -/
abbrev INDEX : Fld := ⟨0x700010, 0x0, 8, 15⟩
end R.STREAM_SEL
namespace R.STREAM_DATA
/-- DATA[63:0], Table 6.6. -/
abbrev DATA : Fld := ⟨0x700018, 0x0, 0, 64⟩
end R.STREAM_DATA
namespace R.STREAM_CMD0
/-- OP[1:0], Table 6.6. -/
abbrev OP : Fld := ⟨0x700020, 0x0, 0, 2⟩
/-- MIRROR[2:2], Table 6.6, R179. -/
abbrev MIRROR : Fld := ⟨0x700020, 0x0, 2, 1⟩
/-- STACK[3:3], Table 6.6. -/
abbrev STACK : Fld := ⟨0x700020, 0x0, 3, 1⟩
/-- HOME[5:4], Table 6.6. -/
abbrev HOME : Fld := ⟨0x700020, 0x0, 4, 2⟩
/-- CLASS[9:6], Table 6.6, R153. -/
abbrev CLASS : Fld := ⟨0x700020, 0x0, 6, 4⟩
/-- TX_POOL[15:10], Table 6.6. -/
abbrev TX_POOL : Fld := ⟨0x700020, 0x0, 10, 6⟩
/-- RX_POOL[21:16], Table 6.6. -/
abbrev RX_POOL : Fld := ⟨0x700020, 0x0, 16, 6⟩
/-- JOB[33:22], Table 6.6. -/
abbrev JOB : Fld := ⟨0x700020, 0x0, 22, 12⟩
/-- SITE[38:34], Table 6.6. -/
abbrev SITE : Fld := ⟨0x700020, 0x0, 34, 5⟩
/-- WING[40:39], Table 6.6. -/
abbrev WING : Fld := ⟨0x700020, 0x0, 39, 2⟩
/-- STREAM[55:41], Table 6.6. -/
abbrev STREAM : Fld := ⟨0x700020, 0x0, 41, 15⟩
/-- GO[63:63], Table 6.6. -/
abbrev GO : Fld := ⟨0x700020, 0x0, 63, 1⟩
end R.STREAM_CMD0
namespace R.STREAM_CMD1
/-- PAGES[23:0], Table 6.6. -/
abbrev PAGES : Fld := ⟨0x700028, 0x0, 0, 24⟩
/-- WIN_MAX[44:24], Table 6.6. -/
abbrev WIN_MAX : Fld := ⟨0x700028, 0x0, 24, 21⟩
end R.STREAM_CMD1
namespace R.STREAM_CMD_RES
/-- STATUS[7:0], Table 6.6. -/
abbrev STATUS : Fld := ⟨0x700030, 0x0, 0, 8⟩
/-- STREAM[22:8], Table 6.6. -/
abbrev STREAM : Fld := ⟨0x700030, 0x0, 8, 15⟩
end R.STREAM_CMD_RES
namespace R.STREAM_TIMER
/-- RCPT_INT[15:0], Table 6.6. -/
abbrev RCPT_INT : Fld := ⟨0x700038, 0x0, 0, 16⟩
/-- RCPT_CNT[23:16], Table 6.6. -/
abbrev RCPT_CNT : Fld := ⟨0x700038, 0x0, 16, 8⟩
/-- DUP_THR[27:24], Table 6.6, R173. -/
abbrev DUP_THR : Fld := ⟨0x700038, 0x0, 24, 4⟩
/-- RTO_MIN[47:32], Table 6.6. -/
abbrev RTO_MIN : Fld := ⟨0x700038, 0x0, 32, 16⟩
/-- RTO_MAX[63:48], Table 6.6. -/
abbrev RTO_MAX : Fld := ⟨0x700038, 0x0, 48, 16⟩
end R.STREAM_TIMER
namespace R.STREAM_DFLT
/-- POOLS[47:0], Table 6.6. -/
abbrev POOLS : Fld := ⟨0x700040, 0x0, 0, 48⟩
/-- MIRROR[48:48], Table 6.6. -/
abbrev MIRROR : Fld := ⟨0x700040, 0x0, 48, 1⟩
/-- IDLE_CLOSE[63:49], Table 6.6. -/
abbrev IDLE_CLOSE : Fld := ⟨0x700040, 0x0, 49, 15⟩
end R.STREAM_DFLT
namespace R.STREAM_STAT_DUP
/-- DUP[63:0], Table 6.6, R168. -/
abbrev DUP : Fld := ⟨0x700100, 0x40, 0, 64⟩
end R.STREAM_STAT_DUP
namespace R.STREAM_STAT_STALE
/-- STALE[63:0], Table 6.6, R168. -/
abbrev STALE : Fld := ⟨0x700108, 0x40, 0, 64⟩
end R.STREAM_STAT_STALE
namespace R.STREAM_STAT_OUT_WIN
/-- OUT_WIN[63:0], Table 6.6, R168. -/
abbrev OUT_WIN : Fld := ⟨0x700110, 0x40, 0, 64⟩
end R.STREAM_STAT_OUT_WIN
namespace R.STREAM_STAT_NACK_RESEND
/-- NACK_RESEND[63:0], Table 6.6, R173. -/
abbrev NACK_RESEND : Fld := ⟨0x700118, 0x40, 0, 64⟩
end R.STREAM_STAT_NACK_RESEND
namespace R.STREAM_STAT_TIMEOUT
/-- TIMEOUT[63:0], Table 6.6, R172. -/
abbrev TIMEOUT : Fld := ⟨0x700120, 0x40, 0, 64⟩
end R.STREAM_STAT_TIMEOUT
namespace R.STREAM_STAT_PATH_FAIL
/-- PATH_FAIL[63:0], Table 6.6. -/
abbrev PATH_FAIL : Fld := ⟨0x700128, 0x40, 0, 64⟩
end R.STREAM_STAT_PATH_FAIL
namespace R.ANNEX_CTL
/-- RESILVER_BW[7:0], Table 6.8. -/
abbrev RESILVER_BW : Fld := ⟨0x701000, 0x0, 0, 8⟩
end R.ANNEX_CTL
namespace R.ANNEX_RSLV
/-- STATE[1:0], Table 6.8, R182. -/
abbrev STATE : Fld := ⟨0x701008, 0x0, 0, 2⟩
/-- FAILED[4:2], Table 6.8. -/
abbrev FAILED : Fld := ⟨0x701008, 0x0, 2, 3⟩
/-- SURV[7:5], Table 6.8. -/
abbrev SURV : Fld := ⟨0x701008, 0x0, 5, 3⟩
/-- TARGET[10:8], Table 6.8. -/
abbrev TARGET : Fld := ⟨0x701008, 0x0, 8, 3⟩
/-- LEFT[63:24], Table 6.8. -/
abbrev LEFT : Fld := ⟨0x701008, 0x0, 24, 40⟩
end R.ANNEX_RSLV
namespace R.ANNEX_STK
/-- SPARE[23:0], Table 6.8. -/
abbrev SPARE : Fld := ⟨0x701100, 0x8, 0, 24⟩
/-- FREE[47:24], Table 6.8. -/
abbrev FREE : Fld := ⟨0x701100, 0x8, 24, 24⟩
/-- FAILED[48:48], Table 6.8. -/
abbrev FAILED : Fld := ⟨0x701100, 0x8, 48, 1⟩
end R.ANNEX_STK
namespace R.BPM_CTL
/-- ENABLE[0:0], Table 6.9. -/
abbrev ENABLE : Fld := ⟨0x702000, 0x0, 0, 1⟩
end R.BPM_CTL
namespace R.BPM_ERR
/-- BUSY[0:0], Table 6.9. -/
abbrev BUSY : Fld := ⟨0x702008, 0x0, 0, 1⟩
/-- MISMATCH[1:1], Table 6.9, R183. -/
abbrev MISMATCH : Fld := ⟨0x702008, 0x0, 1, 1⟩
/-- BAD_PTR[31:16], Table 6.9, R185. -/
abbrev BAD_PTR : Fld := ⟨0x702008, 0x0, 16, 16⟩
/-- DOUBLE[47:32], Table 6.9, R185. -/
abbrev DOUBLE : Fld := ⟨0x702008, 0x0, 32, 16⟩
end R.BPM_ERR
namespace R.BPM_QSEL
/-- INDEX[10:0], Table 6.9. -/
abbrev INDEX : Fld := ⟨0x702010, 0x0, 0, 11⟩
end R.BPM_QSEL
namespace R.BPM_QDATA
/-- LIMIT[27:0], Table 6.9, R19. -/
abbrev LIMIT : Fld := ⟨0x702018, 0x0, 0, 28⟩
/-- HELD[55:28], Table 6.9. -/
abbrev HELD : Fld := ⟨0x702018, 0x0, 28, 28⟩
end R.BPM_QDATA
namespace R.BPM_POOL_CFG
/-- EN[0:0], Table 6.9. -/
abbrev EN : Fld := ⟨0x702100, 0x20, 0, 1⟩
/-- LOC[3:1], Table 6.9. -/
abbrev LOC : Fld := ⟨0x702100, 0x20, 1, 3⟩
/-- SIZE[18:8], Table 6.9. -/
abbrev SIZE : Fld := ⟨0x702100, 0x20, 8, 11⟩
/-- COUNT[39:20], Table 6.9. -/
abbrev COUNT : Fld := ⟨0x702100, 0x20, 20, 20⟩
/-- IDLE[63:63], Table 6.9. -/
abbrev IDLE : Fld := ⟨0x702100, 0x20, 63, 1⟩
end R.BPM_POOL_CFG
namespace R.BPM_POOL_BASE
/-- BASE[39:0], Table 6.9. -/
abbrev BASE : Fld := ⟨0x702108, 0x20, 0, 40⟩
end R.BPM_POOL_BASE
namespace R.BPM_POOL_STAT
/-- FREE[19:0], Table 6.9. -/
abbrev FREE : Fld := ⟨0x702110, 0x20, 0, 20⟩
/-- RESV[39:20], Table 6.9. -/
abbrev RESV : Fld := ⟨0x702110, 0x20, 20, 20⟩
/-- LOW[59:40], Table 6.9. -/
abbrev LOW : Fld := ⟨0x702110, 0x20, 40, 20⟩
end R.BPM_POOL_STAT
namespace R.BPM_POOL_EMPTY
/-- EMPTY[31:0], Table 6.9. -/
abbrev EMPTY : Fld := ⟨0x702118, 0x20, 0, 32⟩
end R.BPM_POOL_EMPTY
namespace R.TIME_CTL
/-- ENABLE[0:0], Table 7.5. -/
abbrev ENABLE : Fld := ⟨0x200000, 0x0, 0, 1⟩
/-- STEER[1:1], Table 7.5. -/
abbrev STEER : Fld := ⟨0x200000, 0x0, 1, 1⟩
/-- AUTO[2:2], Table 7.5, R199. -/
abbrev AUTO : Fld := ⟨0x200000, 0x0, 2, 1⟩
/-- SLEW_MAX[31:16], Table 7.5. -/
abbrev SLEW_MAX : Fld := ⟨0x200000, 0x0, 16, 16⟩
end R.TIME_CTL
namespace R.TIME_NOW_SEC
/-- SEC[47:0], Table 7.5. -/
abbrev SEC : Fld := ⟨0x200008, 0x0, 0, 48⟩
end R.TIME_NOW_SEC
namespace R.TIME_NOW_NS
/-- NS[31:0], Table 7.5. -/
abbrev NS : Fld := ⟨0x200010, 0x0, 0, 32⟩
/-- FRAC[47:32], Table 7.5. -/
abbrev FRAC : Fld := ⟨0x200010, 0x0, 32, 16⟩
end R.TIME_NOW_NS
namespace R.TIME_ADJ
/-- OFFSET[47:0], Table 7.5. -/
abbrev OFFSET : Fld := ⟨0x200018, 0x0, 0, 48⟩
/-- MODE[49:48], Table 7.5. -/
abbrev MODE : Fld := ⟨0x200018, 0x0, 48, 2⟩
/-- GO[63:63], Table 7.5, R198. -/
abbrev GO : Fld := ⟨0x200018, 0x0, 63, 1⟩
end R.TIME_ADJ
namespace R.TIME_SET
/-- SEC[47:0], Table 7.5. -/
abbrev SEC : Fld := ⟨0x200020, 0x0, 0, 48⟩
end R.TIME_SET
namespace R.TIME_FREQ
/-- FADJ[39:0], Table 7.5. -/
abbrev FADJ : Fld := ⟨0x200028, 0x0, 0, 40⟩
end R.TIME_FREQ
namespace R.TIME_ERR
/-- BUSY[0:0], Table 7.5. -/
abbrev BUSY : Fld := ⟨0x200030, 0x0, 0, 1⟩
/-- SRC_LOST[2:1], Table 7.5. -/
abbrev SRC_LOST : Fld := ⟨0x200030, 0x0, 1, 2⟩
/-- SWITCH[3:3], Table 7.5. -/
abbrev SWITCH : Fld := ⟨0x200030, 0x0, 3, 1⟩
/-- STEP[4:4], Table 7.5. -/
abbrev STEP : Fld := ⟨0x200030, 0x0, 4, 1⟩
/-- PPS_MISS[5:5], Table 7.5, R209. -/
abbrev PPS_MISS : Fld := ⟨0x200030, 0x0, 5, 1⟩
/-- TOD_BAD[6:6], Table 7.5, R209. -/
abbrev TOD_BAD : Fld := ⟨0x200030, 0x0, 6, 1⟩
/-- REF_LOST[7:7], Table 7.5. -/
abbrev REF_LOST : Fld := ⟨0x200030, 0x0, 7, 1⟩
/-- TRAILER[47:16], Table 7.5, R208. -/
abbrev TRAILER : Fld := ⟨0x200030, 0x0, 16, 32⟩
end R.TIME_ERR
namespace R.TIME_HOLD
/-- HO_AVG[15:0], Table 7.5. -/
abbrev HO_AVG : Fld := ⟨0x200038, 0x0, 0, 16⟩
/-- HO_RATE[31:16], Table 7.5, R203. -/
abbrev HO_RATE : Fld := ⟨0x200038, 0x0, 16, 16⟩
/-- TE_LIMIT[63:32], Table 7.5, R203. -/
abbrev TE_LIMIT : Fld := ⟨0x200038, 0x0, 32, 32⟩
end R.TIME_HOLD
namespace R.TIME_PPS
/-- OUT_EN[0:0], Table 7.5. -/
abbrev OUT_EN : Fld := ⟨0x200040, 0x0, 0, 1⟩
/-- IN_EN[1:1], Table 7.5. -/
abbrev IN_EN : Fld := ⟨0x200040, 0x0, 1, 1⟩
/-- WIDTH[23:4], Table 7.5. -/
abbrev WIDTH : Fld := ⟨0x200040, 0x0, 4, 20⟩
/-- IN_DELAY[47:32], Table 7.5, R209. -/
abbrev IN_DELAY : Fld := ⟨0x200040, 0x0, 32, 16⟩
/-- OUT_OFS[63:48], Table 7.5, R210. -/
abbrev OUT_OFS : Fld := ⟨0x200040, 0x0, 48, 16⟩
end R.TIME_PPS
namespace R.TIME_TOD
/-- IN_EN[0:0], Table 7.5. -/
abbrev IN_EN : Fld := ⟨0x200048, 0x0, 0, 1⟩
/-- OUT_EN[1:1], Table 7.5. -/
abbrev OUT_EN : Fld := ⟨0x200048, 0x0, 1, 1⟩
/-- UTC_OFS[15:8], Table 7.5. -/
abbrev UTC_OFS : Fld := ⟨0x200048, 0x0, 8, 8⟩
/-- LEAP[17:16], Table 7.5. -/
abbrev LEAP : Fld := ⟨0x200048, 0x0, 16, 2⟩
end R.TIME_TOD
namespace R.TIME_SYNCE
/-- SRC_EN[0:0], Table 7.5, R202. -/
abbrev SRC_EN : Fld := ⟨0x200050, 0x0, 0, 1⟩
/-- SRC_PORT[5:1], Table 7.5. -/
abbrev SRC_PORT : Fld := ⟨0x200050, 0x0, 1, 5⟩
/-- OUT[47:16], Table 7.5. -/
abbrev OUT : Fld := ⟨0x200050, 0x0, 16, 32⟩
end R.TIME_SYNCE
namespace R.TIME_TC
/-- EN[0:0], Table 7.5, R207. -/
abbrev EN : Fld := ⟨0x200058, 0x0, 0, 1⟩
/-- DOM_LO[14:8], Table 7.5. -/
abbrev DOM_LO : Fld := ⟨0x200058, 0x0, 8, 7⟩
/-- DOM_HI[22:16], Table 7.5. -/
abbrev DOM_HI : Fld := ⟨0x200058, 0x0, 16, 7⟩
/-- PORTS[63:32], Table 7.5. -/
abbrev PORTS : Fld := ⟨0x200058, 0x0, 32, 32⟩
end R.TIME_TC
namespace R.TIME_DOM_CFG
/-- EN[0:0], Table 7.5. -/
abbrev EN : Fld := ⟨0x200100, 0x80, 0, 1⟩
/-- DOMAIN[7:1], Table 7.5. -/
abbrev DOMAIN : Fld := ⟨0x200100, 0x80, 1, 7⟩
/-- ROLE[8:8], Table 7.5. -/
abbrev ROLE : Fld := ⟨0x200100, 0x80, 8, 1⟩
/-- SRC_TYPE[11:10], Table 7.5. -/
abbrev SRC_TYPE : Fld := ⟨0x200100, 0x80, 10, 2⟩
/-- SRC[23:12], Table 7.5. -/
abbrev SRC : Fld := ⟨0x200100, 0x80, 12, 12⟩
/-- DELAY[24:24], Table 7.5. -/
abbrev DELAY : Fld := ⟨0x200100, 0x80, 24, 1⟩
/-- ONE_STEP[25:25], Table 7.5. -/
abbrev ONE_STEP : Fld := ⟨0x200100, 0x80, 25, 1⟩
/-- LOG_SYNC[31:28], Table 7.5. -/
abbrev LOG_SYNC : Fld := ⟨0x200100, 0x80, 28, 4⟩
/-- CLASS[39:32], Table 7.5. -/
abbrev CLASS : Fld := ⟨0x200100, 0x80, 32, 8⟩
end R.TIME_DOM_CFG
namespace R.TIME_DOM_SERVO
/-- KP[15:0], Table 7.5, R197. -/
abbrev KP : Fld := ⟨0x200108, 0x80, 0, 16⟩
/-- KI[31:16], Table 7.5, R197. -/
abbrev KI : Fld := ⟨0x200108, 0x80, 16, 16⟩
/-- LOCK_THR[47:32], Table 7.5. -/
abbrev LOCK_THR : Fld := ⟨0x200108, 0x80, 32, 16⟩
/-- UNLOCK_THR[63:48], Table 7.5. -/
abbrev UNLOCK_THR : Fld := ⟨0x200108, 0x80, 48, 16⟩
end R.TIME_DOM_SERVO
namespace R.TIME_DOM_STAT
/-- STATE[2:0], Table 7.5. -/
abbrev STATE : Fld := ⟨0x200110, 0x80, 0, 3⟩
/-- OFFSET[63:16], Table 7.5. -/
abbrev OFFSET : Fld := ⟨0x200110, 0x80, 16, 48⟩
end R.TIME_DOM_STAT
namespace R.TIME_DOM_PATH
/-- MPD[47:0], Table 7.5. -/
abbrev MPD : Fld := ⟨0x200118, 0x80, 0, 48⟩
end R.TIME_DOM_PATH
namespace R.TIME_DOM_TE
/-- TE[31:0], Table 7.5, R203. -/
abbrev TE : Fld := ⟨0x200120, 0x80, 0, 32⟩
/-- TRUST[32:32], Table 7.5, R203. -/
abbrev TRUST : Fld := ⟨0x200120, 0x80, 32, 1⟩
end R.TIME_DOM_TE
namespace R.TIME_DOM_MASTER_LO
/-- MASTER_LO[63:0], Table 7.5, R201. -/
abbrev MASTER_LO : Fld := ⟨0x200128, 0x80, 0, 64⟩
end R.TIME_DOM_MASTER_LO
namespace R.TIME_DOM_MASTER_HI
/-- MASTER_HI[63:0], Table 7.5. -/
abbrev MASTER_HI : Fld := ⟨0x200130, 0x80, 0, 64⟩
end R.TIME_DOM_MASTER_HI
namespace R.TIME_ASYM
/-- ASYM[31:0], Table 7.5, R205. -/
abbrev ASYM : Fld := ⟨0x208000, 0x8, 0, 32⟩
/-- CD_AUTO[32:32], Table 7.5. -/
abbrev CD_AUTO : Fld := ⟨0x208000, 0x8, 32, 1⟩
end R.TIME_ASYM
namespace R.ITIN_CTL
/-- ENABLE[0:0], Table 8.7. -/
abbrev ENABLE : Fld := ⟨0x300000, 0x0, 0, 1⟩
/-- MODE[1:1], Table 8.7, R240. -/
abbrev MODE : Fld := ⟨0x300000, 0x0, 1, 1⟩
/-- GUARD[15:8], Table 8.7. -/
abbrev GUARD : Fld := ⟨0x300000, 0x0, 8, 8⟩
/-- ANCHOR_GUARD[19:16], Table 8.7. -/
abbrev ANCHOR_GUARD : Fld := ⟨0x300000, 0x0, 16, 4⟩
/-- LATE_GRACE[47:32], Table 8.7. -/
abbrev LATE_GRACE : Fld := ⟨0x300000, 0x0, 32, 16⟩
/-- WAKE_PERIOD[63:48], Table 8.7. -/
abbrev WAKE_PERIOD : Fld := ⟨0x300000, 0x0, 48, 16⟩
end R.ITIN_CTL
namespace R.ITIN_LEAD
/-- COMMIT_LEAD[23:0], Table 8.7, R229. -/
abbrev COMMIT_LEAD : Fld := ⟨0x300008, 0x0, 0, 24⟩
end R.ITIN_LEAD
namespace R.ITIN_STATE
/-- ACTIVE[0:0], Table 8.7. -/
abbrev ACTIVE : Fld := ⟨0x300010, 0x0, 0, 1⟩
/-- PEND[1:1], Table 8.7. -/
abbrev PEND : Fld := ⟨0x300010, 0x0, 1, 1⟩
/-- COMMITTED[2:2], Table 8.7. -/
abbrev COMMITTED : Fld := ⟨0x300010, 0x0, 2, 1⟩
/-- ACT_AT[63:24], Table 8.7. -/
abbrev ACT_AT : Fld := ⟨0x300010, 0x0, 24, 40⟩
end R.ITIN_STATE
namespace R.ITIN_ID
/-- ACTIVE_ID[31:0], Table 8.7. -/
abbrev ACTIVE_ID : Fld := ⟨0x300018, 0x0, 0, 32⟩
/-- PEND_ID[63:32], Table 8.7. -/
abbrev PEND_ID : Fld := ⟨0x300018, 0x0, 32, 32⟩
end R.ITIN_ID
namespace R.ITIN_READY
/-- READY[31:0], Table 8.7, R237. -/
abbrev READY : Fld := ⟨0x300020, 0x0, 0, 32⟩
end R.ITIN_READY
namespace R.ITIN_CANCEL
/-- GO[0:0], Table 8.7, R238. -/
abbrev GO : Fld := ⟨0x300028, 0x0, 0, 1⟩
end R.ITIN_CANCEL
namespace R.ITIN_ERR
/-- BUSY[0:0], Table 8.7. -/
abbrev BUSY : Fld := ⟨0x300030, 0x0, 0, 1⟩
/-- RANGE[1:1], Table 8.7. -/
abbrev RANGE : Fld := ⟨0x300030, 0x0, 1, 1⟩
/-- CONFLICT[2:2], Table 8.7, R228. -/
abbrev CONFLICT : Fld := ⟨0x300030, 0x0, 2, 1⟩
/-- PLAN[3:3], Table 8.7, R239. -/
abbrev PLAN : Fld := ⟨0x300030, 0x0, 3, 1⟩
/-- CANCEL_LATE[4:4], Table 8.7, R234. -/
abbrev CANCEL_LATE : Fld := ⟨0x300030, 0x0, 4, 1⟩
/-- PAST[47:16], Table 8.7, R225. -/
abbrev PAST : Fld := ⟨0x300030, 0x0, 16, 32⟩
end R.ITIN_ERR
namespace R.ITIN_PAGE_SEL
/-- WORD[17:0], Table 8.7. -/
abbrev WORD : Fld := ⟨0x300038, 0x0, 0, 18⟩
/-- PAGE[20:20], Table 8.7. -/
abbrev PAGE : Fld := ⟨0x300038, 0x0, 20, 1⟩
/-- AUTOINC[21:21], Table 8.7. -/
abbrev AUTOINC : Fld := ⟨0x300038, 0x0, 21, 1⟩
end R.ITIN_PAGE_SEL
namespace R.ITIN_PAGE_DATA
/-- DATA[63:0], Table 8.7. -/
abbrev DATA : Fld := ⟨0x300040, 0x0, 0, 64⟩
end R.ITIN_PAGE_DATA
namespace R.ITIN_WAKE
/-- CARRIER[6:0], Table 8.7. -/
abbrev CARRIER : Fld := ⟨0x300048, 0x0, 0, 7⟩
/-- GO[7:7], Table 8.7, R234. -/
abbrev GO : Fld := ⟨0x300048, 0x0, 7, 1⟩
end R.ITIN_WAKE
namespace R.ITIN_STAT_EXECUTED
/-- EXECUTED[63:0], Table 8.7. -/
abbrev EXECUTED : Fld := ⟨0x300100, 0x40, 0, 64⟩
end R.ITIN_STAT_EXECUTED
namespace R.ITIN_STAT_DROPPED
/-- DROPPED[63:0], Table 8.7, R239. -/
abbrev DROPPED : Fld := ⟨0x300108, 0x40, 0, 64⟩
end R.ITIN_STAT_DROPPED
namespace R.ITIN_STAT_PARKS
/-- PARKS[63:0], Table 8.7. -/
abbrev PARKS : Fld := ⟨0x300110, 0x40, 0, 64⟩
end R.ITIN_STAT_PARKS
namespace R.ITIN_STAT_CANCELLED
/-- CANCELLED[63:0], Table 8.7, R234. -/
abbrev CANCELLED : Fld := ⟨0x300118, 0x40, 0, 64⟩
end R.ITIN_STAT_CANCELLED
namespace R.ITIN_STAT_WAKES
/-- WAKES[63:0], Table 8.7. -/
abbrev WAKES : Fld := ⟨0x300120, 0x40, 0, 64⟩
end R.ITIN_STAT_WAKES
namespace R.ITIN_STAT_NEXT
/-- NEXT[14:0], Table 8.7. -/
abbrev NEXT : Fld := ⟨0x300128, 0x40, 0, 15⟩
end R.ITIN_STAT_NEXT
namespace R.CAT_CTL
/-- ENABLE[0:0], Table 8.8, R219. -/
abbrev ENABLE : Fld := ⟨0x400000, 0x0, 0, 1⟩
/-- HOLD[31:16], Table 8.8, R218. -/
abbrev HOLD : Fld := ⟨0x400000, 0x0, 16, 16⟩
end R.CAT_CTL
namespace R.CAT_SELF
/-- GW_ID[31:0], Table 8.8. -/
abbrev GW_ID : Fld := ⟨0x400008, 0x0, 0, 32⟩
end R.CAT_SELF
namespace R.CAT_STATE
/-- ACTIVE[0:0], Table 8.8. -/
abbrev ACTIVE : Fld := ⟨0x400010, 0x0, 0, 1⟩
/-- PEND[1:1], Table 8.8. -/
abbrev PEND : Fld := ⟨0x400010, 0x0, 1, 1⟩
/-- COMMITTED[2:2], Table 8.8. -/
abbrev COMMITTED : Fld := ⟨0x400010, 0x0, 2, 1⟩
/-- HOLDING[3:3], Table 8.8, R218. -/
abbrev HOLDING : Fld := ⟨0x400010, 0x0, 3, 1⟩
/-- ACT_AT[63:24], Table 8.8. -/
abbrev ACT_AT : Fld := ⟨0x400010, 0x0, 24, 40⟩
end R.CAT_STATE
namespace R.CAT_ID
/-- ACTIVE_PLAN[31:0], Table 8.8. -/
abbrev ACTIVE_PLAN : Fld := ⟨0x400018, 0x0, 0, 32⟩
/-- PEND_PLAN[63:32], Table 8.8. -/
abbrev PEND_PLAN : Fld := ⟨0x400018, 0x0, 32, 32⟩
end R.CAT_ID
namespace R.CAT_READY
/-- READY[31:0], Table 8.8, R237. -/
abbrev READY : Fld := ⟨0x400020, 0x0, 0, 32⟩
end R.CAT_READY
namespace R.CAT_CANCEL
/-- GO[0:0], Table 8.8, R238. -/
abbrev GO : Fld := ⟨0x400028, 0x0, 0, 1⟩
end R.CAT_CANCEL
namespace R.CAT_ERR
/-- BUSY[0:0], Table 8.8. -/
abbrev BUSY : Fld := ⟨0x400030, 0x0, 0, 1⟩
/-- RANGE[1:1], Table 8.8. -/
abbrev RANGE : Fld := ⟨0x400030, 0x0, 1, 1⟩
/-- CANCEL_LATE[2:2], Table 8.8, R238. -/
abbrev CANCEL_LATE : Fld := ⟨0x400030, 0x0, 2, 1⟩
/-- ORDER[3:3], Table 8.8, R223. -/
abbrev ORDER : Fld := ⟨0x400030, 0x0, 3, 1⟩
/-- CEP_STALE[47:16], Table 8.8, R218. -/
abbrev CEP_STALE : Fld := ⟨0x400030, 0x0, 16, 32⟩
end R.CAT_ERR
namespace R.CAT_SEL
/-- WORD[12:0], Table 8.8. -/
abbrev WORD : Fld := ⟨0x400038, 0x0, 0, 13⟩
/-- VERSION[16:16], Table 8.8. -/
abbrev VERSION : Fld := ⟨0x400038, 0x0, 16, 1⟩
/-- AUTOINC[17:17], Table 8.8. -/
abbrev AUTOINC : Fld := ⟨0x400038, 0x0, 17, 1⟩
end R.CAT_SEL
namespace R.CAT_DATA
/-- DATA[63:0], Table 8.8. -/
abbrev DATA : Fld := ⟨0x400040, 0x0, 0, 64⟩
end R.CAT_DATA
namespace R.CAT_CNT
/-- MISPLAN[31:0], Table 8.8, R219. -/
abbrev MISPLAN : Fld := ⟨0x400048, 0x0, 0, 32⟩
/-- IDENT[63:32], Table 8.8. -/
abbrev IDENT : Fld := ⟨0x400048, 0x0, 32, 32⟩
end R.CAT_CNT
namespace R.CAT_ANCHOR
/-- TRUNC[31:0], Table 8.8, R222. -/
abbrev TRUNC : Fld := ⟨0x400100, 0x8, 0, 32⟩
/-- LOST[63:32], Table 8.8. -/
abbrev LOST : Fld := ⟨0x400100, 0x8, 32, 32⟩
end R.CAT_ANCHOR
namespace R.KW_CTL
/-- ENABLE[0:0], Table 9.8. -/
abbrev ENABLE : Fld := ⟨0xB00000, 0x0, 0, 1⟩
/-- FF_EN[1:1], Table 9.8, R253. -/
abbrev FF_EN : Fld := ⟨0xB00000, 0x0, 1, 1⟩
/-- XT_EN[2:2], Table 9.8, R255. -/
abbrev XT_EN : Fld := ⟨0xB00000, 0x0, 2, 1⟩
/-- KP[23:8], Table 9.8. -/
abbrev KP : Fld := ⟨0xB00000, 0x0, 8, 16⟩
/-- KI[39:24], Table 9.8. -/
abbrev KI : Fld := ⟨0xB00000, 0x0, 24, 16⟩
/-- PATH_AGE[55:40], Table 9.8, R249. -/
abbrev PATH_AGE : Fld := ⟨0xB00000, 0x0, 40, 16⟩
/-- IDLE[63:63], Table 9.8. -/
abbrev IDLE : Fld := ⟨0xB00000, 0x0, 63, 1⟩
end R.KW_CTL
namespace R.KW_ERR
/-- BUSY[0:0], Table 9.8. -/
abbrev BUSY : Fld := ⟨0xB00008, 0x0, 0, 1⟩
/-- MISMATCH[1:1], Table 9.8, R262. -/
abbrev MISMATCH : Fld := ⟨0xB00008, 0x0, 1, 1⟩
/-- BUDGET[2:2], Table 9.8, R256. -/
abbrev BUDGET : Fld := ⟨0xB00008, 0x0, 2, 1⟩
/-- TEMP[3:3], Table 9.8, R250. -/
abbrev TEMP : Fld := ⟨0xB00008, 0x0, 3, 1⟩
/-- RANGE[4:4], Table 9.8. -/
abbrev RANGE : Fld := ⟨0xB00008, 0x0, 4, 1⟩
end R.KW_ERR
namespace R.KW_FA
/-- PRESENT[1:0], Table 9.8. -/
abbrev PRESENT : Fld := ⟨0xB00010, 0x0, 0, 2⟩
/-- FIBRE_LOS[9:2], Table 9.8. -/
abbrev FIBRE_LOS : Fld := ⟨0xB00010, 0x0, 2, 8⟩
end R.KW_FA
namespace R.KW_PATH_SEL
/-- CARRIER[6:0], Table 9.8. -/
abbrev CARRIER : Fld := ⟨0xB00018, 0x0, 0, 7⟩
/-- COLOUR[14:8], Table 9.8. -/
abbrev COLOUR : Fld := ⟨0xB00018, 0x0, 8, 7⟩
/-- WORD[17:16], Table 9.8. -/
abbrev WORD : Fld := ⟨0xB00018, 0x0, 16, 2⟩
end R.KW_PATH_SEL
namespace R.KW_PATH_DATA
/-- DATA[63:0], Table 9.8. -/
abbrev DATA : Fld := ⟨0xB00020, 0x0, 0, 64⟩
end R.KW_PATH_DATA
namespace R.KW_PATH_CLR
/-- GO[0:0], Table 9.8. -/
abbrev GO : Fld := ⟨0xB00028, 0x0, 0, 1⟩
/-- ALL[1:1], Table 9.8. -/
abbrev ALL : Fld := ⟨0xB00028, 0x0, 1, 1⟩
end R.KW_PATH_CLR
namespace R.KW_ENG_CFG
/-- EN[0:0], Table 9.8. -/
abbrev EN : Fld := ⟨0xB00100, 0x40, 0, 1⟩
/-- T_SET[19:4], Table 9.8. -/
abbrev T_SET : Fld := ⟨0xB00100, 0x40, 4, 16⟩
/-- BUDGET[35:20], Table 9.8, R256. -/
abbrev BUDGET : Fld := ⟨0xB00100, 0x40, 20, 16⟩
/-- LOS_THR[51:36], Table 9.8. -/
abbrev LOS_THR : Fld := ⟨0xB00100, 0x40, 36, 16⟩
/-- IDLE[63:63], Table 9.8. -/
abbrev IDLE : Fld := ⟨0xB00100, 0x40, 63, 1⟩
end R.KW_ENG_CFG
namespace R.KW_ENG_STAT
/-- TEMP[15:0], Table 9.8. -/
abbrev TEMP : Fld := ⟨0xB00108, 0x40, 0, 16⟩
/-- BULK[31:16], Table 9.8. -/
abbrev BULK : Fld := ⟨0xB00108, 0x40, 16, 16⟩
/-- HTR_SUM[47:32], Table 9.8. -/
abbrev HTR_SUM : Fld := ⟨0xB00108, 0x40, 32, 16⟩
/-- RX_TOTAL[63:48], Table 9.8. -/
abbrev RX_TOTAL : Fld := ⟨0xB00108, 0x40, 48, 16⟩
end R.KW_ENG_STAT
namespace R.KW_ENG_XT
/-- K1[15:0], Table 9.8, R255. -/
abbrev K1 : Fld := ⟨0xB00110, 0x40, 0, 16⟩
/-- K2[31:16], Table 9.8. -/
abbrev K2 : Fld := ⟨0xB00110, 0x40, 16, 16⟩
/-- TAU_X[47:32], Table 9.8. -/
abbrev TAU_X : Fld := ⟨0xB00110, 0x40, 32, 16⟩
end R.KW_ENG_XT
namespace R.KW_ENG_MODEL
/-- G[15:0], Table 9.8. -/
abbrev G : Fld := ⟨0xB00118, 0x40, 0, 16⟩
/-- TAU[31:16], Table 9.8. -/
abbrev TAU : Fld := ⟨0xB00118, 0x40, 16, 16⟩
/-- THETA[47:32], Table 9.8. -/
abbrev THETA : Fld := ⟨0xB00118, 0x40, 32, 16⟩
/-- LOCK_RANGE[63:48], Table 9.8. -/
abbrev LOCK_RANGE : Fld := ⟨0xB00118, 0x40, 48, 16⟩
end R.KW_ENG_MODEL
namespace R.KW_CAR_CFG
/-- EN[0:0], Table 9.8. -/
abbrev EN : Fld := ⟨0xB01000, 0x40, 0, 1⟩
/-- MODE[2:1], Table 9.8. -/
abbrev MODE : Fld := ⟨0xB01000, 0x40, 1, 2⟩
/-- FEC[3:3], Table 9.8. -/
abbrev FEC : Fld := ⟨0xB01000, 0x40, 3, 1⟩
/-- TX_PWR[23:8], Table 9.8. -/
abbrev TX_PWR : Fld := ⟨0xB01000, 0x40, 8, 16⟩
/-- IDLE[63:63], Table 9.8. -/
abbrev IDLE : Fld := ⟨0xB01000, 0x40, 63, 1⟩
end R.KW_CAR_CFG
namespace R.KW_CAR_STATE
/-- TX_COL[6:0], Table 9.8. -/
abbrev TX_COL : Fld := ⟨0xB01008, 0x40, 0, 7⟩
/-- LO_COL[14:8], Table 9.8. -/
abbrev LO_COL : Fld := ⟨0xB01008, 0x40, 8, 7⟩
/-- TX_LOCK[16:16], Table 9.8. -/
abbrev TX_LOCK : Fld := ⟨0xB01008, 0x40, 16, 1⟩
/-- RX_LOCK[17:17], Table 9.8. -/
abbrev RX_LOCK : Fld := ⟨0xB01008, 0x40, 17, 1⟩
/-- TX_PARK[18:18], Table 9.8. -/
abbrev TX_PARK : Fld := ⟨0xB01008, 0x40, 18, 1⟩
/-- RX_PARK[19:19], Table 9.8. -/
abbrev RX_PARK : Fld := ⟨0xB01008, 0x40, 19, 1⟩
end R.KW_CAR_STATE
namespace R.KW_CAR_OPT
/-- TX_POW[15:0], Table 9.8. -/
abbrev TX_POW : Fld := ⟨0xB01010, 0x40, 0, 16⟩
/-- RX_POW[31:16], Table 9.8. -/
abbrev RX_POW : Fld := ⟨0xB01010, 0x40, 16, 16⟩
/-- LO_POW[47:32], Table 9.8. -/
abbrev LO_POW : Fld := ⟨0xB01010, 0x40, 32, 16⟩
/-- FERR[63:48], Table 9.8. -/
abbrev FERR : Fld := ⟨0xB01010, 0x40, 48, 16⟩
end R.KW_CAR_OPT
namespace R.KW_CAR_PATH
/-- CD[31:0], Table 9.8. -/
abbrev CD : Fld := ⟨0xB01018, 0x40, 0, 32⟩
/-- DGD[47:32], Table 9.8. -/
abbrev DGD : Fld := ⟨0xB01018, 0x40, 32, 16⟩
end R.KW_CAR_PATH
namespace R.KW_CAR_QUAL
/-- OSNR[15:0], Table 9.8. -/
abbrev OSNR : Fld := ⟨0xB01020, 0x40, 0, 16⟩
/-- QMARG[31:16], Table 9.8. -/
abbrev QMARG : Fld := ⟨0xB01020, 0x40, 16, 16⟩
/-- BIAS_TX[47:32], Table 9.8. -/
abbrev BIAS_TX : Fld := ⟨0xB01020, 0x40, 32, 16⟩
/-- BIAS_LO[63:48], Table 9.8. -/
abbrev BIAS_LO : Fld := ⟨0xB01020, 0x40, 48, 16⟩
end R.KW_CAR_QUAL
namespace R.KW_CAR_HTR
/-- H0[15:0], Table 9.8. -/
abbrev H0 : Fld := ⟨0xB01028, 0x40, 0, 16⟩
/-- H1[31:16], Table 9.8. -/
abbrev H1 : Fld := ⟨0xB01028, 0x40, 16, 16⟩
/-- H2[47:32], Table 9.8. -/
abbrev H2 : Fld := ⟨0xB01028, 0x40, 32, 16⟩
/-- H3[63:48], Table 9.8. -/
abbrev H3 : Fld := ⟨0xB01028, 0x40, 48, 16⟩
end R.KW_CAR_HTR
namespace R.KW_CAR_CNT
/-- COLD[15:0], Table 9.8, R249. -/
abbrev COLD : Fld := ⟨0xB01030, 0x40, 0, 16⟩
/-- LATE_LOCK[31:16], Table 9.8, R248. -/
abbrev LATE_LOCK : Fld := ⟨0xB01030, 0x40, 16, 16⟩
/-- FF_CLIP[47:32], Table 9.8, R253. -/
abbrev FF_CLIP : Fld := ⟨0xB01030, 0x40, 32, 16⟩
end R.KW_CAR_CNT
namespace R.KW_PEER
/-- PEER_CD[31:0], Table 9.8. -/
abbrev PEER_CD : Fld := ⟨0xB08000, 0x8, 0, 32⟩
/-- OWN_CD[63:32], Table 9.8. -/
abbrev OWN_CD : Fld := ⟨0xB08000, 0x8, 32, 32⟩
end R.KW_PEER
namespace R.LINE_CTL
/-- ENABLE[0:0], Table 10.10. -/
abbrev ENABLE : Fld := ⟨0xA00000, 0x0, 0, 1⟩
/-- TIM_SAPI[1:1], Table 10.10, R279. -/
abbrev TIM_SAPI : Fld := ⟨0xA00000, 0x0, 1, 1⟩
/-- TIM_DAPI[2:2], Table 10.10, R279. -/
abbrev TIM_DAPI : Fld := ⟨0xA00000, 0x0, 2, 1⟩
/-- TIM_ACT[3:3], Table 10.10, R281. -/
abbrev TIM_ACT : Fld := ⟨0xA00000, 0x0, 3, 1⟩
/-- SES_PCT[14:8], Table 10.10. -/
abbrev SES_PCT : Fld := ⟨0xA00000, 0x0, 8, 7⟩
/-- DAY_OFS[32:16], Table 10.10, R289. -/
abbrev DAY_OFS : Fld := ⟨0xA00000, 0x0, 16, 17⟩
end R.LINE_CTL
namespace R.LINE_ERR
/-- BUSY[0:0], Table 10.10. -/
abbrev BUSY : Fld := ⟨0xA00008, 0x0, 0, 1⟩
/-- RANGE[1:1], Table 10.10. -/
abbrev RANGE : Fld := ⟨0xA00008, 0x0, 1, 1⟩
end R.LINE_ERR
namespace R.LINE_SAPI_0
/-- SAPI_0[63:0], Table 10.10. -/
abbrev SAPI_0 : Fld := ⟨0xA00010, 0x0, 0, 64⟩
end R.LINE_SAPI_0
namespace R.LINE_SAPI_1
/-- SAPI_1[63:0], Table 10.10. -/
abbrev SAPI_1 : Fld := ⟨0xA00018, 0x0, 0, 64⟩
end R.LINE_SAPI_1
namespace R.LINE_OPER
/-- OPER[63:0], Table 10.10. -/
abbrev OPER : Fld := ⟨0xA00020, 0x8, 0, 64⟩
end R.LINE_OPER
namespace R.LINE_PM_SEL
/-- ENTITY[8:0], Table 10.10. -/
abbrev ENTITY : Fld := ⟨0xA00040, 0x0, 0, 9⟩
/-- BIN[14:9], Table 10.10. -/
abbrev BIN : Fld := ⟨0xA00040, 0x0, 9, 6⟩
/-- WORD[18:15], Table 10.10. -/
abbrev WORD : Fld := ⟨0xA00040, 0x0, 15, 4⟩
/-- AUTOINC[19:19], Table 10.10. -/
abbrev AUTOINC : Fld := ⟨0xA00040, 0x0, 19, 1⟩
end R.LINE_PM_SEL
namespace R.LINE_PM_DATA
/-- DATA[63:0], Table 10.10. -/
abbrev DATA : Fld := ⟨0xA00048, 0x0, 0, 64⟩
end R.LINE_PM_DATA
namespace R.LINE_GTCA
/-- QMARG_LOW[15:0], Table 10.10. -/
abbrev QMARG_LOW : Fld := ⟨0xA00050, 0x0, 0, 16⟩
/-- RXPOW_LOW[31:16], Table 10.10. -/
abbrev RXPOW_LOW : Fld := ⟨0xA00050, 0x0, 16, 16⟩
/-- HYST[47:32], Table 10.10. -/
abbrev HYST : Fld := ⟨0xA00050, 0x0, 32, 16⟩
end R.LINE_GTCA
namespace R.LINE_KFS_SEL
/-- INDEX[17:0], Table 10.10. -/
abbrev INDEX : Fld := ⟨0xA00058, 0x0, 0, 18⟩
end R.LINE_KFS_SEL
namespace R.LINE_KFS_DATA
/-- SHIFT[7:0], Table 10.10, R285. -/
abbrev SHIFT : Fld := ⟨0xA00060, 0x0, 0, 8⟩
end R.LINE_KFS_DATA
namespace R.LINE_TCA
/-- T15[31:0], Table 10.10. -/
abbrev T15 : Fld := ⟨0xA00100, 0x8, 0, 32⟩
/-- T24[63:32], Table 10.10. -/
abbrev T24 : Fld := ⟨0xA00100, 0x8, 32, 32⟩
end R.LINE_TCA
namespace R.LINE_CAR_STAT
/-- ALIGN[0:0], Table 10.10. -/
abbrev ALIGN : Fld := ⟨0xA01000, 0x20, 0, 1⟩
/-- LOS[1:1], Table 10.10. -/
abbrev LOS : Fld := ⟨0xA01000, 0x20, 1, 1⟩
/-- LOF[2:2], Table 10.10. -/
abbrev LOF : Fld := ⟨0xA01000, 0x20, 2, 1⟩
/-- TIM[3:3], Table 10.10. -/
abbrev TIM : Fld := ⟨0xA01000, 0x20, 3, 1⟩
/-- TTI_OK[4:4], Table 10.10. -/
abbrev TTI_OK : Fld := ⟨0xA01000, 0x20, 4, 1⟩
/-- RMT_OUT[5:5], Table 10.10. -/
abbrev RMT_OUT : Fld := ⟨0xA01000, 0x20, 5, 1⟩
/-- RX_IN[6:6], Table 10.10. -/
abbrev RX_IN : Fld := ⟨0xA01000, 0x20, 6, 1⟩
/-- TX_IN[7:7], Table 10.10. -/
abbrev TX_IN : Fld := ⟨0xA01000, 0x20, 7, 1⟩
/-- UNAVAIL[8:8], Table 10.10. -/
abbrev UNAVAIL : Fld := ⟨0xA01000, 0x20, 8, 1⟩
end R.LINE_CAR_STAT
namespace R.LINE_CAR_CNT
/-- OOF[15:0], Table 10.10, R275. -/
abbrev OOF : Fld := ⟨0xA01008, 0x20, 0, 16⟩
/-- JC_INV[31:16], Table 10.10, R269. -/
abbrev JC_INV : Fld := ⟨0xA01008, 0x20, 16, 16⟩
/-- PTR_MIS[47:32], Table 10.10, R271. -/
abbrev PTR_MIS : Fld := ⟨0xA01008, 0x20, 32, 16⟩
/-- UNCORR_SEG[63:48], Table 10.10, R286. -/
abbrev UNCORR_SEG : Fld := ⟨0xA01008, 0x20, 48, 16⟩
end R.LINE_CAR_CNT
namespace R.LINE_CAR_RXID
/-- COLOUR[6:0], Table 10.10. -/
abbrev COLOUR : Fld := ⟨0xA01010, 0x20, 0, 7⟩
/-- SITE[12:8], Table 10.10. -/
abbrev SITE : Fld := ⟨0xA01010, 0x20, 8, 5⟩
/-- PLANE[15:13], Table 10.10. -/
abbrev PLANE : Fld := ⟨0xA01010, 0x20, 13, 3⟩
/-- INDEX[19:16], Table 10.10. -/
abbrev INDEX : Fld := ⟨0xA01010, 0x20, 16, 4⟩
/-- RAIL[29:24], Table 10.10. -/
abbrev RAIL : Fld := ⟨0xA01010, 0x20, 24, 6⟩
end R.LINE_CAR_RXID
namespace R.LINE_CAR_TTI
/-- TTI[63:0], Table 10.10. -/
abbrev TTI : Fld := ⟨0xA04000, 0x8, 0, 64⟩
end R.LINE_CAR_TTI
namespace R.LINE_PEER_SAPI_0
/-- SAPI_0[63:0], Table 10.10. -/
abbrev SAPI_0 : Fld := ⟨0xA08000, 0x10, 0, 64⟩
end R.LINE_PEER_SAPI_0
namespace R.LINE_PEER_SAPI_1
/-- SAPI_1[63:0], Table 10.10. -/
abbrev SAPI_1 : Fld := ⟨0xA08008, 0x10, 0, 64⟩
end R.LINE_PEER_SAPI_1
namespace R.VT_STAT
/-- SEC[1:0], Table 11.13. -/
abbrev SEC : Fld := ⟨0xC00000, 0x0, 0, 2⟩
/-- DBG[3:2], Table 11.13. -/
abbrev DBG : Fld := ⟨0xC00000, 0x0, 2, 2⟩
/-- APPROVED[4:4], Table 11.13, R295. -/
abbrev APPROVED : Fld := ⟨0xC00000, 0x0, 4, 1⟩
/-- SELFTEST[5:5], Table 11.13, R296. -/
abbrev SELFTEST : Fld := ⟨0xC00000, 0x0, 5, 1⟩
/-- TRNG_OK[6:6], Table 11.13, R324. -/
abbrev TRNG_OK : Fld := ⟨0xC00000, 0x0, 6, 1⟩
/-- BOOT_IMG[7:7], Table 11.13. -/
abbrev BOOT_IMG : Fld := ⟨0xC00000, 0x0, 7, 1⟩
/-- OPKEY_SET[8:8], Table 11.13, R301. -/
abbrev OPKEY_SET : Fld := ⟨0xC00000, 0x0, 8, 1⟩
/-- CRED_OK[9:9], Table 11.13. -/
abbrev CRED_OK : Fld := ⟨0xC00000, 0x0, 9, 1⟩
/-- SVN_RUN[23:16], Table 11.13. -/
abbrev SVN_RUN : Fld := ⟨0xC00000, 0x0, 16, 8⟩
/-- SVN_MIN[31:24], Table 11.13, R300. -/
abbrev SVN_MIN : Fld := ⟨0xC00000, 0x0, 24, 8⟩
/-- L3_CAUSE[39:32], Table 11.13. -/
abbrev L3_CAUSE : Fld := ⟨0xC00000, 0x0, 32, 8⟩
/-- L3_COUNT[47:40], Table 11.13. -/
abbrev L3_COUNT : Fld := ⟨0xC00000, 0x0, 40, 8⟩
end R.VT_STAT
namespace R.VT_CTL
/-- CM_LEVEL[9:8], Table 11.13, R323. -/
abbrev CM_LEVEL : Fld := ⟨0xC00008, 0x0, 8, 2⟩
/-- PLAIN_OK[10:10], Table 11.13. -/
abbrev PLAIN_OK : Fld := ⟨0xC00008, 0x0, 10, 1⟩
/-- TEN_QUAR_THR[19:12], Table 11.13, R320. -/
abbrev TEN_QUAR_THR : Fld := ⟨0xC00008, 0x0, 12, 8⟩
/-- PEER_MIN_SVN[31:24], Table 11.13, R305. -/
abbrev PEER_MIN_SVN : Fld := ⟨0xC00008, 0x0, 24, 8⟩
/-- SEAL_RETRY[47:32], Table 11.13. -/
abbrev SEAL_RETRY : Fld := ⟨0xC00008, 0x0, 32, 16⟩
end R.VT_CTL
namespace R.VT_ERR
/-- BUSY[0:0], Table 11.13. -/
abbrev BUSY : Fld := ⟨0xC00010, 0x0, 0, 1⟩
/-- RANGE[1:1], Table 11.13. -/
abbrev RANGE : Fld := ⟨0xC00010, 0x0, 1, 1⟩
/-- MISMATCH[2:2], Table 11.13, R309. -/
abbrev MISMATCH : Fld := ⟨0xC00010, 0x0, 2, 1⟩
/-- CONFLICT[3:3], Table 11.13, R312. -/
abbrev CONFLICT : Fld := ⟨0xC00010, 0x0, 3, 1⟩
end R.VT_ERR
namespace R.VT_TEN_SEL
/-- INDEX[9:0], Table 11.13. -/
abbrev INDEX : Fld := ⟨0xC00018, 0x0, 0, 10⟩
end R.VT_TEN_SEL
namespace R.VT_TEN_DATA
/-- PAIR_BASE[14:0], Table 11.13, R309. -/
abbrev PAIR_BASE : Fld := ⟨0xC00020, 0x0, 0, 15⟩
/-- PAIR_COUNT[31:16], Table 11.13. -/
abbrev PAIR_COUNT : Fld := ⟨0xC00020, 0x0, 16, 16⟩
/-- KEK_SET[32:32], Table 11.13. -/
abbrev KEK_SET : Fld := ⟨0xC00020, 0x0, 32, 1⟩
/-- PAIRS_USED[48:33], Table 11.13. -/
abbrev PAIRS_USED : Fld := ⟨0xC00020, 0x0, 33, 16⟩
end R.VT_TEN_DATA
namespace R.VT_CMD
/-- OP[3:0], Table 11.13. -/
abbrev OP : Fld := ⟨0xC00028, 0x0, 0, 4⟩
/-- ARG[31:16], Table 11.13. -/
abbrev ARG : Fld := ⟨0xC00028, 0x0, 16, 16⟩
/-- GO[63:63], Table 11.13. -/
abbrev GO : Fld := ⟨0xC00028, 0x0, 63, 1⟩
end R.VT_CMD
namespace R.VT_CMD_RES
/-- STATUS[7:0], Table 11.13. -/
abbrev STATUS : Fld := ⟨0xC00030, 0x0, 0, 8⟩
/-- LEN[23:8], Table 11.13. -/
abbrev LEN : Fld := ⟨0xC00030, 0x0, 8, 16⟩
end R.VT_CMD_RES
namespace R.VT_PWR_REQ
/-- TARGET[6:0], Table 11.13. -/
abbrev TARGET : Fld := ⟨0xC00038, 0x0, 0, 7⟩
/-- ACTION[8:7], Table 11.13. -/
abbrev ACTION : Fld := ⟨0xC00038, 0x0, 7, 2⟩
/-- GO[63:63], Table 11.13. -/
abbrev GO : Fld := ⟨0xC00038, 0x0, 63, 1⟩
end R.VT_PWR_REQ
namespace R.VT_PWR_RES
/-- STATUS[7:0], Table 11.13. -/
abbrev STATUS : Fld := ⟨0xC00040, 0x0, 0, 8⟩
/-- GATED[47:8], Table 11.13. -/
abbrev GATED : Fld := ⟨0xC00040, 0x0, 8, 40⟩
end R.VT_PWR_RES
namespace R.VT_CNT
/-- AUTH_FAIL[31:0], Table 11.13, R319. -/
abbrev AUTH_FAIL : Fld := ⟨0xC00048, 0x0, 0, 32⟩
/-- NOKEY[63:32], Table 11.13, R317. -/
abbrev NOKEY : Fld := ⟨0xC00048, 0x0, 32, 32⟩
end R.VT_CNT
namespace R.VT_CNT2
/-- RCPT_AUTH[31:0], Table 11.13, R319. -/
abbrev RCPT_AUTH : Fld := ⟨0xC00050, 0x0, 0, 32⟩
/-- STALL[63:32], Table 11.13, R316. -/
abbrev STALL : Fld := ⟨0xC00050, 0x0, 32, 32⟩
end R.VT_CNT2
namespace R.VT_SENSE
/-- LIVE[15:0], Table 11.13. -/
abbrev LIVE : Fld := ⟨0xC00058, 0x0, 0, 16⟩
end R.VT_SENSE
namespace R.VT_LOADPUB
/-- LOADPUB[63:0], Table 11.13. -/
abbrev LOADPUB : Fld := ⟨0xC00100, 0x8, 0, 64⟩
end R.VT_LOADPUB
namespace R.VT_OPKEY
/-- OPKEY[63:0], Table 11.13, R301. -/
abbrev OPKEY : Fld := ⟨0xC00180, 0x8, 0, 64⟩
end R.VT_OPKEY
namespace R.VT_BUF
/-- BUF[63:0], Table 11.13. -/
abbrev BUF : Fld := ⟨0xC01000, 0x8, 0, 64⟩
end R.VT_BUF
namespace R.VT_PEER
/-- STATE[1:0], Table 11.13. -/
abbrev STATE : Fld := ⟨0xC08000, 0x8, 0, 2⟩
/-- RESTRICTED[2:2], Table 11.13, R308. -/
abbrev RESTRICTED : Fld := ⟨0xC08000, 0x8, 2, 1⟩
/-- PEER_SVN[15:8], Table 11.13. -/
abbrev PEER_SVN : Fld := ⟨0xC08000, 0x8, 8, 8⟩
/-- FAILS[31:16], Table 11.13. -/
abbrev FAILS : Fld := ⟨0xC08000, 0x8, 16, 16⟩
/-- REASON[39:32], Table 11.13, R305. -/
abbrev REASON : Fld := ⟨0xC08000, 0x8, 32, 8⟩
end R.VT_PEER
namespace R.VT_CTX
/-- PAIR[14:0], Table 11.13. -/
abbrev PAIR : Fld := ⟨0xC10000, 0x10, 0, 15⟩
/-- KPH_OUT[16:16], Table 11.13. -/
abbrev KPH_OUT : Fld := ⟨0xC10000, 0x10, 16, 1⟩
/-- KPH_IN[17:17], Table 11.13. -/
abbrev KPH_IN : Fld := ⟨0xC10000, 0x10, 17, 1⟩
/-- NEXT_OUT[18:18], Table 11.13. -/
abbrev NEXT_OUT : Fld := ⟨0xC10000, 0x10, 18, 1⟩
/-- NEXT_IN[19:19], Table 11.13. -/
abbrev NEXT_IN : Fld := ⟨0xC10000, 0x10, 19, 1⟩
/-- AUTHF[21:20], Table 11.13. -/
abbrev AUTHF : Fld := ⟨0xC10000, 0x10, 20, 2⟩
/-- CLUSTER[27:22], Table 11.13. -/
abbrev CLUSTER : Fld := ⟨0xC10000, 0x10, 22, 6⟩
end R.VT_CTX
namespace R.VT_CTX_E
/-- E_OUT[31:0], Table 11.13. -/
abbrev E_OUT : Fld := ⟨0xC10008, 0x10, 0, 32⟩
/-- E_IN[63:32], Table 11.13. -/
abbrev E_IN : Fld := ⟨0xC10008, 0x10, 32, 32⟩
end R.VT_CTX_E
namespace R.FAB_CTL
/-- ENABLE[0:0], Table 12.8. -/
abbrev ENABLE : Fld := ⟨0x900000, 0x0, 0, 1⟩
/-- OVERHEAD[15:8], Table 12.8, R342. -/
abbrev OVERHEAD : Fld := ⟨0x900000, 0x0, 8, 8⟩
/-- READ_MAX_LOG[19:16], Table 12.8. -/
abbrev READ_MAX_LOG : Fld := ⟨0x900000, 0x0, 16, 4⟩
/-- IDLE[63:63], Table 12.8. -/
abbrev IDLE : Fld := ⟨0x900000, 0x0, 63, 1⟩
end R.FAB_CTL
namespace R.FAB_ERR
/-- BUSY[0:0], Table 12.8. -/
abbrev BUSY : Fld := ⟨0x900008, 0x0, 0, 1⟩
/-- RANGE[1:1], Table 12.8. -/
abbrev RANGE : Fld := ⟨0x900008, 0x0, 1, 1⟩
/-- MISMATCH[2:2], Table 12.8, R352. -/
abbrev MISMATCH : Fld := ⟨0x900008, 0x0, 2, 1⟩
/-- DUP_RESP[47:16], Table 12.8, R334. -/
abbrev DUP_RESP : Fld := ⟨0x900008, 0x0, 16, 32⟩
end R.FAB_ERR
namespace R.FAB_ADDR0
/-- PREFIX_HI[63:0], Table 12.8, R0. -/
abbrev PREFIX_HI : Fld := ⟨0x900010, 0x0, 0, 64⟩
end R.FAB_ADDR0
namespace R.FAB_ADDR1
/-- PREFIX_LO[39:0], Table 12.8, R1. -/
abbrev PREFIX_LO : Fld := ⟨0x900018, 0x0, 0, 40⟩
/-- UDP[55:40], Table 12.8. -/
abbrev UDP : Fld := ⟨0x900018, 0x0, 40, 16⟩
end R.FAB_ADDR1
namespace R.FAB_NH
/-- MAC[47:0], Table 12.8. -/
abbrev MAC : Fld := ⟨0x900020, 0x0, 0, 48⟩
end R.FAB_NH
namespace R.FAB_MAC
/-- MAC[47:0], Table 12.8. -/
abbrev MAC : Fld := ⟨0x900028, 0x0, 0, 48⟩
end R.FAB_MAC
namespace R.FAB_SELF
/-- SELF_EP[23:0], Table 12.8. -/
abbrev SELF_EP : Fld := ⟨0x900030, 0x0, 0, 24⟩
/-- HOP[31:24], Table 12.8. -/
abbrev HOP : Fld := ⟨0x900030, 0x0, 24, 8⟩
/-- DSCP[37:32], Table 12.8. -/
abbrev DSCP : Fld := ⟨0x900030, 0x0, 32, 6⟩
end R.FAB_SELF
namespace R.FAB_ECN
/-- THR[15:0], Table 12.8, R335. -/
abbrev THR : Fld := ⟨0x900038, 0x0, 0, 16⟩
/-- CNP_INT[23:16], Table 12.8. -/
abbrev CNP_INT : Fld := ⟨0x900038, 0x0, 16, 8⟩
/-- DEC[31:24], Table 12.8, R337. -/
abbrev DEC : Fld := ⟨0x900038, 0x0, 24, 8⟩
/-- RAI[47:32], Table 12.8. -/
abbrev RAI : Fld := ⟨0x900038, 0x0, 32, 16⟩
/-- RAI_INT[55:48], Table 12.8. -/
abbrev RAI_INT : Fld := ⟨0x900038, 0x0, 48, 8⟩
/-- RMIN[63:56], Table 12.8. -/
abbrev RMIN : Fld := ⟨0x900038, 0x0, 56, 8⟩
end R.FAB_ECN
namespace R.FAB_TEN_SEL
/-- WORD[2:0], Table 12.8. -/
abbrev WORD : Fld := ⟨0x900040, 0x0, 0, 3⟩
/-- AUTOINC[3:3], Table 12.8. -/
abbrev AUTOINC : Fld := ⟨0x900040, 0x0, 3, 1⟩
/-- INDEX[17:8], Table 12.8. -/
abbrev INDEX : Fld := ⟨0x900040, 0x0, 8, 10⟩
end R.FAB_TEN_SEL
namespace R.FAB_TEN_DATA
/-- DATA[63:0], Table 12.8. -/
abbrev DATA : Fld := ⟨0x900048, 0x0, 0, 64⟩
end R.FAB_TEN_DATA
namespace R.FAB_QS_SEL
/-- WORD[0:0], Table 12.8. -/
abbrev WORD : Fld := ⟨0x900050, 0x0, 0, 1⟩
/-- QUEUE[25:8], Table 12.8. -/
abbrev QUEUE : Fld := ⟨0x900050, 0x0, 8, 18⟩
end R.FAB_QS_SEL
namespace R.FAB_QS_DATA
/-- LAST[31:0], Table 12.8. -/
abbrev LAST : Fld := ⟨0x900058, 0x0, 0, 32⟩
/-- MAX[63:32], Table 12.8. -/
abbrev MAX : Fld := ⟨0x900058, 0x0, 32, 32⟩
end R.FAB_QS_DATA
namespace R.FAB_HS
/-- EN[0:0], Table 12.8, R346. -/
abbrev EN : Fld := ⟨0x900060, 0x0, 0, 1⟩
/-- DIR[2:1], Table 12.8. -/
abbrev DIR : Fld := ⟨0x900060, 0x0, 1, 2⟩
/-- K[12:8], Table 12.8. -/
abbrev K : Fld := ⟨0x900060, 0x0, 8, 5⟩
end R.FAB_HS
namespace R.FAB_HS_BASE
/-- ADDR[39:0], Table 12.8. -/
abbrev ADDR : Fld := ⟨0x900068, 0x0, 0, 40⟩
/-- SIZE_LOG[44:40], Table 12.8. -/
abbrev SIZE_LOG : Fld := ⟨0x900068, 0x0, 40, 5⟩
end R.FAB_HS_BASE
namespace R.FAB_HS_IDX
/-- WR[31:0], Table 12.8. -/
abbrev WR : Fld := ⟨0x900070, 0x0, 0, 32⟩
/-- RD[63:32], Table 12.8. -/
abbrev RD : Fld := ⟨0x900070, 0x0, 32, 32⟩
end R.FAB_HS_IDX
namespace R.FAB_HS_DROP
/-- DROP[31:0], Table 12.8. -/
abbrev DROP : Fld := ⟨0x900078, 0x0, 0, 32⟩
end R.FAB_HS_DROP
namespace R.FAB_RETRY
/-- RTO[15:0], Table 12.8, R334. -/
abbrev RTO : Fld := ⟨0x900080, 0x0, 0, 16⟩
end R.FAB_RETRY
namespace R.FAB_PORT_CFG
/-- EN[0:0], Table 12.8. -/
abbrev EN : Fld := ⟨0x900100, 0x20, 0, 1⟩
/-- MODE[2:1], Table 12.8. -/
abbrev MODE : Fld := ⟨0x900100, 0x20, 1, 2⟩
/-- IDLE[63:63], Table 12.8. -/
abbrev IDLE : Fld := ⟨0x900100, 0x20, 63, 1⟩
end R.FAB_PORT_CFG
namespace R.FAB_PORT_STAT
/-- UP[3:0], Table 12.8. -/
abbrev UP : Fld := ⟨0x900108, 0x20, 0, 4⟩
end R.FAB_PORT_STAT
namespace R.FAB_PORT_CNT
/-- CE[31:0], Table 12.8, R335. -/
abbrev CE : Fld := ⟨0x900110, 0x20, 0, 32⟩
/-- RX_DROP[63:32], Table 12.8, R331. -/
abbrev RX_DROP : Fld := ⟨0x900110, 0x20, 32, 32⟩
end R.FAB_PORT_CNT
namespace R.FAB_PORT_CNT2
/-- CNP_RX[31:0], Table 12.8. -/
abbrev CNP_RX : Fld := ⟨0x900118, 0x20, 0, 32⟩
/-- TIES[63:32], Table 12.8, R344. -/
abbrev TIES : Fld := ⟨0x900118, 0x20, 32, 32⟩
end R.FAB_PORT_CNT2
namespace R.FTEN
/-- CIR[22:0], Table 12.9. -/
abbrev CIR : Fld := ⟨0x24000000, 0x10, 0, 23⟩
/-- PIR[54:32], Table 12.9. -/
abbrev PIR : Fld := ⟨0x24000000, 0x10, 32, 23⟩
/-- EN[63:63], Table 12.9, R338. -/
abbrev EN : Fld := ⟨0x24000000, 0x10, 63, 1⟩
/-- CBS[19:0], Table 12.9. -/
abbrev CBS : Fld := ⟨0x24000001, 0x10, 0, 20⟩
/-- PBS[51:32], Table 12.9. -/
abbrev PBS : Fld := ⟨0x24000001, 0x10, 32, 20⟩
/-- W_LINE[7:0], Table 12.9. -/
abbrev W_LINE : Fld := ⟨0x24000002, 0x10, 0, 8⟩
/-- PRIO_LINE[9:8], Table 12.9. -/
abbrev PRIO_LINE : Fld := ⟨0x24000002, 0x10, 8, 2⟩
/-- W_FAB[23:16], Table 12.9. -/
abbrev W_FAB : Fld := ⟨0x24000002, 0x10, 16, 8⟩
/-- PRIO_FAB[25:24], Table 12.9. -/
abbrev PRIO_FAB : Fld := ⟨0x24000002, 0x10, 24, 2⟩
/-- GREEN[63:0], Table 12.9, R339. -/
abbrev GREEN : Fld := ⟨0x24000003, 0x10, 0, 64⟩
/-- YELLOW[63:0], Table 12.9. -/
abbrev YELLOW : Fld := ⟨0x24000004, 0x10, 0, 64⟩
/-- RED[63:0], Table 12.9. -/
abbrev RED : Fld := ⟨0x24000005, 0x10, 0, 64⟩
/-- DB_RED[31:0], Table 12.9. -/
abbrev DB_RED : Fld := ⟨0x24000006, 0x10, 0, 32⟩
end R.FTEN
namespace R.SYS_PRING
/-- INJ[31:0], Table 12.10. -/
abbrev INJ : Fld := ⟨0xF04000, 0x10, 0, 32⟩
/-- STALL[63:32], Table 12.10, R348. -/
abbrev STALL : Fld := ⟨0xF04000, 0x10, 32, 32⟩
end R.SYS_PRING
namespace R.SYS_PRING_DEFLECT
/-- DEFLECT[31:0], Table 12.10, R348. -/
abbrev DEFLECT : Fld := ⟨0xF04008, 0x10, 0, 32⟩
end R.SYS_PRING_DEFLECT
namespace R.SYS_HBMREG
/-- SKEW_THR[7:0], Table 12.10, R351. -/
abbrev SKEW_THR : Fld := ⟨0xF04100, 0x0, 0, 8⟩
/-- SKEW_MS[15:8], Table 12.10. -/
abbrev SKEW_MS : Fld := ⟨0xF04100, 0x0, 8, 8⟩
end R.SYS_HBMREG
namespace R.SYS_HBM_SKEW
/-- EVENTS[31:0], Table 12.10. -/
abbrev EVENTS : Fld := ⟨0xF04108, 0x8, 0, 32⟩
/-- HOT_CH[36:32], Table 12.10. -/
abbrev HOT_CH : Fld := ⟨0xF04108, 0x8, 32, 5⟩
/-- HOT_TEN[46:37], Table 12.10. -/
abbrev HOT_TEN : Fld := ⟨0xF04108, 0x8, 37, 10⟩
end R.SYS_HBM_SKEW
namespace R.SYS_RST_CAUSE
/-- POR[0:0], Table 13.7. -/
abbrev POR : Fld := ⟨0xF00000, 0x0, 0, 1⟩
/-- EXT[1:1], Table 13.7. -/
abbrev EXT : Fld := ⟨0xF00000, 0x0, 1, 1⟩
/-- COUNT[47:32], Table 13.7. -/
abbrev COUNT : Fld := ⟨0xF00000, 0x0, 32, 16⟩
end R.SYS_RST_CAUSE
namespace R.SYS_STRAP
/-- BOOT_SEL[1:0], Table 13.7, R356. -/
abbrev BOOT_SEL : Fld := ⟨0xF00008, 0x0, 0, 2⟩
/-- CLK_MODE[3:2], Table 13.7. -/
abbrev CLK_MODE : Fld := ⟨0xF00008, 0x0, 2, 2⟩
/-- CFG_BIN[7:4], Table 13.7. -/
abbrev CFG_BIN : Fld := ⟨0xF00008, 0x0, 4, 4⟩
/-- CFG_USED[8:8], Table 13.7. -/
abbrev CFG_USED : Fld := ⟨0xF00008, 0x0, 8, 1⟩
/-- CLK_BAD[9:9], Table 13.7. -/
abbrev CLK_BAD : Fld := ⟨0xF00008, 0x0, 9, 1⟩
/-- BOOT_EFF[17:16], Table 13.7. -/
abbrev BOOT_EFF : Fld := ⟨0xF00008, 0x0, 16, 2⟩
/-- CLK_EFF[19:18], Table 13.7. -/
abbrev CLK_EFF : Fld := ⟨0xF00008, 0x0, 18, 2⟩
end R.SYS_STRAP
namespace R.SYS_BOOT
/-- STATE[2:0], Table 13.7. -/
abbrev STATE : Fld := ⟨0xF00010, 0x0, 0, 3⟩
/-- DEGRADED[3:3], Table 13.7. -/
abbrev DEGRADED : Fld := ⟨0xF00010, 0x0, 3, 1⟩
/-- CODE[15:8], Table 13.7. -/
abbrev CODE : Fld := ⟨0xF00010, 0x0, 8, 8⟩
/-- IMAGE[16:16], Table 13.7. -/
abbrev IMAGE : Fld := ⟨0xF00010, 0x0, 16, 1⟩
/-- ELAPSED[63:32], Table 13.7. -/
abbrev ELAPSED : Fld := ⟨0xF00010, 0x0, 32, 32⟩
end R.SYS_BOOT
namespace R.SYS_PWR
/-- TARGET[1:0], Table 13.7, R365. -/
abbrev TARGET : Fld := ⟨0xF00018, 0x0, 0, 2⟩
/-- STATE[5:4], Table 13.7. -/
abbrev STATE : Fld := ⟨0xF00018, 0x0, 4, 2⟩
/-- MOVING[6:6], Table 13.7. -/
abbrev MOVING : Fld := ⟨0xF00018, 0x0, 6, 1⟩
/-- PROFILE[8:8], Table 13.7, R367. -/
abbrev PROFILE : Fld := ⟨0xF00018, 0x0, 8, 1⟩
/-- THROTTLE_C[39:32], Table 13.7. -/
abbrev THROTTLE_C : Fld := ⟨0xF00018, 0x0, 32, 8⟩
end R.SYS_PWR
namespace R.SYS_PWR_ERR
/-- BUSY[0:0], Table 13.7. -/
abbrev BUSY : Fld := ⟨0xF00020, 0x0, 0, 1⟩
/-- DRAIN[1:1], Table 13.7, R366. -/
abbrev DRAIN : Fld := ⟨0xF00020, 0x0, 1, 1⟩
/-- THROTTLED[2:2], Table 13.7, R367. -/
abbrev THROTTLED : Fld := ⟨0xF00020, 0x0, 2, 1⟩
/-- THERM_FIX[3:3], Table 13.7, R367. -/
abbrev THERM_FIX : Fld := ⟨0xF00020, 0x0, 3, 1⟩
/-- EMERG[7:4], Table 13.7, R368. -/
abbrev EMERG : Fld := ⟨0xF00020, 0x0, 4, 4⟩
end R.SYS_PWR_ERR
namespace R.SYS_TEMP
/-- TQ0[15:0], Table 13.7. -/
abbrev TQ0 : Fld := ⟨0xF00028, 0x0, 0, 16⟩
/-- TQ1[31:16], Table 13.7. -/
abbrev TQ1 : Fld := ⟨0xF00028, 0x0, 16, 16⟩
/-- TQ2[47:32], Table 13.7. -/
abbrev TQ2 : Fld := ⟨0xF00028, 0x0, 32, 16⟩
/-- TQ3[63:48], Table 13.7. -/
abbrev TQ3 : Fld := ⟨0xF00028, 0x0, 48, 16⟩
end R.SYS_TEMP
namespace R.SYS_CLK_STAT
/-- LOCK[24:0], Table 13.7. -/
abbrev LOCK : Fld := ⟨0xF00030, 0x0, 0, 25⟩
/-- LOSS[63:32], Table 13.7, R364. -/
abbrev LOSS : Fld := ⟨0xF00030, 0x0, 32, 32⟩
end R.SYS_CLK_STAT
namespace R.SYS_BLK_RST
/-- BLOCK[7:0], Table 13.7. -/
abbrev BLOCK : Fld := ⟨0xF00038, 0x0, 0, 8⟩
/-- UNIT[15:8], Table 13.7. -/
abbrev UNIT : Fld := ⟨0xF00038, 0x0, 8, 8⟩
/-- GO[63:63], Table 13.7, R369. -/
abbrev GO : Fld := ⟨0xF00038, 0x0, 63, 1⟩
end R.SYS_BLK_RST
namespace R.SYS_BLK_RES
/-- STATUS[7:0], Table 13.7. -/
abbrev STATUS : Fld := ⟨0xF00040, 0x0, 0, 8⟩
/-- BLOCK[15:8], Table 13.7. -/
abbrev BLOCK : Fld := ⟨0xF00040, 0x0, 8, 8⟩
/-- UNIT[23:16], Table 13.7. -/
abbrev UNIT : Fld := ⟨0xF00040, 0x0, 16, 8⟩
end R.SYS_BLK_RES
namespace R.SYS_BKP
/-- DATA[63:0], Table 13.7. -/
abbrev DATA : Fld := ⟨0xF00100, 0x8, 0, 64⟩
end R.SYS_BKP
namespace R.SYS_RSRAM
/-- DATA[63:0], Table 13.7, R358. -/
abbrev DATA : Fld := ⟨0xF10000, 0x8, 0, 64⟩
end R.SYS_RSRAM
namespace R.CUR_STATE
/-- SVN[7:0], Table 13.11. -/
abbrev SVN : Fld := ⟨0x100000, 0x0, 0, 8⟩
/-- ALIVE[16:16], Table 13.11. -/
abbrev ALIVE : Fld := ⟨0x100000, 0x0, 16, 1⟩
/-- HEARTBEAT[63:32], Table 13.11, R370. -/
abbrev HEARTBEAT : Fld := ⟨0x100000, 0x0, 32, 32⟩
end R.CUR_STATE
namespace R.CUR_MBX_CMD
/-- OP[7:0], Table 13.11. -/
abbrev OP : Fld := ⟨0x100008, 0x0, 0, 8⟩
/-- ARG[47:16], Table 13.11. -/
abbrev ARG : Fld := ⟨0x100008, 0x0, 16, 32⟩
/-- GO[63:63], Table 13.11. -/
abbrev GO : Fld := ⟨0x100008, 0x0, 63, 1⟩
end R.CUR_MBX_CMD
namespace R.CUR_MBX_RES
/-- STATUS[7:0], Table 13.11. -/
abbrev STATUS : Fld := ⟨0x100010, 0x0, 0, 8⟩
/-- LEN[31:16], Table 13.11. -/
abbrev LEN : Fld := ⟨0x100010, 0x0, 16, 16⟩
end R.CUR_MBX_RES
namespace R.CUR_MBX_CTL
/-- IRQ_EN[0:0], Table 13.11. -/
abbrev IRQ_EN : Fld := ⟨0x100018, 0x0, 0, 1⟩
/-- VECTOR[26:16], Table 13.11. -/
abbrev VECTOR : Fld := ⟨0x100018, 0x0, 16, 11⟩
end R.CUR_MBX_CTL
namespace R.CUR_DL_ADDR
/-- ADDR[63:0], Table 13.11. -/
abbrev ADDR : Fld := ⟨0x100020, 0x0, 0, 64⟩
end R.CUR_DL_ADDR
namespace R.CUR_DL_LEN
/-- LEN[31:0], Table 13.11. -/
abbrev LEN : Fld := ⟨0x100028, 0x0, 0, 32⟩
/-- GO[63:63], Table 13.11, R361. -/
abbrev GO : Fld := ⟨0x100028, 0x0, 63, 1⟩
end R.CUR_DL_LEN
namespace R.CUR_MBX_BUF
/-- BUF[63:0], Table 13.11. -/
abbrev BUF : Fld := ⟨0x101000, 0x8, 0, 64⟩
end R.CUR_MBX_BUF
namespace R.HEALTH_CTL
/-- ENABLE[0:0], Table 14.8, R380. -/
abbrev ENABLE : Fld := ⟨0xD00000, 0x0, 0, 1⟩
/-- ALERT_EN[1:1], Table 14.8, R380. -/
abbrev ALERT_EN : Fld := ⟨0xD00000, 0x0, 1, 1⟩
/-- COAL_US[31:16], Table 14.8, R377. -/
abbrev COAL_US : Fld := ⟨0xD00000, 0x0, 16, 16⟩
/-- VECTOR[42:32], Table 14.8. -/
abbrev VECTOR : Fld := ⟨0xD00000, 0x0, 32, 11⟩
end R.HEALTH_CTL
namespace R.HEALTH_ERR
/-- BUSY[0:0], Table 14.8. -/
abbrev BUSY : Fld := ⟨0xD00008, 0x0, 0, 1⟩
/-- MISMATCH[1:1], Table 14.8, R380. -/
abbrev MISMATCH : Fld := ⟨0xD00008, 0x0, 1, 1⟩
/-- RANGE[2:2], Table 14.8. -/
abbrev RANGE : Fld := ⟨0xD00008, 0x0, 2, 1⟩
/-- SUSPECTED_BY[63:32], Table 14.8, R385. -/
abbrev SUSPECTED_BY : Fld := ⟨0xD00008, 0x0, 32, 32⟩
end R.HEALTH_ERR
namespace R.HEALTH_ALM_BASE
/-- ADDR[39:0], Table 14.8. -/
abbrev ADDR : Fld := ⟨0xD00010, 0x0, 0, 40⟩
/-- SIZE_LOG[44:40], Table 14.8. -/
abbrev SIZE_LOG : Fld := ⟨0xD00010, 0x0, 40, 5⟩
end R.HEALTH_ALM_BASE
namespace R.HEALTH_ALM_IDX
/-- WR[31:0], Table 14.8. -/
abbrev WR : Fld := ⟨0xD00018, 0x0, 0, 32⟩
/-- RD[63:32], Table 14.8. -/
abbrev RD : Fld := ⟨0xD00018, 0x0, 32, 32⟩
end R.HEALTH_ALM_IDX
namespace R.HEALTH_ALM_DROP
/-- DROP[31:0], Table 14.8, R380. -/
abbrev DROP : Fld := ⟨0xD00020, 0x0, 0, 32⟩
/-- OVERFLOW[63:32], Table 14.8, R378. -/
abbrev OVERFLOW : Fld := ⟨0xD00020, 0x0, 32, 32⟩
end R.HEALTH_ALM_DROP
namespace R.HEALTH_FENCE
/-- FENCED[3:0], Table 14.8. -/
abbrev FENCED : Fld := ⟨0xD00028, 0x0, 0, 4⟩
/-- CAUSE0[15:8], Table 14.8, R362. -/
abbrev CAUSE0 : Fld := ⟨0xD00028, 0x0, 8, 8⟩
/-- CAUSE1[23:16], Table 14.8, R362. -/
abbrev CAUSE1 : Fld := ⟨0xD00028, 0x0, 16, 8⟩
/-- CAUSE2[31:24], Table 14.8, R362. -/
abbrev CAUSE2 : Fld := ⟨0xD00028, 0x0, 24, 8⟩
/-- CAUSE3[39:32], Table 14.8, R362. -/
abbrev CAUSE3 : Fld := ⟨0xD00028, 0x0, 32, 8⟩
end R.HEALTH_FENCE
namespace R.HEALTH_LEASE
/-- SUSPECT_MS[15:0], Table 14.8. -/
abbrev SUSPECT_MS : Fld := ⟨0xD00030, 0x0, 0, 16⟩
/-- LEASE_MS[31:16], Table 14.8. -/
abbrev LEASE_MS : Fld := ⟨0xD00030, 0x0, 16, 16⟩
end R.HEALTH_LEASE
namespace R.HEALTH_PEER_CMD
/-- PEER[11:0], Table 14.8. -/
abbrev PEER : Fld := ⟨0xD00038, 0x0, 0, 12⟩
/-- OP[13:12], Table 14.8. -/
abbrev OP : Fld := ⟨0xD00038, 0x0, 12, 2⟩
/-- EXT_MS[31:16], Table 14.8. -/
abbrev EXT_MS : Fld := ⟨0xD00038, 0x0, 16, 16⟩
/-- GO[63:63], Table 14.8. -/
abbrev GO : Fld := ⟨0xD00038, 0x0, 63, 1⟩
end R.HEALTH_PEER_CMD
namespace R.HEALTH_PEER_RES
/-- STATUS[7:0], Table 14.8. -/
abbrev STATUS : Fld := ⟨0xD00040, 0x0, 0, 8⟩
end R.HEALTH_PEER_RES
namespace R.HEALTH_RECOV
/-- LAST[23:0], Table 14.8, R376. -/
abbrev LAST : Fld := ⟨0xD00048, 0x0, 0, 24⟩
/-- MAX[47:24], Table 14.8. -/
abbrev MAX : Fld := ⟨0xD00048, 0x0, 24, 24⟩
/-- OVER[63:48], Table 14.8, R376. -/
abbrev OVER : Fld := ⟨0xD00048, 0x0, 48, 16⟩
end R.HEALTH_RECOV
namespace R.HEALTH_MSEL
/-- KIND[1:0], Table 14.8. -/
abbrev KIND : Fld := ⟨0xD00050, 0x0, 0, 2⟩
/-- UNIT[14:8], Table 14.8. -/
abbrev UNIT : Fld := ⟨0xD00050, 0x0, 8, 7⟩
end R.HEALTH_MSEL
namespace R.HEALTH_MDATA
/-- CUR[15:0], Table 14.8. -/
abbrev CUR : Fld := ⟨0xD00058, 0x0, 0, 16⟩
/-- MIN[31:16], Table 14.8. -/
abbrev MIN : Fld := ⟨0xD00058, 0x0, 16, 16⟩
/-- STATE[33:32], Table 14.8. -/
abbrev STATE : Fld := ⟨0xD00058, 0x0, 32, 2⟩
/-- TTP[63:40], Table 14.8. -/
abbrev TTP : Fld := ⟨0xD00058, 0x0, 40, 24⟩
end R.HEALTH_MDATA
namespace R.HEALTH_CONS
/-- WARN[15:0], Table 14.8. -/
abbrev WARN : Fld := ⟨0xD00100, 0x10, 0, 16⟩
/-- POOR[31:16], Table 14.8. -/
abbrev POOR : Fld := ⟨0xD00100, 0x10, 16, 16⟩
/-- HYST[47:32], Table 14.8. -/
abbrev HYST : Fld := ⟨0xD00100, 0x10, 32, 16⟩
/-- HORIZON[63:48], Table 14.8, R387. -/
abbrev HORIZON : Fld := ⟨0xD00100, 0x10, 48, 16⟩
end R.HEALTH_CONS
namespace R.HEALTH_CONS_TREND
/-- TREND_S[15:0], Table 14.8. -/
abbrev TREND_S : Fld := ⟨0xD00108, 0x10, 0, 16⟩
end R.HEALTH_CONS_TREND
namespace R.HEALTH_PEER
/-- STATE[1:0], Table 14.8. -/
abbrev STATE : Fld := ⟨0xD08000, 0x8, 0, 2⟩
/-- VOUCHED[2:2], Table 14.8. -/
abbrev VOUCHED : Fld := ⟨0xD08000, 0x8, 2, 1⟩
/-- SINCE[31:8], Table 14.8. -/
abbrev SINCE : Fld := ⟨0xD08000, 0x8, 8, 24⟩
/-- LEFT[55:32], Table 14.8. -/
abbrev LEFT : Fld := ⟨0xD08000, 0x8, 32, 24⟩
/-- LOSSES[63:56], Table 14.8. -/
abbrev LOSSES : Fld := ⟨0xD08000, 0x8, 56, 8⟩
end R.HEALTH_PEER
namespace R.COURIER_HBM_BASE
/-- ADDR[39:0], Table 2.11, R69. -/
abbrev ADDR : Fld := ⟨0xE01000, 0x0, 0, 40⟩
end R.COURIER_HBM_BASE
namespace R.COURIER_HBM_LIMIT
/-- ADDR[39:0], Table 2.11, R69. -/
abbrev ADDR : Fld := ⟨0xE01008, 0x0, 0, 40⟩
end R.COURIER_HBM_LIMIT
namespace R.VTTEN
/-- PAIR_BASE[14:0], Table 11.13, R309. -/
abbrev PAIR_BASE : Fld := ⟨0x28000000, 0x10, 0, 15⟩
/-- PAIR_COUNT[31:16], Table 11.13, R309. -/
abbrev PAIR_COUNT : Fld := ⟨0x28000000, 0x10, 16, 16⟩
/-- KEK_SET[32:32], Table 11.13, R314. -/
abbrev KEK_SET : Fld := ⟨0x28000000, 0x10, 32, 1⟩
/-- PAIRS_USED[48:33], Table 11.13, R310. -/
abbrev PAIRS_USED : Fld := ⟨0x28000000, 0x10, 33, 16⟩
end R.VTTEN
namespace R.BPMQ
/-- LIMIT[27:0], Table 6.9, R186. -/
abbrev LIMIT : Fld := ⟨0x2C000000, 0x10, 0, 28⟩
/-- HELD[55:28], Table 6.9, R186. -/
abbrev HELD : Fld := ⟨0x2C000000, 0x10, 28, 28⟩
end R.BPMQ
namespace R.FABQS
/-- LAST0[31:0], Table 12.8, R345. -/
abbrev LAST0 : Fld := ⟨0x30000000, 0x10, 0, 32⟩
/-- MAX0[63:32], Table 12.8, R345. -/
abbrev MAX0 : Fld := ⟨0x30000000, 0x10, 32, 32⟩
/-- LAST1[31:0], Table 12.8, R345. -/
abbrev LAST1 : Fld := ⟨0x30000001, 0x10, 0, 32⟩
/-- MAX1[63:32], Table 12.8, R345. -/
abbrev MAX1 : Fld := ⟨0x30000001, 0x10, 32, 32⟩
end R.FABQS
namespace R.MARGIN
/-- CUR[15:0], Table 14.8, R386. -/
abbrev CUR : Fld := ⟨0x34000000, 0x10, 0, 16⟩
/-- MIN[31:16], Table 14.8, R386. -/
abbrev MIN : Fld := ⟨0x34000000, 0x10, 16, 16⟩
/-- STATE[33:32], Table 14.8, R386. -/
abbrev STATE : Fld := ⟨0x34000000, 0x10, 32, 2⟩
/-- TTP[63:40], Table 14.8, R387. -/
abbrev TTP : Fld := ⟨0x34000000, 0x10, 40, 24⟩
end R.MARGIN

/-- Registers of chapter 0. -/
def layout00a : List LReg := [
  ⟨0x0, 0x0, 1, .none, 0, [⟨0, 16, .ro, 0x512⟩, ⟨16, 8, .ro, 0xA1⟩, ⟨24, 4, .ro, 0xF⟩, ⟨32, 16, .ro, 0x4E4D⟩]⟩]

/-- Registers of chapter 1. -/
def layout01a : List LReg := [
  ⟨0x100, 0x0, 1, .none, 0, [⟨0, 1, .live, 0x0⟩]⟩,
  ⟨0x108, 0x0, 1, .global, 0, [⟨0, 5, .static, 0x0⟩, ⟨8, 6, .static, 0x0⟩]⟩,
  ⟨0x110, 0x0, 1, .none, 0, [⟨0, 4, .live, 0x0⟩, ⟨4, 2, .live, 0x0⟩, ⟨6, 1, .live, 0x0⟩, ⟨8, 22, .live, 0x0⟩]⟩,
  ⟨0x118, 0x0, 1, .none, 0, [⟨0, 64, .cmd, 0x0⟩]⟩,
  ⟨0x120, 0x0, 1, .none, 0, [⟨0, 1, .w1c, 0x0⟩, ⟨1, 1, .w1c, 0x0⟩, ⟨2, 1, .w1c, 0x0⟩, ⟨3, 1, .w1c, 0x0⟩, ⟨32, 32, .cnt, 0x0⟩]⟩,
  ⟨0x4000000, 0x10, 1024, .table, 0, [⟨0, 1, .live, 0x0⟩, ⟨1, 1, .static, 0x0⟩, ⟨2, 1, .static, 0x0⟩, ⟨3, 1, .live, 0x0⟩, ⟨8, 8, .static, 0x0⟩, ⟨63, 1, .ro, 0x1⟩]⟩,
  ⟨0x4000001, 0x10, 1024, .none, 0, [⟨0, 17, .live, 0x0⟩, ⟨17, 16, .live, 0x0⟩, ⟨33, 13, .live, 0x0⟩]⟩,
  ⟨0x4000002, 0x10, 1024, .none, 0, [⟨0, 24, .live, 0x0⟩, ⟨24, 14, .live, 0x0⟩, ⟨38, 15, .live, 0x0⟩, ⟨53, 10, .live, 0x0⟩]⟩,
  ⟨0x4000003, 0x10, 1024, .none, 0, [⟨0, 64, .live, 0x0⟩]⟩,
  ⟨0x8000000, 0x10, 4096, .table, 0, [⟨0, 1, .live, 0x0⟩, ⟨1, 10, .static, 0x0⟩, ⟨11, 23, .static, 0x0⟩, ⟨63, 1, .ro, 0x1⟩]⟩,
  ⟨0x8000001, 0x10, 4096, .table, 0, [⟨0, 22, .static, 0x0⟩, ⟨22, 7, .static, 0x0⟩, ⟨32, 32, .static, 0x0⟩]⟩,
  ⟨0xC000000, 0x10, 262144, .table, 0, [⟨0, 40, .static, 0x0⟩, ⟨40, 5, .static, 0x0⟩]⟩,
  ⟨0x10000000, 0x10, 4194304, .none, 0, [⟨0, 1, .live, 0x0⟩, ⟨1, 5, .live, 0x0⟩, ⟨6, 6, .live, 0x0⟩, ⟨12, 24, .live, 0x0⟩, ⟨36, 16, .live, 0x0⟩]⟩,
  ⟨0x14000000, 0x10, 65536, .table, 0, [⟨0, 1, .live, 0x0⟩, ⟨1, 10, .static, 0x0⟩, ⟨11, 12, .static, 0x0⟩, ⟨23, 6, .static, 0x0⟩, ⟨29, 5, .static, 0x0⟩, ⟨34, 1, .static, 0x0⟩, ⟨35, 24, .static, 0x0⟩, ⟨63, 1, .ro, 0x1⟩]⟩,
  ⟨0x14000001, 0x10, 65536, .table, 0, [⟨0, 64, .static, 0x0⟩]⟩,
  ⟨0x14000002, 0x10, 65536, .table, 0, [⟨0, 40, .static, 0x0⟩]⟩,
  ⟨0x14000003, 0x10, 65536, .table, 0, [⟨0, 32, .static, 0x0⟩, ⟨32, 12, .static, 0x0⟩, ⟨44, 1, .static, 0x0⟩]⟩,
  ⟨0x18000000, 0x10, 16384, .none, 0, [⟨0, 2, .live, 0x0⟩, ⟨2, 4, .ro, 0x0⟩, ⟨6, 12, .ro, 0x0⟩, ⟨18, 22, .ro, 0x0⟩, ⟨40, 24, .ro, 0x0⟩]⟩,
  ⟨0x18000001, 0x10, 16384, .none, 0, [⟨0, 32, .ro, 0x0⟩]⟩]

/-- Registers of chapter 2. -/
def layout02a : List LReg := [
  ⟨0x800000, 0x40, 4096, .ring, 0, [⟨0, 1, .live, 0x0⟩, ⟨1, 1, .static, 0x0⟩, ⟨4, 5, .static, 0x0⟩, ⟨16, 10, .static, 0x0⟩, ⟨32, 12, .static, 0x0⟩, ⟨48, 4, .live, 0x0⟩, ⟨63, 1, .ro, 0x1⟩]⟩,
  ⟨0x800008, 0x40, 4096, .ring, 0, [⟨0, 64, .static, 0x0⟩]⟩,
  ⟨0x800010, 0x40, 4096, .ring, 0, [⟨0, 12, .static, 0x0⟩, ⟨12, 22, .static, 0x0⟩, ⟨34, 24, .static, 0x0⟩]⟩,
  ⟨0x800018, 0x40, 4096, .none, 0, [⟨0, 32, .ro, 0x0⟩, ⟨32, 32, .ro, 0x0⟩]⟩,
  ⟨0x800020, 0x40, 4096, .none, 0, [⟨0, 1, .w1c, 0x0⟩, ⟨1, 1, .w1c, 0x0⟩, ⟨2, 1, .w1c, 0x0⟩, ⟨3, 1, .w1c, 0x0⟩]⟩,
  ⟨0x800028, 0x40, 4096, .none, 0, [⟨0, 1, .cmd, 0x0⟩]⟩,
  ⟨0x840000, 0x40, 4096, .queue, 0, [⟨0, 1, .live, 0x0⟩, ⟨1, 1, .static, 0x0⟩, ⟨4, 5, .static, 0x0⟩, ⟨16, 10, .static, 0x0⟩, ⟨32, 11, .static, 0x0⟩, ⟨63, 1, .ro, 0x1⟩]⟩,
  ⟨0x840008, 0x40, 4096, .queue, 0, [⟨0, 64, .static, 0x0⟩]⟩,
  ⟨0x840010, 0x40, 4096, .queue, 0, [⟨0, 24, .static, 0x0⟩]⟩,
  ⟨0x840018, 0x40, 4096, .queue, 0, [⟨0, 64, .static, 0x0⟩]⟩,
  ⟨0x840020, 0x40, 4096, .none, 0, [⟨0, 8, .live, 0x0⟩, ⟨16, 16, .live, 0x0⟩]⟩,
  ⟨0x840028, 0x40, 4096, .none, 0, [⟨0, 32, .ro, 0x0⟩, ⟨32, 32, .ro, 0x0⟩]⟩,
  ⟨0x840030, 0x40, 4096, .none, 0, [⟨0, 1, .w1c, 0x0⟩, ⟨1, 1, .w1c, 0x0⟩, ⟨2, 1, .w1c, 0x0⟩, ⟨3, 1, .w1c, 0x0⟩, ⟨32, 32, .cnt, 0x0⟩]⟩,
  ⟨0x840038, 0x40, 4096, .none, 0, [⟨0, 32, .ro, 0x0⟩]⟩,
  ⟨0x880000, 0x0, 1, .none, 0, [⟨0, 32, .cnt, 0x0⟩]⟩,
  ⟨0x880008, 0x0, 1, .none, 0, [⟨0, 4, .live, 0x8⟩]⟩,
  ⟨0x888000, 0x8, 4096, .none, 0, [⟨0, 32, .ro, 0x0⟩, ⟨32, 1, .ro, 0x0⟩]⟩,
  ⟨0xE00000, 0x100, 16, .none, 0, [⟨0, 64, .live, 0x0⟩]⟩,
  ⟨0xE00008, 0x100, 16, .none, 0, [⟨0, 64, .live, 0x0⟩]⟩,
  ⟨0xE00010, 0x100, 16, .none, 0, [⟨0, 20, .live, 0x0⟩, ⟨20, 16, .live, 0x0⟩, ⟨36, 16, .live, 0x0⟩]⟩,
  ⟨0xE00018, 0x100, 16, .none, 0, [⟨0, 32, .live, 0x0⟩, ⟨32, 32, .live, 0x0⟩]⟩,
  ⟨0xE00020, 0x100, 16, .none, 0, [⟨0, 32, .live, 0x0⟩, ⟨32, 32, .live, 0x0⟩]⟩,
  ⟨0xE00028, 0x100, 16, .none, 0, [⟨0, 3, .live, 0x0⟩, ⟨4, 3, .live, 0x0⟩, ⟨8, 1, .live, 0x0⟩, ⟨9, 1, .live, 0x0⟩, ⟨32, 32, .live, 0x0⟩]⟩,
  ⟨0xE00030, 0x100, 16, .none, 0, [⟨0, 1, .cmd, 0x0⟩, ⟨1, 1, .live, 0x0⟩, ⟨2, 1, .cmd, 0x0⟩]⟩]

/-- Registers of chapter 2. -/
def layout02b : List LReg := [
  ⟨0xE00038, 0x100, 16, .none, 0, [⟨0, 2, .ro, 0x0⟩, ⟨8, 1, .w1c, 0x0⟩, ⟨16, 8, .ro, 0x0⟩, ⟨32, 32, .ro, 0x0⟩]⟩,
  ⟨0xE00040, 0x100, 16, .courier, 0, [⟨0, 12, .static, 0x0⟩]⟩,
  ⟨0xE00048, 0x100, 16, .none, 0, [⟨0, 64, .ro, 0x0⟩]⟩,
  ⟨0xE01000, 0x0, 1, .none, 0, [⟨0, 40, .ro, 0x7F00000000⟩]⟩,
  ⟨0xE01008, 0x0, 1, .none, 0, [⟨0, 40, .ro, 0x7FFFFFFFFF⟩]⟩]

/-- Registers of chapter 3. -/
def layout03a : List LReg := [
  ⟨0x500000, 0x40000, 4, .none, 1, [⟨0, 1, .live, 0x0⟩, ⟨4, 2, .epoch, 0x0⟩, ⟨8, 8, .live, 0x10⟩, ⟨63, 1, .ro, 0x1⟩]⟩,
  ⟨0x500008, 0x40000, 4, .none, 1, [⟨0, 1, .w1c, 0x0⟩, ⟨1, 1, .w1c, 0x0⟩, ⟨2, 1, .w1c, 0x0⟩, ⟨3, 1, .w1c, 0x0⟩, ⟨4, 1, .w1c, 0x0⟩]⟩,
  ⟨0x500010, 0x40000, 4, .none, 1, [⟨0, 33, .ro, 0x0⟩, ⟨33, 1, .ro, 0x0⟩, ⟨34, 6, .ro, 0x20⟩]⟩,
  ⟨0x500018, 0x40000, 4, .none, 1, [⟨0, 32, .cnt, 0x0⟩, ⟨32, 32, .cnt, 0x0⟩]⟩,
  ⟨0x500020, 0x40000, 4, .tour, 1, [⟨0, 40, .static, 0x0⟩, ⟨40, 5, .static, 0x0⟩]⟩,
  ⟨0x500028, 0x40000, 4, .none, 1, [⟨0, 32, .ro, 0x0⟩, ⟨32, 32, .live, 0x0⟩]⟩,
  ⟨0x500030, 0x40000, 4, .none, 1, [⟨0, 32, .cnt, 0x0⟩]⟩,
  ⟨0x500100, 0x40000, 4, .none, 1, [⟨0, 64, .cnt, 0x0⟩]⟩,
  ⟨0x500108, 0x40000, 4, .none, 1, [⟨0, 64, .cnt, 0x0⟩]⟩,
  ⟨0x500110, 0x40000, 4, .none, 1, [⟨0, 64, .cnt, 0x0⟩]⟩,
  ⟨0x500118, 0x40000, 4, .none, 1, [⟨0, 64, .cnt, 0x0⟩]⟩,
  ⟨0x500120, 0x40000, 4, .none, 1, [⟨0, 64, .cnt, 0x0⟩]⟩,
  ⟨0x500128, 0x40000, 4, .none, 1, [⟨0, 64, .cnt, 0x0⟩]⟩,
  ⟨0x500130, 0x40000, 4, .none, 1, [⟨0, 64, .cnt, 0x0⟩]⟩]

/-- Registers of chapter 4. -/
def layout04a : List LReg := [
  ⟨0x500040, 0x0, 1, .none, 0, [⟨0, 3, .live, 0x0⟩, ⟨3, 1, .live, 0x0⟩, ⟨8, 10, .live, 0x0⟩]⟩,
  ⟨0x500048, 0x0, 1, .none, 0, [⟨0, 64, .cmd, 0x0⟩]⟩,
  ⟨0x500050, 0x0, 1, .none, 0, [⟨0, 1, .w1c, 0x0⟩, ⟨1, 1, .w1c, 0x0⟩, ⟨2, 1, .w1c, 0x0⟩]⟩,
  ⟨0x500058, 0x0, 1, .none, 0, [⟨0, 9, .ro, 0x0⟩]⟩,
  ⟨0x1C000000, 0x10, 1024, .table, 0, [⟨0, 1, .live, 0x0⟩, ⟨1, 3, .static, 0x0⟩, ⟨4, 4, .static, 0x0⟩, ⟨8, 3, .static, 0x0⟩, ⟨11, 2, .static, 0x0⟩, ⟨14, 6, .static, 0x0⟩, ⟨20, 4, .live, 0x0⟩, ⟨24, 8, .live, 0x0⟩, ⟨32, 16, .static, 0x0⟩, ⟨48, 10, .static, 0x0⟩, ⟨63, 1, .ro, 0x1⟩]⟩,
  ⟨0x1C000001, 0x10, 1024, .table, 0, [⟨0, 32, .static, 0x0⟩, ⟨32, 32, .ro, 0x0⟩]⟩,
  ⟨0x1C000002, 0x10, 1024, .table, 0, [⟨0, 60, .static, 0x0⟩]⟩,
  ⟨0x1C000003, 0x10, 1024, .table, 0, [⟨0, 60, .static, 0x0⟩]⟩,
  ⟨0x1C000004, 0x10, 1024, .table, 0, [⟨0, 40, .static, 0x0⟩]⟩]

/-- Registers of chapter 5. -/
def layout05a : List LReg := [
  ⟨0x20000000, 0x10, 8192, .table, 0, [⟨0, 1, .live, 0x0⟩, ⟨1, 12, .static, 0x0⟩, ⟨13, 4, .static, 0x0⟩, ⟨17, 1, .ro, 0x0⟩, ⟨18, 1, .ro, 0x0⟩, ⟨19, 1, .ro, 0x0⟩, ⟨20, 1, .ro, 0x0⟩, ⟨21, 1, .live, 0x0⟩, ⟨63, 1, .ro, 0x1⟩]⟩,
  ⟨0x20000001, 0x10, 8192, .table, 0, [⟨0, 32, .static, 0x0⟩, ⟨32, 12, .ro, 0x0⟩, ⟨44, 12, .ro, 0x0⟩, ⟨56, 4, .ro, 0x0⟩]⟩,
  ⟨0x20000002, 0x10, 8192, .none, 0, [⟨0, 40, .ro, 0x0⟩]⟩,
  ⟨0x20000003, 0x10, 8192, .none, 0, [⟨0, 64, .ro, 0x0⟩]⟩,
  ⟨0x600000, 0x0, 1, .none, 0, [⟨0, 1, .live, 0x0⟩]⟩,
  ⟨0x600008, 0x0, 1, .none, 0, [⟨0, 1, .w1c, 0x0⟩, ⟨1, 1, .w1c, 0x0⟩, ⟨2, 1, .w1c, 0x0⟩, ⟨3, 1, .w1c, 0x0⟩, ⟨4, 1, .w1c, 0x0⟩]⟩,
  ⟨0x600010, 0x0, 1, .none, 0, [⟨0, 2, .live, 0x0⟩, ⟨2, 1, .live, 0x0⟩, ⟨8, 13, .live, 0x0⟩]⟩,
  ⟨0x600018, 0x0, 1, .none, 0, [⟨0, 64, .cmd, 0x0⟩]⟩,
  ⟨0x600020, 0x0, 1, .none, 0, [⟨0, 13, .live, 0x0⟩, ⟨16, 4, .live, 0x0⟩, ⟨31, 1, .cmd, 0x0⟩, ⟨32, 1, .ro, 0x0⟩]⟩,
  ⟨0x600028, 0x0, 1, .none, 0, [⟨0, 13, .live, 0x0⟩, ⟨31, 1, .cmd, 0x0⟩, ⟨32, 1, .ro, 0x0⟩]⟩,
  ⟨0x600030, 0x0, 1, .none, 0, [⟨0, 40, .ro, 0x7F00000000⟩]⟩,
  ⟨0x600038, 0x0, 1, .none, 0, [⟨0, 32, .cnt, 0x0⟩]⟩,
  ⟨0x600100, 0x40, 4, .none, 1, [⟨0, 64, .cnt, 0x0⟩]⟩,
  ⟨0x600108, 0x40, 4, .none, 1, [⟨0, 64, .cnt, 0x0⟩]⟩,
  ⟨0x600110, 0x40, 4, .none, 1, [⟨0, 64, .cnt, 0x0⟩]⟩,
  ⟨0x600118, 0x40, 4, .none, 1, [⟨0, 64, .cnt, 0x0⟩]⟩,
  ⟨0x600120, 0x40, 4, .none, 1, [⟨0, 64, .cnt, 0x0⟩]⟩,
  ⟨0x600128, 0x40, 4, .none, 1, [⟨0, 64, .cnt, 0x0⟩]⟩]

/-- Registers of chapter 6. -/
def layout06a : List LReg := [
  ⟨0x700000, 0x0, 1, .none, 0, [⟨0, 1, .live, 0x0⟩, ⟨63, 1, .ro, 0x1⟩]⟩,
  ⟨0x700008, 0x0, 1, .none, 0, [⟨0, 1, .w1c, 0x0⟩, ⟨1, 1, .w1c, 0x0⟩, ⟨2, 1, .w1c, 0x0⟩]⟩,
  ⟨0x700010, 0x0, 1, .none, 0, [⟨0, 3, .live, 0x0⟩, ⟨3, 1, .live, 0x0⟩, ⟨8, 15, .live, 0x0⟩]⟩,
  ⟨0x700018, 0x0, 1, .none, 0, [⟨0, 64, .ro, 0x0⟩]⟩,
  ⟨0x700020, 0x0, 1, .none, 0, [⟨0, 2, .live, 0x0⟩, ⟨2, 1, .live, 0x0⟩, ⟨3, 1, .live, 0x0⟩, ⟨4, 2, .live, 0x0⟩, ⟨6, 4, .live, 0x0⟩, ⟨10, 6, .live, 0x0⟩, ⟨16, 6, .live, 0x0⟩, ⟨22, 12, .live, 0x0⟩, ⟨34, 5, .live, 0x0⟩, ⟨39, 2, .live, 0x0⟩, ⟨41, 15, .live, 0x0⟩, ⟨63, 1, .cmd, 0x0⟩]⟩,
  ⟨0x700028, 0x0, 1, .none, 0, [⟨0, 24, .live, 0x0⟩, ⟨24, 21, .live, 0x0⟩]⟩,
  ⟨0x700030, 0x0, 1, .none, 0, [⟨0, 8, .ro, 0x0⟩, ⟨8, 15, .ro, 0x0⟩]⟩,
  ⟨0x700038, 0x0, 1, .none, 0, [⟨0, 16, .live, 0xA⟩, ⟨16, 8, .live, 0x40⟩, ⟨24, 4, .live, 0x3⟩, ⟨32, 16, .live, 0x32⟩, ⟨48, 16, .live, 0x64⟩]⟩,
  ⟨0x700040, 0x0, 1, .none, 0, [⟨0, 48, .live, 0x0⟩, ⟨48, 1, .live, 0x0⟩, ⟨49, 15, .live, 0x0⟩]⟩,
  ⟨0x700100, 0x40, 4, .none, 1, [⟨0, 64, .cnt, 0x0⟩]⟩,
  ⟨0x700108, 0x40, 4, .none, 1, [⟨0, 64, .cnt, 0x0⟩]⟩,
  ⟨0x700110, 0x40, 4, .none, 1, [⟨0, 64, .cnt, 0x0⟩]⟩,
  ⟨0x700118, 0x40, 4, .none, 1, [⟨0, 64, .cnt, 0x0⟩]⟩,
  ⟨0x700120, 0x40, 4, .none, 1, [⟨0, 64, .cnt, 0x0⟩]⟩,
  ⟨0x700128, 0x40, 4, .none, 1, [⟨0, 64, .cnt, 0x0⟩]⟩,
  ⟨0x701000, 0x0, 1, .none, 0, [⟨0, 8, .live, 0xA⟩]⟩,
  ⟨0x701008, 0x0, 1, .none, 0, [⟨0, 2, .ro, 0x0⟩, ⟨2, 3, .ro, 0x0⟩, ⟨5, 3, .ro, 0x0⟩, ⟨8, 3, .ro, 0x0⟩, ⟨24, 40, .ro, 0x0⟩]⟩,
  ⟨0x701100, 0x8, 8, .annex, 2, [⟨0, 24, .static, 0x0⟩, ⟨24, 24, .ro, 0x0⟩, ⟨48, 1, .ro, 0x0⟩]⟩,
  ⟨0x702000, 0x0, 1, .none, 0, [⟨0, 1, .live, 0x0⟩]⟩,
  ⟨0x702008, 0x0, 1, .none, 0, [⟨0, 1, .w1c, 0x0⟩, ⟨1, 1, .w1c, 0x0⟩, ⟨16, 16, .cnt, 0x0⟩, ⟨32, 16, .cnt, 0x0⟩]⟩,
  ⟨0x702010, 0x0, 1, .none, 0, [⟨0, 11, .live, 0x0⟩]⟩,
  ⟨0x702018, 0x0, 1, .none, 0, [⟨0, 28, .live, 0x0⟩, ⟨28, 28, .ro, 0x0⟩]⟩,
  ⟨0x702100, 0x20, 64, .pool, 0, [⟨0, 1, .live, 0x0⟩, ⟨1, 3, .static, 0x0⟩, ⟨8, 11, .static, 0x0⟩, ⟨20, 20, .static, 0x0⟩, ⟨63, 1, .ro, 0x1⟩]⟩,
  ⟨0x702108, 0x20, 64, .pool, 0, [⟨0, 40, .static, 0x0⟩]⟩]

/-- Registers of chapter 6. An INDEX above 1,032 selects an ordinary word of BPM_QDATA (DESIGN CHOICE, log entry 143). -/
def layout06b : List LReg := [
  ⟨0x702110, 0x20, 64, .none, 0, [⟨0, 20, .ro, 0x0⟩, ⟨20, 20, .ro, 0x0⟩, ⟨40, 20, .ro, 0x0⟩]⟩,
  ⟨0x702118, 0x20, 64, .none, 0, [⟨0, 32, .cnt, 0x0⟩]⟩,
  ⟨0x2C000000, 0x10, 2048, .none, 0, [⟨0, 28, .live, 0x0⟩, ⟨28, 28, .ro, 0x0⟩]⟩]

/-- Registers of chapter 7. -/
def layout07a : List LReg := [
  ⟨0x200000, 0x0, 1, .none, 0, [⟨0, 1, .live, 0x0⟩, ⟨1, 1, .live, 0x0⟩, ⟨2, 1, .live, 0x1⟩, ⟨16, 16, .live, 0x3E8⟩]⟩,
  ⟨0x200008, 0x0, 1, .none, 0, [⟨0, 48, .ro, 0x0⟩]⟩,
  ⟨0x200010, 0x0, 1, .none, 0, [⟨0, 32, .ro, 0x0⟩, ⟨32, 16, .ro, 0x0⟩]⟩,
  ⟨0x200018, 0x0, 1, .none, 0, [⟨0, 48, .live, 0x0⟩, ⟨48, 2, .live, 0x0⟩, ⟨63, 1, .cmd, 0x0⟩]⟩,
  ⟨0x200020, 0x0, 1, .none, 0, [⟨0, 48, .live, 0x0⟩]⟩,
  ⟨0x200028, 0x0, 1, .none, 0, [⟨0, 40, .ro, 0x0⟩]⟩,
  ⟨0x200030, 0x0, 1, .none, 0, [⟨0, 1, .w1c, 0x0⟩, ⟨1, 2, .w1c, 0x0⟩, ⟨3, 1, .w1c, 0x0⟩, ⟨4, 1, .w1c, 0x0⟩, ⟨5, 1, .w1c, 0x0⟩, ⟨6, 1, .w1c, 0x0⟩, ⟨7, 1, .w1c, 0x0⟩, ⟨16, 32, .cnt, 0x0⟩]⟩,
  ⟨0x200038, 0x0, 1, .none, 0, [⟨0, 16, .live, 0x3C⟩, ⟨16, 16, .live, 0xA⟩, ⟨32, 32, .live, 0x3E8⟩]⟩,
  ⟨0x200040, 0x0, 1, .none, 0, [⟨0, 1, .live, 0x0⟩, ⟨1, 1, .live, 0x0⟩, ⟨4, 20, .live, 0x64⟩, ⟨32, 16, .live, 0x0⟩, ⟨48, 16, .live, 0x0⟩]⟩,
  ⟨0x200048, 0x0, 1, .none, 0, [⟨0, 1, .live, 0x0⟩, ⟨1, 1, .live, 0x0⟩, ⟨8, 8, .live, 0x25⟩, ⟨16, 2, .live, 0x0⟩]⟩,
  ⟨0x200050, 0x0, 1, .none, 0, [⟨0, 1, .live, 0x0⟩, ⟨1, 5, .live, 0x0⟩, ⟨16, 32, .live, 0x0⟩]⟩,
  ⟨0x200058, 0x0, 1, .none, 0, [⟨0, 1, .live, 0x0⟩, ⟨8, 7, .live, 0x0⟩, ⟨16, 7, .live, 0x0⟩, ⟨32, 32, .live, 0x0⟩]⟩,
  ⟨0x200100, 0x80, 2, .domain, 0, [⟨0, 1, .live, 0x0⟩, ⟨1, 7, .static, 0x0⟩, ⟨8, 1, .static, 0x0⟩, ⟨10, 2, .static, 0x3⟩, ⟨12, 12, .static, 0x0⟩, ⟨24, 1, .static, 0x0⟩, ⟨25, 1, .static, 0x0⟩, ⟨28, 4, .static, 0xC⟩, ⟨32, 8, .live, 0xF8⟩]⟩,
  ⟨0x200108, 0x80, 2, .none, 0, [⟨0, 16, .live, 0x4000⟩, ⟨16, 16, .live, 0x400⟩, ⟨32, 16, .live, 0xA⟩, ⟨48, 16, .live, 0x64⟩]⟩,
  ⟨0x200110, 0x80, 2, .none, 0, [⟨0, 3, .ro, 0x0⟩, ⟨16, 48, .ro, 0x0⟩]⟩,
  ⟨0x200118, 0x80, 2, .none, 0, [⟨0, 48, .ro, 0x0⟩]⟩,
  ⟨0x200120, 0x80, 2, .none, 0, [⟨0, 32, .ro, 0xFFFFFFFF⟩, ⟨32, 1, .ro, 0x0⟩]⟩,
  ⟨0x200128, 0x80, 2, .none, 0, [⟨0, 64, .live, 0x0⟩]⟩,
  ⟨0x200130, 0x80, 2, .none, 0, [⟨0, 64, .live, 0x0⟩]⟩,
  ⟨0x208000, 0x8, 4096, .none, 0, [⟨0, 32, .live, 0x0⟩, ⟨32, 1, .live, 0x1⟩]⟩]

/-- Registers of chapter 8. -/
def layout08a : List LReg := [
  ⟨0x300000, 0x0, 1, .none, 0, [⟨0, 1, .live, 0x0⟩, ⟨1, 1, .epoch, 0x0⟩, ⟨8, 8, .live, 0x5⟩, ⟨16, 4, .live, 0x5⟩, ⟨32, 16, .live, 0x7D0⟩, ⟨48, 16, .live, 0x64⟩]⟩,
  ⟨0x300008, 0x0, 1, .none, 0, [⟨0, 24, .live, 0x4E20⟩]⟩,
  ⟨0x300010, 0x0, 1, .none, 1, [⟨0, 1, .ro, 0x0⟩, ⟨1, 1, .ro, 0x0⟩, ⟨2, 1, .ro, 0x0⟩, ⟨24, 40, .ro, 0x0⟩]⟩,
  ⟨0x300018, 0x0, 1, .none, 0, [⟨0, 32, .ro, 0x0⟩, ⟨32, 32, .ro, 0x0⟩]⟩,
  ⟨0x300020, 0x0, 1, .none, 0, [⟨0, 32, .ro, 0x0⟩]⟩,
  ⟨0x300028, 0x0, 1, .none, 0, [⟨0, 1, .cmd, 0x0⟩]⟩,
  ⟨0x300030, 0x0, 1, .none, 0, [⟨0, 1, .w1c, 0x0⟩, ⟨1, 1, .w1c, 0x0⟩, ⟨2, 1, .w1c, 0x0⟩, ⟨3, 1, .w1c, 0x0⟩, ⟨4, 1, .w1c, 0x0⟩, ⟨16, 32, .cnt, 0x0⟩]⟩,
  ⟨0x300038, 0x0, 1, .none, 0, [⟨0, 18, .live, 0x0⟩, ⟨20, 1, .live, 0x0⟩, ⟨21, 1, .live, 0x0⟩]⟩,
  ⟨0x300040, 0x0, 1, .none, 0, [⟨0, 64, .ro, 0x0⟩]⟩,
  ⟨0x300048, 0x0, 1, .none, 0, [⟨0, 7, .live, 0x0⟩, ⟨7, 1, .cmd, 0x0⟩]⟩,
  ⟨0x300100, 0x40, 4, .none, 1, [⟨0, 64, .cnt, 0x0⟩]⟩,
  ⟨0x300108, 0x40, 4, .none, 1, [⟨0, 64, .cnt, 0x0⟩]⟩,
  ⟨0x300110, 0x40, 4, .none, 1, [⟨0, 64, .cnt, 0x0⟩]⟩,
  ⟨0x300118, 0x40, 4, .none, 1, [⟨0, 64, .cnt, 0x0⟩]⟩,
  ⟨0x300120, 0x40, 4, .none, 1, [⟨0, 64, .cnt, 0x0⟩]⟩,
  ⟨0x300128, 0x40, 4, .none, 1, [⟨0, 15, .ro, 0x0⟩]⟩,
  ⟨0x400000, 0x0, 1, .none, 0, [⟨0, 1, .live, 0x0⟩, ⟨16, 16, .live, 0x3E8⟩]⟩,
  ⟨0x400008, 0x0, 1, .cat, 0, [⟨0, 32, .static, 0x0⟩]⟩,
  ⟨0x400010, 0x0, 1, .none, 0, [⟨0, 1, .ro, 0x0⟩, ⟨1, 1, .ro, 0x0⟩, ⟨2, 1, .ro, 0x0⟩, ⟨3, 1, .ro, 0x0⟩, ⟨24, 40, .ro, 0x0⟩]⟩,
  ⟨0x400018, 0x0, 1, .none, 0, [⟨0, 32, .ro, 0x0⟩, ⟨32, 32, .ro, 0x0⟩]⟩,
  ⟨0x400020, 0x0, 1, .none, 0, [⟨0, 32, .ro, 0x0⟩]⟩,
  ⟨0x400028, 0x0, 1, .none, 0, [⟨0, 1, .cmd, 0x0⟩]⟩,
  ⟨0x400030, 0x0, 1, .none, 0, [⟨0, 1, .w1c, 0x0⟩, ⟨1, 1, .w1c, 0x0⟩, ⟨2, 1, .w1c, 0x0⟩, ⟨3, 1, .w1c, 0x0⟩, ⟨16, 32, .cnt, 0x0⟩]⟩,
  ⟨0x400038, 0x0, 1, .none, 0, [⟨0, 13, .live, 0x0⟩, ⟨16, 1, .live, 0x0⟩, ⟨17, 1, .live, 0x0⟩]⟩]

/-- Registers of chapter 8. -/
def layout08b : List LReg := [
  ⟨0x400040, 0x0, 1, .none, 0, [⟨0, 64, .ro, 0x0⟩]⟩,
  ⟨0x400048, 0x0, 1, .none, 0, [⟨0, 32, .cnt, 0x0⟩, ⟨32, 32, .cnt, 0x0⟩]⟩,
  ⟨0x400100, 0x8, 8, .none, 0, [⟨0, 32, .cnt, 0x0⟩, ⟨32, 32, .cnt, 0x0⟩]⟩]

/-- Registers of chapter 9. -/
def layout09a : List LReg := [
  ⟨0xB00000, 0x0, 1, .none, 0, [⟨0, 1, .live, 0x0⟩, ⟨1, 1, .live, 0x1⟩, ⟨2, 1, .live, 0x1⟩, ⟨8, 16, .live, 0x800⟩, ⟨24, 16, .live, 0x100⟩, ⟨40, 16, .live, 0x3C⟩, ⟨63, 1, .ro, 0x1⟩]⟩,
  ⟨0xB00008, 0x0, 1, .none, 0, [⟨0, 1, .w1c, 0x0⟩, ⟨1, 1, .w1c, 0x0⟩, ⟨2, 1, .w1c, 0x0⟩, ⟨3, 1, .w1c, 0x0⟩, ⟨4, 1, .w1c, 0x0⟩]⟩,
  ⟨0xB00010, 0x0, 1, .none, 0, [⟨0, 2, .ro, 0x3⟩, ⟨2, 8, .ro, 0x0⟩]⟩,
  ⟨0xB00018, 0x0, 1, .none, 0, [⟨0, 7, .live, 0x0⟩, ⟨8, 7, .live, 0x0⟩, ⟨16, 2, .live, 0x0⟩]⟩,
  ⟨0xB00020, 0x0, 1, .none, 0, [⟨0, 64, .ro, 0x0⟩]⟩,
  ⟨0xB00028, 0x0, 1, .none, 0, [⟨0, 1, .cmd, 0x0⟩, ⟨1, 1, .live, 0x0⟩]⟩,
  ⟨0xB00100, 0x40, 8, .engine, 2, [⟨0, 1, .live, 0x0⟩, ⟨4, 16, .static, 0x157C⟩, ⟨20, 16, .live, 0xBB8⟩, ⟨36, 16, .live, 0xF448⟩, ⟨63, 1, .ro, 0x1⟩]⟩,
  ⟨0xB00108, 0x40, 8, .none, 2, [⟨0, 16, .ro, 0x0⟩, ⟨16, 16, .ro, 0x0⟩, ⟨32, 16, .ro, 0x0⟩, ⟨48, 16, .ro, 0x0⟩]⟩,
  ⟨0xB00110, 0x40, 8, .none, 2, [⟨0, 16, .ro, 0xF5C⟩, ⟨16, 16, .ro, 0x3D7⟩, ⟨32, 16, .ro, 0x190⟩]⟩,
  ⟨0xB00118, 0x40, 8, .none, 2, [⟨0, 16, .ro, 0xFB1E⟩, ⟨16, 16, .ro, 0x64⟩, ⟨32, 16, .ro, 0x14⟩, ⟨48, 16, .ro, 0x9C4⟩]⟩,
  ⟨0xB01000, 0x40, 128, .carrier, 32, [⟨0, 1, .live, 0x0⟩, ⟨1, 2, .static, 0x0⟩, ⟨3, 1, .static, 0x0⟩, ⟨8, 16, .live, 0x12C⟩, ⟨63, 1, .ro, 0x1⟩]⟩,
  ⟨0xB01008, 0x40, 128, .none, 32, [⟨0, 7, .ro, 0x0⟩, ⟨8, 7, .ro, 0x0⟩, ⟨16, 1, .ro, 0x0⟩, ⟨17, 1, .ro, 0x0⟩, ⟨18, 1, .ro, 0x0⟩, ⟨19, 1, .ro, 0x0⟩]⟩,
  ⟨0xB01010, 0x40, 128, .none, 32, [⟨0, 16, .ro, 0x0⟩, ⟨16, 16, .ro, 0x0⟩, ⟨32, 16, .ro, 0x0⟩, ⟨48, 16, .ro, 0x0⟩]⟩,
  ⟨0xB01018, 0x40, 128, .none, 32, [⟨0, 32, .ro, 0x0⟩, ⟨32, 16, .ro, 0x0⟩]⟩,
  ⟨0xB01020, 0x40, 128, .none, 32, [⟨0, 16, .ro, 0x0⟩, ⟨16, 16, .ro, 0x0⟩, ⟨32, 16, .ro, 0x0⟩, ⟨48, 16, .ro, 0x0⟩]⟩,
  ⟨0xB01028, 0x40, 128, .none, 32, [⟨0, 16, .ro, 0x0⟩, ⟨16, 16, .ro, 0x0⟩, ⟨32, 16, .ro, 0x0⟩, ⟨48, 16, .ro, 0x0⟩]⟩,
  ⟨0xB01030, 0x40, 128, .none, 32, [⟨0, 16, .cnt, 0x0⟩, ⟨16, 16, .cnt, 0x0⟩, ⟨32, 16, .cnt, 0x0⟩]⟩,
  ⟨0xB08000, 0x8, 4096, .none, 0, [⟨0, 32, .ro, 0x0⟩, ⟨32, 32, .ro, 0x0⟩]⟩]

/-- Registers of chapter 10. -/
def layout10a : List LReg := [
  ⟨0xA00000, 0x0, 1, .line, 0, [⟨0, 1, .live, 0x0⟩, ⟨1, 1, .live, 0x1⟩, ⟨2, 1, .live, 0x1⟩, ⟨3, 1, .live, 0x1⟩, ⟨8, 7, .live, 0xF⟩, ⟨16, 17, .static, 0x0⟩]⟩,
  ⟨0xA00008, 0x0, 1, .none, 0, [⟨0, 1, .w1c, 0x0⟩, ⟨1, 1, .w1c, 0x0⟩]⟩,
  ⟨0xA00010, 0x0, 1, .none, 0, [⟨0, 64, .live, 0x0⟩]⟩,
  ⟨0xA00018, 0x0, 1, .none, 0, [⟨0, 64, .live, 0x0⟩]⟩,
  ⟨0xA00020, 0x8, 4, .none, 0, [⟨0, 64, .live, 0x0⟩]⟩,
  ⟨0xA00040, 0x0, 1, .none, 0, [⟨0, 9, .live, 0x0⟩, ⟨9, 6, .live, 0x0⟩, ⟨15, 4, .live, 0x0⟩, ⟨19, 1, .live, 0x0⟩]⟩,
  ⟨0xA00048, 0x0, 1, .none, 0, [⟨0, 64, .ro, 0x0⟩]⟩,
  ⟨0xA00050, 0x0, 1, .none, 0, [⟨0, 16, .live, 0x64⟩, ⟨16, 16, .live, 0xF7CC⟩, ⟨32, 16, .live, 0x32⟩]⟩,
  ⟨0xA00058, 0x0, 1, .none, 0, [⟨0, 18, .live, 0x0⟩]⟩,
  ⟨0xA00060, 0x0, 1, .none, 0, [⟨0, 8, .ro, 0x0⟩]⟩,
  ⟨0xA00100, 0x8, 16, .none, 0, [⟨0, 32, .live, 0x0⟩, ⟨32, 32, .live, 0x0⟩]⟩,
  ⟨0xA01000, 0x20, 128, .none, 32, [⟨0, 1, .ro, 0x0⟩, ⟨1, 1, .ro, 0x0⟩, ⟨2, 1, .ro, 0x0⟩, ⟨3, 1, .ro, 0x0⟩, ⟨4, 1, .ro, 0x0⟩, ⟨5, 1, .ro, 0x0⟩, ⟨6, 1, .ro, 0x0⟩, ⟨7, 1, .ro, 0x0⟩, ⟨8, 1, .ro, 0x0⟩]⟩,
  ⟨0xA01008, 0x20, 128, .none, 32, [⟨0, 16, .cnt, 0x0⟩, ⟨16, 16, .cnt, 0x0⟩, ⟨32, 16, .cnt, 0x0⟩, ⟨48, 16, .cnt, 0x0⟩]⟩,
  ⟨0xA01010, 0x20, 128, .none, 32, [⟨0, 7, .ro, 0x0⟩, ⟨8, 5, .ro, 0x0⟩, ⟨13, 3, .ro, 0x0⟩, ⟨16, 4, .ro, 0x0⟩, ⟨24, 6, .ro, 0x0⟩]⟩,
  ⟨0xA04000, 0x8, 1024, .none, 256, [⟨0, 64, .ro, 0x0⟩]⟩,
  ⟨0xA08000, 0x10, 4096, .none, 0, [⟨0, 64, .live, 0x0⟩]⟩,
  ⟨0xA08008, 0x10, 4096, .none, 0, [⟨0, 64, .live, 0x0⟩]⟩]

/-- Registers of chapter 11. -/
def layout11a : List LReg := [
  ⟨0xC00000, 0x0, 1, .none, 0, [⟨0, 2, .ro, 0x1⟩, ⟨2, 2, .ro, 0x0⟩, ⟨4, 1, .ro, 0x0⟩, ⟨5, 1, .ro, 0x0⟩, ⟨6, 1, .ro, 0x0⟩, ⟨7, 1, .ro, 0x0⟩, ⟨8, 1, .ro, 0x0⟩, ⟨9, 1, .ro, 0x0⟩, ⟨16, 8, .ro, 0x0⟩, ⟨24, 8, .ro, 0x0⟩, ⟨32, 8, .ro, 0xFF⟩, ⟨40, 8, .ro, 0x0⟩]⟩,
  ⟨0xC00008, 0x0, 1, .vitrine, 0, [⟨8, 2, .static, 0x2⟩, ⟨10, 1, .live, 0x0⟩, ⟨12, 8, .live, 0x4⟩, ⟨24, 8, .static, 0x0⟩, ⟨32, 16, .live, 0x3E8⟩]⟩,
  ⟨0xC00010, 0x0, 1, .none, 0, [⟨0, 1, .w1c, 0x0⟩, ⟨1, 1, .w1c, 0x0⟩, ⟨2, 1, .w1c, 0x0⟩, ⟨3, 1, .w1c, 0x0⟩]⟩,
  ⟨0xC00018, 0x0, 1, .none, 0, [⟨0, 10, .live, 0x0⟩]⟩,
  ⟨0xC00020, 0x0, 1, .vitrine, 0, [⟨0, 15, .static, 0x0⟩, ⟨16, 16, .static, 0x0⟩, ⟨32, 1, .ro, 0x0⟩, ⟨33, 16, .ro, 0x0⟩]⟩,
  ⟨0xC00028, 0x0, 1, .none, 0, [⟨0, 4, .live, 0x0⟩, ⟨16, 16, .live, 0x0⟩, ⟨63, 1, .cmd, 0x0⟩]⟩,
  ⟨0xC00030, 0x0, 1, .none, 0, [⟨0, 8, .ro, 0x0⟩, ⟨8, 16, .ro, 0x0⟩]⟩,
  ⟨0xC00038, 0x0, 1, .none, 0, [⟨0, 7, .live, 0x0⟩, ⟨7, 2, .live, 0x0⟩, ⟨63, 1, .cmd, 0x0⟩]⟩,
  ⟨0xC00040, 0x0, 1, .none, 0, [⟨0, 8, .ro, 0x0⟩, ⟨8, 40, .ro, 0x0⟩]⟩,
  ⟨0xC00048, 0x0, 1, .none, 0, [⟨0, 32, .cnt, 0x0⟩, ⟨32, 32, .cnt, 0x0⟩]⟩,
  ⟨0xC00050, 0x0, 1, .none, 0, [⟨0, 32, .cnt, 0x0⟩, ⟨32, 32, .cnt, 0x0⟩]⟩,
  ⟨0xC00058, 0x0, 1, .none, 0, [⟨0, 16, .ro, 0x0⟩]⟩,
  ⟨0xC00100, 0x8, 13, .none, 0, [⟨0, 64, .ro, 0x0⟩]⟩,
  ⟨0xC00180, 0x8, 6, .none, 0, [⟨0, 64, .ro, 0x0⟩]⟩,
  ⟨0xC01000, 0x8, 512, .none, 0, [⟨0, 64, .live, 0x0⟩]⟩,
  ⟨0xC08000, 0x8, 4096, .none, 0, [⟨0, 2, .ro, 0x0⟩, ⟨2, 1, .ro, 0x0⟩, ⟨8, 8, .ro, 0x0⟩, ⟨16, 16, .ro, 0x0⟩, ⟨32, 8, .ro, 0x0⟩]⟩,
  ⟨0xC10000, 0x10, 32768, .none, 0, [⟨0, 15, .ro, 0x0⟩, ⟨16, 1, .ro, 0x0⟩, ⟨17, 1, .ro, 0x0⟩, ⟨18, 1, .ro, 0x0⟩, ⟨19, 1, .ro, 0x0⟩, ⟨20, 2, .ro, 0x0⟩, ⟨22, 6, .ro, 0x0⟩]⟩,
  ⟨0xC10008, 0x10, 32768, .none, 0, [⟨0, 32, .ro, 0x0⟩, ⟨32, 32, .ro, 0x0⟩]⟩,
  ⟨0x28000000, 0x10, 1024, .table, 0, [⟨0, 15, .static, 0x0⟩, ⟨16, 16, .static, 0x0⟩, ⟨32, 1, .ro, 0x0⟩, ⟨33, 16, .ro, 0x0⟩]⟩]

/-- Registers of chapter 12. -/
def layout12a : List LReg := [
  ⟨0x900000, 0x0, 1, .none, 0, [⟨0, 1, .live, 0x0⟩, ⟨8, 8, .live, 0x14⟩, ⟨16, 4, .live, 0xC⟩, ⟨63, 1, .ro, 0x1⟩]⟩,
  ⟨0x900008, 0x0, 1, .none, 0, [⟨0, 1, .w1c, 0x0⟩, ⟨1, 1, .w1c, 0x0⟩, ⟨2, 1, .w1c, 0x0⟩, ⟨16, 32, .cnt, 0x0⟩]⟩,
  ⟨0x900010, 0x0, 1, .fabric, 0, [⟨0, 64, .static, 0x0⟩]⟩,
  ⟨0x900018, 0x0, 1, .fabric, 0, [⟨0, 40, .static, 0x0⟩, ⟨40, 16, .static, 0x4C68⟩]⟩,
  ⟨0x900020, 0x0, 1, .fabric, 0, [⟨0, 48, .static, 0x0⟩]⟩,
  ⟨0x900028, 0x0, 1, .fabric, 0, [⟨0, 48, .static, 0x0⟩]⟩,
  ⟨0x900030, 0x0, 1, .fabric, 0, [⟨0, 24, .static, 0xFFFFFF⟩, ⟨24, 8, .live, 0x40⟩, ⟨32, 6, .live, 0x0⟩]⟩,
  ⟨0x900038, 0x0, 1, .none, 0, [⟨0, 16, .live, 0x100⟩, ⟨16, 8, .live, 0x4⟩, ⟨24, 8, .live, 0x40⟩, ⟨32, 16, .live, 0x32⟩, ⟨48, 8, .live, 0x32⟩, ⟨56, 8, .live, 0x1⟩]⟩,
  ⟨0x900040, 0x0, 1, .none, 0, [⟨0, 3, .live, 0x0⟩, ⟨3, 1, .live, 0x0⟩, ⟨8, 10, .live, 0x0⟩]⟩,
  ⟨0x900048, 0x0, 1, .none, 0, [⟨0, 64, .cmd, 0x0⟩]⟩,
  ⟨0x900050, 0x0, 1, .none, 0, [⟨0, 1, .live, 0x0⟩, ⟨8, 18, .live, 0x0⟩]⟩,
  ⟨0x900058, 0x0, 1, .none, 0, [⟨0, 32, .ro, 0x0⟩, ⟨32, 32, .ro, 0x0⟩]⟩,
  ⟨0x900060, 0x0, 1, .none, 0, [⟨0, 1, .live, 0x0⟩, ⟨1, 2, .live, 0x0⟩, ⟨8, 5, .live, 0xA⟩]⟩,
  ⟨0x900068, 0x0, 1, .fabric, 0, [⟨0, 40, .static, 0x0⟩, ⟨40, 5, .static, 0x0⟩]⟩,
  ⟨0x900070, 0x0, 1, .none, 0, [⟨0, 32, .ro, 0x0⟩, ⟨32, 32, .live, 0x0⟩]⟩,
  ⟨0x900078, 0x0, 1, .none, 0, [⟨0, 32, .cnt, 0x0⟩]⟩,
  ⟨0x900080, 0x0, 1, .none, 0, [⟨0, 16, .live, 0x64⟩]⟩,
  ⟨0x900100, 0x20, 32, .port, 0, [⟨0, 1, .live, 0x0⟩, ⟨1, 2, .static, 0x0⟩, ⟨63, 1, .ro, 0x1⟩]⟩,
  ⟨0x900108, 0x20, 32, .none, 0, [⟨0, 4, .ro, 0x0⟩]⟩,
  ⟨0x900110, 0x20, 32, .none, 0, [⟨0, 32, .cnt, 0x0⟩, ⟨32, 32, .cnt, 0x0⟩]⟩,
  ⟨0x900118, 0x20, 32, .none, 0, [⟨0, 32, .cnt, 0x0⟩, ⟨32, 32, .cnt, 0x0⟩]⟩,
  ⟨0x24000000, 0x10, 1024, .none, 0, [⟨0, 23, .live, 0x0⟩, ⟨32, 23, .live, 0x0⟩, ⟨63, 1, .live, 0x0⟩]⟩,
  ⟨0x24000001, 0x10, 1024, .none, 0, [⟨0, 20, .live, 0x0⟩, ⟨32, 20, .live, 0x0⟩]⟩,
  ⟨0x24000002, 0x10, 1024, .none, 0, [⟨0, 8, .live, 0x1⟩, ⟨8, 2, .live, 0x2⟩, ⟨16, 8, .live, 0x1⟩, ⟨24, 2, .live, 0x2⟩]⟩]

/-- Registers of chapter 12. -/
def layout12b : List LReg := [
  ⟨0x24000003, 0x10, 1024, .none, 0, [⟨0, 64, .cnt, 0x0⟩]⟩,
  ⟨0x24000004, 0x10, 1024, .none, 0, [⟨0, 64, .cnt, 0x0⟩]⟩,
  ⟨0x24000005, 0x10, 1024, .none, 0, [⟨0, 64, .cnt, 0x0⟩]⟩,
  ⟨0x24000006, 0x10, 1024, .none, 0, [⟨0, 32, .cnt, 0x0⟩]⟩,
  ⟨0xF04000, 0x10, 8, .none, 0, [⟨0, 32, .cnt, 0x0⟩, ⟨32, 32, .cnt, 0x0⟩]⟩,
  ⟨0xF04008, 0x10, 8, .none, 0, [⟨0, 32, .cnt, 0x0⟩]⟩,
  ⟨0xF04100, 0x0, 1, .none, 0, [⟨0, 8, .live, 0x40⟩, ⟨8, 8, .live, 0x8⟩]⟩,
  ⟨0xF04108, 0x8, 8, .none, 2, [⟨0, 32, .cnt, 0x0⟩, ⟨32, 5, .ro, 0x0⟩, ⟨37, 10, .ro, 0x0⟩]⟩,
  ⟨0x30000000, 0x10, 262144, .none, 0, [⟨0, 32, .ro, 0x0⟩, ⟨32, 32, .ro, 0x0⟩]⟩,
  ⟨0x30000001, 0x10, 262144, .none, 0, [⟨0, 32, .ro, 0x0⟩, ⟨32, 32, .ro, 0x0⟩]⟩]

/-- Registers of chapter 13. -/
def layout13a : List LReg := [
  ⟨0xF00000, 0x0, 1, .none, 0, [⟨0, 1, .ro, 0x1⟩, ⟨1, 1, .ro, 0x0⟩, ⟨32, 16, .ro, 0x0⟩]⟩,
  ⟨0xF00008, 0x0, 1, .none, 0, [⟨0, 2, .ro, 0x0⟩, ⟨2, 2, .ro, 0x0⟩, ⟨4, 4, .ro, 0x0⟩, ⟨8, 1, .ro, 0x0⟩, ⟨9, 1, .ro, 0x0⟩, ⟨16, 2, .ro, 0x0⟩, ⟨18, 2, .ro, 0x0⟩]⟩,
  ⟨0xF00010, 0x0, 1, .none, 0, [⟨0, 3, .ro, 0x0⟩, ⟨3, 1, .ro, 0x0⟩, ⟨8, 8, .ro, 0x0⟩, ⟨16, 1, .ro, 0x0⟩, ⟨32, 32, .ro, 0x0⟩]⟩,
  ⟨0xF00018, 0x0, 1, .none, 0, [⟨0, 2, .live, 0x0⟩, ⟨4, 2, .ro, 0x0⟩, ⟨6, 1, .ro, 0x0⟩, ⟨8, 1, .epoch, 0x0⟩, ⟨32, 8, .live, 0x69⟩]⟩,
  ⟨0xF00020, 0x0, 1, .none, 0, [⟨0, 1, .w1c, 0x0⟩, ⟨1, 1, .w1c, 0x0⟩, ⟨2, 1, .w1c, 0x0⟩, ⟨3, 1, .w1c, 0x0⟩, ⟨4, 4, .w1c, 0x0⟩]⟩,
  ⟨0xF00028, 0x0, 1, .none, 0, [⟨0, 16, .ro, 0x0⟩, ⟨16, 16, .ro, 0x0⟩, ⟨32, 16, .ro, 0x0⟩, ⟨48, 16, .ro, 0x0⟩]⟩,
  ⟨0xF00030, 0x0, 1, .none, 0, [⟨0, 25, .ro, 0x0⟩, ⟨32, 32, .cnt, 0x0⟩]⟩,
  ⟨0xF00038, 0x0, 1, .none, 0, [⟨0, 8, .live, 0x0⟩, ⟨8, 8, .live, 0x0⟩, ⟨63, 1, .cmd, 0x0⟩]⟩,
  ⟨0xF00040, 0x0, 1, .none, 0, [⟨0, 8, .ro, 0x0⟩, ⟨8, 8, .ro, 0x0⟩, ⟨16, 8, .ro, 0x0⟩]⟩,
  ⟨0xF00100, 0x8, 16, .none, 0, [⟨0, 64, .live, 0x0⟩]⟩,
  ⟨0xF10000, 0x8, 4096, .none, 0, [⟨0, 64, .live, 0x0⟩]⟩,
  ⟨0x100000, 0x0, 1, .none, 0, [⟨0, 8, .ro, 0x0⟩, ⟨16, 1, .ro, 0x0⟩, ⟨32, 32, .ro, 0x0⟩]⟩,
  ⟨0x100008, 0x0, 1, .none, 0, [⟨0, 8, .live, 0x0⟩, ⟨16, 32, .live, 0x0⟩, ⟨63, 1, .cmd, 0x0⟩]⟩,
  ⟨0x100010, 0x0, 1, .none, 0, [⟨0, 8, .ro, 0x0⟩, ⟨16, 16, .ro, 0x0⟩]⟩,
  ⟨0x100018, 0x0, 1, .none, 0, [⟨0, 1, .live, 0x0⟩, ⟨16, 11, .live, 0x0⟩]⟩,
  ⟨0x100020, 0x0, 1, .none, 0, [⟨0, 64, .live, 0x0⟩]⟩,
  ⟨0x100028, 0x0, 1, .none, 0, [⟨0, 32, .live, 0x0⟩, ⟨63, 1, .cmd, 0x0⟩]⟩,
  ⟨0x101000, 0x8, 512, .none, 0, [⟨0, 64, .live, 0x0⟩]⟩]

/-- Registers of chapter 14. -/
def layout14a : List LReg := [
  ⟨0xD00000, 0x0, 1, .none, 0, [⟨0, 1, .live, 0x0⟩, ⟨1, 1, .live, 0x0⟩, ⟨16, 16, .live, 0x3E8⟩, ⟨32, 11, .live, 0x0⟩]⟩,
  ⟨0xD00008, 0x0, 1, .none, 0, [⟨0, 1, .w1c, 0x0⟩, ⟨1, 1, .w1c, 0x0⟩, ⟨2, 1, .w1c, 0x0⟩, ⟨32, 32, .cnt, 0x0⟩]⟩,
  ⟨0xD00010, 0x0, 1, .health, 0, [⟨0, 40, .static, 0x0⟩, ⟨40, 5, .static, 0x0⟩]⟩,
  ⟨0xD00018, 0x0, 1, .none, 0, [⟨0, 32, .ro, 0x0⟩, ⟨32, 32, .live, 0x0⟩]⟩,
  ⟨0xD00020, 0x0, 1, .none, 0, [⟨0, 32, .cnt, 0x0⟩, ⟨32, 32, .cnt, 0x0⟩]⟩,
  ⟨0xD00028, 0x0, 1, .none, 0, [⟨0, 4, .ro, 0x0⟩, ⟨8, 8, .ro, 0x0⟩, ⟨16, 8, .ro, 0x0⟩, ⟨24, 8, .ro, 0x0⟩, ⟨32, 8, .ro, 0x0⟩]⟩,
  ⟨0xD00030, 0x0, 1, .none, 0, [⟨0, 16, .live, 0x5⟩, ⟨16, 16, .live, 0x32⟩]⟩,
  ⟨0xD00038, 0x0, 1, .none, 0, [⟨0, 12, .live, 0x0⟩, ⟨12, 2, .live, 0x0⟩, ⟨16, 16, .live, 0x0⟩, ⟨63, 1, .cmd, 0x0⟩]⟩,
  ⟨0xD00040, 0x0, 1, .none, 0, [⟨0, 8, .ro, 0x0⟩]⟩,
  ⟨0xD00048, 0x0, 1, .none, 0, [⟨0, 24, .ro, 0x0⟩, ⟨24, 24, .cnt, 0x0⟩, ⟨48, 16, .cnt, 0x0⟩]⟩,
  ⟨0xD00050, 0x0, 1, .none, 0, [⟨0, 2, .live, 0x0⟩, ⟨8, 7, .live, 0x0⟩]⟩,
  ⟨0xD00058, 0x0, 1, .none, 0, [⟨0, 16, .ro, 0x0⟩, ⟨16, 16, .ro, 0x0⟩, ⟨32, 2, .ro, 0x0⟩, ⟨40, 24, .ro, 0xFFFFFF⟩]⟩,
  ⟨0xD00100, 0x0, 1, .none, 0, [⟨0, 16, .live, 0x1E⟩, ⟨16, 16, .live, 0xA⟩, ⟨32, 16, .live, 0x5⟩, ⟨48, 16, .live, 0xA8⟩]⟩,
  ⟨0xD00110, 0x0, 1, .none, 0, [⟨0, 16, .live, 0x14⟩, ⟨16, 16, .live, 0x5⟩, ⟨32, 16, .live, 0x3⟩, ⟨48, 16, .live, 0xA8⟩]⟩,
  ⟨0xD00120, 0x0, 1, .none, 0, [⟨0, 16, .live, 0x96⟩, ⟨16, 16, .live, 0x32⟩, ⟨32, 16, .live, 0x14⟩, ⟨48, 16, .live, 0xA8⟩]⟩,
  ⟨0xD00130, 0x0, 1, .none, 0, [⟨0, 16, .live, 0xFF9C⟩, ⟨16, 16, .live, 0xD8F0⟩, ⟨32, 16, .live, 0x32⟩, ⟨48, 16, .live, 0xA8⟩]⟩,
  ⟨0xD00108, 0x10, 4, .none, 0, [⟨0, 16, .live, 0xE10⟩]⟩,
  ⟨0xD08000, 0x8, 4096, .none, 0, [⟨0, 2, .ro, 0x3⟩, ⟨2, 1, .ro, 0x0⟩, ⟨8, 24, .ro, 0x0⟩, ⟨32, 24, .ro, 0x0⟩, ⟨56, 8, .cnt, 0x0⟩]⟩,
  ⟨0x34000000, 0x10, 512, .none, 0, [⟨0, 16, .ro, 0x0⟩, ⟨16, 16, .ro, 0x0⟩, ⟨32, 2, .ro, 0x0⟩, ⟨40, 24, .ro, 0xFFFFFF⟩]⟩]

/-- Every register and table word of the machine. -/
def layout : List LReg :=
  layout00a ++ layout01a ++ layout02a ++ layout02b ++ layout03a ++ layout04a ++ layout05a ++ layout06a ++ layout06b ++ layout07a ++ layout08a ++ layout08b ++ layout09a ++ layout10a ++ layout11a ++ layout12a ++ layout12b ++ layout13a ++ layout14a

/-- The row of `layout` that holds a key, with the instance number. -/
def LReg.index (r : LReg) (key : Nat) : Option Nat :=
  if key < r.base then none
  else if r.stride = 0 then (if key = r.base then some 0 else none)
  else if (key - r.base) % r.stride = 0 ∧ (key - r.base) / r.stride < r.count then some ((key - r.base) / r.stride)
  else none

/-- The register at a key. -/
def findReg : List LReg → Nat → Option (LReg × Nat)
  | [], _ => none
  | r :: t, key => match r.index key with
    | some i => some (r, i)
    | none => findReg t key

/-- The word a row holds after reset. -/
def LReg.resetWord (r : LReg) : Word :=
  r.fields.foldl (fun a f => setBits a f.lo f.w f.reset) 0

/-- The reset word at a key: the register's reset value, 0 where no register stands (R10). -/
def resetWord (key : Nat) : Word :=
  match findReg layout key with
  | some (r, _) => r.resetWord
  | none => 0

end Sys2Proof.Machine
end

