-- ==== Sys2Proof/Machine/State.lean ====
section
/-! DEFINITION. The state of the gateway as plain data. `Dev.words` holds every BAR0 register and table word (`layout`); the
structures below hold what the spec gives the machine beside its registers. -/

namespace Sys2Proof.Machine

/-- How a piece of work ended: a status code (Table 1.12) and a DETAIL code (Table 2.9). -/
structure Verdict where
  status : Nat
  detail : Nat
deriving DecidableEq, Repr


/-- A message of the receipt and control channel (R273), before it is laid out in bytes and tagged. -/
inductive Ctl where
  /-- A receipt (Table 6.5) and its tag, formed when it is queued (R318). -/
  | receipt (r : Receipt) (tag : List Byte)
  /-- TYPE 0x9 ACCEDE to 0xD DEACCEDE_ACK (Table 6.1). -/
  | accession (typ : Nat) (m : AccessionMsg)
  /-- A plan control message (Table 8.6): its TYPE. -/
  | plan (typ : Nat) (m : PlanMsg)
  | pathReport (m : PathReport)
  /-- A NOTE of an engine's anchor (R385). -/
  | note (e : Nat) (m : NoteMsg)
  | carrierOut (m : CarrierOutMsg)
  /-- A SEAL fragment (Table 11.6): STEP, FRAG, NFRAG, SESSION and its body bytes. -/
  | seal (step frag nfrag session : Nat) (body : List Byte)
  /-- A service message: its SUB (Table 10.12). -/
  | service (sub : Nat) (m : ServiceMsg)
deriving DecidableEq, Repr

/-- The PMBus commands of R394. -/
inductive PmbusCmd where
  | voutMode
  | voutCommand
  | readVout
deriving DecidableEq, Repr

/-- What the gateway does to the world around it, in the order it does it. -/
inductive Out where
  /-- An MSI-X message: function and vector. -/
  | msix (fn vec : Nat)
  /-- A write to host memory (a posted PCIe write): function, address, bytes. -/
  | hostWrite (fn addr : Nat) (data : List Byte)
  /-- A read of host memory: tag, function, address, length. -/
  | hostRead (tag fn addr len : Nat)
  /-- An LRM frame on a logical port (R331), from its destination MAC to its FCS. -/
  | lrm (port : Nat) (frame : List Byte)
  /-- What a register or table read returns. -/
  | readData (w : Word)
  /-- A segment handed to a carrier; `race` marks a race copy. -/
  | segment (m : Nat) (race : Bool) (g : Segment)
  /-- A control message queued toward a peer site. -/
  | control (site : Nat) (c : Ctl)
  /-- A line frame sent on a carrier, before scrambling and FEC encoding. -/
  | frame (m : Nat) (f : Frame)
  /-- Symbols sent on a carrier, with the connector and the fibre: levels XI, XQ, YI, YQ (R242, R246). -/
  | symbols (fibre : Nat × Nat) (m : Nat) (l : List (Int × Int × Int × Int))
  /-- A complete segment found in a received frame, handed to the stream engine. -/
  | segmentIn (m : Nat) (race : Bool) (bytes : List Byte)
  /-- A complete control message found in received frames. -/
  | controlIn (m : Nat) (bytes : List Byte)
  /-- A PTP message sent on a logical port. -/
  | ptp (port : Nat) (m : PtpMsg)
  /-- A pin takes a level. -/
  | pin (name : String) (level : Bool)
  /-- A pin rises and stays high for a number of microseconds. -/
  | pulse (name : String) (us : Nat)
  /-- Bytes on TOD_OUT. -/
  | tod (bytes : List Byte)
  /-- A PMBus command on MI2C0: regulator address, the command, and of VOUT_COMMAND the voltage in mV (R394). -/
  | pmbus (addr : Nat) (cmd : PmbusCmd) (mv : Nat)
  /-- A write of a firmware slot in flash. -/
  | flash (slot : Nat)
  /-- A flit leaves the gateway's ring stop: stop, channel, direction. -/
  | flit (stop vc : Nat) (up : Bool)
  /-- An accepted doorbell for a queue of another kind or a packet discarded: only named. -/
  | event (name : String) (arg : Nat)
deriving DecidableEq, Repr


/-- What the departure of a PTP message of this gateway still brings (R201). -/
inductive PtpDue where
  /-- Nothing: the message is complete. -/
  | whole
  /-- A one-step Sync of a domain: its departure time goes into its body. -/
  | origin (i : Nat)
  /-- A two-step Sync of a domain: a Follow_Up with its departure time comes after it. -/
  | follow (i : Nat)
  /-- The delay request of a domain's slave port: its departure time is kept. -/
  | asked (i : Nat)
  /-- A one-step Pdelay_Resp: its turnaround since the request came goes into its correctionField. -/
  | turn (rx : Nat)
  /-- A two-step Pdelay_Resp of a domain: a Pdelay_Resp_Follow_Up with its departure time and this correctionField comes after it. -/
  | answer (i : Nat) (corr : BitVec 64)
deriving DecidableEq, Repr

/-- A PTP message that waits on a logical port (Table 12.5, level 1). -/
structure PtpOut where
  m : PtpMsg
  udp : Bool
  due : PtpDue
deriving DecidableEq, Repr

/-- A mailbox command in progress (R370, R371): its OP, its slot or 0, when it was written, its STATUS and what it places in the buffer. -/
structure MbxRun where
  op : Nat
  slot : Nat
  at_ : Nat
  status : Nat
  buf : List Byte
deriving DecidableEq, Repr

/-- A descriptor as its eight little-endian words (R52). -/
structure Desc where
  w0 : Word
  w1 : Word
  w2 : Word
  w3 : Word
  w4 : Word
  w5 : Word
  w6 : Word
  w7 : Word
deriving DecidableEq, Repr

/-- What a ring holds beside its registers. -/
structure RingX where
  /-- Descriptors fetched and not yet started: free-running index and contents, oldest first. -/
  fetched : List (Nat × Desc)
  /-- An outstanding descriptor read: its tag and how many slots it covers. -/
  reading : Option (Nat × Nat)
  /-- 0: none; 1: torn down by ABORT (R57); 2: by a failed fetch (R58). -/
  tear : Nat
deriving DecidableEq, Repr

/-- A ring with nothing in progress. -/
def RingX.empty : RingX := ⟨[], none, 0⟩

/-- What a completion queue holds beside its registers (R66). -/
structure CqX where
  armed : Bool
  p : Nat
  /-- When the coalescing timer was started, and the TIME it runs for (R13); none when it is stopped. -/
  timer : Option (Nat × Nat)
deriving DecidableEq, Repr

/-- A queue that is not enabled. -/
def CqX.empty : CqX := ⟨false, 0, none⟩

/-- The active set of a courier channel (R68). -/
structure CourierX where
  src : Nat
  dst : Nat
  acnt : Nat
  bcnt : Nat
  ccnt : Nat
  srcB : Int
  dstB : Int
  srcC : Int
  dstC : Int
  srcSpace : Nat
  dstSpace : Nat
  recEn : Bool
  irq : Bool
  tag : Nat
  /-- The load waits for a completion slot (R71). -/
  waiting : Bool
deriving DecidableEq, Repr

/-- A channel that has loaded nothing. -/
def CourierX.empty : CourierX := ⟨0, 0, 0, 0, 0, 0, 0, 0, 0, 0, 0, false, false, 0, false⟩

/-- Where an operation stands. -/
inductive Stage where
  /-- Held back by a FENCE; its checks have not been made (R38, R62). -/
  | held
  /-- Waits for its context to open (R160, R162) or for its collective. -/
  | waiting
  /-- Admitted and in progress. -/
  | running
  /-- Ended; its record is not written yet. -/
  | done
deriving DecidableEq, Repr

/-- An admitted descriptor, from its start to its completion record. -/
structure Op where
  ring : Nat
  index : Nat
  d : Desc
  stage : Stage
  /-- It has been admitted (R29 step 7). -/
  admitted : Bool
  /-- The translation of the target (R23): site, endpoint, window; kept to the end (R25). -/
  site : Nat
  ep : Nat
  rwin : Nat
  /-- Own windows: the one named by LORD, and for a COLLECTIVE the one named by RORD. -/
  lwin : Nat
  dwin : Nat
  /-- The context that carries it, and its operation number there once its first segment has been cut. -/
  ctx : Option Nat
  opn : Option Nat
  /-- Source bytes asked for; source bytes delivered, or for a GET response bytes decoded. -/
  asked : Nat
  got : Nat
  /-- Writes at this site not yet acknowledged. -/
  owed : Nat
  /-- Every byte has been handed to its target memory, or the peer has answered. -/
  allIn : Bool
  /-- The codec slot and version bound at submission (R140); none sends RAW. -/
  bind : Option (Nat × Nat)
  /-- The tenant's SEED taken for this operation (R13, R85). -/
  seed : Nat
  /-- A DELTA_PUT that sends the value itself (R42), and the differences it has formed so far (R41). -/
  resync : Bool
  delta : List Byte
  verdict : Verdict
  value : Nat
  events : Nat
deriving DecidableEq, Repr

/-- An atomic or SIGNAL request at the target (R36, R37). -/
structure AtomReq where
  /-- Arrived on a stream: home wing, context and operation number; none: from a ring of this gateway. -/
  stream : Option (Nat × Nat × Nat)
  ring : Nat
  index : Nat
  isSignal : Bool
  subop : Nat
  a : Nat
  b : Nat
  win : Nat
  off : Nat
  srcRank : Nat
  /-- Tick of arrival: requests of one tick arrive in one cycle. -/
  at_ : Nat
deriving DecidableEq, Repr

/-- What an outstanding memory request serves. -/
inductive ReqUse where
  /-- Descriptor slots of a ring. -/
  | fetch (ring : Nat)
  /-- Source bytes of an operation of this gateway (of a GET from a window of this site, the remote window's bytes). -/
  | opRead (ring index : Nat)
  /-- Bytes of an operation of this gateway written to a window of this site. -/
  | opWrite (ring index : Nat)
  /-- Bytes of an operation that arrived on a context. -/
  | tgtWrite (ctx opn : Nat)
  /-- Bytes of a window read to answer a GET that arrived on a context. -/
  | tgtRead (ctx opn : Nat)
  /-- Source bytes of the piece of a collective that is being staged. -/
  | collRead (coll : Nat)
  /-- Final bytes of a collective. -/
  | collWrite (coll : Nat)
  /-- A completion record. -/
  | record (q : Nat)
  /-- A queue's fabric signal. -/
  | signal
  /-- The new word of an ATOMIC or SIGNAL that arrived on a context; the prior value it returns. -/
  | tgtAtom (ctx opn value : Nat)
  /-- The same for an operation of this gateway. -/
  | opAtom (ring index value : Nat)
  /-- A write whose acknowledgement nothing waits for. -/
  | quiet
deriving DecidableEq, Repr

/-- An outstanding PCIe read, LRM READ_REQ or LRM WRITE (R332, R334). -/
structure Req where
  tag : Nat
  use : ReqUse
  write : Bool
  /-- Host memory of function `node`, or endpoint `node`. -/
  host : Bool
  node : Nat
  addr : Nat
  len : Nat
  /-- Bytes to be written. -/
  data : List Byte
  /-- Parts of a READ_RESP that have arrived: address and bytes. -/
  parts : List (Nat × List Byte)
  tenant : Nat
  /-- Transmissions so far; 0 while the tenant's meter holds a READ_REQ back (R339). -/
  attempts : Nat
  sentAt : Nat
  /-- The retry time of an LRM request as this use of it took it when it was last sent (R13, R334). -/
  rto : Nat := 0
deriving DecidableEq, Repr

/-- An LRM packet waiting on a logical port (R330, R331). -/
structure LrmOut where
  typ : Nat
  tenant : Nat
  ep : Nat
  tag : Nat
  addr : Nat
  payload : List Byte
  /-- Marked CE at its enqueue (R335). -/
  ce : Bool
  at_ : Nat
deriving DecidableEq, Repr

/-- Tags and virtual time of one WFQ selection (R341): V, and T of every queue that has one. -/
structure WfqX where
  v : Nat
  t : List (Nat × Nat)
deriving DecidableEq, Repr

/-- A selector never used. -/
def WfqX.zero : WfqX := ⟨0, []⟩

/-- A tenant's meter (R338): Tc and Tp in 1/800 byte, and the tick they were last brought up to date. -/
structure Meter where
  tc : Nat
  tp : Nat
  since : Nat
deriving DecidableEq, Repr

/-- A rate limiter (R337): flow, rate in 0.1 Gb/s, tick of the last reduction, tick from which the next packet may leave, tick
at which it was last reduced or raised. -/
structure Limiter where
  tenant : Nat
  ep : Nat
  write : Bool
  rate : Nat
  cut : Nat
  next : Nat
  raised : Nat := 0
deriving DecidableEq, Repr


/-- A local descriptor of a collective (R108): ring and index, bound rank, source and destination windows and offsets. -/
structure Member where
  ring : Nat
  index : Nat
  rank : Nat
  srcWin : Nat
  srcOff : Nat
  dstWin : Nat
  dstOff : Nat
deriving DecidableEq, Repr

/-- What has arrived of a piece on one of its tours: decoded units in order, whether all of it is here, and POISON. -/
structure Arrival where
  units : List Nat
  whole : Bool
  poison : Bool
deriving DecidableEq, Repr

/-- Nothing has arrived. -/
def Arrival.empty : Arrival := ⟨[], false, false⟩

/-- One chunk piece of a collective at this gateway (R93). -/
structure PieceX where
  chunk : Nat
  piece : Nat
  /-- This gateway's contribution in units of the partial format, once staged (R111). -/
  operand : Option (List Nat)
  red : Arrival
  gat : Arrival
  /-- The reduce step of this gateway has been made. -/
  reduced : Bool
  /-- The final values have been written here, or are not written here (R113, R92). -/
  final : Bool
  poison : Bool
  /-- Variance events on the piece at this gateway (Table 3.5). -/
  events : Nat
  /-- Bytes of it came from another gateway and have gone on from here (R122). -/
  got : Bool := false
deriving DecidableEq, Repr

/-- A collective at this gateway, from its first held descriptor to its records (R108 to R124). -/
structure Coll where
  id : Nat
  tenant : Nat
  job : Nat
  /-- Tour set index, and what the entry said when the collective started on it. -/
  ts : Nat
  nlog : Nat
  rings : Nat
  wings : Nat
  wide : Nat
  nlocal : Nat
  phase : Nat
  order : List Nat
  strides : List Int
  raceK : Nat
  raceLag : Nat
  print : Nat
  kind : Nat
  fmt : Nat
  redop : Nat
  sr : Bool
  len : Nat
  chunkLog : Nat
  root : Nat
  /-- The site of a BROADCAST's root. -/
  rootSite : Nat
  start : Nat
  seed : Nat
  /-- Held descriptors, in ascending rank order once admitted. -/
  members : List Member
  admitted : Bool
  started : Bool
  /-- Chunks that an engine disabled since had already taken: they finish (R103). -/
  begun : List Nat
  bind : Option (Nat × Nat)
  pieces : List PieceX
  /-- Staging: pieces staged so far in their order, the member being read, its bytes so far, the running local sum. -/
  cursor : Nat
  reader : Nat
  buf : List Byte
  acc : Option (List Nat)
  reading : Bool
  /-- Destination writes not acknowledged. -/
  owed : Nat
  /-- Fenced wings and the wings that run their chunks (R95). -/
  moved : List (Nat × Nat)
  /-- When chunks last moved so (R156). -/
  movedAt : Nat := 0
  /-- PEER_LEASE as that wait uses it (R13). -/
  movedFor : Nat := 0
  /-- The status the collective ends with; none while it runs. -/
  ended : Option Nat
  events : Nat
  /-- Slots and versions whose REF arriving blocks hold here (R141). -/
  refs : List (Nat × Nat)
  /-- Byte ranges of the destination whose bytes a failure leaves undefined: they become free with the records (R32, R92, R124). -/
  spoil : List (Nat × Nat) := []
deriving DecidableEq, Repr

/-- A COLL_END still to be sent (R117): the anchor's engine, the site, the message, and visits left. -/
structure EndNotice where
  engine : Nat
  site : Nat
  msg : ServiceMsg
  left : Nat
  /-- The anchor's visit to the site is on, and the notice has not gone out in it. -/
  due : Bool := false
  /-- The messages to the site that were queued before the visit began: they go first (R273). -/
  ahead : List (Nat × Ctl) := []
deriving DecidableEq, Repr


/-- A publish that holds a codec slot at this gateway (R147, R148). -/
structure PubX where
  slot : Nat
  ver : Nat
  img : List Byte
  act : Nat
  jobId : Nat
  tid : Nat
  txn : Nat
  /-- The publisher's site, and at the publisher its ring and index until its operation has ended. -/
  site : Nat
  op : Option (Nat × Nat)
  own : Bool
  /-- At the publisher: answers and acknowledgements by site. -/
  peers : List Nat
  answers : List (Nat × Nat)
  acks : List Nat
  /-- 0 reserving, 1 committed, 2 aborted. -/
  decided : Nat
  installed : Bool
  /-- At the publisher: the next fragment of the reserve for each site (R147). -/
  frag : List (Nat × Nat)
  /-- Its version has become ACTIVE here (R148). -/
  active : Bool := false
  /-- At the publisher: a peer that accepted was lost before it acknowledged (R150). -/
  lost : Bool := false
deriving DecidableEq, Repr

/-- A PUB_RESERVE being reassembled (R274). -/
structure ReserveX where
  txn : Nat
  site : Nat
  frags : List (Nat × List Byte)
  /-- When its first fragment came. -/
  since : Nat := 0
deriving DecidableEq, Repr

/-- A table in a wing's SRAM, or on its way there (R142); the list holds the least recently used first. -/
structure TabEnt where
  wing : Nat
  slot : Nat
  ver : Nat
  ready : Bool
  /-- One of the 480 that bound operations may pin (R142). -/
  pin : Bool := false
deriving DecidableEq, Repr

/-- The sender's end of a bound delta slot (R40): what Table 1.11 does not show of the binding, the snapshot, and what its release
names. -/
structure DeltaOut where
  slot : Nat
  tenant : Nat
  rord : Nat
  lord : Nat
  roff : Nat
  loff : Nat
  rank : Nat
  win : Nat
  site : Nat
  snap : List Byte
  stack : Nat
  mirror : Bool
  /-- No DELTA_PUT on it has completed yet (R40). -/
  fresh : Bool
  /-- The stack of its only copy failed (R180). -/
  lost : Bool := false
deriving DecidableEq, Repr

/-- The receiver's snapshot (R43, R274). -/
structure DeltaIn where
  site : Nat
  jobId : Nat
  rank : Nat
  win : Nat
  off : Nat
  tenant : Nat
  pages : Nat
  snap : List Byte
  stack : Nat
  mirror : Bool
  /-- Its stack failed and took it: it holds no page until a resync places it again (R42, R180). -/
  lost : Bool := false
deriving DecidableEq, Repr

/-- A segment kept in an Annex log until it is receipted (R176). Sequence numbers are kept whole; the header carries them modulo
2^32. -/
structure LogEnt where
  seq : Nat
  seg : Segment
  /-- 64 + PLEN bytes of log space. -/
  size : Nat
  /-- Transmissions so far, race copies apart (R174); 0 while it waits on its carrier for the first. -/
  attempts : Nat
  cutAt : Nat
  lastSend : Nat
  /-- The carrier it waits on or was last sent on. -/
  carrier : Nat
  raced : Bool
  /-- Shown received by an accepted receipt (R170). -/
  receipted : Bool
  /-- Queued again for transmission (R172 to R175). -/
  resend : Bool
deriving DecidableEq, Repr

/-- A segment held in a receive loan and not yet received (R168 step 5). -/
structure HeldSeg where
  seq : Nat
  seg : Segment
  /-- The payload after decryption. -/
  plain : List Byte
  race : Bool
  /-- Its place in the order of arrival of all segments (R34). -/
  stamp : Nat
deriving DecidableEq, Repr

/-- An operation that arrived on a context (R30, R34). -/
structure TgtOp where
  opn : Nat
  /-- Sequence number of its first segment. -/
  first : Nat
  opcode : Nat
  jobId : Nat
  win : Nat
  off : Nat
  len : Nat
  fmt : Nat
  redop : Nat
  sr : Bool
  tid : Nat
  srcRank : Nat
  ord : Nat
  token : Nat
  /-- Started in the order of operation numbers (R45): the target checks have been made. -/
  started : Bool
  /-- Verdict of the target checks: 0 while none has failed. -/
  status : Nat
  /-- Operands of an ATOMIC or SIGNAL. -/
  a : Nat
  b : Nat
  /-- Bytes asked for and got of a GET; bytes decoded of a write; writes not yet acknowledged. -/
  asked : Nat
  got : Nat
  owed : Nat
  /-- Bytes of a PUT whose aligned 8-byte unit is not whole yet (R46). -/
  carry : List Byte
  /-- The answer has been queued. -/
  answered : Bool
  events : Nat
  seed : Nat
  /-- Slots and versions whose REF this operation holds here (R141). -/
  refs : List (Nat × Nat)
deriving DecidableEq, Repr

/-- A block that has been decoded and waits for its place in the item: its byte range, its units, the errors of its combine, and the
place of its latest segment in the order of arrival (R34). -/
structure RxBlock where
  off : Nat
  fin : Nat
  units : List Nat
  faults : List BeatFault
  stamp : Nat
  /-- A PUT_REDUCE's block that has updated its elements before its turn in the item came (R34). -/
  applied : Bool := false
deriving DecidableEq, Repr

/-- How far the blocks of an arriving operation or piece have come: byte ranges that have been decoded, where the item ends once its last
segment has been seen, blocks not yet delivered, offset of the next block to deliver and elements delivered, offsets of blocks that have
failed their CRC once, whether the item is over so that nothing more of it is delivered, and the status it failed with. -/
structure RxItem where
  key : ItemKey
  done : List (Nat × Nat)
  /-- Byte ranges of blocks that have passed their CRC, decoded or not yet (R137, R168). -/
  passed : List (Nat × Nat)
  total : Option Nat
  ready : List RxBlock
  next : Nat
  elems : Nat
  fails : List Nat
  dead : Bool
  bad : Nat
  /-- Offsets of blocks that have been counted as waiting for their table (R143). -/
  waits : List Nat := []
  /-- The operation that any segment of a request describes (Table 6.4), and the references that blocks took before its first segment was
  here (R141). -/
  op : Option TgtOp := none
  refs : List (Nat × Nat) := []
deriving DecidableEq, Repr

/-- Work to be cut into segments on a context, in order (R136, R164). -/
structure SendItem where
  /-- 1 OP_REQ, 2 OP_RESP, 3 TOUR. -/
  kind : Nat
  /-- The operation of this gateway that an OP_REQ belongs to: ring and index. -/
  op : Option (Nat × Nat)
  /-- Operation number: of an OP_REQ given with its first segment. -/
  opn : Option Nat
  /-- The piece a TOUR item carries. -/
  coll : Nat
  chunk : Nat
  piece : Nat
  step : Nat
  ring : Nat
  opcode : Nat
  /-- Bytes 20 to 47 of the header (Table 6.4). -/
  tail : List Byte
  /-- Coded format (R125), TID that a codec slot must match, and the bound slot and version. -/
  fmt : Nat
  tid : Nat
  bind : Option (Nat × Nat)
  /-- Staged bytes not yet coded, and source bytes still to be staged. -/
  raw : List Byte
  left : Nat
  /-- Bytes ready to be cut; where in the item's block string they begin; block starts at or after that. -/
  bytes : List Byte
  sent : Nat
  starts : List Nat
  segidx : Nat
  poison : Bool
  /-- A GET request: one segment without payload (R165). -/
  bare : Bool
  /-- An operand or a result: no blocks. -/
  plain : Bool
deriving DecidableEq, Repr

/-- States of a context (Table 6.2). -/
inductive CtxState where
  | closed | acceding | opened | draining | failed | quarantined
deriving DecidableEq, Repr

/-- A stream context (Table 6.7) with its two directions. -/
structure Ctx where
  state : CtxState
  cls : Nat
  home : Nat
  /-- w of the key for class 1 to 8; 0 for class 0 (R153). -/
  wing : Nat
  mirror : Bool
  stack : Nat
  job : Nat
  site : Nat
  peerStream : Nat
  gen : Nat
  peerGen : Nat
  status : Nat
  pages : Nat
  winMax : Nat
  txPool : Nat
  rxPool : Nat
  /-- Bound key pair and cluster (R310). -/
  pair : Nat
  cluster : Nat
  /-- Stacks of the two copies of the log (R179, R181), and the pages of the log now (R180). -/
  copyA : Nat
  copyB : Nat
  logPages : Nat
  /-- Resources that R158 reserved are held. -/
  reserved : Bool
  /-- Sending direction; sequence numbers whole. -/
  sndNxt : Nat
  sndUna : Nat
  credit : Nat
  srtt : Nat
  rttvar : Nat
  /-- No sample of R171 has been taken yet at an end that echoed none (R161). -/
  rttFresh : Bool
  backoff : Nat
  /-- When the retransmission timer was started, and the time it runs for (R13, R172); none when it is stopped. -/
  timer : Option (Nat × Nat)
  log : List LogEnt
  sendq : List SendItem
  nextOpn : Nat
  /-- Receiving direction: CUM, HIGH, numbers received beyond CUM, highest number granted plus one. -/
  rcvCum : Nat
  rcvHigh : Nat
  rcvd : List Nat
  granted : Nat
  held : List HeldSeg
  rx : List RxItem
  arrived : Nat
  lastRcpt : Nat
  rseqOut : Nat
  rseqIn : Option Nat
  sackBase : Nat
  lastCum : Nat
  creditSent : Nat
  tgt : List TgtOp
  tgtNext : Nat
  /-- Buffers on loan: transmit and receive. -/
  txBufs : List Nat
  rxBufs : List Nat
  /-- A STREAM_CMD OPEN waits for this accession (R188). -/
  cmd : Bool
  /-- T_TX of our ACCEDE; when the wait for its answer, or one of R156 or R180, began, and how long it is (R13). -/
  tTx : Nat
  since : Nat
  waitFor : Nat
  lastUse : Nat
  /-- DEACCEDE has been sent, or received and not yet answered. -/
  deSent : Bool
  deRcvd : Bool
  /-- Ticks of tag failures (R319). -/
  authFails : List Nat
  /-- Waits one RTO after a stack failure (R180): the failed stack. -/
  stackWait : Option Nat
  /-- Waits one RTO after a fence of its wing (R156). -/
  fenceWait : Bool
  /-- The direction may cut no segment until its log exists again (R180). -/
  noLog : Bool
  /-- K_STR of a SEALED tenant's context, derived at accession and kept until it closes (R307, R310). -/
  kstr : List Byte
  /-- Tour segments received that no receipt sent has shown yet, with their pieces, and the pieces of which one has shown a segment (R122). -/
  fresh : List (Nat × ItemKey) := []
  shownItems : List ItemKey := []
  /-- A receipt has been sent (R170). -/
  rcpted : Bool := false
  /-- The epoch in which the sender waits for a HOST_KEYED key, once that has been counted (R316). -/
  stalledAt : Option Nat := none
deriving DecidableEq, Repr

/-- A closed context after reset. -/
def Ctx.empty : Ctx :=
  { state := .closed, cls := 0, home := 0, wing := 0, mirror := false, stack := 0, job := 0, site := 0, peerStream := 0, gen := 0,
    peerGen := 0, status := 0, pages := 0, winMax := 0, txPool := 0, rxPool := 0, pair := 0, cluster := 0, copyA := 0, copyB := 0,
    logPages := 0, reserved := false, sndNxt := 0, sndUna := 0, credit := 0, srtt := 0, rttvar := 0, rttFresh := false, backoff := 0,
    timer := none, log := [], sendq := [], nextOpn := 0, rcvCum := 0, rcvHigh := 0, rcvd := [], granted := 0, held := [], rx := [],
    arrived := 0, lastRcpt := 0, rseqOut := 0, rseqIn := none, sackBase := 0, lastCum := 0, creditSent := 0, tgt := [], tgtNext := 0,
    txBufs := [], rxBufs := [], cmd := false, tTx := 0, since := 0, waitFor := 0, lastUse := 0, deSent := false, deRcvd := false, authFails := [],
    stackWait := none, fenceWait := false, noLog := false, kstr := [] }

/-- An ACCEDE held while a PINNED host has not opened the context (R159): the message, when it arrived, and how long it is held (R13). -/
structure HeldAccede where
  msg : AccessionMsg
  since : Nat
  wait : Nat
deriving DecidableEq, Repr



/-- A log being resilvered (R181): its context, when resilvering began, bytes a tick that RESILVER_BW lets through then, and the tick at which
the copy is whole at that speed. -/
structure Resilver where
  ctx : Nat
  since : Nat
  rate : Nat
  due : Nat
deriving DecidableEq, Repr

/-- What a tracked domain's servo keeps beside its registers (R196, R197, R202, R203). Times and offsets are in 2^-16 ns,
frequencies in 2^-16 ppb. -/
structure ServoX where
  integ : Int
  y : Int
  /-- Consecutive samples below LOCK_THR, and above UNLOCK_THR. -/
  good : Nat
  bad : Nat
  /-- |O| of the last samples, newest first, at most 16. -/
  last : List Nat
  /-- Tick and y of the samples taken in LOCKED, newest first (R202). -/
  hist : List (Nat × Int)
  /-- TE on entry to HOLDOVER, and the tick of the entry. -/
  teEntry : Nat
  hoSince : Nat
  /-- In HOLDOVER: a valid sample has come since, so the loop runs again from the frozen integrator (Table 7.2). -/
  live : Bool
  /-- What was left of the slew in progress at the last sample, followed through its replacements (R200). -/
  slewAt : Int := 0
deriving DecidableEq, Repr

/-- A servo after reset. -/
def ServoX.zero : ServoX := ⟨0, 0, 0, 0, [], [], 0, 0, false, 0⟩

/-- What a PTP slave port keeps of its exchanges (Table 7.1, SRC_TYPE 1). -/
structure SlaveX where
  seq : Nat
  /-- Ingress of the latest Sync, its correctionField, and whether its Follow_Up is awaited. -/
  t2 : Int
  corr : Int
  wait : Bool
  /-- Origin of the latest complete Sync, corrections added. -/
  t1 : Option Int
  reqSeq : Nat
  t3 : Int
  /-- Of a two-step Pdelay_Resp: its timestamp, ingress and correctionField. -/
  pd : Option (Int × Int × Int)
  mpd : Option Int
  /-- The last Sync came over UDP/IPv6, and requests go out that way (R201). -/
  udp : Bool := false
deriving DecidableEq, Repr

/-- A slave port that has heard nothing. -/
def SlaveX.zero : SlaveX := ⟨0, 0, 0, false, none, 0, 0, none, none, false⟩

/-- Marks exchanged with a peer (R204): marks sent, number of the latest mark received, and its D_in. -/
structure MarkX where
  sent : Nat
  seqIn : Nat
  dIn : Option Int
deriving DecidableEq, Repr

/-- A peer with which no mark has been exchanged. -/
def MarkX.zero : MarkX := ⟨0, 0, none⟩


/-- The scheduled state of a carrier (R227): colours, parked sides, the unrestricted class mask, and pinned windows. -/
structure Sched where
  tx : Option Nat
  lo : Option Nat
  txPark : Bool
  rxPark : Bool
  mask : Nat
  /-- Tenant and class mask, at most 8. -/
  pins : List (Nat × Nat)
  /-- C of the RX PARK executed last (R233, R234). -/
  rxParkC : Option Nat := none
deriving DecidableEq, Repr

/-- A carrier's scheduled state after reset (R227). -/
def Sched.empty : Sched := { tx := none, lo := none, txPark := false, rxPark := false, mask := 0, pins := [] }

/-- A RETURN under way at the receiving end (R229): the T proposed, and whether it has been answered. -/
structure ReturnTx where
  m : Nat
  site : Nat
  colour : Nat
  t : Nat
  acked : Bool
deriving DecidableEq, Repr

/-- A RETURN seen at the sending end (R229): carrier, T, and the answer given to every copy. -/
structure ReturnRx where
  m : Nat
  t : Nat
  accept : Bool
  /-- The carrier has rejoined: the entry only answers later copies. -/
  rejoined : Bool := false
deriving DecidableEq, Repr

/-- A park cancelled at either end (R234): carrier, and the commit time C. -/
structure ParkCancel where
  m : Nat
  c : Nat
  /-- Sending end: repeated until C + LAG, in ns of the timebase; receiving end: the PARK's SLOT. -/
  stop : Nat
deriving DecidableEq, Repr

/-- A CANCEL repeated until the item's ACTIVATE (R238). -/
structure CancelTx where
  kind : PlanKind
  id : Nat
  t : Nat
  orderPrint : Nat
  /-- ACTIVATE in ns of the timebase: it is sent until then. -/
  stop : Nat
deriving DecidableEq, Repr


/-- One microheater (R251 to R255), its terms in 0.01 mW: base, integrator and term of its loop, the crosstalk it receives, a running
pulse, and the effective power of its waveguide. -/
structure Heater where
  base : Int
  integ : Int
  loop : Int
  /-- The crosstalk that its neighbours' terms call for, in 2^-16 of 0.01 mW. -/
  xt : Int
  /-- A running pulse: base at its SLOT plus STEP, and the tick at which it ends. -/
  pulse : Option Int
  pulseEnd : Nat := 0
  /-- The tick at which it began, and the ns of pulses now over since the last update of the loop, whose integrator they froze (R253). -/
  pulseAt : Nat := 0
  frozen : Nat := 0
  /-- The crosstalk term, which follows `xt` by the lag TAU_X: its value at a tick. -/
  xtFrom : Int := 0
  xtAt : Nat := 0
  /-- The effective power, which follows the output after THETA by the lag TAU: its value at a tick, the output that acts from then on,
  and the later outputs with the ticks at which they begin to act. -/
  eff : Int := 0
  effAt : Nat := 0
  drive : Int := 0
  acts : List (Nat × Int) := []
  /-- The running pulse has clipped and has been counted (R253). -/
  clipped : Bool := false
deriving DecidableEq, Repr

/-- A carrier's optics beside its registers. -/
structure KwX where
  /-- The transmitter is lit (R263). -/
  txLit : Bool
  /-- Inside the guard of a retune or wake, transmit and receive side. -/
  txGuard : Bool
  rxGuard : Bool
  /-- The local oscillator is fine-locked. -/
  loFine : Bool
  /-- A cold acquisition runs. -/
  cold : Bool
  /-- Members of their groups (R281), and out after a loss until they return (R229, R283). -/
  txJoined : Bool
  rxJoined : Bool
  txOut : Bool
  rxOut : Bool
  /-- A wake request waits for a wake slot; frames carry WAKE = 1; a woken receiver has not yet seen WAKE = 1 (R234, R235). -/
  wakeReq : Bool
  wakeSend : Bool
  wakeCheck : Bool
  heaters : List Heater
  /-- The ticks at which the guards end (R231, R235, R221). -/
  txGuardEnd : Nat := 0
  rxGuardEnd : Nat := 0
  /-- The fine lock of a scheduled retune or wake is still to come (R248). -/
  lockDue : Bool := false
  /-- The carrier was cold: its receiver relocks only by a cold acquisition (R257). -/
  needCold : Bool := false
  /-- An anchor: the last visit that began (R221), and the TAI nanosecond at which its listening window began (R222). -/
  visitAt : Option Nat := none
  window : Option Nat := none
  /-- An anchor: the visit whose own feed-forward pulse has begun (R258). -/
  leadFor : Option Nat := none
  /-- The tick of the last update of the heater loops (R252). -/
  piAt : Nat := 0
deriving DecidableEq, Repr

/-- A heater at 0. -/
def Heater.zero : Heater := { base := 0, integ := 0, loop := 0, xt := 0, pulse := none }

/-- A dark carrier. -/
def KwX.empty : KwX :=
  { txLit := false, txGuard := false, rxGuard := false, loFine := false, cold := false, txJoined := false, rxJoined := false,
    txOut := false, rxOut := false, wakeReq := false, wakeSend := false, wakeCheck := false,
    heaters := [Heater.zero, Heater.zero, Heater.zero, Heater.zero] }

/-- A path state entry (Table 9.5); AGE is the ticks since `written`. -/
structure PathEnt where
  valid : Bool
  written : Nat
  cd : Nat
  fofs : Nat
  dgd : Nat
  seed0 : Nat
  seed1 : Nat
deriving DecidableEq, Repr

/-- An entry never written. -/
def PathEnt.empty : PathEnt := ⟨false, 0, 0, 0, 0, 0, 0⟩


/-- What a carrier's framer holds. -/
structure LineX where
  /-- Transmit: MFAS of the next frame, BIP-8 of the last frame's payload, segments waiting, the rest of the segment and of the
  control message being sent (R263, R265, R270, R273). -/
  txMfas : Nat
  txBip : Byte
  txq : List (Bool × List Byte)
  txRest : List Byte
  ctlRest : List Byte
  /-- Time-transfer fields of the next frames of an anchor visit: the peer and the TYPE (R204). -/
  timeQ : List (Nat × Nat)
  /-- Bits of the codeword under way (R284). -/
  fecBits : List Bool
  /-- Coded bits waiting for a symbol, the index of the next symbol in its multiframe, and the pilot generators of the two
  polarisations (R245, R246). -/
  symBits : List Bool
  symIdx : Nat
  prbs : Nat × Nat
  /-- Receive: consecutive FAS mismatches, one FAS match seen while searching, the last MFAS, the BIP-8 computed over the last
  frame's payload (R265, R275, R276). -/
  misses : Nat
  sawFas : Bool
  rxMfas : Option Nat
  rxBip : Option Byte
  /-- TTI bytes of the repetition under way, the last whole repetition and how many equal ones in a row (R279). -/
  ttiBuf : List Byte
  ttiLast : List Byte
  ttiRun : Nat
  /-- Bytes of a segment and of a control message cut by the frame's end, each segment byte with whether it lay in an
  uncorrectable codeword; whether the segment is a race copy. -/
  segBuf : List (Byte × Bool)
  segRace : Bool
  /-- Segment starts are known: PTR or the end of a segment has shown one since alignment (R271). -/
  segSync : Bool
  /-- The last frame overlapped an uncorrectable codeword (R265, R286). -/
  rxBad : Bool
  ctlBuf : List Byte
  /-- The peer whose site bit the NOTE being sent carries in LOST (R382). -/
  noteFor : Option Nat := none
deriving DecidableEq, Repr

/-- A framer after reset: OOF, nothing in progress. -/
def LineX.empty : LineX :=
  { txMfas := 0, txBip := 0, txq := [], txRest := [], ctlRest := [], timeQ := [], fecBits := [], symBits := [], symIdx := 0,
    prbs := (0x7FFF, 0x3FFF), misses := 0, sawFas := false, rxMfas := none, rxBip := none, ttiBuf := [], ttiLast := [], ttiRun := 0,
    segBuf := [], segRace := false, segSync := false, rxBad := false, ctlBuf := [] }

/-- Minimum, maximum, sum and number of samples of a gauge (R290). -/
structure Gauge where
  min : Int
  max : Int
  sum : Int
  n : Nat
deriving DecidableEq, Repr

/-- A gauge with no sample. -/
def Gauge.none : Gauge := ⟨0, 0, 0, 0⟩

/-- One performance bin (Table 10.9) as counts and gauges. -/
structure PmBin where
  start : Nat
  valid : Bool
  suspect : Bool
  final : Bool
  elapsed : Nat
  es : Nat
  ses : Nat
  uas : Nat
  bbe : Nat
  bip : Nat
  corr : Nat
  uncorr : Nat
  feEs : Nat
  feSes : Nat
  feUas : Nat
  feBbe : Nat
  ber : Gauge
  qmarg : Gauge
  osnr : Gauge
  cd : Gauge
  dgd : Gauge
  rxPow : Gauge
  biasTx : Nat
  biasLo : Nat
  heater : Nat
  /-- The sum of the samples' bit error ratios as a fraction (R290). -/
  berNum : Nat
  berDen : Nat
  /-- Counters whose alert has been raised in this bin (R291). -/
  alerted : List Nat
deriving DecidableEq, Repr

/-- A bin that holds no data. -/
def PmBin.empty : PmBin :=
  ⟨0, false, false, false, 0, 0, 0, 0, 0, 0, 0, 0, 0, 0, 0, 0, Gauge.none, Gauge.none, Gauge.none, Gauge.none, Gauge.none, Gauge.none,
   0, 0, 0, 0, 1, []⟩

/-- One classified second that is not final yet (R288): TAI second, and what it counted. -/
structure PmSec where
  sec : Nat
  es : Bool
  ses : Bool
  blocks : Nat
  feEs : Bool
  feSes : Bool
  feBei : Nat
  /-- Counted as unavailable. -/
  uas : Bool
  feUas : Bool
deriving DecidableEq, Repr

/-- One performance-monitoring entity: a carrier's receive side, or a path (R287 to R291). -/
structure PmX where
  /-- Tallies of the second under way. -/
  frames : Nat
  errored : Nat
  bip : Nat
  uncorr : Nat
  corr : Nat
  defect : Bool
  /-- At some moment of this second the side was neither parked, off nor in a guard (R288). -/
  live : Bool
  feFrames : Nat
  feBei : Nat
  feHit : Bool
  feBdi : Bool
  /-- The last seconds, newest first, at most 10 that are not final. -/
  recent : List PmSec
  unavail : Bool
  feUnavail : Bool
  /-- What makes the current bins SUSPECT. -/
  dirty : Bool
  cur15 : PmBin
  done15 : List PmBin
  cur24 : PmBin
  done24 : List PmBin
  /-- Gauge alerts standing, and the samples of this second: all low, all clear (R291). -/
  qLow : Bool
  pLow : Bool
  qAllLow : Bool
  qAllOk : Bool
  pAllLow : Bool
  pAllOk : Bool
  samples : Nat
  /-- The frames due in this second, in bits: those of the time before `liveAt`, which is the ns of the timebase since which the side has been
  scheduled and outside guards, with the site it hears (R287). -/
  due : Nat := 0
  liveAt : Option (Nat × Option Nat) := none
deriving DecidableEq, Repr

/-- An entity after reset. -/
def PmX.empty : PmX :=
  { frames := 0, errored := 0, bip := 0, uncorr := 0, corr := 0, defect := false, live := false, feFrames := 0, feBei := 0,
    feHit := false, feBdi := false, recent := [], unavail := false, feUnavail := false, dirty := false, cur15 := PmBin.empty,
    done15 := [], cur24 := PmBin.empty, done24 := [], qLow := false, pLow := false, qAllLow := true, qAllOk := true,
    pAllLow := true, pAllOk := true, samples := 0 }


/-- A half-key in a cluster key store (R309). -/
structure HalfKey where
  epoch : Nat
  key : List Byte
  /-- IV and tag while Vitrine holds the half wrapped under the storage key (R293); the key bytes are then the ciphertext. -/
  wrap : Option (List Byte × List Byte) := none
deriving DecidableEq, Repr

/-- What a key pair is bound to (R310, R311): job, peer site, class, wing of the stream key; the context that holds it. -/
structure PairBind where
  job : Nat
  site : Nat
  cls : Nat
  wing : Nat
  ctx : Option Nat
deriving DecidableEq, Repr


/-- A sealing session with a peer (R303 to R308): who began it, its SESSION, this side's ephemeral key, the bodies exchanged, the keys
derived (K_CTL_IR, K_CTL_RI, K_CONF_I, K_CONF_R, STR_BASE), whether it is RESTRICTED, and the peer's SVN. -/
structure SealX where
  ours : Bool
  session : Nat
  priv : List Byte
  bodyI : List Byte
  bodyR : List Byte
  bodyF : List Byte
  keys : List (List Byte)
  restricted : Bool
  svn : Nat
deriving DecidableEq, Repr

/-- A SEAL body being reassembled (R304): peer, STEP, SESSION, NFRAG, tick of its first fragment, and the fragments by index. -/
structure SealRx where
  peer : Nat
  step : Nat
  session : Nat
  nfrag : Nat
  since : Nat
  parts : List (Nat × List Byte)
deriving DecidableEq, Repr


/-- A flit on the package ring (R347, R348): its channel, the stop it is for, its direction, and the stop whose buffer holds it. -/
structure RingFlit where
  vc : Nat
  dst : Nat
  up : Bool
  /-- The stop it set out from: where it entered, or where it found the ejection buffer full. -/
  at_ : Nat
  /-- When it left that stop. -/
  since : Nat
  /-- Stops from there to its destination: 8 for one that goes round again. -/
  way : Nat
deriving DecidableEq, Repr



/-- An open coalescing window (R377). -/
structure AlarmWin where
  key : AlarmKey
  level : Nat
  /-- 0 LOCAL, 1 REMOTE, 2 OVERFLOW. -/
  kind : Nat
  /-- HEALTH_CTL.COAL_US as it stood when the window opened (R13). -/
  coal : Nat
  /-- Timebase at the first occurrence, in ns, and the tick of the first and the last. -/
  first : Nat
  firstTick : Nat
  lastTick : Nat
  count : Nat
  detail : Nat
  peers : Nat
deriving DecidableEq, Repr

/-- A peer's lease (R381, R382) beside HEALTH_PEER_p. -/
structure PeerX where
  last : Nat
  deadline : Nat
  vouched : Nat
  /-- The site's bit in NOTE.LOST, and whether a NOTE carrying it has been sent to the peer. -/
  lostBit : Bool
  noteSent : Bool
deriving DecidableEq, Repr

/-- A peer not in the active plan. -/
def PeerX.empty : PeerX := ⟨0, 0, 0, false, false⟩

/-- A recovery being measured (R376): when the fault was detected, for each affected context the segments that must be receipted,
the fabric requests affected, and the largest time so far. -/
structure Recovery where
  td : Nat
  ctxs : List (Nat × List Nat)
  reqs : List Nat
  worst : Nat
  srtt : Nat
deriving DecidableEq, Repr

/-- What the Conservator keeps for one margin (R386, R387). -/
structure MarginX where
  /-- One-second means, newest first. -/
  means : List Int
  /-- MARGIN_TREND has been raised and the projection has not left the horizon. -/
  raised : Bool
  /-- Seconds a timing margin has stood above WARN + 2·HYST (R388). -/
  high : Nat
  /-- A sample has come since the last read: HEALTH_MDATA.MIN holds a value. -/
  fresh : Bool
  /-- The sum of the samples of the present second, and how many there are (R387). -/
  sum : Int
  count : Nat
deriving DecidableEq, Repr

/-- A margin never sampled. -/
def MarginX.empty : MarginX := ⟨[], false, 0, false, 0, 0⟩


/-- MSI-X vectors that software masks, and messages held by a mask: function and vector, in the order of the masks and of the messages (R66,
log entry 127). -/
structure MsixX where
  masked : List (Nat × Nat)
  pend : List (Nat × Nat)
deriving DecidableEq, Repr

/-- No vector is masked, no message waits. -/
def MsixX.empty : MsixX := ⟨[], []⟩

/-- The images of a table that has two versions or pages, 0 and 1; an image is empty while none is installed. -/
structure Images where
  img0 : List Byte
  img1 : List Byte
deriving DecidableEq, Repr

/-- Measurements of the Vitrine part and of the Curator part that run, each a SHA-384 digest (R299). -/
structure Measured where
  vit : List Byte
  cur : List Byte
deriving DecidableEq, Repr

set_option maxRecDepth 4000 in
/-- The gateway apart from its command queue and the memories around it. -/
structure Dev where
  /-- Every register and table word that differs from its reset value, by key (`layout`). -/
  words : List (Nat × Word)
  /-- Ticks of the TIME clock since power-on, 1 ns each: what the gateway measures intervals with (log entry 4). -/
  now : Nat
  /-- The model's own counter: how many free values have been taken (`Config.free`). -/
  freeCtr : Nat
  /-- The PROV_MODE in force in each wing (E-class; the register holds the shadow, R12). -/
  provMode : List Nat
  /-- The ITIN_CTL.MODE in force (E-class, R12). -/
  itinMode : Nat
  /-- The SYS_PWR.PROFILE in force (E-class, R12). -/
  profile : Nat
  /-- The latest write of each E-class field, by `epochFld`: its tick, and the shadow value before that tick (R12). -/
  shadowAt : List (Nat × Nat × Nat)
  /-- The timebase in units of 2^-16 ns: (seconds·10^9 + nanoseconds)·2^16 + fraction (R190). -/
  tb : Nat
  /-- Everything the gateway has sent, oldest first (the model's own log of its ports). -/
  out : List Out
  /-- Control messages waiting for a carrier, by peer site (R273). -/
  ctlQ : List (Nat × Ctl)
  /-- Messages repeated in every anchor visit to a site until answered (R44, R117, R229, R238). -/
  anchorQ : List (Nat × Ctl)
  /-- Submission rings beside their registers, by ring. -/
  rings : List (Nat × RingX)
  /-- Completion queues beside their registers: ARMED, P and the coalescing timer (R66). -/
  cqs : List (Nat × CqX)
  /-- Masks and pending bits of the MSI-X vectors (R66). -/
  msix : MsixX
  /-- Weighted round robin of descriptor fetch: the ring selected last, and selections it has had in its turn (R55). -/
  wrr : Nat × Nat
  /-- Admitted operations whose record is not written, in submission order. -/
  ops : List Op
  /-- Atomic and SIGNAL requests at the atomic units, in arrival order (R36). -/
  atomics : List AtomReq
  /-- Outstanding memory requests (R332, R334). -/
  reqs : List Req
  /-- Segments held so far: the next place in the order of arrival (R34). -/
  segSeen : Nat
  /-- Tag of the next memory request. -/
  nextTag : Nat
  /-- Active sets of the courier channels (R68). -/
  couriers : List (Nat × CourierX)
  /-- LRM packets waiting, by logical port, in arrival order (R330, R340). -/
  portQ : List (Nat × List LrmOut)
  /-- PTP messages waiting on a logical port, oldest first (R340, Table 12.5 level 1). -/
  ptpQ : List (Nat × List PtpOut)
  /-- WFQ state of level 3 by entity, and of level 4 by 256 + 1,024·entity + tenant (R341). -/
  wfq : List (Nat × WfqX)
  /-- Meters of the tenants that have one (R338). -/
  meters : List (Nat × Meter)
  /-- Rate limiters in use, by index (R337). -/
  limiters : List (Nat × Limiter)
  /-- Packets counted for header sampling since the enable, by 2·physical port + direction (R346). -/
  hsSeen : List (Nat × Nat)
  /-- Collectives that this gateway holds, in order of their first descriptor (R108). -/
  colls : List Coll
  /-- Ticks of the successful same-lane replays of a lane, newest first, by 64·wing + lane (R91). -/
  laneHits : List (Nat × List Nat)
  /-- Collectives that ended with a failure, and when: for a time after that their segments are discarded (R117, R118). -/
  deadColls : List (Nat × Nat)
  /-- Collectives that have ended here with a failure: COLL_ID, KEY, and the tick of the end or of the latest notice of it (R117, R274). -/
  collEnds : List (Nat × Nat × Nat)
  /-- Race copies that won before their collective was admitted here: COLL_ID, COLL_PRINT, chunk, piece (R119, R120) -/
  raceWins : List (Nat × Nat × Nat × Nat)
  /-- References that CODED blocks took before a descriptor of their collective was here: COLL_ID, slot, version (R141) -/
  earlyRefs : List (Nat × Nat × Nat)
  /-- COLL_END notices under way (R117). -/
  endNotices : List EndNotice
  /-- Installed table images by 2·slot + version (R148). -/
  codecImg : List (Nat × List Byte)
  /-- Histograms in HBM by slot: 256·stream + symbol, and count (R144). -/
  hists : List (Nat × List (Nat × Nat))
  /-- Counts not yet added to a slot's histogram, by 4·slot + wing (R144). -/
  histPend : List (Nat × List (Nat × Nat))
  /-- Publishes that hold a slot (R147). -/
  pubs : List PubX
  /-- Reserves being reassembled (R274). -/
  reserves : List ReserveX
  /-- TXN of the next publish of this gateway. -/
  pubTxn : Nat
  /-- Staged tables (R142). -/
  staged : List TabEnt
  /-- Stagings asked by CODEC_STAGE and not complete: slot, version, wing. -/
  stageReq : List (Nat × Nat × Nat)
  /-- Bound delta slots, sender's end (R40). -/
  deltasOut : List DeltaOut
  /-- Snapshots this gateway keeps as receiver (R40, R43). -/
  deltasIn : List DeltaIn
  /-- Stream contexts that are not as after reset, by number (Table 6.7). -/
  ctxs : List (Nat × Ctx)
  /-- ACCEDE messages waiting for a PINNED host or for a context to close (R159). -/
  heldAccedes : List HeldAccede
  /-- The BPM's loan bits: per pool, the buffers on loan (R185). -/
  bpmBits : List (Nat × List Nat)
  /-- Annex pages in use on each stack outside SPARE (R179). -/
  annexUsed : List (Nat × Nat)
  /-- Annex pages each tenant holds (R178, R180). -/
  annexHeld : List (Nat × Nat)
  /-- The keys of the three hashed maps (R155, R349), drawn at every reset. -/
  hashKeys : List Nat
  /-- Contexts being resilvered, in the order of their copies (R181). -/
  resilver : List Resilver
  /-- Pieces that wait for a context of their key: job, site, class, wing (R122, R157). -/
  tourWait : List (Nat × Nat × Nat × Nat × SendItem)
  /-- What the frequency adjustment has not yet carried into the timebase, in 2^-16 ns · 10^-9 (R190). -/
  tbRem : Int
  /-- What a slew in progress has still to remove, in 2^-16 ns · 10^-9 (R198, R199). -/
  slew : Int
  /-- Servos of the two domains (R194 to R203). -/
  servos : List (Nat × ServoX)
  /-- PTP slave exchanges of the two domains (R194). -/
  slaves : List (Nat × SlaveX)
  /-- Marks by peer (R204). -/
  marks : List (Nat × MarkX)
  /-- Measured link delay of a logical port in 2^-16 ns (R207). -/
  linkDelay : List (Nat × Nat)
  /-- sequenceId of the next PTP message sent (R201). -/
  ptpSeq : Nat
  /-- Announce, signaling, management and zero-checksum messages counted (R195, R201, R208). -/
  ptpCount : Nat
  /-- Runs of seconds that PPS_OUT has pulsed: first and last (R192, R210). -/
  ppsDone : List (Nat × Nat)
  /-- Timestamp of a PPS_IN edge whose TOD_IN message is awaited, in 2^-16 ns (R209). -/
  ppsEdge : Option Nat
  /-- Absent CLK_MODE references: 1 REF10M_IN, 2 PPS_IN (R202). -/
  refLost : List Nat
  /-- Peers from which a PATH_REPORT has arrived (R261). -/
  cdReports : List Nat
  /-- What the anchor of a plane last heard from a site, by 32·plane + site -/
  heard : List (Nat × PathReport)
  /-- The two Catalogue versions (R217). -/
  cats : Images
  /-- The two Itinerary pages (R224). -/
  pages : Images
  /-- The tick of the latest Catalogue activation (R218). -/
  catHeld : Nat
  /-- The anchor rota whose listening windows were counted last -/
  rotaDone : Option Nat
  /-- CAT_CTL.HOLD as it stood at that activation (R13). -/
  catHold : Nat
  /-- Scheduled states by carrier (R227). -/
  scheds : List (Nat × Sched)
  /-- RETURNs this gateway repeats (R229). -/
  returnsTx : List ReturnTx
  /-- RETURNs this gateway has answered (R229). -/
  returnsRx : List ReturnRx
  /-- Wing, the tick at which it last launched entries, and how many of them at that tick. -/
  itinRuns : List (Nat × Nat × Nat)
  /-- TX parks this gateway has cancelled (R234). -/
  parkTx : List ParkCancel
  /-- RX parks cancelled by a PARK_CANCEL received (R234). -/
  parkRx : List ParkCancel
  /-- CANCELs repeated in every anchor visit (R238). -/
  cancelTx : List CancelTx
  /-- The mean path delay in ns from the latest ECHO of each peer, plus one; 0 while none has arrived (R222). -/
  dMean : List (Nat × Nat)
  /-- Optics of the carriers (R243 to R257), by carrier. -/
  kw : List (Nat × KwX)
  /-- Path state entries by 128·carrier + colour (R249). -/
  paths : List (Nat × PathEnt)
  /-- Each connector has been present for 100 ms (R243). -/
  faSettled : List Bool
  /-- Engines out of service: e darkened by a PIC temperature beyond ±5 °C, 8 + e taken out by an EIC fault (R250, R373). -/
  engDark : List Nat
  /-- Framers by carrier (R263 to R283). -/
  lines : List (Nat × LineX)
  /-- BIP violations in frames from a site on a plane since the last frame sent there, by 8·site + plane (R282). -/
  beiCnt : List (Nat × Nat)
  /-- Performance monitoring by entity: 0 to 127 carriers, 128 + 8·site + plane paths (R287). -/
  pm : List (Nat × PmX)
  /-- Of each sealed peer: K_CTL of the sending direction, of the receiving one, and STR_BASE, empty where none is kept (R306, R308). -/
  ctlKeys : List (Nat × List Byte × List Byte × List Byte)
  /-- Half-keys by 2·slot + half, slot = 2·pair + phase (R309). -/
  halves : List (Nat × Option HalfKey)
  /-- Bindings of the key pairs (R310, R311). -/
  binds : List (Nat × Option PairBind)
  /-- KEK of each tenant that has one (R314). -/
  keks : List (Nat × List Byte)
  /-- Per tenant, the ticks at which its contexts entered QUARANTINED, newest first (R320). -/
  quarTimes : List (Nat × List Nat)
  /-- Sealing sessions under way, by peer (R303 to R308). -/
  seals : List (Nat × SealX)
  /-- SEAL bodies being reassembled (R304). -/
  sealRx : List SealRx
  /-- Per peer, the tick from which SEAL_RETRY counts, and that wait in ns (R13): it became FAILED or LOST, or a retry started sealing (R303). -/
  sealAt : List (Nat × Nat × Nat)
  /-- The installed credential (Table 11.4); empty while none is (R301). -/
  cred : List Byte
  /-- The nonce of the last DBG_CHALLENGE, until a DBG_UNLOCK uses it (R302). -/
  dbgNonce : List Byte
  /-- Draws taken from the TRNG (`Config.trng`). -/
  trngCtr : Nat
  /-- The storage key that wraps keys moved out of a cluster (R293), drawn at power-on. -/
  storageKey : List Byte
  /-- Measurements of the parts that run (R299). -/
  meas : Measured
  /-- RESULT of a BAR4 channel once a commit is done: 16·function + channel, SEQ, STATUS (Table 11.8). -/
  loadRes : List (Nat × Nat × Nat)
  /-- The RECORD of each BAR4 load channel, 256 bytes by 16·function + channel; all zero while not listed (R313, R401) -/
  loadRecs : List (Nat × List Byte)
  /-- Clusters fenced by a sensor until a block reset (R324). -/
  clusterFence : List Nat
  /-- TARGET of a deferred VT_PWR_REQ (R326). -/
  gateReq : Option Nat
  /-- Tick at which the gate request that is deferred was written (R326). -/
  gateAt : Nat
  /-- Flits on the package ring, oldest first (R347). -/
  ringFlits : List RingFlit
  /-- Injections waiting: stop, channel, destination stop (R348). -/
  ringWait : List (Nat × Nat × Nat)
  /-- Injection slots of a stop in which VC2 has waited (R348). -/
  ringTurn : List (Nat × Nat)
  /-- Consecutive milliseconds at or above SKEW_THR, by stack (R351). -/
  skewRuns : List (Nat × Nat)
  /-- The PCIe endpoint answers (R359). -/
  pcieUp : Bool
  /-- The base address written to each base address register, by 8·function + register (R400) -/
  bars : List (Nat × Nat)
  /-- The tick at which RESET_N was released (SYS_BOOT.ELAPSED). -/
  released : Nat
  /-- When the last cause of a reset ended (R355). -/
  rstAt : Nat
  /-- Rails out of the range of the power-on detector, which holds reset meanwhile (R355, R393). -/
  railsBad : List Rail
  /-- When boot entered LOADING (Table 13.5, code 0x05). -/
  loadingAt : Nat
  /-- A reset is asserted and RESET_N is driven low (R355). -/
  inReset : Bool
  /-- The Vitrine part of the image being read has been accepted (R299, R360). -/
  partOk : Bool
  /-- TEN_EN, FAB_CTL.ENABLE and STREAM_CTL.ENABLE as written, bits 0 to 2, while the power state makes them behave as 0 (R366). -/
  enHeld : Nat
  /-- Wings that throttle (R367). -/
  throttled : List Nat
  /-- THERM_N is asserted (R368). -/
  thermN : Bool
  /-- ALERT_N is held low (R380). -/
  alertN : Bool
  /-- A mailbox command in progress (R370). -/
  mailbox : Option MbxRun
  /-- Firmware slots that an interrupted FLASH_WRITE left unacceptable (R371). -/
  slotBad : List Nat
  /-- Open coalescing windows, oldest first (R377). -/
  alarms : List AlarmWin
  /-- The OVERFLOW window (R378). -/
  overflow : Option AlarmWin
  /-- SEQ of the next alarm record. -/
  alarmSeq : Nat
  /-- Alarm records kept in the Curator log while the ring was disabled, newest first, at most 64 (R380). -/
  fwLog : List (List Byte)
  /-- Peer leases by peer index (R381). -/
  peers : List (Nat × PeerX)
  /-- The recovery being measured (R376). -/
  recovery : Option Recovery
  /-- Margin histories by 128·kind + unit (R387). -/
  margins : List (Nat × MarginX)
  /-- Steps of 5 mV below nominal each adaptive rail group has been moved (R388). -/
  rails : List (Nat × Int)
  /-- Rails whose regulator did not acknowledge (R394). -/
  railNak : List Nat
deriving DecidableEq, Repr

/-- The gateway right after power-on. -/
def Dev.reset : Dev :=
  { words := []
    now := 0
    freeCtr := 0
    provMode := [0, 0, 0, 0]
    itinMode := 0
    profile := 0
    shadowAt := []
    tb := 0
    out := []
    ctlQ := []
    anchorQ := []
    rings := []
    cqs := []
    msix := MsixX.empty
    wrr := (0, 0)
    ops := []
    atomics := []
    reqs := []
    segSeen := 0
    nextTag := 0
    couriers := []
    portQ := []
    ptpQ := []
    wfq := []
    meters := []
    limiters := []
    hsSeen := []
    colls := []
    laneHits := []
    deadColls := []
    collEnds := []
    raceWins := []
    earlyRefs := []
    endNotices := []
    codecImg := []
    hists := []
    histPend := []
    pubs := []
    reserves := []
    pubTxn := 0
    staged := []
    stageReq := []
    deltasOut := []
    deltasIn := []
    ctxs := []
    heldAccedes := []
    bpmBits := []
    annexUsed := []
    annexHeld := []
    hashKeys := [0, 0, 0]
    resilver := []
    tourWait := []
    tbRem := 0
    slew := 0
    servos := []
    slaves := []
    marks := []
    linkDelay := []
    ptpSeq := 0
    ptpCount := 0
    ppsDone := [(0, 0)]
    ppsEdge := none
    refLost := []
    cdReports := []
    heard := []
    cats := ⟨[], []⟩
    pages := ⟨[], []⟩
    catHeld := 0
    rotaDone := none
    catHold := 0
    scheds := []
    returnsTx := []
    returnsRx := []
    itinRuns := []
    parkTx := []
    parkRx := []
    cancelTx := []
    dMean := []
    kw := []
    paths := []
    faSettled := [true, true]
    engDark := []
    lines := []
    beiCnt := []
    pm := []
    ctlKeys := []
    halves := []
    binds := []
    keks := []
    quarTimes := []
    seals := []
    sealRx := []
    sealAt := []
    cred := []
    dbgNonce := []
    trngCtr := 0
    storageKey := []
    meas := ⟨[], []⟩
    loadRes := []
    loadRecs := []
    clusterFence := []
    gateReq := none
    gateAt := 0
    ringFlits := []
    ringWait := []
    ringTurn := []
    skewRuns := []
    pcieUp := false
    bars := []
    released := 0
    rstAt := 0
    railsBad := []
    loadingAt := 0
    inReset := true
    partOk := false
    enHeld := 0
    throttled := []
    thermN := false
    alertN := false
    mailbox := none
    slotBad := []
    alarms := []
    overflow := none
    alarmSeq := 0
    fwLog := []
    peers := []
    recovery := none
    margins := []
    rails := []
    railNak := [] }

/-- A stop of the machine. -/
inductive Fault where
  /-- Raised by no command of this model: the spec names no behaviour of the gateway that stops it. Kept so that the type of a
  fault is inhabited for statements about it. Safe. -/
  | halted
deriving DecidableEq, Repr

/-- A command this model gives no meaning to. -/
inductive Refusal where
  /-- Raised by the arm of a command that is not modelled yet, by its mnemonic. Safe: nothing can be proved of a run through it. -/
  | notModelled (mnemonic : String)
deriving DecidableEq, Repr

/-- The machine: the commands that wait (first in, first out), the memories around the gateway, and the gateway. -/
structure State where
  /-- Commands that wait, oldest first. -/
  pending : List Instr
  /-- The memories the gateway reads and writes, as one sparse table (`memKey`). -/
  mem : List Host.Cell
  /-- The gateway. -/
  dev : Dev
deriving DecidableEq, Repr

/-- The machine right after power-on: no command waits, no byte of memory is listed. -/
def State.reset : State := { pending := [], mem := [], dev := Dev.reset }

/-- The answer of a meaning. -/
abbrev Res := Host.Outcome State Fault Refusal

end Sys2Proof.Machine
end

