-- ==== Sys2Proof/Machine/Ops.lean ====
section
/-! DEFINITION. The named operations over the registers, the counters, the ports and the memories, and what every family uses:
which units are enabled, how a register write is taken field by field, how an alarm occurrence is recorded. -/

namespace Sys2Proof.Machine

open Sys2Proof

/-! ### Lifting a change of the gateway to the machine -/

/-- A change of the gateway alone: the queue and the memories stay. -/
def State.onDev (s : State) (f : Dev → Dev) : State := { s with dev := f s.dev }

/-- A change of the gateway and of the memories around it: the queue stays. -/
def State.onBoth (s : State) (f : Dev → List Host.Cell → Dev × List Host.Cell) : State :=
  { s with dev := (f s.dev s.mem).1, mem := (f s.dev s.mem).2 }

/-! ### Tables of two versions -/

/-- The image of version or page v. -/
def Images.at_ (x : Images) (v : Nat) : List Byte := if v = 0 then x.img0 else x.img1

/-- Put an image at version or page v. -/
def Images.put (x : Images) (v : Nat) (img : List Byte) : Images := if v = 0 then { x with img0 := img } else { x with img1 := img }

/-! ### Registers and fields -/

/-- The word at a key: a BAR0 register or a table word. -/
def Dev.word (d : Dev) (k : Nat) : Word := tabGet resetWord d.words k

/-- Replace the word at a key. -/
def Dev.setWord (d : Dev) (k : Nat) (w : Word) : Dev := { d with words := tabPut resetWord k w d.words }

/-- The value of a field of instance `i`. -/
def Dev.f (d : Dev) (x : Fld) (i : Nat := 0) : Nat := bitsOf (d.word (x.key i)) x.lo x.w

/-- The value of a field read as two's complement. -/
def Dev.sf (d : Dev) (x : Fld) (i : Nat := 0) : Int := signed x.w (d.f x i)

/-- A one-bit field is set. -/
def Dev.on (d : Dev) (x : Fld) (i : Nat := 0) : Bool := d.f x i != 0

/-- Write a field of instance `i`. -/
def Dev.set (d : Dev) (x : Fld) (i v : Nat) : Dev := d.setWord (x.key i) (setBits (d.word (x.key i)) x.lo x.w v)

/-- Write a signed field, held to its range. -/
def Dev.setS (d : Dev) (x : Fld) (i : Nat) (v : Int) : Dev := d.set x i (unsigned x.w (clampS x.w v))

/-- Add to a counter that saturates. -/
def Dev.bump (d : Dev) (x : Fld) (i : Nat) (n : Nat := 1) : Dev := d.set x i (min (d.f x i + n) (2 ^ x.w - 1))

/-- Take from a counter, not below 0. -/
def Dev.drop (d : Dev) (x : Fld) (i : Nat) (n : Nat := 1) : Dev := d.set x i (d.f x i - n)

/-- Put something on a port. -/
def Dev.emit (d : Dev) (o : Out) : Dev := { d with out := d.out ++ [o] }

/-- MSI-X vector v of function f is to be sent: a masked one sets its pending bit, which is one message however often it is set (R66,
log entry 127). -/
def Dev.sendMsix (d : Dev) (f v : Nat) : Dev :=
  if d.msix.masked.contains (f, v) then
    if d.msix.pend.contains (f, v) then d else { d with msix := { d.msix with pend := d.msix.pend ++ [(f, v)] } }
  else d.emit (.msix f v)

/-- Queue a control message toward a peer site. -/
def Dev.send (d : Dev) (site : Nat) (c : Ctl) : Dev := { d.emit (.control site c) with ctlQ := d.ctlQ ++ [(site, c)] }

/-- The next free value. -/
def Dev.freeWord (d : Dev) : Word := Config.free d.freeCtr

/-- A free value has been taken. -/
def Dev.usedFree (d : Dev) : Dev := { d with freeCtr := d.freeCtr + 1 }

/-! ### Structured maps -/

/-- The part of a ring beside its registers. -/
def Dev.ring (d : Dev) (n : Nat) : RingX := tabGet (fun _ => RingX.empty) d.rings n
/-- Replace it. -/
def Dev.setRing (d : Dev) (n : Nat) (r : RingX) : Dev := { d with rings := tabPut (fun _ => RingX.empty) n r d.rings }
/-- The part of a completion queue beside its registers. -/
def Dev.cq (d : Dev) (q : Nat) : CqX := tabGet (fun _ => CqX.empty) d.cqs q
/-- Replace it. -/
def Dev.setCq (d : Dev) (q : Nat) (r : CqX) : Dev := { d with cqs := tabPut (fun _ => CqX.empty) q r d.cqs }
/-- The active set of a courier channel. -/
def Dev.courier (d : Dev) (c : Nat) : CourierX := tabGet (fun _ => CourierX.empty) d.couriers c
/-- Replace it. -/
def Dev.setCourier (d : Dev) (c : Nat) (r : CourierX) : Dev := { d with couriers := tabPut (fun _ => CourierX.empty) c r d.couriers }
/-- A stream context. -/
def Dev.ctx (d : Dev) (c : Nat) : Ctx := tabGet (fun _ => Ctx.empty) d.ctxs c
/-- Replace it. -/
def Dev.setCtx (d : Dev) (c : Nat) (x : Ctx) : Dev := { d with ctxs := tabPut (fun _ => Ctx.empty) c x d.ctxs }
/-- Change a context. -/
def Dev.onCtx (d : Dev) (c : Nat) (g : Ctx → Ctx) : Dev := d.setCtx c (g (d.ctx c))
/-- A peer's lease. -/
def Dev.peer (d : Dev) (p : Nat) : PeerX := tabGet (fun _ => PeerX.empty) d.peers p
/-- Replace it. -/
def Dev.setPeer (d : Dev) (p : Nat) (x : PeerX) : Dev := { d with peers := tabPut (fun _ => PeerX.empty) p x d.peers }
/-- A plain count in a table of counts. -/
def countOf (t : List (Nat × Nat)) (k : Nat) : Nat := tabGet (fun _ => 0) t k
/-- Set a count. -/
def setCount (t : List (Nat × Nat)) (k v : Nat) : List (Nat × Nat) := tabPut (fun _ => 0) k v t

/-! ### Units -/

/-- Wing `w` is present by manufacture (Table 0.4). -/
def Dev.wingPresent (d : Dev) (w : Nat) : Bool := (d.f R.GLOBAL_ID.WING_MASK).testBit w && w < 4

/-- Quarter `q` is fenced (R374). -/
def Dev.fenced (d : Dev) (q : Nat) : Bool := (d.f R.HEALTH_FENCE.FENCED).testBit q

/-- Wing `w` is an enabled wing (R7). -/
def Dev.wingEnabled (d : Dev) (w : Nat) : Bool := d.wingPresent w && !d.fenced w

/-- The enabled wings, ascending (R7). -/
def Dev.enabledWings (d : Dev) : List Nat := (List.range 4).filter d.wingEnabled

/-- The next enabled wing after `w` in cyclic ascending order (R95, R156). -/
def Dev.nextWing (d : Dev) (w : Nat) : Nat :=
  match d.enabledWings.filter (fun v => w < v) with
  | v :: _ => v
  | [] => d.enabledWings.headD w

/-- The quarter of a carrier (R1, R2). -/
def carrierWing (m : Nat) : Nat := m / 32

/-- The engine of a carrier (R2). -/
def carrierEngine (m : Nat) : Nat := m / 16

/-- The anchor carrier of engine `e` has index 0 (R2). -/
def isAnchor (m : Nat) : Bool := m % 16 == 0

/-- Boot has reached READY (R359; Table 13.4). -/
def Dev.ready (d : Dev) : Bool := d.f R.SYS_BOOT.STATE == 4

/-- A BAR0 offset of the SYSTEM registers of Table 13.7 or of the CURATOR block, served before READY (R359). -/
def earlyKey (k : Nat) : Bool :=
  (0xF00000 ≤ k && k < 0xF04000) || (0xF10000 ≤ k && k < 0xF20000) || (0x100000 ≤ k && k < 0x200000)

/-- BAR0 accepts an access to this offset now (R359). -/
def Dev.barOpen (d : Dev) (k : Nat) : Bool := d.ready || (d.pcieUp && earlyKey k)

/-- A block reset of unit `u` of block `b` is running: it may not be taken out of quiesce (R369). -/
def Dev.blkHeld (d : Dev) (b u : Nat) : Bool :=
  d.on R.SYS_BLK_RST.GO && d.f R.SYS_BLK_RST.BLOCK == b && d.f R.SYS_BLK_RST.UNIT == u

/-! ### Memory spaces -/

/-- The key of an address in a space: 0 HBM, 1 + w the SRAM of wing w, 16 + f host memory of function f, 4096 + ep the memory
behind fabric endpoint ep. -/
def memKey (space addr : Nat) : Nat := space * 2 ^ 64 + addr % 2 ^ 64

/-- Host memory of a function. -/
def hostSpace (f : Nat) : Nat := 16 + f

/-- Memory behind a fabric endpoint. -/
def epSpace (ep : Nat) : Nat := 4096 + ep

/-- The space a ring, a queue or a window lies in: `loc` as Table 1.7 (window) has it inverted, so the caller says which. -/
def nodeSpace (host : Bool) (node : Nat) : Nat := if host then hostSpace node else epSpace node

/-! ### Time -/

/-- The timebase in whole nanoseconds (R191: the fraction truncated). -/
def Dev.tai (d : Dev) : Nat := d.tb / 65536

/-- NS40 (R191). -/
def Dev.ns40 (d : Dev) : Nat := d.tai % 2 ^ 40

/-- The signed difference of two NS40 values. -/
def diff40 (a b : Nat) : Int := signed 40 (a + 2 ^ 40 - b % 2 ^ 40)

/-- The signed difference of two 32-bit sequence numbers (R166). -/
def diff32 (a b : Nat) : Int := signed 32 (a + 2 ^ 32 - b % 2 ^ 32)

/-- a lies before b (R166). -/
def before32 (a b : Nat) : Bool := diff32 a b < 0

/-- Ticks since an earlier moment. -/
def Dev.since (d : Dev) (t : Nat) : Nat := d.now - t

/-! ### Register writes, field by field (R9, R11, R402) -/

/-- The bits of the word an access covers (R9). -/
def laneMask : Lanes → Word
  | .full => 0xFFFFFFFFFFFFFFFF
  | .lo => 0x00000000FFFFFFFF
  | .hi => 0xFFFFFFFF00000000

/-- The word as it would stand if every covered bit took the value written. -/
def mergeLanes (l : Lanes) (old new : Word) : Word := (old &&& ~~~(laneMask l)) ||| (new &&& laneMask l)

/-- The field value written by an access, and whether the access covers any bit of the field. -/
def covers (l : Lanes) (x : LField) : Bool := bitsOf (laneMask l) x.lo x.w != 0

/-- What one field of a register takes from a write (R11, R402): the word so far, and whether BUSY is logged. `dis` says that the
owning block is disabled before the access. -/
def writeField (dis : Bool) (l : Lanes) (old new : Word) (acc : Word × Bool) (x : LField) : Word × Bool :=
  let cur := bitsOf old x.lo x.w
  let v := bitsOf (mergeLanes l old new) x.lo x.w
  match x.kind with
  | .ro => acc
  | .cmd => acc
  | .live => (setBits acc.1 x.lo x.w v, acc.2)
  | .epoch => (setBits acc.1 x.lo x.w v, acc.2)
  | .static =>
    if v = cur then acc
    else if dis then (setBits acc.1 x.lo x.w v, acc.2)
    else (acc.1, true)
  | .w1c => (setBits acc.1 x.lo x.w (cur &&& (2 ^ x.w - 1 - bitsOf (new &&& laneMask l) x.lo x.w)), acc.2)
  | .cnt =>
    if covers l x && bitsOf (new &&& laneMask l) x.lo x.w == 0 then (setBits acc.1 x.lo x.w 0, acc.2) else acc

/-- A whole register word under a write: every field by its own class; reserved bits stay (R10). -/
def writeWord (fields : List LField) (dis : Bool) (l : Lanes) (old new : Word) : Word × Bool :=
  fields.foldl (writeField dis l old new) (old, false)

/-- Write the register at a key field by field; the second part says whether BUSY must be logged. -/
def Dev.writeFields (d : Dev) (key : Nat) (dis : Bool) (l : Lanes) (new : Word) : Dev × Bool :=
  match findReg layout key with
  | none => (d, false)
  | some (r, _) =>
    let p := writeWord r.fields dis l (d.word key) new
    (d.setWord key p.1, p.2)

/-- As `writeFields`, logging BUSY in the field given. -/
def Dev.writeReg (d : Dev) (key : Nat) (dis : Bool) (l : Lanes) (new : Word) (busy : Fld) (i : Nat := 0) : Dev :=
  let p := d.writeFields key dis l new
  if p.2 then p.1.set busy i 1 else p.1

/-- The bits of a write that an access carries: 0 outside the lanes. -/
def laneData (l : Lanes) (new : Word) : Word := new &&& laneMask l

/-- A field's value in the data of a write, 0 where the access does not cover it. -/
def wrote (l : Lanes) (new : Word) (x : Fld) : Nat := bitsOf (laneData l new) x.lo x.w

/-! ### E-class fields (R12 to R14) -/

/-- The E-class fields: PROV_MODE of wings 0 to 3, ITIN_CTL.MODE (4), SYS_PWR.PROFILE (5). -/
def epochFld (c : Nat) : Fld × Nat :=
  if c < 4 then (R.TOUR_CTL.PROV_MODE, c) else if c = 4 then (R.ITIN_CTL.MODE, 0) else (R.SYS_PWR.PROFILE, 0)

/-- A write has changed shadows of E-class fields: the value before the first write of this tick is kept, for a boundary in the same
tick. -/
def Dev.shadowsFrom (d old : Dev) : Dev :=
  (List.range 6).foldl (fun (a : Dev) c =>
    let x := epochFld c
    if old.f x.1 x.2 = a.f x.1 x.2 || a.shadowAt.any (fun e => e.1 == c && e.2.1 == a.now) then a
    else { a with shadowAt := (a.shadowAt.filter (fun e => e.1 != c)) ++ [(c, a.now, old.f x.1 x.2)] }) d

/-- What a boundary event makes of E-class field c: its shadow, but of a write accepted in the same cycle only what stood before it. -/
def Dev.shadow (d : Dev) (c : Nat) : Nat :=
  match d.shadowAt.find? (fun e => e.1 == c && e.2.1 == d.now) with
  | some e => e.2.2
  | none => d.f (epochFld c).1 (epochFld c).2

/-- The tour-phase boundary of wing w: PROV_MODE takes effect while the wing's engine is enabled (R12, R14; which events are that
boundary: DESIGN CHOICE, log entry 85). -/
def Dev.phaseBoundary (d : Dev) (w : Nat) : Dev :=
  if d.on R.TOUR_CTL.ENABLE w then { d with provMode := d.provMode.mapIdx (fun i v => if i = w then d.shadow i else v) } else d

/-! ### Select-and-data tables (R15, R16) -/

/-- The key of word w of entry i of table t. -/
def tblKey (t i w : Nat) : Nat := 2 ^ 26 * (t + 1) + 16 * i + w

/-- With AUTOINC set, WORD advances after an access, and after the last word of an entry INDEX advances (R15). -/
def Dev.selNext (d : Dev) (auto word index : Fld) (words : Nat) : Dev :=
  if d.on auto then
    if d.f word + 1 < words then d.set word 0 (d.f word + 1) else (d.set word 0 0).set index 0 (d.f index + 1)
  else d

/-- The entries of table t whose word 0 does not hold its reset value, ascending: only such an entry can be valid. -/
def Dev.listed (d : Dev) (t : Nat) : List Nat :=
  d.words.filterMap (fun p => if tblKey t 0 0 ≤ p.1 && p.1 < tblKey (t + 1) 0 0 && p.1 % 16 == 0 then some ((p.1 - tblKey t 0 0) / 16) else none)

/-- Curator firmware runs (R370, R373). -/
def Dev.fwRuns (d : Dev) : Bool := d.on R.CUR_STATE.ALIVE

/-! ### The recovery bound (R376) -/

/-- The recovery is over when nothing it watches is left: LAST, MAX and OVER follow it. -/
def Dev.recoverEnd (d : Dev) (r : Recovery) : Dev :=
  if !(r.ctxs.isEmpty && r.reqs.isEmpty) then { d with recovery := some r }
  else
    let d1 := { d with recovery := none }
    if r.worst = 0 then d1
    else
      let us := min (r.worst / 1000) (2 ^ 24 - 1)
      let d2 := (d1.set R.HEALTH_RECOV.LAST 0 us).set R.HEALTH_RECOV.MAX 0 (max (d1.f R.HEALTH_RECOV.MAX) us)
      if 250000 + r.srtt < r.worst then d2.bump R.HEALTH_RECOV.OVER 0 else d2

/-- A watched request that is outstanding no more, failed or withdrawn with what it served, is watched no more. -/
def Dev.recoverSweep (d : Dev) : Dev :=
  match d.recovery with
  | none => d
  | some r =>
    if r.reqs.all (fun t => d.reqs.any (fun (q : Req) => q.tag == t)) then d
    else d.recoverEnd { r with reqs := r.reqs.filter (fun t => d.reqs.any (fun (q : Req) => q.tag == t)) }

/-- A fault is detected: the contexts that held unreceipted segments on what it removed, and the memory requests it affected, are
watched. A fault that overlaps the recovery of another is not measured. -/
def Dev.recoverStart (d : Dev) (pick : Nat → LogEnt → Bool) (reqs : List Nat) : Dev :=
  let d := d.recoverSweep
  if d.recovery.isSome then d
  else
    let hit := d.ctxs.filterMap (fun e =>
      let l := (e.2.log.filter (fun g => !g.receipted && pick e.1 g)).map (·.seq)
      if l.isEmpty then none else some (e.1, l))
    if hit.isEmpty && reqs.isEmpty then d
    else { d with recovery := some ⟨d.now, hit, reqs, 0, (hit.map (fun e => (d.ctx e.1).srtt)).foldl max 0⟩ }

/-- Context c has taken a receipt: its part is recovered once every segment watched is receipted. -/
def Dev.recoverRcpt (d : Dev) (c : Nat) : Dev :=
  match d.recovery with
  | none => d
  | some r =>
    match r.ctxs.find? (fun e => e.1 == c) with
    | none => d
    | some (_, l) =>
      if (d.ctx c).log.any (fun g => !g.receipted && l.contains g.seq) then d
      else d.recoverEnd { r with ctxs := r.ctxs.filter (fun (e : Nat × List Nat) => e.1 != c), worst := max r.worst (d.now - r.td) }

/-- A memory request is answered. -/
def Dev.recoverReq (d : Dev) (tag : Nat) : Dev :=
  match d.recovery with
  | none => d
  | some r =>
    if r.reqs.contains tag then d.recoverEnd { r with reqs := r.reqs.filter (· != tag), worst := max r.worst (d.now - r.td) } else d

/-- A context drops its retention: nothing of it is watched any more. -/
def Dev.recoverGone (d : Dev) (c : Nat) : Dev :=
  match d.recovery with
  | none => d
  | some r =>
    if r.ctxs.any (fun e => e.1 == c) then d.recoverEnd { r with ctxs := r.ctxs.filter (fun (e : Nat × List Nat) => e.1 != c) } else d

/-! ### Alarms (R377 to R379) -/

/-- The quarter a clock domain belongs to (R363, R364). -/
def domainQuarter (k : Nat) : Option Nat :=
  if k < 4 then some k else if 5 ≤ k ∧ k < 13 then some ((k - 5) / 2) else if 15 ≤ k ∧ k < 19 then some (k - 15) else none

/-- The quarter of a unit of a margin kind (Table 14.7). -/
def marginQuarter (kind u : Nat) : Option Nat :=
  match kind with
  | 2 => some (u / 32)
  | 3 => some (u / 2)
  | _ => if u < 4 then some u else none

/-- The wing a pool is homed on (R183). -/
def Dev.poolHome (d : Dev) (p : Nat) : Nat :=
  if d.f R.BPM_POOL_CFG.LOC p < 4 then d.f R.BPM_POOL_CFG.LOC p else d.f R.BPM_POOL_BASE.BASE p / 2 ^ 37

/-- The quarter a unit of an alarm lies in, where it lies in one (R374). A margin's unit stands in DETAIL (Table 14.4), a path lies on an
engine of this gateway, a pool in its home quarter. -/
def Dev.alarmQuarter (d : Dev) (k : AlarmKey) (detail : Nat) : Option Nat :=
  match k.uclass with
  | 0 => if k.cond = 0x060 ∨ k.cond = 0x061 then marginQuarter (detail % 4) (detail / 4 % 128) else none
  | 1 => if k.cond = 0x021 then none else some k.unit
  | 2 => some k.unit
  | 3 => some (k.unit / 2)
  | 4 => some (k.unit / 32)
  | 5 => some (k.unit / 2)
  | 7 => some (k.unit / 10)
  | 11 => some (d.poolHome k.unit)
  | 13 => some (if k.unit < 128 then k.unit / 32 else k.unit % 8 / 2)
  | 14 => domainQuarter k.unit
  | _ => none

/-- A window just opened. -/
def Dev.newWin (d : Dev) (k : AlarmKey) (level kind detail peers : Nat) : AlarmWin :=
  { key := k, level := level, kind := kind, coal := d.f R.HEALTH_CTL.COAL_US, first := d.tai, firstTick := d.now, lastTick := d.now, count := 1,
    detail := detail % 2 ^ 32, peers := peers }

/-- One more occurrence in a window (R377: COUNT; it saturates). -/
def Dev.moreWin (d : Dev) (w : AlarmWin) (peers : Nat) : AlarmWin :=
  { w with count := min (w.count + 1) (2 ^ 32 - 1), lastTick := d.now, peers := w.peers ||| peers }

/-- An occurrence of an alarm (R377, R378, R379; conditions of units inside a fenced quarter are no longer raised, R374). -/
def Dev.alarm (d : Dev) (uclass unit cond level detail : Nat) (kind : Nat := 0) (peers : Nat := 0) : Dev :=
  let k : AlarmKey := ⟨uclass, unit, cond⟩
  if (match d.alarmQuarter k detail with | some q => d.fenced q | none => false) then d
  else if d.alarms.any (fun (w : AlarmWin) => w.key == k) then
    { d with alarms := d.alarms.map (fun w => if w.key == k then d.moreWin w peers else w) }
  else if d.alarms.length < 512 then { d with alarms := d.alarms ++ [d.newWin k level kind detail peers] }
  else
    let d := d.bump R.HEALTH_ALM_DROP.OVERFLOW 0
    match d.overflow with
    | none => { d with overflow := some (d.newWin ⟨0, 0, 0x0FF⟩ 1 2 cond 0) }
    | some w => { d with overflow := some (d.moreWin w 0) }

/-! ### Junctions (R367, R368) -/

/-- SYS_TEMP of quarter q. -/
def tempFld (q : Nat) : Fld := { R.SYS_TEMP.TQ0 with lo := 16 * q }

/-- THROTTLE_C in 0.1 °C: outside 85 to 115 it acts as 105. -/
def Dev.throttleC (d : Dev) : Int :=
  let t := d.f R.SYS_PWR.THROTTLE_C
  if t < 85 ∨ 115 < t then 1050 else ((10 * t : Nat) : Int)

/-- Quarters of present wings whose junction is at or above THROTTLE_C. -/
def Dev.hotWings (d : Dev) : List Nat := (List.range 4).filter (fun q => d.wingPresent q && decide (d.throttleC ≤ d.sf (tempFld q) 0))

/-- The junction of quarter q reaches THROTTLE_C: the adaptive profile throttles the wing, fixed voltage only reports it (R367); a fenced
quarter does neither (R374). -/
def Dev.junctionHot (d : Dev) (q : Nat) : Dev :=
  if d.fenced q then d
  else if d.profile = 1 then (d.set R.SYS_PWR_ERR.THERM_FIX 0 1).alarm 1 q 0x023 1 0
  else { d.set R.SYS_PWR_ERR.THROTTLED 0 1 with throttled := d.throttled.filter (· != q) ++ [q] }

/-- The profile takes effect (R12, R367): fixed voltage holds every rail at nominal and throttles nothing; adaptive, entered while junctions
are at THROTTLE_C, throttles their wings. -/
def Dev.takeProfile (d : Dev) : Dev :=
  let p := d.shadow 5
  if p = 1 then { d with profile := p, rails := [], throttled := [] }
  else
    let d1 := { d with profile := p }
    if d.profile = 1 then d1.hotWings.foldl (fun (a : Dev) q => a.junctionHot q) d1 else d1

end Sys2Proof.Machine
end

