-- ==== Sys2Proof/Machine/Lrm.lean ====
section
/-! DEFINITION. The LRM transport (R329 to R339): egress, frames, packets waiting on the ports, outstanding requests, meters, and the
reads and writes of host and endpoint memory that every other unit asks for. -/

namespace Sys2Proof.Machine

open Sys2Proof

/-! ### Egress (R329, R330) -/

/-- H of R330. -/
def Dev.egressHash (d : Dev) (ep t : Nat) : Nat := Config.keyedHash (d.hashKeys.getD 1 0) (beBytes 3 ep ++ beBytes 2 t)

/-- Logical ports that a port mode creates (Table 12.1). -/
def modePorts (mode : Nat) : Nat := match mode with | 0 => 1 | 1 => 2 | _ => 4

/-- Logical port p exists. -/
def Dev.lportExists (d : Dev) (p : Nat) : Bool := p < 128 && p % 4 < modePorts (d.f R.FAB_PORT_CFG.MODE (p / 4))

/-- Logical port p is up (R330). -/
def Dev.lportUp (d : Dev) (p : Nat) : Bool := d.lportExists p && (d.f R.FAB_PORT_STAT.UP (p / 4)).testBit (p % 4)

/-- The egress set (R330). -/
def Dev.egress (d : Dev) : List Nat := (List.range 128).filter (fun p => d.lportUp p && d.on R.FAB_PORT_CFG.EN (p / 4))

/-- The logical port of packets to an endpoint for a tenant; none while the egress set is empty. -/
def Dev.egressPort (d : Dev) (ep t : Nat) : Option Nat :=
  let u := d.egress
  u[d.egressHash ep t % u.length]?

/-- Rate of a logical port in 0.1 Gb/s (Table 12.1). -/
def Dev.portRate (d : Dev) (p : Nat) : Nat :=
  match d.f R.FAB_PORT_CFG.MODE (p / 4) with | 0 => 16000 | 1 => 8000 | 2 => 4000 | _ => 2000

/-! ### Frames (R331, Table 12.2) -/

/-- The ones' complement sum of 16-bit words, folded to 16 bits. -/
def onesSum (l : List Byte) : Nat :=
  let s := ((chunksOf 2 l).map (fun w => ofBE (slice w 0 2))).sum
  if s = 0 then 0 else (s - 1) % 65535 + 1

/-- The Internet checksum as it is sent in UDP: never 0. -/
def udpChecksum (l : List Byte) : Nat :=
  let c := 65535 - onesSum l
  if c = 0 then 65535 else c

/-- FAB_PREFIX: 13 bytes. -/
def Dev.fabPrefix (d : Dev) : List Byte := beBytes 8 (d.f R.FAB_ADDR0.PREFIX_HI) ++ beBytes 5 (d.f R.FAB_ADDR1.PREFIX_LO)

/-- The IPv6 address of an endpoint. -/
def Dev.fabAddr (d : Dev) (ep : Nat) : List Byte := d.fabPrefix ++ beBytes 3 ep

/-- CRC-32 of IEEE 802.3. -/
def crc32Ieee (l : List Byte) : BitVec 32 := ~~~(l.foldl (crcByte 0xEDB88320) 0xFFFFFFFF)

/-- The LRM header (Table 12.2). -/
def lrmHeader (typ tenant tag addr : Nat) : List Byte :=
  beBytes 1 (0x10 + typ % 16) ++ beBytes 1 0 ++ beBytes 2 (tenant % 1024) ++ beBytes 4 tag ++ beBytes 8 addr

/-- The UDP checksum input: pseudo-header and segment. -/
def pseudoHeader (src dst : List Byte) (udp : List Byte) : List Byte :=
  src ++ dst ++ beBytes 4 udp.length ++ zeros0 3 ++ beBytes 1 17 ++ udp
where
  /-- Zero bytes. -/
  zeros0 (n : Nat) : List Byte := List.replicate n 0

/-- The whole frame of a packet that leaves now (R331). -/
def Dev.lrmFrame (d : Dev) (q : LrmOut) : List Byte :=
  let h := d.egressHash q.ep q.tenant
  let src := d.fabAddr (d.f R.FAB_SELF.SELF_EP)
  let dst := d.fabAddr q.ep
  let body := lrmHeader q.typ q.tenant q.tag q.addr ++ q.payload
  let len := 8 + body.length
  let udp0 := beBytes 2 (0xC000 + h % 2 ^ 14) ++ beBytes 2 (d.f R.FAB_ADDR1.UDP) ++ beBytes 2 len
  let ck := udpChecksum (pseudoHeader src dst (udp0 ++ beBytes 2 0 ++ body))
  let udp := udp0 ++ beBytes 2 ck ++ body
  let tc := d.f R.FAB_SELF.DSCP * 4 + (if q.ce then 3 else 2)
  let ip := beBytes 4 (6 * 2 ^ 28 + tc * 2 ^ 20 + h % 2 ^ 20) ++ beBytes 2 len ++ beBytes 1 17 ++ beBytes 1 (d.f R.FAB_SELF.HOP) ++ src ++ dst
  let fr := beBytes 6 (d.f R.FAB_NH.MAC) ++ beBytes 6 (d.f R.FAB_MAC.MAC) ++ beBytes 2 0x86DD ++ ip ++ udp
  fr ++ leBytes 4 (crc32Ieee fr).toNat

/-- L of R342 for a packet: its frame and the overhead. -/
def Dev.lrmLen (d : Dev) (q : LrmOut) : Nat := 14 + 40 + 8 + 16 + q.payload.length + 4 + d.f R.FAB_CTL.OVERHEAD

/-! ### WFQ tags (R341) -/

/-- The signed 48-bit difference of two tags. -/
def diff48 (a b : Nat) : Int := signed 48 (a + 2 ^ 48 - b % 2 ^ 48)

/-- WFQ state of a selector. -/
def Dev.wfqOf (d : Dev) (k : Nat) : WfqX := tabGet (fun _ => WfqX.zero) d.wfq k
/-- Replace it. -/
def Dev.setWfq (d : Dev) (k : Nat) (x : WfqX) : Dev := { d with wfq := tabPut (fun _ => WfqX.zero) k x d.wfq }

/-- Queue i of selector k becomes non-empty: T_i = V. -/
def Dev.wfqWake (d : Dev) (k i : Nat) : Dev :=
  let x := d.wfqOf k
  d.setWfq k { x with t := tabPut (fun _ => 0) i x.v x.t }

/-- Selector of level 4 for a tenant of an entity. -/
def wfqInner (ent tenant : Nat) : Nat := 256 + 1024 * ent + tenant

/-! ### Packets on a port -/

/-- Packets waiting on a logical port. -/
def Dev.portQueue (d : Dev) (p : Nat) : List LrmOut := tabGet (fun _ => []) d.portQ p
/-- Replace them. -/
def Dev.setPortQueue (d : Dev) (p : Nat) (l : List LrmOut) : Dev := { d with portQ := tabPut (fun _ => []) p l d.portQ }

/-- PTP messages waiting on a logical port (Table 12.5, level 1). -/
def Dev.ptpQueue (d : Dev) (p : Nat) : List PtpOut := tabGet (fun _ => []) d.ptpQ p
/-- Replace them. -/
def Dev.setPtpQueue (d : Dev) (p : Nat) (l : List PtpOut) : Dev := { d with ptpQ := tabPut (fun _ => []) p l d.ptpQ }

/-- A logical port discards what waits on it (R330). -/
def Dev.discardPort (d : Dev) (p : Nat) : Dev := (d.setPortQueue p []).setPtpQueue p []

/-- Flow index of a packet at level 4 (R341): endpoint and direction, reads even, writes odd. -/
def LrmOut.flow (q : LrmOut) : Nat := 2 * q.ep + (if q.typ = 3 then 1 else 0)

/-- Queue a packet on a port (R335): CE when the queued bytes stand at or above the threshold. -/
def Dev.enqueue (d : Dev) (p : Nat) (q : LrmOut) : Dev :=
  let old := d.portQueue p
  let mark := decide (1024 * d.f R.FAB_ECN.THR ≤ (old.map d.lrmLen).sum)
  let d1 := if old.all (fun x => x.tenant != q.tenant) then d.wfqWake p q.tenant else d
  let d2 := if old.all (fun x => !(x.tenant == q.tenant && x.flow == q.flow)) then d1.wfqWake (wfqInner p q.tenant) q.flow else d1
  let d3 := if mark then d2.bump R.FAB_PORT_CNT.CE (p / 4) else d2
  d3.setPortQueue p (old ++ [{ q with ce := mark, at_ := d.now }])

/-! ### Meters (R338) -/

/-- A full meter of a tenant. -/
def Dev.meterFull (d : Dev) (t : Nat) : Meter := ⟨d.f R.FTEN.CBS t * 1024 * 800, d.f R.FTEN.PBS t * 1024 * 800, d.now⟩

/-- A tenant's meter brought up to now, at the rates and sizes that have stood since it was last brought up; it is full at the enable. -/
def Dev.meterNow (d : Dev) (t : Nat) : Meter :=
  let full := d.meterFull t
  match d.meters.find? (fun e => e.1 == t) with
  | none => full
  | some (_, x) =>
    let dt := d.now - x.since
    ⟨min full.tc (x.tc + d.f R.FTEN.CIR t * dt), min full.tp (x.tp + d.f R.FTEN.PIR t * dt), d.now⟩

/-- Keep a tenant's meter. -/
def Dev.setMeter (d : Dev) (t : Nat) (x : Meter) : Dev := { d with meters := tabIns t x d.meters }

/-- Meter an accepted packet of B bytes: the gateway, and whether it is red (R338, Table 12.4). -/
def Dev.meter (d : Dev) (t b : Nat) : Dev × Bool :=
  if d.on R.FTEN.EN t then
    let x := d.meterNow t
    if x.tp < b * 800 then ((d.setMeter t x).bump R.FTEN.RED t b, true)
    else if x.tc < b * 800 then ((d.setMeter t { x with tp := x.tp - b * 800 }).bump R.FTEN.YELLOW t b, false)
    else ((d.setMeter t { x with tp := x.tp - b * 800, tc := x.tc - b * 800 }).bump R.FTEN.GREEN t b, false)
  else (d.bump R.FTEN.GREEN t b, false)

/-- 2^READ_MAX_LOG with its bounds. -/
def Dev.readMax (d : Dev) : Nat := 2 ^ (max 8 (min 13 (d.f R.FAB_CTL.READ_MAX_LOG)))

/-- New READ_REQs of a tenant may be issued now (R339). -/
def Dev.mayRead (d : Dev) (t : Nat) : Bool := !d.on R.FTEN.EN t || decide (d.readMax * 800 ≤ (d.meterNow t).tp)

/-! ### Memory requests (R332, R334) -/

/-- Transmit a request: one attempt on its present egress port. With no port up it is lost and sent again on the timer. -/
def Dev.transmit (d : Dev) (q : Req) : Dev :=
  match d.egressPort q.node q.tenant with
  | none => d
  | some p => d.enqueue p
      { typ := if q.write then 3 else 1, tenant := q.tenant, ep := q.node, tag := q.tag, addr := q.addr,
        payload := if q.write then q.data else beBytes 4 q.len, ce := false, at_ := d.now }

/-- FAB_RETRY.RTO in ns as a use of it takes it (R13, R334). -/
def Dev.lrmRto (d : Dev) : Nat := max (d.f R.FAB_RETRY.RTO) 1 * 1000

/-- Ask for memory: a PCIe read or posted write, or an LRM READ_REQ or WRITE of at most 8,192 bytes (R332). A posted write needs
no answer. A READ_REQ of a tenant without tokens waits (R339). -/
def Dev.request (d : Dev) (use : ReqUse) (write host : Bool) (node addr len : Nat) (data : List Byte) (tenant : Nat) : Dev :=
  let go := write || host || d.mayRead tenant
  let q : Req := { tag := d.nextTag, use := use, write := write, host := host, node := node, addr := addr, len := len,
                   data := data, parts := [], tenant := tenant, attempts := if go then 1 else 0, sentAt := d.now,
                   rto := d.lrmRto }
  let d1 := { d with nextTag := (d.nextTag + 1) % 2 ^ 32 }
  if write && host then d1.emit (.hostWrite node addr data)
  else
    let d2 := { d1 with reqs := d1.reqs ++ [q] }
    if host then d2.emit (.hostRead q.tag node addr len) else if go then d2.transmit q else d2

/-- READ_REQs held back by a meter that has tokens again are issued (R339). -/
def Dev.releaseReads (d : Dev) : Dev :=
  (d.reqs.filter (fun q => q.attempts == 0)).foldl (fun (a : Dev) (q : Req) =>
    if a.mayRead q.tenant then
      ({ a with reqs := a.reqs.map (fun (r : Req) => if r.tag = q.tag then { r with attempts := 1, sentAt := a.now, rto := a.lrmRto } else r) }).transmit q
    else a) d

/-- The bytes of a write for this use are in an endpoint's memory only once it acknowledges: a completion record, whose slot keeps what
it held where the write fails (R65), and the signal word behind the records (R66). -/
def ReqUse.atAck (use : ReqUse) : Bool :=
  match use with
  | .record _ => true
  | .signal => true
  | _ => false

/-- A write to a node's memory: host memory takes it at once; toward an endpoint it goes out in WRITEs of at most 8,192 bytes. But for
the uses above the bytes count as in memory from here on (log entry 13). Answers how many acknowledgements are owed. -/
def nodeWrite (use : ReqUse) (host : Bool) (node addr tenant : Nat) (data : List Byte) (d : Dev) (m : List Host.Cell) :
    Dev × List Host.Cell × Nat :=
  let m1 := if use.atAck && !host then m else memWrite m (memKey (nodeSpace host node) addr) data
  if host then (d.request use true true node addr data.length data tenant, m1, 0)
  else
    let cs := (chunksOf 8192 data).mapIdx (fun i c => (i, c))
    (cs.foldl (fun a c => a.request use true false node (addr + 8192 * c.1) c.2.length c.2 tenant) d, m1, cs.length)

end Sys2Proof.Machine
end

