-- ==== Sys2Proof/Machine/Rings.lean ====
section
/-! DEFINITION. Submission rings, doorbells, completion queues and interrupts (R52 to R67): the commands that act on a ring or a
queue without running a descriptor. -/

namespace Sys2Proof.Machine

open Sys2Proof

/-! ### Indices and credit -/

/-- Advance a free-running index. -/
def idxAdd (a n : Nat) : Nat := (a + n) % 2 ^ 32

/-- (a − b) mod 2^32. -/
def idxSub (a b : Nat) : Nat := (a + 2 ^ 32 - b % 2 ^ 32) % 2 ^ 32

/-- Records not yet consumed. -/
def Dev.cqUsed (d : Dev) (q : Nat) : Nat := idxSub (d.f R.CQ_STATE.TAIL q) (d.f R.CQ_STATE.HEAD q)

/-- Slots neither occupied nor reserved (R63). -/
def Dev.cqCredit (d : Dev) (q : Nat) : Nat :=
  2 ^ d.f R.CQ_CTL.SIZE_LOG q - (d.cqUsed q + d.f R.CQ_CREDIT.RESERVED q)

/-- Descriptors between HEAD and TAIL. -/
def Dev.sqFill (d : Dev) (n : Nat) : Nat := idxSub (d.f R.SQ_STATE.TAIL n) (d.f R.SQ_STATE.HEAD n)

/-- The operations of a ring whose record is not written. -/
def Dev.opsOf (d : Dev) (n : Nat) : List Op := d.ops.filter (fun o => o.ring == n)

/-- SQ_CTL.IDLE: no descriptor of the ring is admitted and unfinished; during a teardown it reads 0 (R59). -/
def Dev.ringIdle (d : Dev) (n : Nat) : Bool :=
  (d.ring n).fetched.isEmpty && (d.ring n).reading.isNone && (d.ring n).tear == 0 && (d.opsOf n).isEmpty

/-- Rings whose registers are written, ascending: only such a ring can be enabled. -/
def Dev.ringList (d : Dev) : List Nat :=
  d.words.filterMap (fun p => if 0x800000 ≤ p.1 && p.1 < 0x840000 && (p.1 - 0x800000) % 0x40 == 0 then some ((p.1 - 0x800000) / 0x40) else none)

/-- A record write of the queue still waits for its acknowledgement. -/
def Dev.recordsOut (d : Dev) (q : Nat) : Bool := d.reqs.any (fun r => r.use == .record q)

/-- CQ_CTL.IDLE: RESERVED = 0, no record write is pending (Table 2.6), and no abort or fetch-failure record is owed to the queue (R59, R64). -/
def Dev.cqIdle (d : Dev) (q : Nat) : Bool :=
  d.f R.CQ_CREDIT.RESERVED q == 0 && !d.recordsOut q &&
    !(d.rings.any (fun p => p.2.tear != 0 && d.f R.SQ_CTL.CQ p.1 == q && d.sqFill p.1 != 0))

/-! ### Records, interrupts and signals -/

/-- Host side of a queue: function DST (LOC = 0) or endpoint DST (LOC = 1). -/
def Dev.cqSpace (d : Dev) (q : Nat) : Nat := nodeSpace (d.f R.CQ_CTL.LOC q == 0) (d.f R.CQ_BIND.DST q)

/-- The queue fires (R66). -/
def cqFire (q : Nat) (d : Dev) (m : List Host.Cell) : Dev × List Host.Cell :=
  let d1 := d.setCq q { d.cq q with armed := false, p := 0, timer := none }
  if d.f R.CQ_CTL.LOC q = 0 then (d1.sendMsix (d.f R.CQ_BIND.DST q) (d.f R.CQ_CTL.VECTOR q), m)
  else
    let bytes := leBytes 8 (d.f R.CQ_STATE.TAIL q)
    let r := nodeWrite .signal false (d.f R.CQ_BIND.DST q) (d.f R.CQ_SIG.SIG_ADDR q) (d.f R.CQ_CTL.TENANT q) bytes d1 m
    (r.1, r.2.1)

/-- The coalescing timer as it starts now, with the TIME that R13 gives it for its whole run. -/
def Dev.cqTimer (d : Dev) (q : Nat) : Option (Nat × Nat) := some (d.now, d.f R.CQ_COAL.TIME q)

/-- COUNT, 0 acting as 1. -/
def Dev.cqCount (d : Dev) (q : Nat) : Nat := max (d.f R.CQ_COAL.COUNT q) 1

/-- A record has been written (R66). -/
def cqWritten (q : Nat) (irq : Bool) (d : Dev) (m : List Host.Cell) : Dev × List Host.Cell :=
  let x := d.cq q
  if x.armed then
    let p := x.p + 1
    let d1 := d.setCq q { x with p := p, timer := if p = 1 then d.cqTimer q else x.timer }
    if d.cqCount q ≤ p ∨ irq then cqFire q d1 m else (d1, m)
  else (d, m)

/-- What a completion record carries (Table 2.7), PHASE apart. -/
structure Rec where
  source : Nat
  opcode : Nat
  status : Nat
  detail : Nat
  userTag : Nat
  sq : Nat
  sqHead : Nat
  value : Nat
  index : Nat
  events : Nat
  window : Nat
  irq : Bool
deriving DecidableEq, Repr

/-- PHASE of record i (R65). -/
def phaseOf (sizeLog i : Nat) : Nat := if i / 2 ^ sizeLog % 2 = 0 then 1 else 0

/-- The 32 bytes of record i (Table 2.7). -/
def recBytes (r : Rec) (phase : Nat) : List Byte :=
  leBytes 8 (phase % 2 + 2 * (r.source % 8) + 2 ^ 8 * (r.opcode % 256) + 2 ^ 16 * (r.status % 256) + 2 ^ 24 * (r.detail % 256)
      + 2 ^ 32 * (r.userTag % 2 ^ 32)) ++
  leBytes 8 (r.sq % 4096 + 2 ^ 32 * (r.sqHead % 2 ^ 32)) ++
  leBytes 8 (r.value % 2 ^ 64) ++
  leBytes 8 (r.index % 2 ^ 32 + 2 ^ 32 * (min r.events 0xFFFF) + 2 ^ 48 * (r.window % 65536))

/-- Write one record into a queue (R65): TAIL advances whether or not the write fails, and the retained copy of TAIL follows (R67). A
write that fails (`ok` false) leaves the slot as it was; one toward an endpoint fills its slot when it is acknowledged, and fails as R334
says. The reservation is the caller's. -/
def writeRecord (q : Nat) (r : Rec) (ok : Bool) (d : Dev) (m : List Host.Cell) : Dev × List Host.Cell :=
  let i := d.f R.CQ_STATE.TAIL q
  let sl := d.f R.CQ_CTL.SIZE_LOG q
  let addr := (d.f R.CQ_BASE.ADDR q + 32 * (i % 2 ^ sl)) % 2 ^ 64
  let bytes := recBytes r (phaseOf sl i)
  let host := d.f R.CQ_CTL.LOC q == 0
  let node := d.f R.CQ_BIND.DST q
  let w := if ok then nodeWrite (.record q) host node addr (d.f R.CQ_CTL.TENANT q) bytes d m else (d.set R.CQ_ERR.WRITE q 1, m, 0)
  let d2 := w.1.set R.CQ_STATE.TAIL q (idxAdd i 1)
  cqWritten q r.irq ((d2.set R.RING_RETAIN.TAIL q (idxAdd i 1)).set R.RING_RETAIN.VALID q 1) w.2.1

/-! ### Doorbells -/

/-- A doorbell that names no matching enabled queue (R60). -/
def Dev.dbDrop (d : Dev) : Dev := d.bump R.RING_GERR.DB_DROP 0

/-- An accepted or refused ring doorbell (R61). -/
def Dev.sqDoorbell (d : Dev) (n index : Nat) : Dev :=
  let dd := idxSub index (d.f R.SQ_STATE.HEAD n)
  if d.sqFill n ≤ dd ∧ dd ≤ 2 ^ d.f R.SQ_CTL.SIZE_LOG n then d.set R.SQ_STATE.TAIL n index
  else d.set R.SQ_ERR.DB_RANGE n 1

/-- A ring doorbell from function or endpoint `src` (R59, R60): `loc` 0 through BAR2, 1 as an LRM doorbell message. -/
def Dev.ringDoorbell (d : Dev) (loc src n index : Nat) : Dev :=
  if d.f R.SQ_CTL.LOC n = loc ∧ d.f R.SQ_BIND.SRC n = src then
    if (d.ring n).tear ≠ 0 then d.set R.SQ_ERR.DB_RANGE n 1
    else if d.on R.SQ_CTL.ENABLE n then d.sqDoorbell n index
    else d.dbDrop
  else d.dbDrop

/-- A queue doorbell that reaches an enabled queue (R61, R66). -/
def cqDoorbell (q index : Nat) (d : Dev) (m : List Host.Cell) : Dev × List Host.Cell :=
  if idxSub index (d.f R.CQ_STATE.HEAD q) ≤ d.cqUsed q then
    let d1 := d.set R.CQ_STATE.HEAD q index
    let p := d1.cqUsed q
    let d2 := d1.setCq q { armed := true, p := p, timer := if 0 < p then d.cqTimer q else none }
    if d2.cqCount q ≤ p then cqFire q d2 m else (d2, m)
  else (d.set R.CQ_ERR.DB_RANGE q 1, m)

/-- A queue doorbell from function or endpoint `src` (R60). -/
def queueDoorbell (loc src q index : Nat) (d : Dev) (m : List Host.Cell) : Dev × List Host.Cell :=
  if d.f R.CQ_CTL.LOC q = loc ∧ d.f R.CQ_BIND.DST q = src ∧ d.on R.CQ_CTL.ENABLE q then cqDoorbell q index d m
  else (d.dbDrop, m)

/-- A write that a doorbell page takes: one aligned 8-byte write of the doorbell at `at_` (R60, Table 2.5), after READY (R359). -/
def Dev.doorbellHit (d : Dev) (at_ : Nat) (w : PageWrite) : Bool := d.ready && w.off.val == at_ && w.size == 8

/-- RING_DOORBELL: a write to doorbell page n; SQ_DB stands at 0x000, and a write that is not one
aligned 8-byte write of it has no effect (R60). -/
def execRingDoorbell (f : Fin 256) (n : Fin 4096) (w : PageWrite) (index : BitVec 32) (s : State) : Res :=
  .next (if s.dev.doorbellHit 0 w then s.onDev (fun d => d.ringDoorbell 0 f n index.toNat) else s)

/-- QUEUE_DOORBELL: a write to doorbell page q; CQ_DB stands at 0x008 (R60, R61, R66). -/
def execQueueDoorbell (f : Fin 256) (q : Fin 4096) (w : PageWrite) (index : BitVec 32) (s : State) : Res :=
  .next (if s.dev.doorbellHit 8 w then s.onBoth (queueDoorbell 0 f q index.toNat) else s)

/-! ### Descriptor fetch -/

/-- A ring from which descriptors may be fetched now (R55, R56, TEN_EN). -/
def Dev.canFetch (d : Dev) (n : Nat) : Bool :=
  d.on R.GLOBAL_CTL.TEN_EN && d.on R.SQ_CTL.ENABLE n && d.sqFill n != 0 && (d.ring n).reading.isNone && (d.ring n).tear == 0 &&
    d.cqCredit (d.f R.SQ_CTL.CQ n) != 0

/-- The ring the weighted round robin selects: the last one while it has turns left, else the next in cyclic ascending order
(R55; the order within a round is the model's, log entry 8). -/
def Dev.selectRing (d : Dev) : Option Nat :=
  let c := d.ringList.filter d.canFetch
  if c.contains d.wrr.1 && d.wrr.2 < max (d.f R.SQ_CTL.WEIGHT d.wrr.1) 1 && d.wrr.2 != 0 then some d.wrr.1
  else match c.filter (fun n => d.wrr.1 < n) with
    | n :: _ => some n
    | [] => c.head?

/-- Descriptors one selection takes from ring n: at most BURST, the fill, the queue's credit, and the slots to the ring's end. -/
def Dev.fetchCount (d : Dev) (n : Nat) : Nat :=
  let size := 2 ^ d.f R.SQ_CTL.SIZE_LOG n
  let room := if d.f R.SQ_CTL.LOC n = 0 then 65536 else d.readMax / 64
  min (min (min (max (d.f R.RING_GCTL.BURST) 1) room) (d.sqFill n)) (min (d.cqCredit (d.f R.SQ_CTL.CQ n)) (size - d.f R.SQ_STATE.HEAD n % size))

/-- The address of descriptor slot i of a ring (R55). -/
def Dev.slotAddr (d : Dev) (n i : Nat) : Nat := (d.f R.SQ_BASE.ADDR n + 64 * (i % 2 ^ d.f R.SQ_CTL.SIZE_LOG n)) % 2 ^ 64

/-- Start the fetch of `k` descriptors of ring n: the slots of the completion queue are reserved (R63) and one read is sent. -/
def Dev.fetchFrom (d : Dev) (n k : Nat) : Dev :=
  let tag := d.nextTag
  let d1 := d.bump R.CQ_CREDIT.RESERVED (d.f R.SQ_CTL.CQ n) k
  let d2 := d1.setRing n { d1.ring n with reading := some (tag, k) }
  d2.request (.fetch n) false (d.f R.SQ_CTL.LOC n == 0) (d.f R.SQ_BIND.SRC n) (d.slotAddr n (d.f R.SQ_STATE.HEAD n)) (64 * k) []
    (d.f R.SQ_CTL.TENANT n)

/-- DESCRIPTOR_FETCH (R55, R56, R63): one selection; with no ring to fetch from, nothing happens. -/
def execDescriptorFetch (s : State) : Res :=
  .next (s.onDev (fun d =>
    match d.selectRing with
    | none => d
    | some n =>
      let d1 := d.fetchFrom n (d.fetchCount n)
      { d1 with wrr := (n, if d.wrr.1 = n then d.wrr.2 + 1 else 1) }))

/-- The eight words of a descriptor slot. -/
def descOf (l : List Byte) : Desc :=
  let w := fun i => BitVec.ofNat 64 (leAt l (8 * i) 8)
  ⟨w 0, w 1, w 2, w 3, w 4, w 5, w 6, w 7⟩

/-- Descriptor slots arrive (R55): HEAD advances past them, and they wait to be started in ring order. -/
def Dev.fetchArrive (d : Dev) (n : Nat) (data : List Byte) : Dev :=
  match (d.ring n).reading with
  | none => d
  | some (_, k) =>
    let h := d.f R.SQ_STATE.HEAD n
    let new := (List.range k).map (fun i => (idxAdd h i, descOf (slice data (64 * i) 64)))
    let d1 := d.set R.SQ_STATE.HEAD n (idxAdd h k)
    d1.setRing n { d1.ring n with fetched := (d1.ring n).fetched ++ new, reading := none }

/-- An outstanding descriptor read of a ring is given up: its reservations are released. -/
def Dev.dropFetch (d : Dev) (n : Nat) : Dev :=
  match (d.ring n).reading with
  | none => d
  | some (tag, k) =>
    let d1 := d.drop R.CQ_CREDIT.RESERVED (d.f R.SQ_CTL.CQ n) k
    let d2 := d1.setRing n { d1.ring n with reading := none }
    { d2 with reqs := d2.reqs.filter (fun q => q.tag != tag) }

/-- A teardown ends when no record is owed and no operation is left (R57, R59). -/
def Dev.tearEnd (d : Dev) (n : Nat) : Dev :=
  if (d.ring n).tear ≠ 0 ∧ d.sqFill n = 0 ∧ (d.opsOf n).isEmpty ∧ (d.ring n).fetched.isEmpty then
    (d.setRing n { d.ring n with tear := 0 }).set R.SQ_ABORT.ABORT n 0
  else d

/-- A descriptor read of ring n fails (R58). -/
def Dev.fetchFail (d : Dev) (n : Nat) : Dev :=
  let d1 := ((d.dropFetch n).set R.SQ_ERR.FETCH n 1).set R.SQ_CTL.ENABLE n 0
  (d1.setRing n { d1.ring n with tear := if (d1.ring n).tear = 1 then 1 else 2 }).tearEnd n

/-- FETCH_FAILED (R58): applies to a ring with a descriptor read outstanding. -/
def execFetchFailed (n : Fin 4096) (s : State) : Res :=
  .next (if (s.dev.ring n).reading.isSome then s.onDev (fun d => d.fetchFail n) else s)

/-- The record of a descriptor that was never fetched (R59). -/
def abortRec (d : Dev) (n : Nat) (w : Nat) : Rec :=
  { source := 0, opcode := w % 256, status := 0x0F, detail := if (d.ring n).tear = 1 then 0x40 else 0x41,
    userTag := w / 2 ^ 32, sq := n, sqHead := d.f R.SQ_STATE.HEAD n, value := 0, index := d.f R.SQ_STATE.HEAD n,
    events := 0, window := 0, irq := decide (w / 2 ^ 11 % 2 = 1) }

/-- ABORT_RECORD_WRITE (R57, R58, R59): the next unfetched descriptor of a ring being torn down gets its record once a slot of
its queue is free. Under R57 word +0x00 is read from the ring (`readOk`). A queue disabled since takes it by its registers as they stand
(DESIGN CHOICE, log entry 136). -/
def execAbortRecordWrite (n : Fin 4096) (readOk writeOk : Bool) (s : State) : Res :=
  let d := s.dev
  let q := d.f R.SQ_CTL.CQ n
  if (d.ring n).tear ≠ 0 ∧ d.sqFill n ≠ 0 ∧ d.cqCredit q ≠ 0 then
    .next (s.onBoth (fun d m =>
      let src := memKey (nodeSpace (d.f R.SQ_CTL.LOC n == 0) (d.f R.SQ_BIND.SRC n)) (d.slotAddr n (d.f R.SQ_STATE.HEAD n))
      let aborted := (d.ring n).tear == 1
      let w := if aborted && readOk then ofLE (memRead m src 8) else 0
      let d1 := if aborted && !readOk then d.set R.SQ_ERR.FETCH n 1 else d
      let r := writeRecord q (abortRec d n w) writeOk d1 m
      ((r.1.set R.SQ_STATE.HEAD n (idxAdd (d.f R.SQ_STATE.HEAD n) 1)).tearEnd n, r.2)))
  else .next s

/-! ### Enabling rings and queues -/

/-- The Registrar index of a rank of a job (R23). -/
def Dev.regIndex (d : Dev) (j r : Nat) : Nat := d.f R.JOB.REG_BASE j + r

/-- The Registrar entry of a rank names this gateway's site and rail. -/
def Dev.ownRankHere (d : Dev) (j r : Nat) : Bool :=
  let e := d.regIndex j r
  d.on R.REGISTRAR.VALID e && d.f R.REGISTRAR.SITE e == d.f R.GLOBAL_LOC.SITE && d.f R.REGISTRAR.RAIL e == d.f R.GLOBAL_LOC.RAIL

/-- The checks of R54 on a ring's fields as they stand. -/
def Dev.sqEnableOk (d : Dev) (n : Nat) : Bool :=
  let t := d.f R.SQ_CTL.TENANT n
  let q := d.f R.SQ_CTL.CQ n
  let j := d.f R.SQ_BIND.JOB n
  let sl := d.f R.SQ_CTL.SIZE_LOG n
  6 ≤ sl && sl ≤ 16 && d.f R.SQ_BASE.ADDR n % 4096 == 0 &&
  d.on R.CQ_CTL.ENABLE q && d.f R.CQ_CTL.TENANT q == t &&
  !(d.f R.SQ_CTL.LOC n == 0 && d.f R.SQ_BIND.SRC n != d.f R.TENANT.FUNC t) && d.f R.SQ_CTL.LOC n == d.f R.CQ_CTL.LOC q &&
  d.on R.JOB.VALID j && d.f R.JOB.TENANT j == t && d.f R.SQ_BIND.RANK n < d.f R.JOB.RANKS j &&
  d.ownRankHere j (d.f R.SQ_BIND.RANK n)

/-- A write of SQ_CTL (R11, R53, R54, R57, R59). -/
def Dev.sqCtlWrite (d : Dev) (n : Nat) (l : Lanes) (w : Word) : Dev :=
  let was := d.on R.SQ_CTL.ENABLE n
  let d1 := d.writeReg (R.SQ_CTL.ENABLE.key n) (!was && d.ringIdle n) l w R.SQ_ERR.BUSY n
  if !was && d1.on R.SQ_CTL.ENABLE n then
    if (d.ring n).tear ≠ 0 then (d1.set R.SQ_CTL.ENABLE n 0).set R.SQ_ERR.BUSY n 1
    else if d1.sqEnableOk n then d1
    else (d1.set R.SQ_CTL.ENABLE n 0).set R.SQ_ERR.MISMATCH n 1
  else d1

/-- SQ_CTL_WRITE. -/
def execSqCtlWrite (n : Fin 4096) (l : Lanes) (d : Word) (s : State) : Res :=
  .next (if s.dev.ready then s.onDev (fun x => x.sqCtlWrite n l d) else s)

/-- The checks of R64 on a queue's fields as they stand. -/
def Dev.cqEnableOk (d : Dev) (q : Nat) : Bool :=
  let sl := d.f R.CQ_CTL.SIZE_LOG q
  let f := d.f R.CQ_BIND.DST q
  6 ≤ sl && sl ≤ 16 && d.f R.CQ_BASE.ADDR q % 4096 == 0 &&
  (if d.f R.CQ_CTL.LOC q = 0 then
    f == d.f R.TENANT.FUNC (d.f R.CQ_CTL.TENANT q) && decide (d.f R.CQ_CTL.VECTOR q < Config.msixSize f)
   else d.f R.CQ_SIG.SIG_ADDR q % 8 == 0)

/-- A courier channel uses the queue: it runs or is armed, with records enabled in either set. -/
def Dev.courierUses (d : Dev) (q : Nat) : Bool :=
  (List.range 16).any (fun c => d.f R.CR_CQ.CQ c == q && (d.f R.CR_STAT.STATE c == 1 || d.on R.CR_CTL.ARM c))

/-- A queue may not be disabled now (R64). -/
def Dev.cqInUse (d : Dev) (q : Nat) : Bool :=
  d.ringList.any (fun n => d.on R.SQ_CTL.ENABLE n && d.f R.SQ_CTL.CQ n == q) || d.courierUses q ||
    d.f R.CQ_CREDIT.RESERVED q != 0 || !d.cqIdle q

/-- A write of CQ_CTL (R11, R53, R64, R66, R67). P starts at 0 (DESIGN CHOICE, log entry 135). -/
def Dev.cqCtlWrite (d : Dev) (q : Nat) (l : Lanes) (w : Word) : Dev :=
  let was := d.on R.CQ_CTL.ENABLE q
  let d1 := d.writeReg (R.CQ_CTL.ENABLE.key q) (!was && d.cqIdle q) l w R.CQ_ERR.BUSY q
  let is := d1.on R.CQ_CTL.ENABLE q
  if !was && is then
    if d1.cqEnableOk q then
      (d1.setCq q { armed := true, p := 0, timer := none }).set R.RING_RETAIN.TAIL q (d1.f R.CQ_STATE.TAIL q)
    else (d1.set R.CQ_CTL.ENABLE q 0).set R.CQ_ERR.MISMATCH q 1
  else if was && !is then
    if d.cqInUse q then (d1.set R.CQ_CTL.ENABLE q 1).set R.CQ_ERR.BUSY q 1
    else d1.setCq q CqX.empty
  else d1

/-- CQ_CTL_WRITE. -/
def execCqCtlWrite (q : Fin 4096) (l : Lanes) (d : Word) (s : State) : Res :=
  .next (if s.dev.ready then s.onDev (fun x => x.cqCtlWrite q l d) else s)

/-- The queue's timer has run TIME µs (R66); a timer that is stopped, or TIME = 0, never expires. -/
def Dev.cqExpired (d : Dev) (q : Nat) : Bool :=
  match (d.cq q).timer with
  | none => false
  | some (t0, time) => time != 0 && decide (1000 * time ≤ d.since t0)

/-- COALESCING_TIMER (R66): the queue's timer expires. -/
def execCoalescingTimer (q : Fin 4096) (s : State) : Res :=
  let d := s.dev
  if d.cqExpired q then
    if (d.cq q).armed ∧ 0 < (d.cq q).p then .next (s.onBoth (cqFire q))
    else .next (s.onDev (fun x => x.setCq q { x.cq q with timer := none }))
  else .next s

end Sys2Proof.Machine
end

