-- ==== Sys2Proof/Machine/Courier.lean ====
section
/-! DEFINITION. Courier channels (R68 to R72). A command on CR12 to CR15 comes from Curator firmware, which owns them; BAR0 writes
to those channels are ignored by the register write itself (`firmwareOwns`). -/

namespace Sys2Proof.Machine

open Sys2Proof

/-- The shadow set of channel c as an active set (R71: one load copies all of it). -/
def Dev.shadowSet (d : Dev) (c : Nat) : CourierX :=
  { src := d.f R.CR_SRC.SRC c, dst := d.f R.CR_DST.DST c, acnt := d.f R.CR_CNT.ACNT c, bcnt := d.f R.CR_CNT.BCNT c,
    ccnt := d.f R.CR_CNT.CCNT c, srcB := d.sf R.CR_BSTRIDE.SRC_B c, dstB := d.sf R.CR_BSTRIDE.DST_B c,
    srcC := d.sf R.CR_CSTRIDE.SRC_C c, dstC := d.sf R.CR_CSTRIDE.DST_C c, srcSpace := d.f R.CR_ATTR.SRC_SPACE c,
    dstSpace := d.f R.CR_ATTR.DST_SPACE c, recEn := d.on R.CR_ATTR.REC_EN c, irq := d.on R.CR_ATTR.IRQ c,
    tag := d.f R.CR_ATTR.TAG c, waiting := false }

/-- The lowest and the highest byte of one side, over the corners of the nest (R69). -/
def spanOf (base : Nat) (a b c : Nat) (sb sc : Int) : Int × Int :=
  let eb := ((b : Int) - 1) * sb
  let ec := ((c : Int) - 1) * sc
  ((base : Int) + min 0 eb + min 0 ec, (base : Int) + max 0 eb + max 0 ec + (a : Int) - 1)

/-- The span of the source. -/
def CourierX.srcSpan (x : CourierX) : Int × Int := spanOf x.src x.acnt x.bcnt x.ccnt x.srcB x.srcC
/-- The span of the destination. -/
def CourierX.dstSpan (x : CourierX) : Int × Int := spanOf x.dst x.acnt x.bcnt x.ccnt x.dstB x.dstC

/-- A span leaves the courier region of HBM. -/
def Dev.outsideHbm (d : Dev) (p : Int × Int) : Bool :=
  p.1 < (d.f R.COURIER_HBM_BASE.ADDR : Int) || (d.f R.COURIER_HBM_LIMIT.ADDR : Int) < p.2

/-- An address sum leaves 64 bits. -/
def outside64 (p : Int × Int) : Bool := p.1 < 0 || ((2 ^ 64 : Nat) : Int) ≤ p.2

/-- The checks at load (R69): none when they pass. The bounds of HBM are tested before the overflow of 64 bits (DESIGN CHOICE, log
entry 91). -/
def Dev.courierCheck (d : Dev) (x : CourierX) : Option Verdict :=
  if x.acnt = 0 ∨ x.bcnt = 0 ∨ x.ccnt = 0 ∨ 1 < x.srcSpace ∨ 1 < x.dstSpace then some ⟨0x01, 0x20⟩
  else if (x.srcSpace = 1 ∧ d.outsideHbm x.srcSpan) ∨ (x.dstSpace = 1 ∧ d.outsideHbm x.dstSpan) then some ⟨0x03, 0x21⟩
  else if outside64 x.srcSpan ∨ outside64 x.dstSpan then some ⟨0x02, 0x21⟩
  else none

/-- The memory space of a courier space code (Table 2.11): host memory of the physical function, or HBM. -/
def courierSpace (code : Nat) : Nat := if code = 0 then hostSpace 0 else 0

/-- The byte moves of a transfer in nest order: source key and destination key (R68). -/
def CourierX.moves (x : CourierX) : List (Nat × Nat) :=
  (List.range x.ccnt).flatMap fun (c : Nat) => (List.range x.bcnt).flatMap fun (b : Nat) => (List.range x.acnt).map fun (a : Nat) =>
    (memKey (courierSpace x.srcSpace) ((x.src : Int) + c * x.srcC + b * x.srcB + a).toNat,
     memKey (courierSpace x.dstSpace) ((x.dst : Int) + c * x.dstC + b * x.dstB + a).toNat)

/-- What a destination byte holds after a list of moves (R68): a byte that is also a source byte is undefined, a free value; of a byte that is
written more than once, writes land in any order, so that any of the values written may be the last. A byte outside
the overlap whose source byte lies in it takes the value from before the transfer (DESIGN CHOICE, log entry 134). -/
def courierByte (ctr : Nat) (mv : List (Nat × Nat)) (m : List Host.Cell) (k : Nat) : Byte :=
  let vals := (mv.filter (fun p => p.2 == k)).map (fun p => memGet m p.1)
  if mv.any (fun p => p.1 == k) then Config.freeByte ctr k
  else vals.getD (if vals.all (fun v => vals.head? == some v) then 0 else Config.freePick ctr k % vals.length) 0

/-- The bytes of a list of moves, read before any is written. -/
def courierCopy (ctr : Nat) (mv : List (Nat × Nat)) (m : List Host.Cell) : List Host.Cell :=
  mv.foldl (fun acc p => memPut acc p.2 (courierByte ctr mv m p.2)) m

/-- The record of a courier transfer (Table 2.7: SOURCE 2). -/
def Dev.courierRec (d : Dev) (c : Nat) (x : CourierX) (v : Verdict) (moved : Nat) : Rec :=
  { source := 2, opcode := 0, status := v.status, detail := v.detail, userTag := x.tag, sq := c, sqHead := 0, value := moved,
    index := d.f R.CR_STAT.LOADS c, events := 0, window := 0, irq := x.irq }

/-- End a transfer: state, LAST, DONE, and the record when it has one. -/
def courierEnd (c : Nat) (v : Verdict) (moved state : Nat) (ok : Bool) (d : Dev) (m : List Host.Cell) : Dev × List Host.Cell :=
  let x := d.courier c
  let q := d.f R.CR_CQ.CQ c
  let d1 := ((d.set R.CR_STAT.STATE c state).set R.CR_STAT.LAST c v.status).set R.CR_PROG.DONE c moved
  if x.recEn then
    let r := writeRecord q (d1.courierRec c x v moved) ok d1 m
    (r.1.drop R.CQ_CREDIT.RESERVED q, r.2)
  else (d1, m)

/-- Start a loaded transfer: reserve its slot (R63, R71) and make the checks of R69; without a free slot it waits. A CR_CQ that names a
queue which is not enabled is used all the same (DESIGN CHOICE, log entry 90). -/
def courierStart (c : Nat) (d : Dev) (m : List Host.Cell) : Dev × List Host.Cell :=
  let x := d.courier c
  let q := d.f R.CR_CQ.CQ c
  if x.recEn ∧ d.cqCredit q = 0 then (d.setCourier c { x with waiting := true }, m)
  else
    let d1 := d.setCourier c { x with waiting := false }
    let d2 := if x.recEn then d1.bump R.CQ_CREDIT.RESERVED q else d1
    match d2.courierCheck x with
    | some v => courierEnd c v 0 0 true d2 m
    | none => (d2, m)

/-- Load the shadow set and start (R71): ARM clears, LOADS advances. -/
def courierLoad (c : Nat) (d : Dev) (m : List Host.Cell) : Dev × List Host.Cell :=
  let d1 := d.setCourier c (d.shadowSet c)
  let d2 := ((d1.set R.CR_CTL.ARM c 0).set R.CR_STAT.LOADS c (idxAdd (d.f R.CR_STAT.LOADS c) 1)).set R.CR_STAT.STATE c 1
  courierStart c (d2.set R.CR_PROG.DONE c 0) m

/-- A channel that BAR0 or firmware may command now. -/
def Dev.courierOpen (d : Dev) : Bool := d.ready

/-- COURIER_GO (R70): ignored with BUSY while the channel runs. -/
def execCourierGo (c : Fin 16) (s : State) : Res :=
  .next (if s.dev.courierOpen then
    if s.dev.f R.CR_STAT.STATE c = 1 || s.dev.blkHeld 6 c then s.onDev (fun d => d.set R.CR_STAT.BUSY c 1)
    else s.onBoth (courierLoad c)
  else s)

/-- COURIER_ARM: ARM takes the value written (R70, R71). -/
def execCourierArm (c : Fin 16) (on : Bool) (s : State) : Res :=
  .next (if s.dev.courierOpen then s.onDev (fun d =>
    if on && d.blkHeld 6 c then d.set R.CR_STAT.BUSY c 1 else d.set R.CR_CTL.ARM c (if on then 1 else 0)) else s)

/-- COURIER_ABORT (R72): the transfer stops at a 4 KiB burst boundary, `bursts` bursts in. A load that waits for its slot ends without
a record, and a HALTED channel only goes IDLE (DESIGN CHOICE, log entry 92). -/
def execCourierAbort (c : Fin 16) (bursts : Nat) (writeOk : Bool) (s : State) : Res :=
  .next (if s.dev.courierOpen then
    s.onBoth (fun d m =>
      let x := d.courier c
      let d1 := d.set R.CR_CTL.ARM c 0
      if d.f R.CR_STAT.STATE c = 1 then
        if x.waiting then (((d1.setCourier c { x with waiting := false }).set R.CR_STAT.STATE c 0).set R.CR_STAT.LAST c 0x0F, m)
        else
          let mv := x.moves.take (4096 * bursts)
          courierEnd c ⟨0x0F, 0x40⟩ mv.length 0 writeOk d1.usedFree (courierCopy d.freeCtr mv m)
      else (d1.set R.CR_STAT.STATE c 0, m))
  else s)

/-- COURIER_TRANSFER_END (R71): every byte is in place, the record is written, and with ARM = 1 the next transfer loads. A load
that waits for a slot takes it here once one is free; where the checks of R69 end it there and then, ARM is honoured the same way. -/
def execCourierTransferEnd (c : Fin 16) (writeOk : Bool) (s : State) : Res :=
  .next (if s.dev.f R.CR_STAT.STATE c = 1 then
    s.onBoth (fun d m =>
      let x := d.courier c
      if x.waiting then
        let r := courierStart c d m
        if r.1.f R.CR_STAT.STATE c = 0 ∧ r.1.on R.CR_CTL.ARM c then courierLoad c r.1 r.2 else r
      else
        let mv := x.moves
        let r := courierEnd c ⟨0, 0⟩ mv.length 0 writeOk d.usedFree (courierCopy d.freeCtr mv m)
        if r.1.on R.CR_CTL.ARM c then courierLoad c r.1 r.2 else r)
  else s)

/-- COURIER_MEMORY_ERROR (R72): the channel halts after `moved` bytes; ARM is not honoured. -/
def execCourierMemoryError (c : Fin 16) (moved : Nat) (writeOk : Bool) (s : State) : Res :=
  .next (if s.dev.f R.CR_STAT.STATE c = 1 ∧ (s.dev.courier c).waiting = false then
    s.onBoth (fun d m =>
      let mv := (d.courier c).moves.take moved
      courierEnd c ⟨0x0F, 0x30⟩ mv.length 2 writeOk d.usedFree (courierCopy d.freeCtr mv m))
  else s)

end Sys2Proof.Machine
end

