-- ==== Sys2Proof/Machine/Catalogue.lean ====
section
/-! DEFINITION. Colour plans (R215 to R223), Itinerary page images (R224): what the images say, their checks, and the lookups in the
active version that other blocks make. -/

namespace Sys2Proof.Machine

open Sys2Proof

/-- A bit as a number. -/
def b2n (b : Bool) : Nat := if b then 1 else 0

/-! ### The Catalogue image (Table 8.2) -/

/-- PLAN_ID. -/
def catPlan (c : List Byte) : Nat := leAt c 0 4
/-- N_LOG. -/
def catNLog (c : List Byte) : Nat := leAt c 8 1 % 8
/-- The number of sites. -/
def catN (c : List Byte) : Nat := 2 ^ catNLog c
/-- TOPO. -/
def catTopo (c : List Byte) : Nat := leAt c 8 1 / 16 % 4
/-- OWN_SITE. -/
def catOwn (c : List Byte) : Nat := leAt c 9 1 % 32
/-- PEERS. -/
def catPeers (c : List Byte) : Nat := leAt c 10 2 % 8192
/-- ORDER[v]. -/
def catOrder (c : List Byte) (v : Nat) : Nat := leAt c (0x10 + v) 1
/-- P2P_SITE[p]. -/
def catP2p (c : List Byte) (p : Nat) : Nat := leAt c (0x30 + p) 1
/-- ANCHOR_P2P[p]. -/
def catAnchorP2p (c : List Byte) (p : Nat) : Nat := leAt c (0x38 + p) 1
/-- SITE_MAP[s]. -/
def catSiteMap (c : List Byte) (s : Nat) : Nat := leAt c (0x40 + 2 * s) 2
/-- COLOUR[p][k]. -/
def catColour (c : List Byte) (p k : Nat) : Nat := leAt c (0x80 + 2 * (128 * p + k)) 2
/-- PEER[i]. -/
def catPeer (c : List Byte) (i : Nat) : Nat := leAt c (0x880 + 8 * i) 8
/-- PEER[i].VALID. -/
def catPeerValid (c : List Byte) (i : Nat) : Bool := catPeer c i % 2 == 1 && decide (i < catPeers c)
/-- PEER[i].RAIL. -/
def catPeerRail (c : List Byte) (i : Nat) : Nat := catPeer c i / 2 % 64
/-- PEER[i].DELAY. -/
def catPeerDelay (c : List Byte) (i : Nat) : Nat := catPeer c i / 2 ^ 8 % 2 ^ 24
/-- PEER[i].GW_ID. -/
def catPeerGw (c : List Byte) (i : Nat) : Nat := catPeer c i / 2 ^ 32 % 2 ^ 32

/-- The site a transmit laser on Kk of plane p reaches from this site (R215, Table 8.1); none where it reaches no peer. -/
def catReach (c : List Byte) (p k : Nat) : Option Nat :=
  if c.isEmpty then none
  else
    let s := match catTopo c with
      | 0 => some ((catOwn c + k) % catN c)
      | 1 => some (catP2p c p)
      | 2 => if (catColour c p k).testBit 5 then some (catColour c p k % 32) else none
      | _ => none
    match s with
    | some x => if x = catOwn c ∨ catN c ≤ x then none else some x
    | none => none

/-- The site a local oscillator on Kk of plane p hears (R215). -/
def catHears (c : List Byte) (p k : Nat) : Option Nat :=
  if c.isEmpty then none
  else
    let s := match catTopo c with
      | 0 => some ((catOwn c + catN c * 128 - k) % catN c)
      | 1 => some (catP2p c p)
      | 2 => if (catColour c p k).testBit 13 then some (catColour c p k / 2 ^ 8 % 32) else none
      | _ => none
    match s with
    | some x => if x = catOwn c ∨ catN c ≤ x then none else some x
    | none => none

/-- Colour k is reserved for the anchor of plane p (R216). -/
def catReserved (c : List Byte) (p k : Nat) : Bool :=
  match catTopo c with
  | 0 => 128 - catN c < k
  | 1 => k == catAnchorP2p c p
  | _ => (catColour c p k).testBit 6

/-- The colour the anchor of plane p sends on toward a site (R216). -/
def catAnchorTx (c : List Byte) (p site : Nat) : Option Nat :=
  match catTopo c with
  | 0 =>
    let o := (site + catN c - catOwn c) % catN c
    if o = 0 then none else some (128 - catN c + o)
  | 1 => some (catAnchorP2p c p)
  | _ => (List.range 128).find? (fun k => (catColour c p k).testBit 6 && (catColour c p k).testBit 5 && catColour c p k % 32 == site)

/-- The colour the anchor of plane p listens on for a site (R216). -/
def catAnchorRx (c : List Byte) (p site : Nat) : Option Nat :=
  match catTopo c with
  | 0 =>
    let o := (catOwn c + catN c - site) % catN c
    if o = 0 then none else some (128 - catN c + o)
  | 1 => some (catAnchorP2p c p)
  | _ => (List.range 128).find? (fun k => (catColour c p k).testBit 6 && (catColour c p k).testBit 13 && catColour c p k / 2 ^ 8 % 32 == site)

/-- CHECK of an image: CRC-32C of bytes 0x000 to 0x003 and 0x008 to the end (R217, R224). -/
def imageCheckOk (c : List Byte) : Bool := (crc32c (c.take 4 ++ c.drop 8)).toNat == leAt c 4 4

/-- ORDER_PRINT (R223). -/
def orderPrint (c : List Byte) : Nat := (crc32c (slice c 8 1 ++ slice c 0x10 32)).toNat

/-- R217, LENGTH apart: its list names no reserved bit and no SITE_MAP entry but those of the other sites of the plan. -/
def Dev.catValid (d : Dev) (c : List Byte) : Bool :=
  let own := d.f R.GLOBAL_LOC.SITE
  let n := catN c
  imageCheckOk c && 1 ≤ catNLog c && catNLog c ≤ 5 && catTopo c ≤ 2 && catOwn c == own &&
  (List.range n).all (fun s => s == own ||
    (catPeerValid c (catSiteMap c s) && catPeerRail c (catSiteMap c s) == d.f R.GLOBAL_LOC.RAIL &&
      (List.range s).all (fun r => r == own || catSiteMap c r != catSiteMap c s))) &&
  (List.range 31).all (fun v =>
    if v < n - 1 then 1 ≤ catOrder c v && catOrder c v < n && (List.range v).all (fun u => catOrder c u != catOrder c v)
    else catOrder c v == 0) &&
  (catTopo c != 1 || (List.range 8).all (fun p => !d.wingPresent (p / 2) || (catP2p c p < n && catP2p c p != own)))

/-! ### Lookups in the versions held -/

/-- A Catalogue version. -/
def Dev.catVer (d : Dev) (v : Nat) : List Byte := d.cats.at_ v

/-- The active version; empty while none has been activated. -/
def Dev.cat (d : Dev) : List Byte := d.catVer (d.f R.CAT_STATE.ACTIVE)

/-- The pending version's image, where one is pending. -/
def Dev.catPending (d : Dev) : Option (List Byte) :=
  if d.on R.CAT_STATE.PEND then some (d.catVer (1 - d.f R.CAT_STATE.ACTIVE)) else none

/-- Sites of the active plan. -/
def Dev.sites (d : Dev) : Nat := if d.cat.isEmpty then 0 else catN d.cat

/-- The peer index of a site in a version (R219, R381). -/
def catPeerOf (c : List Byte) (site : Nat) : Option Nat :=
  if c.isEmpty ∨ catN c ≤ site ∨ site = catOwn c then none else some (catSiteMap c site)

/-- The peer index of a site in the active version. -/
def Dev.peerOf (d : Dev) (site : Nat) : Option Nat :=
  if d.cat.isEmpty ∨ catN d.cat ≤ site ∨ site = catOwn d.cat then none else some (catSiteMap d.cat site)

/-- The site of a peer index in the active version. -/
def Dev.siteOf (d : Dev) (p : Nat) : Option Nat := (List.range d.sites).find? (fun s => d.peerOf s == some p)

/-- GW_ID of the active version's peer entry of a site. -/
def Dev.gwOf (d : Dev) (site : Nat) : Option Nat := (d.peerOf site).map (catPeerGw d.cat)

/-- The mean path delay from a peer: measured, or the Catalogue's DELAY until an ECHO has arrived (R222). -/
def Dev.delayOf (d : Dev) (p : Nat) : Nat :=
  match countOf d.dMean p with
  | 0 => catPeerDelay d.cat p
  | n + 1 => n

/-- A control message's site and GW_ID name a peer of the plan; otherwise CAT_CNT.IDENT increments and the message is discarded. -/
def Dev.identOk (d : Dev) (site gw : Nat) : Bool := d.gwOf site == some gw

/-- A message discarded for its GW_ID. -/
def Dev.identBad (d : Dev) : Dev := d.bump R.CAT_CNT.IDENT 0

/-- The commit point of an item that activates at `act` has come: ACTIVATE − COMMIT_LEAD (R238). -/
def Dev.pastCommit (d : Dev) (act : Nat) : Bool := decide (diff40 act d.ns40 ≤ ((d.f R.ITIN_LEAD.COMMIT_LEAD * 1000 : Nat) : Int))

/-- The ns of the timebase that a NS40 time t names: the nearest one (R190). -/
def Dev.taiOf (d : Dev) (t : Nat) : Nat := ((d.tai : Int) + diff40 t d.ns40).toNat

/-- The pending Catalogue version is past its commit point, or has been: from then on it stands (R238). -/
def Dev.catCommitted (d : Dev) : Bool := d.on R.CAT_STATE.PEND && (d.on R.CAT_STATE.COMMITTED || d.pastCommit (d.f R.CAT_STATE.ACT_AT))

/-- The pending page is past its commit point, or has been (R238). -/
def Dev.pageCommitted (d : Dev) : Bool := d.on R.ITIN_STATE.PEND && (d.on R.ITIN_STATE.COMMITTED || d.pastCommit (d.f R.ITIN_STATE.ACT_AT))

/-- A CEP value is accepted now (R218): the active version's, and the other one from the commit point until the hold ends. -/
def Dev.cepOk (d : Dev) (cep : Bool) : Bool :=
  (cep == (d.f R.CAT_STATE.ACTIVE == 1)) || d.catCommitted || d.on R.CAT_STATE.HOLDING

/-- The plans a frame may match now (R219). -/
def Dev.plansNow (d : Dev) : List (List Byte) :=
  if d.catCommitted || d.on R.CAT_STATE.HOLDING then [d.cat, d.catVer (1 - d.f R.CAT_STATE.ACTIVE)] else [d.cat]

/-! ### The anchor rota (R221, R222) -/

/-- The visit under way. -/
def Dev.visit (d : Dev) : Nat := d.tai / 20000 % (d.sites - 1)

/-- The site that the anchor of plane p sends to in the 20 µs of number t (R221). -/
def Dev.anchorSiteAt (d : Dev) (p t : Nat) : Option Nat :=
  if d.cat.isEmpty then none
  else if catTopo d.cat = 1 then some (catP2p d.cat p)
  else some ((catOwn d.cat + catOrder d.cat (if catN d.cat = 2 then 0 else t % (d.sites - 1))) % catN d.cat)

/-- The site that it sends to now. -/
def Dev.anchorSite (d : Dev) (p : Nat) : Option Nat := d.anchorSiteAt p (d.tai / 20000)

/-- The visit in which site x sends to this site (R222). -/
def Dev.visitOf (d : Dev) (x : Nat) : Option Nat :=
  (List.range (d.sites - 1)).find? (fun v => catOrder d.cat v == (catOwn d.cat + catN d.cat - x) % catN d.cat)

/-- Listening windows of one rota: start (ns from the rota's start, shifted by the delay) and site, in the order in which they
start; equal starts by site (R222). -/
def Dev.listenWindows (d : Dev) : List (Nat × Nat) :=
  let rota := 20000 * (d.sites - 1)
  let w := (List.range d.sites).filterMap (fun x =>
    match d.peerOf x, d.visitOf x with
    | some p, some v => some ((20000 * v + d.delayOf p) % rota, x)
    | _, _ => none)
  w.mergeSort (fun a b => a.1 < b.1 || (a.1 == b.1 && a.2 ≤ b.2))

/-- Windows cut or lost in one rota, in order: `free` is when the receiver is free again. Each answer is a site and whether its
window is wholly lost. -/
def cutWindows : Nat → List (Nat × Nat) → List (Nat × Bool)
  | _, [] => []
  | free, (st, x) :: t =>
    if st + 20000 ≤ free then (x, true) :: cutWindows free t
    else if st < free then (x, false) :: cutWindows (st + 20000) t
    else cutWindows (st + 20000) t

/-- ANCHOR_GUARD in µs; below 3 it acts as 3, above 10 as 10 (Table 8.7). -/
def Dev.anchorGuard (d : Dev) : Nat := max 3 (min 10 (d.f R.ITIN_CTL.ANCHOR_GUARD))

/-- GUARD in µs; below 3 it acts as 3, above 50 as 50 (Table 8.7). -/
def Dev.guardUs (d : Dev) : Nat := max 3 (min 50 (d.f R.ITIN_CTL.GUARD))

/-- WAKE_PERIOD in µs; a value that does not divide 1,000,000 acts as 100 (Table 8.7). -/
def Dev.wakePeriod (d : Dev) : Nat :=
  let p := d.f R.ITIN_CTL.WAKE_PERIOD
  if p ≠ 0 ∧ 1000000 % p = 0 then p else 100

/-- The listening window that the anchor of plane p is in: its site and the TAI nanosecond at which it began (R222). Of windows that
overlap the one that started first runs to its end; a later one begins there. On point-to-point every visit is the plane's peer's. -/
def Dev.listenNow (d : Dev) (p : Nat) : Option (Nat × Nat) :=
  if d.cat.isEmpty then none
  else if catTopo d.cat = 1 then
    (d.peerOf (catP2p d.cat p)).map (fun x => (catP2p d.cat p, d.tai - (d.tai + 20000 - d.delayOf x % 20000) % 20000))
  else
    let rota := 20000 * (d.sites - 1)
    let ws := d.listenWindows
    let age := fun (w : Nat × Nat) => (d.tai % rota + rota - w.1) % rota
    let first := (ws.filter (fun w => age w < 20000)).foldl (fun (best : Option (Nat × Nat)) w =>
      match best with
      | none => some w
      | some b => if age b < age w then some w else best) none
    first.map (fun w => (w.2, d.tai - ws.foldl (fun a v => if 20000 ≤ age v then min a (age v - 20000) else a) (age w)))

/-! ### Itinerary page images (Tables 8.3 to 8.5) -/

/-- One entry: SLOT, ACTION, CARRIER (0 to 31 within the wing), ARG. -/
structure ItinEntry where
  slot : Nat
  action : Nat
  carrier : Nat
  arg : Nat
  /-- Bits 63:49 of word 0. -/
  rsv : Nat
deriving DecidableEq, Repr

/-- PAGE_ID. -/
def pageId (p : List Byte) : Nat := leAt p 0 4
/-- COUNTw. -/
def pageCount (p : List Byte) (w : Nat) : Nat := leAt p (8 + 2 * w) 2
/-- PLAN_ID. -/
def pagePlan (p : List Byte) : Nat := leAt p 0x10 4
/-- Entries before wing w's section. -/
def pageBase (p : List Byte) (w : Nat) : Nat := ((List.range w).map (pageCount p)).sum
/-- Entry i of wing w's section. -/
def pageEntry (p : List Byte) (w i : Nat) : ItinEntry :=
  let o := 0x20 + 16 * (pageBase p w + i)
  let w0 := leAt p o 8
  { slot := w0 % 2 ^ 40, action := w0 / 2 ^ 40 % 16, carrier := w0 / 2 ^ 44 % 32, rsv := w0 / 2 ^ 49, arg := leAt p (o + 8) 8 }
/-- Wing w's section. -/
def pageSection (p : List Byte) (w : Nat) : List ItinEntry := (List.range (pageCount p w)).map (pageEntry p w)

/-- ARG bits an action uses (Table 8.5). -/
def argMask (action : Nat) : Nat :=
  match action with
  | 1 => 0xFFFFFF
  | 2 => 0x7FF01FF
  | 3 => 0x7FF01FF
  | 4 => 0xFFFFFF03
  | 5 => 0x3
  | 6 => 0xFFFF
  | 7 => 0x3FFFFFFFF
  | _ => 0

/-- One entry of wing w's section is acceptable by itself (R224); `cat` is the plan the page names, `act` its ACTIVATE. -/
def entryOk (cat : List Byte) (act w : Nat) (e : ItinEntry) : Bool :=
  e.action < 8 && e.rsv == 0 && (e.arg ||| argMask e.action) == argMask e.action &&
  (e.carrier % 16 != 0 || e.action == 7 || e.action == 0 || e.action == 6) &&
  (e.action != 6 || e.carrier == 0) &&
  (e.action != 1 ||
    (let p := 2 * w + e.carrier / 16
     let g := e.arg / 2 ^ 16 % 256
     !(e.arg.testBit 7 && catReserved cat p (e.arg % 128)) && !(e.arg.testBit 15 && catReserved cat p (e.arg / 2 ^ 8 % 128)) &&
     (g == 0 || (3 ≤ g && g ≤ 50)))) &&
  0 ≤ diff40 e.slot act && diff40 e.slot act ≤ ((2 ^ 38 : Nat) : Int)

/-- No entry's SLOT lies before that of the entry before it. -/
def slotsRise : List ItinEntry → Bool
  | [] => true
  | [_] => true
  | a :: b :: t => 0 ≤ diff40 b.slot a.slot && slotsRise (b :: t)

/-- Distinct values of a list. -/
def distinct (l : List Nat) : List Nat := l.eraseDups

/-- A section is acceptable as a whole: its order, 32 entries to a SLOT, 8 pinned tenants to a carrier (R224). -/
def sectionOk (es : List ItinEntry) : Bool :=
  slotsRise es &&
  (distinct (es.map (·.slot))).all (fun t => (es.filter (fun e => e.slot == t)).length ≤ 32) &&
  (List.range 32).all (fun c =>
    (distinct ((es.filter (fun e => e.action == 2 && e.carrier == c && e.arg.testBit 26)).map (fun e => e.arg / 2 ^ 16 % 1024))).length ≤ 8)

/-- The plan a page names: the active or the pending version. -/
def Dev.planNamed (d : Dev) (id : Nat) : Option (List Byte) :=
  if !d.cat.isEmpty && catPlan d.cat == id then some d.cat
  else match d.catPending with
    | some c => if catPlan c = id then some c else none
    | none => none

/-- The image checks of R224 after LENGTH (DETAIL 0x00). -/
def Dev.pageValid (d : Dev) (p : List Byte) (act : Nat) : Bool :=
  imageCheckOk p &&
  (List.range 4).all (fun w => pageCount p w ≤ 16384 && (d.wingEnabled w || pageCount p w == 0)) &&
  leAt p 0x14 4 == 0 && leAt p 0x18 8 == 0 &&
  match d.planNamed (pagePlan p) with
  | none => false
  | some c => (List.range 4).all (fun w => (pageSection p w).all (entryOk c act w) && sectionOk (pageSection p w))

/-- LATE_GRACE. -/
def Dev.grace (d : Dev) : Int := (d.f R.ITIN_CTL.LATE_GRACE : Nat)

/-- An ACTIVATE or START lies more than LATE_GRACE in the past. -/
def Dev.tooLate (d : Dev) (t : Nat) : Bool := decide (diff40 t d.ns40 < -d.grace)

/-- The checks of R224 on a page image and the page state, in their order: none when the page is accepted. -/
def Dev.pageCheck (d : Dev) (p : List Byte) (slot act : Nat) : Option Verdict :=
  if p.length ≠ 32 + 16 * ((List.range 4).map (pageCount p)).sum then some ⟨0x01, 0x05⟩
  else if !d.pageValid p act then some ⟨0x01, 0x00⟩
  else if slot ≠ 1 - d.f R.ITIN_STATE.ACTIVE ∨ d.on R.ITIN_STATE.PEND then some ⟨0x12, 0x00⟩
  else if d.tooLate act then some ⟨0x0E, 0x00⟩
  else none

/-- The checks of R236 on a Catalogue image and the version state, in their order. -/
def Dev.catCheck (d : Dev) (c : List Byte) (slot act : Nat) : Option Verdict :=
  if c.length ≠ 0x880 + 8 * catPeers c then some ⟨0x01, 0x05⟩
  else if !d.catValid c then some ⟨0x01, 0x00⟩
  else if slot ≠ 1 - d.f R.CAT_STATE.ACTIVE ∨ d.on R.CAT_STATE.PEND ∨ d.on R.CAT_STATE.HOLDING then some ⟨0x12, 0x00⟩
  else if d.tooLate act then some ⟨0x0E, 0x00⟩
  else none

/-! ### The active page -/

/-- The image of an Itinerary page. -/
def Dev.page (d : Dev) (v : Nat) : List Byte := d.pages.at_ v

/-- The image of the active page. -/
def Dev.activePage (d : Dev) : List Byte := d.page (d.f R.ITIN_STATE.ACTIVE)

/-- The carrier an entry of wing w names (Table 8.4). -/
def entryCarrier (w : Nat) (e : ItinEntry) : Nat := 32 * w + e.carrier

/-- C of a PARK entry (R233). -/
def parkC (e : ItinEntry) : Nat := (e.slot + 2 ^ 40 - e.arg / 2 ^ 8 % 2 ^ 24) % 2 ^ 40

/-- A park of m at C has been cancelled. -/
def cancelled (l : List ParkCancel) (m c : Nat) : Bool := l.any (fun p => p.m == m && p.c == c)

/-- The entries for carrier m still to come, while its wing executes its section (R225): those of the active page, which a pending one cuts
off at its ACTIVATE, and those of the pending page (R239). -/
def Dev.entriesAhead (d : Dev) (m : Nat) : List ItinEntry :=
  let w := carrierWing m
  let now := (pageSection d.activePage w).drop (d.f R.ITIN_STAT_NEXT.NEXT w)
  let all := if d.on R.ITIN_STATE.PEND then
      now.filter (fun e => decide (diff40 e.slot (d.f R.ITIN_STATE.ACT_AT) ≤ 0)) ++ pageSection (d.page (1 - d.f R.ITIN_STATE.ACTIVE)) w
    else now
  if d.on R.ITIN_CTL.ENABLE && d.wingEnabled w then all.filter (fun e => entryCarrier w e == m) else []

/-- A PARK entry without the sides whose park has been cancelled (R234); another entry as it is. -/
def Dev.parkLeft (d : Dev) (m : Nat) (e : ItinEntry) : ItinEntry :=
  if e.action = 4 then
    { e with arg := e.arg - b2n (e.arg.testBit 0 && cancelled d.parkTx m (parkC e)) -
                      2 * b2n (e.arg.testBit 1 && cancelled d.parkRx m (parkC e)) }
  else e

/-- The plan's source of the LO colour of carrier m, under a plan (R219). -/
def Dev.loSource (d : Dev) (c : List Byte) (m : Nat) : Option Nat := catHears c (carrierEngine m) (d.f R.KW_CAR_STATE.LO_COL m)

/-- Gb/s of a MODE (Table 10.1). -/
def modeGbps (mode : Nat) : Nat := if mode = 0 then 400 else if mode = 1 then 300 else 200

/-- Entries for carrier m whose SLOT lies less than two frame durations ahead (R231): 2 · 131,072 bits at the rate of its MODE. -/
def Dev.entriesSoon (d : Dev) (m : Nat) : List ItinEntry :=
  (d.entriesAhead m).filter (fun e => decide (diff40 e.slot d.ns40 * (modeGbps (d.f R.KW_CAR_CFG.MODE m) : Nat) < 262144))

/-- No segment of class cls of tenant t may start on carrier m any more before the entries that come (R231): a RETUNE or PARK of the
transmitter, or, where windows count, a WINDOW_CLOSE that withdraws the class from the tenant's window. -/
def Dev.closing (d : Dev) (m cls t : Nat) : Bool :=
  (d.entriesSoon m).any (fun e => match e.action with
    | 1 => e.arg.testBit 7
    | 3 => d.itinMode != 0 && e.arg.testBit cls &&
        (if e.arg.testBit 26 then !d.on R.TENANT.PLACE_MODE t && e.arg / 2 ^ 16 % 1024 == t else d.on R.TENANT.PLACE_MODE t)
    | 4 => (d.parkLeft m e).arg.testBit 0
    | _ => false)

/-! ### Scheduled states -/

/-- The scheduled state of a carrier. -/
def Dev.sched (d : Dev) (m : Nat) : Sched := tabGet (fun _ => Sched.empty) d.scheds m
/-- Replace it. -/
def Dev.setSched (d : Dev) (m : Nat) (x : Sched) : Dev := { d with scheds := tabPut (fun _ => Sched.empty) m x d.scheds }

/-- The site that carrier m's scheduled TX colour reaches. -/
def Dev.txSite (d : Dev) (m : Nat) : Option Nat :=
  match (d.sched m).tx with
  | some k => catReach d.cat (carrierEngine m) k
  | none => none

/-- The site that carrier m's scheduled LO colour hears. -/
def Dev.rxSite (d : Dev) (m : Nat) : Option Nat :=
  match (d.sched m).lo with
  | some k => catHears d.cat (carrierEngine m) k
  | none => none

end Sys2Proof.Machine
end

