-- ==== Sys2Proof/Machine/Operands.lean ====
section
/-! DEFINITION. The forms in which messages and segments travel: their bytes on the line, most significant byte first, and the tags
under the peer-pair control keys. -/

namespace Sys2Proof.Machine

open Sys2Proof

/-- The bytes of an ASCII label. -/
def ascii (t : String) : List Byte := t.toList.map (fun c => BitVec.ofNat 8 c.toNat)

/-- `n` zero bytes. -/
def zeros (n : Nat) : List Byte := List.replicate n 0

/-! ### Segments (Tables 6.3 and 6.4) -/

/-- The 48-byte header of a segment: also its AAD (R164, R318). -/
def segHeader (g : Segment) : List Byte :=
  beBytes 1 (g.ver.toNat * 16 + g.typ.toNat) ++
  beBytes 1 (b2n g.kph * 128 + b2n g.cep * 64 + b2n g.first * 32 + b2n g.last * 16 + b2n g.poison * 8) ++
  beBytes 1 g.gen.toNat ++ beBytes 1 (g.cls.toNat * 16 + g.wing.toNat * 4) ++ beBytes 2 g.dst.toNat ++
  beBytes 2 (g.payload.length % 2 ^ 15) ++ beBytes 4 g.seq.toNat ++ beBytes 2 g.opn.toNat ++ beBytes 3 g.segidx.toNat ++
  beBytes 2 g.blkOff.toNat ++ beBytes 1 g.opcode.toNat ++ slice g.tail 0 28

/-- A whole segment as it travels: 64 + PLEN bytes. -/
def segBytes (g : Segment) : List Byte := segHeader g ++ g.payload ++ slice g.tag 0 16

/-- Bytes 20 to 47 of an OP_REQ (Table 6.4). -/
def reqTail (jobId ord fmt redop sr win token len roff tid rank : Nat) : List Byte :=
  beBytes 4 jobId ++ beBytes 1 (ord % 64) ++ beBytes 1 (fmt % 16 * 16 + redop % 8 * 2 + sr % 2) ++ beBytes 2 win ++ beBytes 4 token ++
  beBytes 4 len ++ beBytes 5 roff ++ beBytes 4 tid ++ beBytes 3 (rank % 2 ^ 22)

/-- Bytes 20 to 47 of an OP_RESP (Table 6.4). -/
def respTail (jobId status events : Nat) : List Byte := beBytes 4 jobId ++ beBytes 1 status ++ zeros 1 ++ beBytes 2 events ++ zeros 20

/-- Bytes 20 to 47 of a TOUR segment (Table 6.4). -/
def tourTail (coll print chunk piece step ring : Nat) : List Byte :=
  beBytes 4 coll ++ beBytes 4 print ++ beBytes 4 chunk ++ beBytes 4 (piece % 32 + step % 32 * 2 ^ 8 + ring % 8 * 2 ^ 16) ++ zeros 12

/-! ### Control messages -/

/-- A receipt without its tag (Table 6.5). -/
def receiptBytes (r : Receipt) : List Byte :=
  beBytes 1 0x18 ++ beBytes 1 (b2n r.kph * 128 + b2n r.cep * 64) ++ beBytes 1 r.gen.toNat ++ beBytes 1 r.reason.toNat ++
  beBytes 2 r.dst.toNat ++ zeros 2 ++ beBytes 4 r.cum.toNat ++ beBytes 4 r.high.toNat ++ beBytes 4 r.base.toNat ++
  beBytes 4 r.nseq.toNat ++ beBytes 4 r.rseq.toNat ++ beBytes 4 r.credit.toNat ++ leBytes 32 r.sack.toNat

/-- An accession message without its tag (Table 6.1). -/
def accessionBytes (typ : Nat) (m : AccessionMsg) : List Byte :=
  beBytes 1 (0x10 + typ % 16) ++ beBytes 1 (b2n m.sealed * 128) ++ beBytes 1 m.gen.toNat ++
  beBytes 1 (m.cls.toNat * 16 + m.wing.toNat * 4) ++ beBytes 2 m.src.toNat ++ beBytes 2 m.dst.toNat ++ beBytes 4 m.jobId.toNat ++
  beBytes 1 m.site.toNat ++ beBytes 1 m.rail.toNat ++ beBytes 1 m.status.toNat ++ zeros 1 ++ beBytes 4 m.credit.toNat ++
  beBytes 8 m.tTx.toNat ++ beBytes 8 m.tEcho.toNat ++ zeros 12

/-- A plan control message without its tag (Table 8.6): SUB 1 ANNOUNCE to 5 RETURN_ACK. -/
def planBytes (sub : Nat) (m : PlanMsg) : List Byte :=
  beBytes 1 0x1E ++ beBytes 1 sub ++ beBytes 1 (m.plane.toNat * 32 + m.site.toNat) ++ beBytes 1 m.kind.toNat ++ beBytes 4 m.id.toNat ++
  beBytes 5 m.t.toNat ++ beBytes 1 m.colour.toNat ++ beBytes 1 (b2n m.accept) ++ zeros 1 ++ beBytes 4 m.gwId.toNat ++
  beBytes 4 m.orderPrint.toNat ++ zeros 8

/-- A PATH_REPORT without its tag (Table 9.7). -/
def pathReportBytes (m : PathReport) : List Byte :=
  beBytes 1 0x17 ++ beBytes 1 (m.plane.toNat * 32 + m.site.toNat) ++ beBytes 1 m.colour.toNat ++ zeros 1 ++ beBytes 4 m.cd.toNat ++
  beBytes 2 m.dgd.toNat ++ beBytes 2 m.osnr.toNat ++ beBytes 2 m.qmarg.toNat ++ beBytes 2 m.rxPow.toNat ++ beBytes 4 m.gwId.toNat ++
  zeros 12

/-- A NOTE without its tag (Table 14.6). -/
def noteBytes (m : NoteMsg) : List Byte :=
  beBytes 1 0x14 ++ beBytes 1 m.site.toNat ++ zeros 2 ++ beBytes 4 m.suspect.toNat ++ beBytes 4 m.lost.toNat ++ beBytes 4 m.gwId.toNat

/-- A CARRIER_OUT without its tag (Table 10.4). -/
def carrierOutBytes (m : CarrierOutMsg) : List Byte :=
  beBytes 1 0x16 ++ beBytes 1 (m.plane.toNat * 32 + m.site.toNat) ++ beBytes 1 m.colour.toNat ++ zeros 1 ++ beBytes 4 m.gwId.toNat

/-- A SEAL fragment (Table 11.6, R304): it carries no tag. -/
def sealBytes (step frag nfrag session : Nat) (body : List Byte) : List Byte :=
  beBytes 1 0x15 ++ beBytes 1 step ++ beBytes 1 frag ++ beBytes 1 nfrag ++ beBytes 4 session ++ beBytes 2 body.length ++ zeros 6 ++
  body ++ zeros (8 * ceilDiv body.length 8 - body.length)

/-- A service message without its tag (Table 10.11, R274). -/
def serviceBytes (sub : Nat) (m : ServiceMsg) : List Byte :=
  beBytes 1 0x1F ++ beBytes 1 sub ++ beBytes 1 m.site.toNat ++ beBytes 1 m.status.toNat ++ beBytes 4 m.id.toNat ++
  beBytes 4 m.key.toNat ++ beBytes 5 m.t.toNat ++ beBytes 1 (b2n m.v) ++ beBytes 2 m.slot.toNat ++ beBytes 1 m.frag.toNat ++
  beBytes 1 m.nfrag.toNat ++ beBytes 2 m.dlen.toNat ++ beBytes 4 m.gwId.toNat ++ beBytes 4 m.txn.toNat ++
  slice m.data 0 (8 * ceilDiv m.dlen.toNat 8)

/-- A control message without its tag. -/
def ctlBody : Ctl → List Byte
  | .receipt r _ => receiptBytes r
  | .accession t m => accessionBytes t m
  | .plan sub m => planBytes sub m
  | .pathReport m => pathReportBytes m
  | .note _ m => noteBytes m
  | .carrierOut m => carrierOutBytes m
  | .seal st f n s b => sealBytes st f n s b
  | .service sub m => serviceBytes sub m

/-- TYPE of a control message (byte 0, bits 3:0). -/
def ctlType (c : Ctl) : Nat := leAt (ctlBody c) 0 1 % 16

/-- The order in which queued messages are taken at a message boundary: CARRIER_OUT, receipts, the rest (R273). -/
def ctlRank : Ctl → Nat
  | .carrierOut _ => 0
  | .receipt _ _ => 1
  | _ => 2

/-- The test key of MANUF and RMA (R303). -/
def testCtlKey : List Byte := Config.hkdfExpand (zeros 48) (ascii "LK-TEST") 48

/-- In MANUF and RMA no sealing runs (R303). -/
def Dev.testKeys (d : Dev) : Bool := d.f R.VT_STAT.SEC == 0 || d.f R.VT_STAT.SEC == 3

/-- The control key of the sending direction toward peer p; none while p is not sealed. -/
def Dev.sendKey (d : Dev) (p : Nat) : Option (List Byte) :=
  if d.testKeys then some testCtlKey
  else (d.ctlKeys.find? (fun e => e.1 == p)).map (fun e => e.2.1)

/-- Control messages of every kind may pass to and from peer p: it is SEALED, or test keys are in force (R303). -/
def Dev.ctlOpen (d : Dev) (p : Nat) : Bool := d.testKeys || d.f R.VT_PEER.STATE p == 2

/-- The message waits until its peer is sealed (R303): receipts are protected by stream keys and SEAL messages by signatures. -/
def ctlNeedsSeal : Ctl → Bool
  | .receipt _ _ => false
  | .seal _ _ _ _ _ => false
  | _ => true

/-- A control message toward peer p as it travels, tag included (R273, R306). -/
def Dev.ctlWire (d : Dev) (p : Nat) (c : Ctl) : List Byte :=
  let b := ctlBody c
  match c with
  | .seal _ _ _ _ _ => b
  | .receipt _ tag => b ++ slice tag 0 16
  | _ => b ++ (Config.hmac384 ((d.sendKey p).getD []) b).take 16

/-- This gateway's GW_ID as messages carry it. -/
def Dev.gwId (d : Dev) : BitVec 32 := BitVec.ofNat 32 (d.f R.CAT_SELF.GW_ID)

/-- This gateway's site. -/
def Dev.site (d : Dev) : Nat := d.f R.GLOBAL_LOC.SITE

end Sys2Proof.Machine
end

