-- ==== Sys2Proof/Machine/Buffers.lean ====
section
/-! DEFINITION. What a stream context holds of shared resources: buffers of the BPM (R183 to R187), Annex pages (R176 to R182) and
key pairs (R309 to R316). -/

namespace Sys2Proof.Machine

open Sys2Proof

/-- The tenant of a context's job. -/
def Dev.ctxTenant (d : Dev) (x : Ctx) : Nat := d.f R.JOB.TENANT x.job

/-! ### What waits on a line carrier (R340, R341) -/

/-- An entry of a log waits on carrier m: to be sent again, on whatever carrier, or for its first transmission there. -/
def waitsOn (m : Nat) (e : LogEnt) : Bool := !e.receipted && (e.resend || (e.attempts == 0 && e.carrier == m))

/-- Context c's queue on carrier m is not empty. -/
def Ctx.queuedOn (x : Ctx) (m : Nat) : Bool := (x.state == .opened || x.state == .draining) && x.log.any (waitsOn m)

/-- The queues of a selector of the line that are not empty: tenants at level 3 (selector 128 + m), contexts of a tenant at level 4. -/
def Dev.lineQueued (d : Dev) (k : Nat) : List Nat :=
  if k < 256 then distinct ((d.ctxs.filter (fun e => e.2.queuedOn (k - 128))).map (fun e => d.ctxTenant e.2))
  else (d.ctxs.filter (fun e => e.2.queuedOn ((k - 256) / 1024 - 128) && d.ctxTenant e.2 == (k - 256) % 1024)).map (·.1)

/-- A selector of a line carrier: of level 3, or of level 4. -/
def lineSelector (k : Nat) : Bool := (decide (128 ≤ k) && decide (k < 256)) || decide (256 + 1024 * 128 ≤ k)

/-- A queue of the line that is empty keeps no tag, so one that becomes non-empty starts at V (R341). It stands before every change that may
fill a queue. -/
def Dev.lineSettle (d : Dev) : Dev :=
  { d with wfq := d.wfq.filterMap (fun e =>
      if !lineSelector e.1 then some e
      else
        let x : WfqX := { e.2 with t := e.2.t.filter (fun t => (d.lineQueued e.1).contains t.1) }
        if x = WfqX.zero then none else some (e.1, x)) }

/-- The context is in state CLOSED. -/
def Ctx.isClosed (x : Ctx) : Bool := x.state == .closed

/-! ### Buffer pools (R183 to R186) -/

/-- Buffers of pool p on loan (R185). -/
def Dev.lent (d : Dev) (p : Nat) : List Nat := tabGet (fun _ => []) d.bpmBits p
/-- Replace the loan bits of a pool. -/
def Dev.setLent (d : Dev) (p : Nat) (l : List Nat) : Dev := { d with bpmBits := tabPut (fun _ => []) p l d.bpmBits }

/-- KiB charged for a buffer of pool p (R186). -/
def Dev.poolCharge (d : Dev) (p : Nat) : Nat := ceilDiv (d.f R.BPM_POOL_CFG.SIZE p * 64) 1024

/-- Buffers of pool p that contexts have reserved (R158). -/
def Dev.poolResv (d : Dev) (p : Nat) : Nat :=
  (d.ctxs.map (fun e => if e.2.reserved then (if e.2.txPool = p then 4 else 0) + (if e.2.rxPool = p then 4 else 0) else 0)).sum

/-- Buffers of pool p that are neither reserved nor on loan beyond a reservation. -/
def Dev.poolFree (d : Dev) (p : Nat) : Nat :=
  d.f R.BPM_POOL_CFG.COUNT p -
    (d.ctxs.map (fun e => if e.2.reserved then
      (if e.2.txPool = p then max 4 e.2.txBufs.length else 0) + (if e.2.rxPool = p then max 4 e.2.rxBufs.length else 0) else 0)).sum

/-- BPM_POOL_STAT follows the loans and reservations; LOW keeps the lowest FREE since it was last read. -/
def Dev.poolSync (d : Dev) (p : Nat) : Dev :=
  let fr := d.poolFree p
  ((d.set R.BPM_POOL_STAT.FREE p fr).set R.BPM_POOL_STAT.RESV p (d.poolResv p)).set R.BPM_POOL_STAT.LOW p
    (min fr (d.f R.BPM_POOL_STAT.LOW p))

/-- KiB that a tenant holds, reservations included (R186). No rule lets another requester borrow (log entry 101). -/
def Dev.bpmHeld (d : Dev) (t : Nat) : Nat :=
  (d.ctxs.map (fun e => if e.2.reserved && d.ctxTenant e.2 == t then
    max 4 e.2.txBufs.length * d.poolCharge e.2.txPool + max 4 e.2.rxBufs.length * d.poolCharge e.2.rxPool else 0)).sum

/-- HELD of a tenant follows its contexts. -/
def Dev.heldSync (d : Dev) (t : Nat) : Dev := d.set R.BPMQ.HELD t (d.bpmHeld t)

/-- The pools and the quota of a context are brought up to date. -/
def Dev.loanSync (d : Dev) (x : Ctx) : Dev := ((d.poolSync x.txPool).poolSync x.rxPool).heldSync (d.ctxTenant x)

/-- The lowest free buffer of a pool. -/
def Dev.freeBuf (d : Dev) (p : Nat) : Option Nat :=
  (List.range (d.f R.BPM_POOL_CFG.COUNT p)).find? (fun i => !(d.lent p).contains i)

/-- A loan beyond the reservation may be granted to a tenant from pool p (R184, R186). -/
def Dev.loanOk (d : Dev) (p t : Nat) : Bool :=
  d.on R.BPM_CTL.ENABLE && d.on R.BPM_POOL_CFG.EN p && d.poolFree p != 0 &&
    decide (d.f R.BPMQ.HELD t + d.poolCharge p ≤ d.f R.BPMQ.LIMIT t)

/-- A loan request of context c for its transmit (`tx`) or receive direction: answered at once, with a buffer or a refusal that
counts in EMPTY (R184). The first four loans of a direction come from the reservation. -/
def Dev.borrow (d : Dev) (c : Nat) (tx : Bool) : Dev × Bool :=
  let x := d.ctx c
  let p := if tx then x.txPool else x.rxPool
  let n := if tx then x.txBufs.length else x.rxBufs.length
  if x.reserved && (decide (n < 4) || d.loanOk p (d.ctxTenant x)) then
    match d.freeBuf p with
    | none => (d.bump R.BPM_POOL_EMPTY.EMPTY p, false)
    | some i =>
      let d1 := d.setLent p ((d.lent p) ++ [i])
      let y := if tx then { x with txBufs := x.txBufs ++ [i] } else { x with rxBufs := x.rxBufs ++ [i] }
      ((d1.setCtx c y).loanSync y, true)
  else (d.bump R.BPM_POOL_EMPTY.EMPTY p, false)

/-- A buffer of pool p goes back: its loan bit clears, and its context holds it no longer. -/
def Dev.giveBack (d : Dev) (p i : Nat) : Dev :=
  let d1 := d.setLent p ((d.lent p).filter (· != i))
  let owner := d1.ctxs.find? (fun e => e.2.reserved && ((e.2.txPool == p && e.2.txBufs.contains i) || (e.2.rxPool == p && e.2.rxBufs.contains i)))
  match owner with
  | none => d1.poolSync p
  | some (c, x) =>
    let y := if x.txPool = p ∧ x.txBufs.contains i then { x with txBufs := x.txBufs.filter (· != i) }
      else { x with rxBufs := x.rxBufs.filter (· != i) }
    (d1.setCtx c y).loanSync y

/-- BUFFER_RETURN (R185): the pointer must lie in the pool's range, on a buffer, and be on loan; otherwise the return is discarded,
counted, and an L1 LOG alarm is raised. -/
def execBufferReturn (p : Fin 64) (ptr : BitVec 40) (s : State) : Res :=
  .next (s.onDev (fun d =>
    let size := d.f R.BPM_POOL_CFG.SIZE p * 64
    let base := d.f R.BPM_POOL_BASE.BASE p
    let o := ptr.toNat - base
    if ptr.toNat < base ∨ size = 0 ∨ o % size ≠ 0 ∨ d.f R.BPM_POOL_CFG.COUNT p ≤ o / size then
      (d.bump R.BPM_ERR.BAD_PTR 0).alarm 11 p 0x013 1 0
    else if (d.lent p).contains (o / size) then d.giveBack p (o / size)
    else (d.bump R.BPM_ERR.DOUBLE 0).alarm 11 p 0x013 1 1))

/-! ### Annex pages (R178 to R181) -/

/-- Pages of 64 KiB on a stack of 64 GiB: the Annex may use all of them (log entry 14). -/
def stackPages : Nat := 1048576

/-- Free pages of a stack outside SPARE; a failed stack holds no page (R362). -/
def Dev.stackFree (d : Dev) (k : Nat) : Nat :=
  if d.on R.ANNEX_STK.FAILED k then 0 else stackPages - d.f R.ANNEX_STK.SPARE k - countOf d.annexUsed k

/-- Free pages as the PLACED choice of R179 counts them: a stack whose HBM margin is POOR has none (R388). -/
def Dev.stackFreePlaced (d : Dev) (k : Nat) : Nat := if d.f R.MARGIN.STATE (128 * 3 + k) = 2 then 0 else d.stackFree k

/-- Pages a tenant may still take (R178). -/
def Dev.annexLeft (d : Dev) (t : Nat) : Nat := d.f R.TENANT.ANNEX_PAGES t - countOf d.annexHeld t

/-- Take pages on a stack for a tenant. -/
def Dev.annexTake (d : Dev) (t k n : Nat) : Dev :=
  { d with annexHeld := setCount d.annexHeld t (countOf d.annexHeld t + n), annexUsed := setCount d.annexUsed k (countOf d.annexUsed k + n) }

/-- Release pages on a stack. -/
def Dev.annexGive (d : Dev) (t k n : Nat) : Dev :=
  { d with annexHeld := setCount d.annexHeld t (countOf d.annexHeld t - n), annexUsed := setCount d.annexUsed k (countOf d.annexUsed k - n) }

/-- Release a log's pages on a stack: those of a copy that resilvering placed in another quarter came from SPARE (R181). -/
def Dev.annexDrop (d : Dev) (t home k n : Nat) : Dev :=
  if k / 2 = home then d.annexGive t k n else { d with annexHeld := setCount d.annexHeld t (countOf d.annexHeld t - n) }

/-- The stack of an unmirrored copy on quarter q: STACK for PINNED; for PLACED the one with more free pages, the lower on a tie
(R179). -/
def Dev.chooseStack (d : Dev) (q : Nat) (placed : Bool) (stack : Nat) : Nat :=
  if placed then (if d.stackFreePlaced (2 * q) < d.stackFreePlaced (2 * q + 1) then 2 * q + 1 else 2 * q) else 2 * q + stack % 2

/-- Log space in use: everything from SND_UNA on (R176). -/
def Ctx.logUsed (x : Ctx) : Nat := (x.log.map (·.size)).sum

/-- Take the pages of a snapshot or a log: copies A and B, equal when there is one; none where they do not fit (R158 step 6). -/
def Dev.annexPlace (d : Dev) (t q pages : Nat) (mirror placed : Bool) (stack : Nat) : Option (Dev × Nat × Nat) :=
  if mirror then
    if 2 * pages ≤ d.annexLeft t ∧ pages ≤ d.stackFree (2 * q) ∧ pages ≤ d.stackFree (2 * q + 1) then
      some ((d.annexTake t (2 * q) pages).annexTake t (2 * q + 1) pages, 2 * q, 2 * q + 1)
    else none
  else
    let k := d.chooseStack q placed stack
    if pages ≤ d.annexLeft t ∧ pages ≤ (if placed then d.stackFreePlaced k else d.stackFree k) then some (d.annexTake t k pages, k, k) else none

/-! ### Key pairs (R309 to R316) -/

/-- Index of a half-key: pair, phase, half. -/
def halfIx (pair phase half : Nat) : Nat := 2 * (2 * pair + phase % 2) + half % 2

/-- A half-key. -/
def Dev.half (d : Dev) (i : Nat) : Option HalfKey := tabGet (fun _ => none) d.halves i
/-- Write or zeroise a half-key. -/
def Dev.setHalf (d : Dev) (i : Nat) (k : Option HalfKey) : Dev := { d with halves := tabPut (fun _ => none) i k d.halves }
/-- A pair's binding. -/
def Dev.bound (d : Dev) (i : Nat) : Option PairBind := tabGet (fun _ => none) d.binds i
/-- Set a pair's binding. -/
def Dev.setBound (d : Dev) (i : Nat) (b : Option PairBind) : Dev := { d with binds := tabPut (fun _ => none) i b d.binds }

/-- The half that carries this gateway's traffic toward a site (R309). -/
def Dev.outHalf (d : Dev) (site : Nat) : Nat := if d.site < site then 0 else 1

/-- The key of a context's direction in an epoch, where its half is in its cluster and VALID with that epoch (R293, R316). -/
def Dev.streamKey (d : Dev) (x : Ctx) (out : Bool) (epoch : Nat) : Option (List Byte) :=
  let h := if out then d.outHalf x.site else 1 - d.outHalf x.site
  match d.half (halfIx x.pair epoch h) with
  | some k => if k.epoch = epoch ∧ k.wrap = none then some k.key else none
  | none => none

/-- The epoch of a sequence number (R315). -/
def epochOf (n : Nat) : Nat := n / 2 ^ 24

/-- K_STR of a SEALED context (R310). -/
def Dev.kStr (d : Dev) (x : Ctx) (base : List Byte) : List Byte :=
  let lo := if d.site < x.site then x.gen else x.peerGen
  let hi := if d.site < x.site then x.peerGen else x.gen
  Config.hkdfExpand base (ascii "LK-STR" ++ beBytes 4 (d.f R.JOB.JOB_ID x.job) ++ beBytes 1 x.cls ++ beBytes 1 x.wing ++ beBytes 1 lo ++ beBytes 1 hi) 48

/-- K(h, E) of a SEALED context (R310). -/
def epochKey (kstr : List Byte) (h e : Nat) : List Byte := Config.hkdfExpand kstr (ascii "LK-EP" ++ beBytes 1 h ++ beBytes 8 e) 32

/-- STR_BASE kept for the peer of a site. -/
def Dev.strBase (d : Dev) (site : Nat) : List Byte :=
  match d.peerOf site with
  | some p => ((d.ctlKeys.find? (fun e => e.1 == p)).map (fun e => e.2.2.2)).getD []
  | none => []

/-- The tenant of a context is SEALED. -/
def Dev.ctxSealed (d : Dev) (x : Ctx) : Bool := d.on R.TENANT.SEC_MODE (d.ctxTenant x)

/-- Write K(h, e) into its half for a SEALED context (R316). -/
def Dev.writeEpoch (d : Dev) (x : Ctx) (h e : Nat) : Dev :=
  if d.ctxSealed x && d.on R.VT_STAT.TRNG_OK then
    d.setHalf (halfIx x.pair e h) (some { epoch := e, key := epochKey x.kstr h e })
  else d

/-- A direction enters epoch e (R316): the half of epoch e − 1 takes the key of e + 1 (SEALED); a HOST_KEYED half waits for its
load. -/
def Dev.enterEpoch (d : Dev) (x : Ctx) (out : Bool) (e : Nat) : Dev :=
  d.writeEpoch x (if out then d.outHalf x.site else 1 - d.outHalf x.site) (e + 1)

/-- Advance CUM past every contiguous number received. -/
def advanceCum : Nat → Nat → List Nat → Nat × List Nat
  | 0, cum, l => (cum, l)
  | n + 1, cum, l => if l.contains cum then advanceCum n (cum + 1) (l.filter (· != cum)) else (cum, l)

/-- COLL_ID of a TOUR segment. -/
def segColl (g : Segment) : Nat := ofBE (slice g.tail 0 4)

/-- CHUNK and PIECE of a TOUR segment (Table 6.4: bytes 32 to 35 are one number in network order). -/
def segPiece (g : Segment) : Nat × Nat := (ofBE (slice g.tail 8 4), ofBE (slice g.tail 15 1) % 32)

/-- The item a segment belongs to. -/
def segKey (g : Segment) : ItemKey :=
  if g.typ = 3 then
    ⟨3, segColl g, (segPiece g).1, (segPiece g).2, ofBE (slice g.tail 14 1) % 32, ofBE (slice g.tail 13 1) % 8⟩
  else ⟨g.typ.toNat, 0, g.opn.toNat, 0, 0, 0⟩

/-- A segment is marked received (R168 step 5): HIGH and CUM follow, and where CUM enters an epoch the next key is written (R316); one of a tour
waits to be shown by a receipt (R122). Marking it again changes nothing. -/
def Dev.markReceived (d : Dev) (c seq : Nat) : Dev :=
  let x := d.ctx c
  let old := decide (seq < x.rcvCum) || x.rcvd.contains seq
  let p := if old then (x.rcvCum, x.rcvd) else advanceCum (x.rcvd.length + 1) x.rcvCum (x.rcvd ++ [seq])
  let news := if old then [] else (x.held.filter (fun h => h.seq == seq && h.seg.typ == 3)).map (fun h => (seq, segKey h.seg))
  let y := { x with rcvd := p.2, rcvCum := p.1, rcvHigh := max x.rcvHigh seq, fresh := x.fresh ++ news }
  let d1 := d.setCtx c y
  if epochOf x.rcvCum < epochOf p.1 then d1.enterEpoch y false (epochOf p.1) else d1

/-- A segment is received and leaves its receive buffer. -/
def Dev.received (d : Dev) (c seq : Nat) : Dev :=
  (d.markReceived c seq).onCtx c (fun x => { x with held := x.held.filter (fun (h : HeldSeg) => h.seq != seq) })

/-- The four half-keys of a SEALED context that has just opened: epochs 0 and 1 of both directions (R310, R316). -/
def Dev.openKeys (d : Dev) (c : Nat) : Dev :=
  let x := d.ctx c
  if d.ctxSealed x then
    let y := { x with kstr := d.kStr x (d.strBase x.site) }
    ((((d.setCtx c y).writeEpoch y 0 0).writeEpoch y 1 0).writeEpoch y 0 1).writeEpoch y 1 1
  else d

/-- Zeroise a pair and end its binding (R311). -/
def Dev.dropPair (d : Dev) (pair : Nat) : Dev :=
  ((((d.setHalf (4 * pair) none).setHalf (4 * pair + 1) none).setHalf (4 * pair + 2) none).setHalf (4 * pair + 3) none).setBound pair none

/-- The pairs of a tenant's range (R309). -/
def Dev.pairRange (d : Dev) (t : Nat) : List Nat := (List.range (d.f R.VTTEN.PAIR_COUNT t)).map (· + d.f R.VTTEN.PAIR_BASE t)

/-- The pair of a tenant's range already bound to a stream key. -/
def Dev.pairFor (d : Dev) (t job site cls w : Nat) : Option Nat :=
  (d.pairRange t).find? (fun i => match d.bound i with
    | some b => b.job == job && b.site == site && b.cls == cls && b.wing == w
    | none => false)

/-- Contexts bound to a cluster. -/
def Dev.clusterLoad (d : Dev) (k : Nat) : Nat := (d.ctxs.filter (fun e => e.2.reserved && e.2.cluster == k)).length

/-- Clusters of wing w that may take a context: not gated, not fenced, with room for the two slots of a pair among their 8,192 (R321). -/
def Dev.roomyClusters (d : Dev) (w : Nat) : List Nat :=
  ((List.range 10).map (fun k => 10 * w + k)).filter (fun k =>
    !(d.f R.VT_PWR_RES.GATED).testBit k && !d.clusterFence.contains k && decide (2 * d.clusterLoad k + 2 ≤ 8192))

/-- Of them those that no block reset keeps quiesced (R369). -/
def Dev.freeClusters (d : Dev) (w : Nat) : List Nat := (d.roomyClusters w).filter (fun k => !d.blkHeld 3 k)

/-- The least loaded cluster of wing w (R310): the number of contexts bound decides, the lower cluster on a tie. -/
def Dev.chooseCluster (d : Dev) (w : Nat) : Nat :=
  let free := d.freeClusters w
  free.foldl (fun best k => if d.clusterLoad k < d.clusterLoad best then k else best) (free.headD (10 * w))

/-- No cluster of wing w takes a context now: BUSY where a block reset alone keeps one from it (R369), else QUOTA_EXCEEDED (DESIGN CHOICE, log
entry 117); 0 where one does. -/
def Dev.clusterCheck (d : Dev) (w : Nat) : Nat :=
  if !(d.freeClusters w).isEmpty then 0 else if (d.roomyClusters w).isEmpty then 0x05 else 0x12

end Sys2Proof.Machine
end

