-- ==== Sys2Proof/Machine/Flags.lean ====
section
/-! DEFINITION. The arithmetic of the tour engine (R77 to R100): formats, exact values, rounding, block re-encoding, compensated pairs,
and what each result counts (TOUR_ARITH.SAT and NAN), with the residue check's replays and lane fences. -/

namespace Sys2Proof.Machine

open Sys2Proof

/-! ### Exact values -/

/-- An exact value: (−1)^neg · mag · 2^ex, an infinity, or not a number. -/
inductive FVal where
  | nan
  | inf (neg : Bool)
  | fin (neg : Bool) (mag : Nat) (ex : Int)
deriving DecidableEq, Repr

/-- A binary format: exponent and fraction bits, whether it has infinities, and the largest code of a finite magnitude. -/
structure FFmt where
  ebits : Nat
  mbits : Nat
  hasInf : Bool
  maxCode : Nat
  /-- The canonical quiet NaN (R81). -/
  nan : Nat
deriving DecidableEq, Repr

/-- bfloat16. -/
def fmtBf16 : FFmt := ⟨8, 7, true, 0x7F7F, 0x7FC0⟩
/-- binary16. -/
def fmtFp16 : FFmt := ⟨5, 10, true, 0x7BFF, 0x7E00⟩
/-- binary32. -/
def fmtFp32 : FFmt := ⟨8, 23, true, 0x7F7FFFFF, 0x7FC00000⟩
/-- E4M3: no infinity; the largest magnitude is 448. -/
def fmtE4m3 : FFmt := ⟨4, 3, false, 0x7E, 0x7F⟩
/-- E5M2. -/
def fmtE5m2 : FFmt := ⟨5, 2, true, 0x7B, 0x7E⟩
/-- E3M2, an MX element format. -/
def fmtE3m2 : FFmt := ⟨3, 2, false, 0x1F, 0x40⟩
/-- E2M1, an MX element format. -/
def fmtE2m1 : FFmt := ⟨2, 1, false, 0x7, 0x10⟩

/-- The exponent bias. -/
def FFmt.bias (f : FFmt) : Int := (2 ^ (f.ebits - 1) - 1 : Nat)
/-- All bits of the format but the sign. -/
def FFmt.bits (f : FFmt) : Nat := f.ebits + f.mbits

/-- The exact value of a magnitude code. -/
def FFmt.magOf (f : FFmt) (c : Nat) : Nat × Int :=
  let e := c / 2 ^ f.mbits
  let m := c % 2 ^ f.mbits
  if e = 0 then (m, 1 - f.bias - (f.mbits : Int)) else (2 ^ f.mbits + m, (e : Int) - f.bias - (f.mbits : Int))

/-- The exact value of a code (R80: widening loses nothing). -/
def FFmt.decode (f : FFmt) (c : Nat) : FVal :=
  let neg := c / 2 ^ f.bits % 2 == 1
  let mag := c % 2 ^ f.bits
  if mag ≤ f.maxCode then .fin neg (f.magOf mag).1 (f.magOf mag).2
  else if f.hasInf && mag == f.maxCode + 1 then .inf neg
  else .nan

/-- floor(log2 n) for n > 0. -/
def log2 (n : Nat) : Nat := n.log2

/-- How a rounding decides: to nearest even, or stochastically with a 24-bit draw (R84, R85). -/
inductive RMode where
  | even
  | draw (r : Nat)
deriving DecidableEq, Repr

/-- mag · 2^sh as a whole number and whether the magnitude goes up by one unit in the last place (R84, R85). -/
def roundShift (mode : RMode) (mag : Nat) (sh : Int) : Nat :=
  if 0 ≤ sh then mag * 2 ^ sh.toNat
  else
    let k := (-sh).toNat
    let t := mag / 2 ^ k
    let rem := mag % 2 ^ k
    match mode with
    | .even => if 2 * rem < 2 ^ k then t else if 2 ^ k < 2 * rem then t + 1 else t + t % 2
    | .draw r => if r < rem * 2 ^ 24 / 2 ^ k then t + 1 else t

/-- Round a finite magnitude to a format with an unbounded exponent range: the significand and the exponent of its unit. -/
def FFmt.roundMag (f : FFmt) (mode : RMode) (mag : Nat) (ex : Int) : Nat × Int :=
  if mag = 0 then (0, 0)
  else
    let top := (log2 mag : Int) + ex
    let q := max (top - (f.mbits : Int)) (1 - f.bias - (f.mbits : Int))
    (roundShift mode mag (ex - q), q)

/-- The code of t · 2^q, which fits the format's precision; above the largest finite magnitude the answer exceeds `maxCode`. -/
def FFmt.codeOf (f : FFmt) (t : Nat) (q : Int) : Nat :=
  if t = 0 then 0
  else
    let e := (log2 t : Int) + q
    if e < 1 - f.bias then t * 2 ^ (q - (1 - f.bias - (f.mbits : Int))).toNat
    else
      let frac := if (log2 t) ≤ f.mbits then t * 2 ^ (f.mbits - log2 t) else t / 2 ^ (log2 t - f.mbits)
      ((e + f.bias).toNat) * 2 ^ f.mbits + (frac - 2 ^ f.mbits)

/-- A result: its code, how many saturations and how many canonical NaNs it counts. -/
structure ARes where
  code : Nat
  sat : Nat
  nan : Nat
deriving DecidableEq, Repr

/-- Round an exact value into a format (R81, R82, R84). -/
def FFmt.encode (f : FFmt) (mode : RMode) (v : FVal) : ARes :=
  match v with
  | .nan => ⟨f.nan, 0, 1⟩
  | .inf neg =>
    let s := if neg then 2 ^ f.bits else 0
    if f.hasInf then ⟨s + f.maxCode + 1, 0, 0⟩ else ⟨s + f.maxCode, 1, 0⟩
  | .fin neg mag ex =>
    let s := if neg then 2 ^ f.bits else 0
    let r := f.roundMag mode mag ex
    let c := f.codeOf r.1 r.2
    if c ≤ f.maxCode then ⟨s + c, 0, 0⟩
    else if f.hasInf then ⟨s + f.maxCode + 1, 0, 0⟩
    else ⟨s + f.maxCode, 1, 0⟩

/-! ### Operations on exact values -/

/-- REDOP codes (Table 3.4): 0 SUM, 1 MIN, 2 MAX, 3 AVG, 4 BAND, 5 BOR, 6 BXOR. -/
abbrev RedOp := Nat

/-- A finite value as a whole number at an exponent not above its own. -/
def FVal.atExp (neg : Bool) (mag : Nat) (ex e : Int) : Int :=
  (if neg then -1 else 1) * ((mag * 2 ^ (ex - e).toNat : Nat) : Int)

/-- The exact sum (R81: an exact zero is +0 unless both operands are −0). -/
def FVal.add : FVal → FVal → FVal
  | .nan, _ => .nan
  | _, .nan => .nan
  | .inf a, .inf b => if a = b then .inf a else .nan
  | .inf a, .fin _ _ _ => .inf a
  | .fin _ _ _, .inf b => .inf b
  | .fin na ma ea, .fin nb mb eb =>
    let e := min ea eb
    let z := FVal.atExp na ma ea e + FVal.atExp nb mb eb e
    if z = 0 then .fin (na && nb && ma == 0 && mb == 0) 0 0 else .fin (z < 0) z.natAbs e

/-- a is at most b, −0 below +0; neither is a NaN (R81). -/
def FVal.le : FVal → FVal → Bool
  | .inf a, .inf b => a || !b
  | .inf a, .fin _ _ _ => a
  | .fin _ _ _, .inf b => !b
  | .fin na ma ea, .fin nb mb eb =>
    let e := min ea eb
    let x := FVal.atExp na ma ea e
    let y := FVal.atExp nb mb eb e
    if x = 0 ∧ y = 0 then na || !nb else decide (x ≤ y)
  | _, _ => false

/-- SUM, MIN, MAX and the sum of AVG on exact values. -/
def FVal.op (o : RedOp) (a b : FVal) : FVal :=
  if o = 1 ∨ o = 2 then
    (if a = .nan ∨ b = .nan then .nan else if a.le b then (if o = 1 then a else b) else (if o = 1 then b else a))
  else a.add b

/-- The exact value divided by 2^n (R83). -/
def FVal.half (n : Nat) : FVal → FVal
  | .fin s m e => .fin s m (e - (n : Int))
  | v => v

/-! ### Stochastic rounding (R85) -/

/-- mix of R85, modulo 2^64. -/
def mix64 (z : Nat) : Nat :=
  let z1 := (z ^^^ (z / 2 ^ 30)) * 0xBF58476D1CE4E5B9 % 2 ^ 64
  let z2 := (z1 ^^^ (z1 / 2 ^ 27)) * 0x94D049BB133111EB % 2 ^ 64
  z2 ^^^ (z2 / 2 ^ 31)

/-- The 24 random bits of an element (R85). -/
def srDraw (seed tid step idx : Nat) : Nat :=
  mix64 (mix64 (seed ^^^ (tid * 2 ^ 8 % 2 ^ 64) ^^^ step) ^^^ idx) / 2 ^ 40

/-- What fixes the draws of one rounding pass: SR, SEED, TID and STEP. -/
structure RCtx where
  sr : Bool
  seed : Nat
  tid : Nat
  step : Nat
deriving DecidableEq, Repr

/-- The rounding mode of an element whose target may be rounded stochastically. -/
def RCtx.mode (c : RCtx) (idx : Nat) : RMode := if c.sr then .draw (srDraw c.seed c.tid c.step idx) else .even

/-! ### Formats (Tables 3.2 and 3.3) -/

/-- An MX element format: a binary format, or two's complement in units of 2^-6. -/
inductive MxFmt where
  | e4m3
  | e3m2
  | e2m1
  | int8
deriving DecidableEq, Repr

/-- Element bits. -/
def MxFmt.width : MxFmt → Nat
  | .e4m3 => 8
  | .e3m2 => 6
  | .e2m1 => 4
  | .int8 => 8

/-- emax of R86. -/
def MxFmt.emax : MxFmt → Int
  | .e4m3 => 8
  | .e3m2 => 4
  | .e2m1 => 2
  | .int8 => 0

/-- The exact value of an MX element without its scale. -/
def MxFmt.decode (f : MxFmt) (c : Nat) : FVal :=
  match f with
  | .e4m3 => fmtE4m3.decode c
  | .e3m2 => fmtE3m2.decode c
  | .e2m1 => fmtE2m1.decode c
  | .int8 => let z := signed 8 c; .fin (z < 0) z.natAbs (-6)

/-- Round an exact value into an MX element (R82, R84). -/
def MxFmt.encode (f : MxFmt) (mode : RMode) (v : FVal) : ARes :=
  match f with
  | .e4m3 => fmtE4m3.encode mode v
  | .e3m2 => fmtE3m2.encode mode v
  | .e2m1 => fmtE2m1.encode mode v
  | .int8 =>
    match v with
    | .fin neg mag ex =>
      let t := roundShift mode mag (ex + 6)
      let u := min t 127
      ⟨if neg then (256 - u) % 256 else u, if 127 < t then 1 else 0, 0⟩
    | .inf neg => ⟨if neg then 129 else 127, 1, 0⟩
    | .nan => ⟨0, 0, 1⟩

/-- An element or partial format by what it holds. -/
inductive PFmt where
  /-- A binary format, one element a unit. -/
  | flt (f : FFmt)
  /-- An integer of a width. -/
  | int (w : Nat)
  /-- A compensated pair s + 2^32·e of binary32 codes. -/
  | pair
  /-- A block of 32 MX elements: scale byte, then the packed elements. -/
  | mx (f : MxFmt)
deriving DecidableEq, Repr

/-- The format of a FORMAT code in memory (Table 3.2): FP32C is binary32 there. -/
def memFmt (code : Nat) : PFmt :=
  match code with
  | 0x0 => .flt fmtBf16
  | 0x1 => .flt fmtFp16
  | 0x2 => .flt fmtFp32
  | 0x3 => .flt fmtE4m3
  | 0x4 => .flt fmtE5m2
  | 0x5 => .mx .e4m3
  | 0x6 => .mx .e3m2
  | 0x7 => .mx .e2m1
  | 0x8 => .mx .int8
  | 0x9 => .int 8
  | 0xA => .int 16
  | 0xB => .int 32
  | 0xC => .int 64
  | _ => .flt fmtFp32

/-- The partial format (Table 3.3). -/
def partialFmt (code wide : Nat) : PFmt :=
  if code = 0xD then .pair
  else if wide = 1 ∧ code ≤ 8 then .flt fmtFp32
  else memFmt code

/-- Bytes of a unit of a FORMAT code in memory (Table 3.2). -/
def unitBytes (code : Nat) : Nat :=
  match code with
  | 0x0 => 2
  | 0x1 => 2
  | 0x2 => 4
  | 0x5 => 33
  | 0x6 => 25
  | 0x7 => 17
  | 0x8 => 33
  | 0xA => 2
  | 0xB => 4
  | 0xC => 8
  | 0xD => 4
  | _ => 1

/-- Elements of a unit. -/
def unitElems (code : Nat) : Nat := if 5 ≤ code ∧ code ≤ 8 then 32 else 1

/-- Bytes of a unit of a partial format. -/
def PFmt.bytes : PFmt → Nat
  | .flt f => (f.bits + 1) / 8
  | .int w => w / 8
  | .pair => 8
  | .mx f => 1 + 4 * f.width

/-- Elements of a unit of a partial format. -/
def PFmt.elems : PFmt → Nat
  | .mx _ => 32
  | _ => 1

/-- Results of a list of units: codes in order, saturations and NaNs counted. -/
structure ASum where
  codes : List Nat
  sat : Nat
  nan : Nat
deriving DecidableEq, Repr

/-- Gather results. -/
def gatherRes (l : List ARes) : ASum := ⟨l.map (·.code), (l.map (·.sat)).sum, (l.map (·.nan)).sum⟩

/-! ### MX blocks (R86) -/

/-- The 32 exact values of a block number: scale in its low byte. -/
def mxDecode (f : MxFmt) (blk : Nat) : List FVal :=
  let sc := blk % 256
  (List.range 32).map (fun i =>
    let c := blk / 2 ^ (8 + f.width * i) % 2 ^ f.width
    if sc = 255 then .nan
    else match f.decode c with
      | .fin n m e => .fin n m (e + (sc : Int) - 127)
      | v => v)

/-- floor(log2) of the largest magnitude of a list of finite values; none when all are zero. -/
def topExp (l : List FVal) : Option Int :=
  l.foldl (fun acc v =>
    match v with
    | .fin _ m e =>
      if m = 0 then acc
      else
        let t := (log2 m : Int) + e
        match acc with
        | none => some t
        | some a => some (max a t)
    | _ => acc) none

/-- Pack scale and element codes into a block number. -/
def mxPack (f : MxFmt) (scale : Nat) (codes : List Nat) : Nat :=
  scale + 256 * (codes.mapIdx (fun i c => c % 2 ^ f.width * 2 ^ (f.width * i))).sum

/-- Re-encode 32 exact values (R86); `idx` is the index of the first element. -/
def mxEncode (f : MxFmt) (c : RCtx) (idx : Nat) (vs : List FVal) : ARes :=
  if vs.any (fun v => match v with | .fin _ _ _ => false | _ => true) then ⟨255, 0, 1⟩
  else
    match topExp vs with
    | none => ⟨127, 0, 0⟩
    | some t =>
      let e := t - f.emax
      let ec := max (-127) (min 127 e)
      let rs := vs.mapIdx (fun i v =>
        match v with
        | .fin n m x => f.encode (c.mode (idx + i)) (.fin n m (x - ec))
        | v => f.encode (c.mode (idx + i)) v)
      ⟨mxPack f (ec + 127).toNat (rs.map (·.code)), (rs.map (·.sat)).sum + (if 127 < e then 1 else 0), 0⟩

/-! ### Compensated pairs (R87) -/

/-- A binary32 operation with rounding to nearest even. -/
def fl32 (v : FVal) : Nat := (fmtFp32.encode .even v).code

/-- fl(a + b) on binary32 codes. -/
def add32 (a b : Nat) : Nat := fl32 ((fmtFp32.decode a).add (fmtFp32.decode b))

/-- −a. -/
def neg32 (a : Nat) : Nat := a ^^^ 2 ^ 31

/-- The code is infinite or a NaN. -/
def special32 (a : Nat) : Bool := 0x7F800000 ≤ a % 2 ^ 31

/-- two_sum of R87. -/
def twoSum (a b : Nat) : Nat × Nat :=
  let s := add32 a b
  let bv := add32 s (neg32 a)
  (s, add32 (add32 a (neg32 (add32 s (neg32 bv)))) (add32 b (neg32 bv)))

/-- fast_two_sum of R87. -/
def fastTwoSum (a b : Nat) : Nat × Nat :=
  let s := add32 a b
  (s, add32 b (neg32 (add32 s (neg32 a))))

/-- combine of R87 on pair units. -/
def pairCombine (p x : Nat) : ARes :=
  let s := twoSum (p % 2 ^ 32) (x % 2 ^ 32)
  let nanOf := fun (c : Nat) => if fmtFp32.decode c = .nan then 1 else 0
  if special32 s.1 then ⟨s.1, 0, nanOf s.1⟩
  else
    let c := add32 (add32 (p / 2 ^ 32) (x / 2 ^ 32)) s.2
    let r := fastTwoSum s.1 c
    if special32 r.1 then ⟨r.1, 0, nanOf r.1⟩ else ⟨r.1 + 2 ^ 32 * r.2, 0, 0⟩

/-! ### Combine, widen, divide, narrow -/

/-- Integer results (R83): SUM wraps, MIN and MAX are signed, the others bitwise. -/
def intOp (w : Nat) (o : RedOp) (a b : Nat) : Nat :=
  match o with
  | 1 => if signed w a ≤ signed w b then a else b
  | 2 => if signed w a ≤ signed w b then b else a
  | 4 => a &&& b
  | 5 => a ||| b
  | 6 => a ^^^ b
  | _ => (a + b) % 2 ^ w

/-- Rounding of a plain float target: to binary32 always to nearest even (R84). -/
def fltMode (f : FFmt) (c : RCtx) (idx : Nat) : RMode := if f = fmtFp32 then .even else c.mode idx

/-- One unit of a combine (R80, R83, R86, R87): P op X rounded once. -/
def combineUnit (pf : PFmt) (o : RedOp) (c : RCtx) (idx p x : Nat) : ARes :=
  match pf with
  | .flt f => f.encode (fltMode f c idx) (FVal.op o (f.decode p) (f.decode x))
  | .int w => ⟨intOp w o p x, 0, 0⟩
  | .pair => pairCombine p x
  | .mx f => mxEncode f c idx (List.zipWith (FVal.op o) (mxDecode f p) (mxDecode f x))

/-- Combine two lists of units; `idx` is the element index of the first. -/
def combineList (pf : PFmt) (o : RedOp) (c : RCtx) (idx : Nat) (p x : List Nat) : ASum :=
  gatherRes ((List.zip p x).mapIdx (fun i e => combineUnit pf o c (idx + i * pf.elems) e.1 e.2))

/-- Widen an MX element value to binary32 (R80): a magnitude above the largest finite one stands at it, and counts. -/
def widenMx (v : FVal) : ARes :=
  match v with
  | .fin n m e =>
    let r := fmtFp32.encode .even (.fin n m e)
    if special32 r.code then ⟨(if n then 2 ^ 31 else 0) + fmtFp32.maxCode, 1, 0⟩ else r
  | v => fmtFp32.encode .even v

/-- Source units of a FORMAT code as units of the partial format (R77, R80, R87). A NaN that is widened counts as a canonical NaN produced,
each element of a NaN block once (DESIGN CHOICE, log entry 94). -/
def widenList (code wide : Nat) (src : List Nat) : ASum :=
  match partialFmt code wide, memFmt code with
  | .flt _, .mx f => gatherRes (src.flatMap (fun b => (mxDecode f b).map widenMx))
  | .flt g, .flt f => if f = g then ⟨src, 0, 0⟩ else gatherRes (src.map (fun b => g.encode .even (f.decode b)))
  | _, _ => ⟨src, 0, 0⟩

/-- AVG at the owner: one division by N = 2^n, rounded to the partial format (R83). -/
def divideList (pf : PFmt) (n : Nat) (c : RCtx) (idx : Nat) (l : List Nat) : ASum :=
  gatherRes (l.mapIdx (fun i u =>
    let k := idx + i * pf.elems
    match pf with
    | .flt f => f.encode (fltMode f c k) ((f.decode u).half n)
    | .int _ => ⟨u, 0, 0⟩
    | .pair =>
      let s := fl32 ((fmtFp32.decode (u % 2 ^ 32)).half n)
      let e := fl32 ((fmtFp32.decode (u / 2 ^ 32)).half n)
      ⟨s + 2 ^ 32 * e, 0, if fmtFp32.decode s = .nan then 1 else 0⟩
    | .mx f => mxEncode f c k ((mxDecode f u).map (FVal.half n))))

/-- Narrow partial units to the destination format (R80, R86, R87); `idx` is the element index of the first. -/
def narrowList (code wide : Nat) (c : RCtx) (idx : Nat) (l : List Nat) : ASum :=
  match partialFmt code wide, memFmt code with
  | .flt g, .mx f =>
    gatherRes ((chunksOf 32 l).mapIdx (fun i b => mxEncode f c (idx + 32 * i) (b.map g.decode)))
  | .flt g, .flt f =>
    if f = g then ⟨l, 0, 0⟩ else gatherRes (l.mapIdx (fun i u => f.encode (fltMode f c (idx + i)) (g.decode u)))
  | .pair, _ => gatherRes (l.map (fun u => fmtFp32.encode .even ((fmtFp32.decode (u % 2 ^ 32)).add (fmtFp32.decode (u / 2 ^ 32)))))
  | _, _ => ⟨l, 0, 0⟩

/-! ### Units and bytes -/

/-- Bytes as little-endian units. -/
def toUnits (n : Nat) (l : List Byte) : List Nat := (chunksOf n l).map ofLE

/-- Units as little-endian bytes. -/
def ofUnits (n : Nat) (l : List Nat) : List Byte := l.flatMap (leBytes n)

/-! ### Digest (R100) -/

/-- One byte of CRC-64, polynomial 0x42F0_E1EB_A9EA_3693, most significant bit first. -/
def crc64Byte (c : BitVec 64) (b : Byte) : BitVec 64 :=
  (List.range 8).foldl (fun a _ => if a.getLsbD 63 then (a <<< 1) ^^^ 0x42F0E1EBA9EA3693 else a <<< 1)
    (c ^^^ ((b.setWidth 64) <<< 56))

/-- DIGEST of bytes. -/
def crc64 (l : List Byte) : BitVec 64 := ~~~(l.foldl crc64Byte 0xFFFFFFFFFFFFFFFF)

/-- The bytes of partial units that DIGEST covers, in network byte order; pairs as s, e; MX blocks as stored in memory. -/
def digestBytes (pf : PFmt) (l : List Nat) : List Byte :=
  match pf with
  | .mx _ => ofUnits pf.bytes l
  | .pair => l.flatMap (fun u => beBytes 4 (u % 2 ^ 32) ++ beBytes 4 (u / 2 ^ 32))
  | _ => l.flatMap (beBytes pf.bytes)

/-! ### Residue checks, replays and lane fences (R89 to R91) -/

/-- The residue of a number modulo 7 as the sum of its 3-bit groups (R89). -/
def residue7 (a : Nat) : Nat := ((List.range 43).map (fun i => a / 8 ^ i % 8)).sum % 7

/-- The parities of the 16 bytes of a number. -/
def byteParities (a : Nat) : List Nat := (List.range 16).map (fun i => popcount 8 (a / 256 ^ i % 256) % 2)

/-- What BAND, BOR or BXOR makes of two numbers. -/
def bitOp (redop a b : Nat) : Nat := if redop = 4 then a &&& b else if redop = 5 then a ||| b else a ^^^ b

/-- The check of R89 on a result z of a fault's operation: its residue against the residues of the operands; for BAND, BOR and BXOR its
byte parities. -/
def faultPasses (f : BeatFault) (redop z : Nat) : Bool :=
  if 4 ≤ redop then byteParities z == byteParities (bitOp redop f.a f.b)
  else if f.sub then residue7 z == (residue7 f.a + (7 - residue7 f.b)) % 7
  else residue7 z == (residue7 f.a + residue7 f.b) % 7

/-- A lane is fenced: FENCE is set, the first fenced lane is carried by the spare (R91). -/
def Dev.fenceLane (d : Dev) (w lane : Nat) : Dev :=
  let old := d.f R.TOUR_LANES.FENCED w
  if old.testBit lane then d
  else
    let new := old ||| 2 ^ lane
    let n := popcount 32 new
    let spareBad := new.testBit 32
    let use := !spareBad && decide (0 < n)
    let d1 := ((d.set R.TOUR_LANES.FENCED w new).set R.TOUR_LANES.SPARE_USED w (if use then 1 else 0)).set R.TOUR_LANES.WORKING w
      (32 - n + (if use then 1 else 0))
    (d1.set R.TOUR_ERR.FENCE w 1).alarm 2 w 0x020 1 lane

/-- Successful same-lane replays of a lane within the last millisecond, with one more now (R91). -/
def Dev.laneReplay (d : Dev) (w lane : Nat) : Dev :=
  let k := 64 * w + lane
  let old := (tabGet (fun _ => ([] : List Nat)) d.laneHits k).filter (fun t => d.now - t < 1000000)
  let new := d.now :: old
  let d1 := { d with laneHits := tabPut (fun _ => []) k new d.laneHits }
  if max (d.f R.TOUR_CTL.FENCE_THR w) 1 ≤ new.length then d1.fenceLane w lane else d1

/-- The checks of a combine with errors, and the replays of the beats that fail theirs on wing w (R89, R90): the gateway after them, how
many replays, and the beats that fail all. An error that the check does not see is not modelled (log entry 88); the spare's
outcome counts whatever it carries (DESIGN CHOICE, log entry 137). -/
def Dev.replays (d : Dev) (w redop : Nat) (faults : List BeatFault) : Dev × Nat × List Nat :=
  faults.foldl (fun (acc : Dev × Nat × List Nat) b =>
    if faultPasses b redop b.z then acc
    else if faultPasses b redop b.zSame then (((acc.1.bump R.VAR_RESIDUE_RETRY.VALUE w).laneReplay w b.lane), acc.2.1 + 1, acc.2.2)
    else
      let a := acc.1.bump R.VAR_RESIDUE_RETRY.VALUE w 2
      if faultPasses b redop b.zSpare then (a.fenceLane w b.lane, acc.2.1 + 2, acc.2.2) else (a, acc.2.1 + 2, acc.2.2 ++ [b.beat])) (d, 0, [])

/-- Saturations and NaNs are counted in TOUR_ARITH of a wing (R82). -/
def Dev.arith (d : Dev) (w sat nan : Nat) : Dev := (d.bump R.TOUR_ARITH.SAT w sat).bump R.TOUR_ARITH.NAN w nan

end Sys2Proof.Machine
end

