-- ==== Sys2Proof/Machine/Ends.lean ====
section
/-! DEFINITION. Operations and collectives from their launch to their end: descriptor fields, windows of this site, memory
requests of operations, data delivered to windows, answers queued toward requesters, how an operation and a collective end. -/

namespace Sys2Proof.Machine

open Sys2Proof

/-! ### Descriptor fields (Tables 2.1 and 2.2) -/

/-- OPCODE. -/
def Desc.opcode (x : Desc) : Nat := bitsOf x.w0 0 8
/-- SUBOP. -/
def Desc.subop (x : Desc) : Nat := bitsOf x.w0 8 3
/-- IRQ. -/
def Desc.irq (x : Desc) : Bool := bitsOf x.w0 11 1 == 1
/-- FORMAT. -/
def Desc.format (x : Desc) : Nat := bitsOf x.w0 12 4
/-- REDOP. -/
def Desc.redop (x : Desc) : Nat := bitsOf x.w0 16 3
/-- SR. -/
def Desc.sr (x : Desc) : Bool := bitsOf x.w0 19 1 == 1
/-- USER_TAG. -/
def Desc.tag (x : Desc) : Nat := bitsOf x.w0 32 32
/-- RANK. -/
def Desc.rank (x : Desc) : Nat := bitsOf x.w1 0 22
/-- RORD. -/
def Desc.rord (x : Desc) : Nat := bitsOf x.w1 22 6
/-- LORD. -/
def Desc.lord (x : Desc) : Nat := bitsOf x.w1 28 6
/-- KIND. -/
def Desc.kind (x : Desc) : Nat := bitsOf x.w1 34 4
/-- LENGTH. -/
def Desc.len (x : Desc) : Nat := bitsOf x.w2 0 32
/-- TOKEN. -/
def Desc.token (x : Desc) : Nat := bitsOf x.w2 32 32
/-- LOFF. -/
def Desc.loff (x : Desc) : Nat := bitsOf x.w3 0 40
/-- ROFF. -/
def Desc.roff (x : Desc) : Nat := bitsOf x.w4 0 40
/-- OPA. -/
def Desc.opa (x : Desc) : Nat := x.w5.toNat
/-- OPB. -/
def Desc.opb (x : Desc) : Nat := x.w6.toNat
/-- DSLOT. -/
def Desc.dslot (x : Desc) : Nat := bitsOf x.w7 0 14
/-- TOUR_SET. -/
def Desc.tourSet (x : Desc) : Nat := bitsOf x.w5 0 16
/-- CHUNK_LOG. -/
def Desc.chunkLog (x : Desc) : Nat := bitsOf x.w5 16 3
/-- START. -/
def Desc.start (x : Desc) : Nat := bitsOf x.w5 24 40
/-- COLL_ID. -/
def Desc.collId (x : Desc) : Nat := bitsOf x.w6 0 32
/-- SLOT of a TABLE_PUBLISH. -/
def Desc.pubSlot (x : Desc) : Nat := bitsOf x.w5 0 13
/-- ACTIVATE of a TABLE_PUBLISH. -/
def Desc.activate (x : Desc) : Nat := bitsOf x.w5 24 40

/-! ### References to codec versions (R139 to R141) -/

/-- Replace the image of a version. -/
def Dev.setSlotImg (d : Dev) (slot v : Nat) (c : List Byte) : Dev := { d with codecImg := tabPut (fun _ => []) (2 * slot + v) c d.codecImg }

/-- REF of a version. -/
def refFld (v : Nat) : Fld := if v = 0 then R.SLOT.REF0 else R.SLOT.REF1

/-- The slot is IDLE: no operation holds a version. -/
def Dev.slotIdle (d : Dev) (n : Nat) : Bool := d.f R.SLOT.REF0 n == 0 && d.f R.SLOT.REF1 n == 0

/-- Tables of a slot leave the wings, those still on their way too; CODEC_STAGE ends where it waited for nothing else (R142). -/
def Dev.unstage (d : Dev) (n : Nat) (ver : Nat → Bool) : Dev :=
  let rest := d.stageReq.filter (fun r => !(r.1 == n && ver r.2.1))
  let d1 := { d with staged := d.staged.filter (fun (e : TabEnt) => !(e.slot == n && ver e.ver)), stageReq := rest }
  if !d.stageReq.isEmpty && rest.isEmpty then d1.set R.CODEC_STAGE.GO 0 0 else d1

/-- Discard both versions and the histogram of a slot (R139). -/
def Dev.slotDiscard (d : Dev) (n : Nat) : Dev :=
  let d1 := ((((d.setSlotImg n 0 []).setSlotImg n 1 []).set R.SLOT.OK0 n 0).set R.SLOT.OK1 n 0).set R.SLOT.HCOUNT n 0
  ({ d1 with hists := d1.hists.filter (fun (e : Nat × List (Nat × Nat)) => e.1 != n),
             histPend := d1.histPend.filter (fun (e : Nat × List (Nat × Nat)) => e.1 / 4 != n) } : Dev).unstage n (fun _ => true)

/-- Take a reference to a version. REF has 12 bits and stays at 4,095 (DESIGN CHOICE, log entry 112). -/
def Dev.refTake (d : Dev) (b : Nat × Nat) : Dev := d.bump (refFld b.2) b.1

/-- Give a reference back; a slot made invalid discards its versions once it is idle (R139), unless VALID is set again before
(DESIGN CHOICE, log entry 140). -/
def Dev.refDrop (d : Dev) (b : Nat × Nat) : Dev :=
  let d1 := d.drop (refFld b.2) b.1
  if !d1.on R.SLOT.VALID b.1 && d1.slotIdle b.1 then d1.slotDiscard b.1 else d1

/-! ### Operations -/

/-- The operation of a ring and index. -/
def Dev.getOp (d : Dev) (n i : Nat) : Option Op := d.ops.find? (fun o => o.ring == n && o.index == i)

/-- Change an operation. -/
def Dev.updOp (d : Dev) (n i : Nat) (g : Op → Op) : Dev :=
  { d with ops := d.ops.map (fun (o : Op) => if o.ring == n && o.index == i then g o else o) }

/-- The tenant of an operation's ring. -/
def Dev.opTenant (d : Dev) (o : Op) : Nat := d.f R.SQ_CTL.TENANT o.ring

/-- A request serves an operation. -/
def servesOp (n i : Nat) (u : ReqUse) : Bool :=
  match u with
  | .opRead a b => a == n && b == i
  | .opWrite a b => a == n && b == i
  | .opAtom a b _ => a == n && b == i
  | _ => false

/-- An operation ends with a status: its record is owed; what it still had to send, to read or to write is dropped. An operation
that has ended keeps its verdict. -/
def Dev.endOp (d : Dev) (n i status : Nat) (detail : Nat := 0) : Dev :=
  match d.getOp n i with
  | none => d
  | some o =>
    if o.stage = .done then d
    else
      let d1 := d.updOp n i (fun o => { o with stage := .done, verdict := ⟨status, detail⟩ })
      { d1 with reqs := d1.reqs.filter (fun q => !servesOp n i q.use),
                atomics := d1.atomics.filter (fun a => !(a.stream.isNone && a.ring == n && a.index == i)),
                ctxs := d1.ctxs.map (fun e => (e.1, { e.2 with sendq := e.2.sendq.filter (fun t => t.op != some (n, i)) })) }

/-- Admission is refused (R29 step 7): the operation ends without having been admitted. -/
def Dev.refuseOp (d : Dev) (n i status : Nat) : Dev := (d.updOp n i (fun o => { o with admitted := false })).endOp n i status

/-- An operation completes: OK, or DEGRADED_OK after recovery events (R51, R90). -/
def Dev.okOp (d : Dev) (n i : Nat) : Dev :=
  match d.getOp n i with
  | none => d
  | some o => d.endOp n i (if o.events = 0 then 0 else 0x10)

/-! ### Windows of this site (Table 1.7) -/

/-- The memory key of a byte of a window. -/
def Dev.winKey (d : Dev) (w off : Nat) : Nat :=
  memKey (nodeSpace (d.on R.WINDOW.LOC w) (if d.on R.WINDOW.LOC w then d.f R.WINDOW.EP w % 256 else d.f R.WINDOW.EP w))
    (d.f R.WINDOW.ADDR w + off)

/-- The node of a window: a PCIe function (LOC = 1) or an endpoint. -/
def Dev.winNode (d : Dev) (w : Nat) : Nat := if d.on R.WINDOW.LOC w then d.f R.WINDOW.EP w % 256 else d.f R.WINDOW.EP w

/-- Ask for bytes of a window. -/
def Dev.winRead (d : Dev) (use : ReqUse) (w off len tenant : Nat) : Dev :=
  d.request use false (d.on R.WINDOW.LOC w) (d.winNode w) ((d.f R.WINDOW.ADDR w + off) % 2 ^ 64) len [] tenant

/-- Write bytes into a window; answers the acknowledgements owed. -/
def winWrite (use : ReqUse) (w off tenant : Nat) (data : List Byte) (d : Dev) (m : List Host.Cell) : Dev × List Host.Cell × Nat :=
  nodeWrite use (d.on R.WINDOW.LOC w) (d.winNode w) ((d.f R.WINDOW.ADDR w + off) % 2 ^ 64) tenant data d m

/-- The right an opcode needs at its target (Tables 1.8, 1.9). -/
def rightOf (opcode : Nat) : Nat :=
  match opcode with
  | 0x01 => 1
  | 0x02 => 0
  | 0x03 => 2
  | 0x07 => 4
  | _ => 3

/-- The checks of R30: 0 when they pass. -/
def Dev.targetCheck (d : Dev) (tenant jobId win ord token opcode off len : Nat) : Nat :=
  let j := d.f R.WINDOW.JOB win
  if !(d.on R.WINDOW.VALID win && d.f R.WINDOW.TENANT win == tenant && d.f R.JOB.JOB_ID j == jobId && d.f R.WINDOW.ORD win == ord &&
      d.f R.WINDOW.TOKEN win == token && (d.f R.WINDOW.RIGHTS win).testBit (rightOf opcode)) then 0x03
  else if d.f R.WINDOW.LEN win < off + len then 0x02
  else 0

/-- A refusal at the target as the GLOBAL block counts it (R30). -/
def Dev.targetRefused (d : Dev) (status : Nat) : Dev := if status = 0x03 then d.bump R.GLOBAL_ERR.DENIED 0 else d

/-! ### Data into windows -/

/-- Where bytes end within an element, the spec states no result for what is left: free values (log entry 18). -/
def freeTail (k u : Nat) (l : List Byte) : List Byte :=
  let n := l.length / u * u
  (List.zip l (List.range l.length)).map (fun p => if n ≤ p.2 then BitVec.ofNat 8 (Config.freeByte k p.2).toNat else p.1)

/-- x − S in the bound format of a DELTA_PUT (R41), unit by unit. -/
def deltaDiff (k fmt : Nat) (x s : List Byte) : List Byte :=
  let u := unitBytes fmt
  freeTail k u <| List.take x.length <| ofUnits u (List.zipWith (fun a b =>
    match memFmt fmt with
    | .flt f => (f.encode .even (FVal.add (f.decode a) (f.decode (b ^^^ 2 ^ f.bits)))).code
    | _ => (a + 2 ^ (8 * u) - b % 2 ^ (8 * u)) % 2 ^ (8 * u)) (toUnits u x) (toUnits u s))

/-- T + d in the same arithmetic (R41). -/
def deltaSum (k fmt : Nat) (t x : List Byte) : List Byte :=
  let u := unitBytes fmt
  freeTail k u <| List.take x.length <| ofUnits u (combineList (memFmt fmt) 0 ⟨false, 0, 0, 0⟩ 0 (toUnits u t) (toUnits u x)).codes

/-- Beats of 64 bytes that failed every replay: whether a unit at byte offset o, n bytes long, lies in one. -/
def inBadBeat (bad : List Nat) (o n : Nat) : Bool := bad.any (fun k => k * 64 < o + n && o < k * 64 + 64)

/-- Combine source units into a window (R34): t ← t op e for every unit outside the failed beats, on wing w. SAT and NAN count the units of
failed beats too (DESIGN CHOICE, log entry 138). -/
def reduceInto (use : ReqUse) (w win off tenant fmt redop : Nat) (c : RCtx) (idx : Nat) (bad : List Nat) (src : List Byte)
    (d : Dev) (m : List Host.Cell) : Dev × List Host.Cell × Nat :=
  let u := unitBytes fmt
  let old := toUnits u (memRead m (d.winKey win off) src.length)
  let r := combineList (memFmt fmt) redop c idx old (toUnits u src)
  let new := (List.zip old r.codes).mapIdx (fun i p => if inBadBeat bad (i * u) u then p.1 else p.2)
  let p := winWrite use win off tenant (ofUnits u new) d m
  (p.1.arith w r.sat r.nan, p.2)

/-! ### Source reads of operations -/

/-- Bytes an operation reads at a time: the READ_REQ limit in whole units (R331; one read at a time is the model's choice, log
entry 15). -/
def Dev.askSize (d : Dev) (o : Op) : Nat :=
  let u := if o.d.opcode = 0x03 then unitBytes o.d.format else 1
  d.readMax / u * u

/-- A stretch of n bytes from byte o of a window, cut so that it ends with an aligned 8-byte unit of the window (R46, R47). -/
def wholeUnits (o n : Nat) : Nat := n - (o + n) % 8

/-- Where an operation reads: its local window, or for a GET of this site the remote window. -/
def Op.readFrom (o : Op) : Nat × Nat := if o.d.opcode = 0x02 then (o.rwin, o.d.roff) else (o.lwin, o.d.loff)

/-- Ask for the next source bytes of an operation; a PUT's and a GET's in whole units of the remote window (R46, R47). -/
def Dev.askOp (d : Dev) (n i : Nat) : Dev :=
  match d.getOp n i with
  | none => d
  | some o =>
    if o.stage ≠ .running ∨ o.d.len ≤ o.asked then d
    else
      let rest := o.d.len - o.asked
      let k := if rest ≤ d.askSize o then rest
        else if o.d.opcode = 0x01 ∨ o.d.opcode = 0x02 then wholeUnits (o.d.roff + o.asked) (d.askSize o) else d.askSize o
      let d1 := d.updOp n i (fun o => { o with asked := o.asked + k })
      d1.winRead (.opRead n i) o.readFrom.1 (o.readFrom.2 + o.asked) k (d.opTenant o)

/-! ### Delta snapshots (R40 to R44) -/

/-- The sender's end of a delta slot. -/
def Dev.deltaOut (d : Dev) (s : Nat) : Option DeltaOut := d.deltasOut.find? (fun x => x.slot == s)

/-- The receiver's snapshot that a DELTA_PUT or a release names (R274). -/
def Dev.deltaIn (d : Dev) (site jobId rank win off : Nat) : Option DeltaIn :=
  d.deltasIn.find? (fun x => x.site == site && x.jobId == jobId && x.rank == rank && x.win == win && x.off == off)

/-- The snapshot is the one named. -/
def DeltaIn.is (x : DeltaIn) (site jobId rank win off : Nat) : Bool :=
  x.site == site && x.jobId == jobId && x.rank == rank && x.win == win && x.off == off

/-- The delta slot an operation names: DELTA_BASE of its tenant plus DSLOT (R39). -/
def Dev.deltaSlot (d : Dev) (o : Op) : Nat := d.f R.TENANT.DELTA_BASE (d.opTenant o) + o.d.dslot

/-- How a DELTA_PUT's request is marked toward the receiver, for which Table 6.4 has no field (DESIGN CHOICE, log entry 16): 0 a difference,
1 a resync, 2 the first of its binding. -/
def Dev.deltaKind (d : Dev) (o : Op) : Nat :=
  if o.resync then 1 else if (d.deltaOut (d.deltaSlot o)).any (·.fresh) then 2 else 0

/-- The source rank that a DELTA_PUT names: the one of the binding DELTA_PUT, by which R274 names the receiver's snapshot, whichever rank of
the tenant now uses the slot (DESIGN CHOICE, log entry 109). -/
def Dev.deltaRank (d : Dev) (o : Op) : Nat := ((d.deltaOut (d.deltaSlot o)).map (·.rank)).getD (d.f R.SQ_BIND.RANK o.ring)

/-- Free a receiver's snapshot, whose pages go back unless its stack took them (R44, R180). -/
def Dev.deltaInFree (d : Dev) (x : DeltaIn) : Dev :=
  let d1 := if x.lost then d else d.annexGive x.tenant x.stack x.pages
  let d2 := if x.mirror && !x.lost then d1.annexGive x.tenant (x.stack + 1) x.pages else d1
  { d2 with deltasIn := d2.deltasIn.filter (fun y => !(y.is x.site x.jobId x.rank x.win x.off)) }

/-- Place a receiver's snapshot at zero: ceil(length / 65,536) pages of this tenant in quarter q, a PINNED tenant's on the stack given,
following STREAM_DFLT.MIRROR (R40, R49, R179); none where the quota does not take them. -/
def Dev.deltaInPlace (d : Dev) (site jobId rank win off tenant len q stack : Nat) : Option Dev :=
  let pages := ceilDiv len 65536
  match d.annexPlace tenant q pages (d.on R.STREAM_DFLT.MIRROR) (d.on R.TENANT.PLACE_MODE tenant) stack with
  | none => none
  | some (d1, a, b) =>
    some { d1 with deltasIn := d1.deltasIn ++ [{ site := site, jobId := jobId, rank := rank, win := win, off := off, tenant := tenant,
                                                 pages := pages, snap := List.replicate len 0, stack := a, mirror := a != b }] }

/-- The receiver's snapshot as a DELTA_PUT of a kind needs it, and a status that is 0 where it stands (R40 to R42, R180). The first of a
binding starts at zero, whatever an earlier binding left; a resync goes on with the snapshot or places it again; a difference without its
snapshot ends with DATA_LOST, so that the sender's slot becomes STALE and its next DELTA_PUT is a resync (DESIGN CHOICE, log entry 35). -/
def Dev.deltaInOpen (d : Dev) (site jobId rank win off tenant len q stack kind : Nat) : Dev × Nat :=
  let old := d.deltaIn site jobId rank win off
  let whole := old.any (fun y => !y.lost && y.snap.length == len)
  if kind ≠ 2 && whole then (d, 0)
  else if kind = 0 then (d, 0x0C)
  else
    let d1 := match old with | some y => d.deltaInFree y | none => d
    match d1.deltaInPlace site jobId rank win off tenant len q stack with
    | none => (d1, 0x05)
    | some d2 => (d2, 0)

/-- The pages of a sender's snapshot go back, unless its stack took them (R44, R180). -/
def Dev.snapGive (d : Dev) (x : DeltaOut) : Dev :=
  let pages := d.f R.DELTA.PAGES x.slot
  if x.lost then d
  else
    let d1 := d.annexGive x.tenant x.stack pages
    if x.mirror then d1.annexGive x.tenant (x.stack + 1) pages else d1

/-- The data of a DELTA_RELEASE: WINDOW and ROFF (Table 10.12). -/
def releaseData (win off : Nat) : List Byte := beBytes 2 win ++ beBytes 5 off ++ zeros 1

/-- A control message is the DELTA_RELEASE of a snapshot. -/
def Ctl.releases (c : Ctl) (jobId rank win off : Nat) : Bool :=
  match c with
  | .service 7 q => q.id.toNat == jobId && q.key.toNat == rank && q.data == releaseData win off
  | _ => false

/-- The first DELTA_PUT of a binding waits while the release of an earlier binding's snapshot of the same name is not acknowledged, which
would free the new one (DESIGN CHOICE, log entry 109). -/
def Dev.deltaWaits (d : Dev) (o : Op) : Bool :=
  o.d.opcode == 7 && (match d.deltaOut (d.deltaSlot o) with
    | some y => y.fresh && d.anchorQ.any (fun e => e.1 == o.site &&
        e.2.releases (d.f R.JOB.JOB_ID (d.f R.SQ_BIND.JOB o.ring)) y.rank o.rwin o.d.roff)
    | none => false)

/-- Replace part of a snapshot. -/
def patch (old : List Byte) (o : Nat) (new : List Byte) : List Byte := old.take o ++ new ++ old.drop (o + new.length)

/-- A DELTA_PUT's data at the receiver (R41 to R43): the new T of its range, which is also what the window takes. -/
def Dev.deltaApply (d : Dev) (x : DeltaIn) (fmt o : Nat) (resync : Bool) (data : List Byte) : Dev × List Byte :=
  let new := if resync then data else deltaSum d.freeCtr fmt (slice x.snap o data.length) data
  ({ d with
      freeCtr := d.freeCtr + 1,
      deltasIn := d.deltasIn.map (fun (y : DeltaIn) =>
      if y.is x.site x.jobId x.rank x.win x.off then { y with snap := patch y.snap o new } else y) }, new)

/-! ### Atomic requests (R36) -/

/-- The order of arrival at the atomic unit: by tick; in one tick streams by home wing and number, then local rings (R36). -/
def AtomReq.rank (a : AtomReq) : Nat × Nat × Nat × Nat :=
  match a.stream with
  | some (w, c, _) => (a.at_, 0, w, c)
  | none => (a.at_, 1, a.ring, 0)

/-- a is not after b. -/
def AtomReq.le (a b : AtomReq) : Bool :=
  let x := a.rank
  let y := b.rank
  x.1 < y.1 || (x.1 == y.1 && (x.2.1 < y.2.1 || (x.2.1 == y.2.1 && (x.2.2.1 < y.2.2.1 || (x.2.2.1 == y.2.2.1 && x.2.2.2 ≤ y.2.2.2)))))

/-- Put a request in its place: after every request that is not after it. -/
def insertAtom (r : AtomReq) : List AtomReq → List AtomReq
  | [] => [r]
  | a :: t => if a.le r then a :: insertAtom r t else r :: a :: t

/-- A request arrives at the atomic unit. -/
def Dev.atomArrive (d : Dev) (r : AtomReq) : Dev := { d with atomics := insertAtom r d.atomics }

/-! ### Launch of an admitted operation -/

/-- The block format of an operation's data (R125): BYTES for PUT and GET. -/
def opFmt (x : Desc) : Nat := if x.opcode = 0x03 ∨ x.opcode = 0x07 then x.format else 0xF

/-- Bytes 20 to 47 of the segments of an operation's request (Table 6.4). SUBOP of a DELTA_PUT says that it is a resync (log entry
16). -/
def Dev.reqTailOf (d : Dev) (o : Op) : List Byte :=
  let x := o.d
  let red := if x.opcode = 0x04 then x.subop else if x.opcode = 0x03 then x.redop else if x.opcode = 0x07 then d.deltaKind o else 0
  let fmt := if x.opcode = 0x03 ∨ x.opcode = 0x07 then x.format else 0
  let sr := if x.opcode = 0x03 then b2n x.sr else 0
  let len := if x.opcode = 0x04 ∨ x.opcode = 0x05 then 8 else x.len
  reqTail (d.f R.JOB.JOB_ID (d.f R.SQ_BIND.JOB o.ring)) x.rord fmt red sr o.rwin x.token len x.roff x.tag
    (if x.opcode = 0x07 then d.deltaRank o else d.f R.SQ_BIND.RANK o.ring)

/-- The item of an operation's request on its context. -/
def Dev.reqItem (d : Dev) (o : Op) : SendItem :=
  let x := o.d
  let atom := x.opcode = 0x04 || x.opcode = 0x05
  { kind := 1, op := some (o.ring, o.index), opn := none, coll := 0, chunk := 0, piece := 0, step := 0, ring := 0, opcode := x.opcode,
    tail := d.reqTailOf o, fmt := opFmt x, tid := x.tag, bind := o.bind, raw := [],
    left := if atom || x.opcode = 0x02 then 0 else x.len,
    bytes := if atom then beBytes 8 x.opa ++ beBytes 8 x.opb else [], sent := 0, starts := [], segidx := 0, poison := false,
    bare := x.opcode = 0x02, plain := atom }

/-- Operations in progress on a context. -/
def Dev.opsOn (d : Dev) (c : Nat) : List Op := d.ops.filter (fun o => o.ctx == some c && o.stage == .running)

/-- Start an operation whose target is a rank at this site (R24): the checks of R30 come before any byte. -/
def Dev.launchLocal (d : Dev) (o : Op) : Dev :=
  let x := o.d
  let n := o.ring
  let i := o.index
  let t := d.opTenant o
  let len := if x.opcode = 0x04 ∨ x.opcode = 0x05 then 8 else x.len
  let jid := d.f R.JOB.JOB_ID (d.f R.SQ_BIND.JOB n)
  let st := d.targetCheck t jid o.rwin x.rord x.token x.opcode x.roff len
  let d0 := d.updOp n i (fun o => { o with stage := .running })
  if st ≠ 0 then (d0.targetRefused st).endOp n i st
  else if x.opcode = 0x04 ∨ x.opcode = 0x05 then
    d0.atomArrive { stream := none, ring := n, index := i, isSignal := decide (x.opcode = 0x05), subop := x.subop, a := x.opa, b := x.opb,
                    win := o.rwin, off := x.roff, srcRank := d.f R.SQ_BIND.RANK n, at_ := d.now }
  else if x.opcode = 0x07 then
    let p := d0.deltaInOpen d.site jid (d.deltaRank o) o.rwin x.roff t x.len (d.enabledWings.headD 0) 0 (d.deltaKind o)
    if p.2 ≠ 0 then p.1.endOp n i p.2 else p.1.askOp n i
  else d0.askOp n i

/-- Start an operation on its OPEN context c: at most 65,536 are incomplete there, a further one waits (R165). -/
def Dev.launchOn (d : Dev) (c : Nat) (o : Op) : Dev :=
  if 65536 ≤ (d.opsOn c).length then d
  else
    let d1 := d.updOp o.ring o.index (fun o => { o with stage := .running, ctx := some c })
    let d2 := d1.onCtx c (fun x => { x with sendq := x.sendq ++ [d1.reqItem o], lastUse := d.now })
    if o.d.opcode = 0x01 ∨ o.d.opcode = 0x03 ∨ o.d.opcode = 0x07 then d2.askOp o.ring o.index else d2

/-! ### Data of operations arrives -/

/-- An operation of this site whose data is all in place completes; so does a GET whose response is all in place. -/
def Dev.opSettle (d : Dev) (n i : Nat) : Dev :=
  match d.getOp n i with
  | none => d
  | some o => if o.stage = .running ∧ o.allIn ∧ o.owed = 0 then d.okOp n i else d

/-- Source bytes of a DELTA_PUT as they travel (R41, R42): the difference from the snapshot, or the value itself. -/
def Dev.deltaOutBytes (d : Dev) (o : Op) (off : Nat) (data : List Byte) : List Byte :=
  if o.resync then data
  else match d.deltaOut (d.deltaSlot o) with
    | some x => deltaDiff d.freeCtr o.d.format data (slice x.snap off data.length)
    | none => data

/-- A combine on wing w with errors (R89 to R92): replays are counted, a beat that fails them all sets RESID and is left out of what `go`
writes; then the wing's lanes are looked at. Answers also the replays and whether a beat failed them all. -/
def combined (w redop : Nat) (faults : List BeatFault) (d : Dev) (m : List Host.Cell)
    (go : List Nat → Dev → List Host.Cell → Dev × List Host.Cell × Nat) : (Dev × List Host.Cell × Nat) × Nat × Bool :=
  let r := d.replays w redop faults
  let bad := !r.2.2.isEmpty
  (go r.2.2 (if bad then r.1.set R.TOUR_ERR.RESID w 1 else r.1) m, r.2.1, bad)

/-- Bytes that an operation of this site delivers to its target window at an offset of its range. A PUT_REDUCE combines them on the
first enabled wing (DESIGN CHOICE, log entry 89); `faults` are that combine's errors. Answers also the replays, and the status that ends
the operation, 0 for none: RESIDUE_FAULT where a beat fails every replay (R92), DATA_LOST where a DELTA_PUT's snapshot was lost meanwhile
(log entry 35). -/
def localDeliver (o : Op) (off : Nat) (data : List Byte) (faults : List BeatFault) (d : Dev) (m : List Host.Cell) :
    (Dev × List Host.Cell × Nat) × Nat × Nat :=
  let x := o.d
  let use := ReqUse.opWrite o.ring o.index
  let t := d.opTenant o
  match x.opcode with
  | 0x03 =>
    let r := combined (d.enabledWings.headD 0) x.redop faults d m (reduceInto use (d.enabledWings.headD 0) o.rwin (x.roff + off) t x.format
      x.redop ⟨x.sr, o.seed, x.tag, 0xFE⟩ (off / unitBytes x.format * unitElems x.format) · data)
    (r.1, r.2.1, if r.2.2 then 0x09 else 0)
  | 0x02 => (winWrite use o.lwin (x.loff + off) t data d m, 0, 0)
  | 0x07 =>
    match (d.deltaIn d.site (d.f R.JOB.JOB_ID (d.f R.SQ_BIND.JOB o.ring)) (d.deltaRank o) o.rwin x.roff).filter (!·.lost) with
    | none => ((d, m, 0), 0, 0x0C)
    | some s =>
      let p := d.deltaApply s x.format off o.resync data
      (winWrite use o.rwin (x.roff + off) t p.2 p.1 m, 0, 0)
  | _ => (winWrite use o.rwin (x.roff + off) t data d m, 0, 0)

/-- Source bytes of an operation arrive (R76's staging for remote targets; delivery for a target of this site). A PUT_REDUCE of this site
with a beat that fails every replay ends with RESIDUE_FAULT (R92), a DELTA_PUT of this site without its snapshot with DATA_LOST. -/
def opData (n i : Nat) (data : List Byte) (faults : List BeatFault) (d : Dev) (m : List Host.Cell) : Dev × List Host.Cell :=
  match d.getOp n i with
  | none => (d, m)
  | some o =>
    if o.stage ≠ .running then (d, m)
    else
      let out := if o.d.opcode = 0x07 then d.deltaOutBytes o o.got data else data
      let d0 := d.usedFree.updOp n i (fun o => { o with
        got := o.got + data.length, delta := if o.d.opcode = 0x07 then o.delta ++ out else o.delta })
      match o.ctx with
      | none =>
        let p := localDeliver o o.got out faults d0 m
        let d1 := p.1.1.updOp n i (fun o => { o with
          owed := o.owed + p.1.2.2, allIn := decide (o.d.len ≤ o.got), events := o.events + p.2.1 })
        (if p.2.2 ≠ 0 then d1.endOp n i p.2.2 else (d1.askOp n i).opSettle n i, p.1.2.1)
      | some c =>
        let d1 := d0.onCtx c (fun x => { x with sendq := x.sendq.map (fun (t : SendItem) =>
          if t.op = some (n, i) then { t with raw := t.raw ++ out, left := t.left - out.length } else t) })
        (d1.askOp n i, m)

/-- A write of an operation at this site is acknowledged (R32). -/
def Dev.opAck (d : Dev) (n i : Nat) : Dev := (d.updOp n i (fun o => { o with owed := o.owed - 1 })).opSettle n i

/-! ### Operations that arrived on a context -/

/-- The operation with a number. -/
def Ctx.tgtOp (x : Ctx) (opn : Nat) : Option TgtOp := x.tgt.find? (fun t => t.opn == opn)

/-- Change an operation that arrived on context c. -/
def Dev.updTgt (d : Dev) (c opn : Nat) (g : TgtOp → TgtOp) : Dev :=
  d.onCtx c (fun x => { x with tgt := x.tgt.map (fun (t : TgtOp) => if t.opn = opn then g t else t) })

/-- The item of a response (Table 6.4): data of a GET, or 8 bytes: the prior value, or zero where there is none (log entry 17). -/
def respItem (t : TgtOp) (data : Bool) (value : Nat) : SendItem :=
  { kind := 2, op := none, opn := some t.opn, coll := 0, chunk := 0, piece := 0, step := 0, ring := 0, opcode := t.opcode,
    tail := respTail t.jobId t.status (min t.events 0xFFFF), fmt := 0xF, tid := 0, bind := none, raw := [],
    left := if data then t.len else 0, bytes := if data then [] else beBytes 8 value, sent := 0, starts := [], segidx := 0,
    poison := false, bare := false, plain := !data }

/-- Queue the answer of an operation that arrived on context c, once. -/
def Dev.answer (d : Dev) (c opn value : Nat) : Dev :=
  match (d.ctx c).tgtOp opn with
  | none => d
  | some t =>
    if t.answered then d
    else
      let d1 := d.updTgt c opn (fun t => { t with answered := true })
      d1.onCtx c (fun x => { x with sendq := x.sendq ++ [respItem t false value] })

/-- An operation that arrived fails its target checks or its data (R30, R92, R137, R138): it is answered with the status, and what was
still to be sent of a GET's data is dropped. -/
def Dev.failTgt (d : Dev) (c opn status : Nat) : Dev :=
  let d1 := d.updTgt c opn (fun t => if t.status = 0 then { t with status := status } else t)
  let d2 := d1.onCtx c (fun x => { x with
    rx := x.rx.map (fun (r : RxItem) => if r.key.kind = 1 ∧ r.key.n = opn then { r with dead := true, ready := [] } else r),
    sendq := x.sendq.filter (fun (t : SendItem) => !(t.kind == 2 && t.opn == some opn && !t.plain)) })
  d2.answer c opn 0

/-- A write operation that arrived is complete at the target when every byte is decoded, written and acknowledged (R32). -/
def Dev.tgtSettle (d : Dev) (c opn : Nat) : Dev :=
  match (d.ctx c).tgtOp opn with
  | none => d
  | some t =>
    if t.started && !t.answered && t.status == 0 && (t.opcode == 1 || t.opcode == 3 || t.opcode == 7) && t.len ≤ t.got && t.owed == 0 then
      d.answer c opn 0
    else d

/-- Ask for the next window bytes of a GET that arrived, in whole aligned 8-byte units (R30, R47). -/
def Dev.askTgt (d : Dev) (c opn : Nat) : Dev :=
  match (d.ctx c).tgtOp opn with
  | none => d
  | some t =>
    if t.len ≤ t.asked then d
    else
      let rest := t.len - t.asked
      let k := if rest ≤ d.readMax then rest else wholeUnits (t.off + t.asked) d.readMax
      (d.updTgt c opn (fun t => { t with asked := t.asked + k })).winRead (.tgtRead c opn) t.win (t.off + t.asked) k
        (d.ctxTenant (d.ctx c))

/-- Window bytes of a GET that arrived are here: they join its response. -/
def Dev.tgtData (d : Dev) (c opn : Nat) (data : List Byte) : Dev :=
  let d1 := d.updTgt c opn (fun t => { t with got := t.got + data.length })
  let d2 := d1.onCtx c (fun x => { x with sendq := x.sendq.map (fun (t : SendItem) =>
    if t.kind = 2 ∧ t.opn = some opn then { t with raw := t.raw ++ data, left := t.left - data.length } else t) })
  d2.askTgt c opn

/-! ### Collectives -/

/-- The collective with an identifier. -/
def Dev.coll (d : Dev) (id : Nat) : Option Coll := d.colls.find? (fun x => x.id == id)

/-- Change a collective. -/
def Dev.updColl (d : Dev) (id : Nat) (g : Coll → Coll) : Dev :=
  { d with colls := d.colls.map (fun (x : Coll) => if x.id = id then g x else x) }

/-! ### Chunks, pieces, rings and positions (R93, R113) -/

/-- T: elements of a collective. -/
def Coll.elems (x : Coll) : Nat := x.len / unitBytes x.fmt * unitElems x.fmt

/-- n_c: elements per chunk of C = 64 KiB · 2^CHUNK_LOG bytes (Table 3.2). -/
def Coll.chunkElems (x : Coll) : Nat := 2 ^ (16 + x.chunkLog) / unitBytes x.fmt * unitElems x.fmt

/-- Chunks of a collective. -/
def Coll.chunks (x : Coll) : Nat := ceilDiv x.elems x.chunkElems

/-- N. -/
def Coll.n (x : Coll) : Nat := 2 ^ x.nlog

/-- n_j. -/
def Coll.chunkLen (x : Coll) (j : Nat) : Nat := min x.chunkElems (x.elems - j * x.chunkElems)

/-- q: elements of a piece of chunk j. -/
def Coll.pieceSize (x : Coll) (j : Nat) : Nat := 32 * ceilDiv (x.chunkLen j) (32 * x.n)

/-- Elements of piece p of chunk j: 0 where there is none. -/
def Coll.pieceElems (x : Coll) (j p : Nat) : Nat := min (x.pieceSize j) (x.chunkLen j - p * x.pieceSize j)

/-- Index of a piece's first element within the operation. -/
def Coll.pieceFirst (x : Coll) (j p : Nat) : Nat := j * x.chunkElems + p * x.pieceSize j

/-- Byte offset of a piece within the operation, and its bytes in memory. -/
def Coll.pieceOff (x : Coll) (j p : Nat) : Nat := x.pieceFirst j p / unitElems x.fmt * unitBytes x.fmt
/-- Bytes of a piece in memory. -/
def Coll.pieceBytes (x : Coll) (j p : Nat) : Nat := x.pieceElems j p / unitElems x.fmt * unitBytes x.fmt

/-- g of a chunk. -/
def Coll.group (x : Coll) (j : Nat) : Nat := j % (x.rings * x.wings)

/-- Ring of a chunk. -/
def Coll.ringOf (x : Coll) (j : Nat) : Nat := x.group j % x.rings

/-- The wing R93 gives a chunk: the physical wing of that number; one whose quarter was fenced before the admission is moved from there (R95;
DESIGN CHOICE, log entry 111). -/
def Coll.homeWing (x : Coll) (j : Nat) : Nat := x.group j / x.rings

/-- Where the chunks of a wing run now: fences move them, perhaps more than once (R95). -/
def Coll.movedTo (x : Coll) (w : Nat) : Nat := x.moved.foldl (fun a e => if a = e.1 then e.2 else a) w

/-- The wing that runs a chunk at this gateway. -/
def Coll.wingOf (x : Coll) (j : Nat) : Nat := x.movedTo (x.homeWing j)

/-- Stride of a chunk's ring. -/
def Coll.stride (x : Coll) (j : Nat) : Int := x.strides.getD (x.ringOf j) 1

/-- The position k strides after a position. -/
def Coll.stepFrom (x : Coll) (j p0 k : Nat) : Nat := (((p0 : Int) + (k : Int) * x.stride j) % (x.n : Int)).toNat

/-- pos[k] of a piece. -/
def Coll.pos (x : Coll) (j p k : Nat) : Nat := x.stepFrom j ((p + x.group j) % x.n) k

/-- The position of a site. -/
def Coll.posOfSite (x : Coll) (site : Nat) : Nat := (x.order.findIdx? (· == site)).getD 0

/-- The owner's position (R113): for BROADCAST the root's. -/
def Coll.ownerPos (x : Coll) (j p : Nat) : Nat := if x.kind = 3 then x.posOfSite x.rootSite else x.pos j p (x.n - 1)

/-- k of a position on the reduce tour of a piece. -/
def Coll.redIdx (x : Coll) (j p me : Nat) : Nat := ((List.range x.n).find? (fun k => x.pos j p k == me)).getD 0

/-- k of a position on the gather tour of a piece: 0 at the owner. -/
def Coll.gatIdx (x : Coll) (j p me : Nat) : Nat := ((List.range x.n).find? (fun k => x.stepFrom j (x.ownerPos j p) k == me)).getD 0

/-- The site before a position on a chunk's ring. -/
def Coll.prevSite (x : Coll) (j me : Nat) : Nat := x.order.getD (x.stepFrom j me (x.n - 1)) 0

/-- The site after a position on a chunk's ring. -/
def Coll.nextSite (x : Coll) (j me : Nat) : Nat := x.order.getD (x.stepFrom j me 1) 0

/-- The kind has a reduce tour (Table 4.3). -/
def Coll.reduces (x : Coll) : Bool := x.kind ≤ 1

/-- The kind has a gather tour (Table 4.3). -/
def Coll.gathers (x : Coll) : Bool := x.kind != 1

/-- A piece as it stands at this gateway. -/
def Coll.piece (x : Coll) (j p : Nat) : PieceX :=
  (x.pieces.find? (fun y => y.chunk == j && y.piece == p)).getD
    { chunk := j, piece := p, operand := none, red := Arrival.empty, gat := Arrival.empty, reduced := false, final := false, poison := false,
      events := 0 }

/-- Change a piece. -/
def Coll.setPiece (x : Coll) (y : PieceX) : Coll :=
  if x.pieces.any (fun z => z.chunk == y.chunk && z.piece == y.piece) then
    { x with pieces := x.pieces.map (fun (z : PieceX) => if z.chunk == y.chunk && z.piece == y.piece then y else z) }
  else { x with pieces := x.pieces ++ [y] }

/-- Change a piece of a collective. -/
def Dev.updPiece (d : Dev) (id j p : Nat) (g : PieceX → PieceX) : Dev := d.updColl id (fun x => x.setPiece (g (x.piece j p)))

/-- An item or a segment carries a piece of a collective. -/
def itemOf (id j p : Nat) (t : SendItem) : Bool := t.kind == 3 && t.coll == id && t.chunk == j && t.piece == p

/-- The segment carries a piece of a collective. -/
def segOf (id j p : Nat) (g : Segment) : Bool := g.typ == 3 && segColl g == id && segPiece g == (j, p)

/-- What this gateway sent of a piece is still to be cut or not all receipted. -/
def Dev.pieceOut (d : Dev) (id j p : Nat) : Bool :=
  d.tourWait.any (fun e => itemOf id j p e.2.2.2.2) ||
    d.ctxs.any (fun e => e.2.sendq.any (itemOf id j p) || e.2.log.any (fun g => !g.receipted && segOf id j p g.seg))

/-- This gateway has done its part of a piece: it holds the final values, or it has passed on a REDUCE_SCATTER partial that others own. -/
def Coll.pieceDone (x : Coll) (me j p : Nat) : Bool :=
  x.pieceElems j p == 0 || (x.piece j p).final || (x.kind == 1 && x.ownerPos j p != me && (x.piece j p).reduced)

/-! ### How a collective ends (R117, R123) -/

/-- The order in which failures of a collective are reported (R123); a status not in it comes last. -/
def failRank (st : Nat) : Nat :=
  match [0x0B, 0x0C, 0x0D, 0x11, 0x06, 0x09, 0x08, 0x07, 0x0A, 0x0F, 0x0E, 0x05, 0x03, 0x01].findIdx? (· == st) with
  | some i => i
  | none => 99

/-- TOUR_COLL.ACTIVE counts the collectives admitted and not complete. -/
def Dev.collCount (d : Dev) : Dev :=
  d.set R.TOUR_COLL.ACTIVE 0 (d.colls.filter (fun x => x.admitted && x.ended.isNone)).length

/-- COLL_PRINT (R110). -/
def Coll.formPrint (x : Coll) (tsPrint : Nat) : Nat :=
  (crc32c (leBytes 4 tsPrint ++ leBytes 4 x.id ++ leBytes 4 x.len ++ leBytes 8 x.start ++ leBytes 1 (x.fmt % 16 + 16 * (x.redop % 8)) ++
    leBytes 1 (b2n x.sr + 2 * (x.kind % 16)) ++ leBytes 1 x.chunkLog ++ leBytes 4 (if x.kind = 3 then x.root else 0) ++ zeros 5)).toNat

/-- The KEY of a collective's COLL_END: its COLL_PRINT, and before its admission, which forms that, the COLL_PRINT of the first descriptor
held (DESIGN CHOICE, log entry 110). -/
def Coll.endKey (x : Coll) : Nat := if x.admitted then x.print else x.formPrint x.print

/-- The COLL_END of a collective (Table 10.11). -/
def Dev.collEndMsg (d : Dev) (x : Coll) (st : Nat) : ServiceMsg :=
  { site := BitVec.ofNat 5 d.site, status := BitVec.ofNat 8 st, id := BitVec.ofNat 32 x.id, key := BitVec.ofNat 32 x.endKey, t := 0,
    v := false, slot := 0, frag := 0, nfrag := 1, dlen := 0, gwId := d.gwId, txn := 0, data := [] }

/-- The notices of R117: on every anchor of the wings named, in each of the next three visits to each other participant. -/
def Dev.collNotices (d : Dev) (x : Coll) (st : Nat) : List EndNotice :=
  (x.order.filter (· != d.site)).flatMap (fun site =>
    (List.range (2 * x.wings)).map (fun e => { engine := e, site := site, msg := d.collEndMsg x st, left := 3 }))

/-- The held segments of a collective that has ended are discarded (R117): they count as received. -/
def Dev.collDiscard (d : Dev) (id : Nat) : Dev :=
  (d.ctxs.map (·.1)).foldl (fun (a : Dev) c =>
    let mine := (a.ctx c).held.filter (fun h => h.seg.typ == 3 && segColl h.seg == id)
    (mine.foldl (fun (b : Dev) h => b.received c h.seq) a).onCtx c (fun x => { x with
      rx := x.rx.filter (fun (r : RxItem) => !(r.key.kind == 3 && r.key.coll == id)) })) d

/-- Of two failures the one reported (R123): the first in its order. -/
def worseOf (a b : Nat) : Nat := if failRank a < failRank b then a else b

/-- The notices of a collective that have not gone out carry the status it reports now (R123). -/
def Dev.noticeStatus (d : Dev) (id st : Nat) : Dev :=
  { d with endNotices := d.endNotices.map (fun (n : EndNotice) =>
      if n.msg.id.toNat = id then { n with msg := { n.msg with status := BitVec.ofNat 8 st } } else n) }

/-- How long copies of a notice go on arriving (R117): the three visits of every participant, the first of which is one rota after the first
notice, and the longest round trip to a peer (DESIGN CHOICE, log entry 98). -/
def Dev.noticeSpan (d : Dev) : Nat := 80000 * (d.sites - 1) + ((List.range d.sites).map (fun s => match d.peerOf s with
  | some p => 2 * d.delayOf p
  | none => 0)).foldl max 0

/-- A collective has ended here with a failure, or another notice of that end has come: copies, which have its COLL_ID and KEY, are ignored for
a while (R117, R274). -/
def Dev.noteCollEnd (d : Dev) (id key : Nat) : Dev :=
  { d with collEnds := d.collEnds.filter (fun (e : Nat × Nat × Nat) => !(e.1 == id && e.2.1 == key) && decide (d.since e.2.2 ≤ d.noticeSpan)) ++
      [(id, key % 2 ^ 32, d.now)] }

/-- A notice may be one of a collective that has ended here (R117, R274). -/
def Dev.collOld (d : Dev) (id key : Nat) : Bool :=
  d.collEnds.any (fun e => e.1 == id && e.2.1 == key && decide (d.since e.2.2 ≤ d.noticeSpan))

/-- Destination ranges that a failure of a collective leaves undefined (R92, R124). RESIDUE_FAULT: the pieces written. A status that a
withdrawal carries: every piece of a gather kind that has started, and of a reduce kind only where a piece has been written, since no
destination is written before a withdrawal (R117). Any other status: the whole range, which for REDUCE_SCATTER is the owned pieces (what
this leaves at its prior contents: DESIGN CHOICE, log entry 132). -/
def Coll.undefDest (x : Coll) (me st : Nat) : List (Nat × Nat) :=
  let mine := (List.range x.chunks).flatMap (fun j =>
    ((List.range x.n).filter (fun p => x.pieceElems j p != 0 && (x.kind != 1 || x.ownerPos j p == me))).map (fun p => (j, p)))
  let span := fun (l : List (Nat × Nat)) => l.map (fun k => (x.pieceOff k.1 k.2, x.pieceBytes k.1 k.2))
  let written := mine.filter (fun k => (x.piece k.1 k.2).final && !(x.piece k.1 k.2).poison)
  let all := if x.kind = 1 then span mine else [(0, x.len)]
  if st = 0x09 then span written
  else if [0x01, 0x03, 0x05, 0x0E].contains st then
    if x.kind < 2 then if written.isEmpty then [] else all
    else if x.started then all else []
  else all

/-- A collective ends at this gateway with a failure status (R117, R123): its descriptors take the status, its pieces are dropped,
and with `notify` the notice goes out. A poisoned piece held here is a failure too (R92). A second failure is reported only where it stands
before the first in the order of R123 and no record has been written. -/
def Dev.collFail (d : Dev) (id st : Nat) (notify : Bool) (detail : Nat := 0) : Dev :=
  match d.coll id with
  | none => d
  | some x =>
    match x.ended with
    | some old =>
      if failRank st < failRank old ∧ old ≠ 0 ∧ old ≠ 0x10 ∧ x.members.all (fun k => (d.getOp k.ring k.index).isSome) then
        ((x.members.foldl (fun (a : Dev) k => a.updOp k.ring k.index (fun o => { o with verdict := ⟨st, detail⟩ })) d).updColl id
          (fun x => { x with ended := some st, spoil := x.spoil ++ x.undefDest (x.posOfSite d.site) st })).noticeStatus id st
      else d
    | none =>
      let st := if x.pieces.any (·.poison) then worseOf 0x09 st else st
      let d1 := x.members.foldl (fun (a : Dev) k => a.endOp k.ring k.index st detail) d
      let d2 := d1.updColl id (fun x => { x with
        ended := some st, spoil := x.undefDest (x.posOfSite d.site) st, pieces := [], buf := [], acc := none, reading := false })
      let d3 := { d2 with
        reqs := (d2.reqs.filter (fun (q : Req) => q.use != ReqUse.collRead id)).map (fun (q : Req) =>
          if q.use = ReqUse.collWrite id then { q with use := .quiet } else q),
        deadColls := if notify || x.admitted then d2.deadColls ++ [(id, d2.now)] else d2.deadColls,
        tourWait := d2.tourWait.filter (fun (e : Nat × Nat × Nat × Nat × SendItem) => !(e.2.2.2.2.coll == id)),
        ctxs := d2.ctxs.map (fun (e : Nat × Ctx) => (e.1, { e.2 with sendq := e.2.sendq.filter (fun (t : SendItem) => !(t.kind == 3 && t.coll == id)) })) }
      let d4 := (if notify || x.admitted then d3.collDiscard id else d3).collCount.noteCollEnd id x.endKey
      if notify then { d4 with endNotices := d4.endNotices ++ d4.collNotices x st } else d4

/-- A collective uses a context (R121, R153): a chunk that is not finished here runs on its class's ring, on its wing, and its site comes
next or before on that ring. -/
def Dev.collUses (d : Dev) (k : Coll) (x : Ctx) : Bool :=
  let me := k.posOfSite d.site
  (List.range k.chunks).any (fun j =>
    k.ringOf j + 1 == x.cls && (k.homeWing j == x.wing || k.wingOf j == x.wing) && (k.nextSite j me == x.site || k.prevSite j me == x.site) &&
      (List.range k.n).any (fun p => !k.pieceDone me j p || d.pieceOut k.id j p))

/-- Collectives that use context c: their pieces are queued or retained there, or arrive on it. -/
def Dev.collsOn (d : Dev) (c : Nat) : List Nat :=
  let x := d.ctx c
  if x.cls = 0 then []
  else (d.colls.filter (fun k => k.ended.isNone && k.admitted && k.job == x.job && d.collUses k x)).map (·.id)

end Sys2Proof.Machine
end

