-- ==== Sys2Proof/Machine/Accession.lean ====
section
/-! DEFINITION. How stream contexts open and end (R153 to R163, R178, R310, R311): keys, the checks and reservations of R158,
accession messages, what waits for a context, and every way a context leaves OPEN. -/

namespace Sys2Proof.Machine

open Sys2Proof

/-! ### Keys (R153) -/

/-- A context key: job, peer site, class, wing (0 for class 0). -/
structure CtxKey where
  job : Nat
  site : Nat
  cls : Nat
  wing : Nat
deriving DecidableEq, Repr

/-- The key of a context. -/
def Ctx.key (x : Ctx) : CtxKey := ⟨x.job, x.site, x.cls, x.wing⟩

/-- The context of a key: each end holds at most one. -/
def Dev.ctxOf (d : Dev) (k : CtxKey) : Option Nat :=
  (d.ctxs.find? (fun e => !e.2.isClosed && e.2.key == k)).map (·.1)

/-- The lowest CLOSED context number (which, and what follows where none is: DESIGN CHOICE, log entry 141). -/
def Dev.closedCtx (d : Dev) : Option Nat := (List.range 32768).find? (fun c => (d.ctx c).isClosed)

/-- Contexts a tenant holds. -/
def Dev.ctxCount (d : Dev) (t : Nat) : Nat := (d.ctxs.filter (fun e => !e.2.isClosed && d.ctxTenant e.2 == t)).length

/-- The home wing of class 0 in PLACED mode (R155). -/
def Dev.homePlaced (d : Dev) (job site : Nat) : Nat :=
  let h := Config.keyedHash (d.hashKeys.getD 0 0) (beBytes 4 (d.f R.JOB.JOB_ID job) ++ beBytes 1 site ++ beBytes 1 (d.f R.GLOBAL_LOC.RAIL))
  d.enabledWings.getD (h % d.enabledWings.length) 0

/-! ### Timing (R171, R178) -/

/-- RCPT_DELAY in ns (R171). -/
def Dev.rcptDelay (d : Dev) : Nat := max (d.f R.STREAM_TIMER.RCPT_INT) 1 * 1000 + 20000 * (d.sites - 1)

/-- RTT_E in ns (R178): twice the mean path delay. -/
def Dev.rttE (d : Dev) (site : Nat) : Nat := match d.peerOf site with | some p => 2 * d.delayOf p | none => 0

/-- RTO in ns (R171). -/
def Dev.rto (d : Dev) (x : Ctx) : Nat :=
  min (max (x.srtt + 4 * x.rttvar + d.rcptDelay) (d.f R.STREAM_TIMER.RTO_MIN * 1000)) (d.f R.STREAM_TIMER.RTO_MAX * 1000000)

/-- How long the retransmission timer of a context runs when it starts now (R13, R172). -/
def Dev.rtoRun (d : Dev) (x : Ctx) : Nat := min (d.rto x * 2 ^ x.backoff) (d.f R.STREAM_TIMER.RTO_MAX * 1000000)

/-- Frame rate of a carrier in Gb/s (Table 10.1). -/
def Dev.carRate (d : Dev) (m : Nat) : Nat := match d.f R.KW_CAR_CFG.MODE m with | 0 => 400 | 1 => 300 | _ => 200

/-- B of R178 in bytes per second, on the carriers of the home wing scheduled toward the site. -/
def Dev.segRate (d : Dev) (home site : Nat) : Nat :=
  (((List.range 32).map (· + 32 * home)).map (fun m => if !isAnchor m && d.txSite m == some site then d.carRate m else 0)).sum
    * 10 ^ 9 * 16320 / (16384 * 8)

/-- PAGES of R178: lowered to the tenant's remaining ANNEX_PAGES, which a mirrored page counts against twice, never below 2. -/
def Dev.placedPages (d : Dev) (t home site : Nat) (mirror : Bool) : Nat :=
  max 2 (min (ceilDiv (2 * d.segRate home site * (d.rttE site + d.rcptDelay)) (65536 * 10 ^ 9))
    (if mirror then d.annexLeft t / 2 else d.annexLeft t))

/-- PEER_LEASE in ticks. -/
def Dev.lease (d : Dev) : Nat := max (d.f R.HEALTH_LEASE.LEASE_MS) 1 * 1000000

/-! ### The checks and reservations of R158 -/

/-- What an accession asks for. -/
structure OpenReq where
  key : CtxKey
  home : Nat
  tx : Nat
  rx : Nat
  mirror : Bool
  stack : Nat
  pages : Nat
  winMax : Nat
  cmd : Bool
deriving DecidableEq, Repr

/-- A pool can serve contexts homed on a wing (step 3). -/
def Dev.poolServes (d : Dev) (p home : Nat) : Bool :=
  d.on R.BPM_POOL_CFG.EN p && d.poolHome p == home && decide (16448 ≤ d.f R.BPM_POOL_CFG.SIZE p * 64)

/-- A SEALED tenant may open contexts toward a site (R297, R308). -/
def Dev.sealedMay (d : Dev) (site : Nat) : Bool :=
  d.f R.VT_STAT.DBG == 0 && (match d.peerOf site with | some p => !d.on R.VT_PEER.RESTRICTED p | none => false)

/-- Steps 0 to 5 of R158: 0 when they pass. -/
def Dev.openChecks (d : Dev) (r : OpenReq) : Nat :=
  let t := d.f R.JOB.TENANT r.key.job
  if !d.on R.STREAM_CTL.ENABLE then 0x03
  else if d.on R.TENANT.QUAR t then 0x11
  else if !d.on R.TENANT.ENABLE t then 0x03
  else if d.on R.TENANT.SEC_MODE t && !d.sealedMay r.key.site then 0x03
  else if d.f R.TENANT.MAX_STREAMS t ≤ d.ctxCount t then 0x05
  else if 8 < r.key.cls || !d.poolServes r.tx r.home || !d.poolServes r.rx r.home || !d.wingEnabled r.home ||
      (!d.on R.TENANT.PLACE_MODE t && r.pages == 0) then 0x01
  else if d.f R.BPMQ.LIMIT t < d.f R.BPMQ.HELD t + 4 * d.poolCharge r.tx + 4 * d.poolCharge r.rx then 0x05
  else if !d.on R.BPM_CTL.ENABLE || decide (d.poolFree r.tx < (if r.tx = r.rx then 8 else 4)) || decide (d.poolFree r.rx < 4) then 0x04
  else 0

/-- Steps 7 and 8 of R158: the pair, or the status. -/
def Dev.openPair (d : Dev) (k : CtxKey) : Nat ⊕ Nat :=
  let t := d.f R.JOB.TENANT k.job
  if d.on R.TENANT.SEC_MODE t then
    match (d.pairRange t).find? (fun i => (d.bound i).isNone) with
    | none => .inl 0x05
    | some i => if d.on R.VT_STAT.TRNG_OK then .inr i else .inl 0x0D
  else
    match d.pairFor t k.job k.site k.cls k.wing with
    | none => .inl 0x0D
    | some i =>
      let ok := fun h => match d.half (halfIx i 0 h) with | some k => k.epoch == 0 | none => false
      if ok 0 && ok 1 then .inr i else .inl 0x0D

/-- The checks and reservations of R158: the status, and when it is 0 the gateway with context c reserved in ACCEDING (GEN one
higher, four receive loans taken). -/
def Dev.reserve (d : Dev) (r : OpenReq) : Nat × Dev × Nat :=
  let t := d.f R.JOB.TENANT r.key.job
  let st := d.openChecks r
  if st ≠ 0 then (st, d, 0)
  else
    let placed := d.on R.TENANT.PLACE_MODE t
    let pages := if r.pages = 0 then d.placedPages t r.home r.key.site r.mirror else r.pages
    if pages < 2 then (0x05, d, 0)
    else if d.clusterCheck r.home ≠ 0 then (d.clusterCheck r.home, d, 0)
    else match d.annexPlace t r.home pages r.mirror placed r.stack with
      | none => (0x05, d, 0)
      | some (d1, a, b) =>
        match d.openPair r.key, d.closedCtx with
        | .inl e, _ => (e, d, 0)
        | _, none => (0x05, d, 0)
        | .inr pair, some c =>
          let old := d.ctx c
          let x : Ctx := { Ctx.empty with
            state := .acceding, cls := r.key.cls, home := r.home, wing := r.key.wing, mirror := r.mirror, stack := a % 2,
            job := r.key.job, site := r.key.site, gen := (old.gen + 1) % 256, status := 0, pages := pages,
            winMax := if r.winMax = 0 then 2 ^ 20 else r.winMax, txPool := r.tx, rxPool := r.rx, pair := pair,
            cluster := d.chooseCluster r.home, copyA := a, copyB := b, logPages := pages, reserved := true, cmd := r.cmd,
            tTx := d.tai, since := d.now, waitFor := d.lease, lastUse := d.now }
          let d2 := (d1.setCtx c x).setBound pair (some ⟨r.key.job, r.key.site, r.key.cls, r.key.wing, some c⟩)
          let d3 := (List.range 4).foldl (fun (a : Dev) _ => (a.borrow c false).1) d2
          (0, d3.onCtx c (fun y => { y with granted := y.rxBufs.length, creditSent := y.rxBufs.length }), c)

/-- What an implicit accession asks for (R157). -/
def Dev.implicitReq (d : Dev) (k : CtxKey) (home : Nat) : OpenReq :=
  let pools := d.f R.STREAM_DFLT.POOLS / 2 ^ (12 * home)
  { key := k, home := home, tx := pools % 64, rx := pools / 64 % 64, mirror := d.on R.STREAM_DFLT.MIRROR, stack := 0, pages := 0,
    winMax := 0, cmd := false }

/-- The home wing of a PLACED tenant's context (R153, R155); with that wing's quarter fenced, the next enabled wing (R156). -/
def Dev.homeOf (d : Dev) (k : CtxKey) : Nat :=
  if k.cls = 0 then d.homePlaced k.job k.site else if d.wingEnabled k.wing then k.wing else d.nextWing k.wing

/-! ### Messages (Table 6.1) -/

/-- An accession message of context x, number c. -/
def Dev.accMsg (d : Dev) (c : Nat) (x : Ctx) (dst status echo : Nat) : AccessionMsg :=
  { sealed := d.ctxSealed x, gen := BitVec.ofNat 8 x.gen, cls := BitVec.ofNat 4 x.cls,
    wing := BitVec.ofNat 2 (if x.cls = 0 then x.home else x.wing), src := BitVec.ofNat 15 c, dst := BitVec.ofNat 15 dst,
    jobId := BitVec.ofNat 32 (d.f R.JOB.JOB_ID x.job), site := BitVec.ofNat 5 d.site, rail := BitVec.ofNat 6 (d.f R.GLOBAL_LOC.RAIL),
    status := BitVec.ofNat 8 status, credit := BitVec.ofNat 32 x.rxBufs.length, tTx := BitVec.ofNat 64 d.tai,
    tEcho := BitVec.ofNat 64 echo }

/-- ACCEPT of an ACCEDE. -/
def Dev.sendAccept (d : Dev) (c : Nat) (m : AccessionMsg) : Dev :=
  let x := d.ctx c
  d.send x.site (.accession 0xA (d.accMsg c x m.src.toNat 0 m.tTx.toNat))

/-- REFUSE of an ACCEDE: there is no context of this end, so SRC_STREAM is 0x7FFF and GEN 0. -/
def Dev.sendRefuse (d : Dev) (m : AccessionMsg) (sealed : Bool) (st : Nat) : Dev :=
  d.send m.site.toNat (.accession 0xB
    { sealed := sealed, gen := 0, cls := m.cls, wing := m.wing, src := 0x7FFF, dst := m.src, jobId := m.jobId,
      site := BitVec.ofNat 5 d.site, rail := BitVec.ofNat 6 (d.f R.GLOBAL_LOC.RAIL), status := BitVec.ofNat 8 st, credit := 0,
      tTx := BitVec.ofNat 64 d.tai, tEcho := 0 })

/-- DEACCEDE (0xC) or DEACCEDE_ACK (0xD) of context c. -/
def Dev.sendDeaccede (d : Dev) (c typ st : Nat) : Dev :=
  let x := d.ctx c
  d.send x.site (.accession typ (d.accMsg c x (if x.state = .acceding then 0x7FFF else x.peerStream) st 0))

/-- A stream command ends (R188): a status other than OK sets CMD. -/
def Dev.cmdDone (d : Dev) (st stream : Nat) : Dev :=
  let d1 := ((d.set R.STREAM_CMD_RES.STATUS 0 st).set R.STREAM_CMD_RES.STREAM 0 stream).set R.STREAM_CMD0.GO 0 0
  if st = 0 then d1 else d1.set R.STREAM_ERR.CMD 0 1

/-! ### What waits for a context -/

/-- The key of an operation's context: class 0 (R153). -/
def Dev.opKey (d : Dev) (o : Op) : CtxKey := ⟨d.f R.SQ_BIND.JOB o.ring, o.site, 0, 0⟩

/-- An operation with a target rank that waits for a context. -/
def Op.waits (o : Op) : Bool := o.stage == .waiting && decide (o.d.opcode < 8) && o.d.opcode != 6

/-- Operations that wait for a key. -/
def Dev.waiters (d : Dev) (k : CtxKey) : List Op := d.ops.filter (fun o => o.waits && d.opKey o == k)

/-- The key a waiting piece names. -/
def waitKey (e : Nat × Nat × Nat × Nat × SendItem) : CtxKey := ⟨e.1, e.2.1, e.2.2.1, e.2.2.2.1⟩

/-- Operations and pieces that wait for a key fail with a status (R160). -/
def Dev.failKey (d : Dev) (k : CtxKey) (st : Nat) : Dev :=
  let d1 := (d.waiters k).foldl (fun (a : Dev) o => a.endOp o.ring o.index st) d
  ((d1.tourWait.filter (fun e => waitKey e == k)).map (fun e => e.2.2.2.2.coll)).foldl (fun (a : Dev) id => a.collFail id st true) d1

/-- A target rank is named (R29 step 3). -/
def hasTarget (o : Nat) : Bool := (1 ≤ o && o ≤ 5) || o == 7

/-- The operations of a ring before an index, in submission order. -/
def Dev.opsBefore (d : Dev) (n i : Nat) : List Op := (d.opsOf n).takeWhile (fun o => o.index != i)

/-- A SIGNAL waits while an earlier operation of its ring to its target rank is not over that runs toward another site, at which the rank stood
then (R25, R37); of those toward one site the target keeps the order. -/
def Dev.signalWaits (d : Dev) (o : Op) : Bool :=
  o.d.opcode == 5 && (d.opsBefore o.ring o.index).any (fun p =>
    hasTarget p.d.opcode && p.d.opcode != 5 && p.d.rank == o.d.rank && p.site != o.site && p.stage != .done)

/-- A waiting operation starts on its OPEN context c when it is the first that waits for the key (R45), unless it is a DELTA_PUT that waits
for a release or a SIGNAL that waits for another site. -/
def Dev.launchNext (d : Dev) (c : Nat) (o : Op) : Dev :=
  if (d.waiters (d.opKey o)).head?.any (fun p => p.ring == o.ring && p.index == o.index) && !d.deltaWaits o && !d.signalWaits o then
    d.launchOn c o
  else d

/-- Operations that wait for their place on an OPEN context start in their order (R45, R165). -/
def Dev.relaunch (d : Dev) (c : Nat) : Dev :=
  if (d.ctx c).state = .opened then (d.waiters (d.ctx c).key).foldl (fun (a : Dev) o => a.launchNext c o) d else d

/-- Context c is OPEN: what waited for its key starts (R160), and a STREAM_CMD that waited for it ends (R188). -/
def Dev.ctxOpened (d : Dev) (c : Nat) : Dev :=
  let x := d.ctx c
  let d1 := (d.waiters x.key).foldl (fun (a : Dev) o => a.launchNext c o) d
  let mine := (d1.tourWait.filter (fun e => waitKey e == x.key)).map (fun e => e.2.2.2.2)
  let d2 := { d1 with tourWait := d1.tourWait.filter (fun (e : Nat × Nat × Nat × Nat × SendItem) => !(waitKey e == x.key)) }
  let d3 := d2.onCtx c (fun y => { y with sendq := y.sendq ++ mine })
  if x.cmd then (d3.onCtx c (fun y => { y with cmd := false })).cmdDone 0 c else d3

/-- The context is SEALED and no key can be derived: its accession fails with KEY_LOST (R324). The peer is not told (DESIGN CHOICE, log
entry 133). -/
def Dev.noDerive (d : Dev) (x : Ctx) : Bool := d.ctxSealed x && !d.on R.VT_STAT.TRNG_OK

/-- Context c enters OPEN with what the peer's message names; `rtt` is the first round-trip estimate in ns and `fresh` says that the
first sample of R171 replaces it (R161). -/
def Dev.openCtx (d : Dev) (c : Nat) (m : AccessionMsg) (rtt : Nat) (fresh : Bool) : Dev :=
  let d1 := d.onCtx c (fun x => { x with
    state := .opened, peerStream := m.src.toNat, peerGen := m.gen.toNat, credit := m.credit.toNat, srtt := rtt, rttvar := rtt / 2, rttFresh := fresh, lastUse := d.now, lastRcpt := d.now })
  (d1.openKeys c).ctxOpened c

/-! ### How contexts end -/

/-- The references that operations arriving on context c hold go back (R141). -/
def Dev.ctxRefsDrop (d : Dev) (c : Nat) : Dev :=
  let x := d.ctx c
  ((x.tgt.map (·.refs)).flatten ++ (x.rx.map (·.refs)).flatten).foldl (fun (a : Dev) r => a.refDrop r) d

/-- Entering CLOSED releases every loan, Annex page and key slot (R162); GEN stays for the next accession. -/
def Dev.releaseCtx (d : Dev) (c : Nat) : Dev :=
  let x := d.ctx c
  let d0 := d.ctxRefsDrop c
  let d1 := (d0.setLent x.txPool ((d0.lent x.txPool).filter (fun i => !x.txBufs.contains i)))
  let d2 := (d1.setLent x.rxPool ((d1.lent x.rxPool).filter (fun i => !(x.rxBufs.contains i && !(x.txPool == x.rxPool && x.txBufs.contains i)))))
  let t := d.ctxTenant x
  let d3 := if x.reserved then d2.annexDrop t x.home x.copyA x.logPages else d2
  let d4 := if x.reserved && x.copyA != x.copyB then d3.annexDrop t x.home x.copyB x.logPages else d3
  let d5 := if x.reserved then d4.dropPair x.pair else d4
  let d6 := d5.setCtx c { Ctx.empty with gen := x.gen, status := x.status }
  let d7 := { d6 with
    reqs := d6.reqs.filterMap (fun (q : Req) => match q.use with
      | .tgtRead a _ => if a = c then none else some q
      | .tgtWrite a _ => if a = c then some { q with use := .quiet } else some q
      | .tgtAtom a _ _ => if a = c then some { q with use := .quiet } else some q
      | _ => some q),
    atomics := d6.atomics.filter (fun (a : AtomReq) => match a.stream with | some (_, k, _) => k != c | none => true),
    resilver := d6.resilver.filter (fun (r : Resilver) => r.ctx != c) }
  d7.loanSync x

/-- Every operation and every collective that uses context c ends with a status; its retention is dropped. Operations that wait for a
key whose context was not DRAINING end with it. -/
def Dev.endWork (d : Dev) (c st : Nat) : Dev :=
  let x := d.ctx c
  let colls := d.collsOn c
  let d1 := (d.opsOn c).foldl (fun (a : Dev) o => a.endOp o.ring o.index st) d
  let d2 := if x.state = .acceding ∨ x.state = .opened then d1.failKey x.key st else d1
  let d3 := if x.state = .acceding then d2 else colls.foldl (fun (a : Dev) id => a.collFail id st true) d2
  let d4 := d3.ctxRefsDrop c
  (d4.recoverGone c).onCtx c (fun y => { y with log := [], sendq := [], held := [], rx := [], tgt := [], timer := none })

/-- A message of Table 6.1 names this key at this end: the local job with its JOB_ID. -/
def Dev.msgJob (d : Dev) (m : AccessionMsg) : Option Nat :=
  (d.listed 1).find? (fun j => d.on R.JOB.VALID j && d.f R.JOB.JOB_ID j == m.jobId.toNat)

/-- The key a message names. -/
def msgKey (job : Nat) (m : AccessionMsg) : CtxKey :=
  ⟨job, m.site.toNat, m.cls.toNat, if m.cls.toNat = 0 then 0 else m.wing.toNat⟩

/-- Answer an ACCEDE with the result of an accession at this end (R158, R159, R48). -/
def Dev.answerAccede (d : Dev) (m : AccessionMsg) (r : OpenReq) : Dev × Nat × Nat :=
  let own := d.on R.TENANT.SEC_MODE (d.f R.JOB.TENANT r.key.job)
  let p := d.reserve r
  if p.1 ≠ 0 then (d.sendRefuse m own p.1, p.1, 0x7FFF)
  else if own != m.sealed then (((p.2.1.releaseCtx p.2.2).sendRefuse m own 0x03), 0x03, 0x7FFF)
  else ((p.2.1.sendAccept p.2.2 m).openCtx p.2.2 m (d.rttE m.site.toNat) true, 0, p.2.2)

/-- Keep an ACCEDE until it can be handled (R159); a newer one of its key replaces it (DESIGN CHOICE, log entry 142). -/
def Dev.holdAccede (d : Dev) (m : AccessionMsg) : Dev :=
  { d with heldAccedes := d.heldAccedes.filter (fun (h : HeldAccede) =>
      !(h.msg.jobId == m.jobId && h.msg.site == m.site && h.msg.cls == m.cls && (m.cls == 0 || h.msg.wing == m.wing))) ++
        [{ msg := m, since := d.now, wait := d.lease }] }

/-- An ACCEDE for a key with no context (R159): a PLACED peer creates one, a PINNED one waits for its host. -/
def Dev.accedeNew (d : Dev) (m : AccessionMsg) (job : Nat) : Dev :=
  let k := msgKey job m
  if d.on R.TENANT.PLACE_MODE (d.f R.JOB.TENANT job) then (d.answerAccede m (d.implicitReq k (d.homeOf k))).1
  else d.holdAccede m

/-- Start an accession of this end (R157, R158): a held ACCEDE of the key is answered by it, otherwise ACCEDE is sent. Answers the
status, the gateway, the context. -/
def Dev.startAccession (d : Dev) (r : OpenReq) : Nat × Dev × Nat :=
  match d.heldAccedes.find? (fun h => d.msgJob h.msg == some r.key.job && msgKey r.key.job h.msg == r.key) with
  | some h =>
    let d0 := { d with heldAccedes := d.heldAccedes.filter (fun (x : HeldAccede) => x != h) }
    let p := d0.answerAccede h.msg { r with cmd := false }
    (p.2.1, p.1, p.2.2)
  | none =>
    let p := d.reserve r
    if p.1 ≠ 0 then (p.1, d, 0x7FFF)
    else (0, p.2.1.send r.key.site (.accession 9 (p.2.1.accMsg p.2.2 (p.2.1.ctx p.2.2) 0x7FFF 0 0)), p.2.2)

/-- What waits for a key of a PLACED tenant that has no context starts an accession homed on a wing (R157, R162); a refusal at this end
fails it (R160). -/
def Dev.wantCtx (d : Dev) (k : CtxKey) (home : Nat) : Dev :=
  if (d.waiters k).isEmpty && !d.tourWait.any (fun e => waitKey e == k) then d
  else if (d.ctxOf k).isSome then d
  else if !d.on R.TENANT.PLACE_MODE (d.f R.JOB.TENANT k.job) then d
  else
    let p := d.startAccession (d.implicitReq k home)
    if p.1 ≠ 0 then p.2.1.failKey k p.1 else p.2.1

/-- An ACCEDE is handled (R158, R159); what waited for a context that it replaces accedes where it opened none (R162). -/
def Dev.accede (d : Dev) (m : AccessionMsg) : Dev :=
  match d.msgJob m with
  | none => d.sendRefuse m false 0x03
  | some job =>
    match d.ctxOf (msgKey job m) with
    | none => d.accedeNew m job
    | some c =>
      let x := d.ctx c
      match x.state with
      | .acceding =>
        if d.ctxSealed x != m.sealed then
          let d1 := (d.failKey x.key 0x03).releaseCtx c
          if x.cmd then d1.cmdDone 0x03 0x7FFF else d1
        else if d.noDerive x then
          let d1 := (d.failKey x.key 0x0D).releaseCtx c
          if x.cmd then d1.cmdDone 0x0D 0x7FFF else d1
        else d.openCtx c m (d.rttE x.site) true
      | .opened | .draining =>
        if x.peerStream = m.src.toNat ∧ x.peerGen = m.gen.toNat then d.sendAccept c m
        else (((d.endWork c 0x0F).releaseCtx c).accedeNew m job).wantCtx x.key (d.homeOf x.key)
      | _ => d.holdAccede m

/-- After a key has no context any more: a held ACCEDE of it is handled (R159), then what waits for it accedes again (R162). -/
def Dev.keyFree (d : Dev) (k : CtxKey) (home : Nat) : Dev :=
  let d1 := match d.heldAccedes.find? (fun h => d.msgJob h.msg == some k.job && msgKey k.job h.msg == k) with
    | some h => ({ d with heldAccedes := d.heldAccedes.filter (fun (x : HeldAccede) => x != h) } : Dev).accede h.msg
    | none => d
  d1.wantCtx k home

/-- Context c enters CLOSED (R162). -/
def Dev.closeCtx (d : Dev) (c : Nat) : Dev :=
  let k := (d.ctx c).key
  let d1 := d.releaseCtx c
  d1.keyFree k (d1.homeOf k)

/-- A FAILED context whose completions are all written closes (Table 6.2). -/
def Dev.settleFailed (d : Dev) (c : Nat) : Dev :=
  if (d.ctx c).state = .failed ∧ !(d.ops.any (fun o => o.ctx == some c)) then d.closeCtx c else d

/-- A context that a STREAM_CMD waits for ends: the command ends with the status. -/
def Dev.cmdEnd (d : Dev) (c st : Nat) : Dev := if (d.ctx c).cmd then (d.onCtx c (fun x => { x with cmd := false })).cmdDone st 0x7FFF else d

/-- Context c fails with a status (Table 6.2): FAILED until its completions are written; PATH_LOST is counted in the home wing. -/
def Dev.failCtx (d : Dev) (c st : Nat) : Dev :=
  let x := d.ctx c
  if x.state = .closed ∨ x.state = .failed then d
  else
    let d1 := ((d.cmdEnd c st).endWork c st).onCtx c (fun y => { y with state := .failed, status := st })
    let d2 := if st = 0x0A then d1.bump R.STREAM_STAT_PATH_FAIL.PATH_FAIL x.home else d1
    d2.settleFailed c

/-- Every operation and every collective of a tenant in flight ends with TENANT_QUARANTINED (R21). -/
def Dev.quarTenant (d : Dev) (t : Nat) : Dev :=
  let d1 := (d.colls.filter (fun x => x.tenant == t && x.ended.isNone)).foldl (fun (a : Dev) x => a.collFail x.id 0x11 true) d
  (d1.ops.filter (fun o => d1.opTenant o == t && o.stage != .done)).foldl (fun (a : Dev) o => a.endOp o.ring o.index 0x11) d1

/-- Context c enters QUARANTINED (R319, R320): operations end with AUTH_FAIL, an L2 alarm is raised, and with TEN_QUAR_THR contexts of
the tenant within 10 s the tenant's QUAR is set. -/
def Dev.quarantine (d : Dev) (c st : Nat) : Dev :=
  let x := d.ctx c
  if x.state = .closed ∨ x.state = .quarantined then d
  else
    let t := d.ctxTenant x
    let d1 := ((d.cmdEnd c st).endWork c st).onCtx c (fun y => { y with state := .quarantined, status := st })
    let d2 := d1.alarm 10 c 0x051 2 st
    let times := d2.now :: (tabGet (fun _ => []) d2.quarTimes t).filter (fun a => decide (d2.now < a + 10 ^ 10))
    let d3 := { d2 with quarTimes := tabPut (fun _ => []) t times d2.quarTimes }
    let thr := d3.f R.VT_CTL.TEN_QUAR_THR
    if thr ≠ 0 ∧ thr ≤ times.length ∧ !d3.on R.TENANT.QUAR t then
      ((d3.set R.TENANT.QUAR t 1).alarm 9 t 0x052 2 0).quarTenant t else d3

/-- Context c is ended by ABORT (R163), with DEACCEDE STATUS = ABORTED toward the peer. The DEACCEDE of an accession without an answer names
no context of the peer: DST_STREAM is 0x7FFF (DESIGN CHOICE, log entry 99). -/
def Dev.abortCtx (d : Dev) (c : Nat) (notify : Bool) : Dev :=
  let x := d.ctx c
  if x.state = .closed then d
  else
    let d1 := ((d.cmdEnd c 0x0F).endWork c 0x0F).onCtx c (fun y => { y with status := 0x0F })
    let d2 := if notify then d1.sendDeaccede c 0xC 0x0F else d1
    d2.closeCtx c

/-! ### Carriers and peers as streams see them -/

/-- An unreceipted segment that would need a ninth attempt fails its context with PATH_LOST; otherwise it is queued again (R174). -/
def Dev.markResend (d : Dev) (c : Nat) (pick : LogEnt → Bool) : Dev :=
  let x := d.ctx c
  let hit := fun (e : LogEnt) => pick e && !e.receipted && decide (0 < e.attempts) && !e.resend
  if x.log.any (fun e => hit e && decide (8 ≤ e.attempts)) then d.failCtx c 0x0A
  else if x.log.any hit then
    d.lineSettle.onCtx c (fun y => { y with log := y.log.map (fun (e : LogEnt) => if hit e then { e with resend := true } else e) })
  else d

/-- The operation of this gateway whose segment is sent again counts a recovery event (R51). -/
def Dev.eventOp (d : Dev) (c : Nat) (g : Segment) : Dev :=
  if g.typ = 1 then
    { d with ops := d.ops.map (fun (o : Op) =>
        if o.ctx = some c ∧ o.opn = some g.opn.toNat ∧ o.stage = .running then { o with events := o.events + 1 } else o) }
  else d

/-- A carrier left its group or went dark: what it last carried and is not receipted is sent again (R175); what waited on it for its
first transmission waits for another carrier. -/
def Dev.resendCarrier (d : Dev) (m : Nat) : Dev :=
  (d.ctxs.map (·.1)).foldl (fun (a : Dev) c => a.markResend c (fun e => e.carrier == m)) d

/-- Contact with peer p (R381): the lease starts again, and SUSPECT ends (R382). -/
def Dev.contact (d : Dev) (p : Nat) : Dev :=
  if d.f R.HEALTH_PEER.STATE p ≤ 1 then
    let x := d.peer p
    let dl := max (d.now + d.lease) x.vouched
    (d.setPeer p { x with last := d.now, deadline := dl }).set R.HEALTH_PEER.STATE p 0
  else d

/-- A lost peer returns to ALIVE once it is SEALED again and, where its site bit was set, one NOTE carrying the bit has gone to it
(R382). -/
def Dev.lostExit (d : Dev) (p : Nat) : Dev :=
  let x := d.peer p
  if d.f R.HEALTH_PEER.STATE p = 2 ∧ d.f R.VT_PEER.STATE p = 2 ∧ (!x.lostBit || x.noteSent) then
    (d.setPeer p { last := d.now, deadline := d.now + d.lease, vouched := 0, lostBit := false, noteSent := false }).set
      R.HEALTH_PEER.STATE p 0
  else d

/-- A message from a site of the plan that passes its tag is contact. -/
def Dev.fromSite (d : Dev) (site : Nat) (tagOk : Bool) (g : Dev → Dev) : Dev :=
  match d.peerOf site with
  | some p => if tagOk then g (d.contact p) else d
  | none => d

end Sys2Proof.Machine
end

