-- ==== Sys2Proof/Machine/Codec.lean ====
section
/-! DEFINITION. The gradient codec (R125 to R152): symbols, tANS tables, blocks, slots and binding, staging, histograms and
building. -/

namespace Sys2Proof.Machine

open Sys2Proof

/-! ### Units of the coded format (R125, R126) -/

/-- The unit of a coded format: 0xD is the pair s, e; 0xF a byte. -/
def codedFmt (cf : Nat) : PFmt := if cf = 0xD then .pair else if cf = 0xF then .int 8 else memFmt cf

/-- The coded format of a collective's partials (R78, R125). -/
def partialCode (fmt wide : Nat) : Nat := if wide = 1 ∧ fmt ≤ 8 then 2 else fmt

/-- Units of a whole block (R135). -/
def blockUnits (cf : Nat) : Nat := if cf = 0xF then 16364 else 4096 / (codedFmt cf).elems

/-- The raw field: elements as stored in memory, in network byte order (R135). -/
def rawField (cf : Nat) (us : List Nat) : List Byte := digestBytes (codedFmt cf) us

/-- Units of a raw field. -/
def ofRawField (cf : Nat) (l : List Byte) : List Nat :=
  let pf := codedFmt cf
  match pf with
  | .mx _ => toUnits pf.bytes l
  | .pair => (chunksOf 8 l).map (fun b => ofBE (b.take 4) + 2 ^ 32 * ofBE (b.drop 4))
  | _ => (chunksOf pf.bytes l).map ofBE

/-! ### Bit strings (R129, R133) -/

/-- The low n bits of v, most significant first. -/
def bitsMsb (n v : Nat) : List Bool := (List.range n).map (fun i => v.testBit (n - 1 - i))

/-- The number bits spell, most significant first. -/
def ofBitsMsb (l : List Bool) : Nat := l.foldl (fun a b => 2 * a + b2n b) 0

/-- Bits as bytes, padded with zeros; bit 0 of the string is bit 7 of the first byte. -/
def packBits (l : List Bool) : List Byte := (chunksOf 8 l).map (fun c => BitVec.ofNat 8 (ofBitsMsb ((c ++ List.replicate 7 false).take 8)))

/-- The bits of bytes. -/
def unpackBits (l : List Byte) : List Bool := l.flatMap (fun b => bitsMsb 8 b.toNat)

/-! ### Symbols and raw bits (Table 5.1, R126 to R128) -/

/-- z of R127. -/
def zigzag (w v : Nat) : Nat := if v % 2 ^ w < 2 ^ (w - 1) then 2 * (v % 2 ^ w) else 2 * (2 ^ w - 1 - v % 2 ^ w) + 1

/-- v of R127. -/
def unzigzag (w z : Nat) : Nat := if z % 2 = 0 then z / 2 else 2 ^ w - 1 - z / 2

/-- Width of an integer format. -/
def intBits (cf : Nat) : Nat := 8 * (codedFmt cf).bytes

/-- Bit length. -/
def bitLen (n : Nat) : Nat := if n = 0 then 0 else n.log2 + 1

/-- Stream A symbols of a unit. -/
def symsA (cf u : Nat) : List Nat :=
  match cf with
  | 0x0 => [u / 2 ^ 7 % 256]
  | 0x1 => [u / 2 ^ 10 % 32]
  | 0x2 => [u / 2 ^ 23 % 256]
  | 0x5 => (List.range 32).map (fun i => u / 2 ^ (8 + 8 * i) % 256)
  | 0x6 => (List.range 32).map (fun i => u / 2 ^ (8 + 6 * i) % 64)
  | 0x7 => (List.range 16).map (fun i => u / 2 ^ (8 + 8 * i) % 256)
  | 0x8 => (List.range 32).map (fun i => u / 2 ^ (8 + 8 * i) % 256)
  | 0xD => [u / 2 ^ 23 % 256]
  | 0x3 => [u % 256]
  | 0x4 => [u % 256]
  | _ => [bitLen (zigzag (intBits cf) u)]

/-- Stream B symbols of a unit. -/
def symsB (cf u : Nat) : List Nat :=
  if 5 ≤ cf ∧ cf ≤ 8 then [u % 256]
  else if cf = 0xD then [if u / 2 ^ 32 = 0 then 0 else 1 + u / 2 ^ 55 % 256]
  else []

/-- Raw bits of a unit. -/
def rawBits (cf u : Nat) : List Bool :=
  match cf with
  | 0x0 => u.testBit 15 :: bitsMsb 7 u
  | 0x1 => u.testBit 15 :: bitsMsb 10 u
  | 0x2 => u.testBit 31 :: bitsMsb 23 u
  | 0xD => (u.testBit 31 :: bitsMsb 23 u) ++ (if u / 2 ^ 32 = 0 then [] else u.testBit 63 :: bitsMsb 23 (u / 2 ^ 32))
  | 0x9 | 0xA | 0xB | 0xC => let z := zigzag (intBits cf) u; if z < 2 then [] else bitsMsb (z.log2) z
  | _ => []

/-- Symbols of stream A per unit, and of stream B. -/
def unitSymsA (cf : Nat) : Nat := if cf = 0x7 then 16 else if 5 ≤ cf ∧ cf ≤ 8 then 32 else 1
/-- Stream B. -/
def unitSymsB (cf : Nat) : Nat := if (5 ≤ cf ∧ cf ≤ 8) ∨ cf = 0xD then 1 else 0

/-- Take n raw bits. -/
def takeBits (n : Nat) (l : List Bool) : Option (Nat × List Bool) := if l.length < n then none else some (ofBitsMsb (l.take n), l.drop n)

/-- A unit from its symbols and the raw bits that follow; none where the raw bits run out. -/
def unitOf (cf : Nat) (a b : List Nat) (raw : List Bool) : Option (Nat × List Bool) :=
  let x := a.headD 0
  let y := b.headD 0
  match cf with
  | 0x0 => (takeBits 8 raw).map (fun r => (r.1 / 2 ^ 7 * 2 ^ 15 + x * 2 ^ 7 + r.1 % 2 ^ 7, r.2))
  | 0x1 => (takeBits 11 raw).map (fun r => (r.1 / 2 ^ 10 * 2 ^ 15 + x * 2 ^ 10 + r.1 % 2 ^ 10, r.2))
  | 0x2 => (takeBits 24 raw).map (fun r => (r.1 / 2 ^ 23 * 2 ^ 31 + x * 2 ^ 23 + r.1 % 2 ^ 23, r.2))
  | 0xD =>
    match takeBits 24 raw with
    | none => none
    | some r =>
      let s := r.1 / 2 ^ 23 * 2 ^ 31 + x * 2 ^ 23 + r.1 % 2 ^ 23
      if y = 0 then some (s, r.2)
      else (takeBits 24 r.2).map (fun q => (s + 2 ^ 32 * (q.1 / 2 ^ 23 * 2 ^ 31 + (y - 1) * 2 ^ 23 + q.1 % 2 ^ 23), q.2))
  | 0x9 | 0xA | 0xB | 0xC =>
    if x < 2 then some (unzigzag (intBits cf) x, raw)
    else (takeBits (x - 1) raw).map (fun r => (unzigzag (intBits cf) (2 ^ (x - 1) + r.1), r.2))
  | 0x6 => some (y + ((a.mapIdx (fun i s => s % 64 * 2 ^ (8 + 6 * i))).sum), raw)
  | 0x5 | 0x7 | 0x8 => some (y + ((a.mapIdx (fun i s => s * 2 ^ (8 + 8 * i))).sum), raw)
  | _ => some (x, raw)

/-- n units from the symbols of both streams and the raw bits. -/
def unitsOf (cf : Nat) : Nat → List Nat → List Nat → List Bool → Option (List Nat × List Bool)
  | 0, _, _, raw => some ([], raw)
  | n + 1, a, b, raw =>
    match unitOf cf (a.take (unitSymsA cf)) (b.take (unitSymsB cf)) raw with
    | none => none
    | some (u, r) =>
      match unitsOf cf n (a.drop (unitSymsA cf)) (b.drop (unitSymsB cf)) r with
      | none => none
      | some (us, q) => some (u :: us, q)

/-! ### Table images (R130, Table 5.2) -/

/-- JOB_ID, TID, FORMAT and CHECK of an image, and a count of a stream (0 A, 1 B). -/
def imgJob (c : List Byte) : Nat := leAt c 0 4
/-- TID. -/
def imgTid (c : List Byte) : Nat := leAt c 4 4
/-- FORMAT. -/
def imgFmt (c : List Byte) : Nat := leAt c 8 1 % 16
/-- CHECK. -/
def imgCheck (c : List Byte) : Nat := leAt c 0xC 4
/-- The counts of a stream. -/
def imgFreq (c : List Byte) (stream : Nat) : List Nat := toUnits 2 (slice c (0x10 + 0x200 * stream) 512)

/-- Alphabet of stream A (Table 5.1). -/
def alphaA (cf : Nat) : Nat := match cf with | 0x1 => 32 | 0x6 => 64 | 0x9 => 9 | 0xA => 17 | 0xB => 33 | 0xC => 65 | _ => 256

/-- The counts of a stream follow R130. -/
def freqOk (alpha : Nat) (f : List Nat) : Bool := (f.drop alpha).all (· == 0) && f.sum == 2048

/-- The CRC-32C of R130. -/
def imgCrc (c : List Byte) : Nat := (crc32c (slice c 0 12 ++ slice c 0x10 1024)).toNat

/-- An image is valid (R130). -/
def imgOk (c : List Byte) : Bool :=
  c.length == 1040 && leAt c 8 4 / 16 == 0 && decide (imgFmt c ≤ 0xD) && freqOk (alphaA (imgFmt c)) (imgFreq c 0) &&
    (if unitSymsB (imgFmt c) = 1 then freqOk 256 (imgFreq c 1) else (imgFreq c 1).all (· == 0)) && imgCrc c == imgCheck c

/-! ### tANS (R131 to R133) -/

/-- Running sums of counts. -/
def runSums : Nat → List Nat → List Nat
  | _, [] => []
  | a, f :: t => (a + f) :: runSums (a + f) t

/-- The symbol of each of the 2,048 positions: position u has spread index 1451·u mod 2048 (R131). -/
def symTable (f : List Nat) : List Nat :=
  let cum := runSums 0 f
  (List.range 2048).map (fun u => (cum.findIdx? (fun c => 1451 * u % 2048 < c)).getD 0)

/-- The positions of a symbol, ascending. -/
def positions (tab : List Nat) (s : Nat) : List Nat := (List.range 2048).filter (fun u => tab.getD u 0 == s)

/-- The smallest k with x >> k below a bound. -/
def shiftBelow (bound : Nat) : Nat → Nat → Nat
  | 0, _ => 0
  | fuel + 1, x => if x < bound then 0 else 1 + shiftBelow bound fuel (x / 2)

/-- One encoder step from the right (R132): the state and the chunks so far. -/
def tansStep (f tab : List Nat) (s : Nat) (acc : Nat × List Bool) : Nat × List Bool :=
  let x := acc.1
  let k := shiftBelow (2 * f.getD s 0) 12 x
  let y := x / 2 ^ k
  (2048 + (positions tab s).getD (y - f.getD s 0) 0, bitsMsb k x ++ acc.2)

/-- The coded field of a stream (R133). -/
def tansEncode (f : List Nat) (syms : List Nat) : List Byte :=
  let r := syms.foldr (tansStep f (symTable f)) (2048, [])
  packBits (bitsMsb 11 (r.1 - 2048) ++ r.2)

/-- Decode n symbols from state X (R133): symbols, final state, bits left; none where a field has too few bits. -/
def tansRun (f tab : List Nat) : Nat → Nat → List Bool → Option (List Nat × Nat × List Bool)
  | 0, x, bits => some ([], x, bits)
  | n + 1, x, bits =>
    let s := tab.getD x 0
    let y := f.getD s 0 + ((tab.take x).filter (· == s)).length
    let nb := 11 - y.log2
    match takeBits nb bits with
    | none => none
    | some (r, rest) =>
      match tansRun f tab n (y * 2 ^ nb - 2048 + r) rest with
      | none => none
      | some (l, q) => some (s :: l, q)

/-- Decode a coded field of n symbols: the state must end at 0 and every padding bit be 0 (R133, R138). -/
def tansDecode (f : List Nat) (n : Nat) (field : List Byte) : Option (List Nat) :=
  match takeBits 11 (unpackBits field) with
  | none => none
  | some (x, bits) =>
    match tansRun f (symTable f) n x bits with
    | none => none
    | some (l, y, rest) => if y = 0 ∧ rest.all (! ·) then some l else none

/-! ### Blocks (R134, R135) -/

/-- Put header and CRC around the fields of a block. -/
def blockBytes (b0 slot count tchk : Nat) (fa fb fr : List Byte) : List Byte :=
  let b := beBytes 1 b0 ++ beBytes 2 slot ++ beBytes 2 count ++ beBytes 2 tchk ++ beBytes 2 fa.length ++ beBytes 2 fb.length ++
    beBytes 2 fr.length ++ zeros 3 ++ fa ++ fb ++ fr
  b ++ beBytes 4 (crc32c b).toNat

/-- A RAW block. -/
def rawBlock (cf reason : Nat) (us : List Nat) : List Byte :=
  blockBytes (0x40 + 0x10 * reason + cf) 0 (us.length * (codedFmt cf).elems - 1) 0 [] [] (rawField cf us)

/-- A block of units with a bound slot, version and image: CODED where that is shorter than RAW and every symbol has a count (R135);
says whether it is CODED. -/
def codeBlock (cf slot ver : Nat) (img : List Byte) (us : List Nat) : List Byte × Bool :=
  let a := us.flatMap (symsA cf)
  let b := us.flatMap (symsB cf)
  let fA := imgFreq img 0
  let fB := imgFreq img 1
  let raw := rawField cf us
  if a.any (fun s => fA.getD s 0 == 0) || b.any (fun s => fB.getD s 0 == 0) then (rawBlock cf 0 us, false)
  else
    let xa := tansEncode fA a
    let xb := if b.isEmpty then [] else tansEncode fB b
    let xr := packBits (us.flatMap (rawBits cf))
    if xa.length + xb.length + xr.length < raw.length then
      (blockBytes (0x20 * ver + cf) slot (us.length * (codedFmt cf).elems - 1) (imgCheck img % 65536) xa xb xr, true)
    else (rawBlock cf 0 us, false)

/-- A block header read from its bytes (Table 5.3). -/
structure BlkHead where
  mode : Nat
  ver : Nat
  fmt : Nat
  slot : Nat
  count : Nat
  tchk : Nat
  lenA : Nat
  lenB : Nat
  lenR : Nat
  /-- A reserved bit is set. -/
  rsvd : Bool
deriving DecidableEq, Repr

/-- The header at the start of a list of bytes. -/
def blkHead (l : List Byte) : BlkHead :=
  let b0 := ofBE (slice l 0 1)
  let sl := ofBE (slice l 1 2)
  let ct := ofBE (slice l 3 2)
  { mode := b0 / 64, ver := b0 / 32 % 2, fmt := b0 % 16, slot := sl, count := ct % 2 ^ 14, tchk := ofBE (slice l 5 2),
    lenA := ofBE (slice l 7 2), lenB := ofBE (slice l 9 2), lenR := ofBE (slice l 11 2),
    rsvd := ct / 2 ^ 14 != 0 || ofBE (slice l 13 3) != 0 }

/-- Bytes of the block with a header. -/
def BlkHead.size (h : BlkHead) : Nat := 20 + h.lenA + h.lenB + h.lenR

/-- The CRC of a whole block passes. -/
def blockCrcOk (b : List Byte) : Bool := ofBE (b.drop (b.length - 4)) == (crc32c (b.take (b.length - 4))).toNat

/-- Decode a CODED block's fields with an image; none where R138 finds a fault. The image R149 finds decodes the block whatever its own FORMAT
is (DESIGN CHOICE, log entry 112). -/
def decodeCoded (h : BlkHead) (img b : List Byte) : Option (List Nat) :=
  let n := (h.count + 1) / (codedFmt h.fmt).elems
  let fa := slice b 16 h.lenA
  let fb := slice b (16 + h.lenA) h.lenB
  let fr := slice b (16 + h.lenA + h.lenB) h.lenR
  match tansDecode (imgFreq img 0) (n * unitSymsA h.fmt) fa,
      (if unitSymsB h.fmt = 1 then tansDecode (imgFreq img 1) n fb else if h.lenB = 0 then some [] else none) with
  | some a, some bs =>
    match unitsOf h.fmt n a bs (unpackBits fr) with
    | some (us, rest) => if rest.length < 8 ∧ rest.all (! ·) then some us else none
    | none => none
  | _, _ => none

/-- Decode a RAW block. One whose VER, SLOT, TCHK or code lengths are not the 0 of Table 5.3 fails as R138 says of a block (DESIGN CHOICE, log
entry 112). -/
def decodeRaw (h : BlkHead) (b : List Byte) : Option (List Nat) :=
  let n := (h.count + 1) / (codedFmt h.fmt).elems
  if h.lenA = 0 ∧ h.lenB = 0 ∧ h.slot = 0 ∧ h.tchk = 0 ∧ h.ver = 0 ∧ h.lenR = n * (codedFmt h.fmt).bytes then
    some (ofRawField h.fmt (slice b 16 h.lenR))
  else none

/-! ### Slots (Table 5.4, R139, R140) -/

/-- The words of slot entries are those of table 7 of `layout`. -/
def slotKey (n w : Nat) : Nat := tblKey 7 n w

/-- Version v of a slot is installed. -/
def Dev.installed (d : Dev) (slot v : Nat) : Bool := if v = 0 then d.on R.SLOT.OK0 slot else d.on R.SLOT.OK1 slot

/-- The image of a version, empty where none is installed. -/
def Dev.slotImg (d : Dev) (slot v : Nat) : List Byte := tabGet (fun _ => []) d.codecImg (2 * slot + v)
/-- The valid slot of a job, format and TID (R140). -/
def Dev.slotFor (d : Dev) (job fmt tid : Nat) : Option Nat :=
  (d.listed 7).find? (fun n => d.on R.SLOT.VALID n && d.f R.SLOT.JOB n == job && d.f R.SLOT.FORMAT n == fmt && d.f R.SLOT.TID n == tid)

/-- What an operation binds at its start (R140). -/
def Dev.bindOf (d : Dev) (job fmt tid : Nat) : Option (Nat × Nat) :=
  match d.slotFor job fmt tid with
  | some n => if d.on R.CODEC_CTL.ENABLE && d.installed n (d.f R.SLOT.ACTIVE n) then some (n, d.f R.SLOT.ACTIVE n) else none
  | none => none

/-- The word of a slot as it reads: IDLE and STAGED are what they say. -/
def Dev.slotWord (d : Dev) (n w : Nat) : Word :=
  let v := d.word (slotKey n w)
  if w = 0 then setBits v 63 1 (b2n (d.slotIdle n))
  else if w = 1 then
    setBits v 56 4 (((List.range 4).filter (fun i => d.staged.any (fun e => e.wing == i && e.slot == n && e.ready))).foldl (fun a i => a + 2 ^ i) 0)
  else v

/-- A write of a slot word (R11, R139). -/
def Dev.slotWrite (d : Dev) (n w : Nat) (l : Lanes) (v : Word) : Dev :=
  let was := d.on R.SLOT.VALID n
  let d1 := d.writeReg (slotKey n w) (!was && d.slotIdle n) l v R.CODEC_ERR.BUSY
  if w ≠ 0 then d1
  else if !was && d1.on R.SLOT.VALID n then
    let clash := (d1.listed 7).any (fun k => k != n && d1.on R.SLOT.VALID k && d1.f R.SLOT.JOB k == d1.f R.SLOT.JOB n &&
      d1.f R.SLOT.TID k == d1.f R.SLOT.TID n && d1.f R.SLOT.FORMAT k == d1.f R.SLOT.FORMAT n)
    if 0xD < d1.f R.SLOT.FORMAT n ∨ !d1.on R.JOB.VALID (d1.f R.SLOT.JOB n) ∨ clash then
      (d1.set R.SLOT.VALID n 0).set R.CODEC_ERR.MISMATCH 0 1
    else d1
  else if was && !d1.on R.SLOT.VALID n && d1.slotIdle n then d1.slotDiscard n
  else d1

/-- CODEC_SLOT_DATA_ACCESS (R15, R16, R139). -/
def execCodecSlotDataAccess (a : Access) (s : State) : Res :=
  .next (if s.dev.ready then s.onDev (fun d =>
    let n := d.f R.CODEC_SLOT_SEL.INDEX
    let w := d.f R.CODEC_SLOT_SEL.WORD
    if 8192 ≤ n then
      let d1 := d.set R.CODEC_ERR.RANGE 0 1
      match a with | .read => d1.emit (.readData 0) | .write _ _ => d1
    else
      let d1 := match a with
        | .read => d.emit (.readData (d.slotWord n w))
        | .write l v => d.slotWrite n w l v
      d1.selNext R.CODEC_SLOT_SEL.AUTOINC R.CODEC_SLOT_SEL.WORD R.CODEC_SLOT_SEL.INDEX 4) else s)

/-! ### Histograms (R144) -/

/-- Add counts to a sparse table, saturating at 32 bits. -/
def addCounts (new old : List (Nat × Nat)) : List (Nat × Nat) :=
  new.foldl (fun a p => setCount a p.1 (min (countOf a p.1 + p.2) (2 ^ 32 - 1))) old

/-- Count the symbols of a block in wing w for the slot that matches (R144). -/
def Dev.histCount (d : Dev) (slot w cf : Nat) (us : List Nat) : Dev :=
  if d.on R.SLOT.HIST_EN slot then
    let a := us.flatMap (symsA cf)
    let syms := a.map (fun s => (s, 1)) ++ (us.flatMap (symsB cf)).map (fun s => (256 + s, 1))
    let k := 4 * slot + w
    let d1 := { d with histPend := tabPut (fun _ => []) k (addCounts syms (tabGet (fun _ => []) d.histPend k)) d.histPend }
    d1.set R.SLOT.HCOUNT slot (min (d1.f R.SLOT.HCOUNT slot + a.length) (2 ^ 64 - 1))
  else d

/-- The counts of a slot in a wing are added to its histogram. -/
def Dev.histFlush (d : Dev) (slot w : Nat) : Dev :=
  let k := 4 * slot + w
  let new := tabGet (fun _ => []) d.histPend k
  if new.isEmpty then d
  else { d with histPend := tabPut (fun _ => []) k [] d.histPend,
                hists := tabPut (fun _ => []) slot (addCounts new (tabGet (fun _ => []) d.hists slot)) d.hists }

/-- Every wing's counts of a slot are added (on completion of an operation). -/
def Dev.histFlushAll (d : Dev) (slot : Nat) : Dev := (List.range 4).foldl (fun a w => a.histFlush slot w) d

/-! ### Staging (R142, R143) -/

/-- The home wing of the context that an operation uses or waits for (R155). -/
def Dev.opHome (d : Dev) (o : Op) : Nat :=
  match o.ctx with
  | some c => (d.ctx c).home
  | none => match d.ctxOf (d.opKey o) with | some c => (d.ctx c).home | none => d.homeOf (d.opKey o)

/-- A version is one of the 480 that bound operations pin in a wing, and one of them is in progress: a collective in the wings where its
chunks run (R95, R142). -/
def Dev.pinned (d : Dev) (e : TabEnt) : Bool :=
  e.pin && (d.ops.any (fun o => o.bind == some (e.slot, e.ver) && d.opHome o == e.wing) ||
    d.colls.any (fun x => x.bind == some (e.slot, e.ver) && x.ended.isNone && ((List.range x.wings).map x.movedTo).contains e.wing))

/-- A table is staged in a wing. -/
def Dev.isStaged (d : Dev) (w slot ver : Nat) : Bool := d.staged.any (fun e => e.wing == w && e.slot == slot && e.ver == ver && e.ready)

/-- A staged table has been used: it is the most recently used. -/
def Dev.touchTab (d : Dev) (w slot ver : Nat) : Dev :=
  let mine := fun (e : TabEnt) => e.wing == w && e.slot == slot && e.ver == ver
  { d with staged := d.staged.filter (fun e => !mine e) ++ d.staged.filter mine }

/-- Ask for a table in a wing: answers whether it is or will be there. At most 512 tables a wing; one that is there and not pinned is
replaced, the least recently used first, its counts flushed (R142, R144). A bound operation may not pin a 481st. -/
def Dev.stage (d : Dev) (w slot ver : Nat) (bound : Bool) : Dev × Bool :=
  let mine := d.staged.filter (fun e => e.wing == w)
  let new : TabEnt := ⟨w, slot, ver, false, bound⟩
  let full := decide (480 ≤ (mine.filter d.pinned).length)
  match mine.find? (fun e => e.slot == slot && e.ver == ver) with
  | some e =>
    if !bound || d.pinned e then (d, true)
    else ({ d with staged := d.staged.map (fun (x : TabEnt) => if x = e then { x with pin := !full } else x) }, true)
  | none =>
  if bound && full then (d, false)
  else if mine.length < 512 then ({ d with staged := d.staged ++ [new] }, true)
  else match mine.find? (fun e => e.ready && !d.pinned e) with
    | none => (d, false)
    | some v =>
      let d1 := d.histFlush v.slot w
      ({ d1 with staged := d1.staged.filter (fun (e : TabEnt) => e != v) ++ [new] }, true)

/-- CODEC_STAGE (R142): GO stages the slot's ACTIVE version in the wings named; FAIL says that one was refused. While GO reads 1
another GO has no effect. -/
def execCodecStage (l : Lanes) (v : Word) (s : State) : Res :=
  .next (if s.dev.ready then s.onDev (fun d =>
    let busy := d.on R.CODEC_STAGE.GO
    let d1 := (d.writeFields (R.CODEC_STAGE.SLOT.key 0) true l v).1
    if busy || wrote l v R.CODEC_STAGE.GO == 0 then d1
    else
      let n := d1.f R.CODEC_STAGE.SLOT
      let ver := d1.f R.SLOT.ACTIVE n
      let wings := (bitsSet 4 (d1.f R.CODEC_STAGE.WINGS)).filter d1.wingEnabled
      if !d1.installed n ver then d1.set R.CODEC_STAGE.FAIL 0 1
      else
        let r := wings.foldl (fun (a : Dev × Bool) w => let p := a.1.stage w n ver false; (p.1, a.2 && p.2)) (d1, true)
        let wait := (wings.filter (fun w => r.1.staged.any (fun e => e.wing == w && e.slot == n && e.ver == ver && !e.ready))).map (fun w => (n, ver, w))
        { (r.1.set R.CODEC_STAGE.FAIL 0 (b2n (!r.2))).set R.CODEC_STAGE.GO 0 (if wait.isEmpty then 0 else 1) with stageReq := wait }) else s)

/-- STAGING_COMPLETE (R142): the table is in the wing's SRAM; CODEC_STAGE ends with the last one it asked for. -/
def execStagingComplete (slot : Fin 8192) (ver : Fin 2) (w : Fin 4) (s : State) : Res :=
  .next (s.onDev (fun d =>
    if d.staged.any (fun e => e.wing == w.val && e.slot == slot.val && e.ver == ver.val && !e.ready) then
      let rest := d.stageReq.filter (fun r => r != (slot.val, ver.val, w.val))
      let d1 := { d with
        staged := d.staged.map (fun (e : TabEnt) => if e.wing = w.val ∧ e.slot = slot.val ∧ e.ver = ver.val then { e with ready := true } else e),
        stageReq := rest }
      if d.stageReq.contains (slot.val, ver.val, w.val) && rest.isEmpty then d1.set R.CODEC_STAGE.GO 0 0 else d1
    else d))

/-- The image a CODED block is decoded with (R149): the installed version, failing that the staged image of a pending publish. -/
def Dev.tableFor (d : Dev) (slot ver tchk : Nat) : Option (List Byte) :=
  if d.installed slot ver && imgCheck (d.slotImg slot ver) % 65536 == tchk then some (d.slotImg slot ver)
  else (d.pubs.find? (fun p => p.slot == slot && p.ver == ver && !p.installed && p.decided != 2 && imgCheck p.img % 65536 == tchk)).map (·.img)

/-! ### Building (R145) -/

/-- The symbol with the largest count, the lowest one on a tie. -/
def largest (f : List Nat) : Nat :=
  let m := f.foldl max 0
  (f.findIdx? (· == m)).getD 0

/-- Take one unit from the symbols in descending order of count, none below 1, `n` units in all. -/
def takeExcess : Nat → Nat → List Nat → List Nat
  | 0, _, f => f
  | _, 0, f => f
  | fuel + 1, n + 1, f =>
    -- one round: every symbol above 1 in descending order of its count gives one unit
    let order := ((List.range (f.foldl max 0 + 1)).reverse).flatMap (fun v => if v < 2 then [] else (List.range f.length).filter (fun s => f.getD s 0 == v))
    let now := order.take (n + 1)
    takeExcess fuel (n + 1 - now.length) (f.mapIdx (fun i v => if now.contains i then v - 1 else v))

/-- The counts of an image from a histogram of one stream (R145). -/
def buildFreq (h : List Nat) : List Nat :=
  let tot := h.sum
  let f := h.map (fun x => if x = 0 then 0 else max 1 (2048 * x / tot))
  if f.sum ≤ 2048 then let m := largest f; f.mapIdx (fun i v => if i = m then v + (2048 - f.sum) else v)
  else takeExcess 2048 (f.sum - 2048) f

/-- The image built from a slot's histogram; none where a required stream has no sample. -/
def Dev.buildImage (d : Dev) (n : Nat) : Option (List Byte) :=
  let h := tabGet (fun _ => []) d.hists n
  let st := fun b => (List.range 256).map (fun s => countOf h (256 * b + s))
  let fmt := d.f R.SLOT.FORMAT n
  let needB := unitSymsB fmt = 1
  if (st 0).sum = 0 ∨ (needB ∧ (st 1).sum = 0) then none
  else
    let fb := if needB then buildFreq (st 1) else List.replicate 256 0
    let head := leBytes 4 (d.f R.JOB.JOB_ID (d.f R.SLOT.JOB n)) ++ leBytes 4 (d.f R.SLOT.TID n) ++ leBytes 4 fmt
    let body := (buildFreq (st 0)).flatMap (leBytes 2) ++ fb.flatMap (leBytes 2)
    some (head ++ leBytes 4 (crc32c (head ++ body)).toNat ++ body)

/-- CODEC_BUILD (R145): GO starts a build of the slot named; while one runs a write is ignored, SLOT included (DESIGN CHOICE, log entry 112). -/
def execCodecBuild (l : Lanes) (v : Word) (s : State) : Res :=
  .next (if s.dev.ready then s.onDev (fun d =>
    if d.on R.CODEC_BUILD.GO then d
    else
      let d1 := (d.writeFields (R.CODEC_BUILD.SLOT.key 0) true l v).1
      if wrote l v R.CODEC_BUILD.GO == 1 then d1.set R.CODEC_BUILD.GO 0 1 else d1) else s)

/-- CODEC_BUILD_DONE (R145): Curator firmware writes the image to CODEC_BUILD_ADDR in HBM or sets EMPTY; the histogram is cleared and
GO clears. Without running firmware no build ends (Table 14.1). -/
def execCodecBuildDone (s : State) : Res :=
  .next (if s.dev.on R.CODEC_BUILD.GO && s.dev.fwRuns then s.onBoth (fun d m =>
    let n := d.f R.CODEC_BUILD.SLOT
    let d1 := ({ d with hists := d.hists.filter (fun (e : Nat × List (Nat × Nat)) => e.1 != n) } : Dev).set R.SLOT.HCOUNT n 0
    let d2 := d1.set R.CODEC_BUILD.GO 0 0
    match d.buildImage n with
    | none => (d2.set R.CODEC_BUILD.EMPTY 0 1, m)
    | some img => (d2.set R.CODEC_BUILD.EMPTY 0 0, memWrite m (memKey 0 (d.f R.CODEC_BUILD_ADDR.ADDR)) img)) else s)

end Sys2Proof.Machine
end

