-- ==== Sys2Proof/Machine/Kwave.lean ====
section
/-! DEFINITION. Kwave engines, lasers and heaters (R242 to R262), carrier groups (R281, R283) and the commands on one carrier's
optics. What the optics do of themselves (a lock reached, a relock that succeeds) comes with the command; the model keeps what the
gateway makes of it. -/

namespace Sys2Proof.Machine

open Sys2Proof

/-- A carrier's optics. -/
def Dev.kwOf (d : Dev) (m : Nat) : KwX := tabGet (fun _ => KwX.empty) d.kw m
/-- Replace them. -/
def Dev.setKw (d : Dev) (m : Nat) (x : KwX) : Dev := { d with kw := tabPut (fun _ => KwX.empty) m x d.kw }
/-- Change them. -/
def Dev.onKw (d : Dev) (m : Nat) (g : KwX → KwX) : Dev := d.setKw m (g (d.kwOf m))

/-- A carrier's framer. -/
def Dev.lineOf (d : Dev) (m : Nat) : LineX := tabGet (fun _ => LineX.empty) d.lines m
/-- Replace it. -/
def Dev.setLine (d : Dev) (m : Nat) (x : LineX) : Dev := { d with lines := tabPut (fun _ => LineX.empty) m x d.lines }
/-- Change it. -/
def Dev.onLine (d : Dev) (m : Nat) (g : LineX → LineX) : Dev := d.setLine m (g (d.lineOf m))
/-- A performance-monitoring entity. -/
def Dev.pmOf (d : Dev) (e : Nat) : PmX := tabGet (fun _ => PmX.empty) d.pm e
/-- Replace it. -/
def Dev.setPm (d : Dev) (e : Nat) (x : PmX) : Dev := { d with pm := tabPut (fun _ => PmX.empty) e x d.pm }
/-- Change it. -/
def Dev.onPm (d : Dev) (e : Nat) (g : PmX → PmX) : Dev := d.setPm e (g (d.pmOf e))

/-- A defect of the entity is set at some moment of this second (R287). -/
def Dev.pmDefect (d : Dev) (e : Nat) : Dev := d.onPm e (fun x => { x with defect := true })

/-- Path entity (site, plane) (LINE_PM_SEL.ENTITY). -/
def pathEnt (site plane : Nat) : Nat := 128 + 8 * site + plane

/-- dLOS is set (R276); the second is a defect second (R287). -/
def Dev.losSet (d : Dev) (m : Nat) : Dev := (d.set R.LINE_CAR_STAT.LOS m 1).pmDefect m

/-! ### May a side be lit -/

/-- The connector of a plane is present and has been for 100 ms (R242, R243). -/
def Dev.faOk (d : Dev) (e : Nat) : Bool := (d.f R.KW_FA.PRESENT).testBit (e / 4) && d.faSettled.getD (e / 4) false

/-- Engine e is switched on. -/
def Dev.engSwitched (d : Dev) (e : Nat) : Bool := d.wingPresent (e / 2) && d.on R.KW_CTL.ENABLE && d.on R.KW_ENG_CFG.EN e

/-- Engine e is in service: switched on, its quarter not fenced, not darkened, in P0 or P1 (Table 13.8). -/
def Dev.engOk (d : Dev) (e : Nat) : Bool :=
  d.engSwitched e && d.wingEnabled (e / 2) && !d.engDark.contains e && !d.engDark.contains (8 + e) && decide (d.f R.SYS_PWR.STATE ≤ 1)

/-- A carrier is switched on in an engine in service. -/
def Dev.carOn (d : Dev) (m : Nat) : Bool := d.engOk (carrierEngine m) && d.on R.KW_CAR_CFG.EN m

/-- The TX colour a carrier should have now: the schedule's, or the rota's for an anchor (R221, R227). -/
def Dev.wantTx (d : Dev) (m : Nat) : Option Nat :=
  if isAnchor m then
    if d.on R.CAT_CTL.ENABLE then (d.anchorSite (carrierEngine m)).bind (catAnchorTx d.cat (carrierEngine m)) else none
  else (d.sched m).tx

/-- A transmitter may be lit: R227, R233, R243, R263. -/
def Dev.txMay (d : Dev) (m : Nat) : Bool :=
  d.carOn m && d.faOk (carrierEngine m) && (d.wantTx m).isSome && !(!isAnchor m && (d.sched m).txPark)

/-- A receive side may work: switched on, an LO colour, not parked. -/
def Dev.rxMay (d : Dev) (m : Nat) : Bool :=
  d.carOn m && (isAnchor m || ((d.sched m).lo.isSome && !(d.sched m).rxPark))

/-- A receive side is scheduled: switched on, with an LO colour, not parked; whether its engine works is not asked (R287, R288). -/
def Dev.rxSched (d : Dev) (m : Nat) : Bool :=
  d.engSwitched (carrierEngine m) && d.on R.KW_CAR_CFG.EN m && (isAnchor m || ((d.sched m).lo.isSome && !(d.sched m).rxPark))

/-! ### Carrier groups (R281, R283) -/

/-- Segments that wait at a transmitter that goes dark or changes colour never leave on it: they are resent (R175, R270). -/
def Dev.dropTx (d : Dev) (m : Nat) : Dev :=
  let x := d.lineOf m
  if x.txq.isEmpty && x.txRest.isEmpty then d
  else (d.onLine m (fun y => { y with txq := [], txRest := [] })).resendCarrier m

/-- The transmit side meets R281. -/
def Dev.txCond (d : Dev) (m : Nat) : Bool :=
  !isAnchor m && d.txMay m && (d.txSite m).isSome && (d.kwOf m).txLit && d.on R.KW_CAR_STATE.TX_LOCK m &&
    !d.on R.LINE_CAR_STAT.RMT_OUT m && !(d.kwOf m).txOut

/-- The receive side meets R281. -/
def Dev.rxCond (d : Dev) (m : Nat) : Bool :=
  !isAnchor m && d.rxMay m && (d.rxSite m).isSome && d.on R.LINE_CAR_STAT.ALIGN m && !d.on R.LINE_CAR_STAT.LOS m &&
    !(d.on R.LINE_CTL.TIM_ACT && d.on R.LINE_CAR_STAT.TIM m)

/-- A transmit side leaves its group: what it carried is resent on other carriers (R175, R283). Where a fault took it out, and neither the host
nor a scheduled park, the recovery is measured (R376). -/
def Dev.txLeave (d : Dev) (m : Nat) : Dev :=
  let fault := d.engSwitched (carrierEngine m) && d.on R.KW_CAR_CFG.EN m && (d.sched m).tx.isSome && !(d.sched m).txPark
  let d0 := if fault then d.recoverStart (fun _ g => g.carrier == m) [] else d
  let d1 := (d0.onKw m (fun x => { x with txJoined := false })).set R.LINE_CAR_STAT.TX_IN m 0
  (d1.onLine m (fun y => { y with txq := [], txRest := [] })).resendCarrier m

/-- The non-anchor carriers of plane q scheduled to hear a site. -/
def Dev.hearing (d : Dev) (site q : Nat) : List Nat :=
  ((List.range 15).map (fun i => 16 * q + i + 1)).filter (fun m => d.rxSched m && d.rxSite m == some site)

/-- No carrier of a path is in its receive group while one is scheduled, outside a guard (R277, R287). -/
def Dev.pathDown (d : Dev) (site q : Nat) : Bool :=
  (d.hearing site q).any (fun m => !(d.kwOf m).rxGuard) && (d.hearing site q).all (fun m => !(d.kwOf m).rxJoined)

/-- The path that is or was heard has a defect second where none of its carriers is in the group now (R287). -/
def Dev.pathWatch (d : Dev) (q : Nat) (site : Option Nat) : Dev :=
  match site with
  | some x => if d.pathDown x q then d.pmDefect (pathEnt x q) else d
  | none => d

/-- A receive side leaves its group (R283): CARRIER_OUT names its LO colour; SIDE_OUT is raised, and a RETURN of before counts no
more. -/
def Dev.rxLeave (d : Dev) (m : Nat) : Dev :=
  let a := (d.onKw m (fun x => { x with rxJoined := false, rxOut := true })).set R.LINE_CAR_STAT.RX_IN m 0
  let d0 : Dev := { a with returnsTx := a.returnsTx.filter (fun r => r.m != m) }
  let d2 := (d0.pathWatch (carrierEngine m) (d0.rxSite m)).alarm 4 m 0x001 1 0
  match d.rxSite m with
  | some site => d2.send site (.carrierOut
      { site := BitVec.ofNat 5 (d.f R.GLOBAL_LOC.SITE), plane := BitVec.ofNat 3 (carrierEngine m),
        colour := BitVec.ofNat 7 (d.f R.KW_CAR_STATE.LO_COL m), gwId := BitVec.ofNat 32 (d.f R.CAT_SELF.GW_ID) })
  | none => d2

/-- What of the time from 0 to x lies in a stretch of each period: from s, `len` long. -/
def covered (period s len x : Nat) : Nat :=
  let a := s % period
  let r := x % period
  x / period * len + (min r (a + len) - a) + min r (a + len - period)

/-- The listening windows of the anchor of plane p after their guards: the period in which they come again, and for each its site, its start in the
period and its length (R216, R222); a window that another overlaps begins where that one ends. -/
def Dev.heardSpans (d : Dev) (p : Nat) : Nat × List (Nat × Nat × Nat) :=
  let g := 1000 * d.anchorGuard
  if !d.on R.CAT_CTL.ENABLE || d.cat.isEmpty then (1, [])
  else if catTopo d.cat = 1 then
    (20000, match d.peerOf (catP2p d.cat p) with | some x => [(catP2p d.cat p, d.delayOf x + g, 20000 - g)] | none => [])
  else
    let rota := 20000 * (d.sites - 1)
    let ws := d.listenWindows
    (rota, ws.map (fun w =>
      let late := (ws.filter (fun v => v.1 != w.1 || decide (v.2 < w.2))).foldl (fun (a : Nat) v =>
        max a (20000 - (w.1 + rota - v.1) % rota)) 0
      (w.2, w.1 + late + g, 20000 - late - g)))

/-- The frames due from carrier m between two times, in bits at the rate of its MODE: to each site what it hears of it; an anchor hears every site
in its listening windows (R222, R287). -/
def Dev.heardBits (d : Dev) (m t till : Nat) (site : Option Nat) : List (Option Nat × Nat) :=
  let rate := modeGbps (d.f R.KW_CAR_CFG.MODE m)
  if isAnchor m then
    let w := d.heardSpans (carrierEngine m)
    w.2.map (fun e => (some e.1, (covered w.1 e.2.1 e.2.2 till - covered w.1 e.2.1 e.2.2 t) * rate))
  else [(site, (till - t) * rate)]

/-- The frames due from carrier m until `till` are added to its second and to those of the paths it heard (R287). -/
def Dev.pmDue (d : Dev) (m till : Nat) : Dev :=
  match (d.pmOf m).liveAt with
  | none => d
  | some (t, site) =>
    (d.heardBits m t till site).foldl (fun (a : Dev) e =>
      let b := a.onPm m (fun x => { x with due := x.due + e.2 })
      match e.1 with
      | some y => b.onPm (pathEnt y (carrierEngine m)) (fun x => { x with due := x.due + e.2 })
      | none => b) (d.onPm m (fun x => { x with liveAt := some (max t till, site) }))

/-- Every carrier's frames due until now are in (R287). -/
def Dev.pmSettle (d : Dev) : Dev := ((d.pm.map (·.1)).filter (· < 128)).foldl (fun (a : Dev) m => a.pmDue m a.tai) d

/-- What the receive side of carrier m hears while it is scheduled and in no guard: a site, or none that the plan names. -/
def Dev.rxLive (d : Dev) (m : Nat) : Option (Option Nat) :=
  if d.rxSched m && !(d.kwOf m).rxGuard then some (d.rxSite m) else none

/-- For which site the frames of carrier m are due while it is at work; the guards and sites of an anchor are in its listening windows. -/
def Dev.dueSite (d : Dev) (m : Nat) : Option (Option Nat) := if isAnchor m then (if d.rxSched m then some none else none) else d.rxLive m

/-- The receive side of carrier m, and its path, are at work in this second: neither parked, nor off, nor in a guard (R288); frames are due
for that time (R287). -/
def Dev.pmLive (d : Dev) (m : Nat) : Dev :=
  let l := d.rxLive m
  let due := d.dueSite m
  let d1 := if (d.pmOf m).liveAt.map (·.2) == due then d
    else (d.pmDue m d.tai).onPm m (fun x => { x with liveAt := due.map (fun site => (d.tai, site)) })
  let mark := fun (x : PmX) => { x with live := true }
  match l with
  | none => d1
  | some none => d1.onPm m mark
  | some (some site) => (d1.onPm m mark).onPm (pathEnt site (carrierEngine m)) mark

/-- Bring a carrier's membership up to date (R281, R283). A guard of a scheduled retune or wake removes nothing (R231, R277); a
parked side leaves silently (R277). -/
def Dev.regroup (d0 : Dev) (m : Nat) : Dev :=
  let d := d0.pmLive m
  let x := d.kwOf m
  let d1 :=
    if x.txJoined then
      if x.txGuard ∨ d.txCond m then d else d.txLeave m
    else if d.txCond m then (d.onKw m (fun y => { y with txJoined := true })).set R.LINE_CAR_STAT.TX_IN m 1
    else d
  let d2 :=
    if x.rxJoined then
      if x.rxGuard ∨ d1.rxCond m then d1
      else if (d1.sched m).rxPark then
        (d1.onKw m (fun y => { y with rxJoined := false })).set R.LINE_CAR_STAT.RX_IN m 0
      else d1.rxLeave m
    else if d1.rxCond m ∧ x.rxOut = false then
      (d1.onKw m (fun y => { y with rxJoined := true })).set R.LINE_CAR_STAT.RX_IN m 1
    else d1
  d2.pathWatch (carrierEngine m) (d2.rxSite m)

/-- The carrier is out of a group at this end (R229). -/
def Dev.carOut (d : Dev) (m : Nat) : Bool :=
  (d.kwOf m).txOut || (d.kwOf m).rxOut || d.on R.LINE_CAR_STAT.RMT_OUT m

/-! ### Heaters (R251 to R257) -/

/-- Base of heater h of carrier m now: the calibrated setpoint of the present colour for H0 and H1, the calibrated bias for H2 and H3, which no
colour moves; 0 with EN = 0; a parked side of H0 or H1 is raised by the dark offset (R252, R257). -/
def Dev.heaterBaseNow (d : Dev) (m h : Nat) : Int :=
  if !d.carOn m then 0
  else
    let col := match h with | 0 => d.f R.KW_CAR_STATE.TX_COL m | 1 => d.f R.KW_CAR_STATE.LO_COL m | _ => 0
    let park := (h == 0 && (d.sched m).txPark) || (h == 1 && (d.sched m).rxPark)
    Config.heaterBase m h col + (if park then Config.darkOffset m h else 0)

/-- e^(−dt/tau) in 2^-32: whole powers of 1/e, then twelve terms of the series (log entry 10). -/
def decay (dt tau : Nat) : Nat :=
  if tau = 0 ∨ 23 * tau ≤ dt then 0
  else
    let frac := dt % tau * 2 ^ 32 / tau
    let r := (List.range 12).foldl (fun r i => 2 ^ 32 - frac * r / (2 ^ 32 * (12 - i))) (2 ^ 32)
    (List.range (dt / tau)).foldl (fun r _ => r * 1580030169 / 2 ^ 32) r

/-- A first-order lag: the value `dt` after it stood at `x`, on its way to `target`. -/
def lag (x target : Int) (dt tau : Nat) : Int := target + (x - target) * (decay dt tau : Nat) / 2 ^ 32

/-- The base, or the pulse that replaces it (R253). -/
def Heater.core (x : Heater) : Int := match x.pulse with | some p => p | none => x.base

/-- Heater h of carrier m. -/
def Dev.heater (d : Dev) (m h : Nat) : Heater := (d.kwOf m).heaters.getD h Heater.zero

/-- Change one heater. -/
def Dev.onHeater (d : Dev) (m h : Nat) (g : Heater → Heater) : Dev :=
  d.onKw m (fun x => { x with heaters := x.heaters.mapIdx (fun i y => if i = h then g y else y) })

/-- TAU_X of an engine in ns. -/
def Dev.tauX (d : Dev) (e : Nat) : Nat := 100 * d.f R.KW_ENG_XT.TAU_X e
/-- TAU of an engine in ns (R251). -/
def Dev.tauOf (d : Dev) (e : Nat) : Nat := 100 * d.f R.KW_ENG_MODEL.TAU e
/-- THETA of an engine in ns (R251). -/
def Dev.thetaOf (d : Dev) (e : Nat) : Nat := 100 * d.f R.KW_ENG_MODEL.THETA e

/-- The crosstalk term now, in 2^-16 of 0.01 mW: it follows what the neighbours call for by the lag TAU_X (R255). -/
def Dev.xtNow (d : Dev) (m : Nat) (x : Heater) : Int := lag x.xtFrom x.xt (d.since x.xtAt) (d.tauX (carrierEngine m))

/-- Add the crosstalk terms of a change ΔP to the neighbours of carrier m (R255). -/
def Dev.crosstalk (d : Dev) (m h : Nat) (dp : Int) : Dev :=
  if !d.on R.KW_CTL.XT_EN ∨ dp = 0 then d
  else
    let e := carrierEngine m
    let n : Int := ((m % 16 : Nat) : Int)
    let add := fun (a : Dev) (k : Int) (num : Nat) =>
      if 0 ≤ n + k ∧ n + k < 16 then
        let c := 16 * e + (n + k).toNat
        a.onHeater c h (fun y => { y with xt := y.xt - (num : Int) * dp, xtFrom := a.xtNow c y, xtAt := a.now })
      else a
    add (add (add (add d 1 (d.f R.KW_ENG_XT.K1 e)) (-1) (d.f R.KW_ENG_XT.K1 e)) 2 (d.f R.KW_ENG_XT.K2 e)) (-2) (d.f R.KW_ENG_XT.K2 e)

/-- Change the terms of a heater; its neighbours take the crosstalk of what its own terms changed by (R255). -/
def Dev.changeHeater (d : Dev) (m h : Nat) (g : Heater → Heater) : Dev :=
  let own := fun (x : Heater) => x.core + x.loop
  let old := own (d.heater m h)
  let a := d.onHeater m h g
  a.crosstalk m h (own (a.heater m h) - old)

/-- Output of heater h of carrier m with a base and pulse term given, in 0.01 mW, clipped to 0 to 40.00 mW; 0 with EN = 0 (R251, R252,
R257). -/
def Dev.heaterSum (d : Dev) (m h : Nat) (core : Int) : Int :=
  if d.carOn m then max 0 (min 4000 (core + (d.heater m h).loop + d.xtNow m (d.heater m h) / 65536)) else 0

/-- Its output before the budget is applied. -/
def Dev.heaterOut (d : Dev) (m h : Nat) : Int := d.heaterSum m h (d.heater m h).core

/-- The carriers of an engine. -/
def engCarriers (e : Nat) : List Nat := (List.range 16).map (fun i => 16 * e + i)

/-- Sum over the heaters of an engine in 0.01 mW. -/
def demand (e : Nat) (g : Nat → Nat → Int) : Int := ((engCarriers e).map (fun m => ((List.range 4).map (g m)).sum)).sum

/-- A heater of a parked side: H0, H2 of a parked transmit side, H1, H3 of a parked receive side. -/
def Dev.parkedHeater (d : Dev) (m h : Nat) : Bool :=
  if h % 2 = 0 then (d.sched m).txPark else (d.sched m).rxPark

/-- Outputs of an engine under its budget (R256): what running pulses add is scaled by one factor, then heaters of parked sides fall to
0, then all outputs are scaled by one factor; answers each output and whether the budget was exceeded. Pulses that together lower the
demand are left alone. -/
def Dev.budgeted (d : Dev) (e : Nat) : (Nat → Nat → Int) × Bool :=
  let limit : Int := (d.f R.KW_ENG_CFG.BUDGET e : Nat) * 100
  let bare := fun (m h : Nat) => d.heaterSum m h (d.heater m h).base
  let full := demand e d.heaterOut
  let rest := demand e bare
  if full ≤ limit then (d.heaterOut, false)
  else if rest < full ∧ rest ≤ limit then
    ((fun m h => bare m h + (d.heaterOut m h - bare m h) * (limit - rest) / (full - rest)), true)
  else
    let warm := fun (m h : Nat) => if d.parkedHeater m h then (0 : Int) else if rest < full then bare m h else d.heaterOut m h
    let sum := demand e warm
    ((fun m h => if sum ≤ limit then warm m h else warm m h * limit / sum), true)

/-- Effective power at a tick, of a heater whose outputs act one after the other (R251): outputs whose dead time is over are taken
in. -/
def Heater.settle (x : Heater) (now tau : Nat) : Heater :=
  (x.acts.filter (fun a => decide (a.1 ≤ now))).foldl
    (fun (y : Heater) a => { y with eff := lag y.eff (y.drive * 65536) (a.1 - y.effAt) tau, effAt := max y.effAt a.1, drive := a.2 })
    { x with acts := x.acts.filter (fun a => decide (now < a.1)) }

/-- The effective power now, in 2^-16 of 0.01 mW. -/
def Heater.effNow (x : Heater) (now tau : Nat) : Int :=
  let y := x.settle now tau
  lag y.eff (y.drive * 65536) (now - y.effAt) tau

/-- An output that begins to act at tick `at_`, where it differs from the last one. -/
def Heater.act (x : Heater) (now tau at_ : Nat) (out : Int) : Heater :=
  if ((x.acts.getLast?.map (·.2)).getD x.drive) = out then x
  else
    let y := x.settle now tau
    { y with acts := y.acts ++ [(at_, out)] }

/-- The thermal error of a laser, H0 or H1 of carrier m, lies within ±LOCK_RANGE, where the fast current loop corrects it (R251): G times
the effective power less what the present colour requires. -/
def Dev.thermalOk (d : Dev) (m h : Nat) : Bool :=
  let e := carrierEngine m
  let x := d.heater m h
  let off := x.effNow d.now (d.tauOf e) - (x.base + x.loop) * 65536 - d.xtNow m x
  decide ((d.sf R.KW_ENG_MODEL.G e * off).natAbs ≤ d.f R.KW_ENG_MODEL.LOCK_RANGE e * 6553600)

/-- A pulse of carrier m that clips at 0 or 40.00 mW now is counted, once in its run (R253). -/
def Dev.clipMark (d : Dev) (m : Nat) : Dev :=
  (List.range 4).foldl (fun (a : Dev) h =>
    let x := a.heater m h
    let out := x.core + x.loop + a.xtNow m x / 65536
    if a.carOn m && x.pulse.isSome && !x.clipped && (decide (out < 0) || decide (4000 < out)) then
      (a.onHeater m h (fun y => { y with clipped := true })).bump R.KW_CAR_CNT.FF_CLIP m
    else a) d

/-- Rewrite the heater outputs of an engine (KW_CAR_m_HTR, KW_ENG_e_STAT.HTR_SUM) under its budget, from which the effective powers
follow; exceeding it sets BUDGET and raises the alarm (R256). -/
def Dev.heaterWrite (d0 : Dev) (e : Nat) : Dev :=
  let d := (engCarriers e).foldl Dev.clipMark d0
  let b := d.budgeted e
  let d1 := (engCarriers e).foldl (fun (acc : Dev) m =>
    let write := fun (h : Nat) (y : Heater) => y.act d.now (d.tauOf e) (d.now + d.thetaOf e) (b.1 m h)
    let a := acc.onKw m (fun x => { x with heaters := x.heaters.mapIdx write })
    (((a.set R.KW_CAR_HTR.H0 m (b.1 m 0).toNat).set R.KW_CAR_HTR.H1 m (b.1 m 1).toNat).set R.KW_CAR_HTR.H2 m (b.1 m 2).toNat).set
      R.KW_CAR_HTR.H3 m (b.1 m 3).toNat) d
  let d2 := d1.set R.KW_ENG_STAT.HTR_SUM e (demand e b.1 / 100).toNat
  if b.2 then (d2.set R.KW_ERR.BUDGET 0 1).alarm 3 e 0x005 1 0 else d2

/-- The bases of a carrier become what its colours and sides require now, with their crosstalk (R252, R255, R257); a base that a running
pulse replaces changes nothing at the neighbours. -/
def Dev.rebaseTerms (d : Dev) (m : Nat) : Dev :=
  (List.range 4).foldl (fun (acc : Dev) h =>
    let new := acc.heaterBaseNow m h
    acc.changeHeater m h (fun y => { y with base := new })) d

/-- Set the bases of a carrier and rewrite the outputs of its engine. -/
def Dev.rebase (d : Dev) (m : Nat) : Dev := (d.rebaseTerms m).heaterWrite (carrierEngine m)

/-- A carrier with EN = 0 is cold: the terms of its heaters are 0 (R257). -/
def Dev.chill (d : Dev) (m : Nat) : Dev :=
  (List.range 4).foldl (fun (acc : Dev) h =>
    acc.changeHeater m h (fun y => { y with base := 0, integ := 0, loop := 0, pulse := none, frozen := 0 })) d

/-! ### Lighting and darkening -/

/-- A transmitter goes dark. -/
def Dev.darkTx (d : Dev) (m : Nat) : Dev :=
  ((d.dropTx m).onKw m (fun x => { x with txLit := false, wakeSend := false })).set R.KW_CAR_STATE.TX_LOCK m 0

/-- A transmitter starts toward its colour: blanked until fine lock (R231, R263). -/
def Dev.startTx (d : Dev) (m : Nat) : Dev :=
  if d.txMay m then
    (((d.dropTx m).onKw m (fun x => { x with txLit := false })).set R.KW_CAR_STATE.TX_LOCK m 0).set R.KW_CAR_STATE.TX_COL m
      ((d.wantTx m).getD 0)
  else d.darkTx m

/-- The local oscillator of carrier m is on a colour; where that changes the source heard the current bins are SUSPECT (R289). -/
def Dev.loMoves (d : Dev) (m k : Nat) : Dev :=
  let a := d.set R.KW_CAR_STATE.LO_COL m k
  if a.loSource a.cat m = d.loSource d.cat m then a else a.onPm m (fun x => { x with dirty := true })

/-- A local oscillator starts toward its colour; the receiver has lost its source until it relocks (R231). -/
def Dev.startLo (d : Dev) (m : Nat) : Dev :=
  let d1 := (d.onKw m (fun x => { x with loFine := false, cold := false })).set R.KW_CAR_STATE.RX_LOCK m 0
  if d.rxMay m then d1.loMoves m (((d.sched m).lo).getD 0) else d1

/-- The accepted TTI is discarded (R279). -/
def Dev.ttiDrop (d : Dev) (m : Nat) : Dev :=
  let d1 := (List.range 8).foldl (fun (acc : Dev) i => acc.set R.LINE_CAR_TTI.TTI (8 * m + i) 0) d
  let d2 := d1.onLine m (fun x => { x with ttiBuf := [], ttiLast := [], ttiRun := 0 })
  (d2.set R.LINE_CAR_STAT.TIM m 0).set R.LINE_CAR_STAT.TTI_OK m 0

/-- Every carrier of an engine has its memberships brought up to date. -/
def Dev.regroupEngine (d : Dev) (e : Nat) : Dev := (engCarriers e).foldl (fun (acc : Dev) m => acc.regroup m) d

/-- The transmitters of an engine go dark; those that leave their groups so are out until they return (R229, R283). -/
def Dev.darkEngine (d : Dev) (e : Nat) : Dev :=
  ((engCarriers e).foldl (fun (acc : Dev) m => (acc.darkTx m).onKw m (fun x => { x with txOut := x.txOut || x.txJoined })) d).regroupEngine e

/-- A parked side has no defects (R277). -/
def Dev.noDefects (d : Dev) (m : Nat) : Dev :=
  ((d.set R.LINE_CAR_STAT.LOS m 0).set R.LINE_CAR_STAT.LOF m 0).set R.LINE_CAR_STAT.TIM m 0

/-- Entry to OOF (R275): dLOF, the count, the accepted TTI discarded (R279); inside a guard, and on a carrier that is off, nothing is set or
counted (R277, R288). -/
def Dev.enterOof (d : Dev) (m : Nat) : Dev :=
  let g := (d.kwOf m).rxGuard || !d.carOn m
  let d1 := (d.set R.LINE_CAR_STAT.ALIGN m 0).onLine m (fun x =>
    { x with misses := 0, sawFas := false, rxMfas := none, rxBip := none, rxBad := false, segBuf := [], segSync := false, ctlBuf := [] })
  let d2 := if g then d1 else ((d1.set R.LINE_CAR_STAT.LOF m 1).bump R.LINE_CAR_CNT.OOF m).pmDefect m
  d2.ttiDrop m

/-- The loss of a plane: every carrier of the engine leaves its groups (R243); a side that is parked, off or in a guard takes no defect (R277,
R288). -/
def Dev.planeLost (d : Dev) (e : Nat) : Dev :=
  let d0 := d.recoverStart (fun _ g => carrierEngine g.carrier == e && (d.kwOf g.carrier).txJoined) []
  let d1 := (engCarriers e).foldl (fun (acc : Dev) m =>
    let a := if (acc.rxLive m).isSome then acc.losSet m else acc
    let a1 := if (a.kwOf m).txJoined then (a.onKw m (fun x => { x with txOut := true })).txLeave m else a
    if (a1.kwOf m).rxJoined then a1.rxLeave m else a1) d0
  d1.alarm 3 e 0x003 1 0

/-! ### Feed-forward pulses (R253, R254, R258) -/

/-- A running pulse has frozen the loop's integrator until tick t, as far as its last update at `last` does not lie later (R253). -/
def Heater.froze (x : Heater) (t last : Nat) : Nat :=
  x.frozen + (if x.pulse.isSome then min t x.pulseEnd - max x.pulseAt last else 0)

/-- The pulse, if one runs, is over at tick t. -/
def Heater.pulseOver (x : Heater) (t last : Nat) : Heater := { x with frozen := x.froze t last, pulse := none }

/-- A pulse runs on heater h of carrier m from tick `start` to tick `ends`: base and pulse terms become p; one that runs already is replaced;
one that clips the output, now or later, is counted (R253). -/
def Dev.pulseStart (d : Dev) (m h : Nat) (p : Int) (start ends : Nat) : Dev :=
  let last := (d.kwOf m).piAt
  let d1 := d.changeHeater m h (fun y => { y.pulseOver start last with pulse := some p, pulseAt := start, pulseEnd := ends, clipped := false })
  d1.heaterWrite (carrierEngine m)

/-- The pulse of the gateway's own feed-forward for a change ΔP of a base: ΔP / (1 − 1/e), rounded to hundredths of a milliwatt (R254,
R258). -/
def ownStep (dp : Int) : Int := (2 * dp * 1581977 + 1000000) / 2000000

/-- The lead L = THETA + 0.3·TAU of a feed-forward pulse in ns (R254). -/
def Dev.ffLead (d : Dev) (e : Nat) : Nat := d.thetaOf e + 3 * d.tauOf e / 10

/-- What happened at an earlier tick is entered now: the times it writes are those of that tick. -/
def Dev.backTo (d : Dev) (t : Nat) (g : Dev → Dev) : Dev := { g { d with now := t } with now := d.now }

/-- The gateway's own pulse on the transmit laser of the anchor of engine e for the visit of number v, which begins at tick T: with another
colour the base changes by ΔP at T, and the pulse runs for TAU from T − L (R254, R258). -/
def Dev.ownPulse (d : Dev) (e v T : Nat) : Dev :=
  let m := 16 * e
  let new := ((d.anchorSiteAt e v).bind (catAnchorTx d.cat e)).getD 0
  let d1 := d.onKw m (fun x => { x with leadFor := some v })
  if !d.on R.KW_CTL.FF_EN ∨ d.f R.KW_CAR_STATE.TX_COL m = new ∨ T < d.ffLead e then d1
  else
    let base := d.heaterBaseNow m 0
    let dp := Config.heaterBase m 0 new - Config.heaterBase m 0 (d.f R.KW_CAR_STATE.TX_COL m)
    let start := T - d.ffLead e
    let ends := start + d.tauOf e
    if ends ≤ d.now then d1 else d1.backTo start (fun a => a.pulseStart m 0 (base + ownStep dp) start ends)

/-- The pulse for the next visit of engine e begins once that visit is no more than L ahead (R258); it is entered at the next command that
concerns the engine (log entry 50). -/
def Dev.leadNow (d : Dev) (e : Nat) : Dev :=
  let v := d.tai / 20000 + 1
  let ahead := 20000 - d.tai % 20000
  if d.on R.CAT_CTL.ENABLE && d.carOn (16 * e) && d.faOk e && decide (ahead ≤ d.ffLead e) && (d.kwOf (16 * e)).leadFor != some v then
    d.ownPulse e v (d.now + ahead)
  else d

/-! ### The listening windows of an anchor (R222, R277) -/

/-- The anchor receiver turns to the listening window that has begun since its last command: its guard runs from the window's start, and
with another colour it loses its source, and its bins are SUSPECT (R216, R222, R259, R277, R289; log entry 105). -/
def Dev.listen (d : Dev) (m : Nat) : Dev :=
  if !(isAnchor m && d.on R.CAT_CTL.ENABLE && d.carOn m) then d
  else
    match d.listenNow (carrierEngine m) with
    | none => d
    | some (site, start) =>
      if (d.kwOf m).window == some start then d
      else
        let ends := d.now + 1000 * d.anchorGuard - (d.tai - start)
        let a := d.onKw m (fun x => { x with window := some start, rxGuard := true, rxGuardEnd := ends })
        let lo := (catAnchorRx d.cat (carrierEngine m) site).getD 0
        if d.f R.KW_CAR_STATE.LO_COL m = lo then a
        else
          let b := ((a.loMoves m lo).set R.KW_CAR_STATE.RX_LOCK m 0).onKw m (fun x => { x with loFine := false, cold := false })
          (b.enterOof m).rebase m

/-! ### Commands -/

/-- FINE_LOCK (R248, R281, R284): a laser whose thermal error lies within ±LOCK_RANGE reaches fine lock. A transmitter then sends frames
on its new colour, with MFAS 0 in the first (R263); the lock of a scheduled retune or wake that comes after its guard is late. -/
def execFineLock (m : Fin 128) (lo : Bool) (s : State) : Res :=
  .next (s.onDev (fun d0 =>
    let d := (d0.leadNow (carrierEngine m)).listen m
    if lo then
      if d.rxMay m ∧ d.thermalOk m 1 then d.onKw m (fun x => { x with loFine := true }) else d
    else if d.txMay m ∧ !d.on R.KW_CAR_STATE.TX_LOCK m ∧ d.thermalOk m 0 then
      let late := (d.kwOf m).lockDue && decide ((d.kwOf m).txGuardEnd < d.now) && !isAnchor m
      let d1 := (d.onKw m (fun x => { x with txLit := true, lockDue := false })).set R.KW_CAR_STATE.TX_LOCK m 1
      let d2 := d1.onLine m (fun l => { l with txMfas := 0, txRest := [], ctlRest := [], fecBits := [], symBits := [] })
      (if late then d2.bump R.KW_CAR_CNT.LATE_LOCK m else d2).regroup m
    else d))

/-- The path state entry of a carrier and colour (Table 9.5). -/
def Dev.path (d : Dev) (m k : Nat) : PathEnt := tabGet (fun _ => PathEnt.empty) d.paths (128 * m + k)

/-- AGE in ms (31 bits, saturating). -/
def Dev.pathAge (d : Dev) (p : PathEnt) : Nat := min (d.since p.written / 1000000) (2 ^ 31 - 1)

/-- The receiver may relock from the entry of its LO colour (R249). -/
def Dev.pathUsable (d : Dev) (m : Nat) : Bool :=
  let p := d.path m (d.f R.KW_CAR_STATE.LO_COL m)
  p.valid && d.pathAge p ≤ 1000 * d.f R.KW_CTL.PATH_AGE

/-- Word w of a path state entry (Table 9.5). -/
def Dev.pathWord (d : Dev) (m k w : Nat) : Nat :=
  let p := d.path m k
  match w with
  | 0 => b2n p.valid + 2 * d.pathAge p + 2 ^ 32 * p.cd
  | 1 => p.fofs + 2 ^ 16 * p.dgd
  | 2 => p.seed0
  | _ => p.seed1

/-- The receiver is locked: dLOS clears (R276), and alignment begins in OOF (R275). -/
def Dev.rxLocked (d : Dev) (m : Nat) : Dev :=
  let d1 := (d.onKw m (fun x => { x with cold := false, needCold := false })).set R.KW_CAR_STATE.RX_LOCK m 1
  ((d1.set R.LINE_CAR_STAT.LOS m 0).enterOof m).regroup m

/-- RECEIVER_RELOCK (R249, R257, R275, R279): a receiver whose LO is locked tries its stored entry; without a usable one, when it
fails, or on a carrier that was cold, a cold acquisition starts. -/
def execReceiverRelock (m : Fin 128) (ok : Bool) (s : State) : Res :=
  .next (s.onDev (fun d0 =>
    let d := d0.listen m
    if d.rxMay m ∧ (d.kwOf m).loFine then
      if d.pathUsable m ∧ ok ∧ (d.kwOf m).needCold = false then d.rxLocked m
      else d.onKw m (fun x => { x with cold := true })
    else d))

/-- COLD_ACQUISITION (R249): that of a receive side that may work ends and COLD increments; one that ends after the guard is a loss of lock. -/
def execColdAcquisition (m : Fin 128) (s : State) : Res :=
  .next (s.onDev (fun d0 =>
    let d := d0.listen m
    if (d.kwOf m).cold && d.rxMay m then
      let d1 := d.bump R.KW_CAR_CNT.COLD m
      if !(d.kwOf m).rxGuard ∧ (d.kwOf m).rxJoined then
        ((d1.losSet m).regroup m).rxLocked m
      else d1.rxLocked m
    else d))

/-- The receiver of carrier m loses lock (R276, R277, R283): dLOS is set and the side leaves its group, except inside a guard, on a
parked side, or on an anchor, whose loss removes nothing. A RETURN of a side that was out counts no more. -/
def Dev.rxLockLost (d : Dev) (m : Nat) : Dev :=
  if d.rxMay m then
    let d1 := d.set R.KW_CAR_STATE.RX_LOCK m 0
    if (d.kwOf m).rxGuard then d1
    else ({ d1.losSet m with returnsTx := d.returnsTx.filter (fun r => r.m != m) } : Dev).regroup m
  else d

/-- RECEIVER_LOCK_LOSS. -/
def execReceiverLockLoss (m : Fin 128) (s : State) : Res := .next (s.onDev (fun d => (d.listen m).rxLockLost m))

/-- The transmitter of carrier m loses fine lock (R263, R283): the side leaves its transmit group at its own end. -/
def Dev.txLockLost (d : Dev) (m : Nat) : Dev :=
  if d.on R.KW_CAR_STATE.TX_LOCK m then
    let d1 := (d.onKw m (fun x => { x with txLit := false })).set R.KW_CAR_STATE.TX_LOCK m 0
    if (d.kwOf m).txJoined then
      ((d1.onKw m (fun x => { x with txOut := true })).txLeave m).alarm 4 m 0x001 1 1
    else d1
  else d

/-- TRANSMITTER_LOCK_LOSS. -/
def execTransmitterLockLoss (m : Fin 128) (s : State) : Res := .next (s.onDev (fun d => d.txLockLost m))

/-- HEATER_PULSE_END (R253): HOLD is over; the output returns to the base then in force and the loop resumes. -/
def execHeaterPulseEnd (m : Fin 128) (h : Fin 4) (s : State) : Res :=
  .next (s.onDev (fun d0 =>
    let d := (d0.leadNow (carrierEngine m)).clipMark m
    let x := d.heater m h
    if x.pulse.isSome && decide (x.pulseEnd ≤ d.now) then
      let base := d.heaterBaseNow m h
      (d.changeHeater m h (fun y => { y.pulseOver d.now (d.kwOf m).piAt with base := base })).heaterWrite (carrierEngine m)
    else d))

/-- Defects that stand when a receiver's guard ends are set then (R276, R277): dLOS without lock, dLOF in OOF; a scheduled side that has lost its
power has no light. -/
def Dev.guardOver (d : Dev) (m : Nat) : Dev :=
  if !d.rxMay m then (if d.rxSched m then d.losSet m else d)
  else
    let a := if d.on R.KW_CAR_STATE.RX_LOCK m then d else d.losSet m
    if a.on R.LINE_CAR_STAT.ALIGN m then a else (a.set R.LINE_CAR_STAT.LOF m 1).pmDefect m

/-- GUARD_END (R231, R235, R248, R277): a guard whose end has come is over; segments may start, frames no longer carry WAKE = 1. -/
def execGuardEnd (m : Fin 128) (s : State) : Res :=
  .next (s.onDev (fun d =>
    let x := d.kwOf m
    let tx := x.txGuard && decide (x.txGuardEnd ≤ d.now)
    let rx := x.rxGuard && decide (x.rxGuardEnd ≤ d.now)
    let d1 := d.setKw m { x with txGuard := x.txGuard && !tx, rxGuard := x.rxGuard && !rx, wakeSend := x.wakeSend && (isAnchor m || !tx) }
    (if rx then d1.guardOver m else d1).regroup m))

/-- CONNECTOR_CHANGE (R243): an absent connector darkens the transmitters of its four engines. -/
def execConnectorChange (f : Fin 2) (present : Bool) (s : State) : Res :=
  .next (s.onDev (fun d =>
    let mask := d.f R.KW_FA.PRESENT
    let now := if present then mask ||| 2 ^ f.val else mask &&& (3 - 2 ^ f.val)
    let d1 := { d.set R.KW_FA.PRESENT 0 now with faSettled := d.faSettled.set f.val false }
    if present then d1 else (List.range 4).foldl (fun (acc : Dev) i => acc.darkEngine (4 * f.val + i)) d1))

/-- CONNECTOR_SETTLE (R243, R252): present for 100 ms; the transmitters relight under their scheduled state. -/
def execConnectorSettle (f : Fin 2) (s : State) : Res :=
  .next (s.onDev (fun d =>
    if (d.f R.KW_FA.PRESENT).testBit f.val then
      let d1 := { d with faSettled := d.faSettled.set f.val true }
      (List.range 4).foldl (fun (acc : Dev) i =>
        let e := 4 * f.val + i
        ((engCarriers e).foldl (fun (a : Dev) m => (a.startTx m).rebaseTerms m) acc).heaterWrite e) d1
    else d))

/-- FIBRE_LOS (R243): total receive power has been below LOS_THR for 10 µs; the plane is lost. -/
def execFibreLos (e : Fin 8) (rxTotal : BitVec 16) (s : State) : Res :=
  .next (s.onDev (fun d =>
    if d.wingPresent (e.val / 2) then
      let d1 := d.set R.KW_ENG_STAT.RX_TOTAL e rxTotal.toNat
      if rxTotal.toInt < d.sf R.KW_ENG_CFG.LOS_THR e then
        (d1.set R.KW_FA.FIBRE_LOS 0 (d.f R.KW_FA.FIBRE_LOS ||| 2 ^ e.val)).planeLost e
      else d1.set R.KW_FA.FIBRE_LOS 0 (d.f R.KW_FA.FIBRE_LOS &&& (255 - 2 ^ e.val))
    else d))

/-- PIC_TEMP_DEVIATION (R250): beyond ±2.00 °C for 10 ms TEMP is set and the alarm raised; beyond ±5.00 °C the engine's
transmitters go dark and the plane is lost. -/
def execPicTempDeviation (e : Fin 8) (temp : BitVec 16) (s : State) : Res :=
  .next (s.onDev (fun d =>
    if d.wingPresent (e.val / 2) then
      let d1 := d.set R.KW_ENG_STAT.TEMP e temp.toNat
      let dev := (temp.toNat : Int) - (d.f R.KW_ENG_CFG.T_SET e : Nat)
      if 500 < dev.natAbs then
        let d2 := (d1.set R.KW_ERR.TEMP 0 1).alarm 3 e 0x004 1 0
        ({ d2 with engDark := d2.engDark ++ [e.val] }.planeLost e).darkEngine e
      else if 200 < dev.natAbs then (d1.set R.KW_ERR.TEMP 0 1).alarm 3 e 0x004 1 0
      else { d1 with engDark := d1.engDark.filter (fun k => k != e.val) }
    else d))

/-- PATH_REPORT_RECEIVE (R260, R261): kept in KW_PEER_p; a wrong GW_ID is discarded and counted. -/
def execPathReportReceive (r : PathReport) (tagOk : Bool) (s : State) : Res :=
  .next (s.onDev (fun d =>
    if tagOk then
      if d.identOk r.site.toNat r.gwId.toNat then
        match d.peerOf r.site.toNat with
        | some p =>
          let a := (d.contact p).set R.KW_PEER.PEER_CD p r.cd.toNat
          if a.cdReports.contains p then a else { a with cdReports := a.cdReports ++ [p] }
        | none => d
      else d.identBad
    else d))

/-- PATH_CLEAR (R249): VALID clears in every entry of a carrier; the rest of an entry stays. -/
def Dev.pathClear (d : Dev) (p : Nat → Bool) : Dev :=
  let clear := fun (l : List (Nat × PathEnt)) (k : Nat) =>
    if p (k / 128) then tabPut (fun _ => PathEnt.empty) k { tabGet (fun _ => PathEnt.empty) l k with valid := false } l else l
  { d with paths := (d.paths.map (·.1)).foldl clear d.paths }

/-- PATH_CLEAR: KW_PATH_CLR.GO for one carrier. -/
def execPathClear (m : Fin 128) (s : State) : Res :=
  .next (if s.dev.ready then s.onDev (fun d => d.pathClear (fun c => c == m.val)) else s)

/-- PATH_CLEAR_ALL: KW_PATH_CLR.GO with ALL. -/
def execPathClearAll (s : State) : Res :=
  .next (if s.dev.ready then s.onDev (fun d => d.pathClear (fun _ => true)) else s)

/-- KW_CAR_m_CFG.IDLE: EN = 0 and the carrier dark. -/
def Dev.carIdle (d : Dev) (m : Nat) : Bool := !d.on R.KW_CAR_CFG.EN m && !(d.kwOf m).txLit

/-- KW_ENG_e_CFG.IDLE: EN = 0 and every carrier IDLE. -/
def Dev.engIdle (d : Dev) (e : Nat) : Bool := !d.on R.KW_ENG_CFG.EN e && (engCarriers e).all d.carIdle

/-- TX_PWR is clipped to −600 to +400 (Table 9.8). -/
def Dev.clipPwr (d : Dev) (m : Nat) : Dev :=
  d.set R.KW_CAR_CFG.TX_PWR m (unsigned 16 (max (-600) (min 400 (signed 16 (d.f R.KW_CAR_CFG.TX_PWR m)))))

/-- A write of KW_CAR_m_CFG (R262): a refused enable leaves EN at 0 with MISMATCH, a refused disable of an anchor leaves it at 1 with
BUSY. A carrier switched on lights under its scheduled state; one switched off goes dark and cold (R257). -/
def Dev.carCfgWrite (d : Dev) (m : Nat) (l : Lanes) (w : Word) : Dev :=
  if !d.wingPresent (carrierWing m) then d
  else if d.blkHeld 4 (carrierEngine m) && !d.on R.KW_CAR_CFG.EN m && wrote l w R.KW_CAR_CFG.EN == 1 then d.set R.KW_ERR.BUSY 0 1
  else
    let was := d.on R.KW_CAR_CFG.EN m
    let anchor := 16 * carrierEngine m
    let d1 := (d.writeReg (R.KW_CAR_CFG.EN.key m) (!was && d.carIdle m) l w R.KW_ERR.BUSY).clipPwr m
    let is := d1.on R.KW_CAR_CFG.EN m
    if !was && is then
      if d1.f R.KW_CAR_CFG.MODE m = 3 ∨ (d1.on R.KW_CAR_CFG.FEC m ∧ d1.f R.KW_CAR_CFG.MODE m ≠ 0) ∨
          (m ≠ anchor ∧ !d1.on R.KW_CAR_CFG.EN anchor) then
        (d1.set R.KW_CAR_CFG.EN m 0).set R.KW_ERR.MISMATCH 0 1
      else ((((d1.onKw m (fun x => { x with needCold := true, piAt := d1.now })).startTx m).startLo m).rebase m).regroup m
    else if was && !is then
      if m = anchor ∧ (engCarriers (carrierEngine m)).any (fun c => c != m && d1.on R.KW_CAR_CFG.EN c) then
        (d1.set R.KW_CAR_CFG.EN m 1).set R.KW_ERR.BUSY 0 1
      else
        let d2 := ((d1.darkTx m).set R.KW_CAR_STATE.RX_LOCK m 0).onKw m (fun x => { x with loFine := false, cold := false })
        ((d2.regroup m).chill m).heaterWrite (carrierEngine m)
    else d1

/-- CARRIER_CFG_WRITE. -/
def execCarrierCfgWrite (m : Fin 128) (l : Lanes) (d : Word) (s : State) : Res :=
  .next (if s.dev.ready then s.onDev (fun x => x.carCfgWrite m l d) else s)

/-- The path state entry of the current LO colour is rewritten (R249, R259). -/
def Dev.pathWrite (d : Dev) (m : Nat) (v : Monitors) : Dev :=
  let e : PathEnt := { valid := true, written := d.now, cd := v.cd.toNat, fofs := v.fofs.toNat, dgd := v.dgd.toNat,
                       seed0 := v.seed0.toNat, seed1 := v.seed1.toNat }
  { d with paths := tabPut (fun _ => PathEnt.empty) (128 * m + d.f R.KW_CAR_STATE.LO_COL m) e d.paths }

/-- The monitors of the transmit side are rewritten. -/
def Dev.txMonitors (d : Dev) (m : Nat) (v : Monitors) : Dev :=
  ((d.set R.KW_CAR_OPT.TX_POW m v.txPow.toNat).set R.KW_CAR_OPT.FERR m v.ferr.toNat).set R.KW_CAR_QUAL.BIAS_TX m v.biasTx.toNat

/-- The monitors of the receive side are rewritten. -/
def Dev.rxMonitors (d : Dev) (m : Nat) (v : Monitors) : Dev :=
  let d1 := ((d.set R.KW_CAR_OPT.RX_POW m v.rxPow.toNat).set R.KW_CAR_OPT.LO_POW m v.loPow.toNat).set R.KW_CAR_PATH.CD m v.cd.toNat
  ((((d1.set R.KW_CAR_PATH.DGD m v.dgd.toNat).set R.KW_CAR_QUAL.OSNR m v.osnr.toNat).set R.KW_CAR_QUAL.QMARG m v.qmarg.toNat).set
    R.KW_CAR_QUAL.BIAS_LO m v.biasLo.toNat)

/-- Updates of a heater's PI loop over the interval from tick `last` to tick `now` with one error (R252): gains in 2^-16 mW per MHz; the
integrator is frozen for the time in which a pulse ran (R253). -/
def Heater.pi (x : Heater) (kp ki last now : Nat) (err : Int) : Heater :=
  let n := (now - last - x.froze now last) / 1000
  let integ := x.integ + ((n * ki : Nat) : Int) * err
  { x with integ := integ, loop := (100 * ((kp : Int) * err + integ)) / 65536, frozen := 0 }

/-- The heater loops of a carrier take their errors, for every whole µs since the last ones (log entry 51). -/
def Dev.heaterLoops (d : Dev) (m : Nat) (errs : List Int) : Dev :=
  if !d.carOn m then d
  else
    let last := (d.kwOf m).piAt
    let d1 := (List.range 4).foldl (fun (acc : Dev) h =>
      acc.changeHeater m h (fun x => x.pi (d.f R.KW_CTL.KP) (d.f R.KW_CTL.KI) last d.now (errs.getD h 0))) (d.onKw m (fun x => { x with piAt := d.now }))
    d1.heaterWrite (carrierEngine m)

/-- A laser of carrier m whose thermal error has left ±LOCK_RANGE loses lock (R251, R256). -/
def Dev.thermalLoss (d : Dev) (m : Nat) : Dev :=
  let d1 := if d.thermalOk m 0 then d else d.txLockLost m
  if d1.thermalOk m 1 || !d1.on R.KW_CAR_STATE.RX_LOCK m then d1 else d1.rxLockLost m

end Sys2Proof.Machine
end

