-- ==== Sys2Proof/Machine/Framer.lean ====
section
/-! DEFINITION. The line frame: overhead, scrambling, justification, packing of segments and of control bytes, FEC and symbols
(R245, R246, R263 to R286). -/

namespace Sys2Proof.Machine

open Sys2Proof

/-! ### The frame as bytes -/

/-- The frame alignment pattern. -/
def fasPattern : BitVec 48 := 0xD4D4D41B1B1B

/-- Overhead bytes 0 to 63 (Table 10.2). -/
def overhead (f : Frame) : List Byte :=
  beBytes 6 f.fas.toNat ++ beBytes 1 f.mfas.toNat ++ [f.tti, f.bip] ++ beBytes 1 (f.bei.toNat * 16 + b2n f.bdi * 8) ++
  beBytes 1 (b2n f.som * 128 + b2n f.cont * 64) ++ beBytes 1 f.jc1.toNat ++ beBytes 1 f.jc2.toNat ++ beBytes 1 f.jc3.toNat ++
  slice f.njo 0 8 ++ beBytes 2 (b2n f.race * 2 ^ 15 + f.ptr.toNat) ++ slice f.time 0 16 ++ slice f.rcc 0 8 ++
  beBytes 1 (b2n f.anchor * 128 + b2n f.wake * 64) ++ beBytes 1 f.colour.toNat ++ beBytes 1 (f.plane.toNat * 32 + f.site.toNat) ++
  beBytes 1 f.index.toNat ++ beBytes 1 f.rail.toNat ++ zeros 11

/-- Bytes 64 to 16,383. -/
def framePayload (f : Frame) : List Byte := slice f.pjo 0 8 ++ slice f.data 0 16312

/-- All 16,384 bytes before scrambling. -/
def frameBytes (f : Frame) : List Byte := overhead f ++ framePayload f

/-- BIP-8: the even parity of each bit over a list of bytes (R265). -/
def bip8 (l : List Byte) : Byte := l.foldl (· ^^^ ·) 0

/-- Eight steps of the scrambler x^16 + x^12 + x^3 + x + 1 (R266): the byte of its sequence, first bit most significant, and the
register after it. -/
def scramblerByte (s : Nat) : Nat × Nat :=
  (List.range 8).foldl (fun (p : Nat × Nat) _ =>
    let out := p.2 / 2 ^ 15 % 2
    let fb := (p.2 / 2 ^ 15 + p.2 / 2 ^ 11 + p.2 / 2 ^ 2 + p.2) % 2
    (p.1 * 2 + out, p.2 * 2 % 2 ^ 16 + fb)) (0, s)

/-- Bytes combined with the scrambler's sequence from a register state (R266). -/
def scrambleFrom : Nat → List Byte → List Byte
  | _, [] => []
  | s, b :: t => (b ^^^ BitVec.ofNat 8 (scramblerByte s).1) :: scrambleFrom (scramblerByte s).2 t

/-- A frame as it enters the FEC encoder: FAS is never scrambled, and the register is all ones at the first bit of byte 6. -/
def scramble (l : List Byte) : List Byte := l.take 6 ++ scrambleFrom 0xFFFF (l.drop 6)

/-- Data bytes of a frame under a justification code, in their order (R267, Table 10.3). -/
def dataBytes (jc : Nat) (f : Frame) : List Byte :=
  match jc with
  | 1 => slice f.data 0 16312
  | 3 => slice f.njo 0 8 ++ framePayload f
  | _ => framePayload f

/-- The justification code from the fill against its centre (R268). -/
def justification (fill : Int) : Nat := if 8 ≤ fill then 3 else if fill ≤ -8 then 1 else 0

/-- Data bytes of a frame by code. -/
def jcBytes (jc : Nat) : Nat :=
  match jc with
  | 1 => 16312
  | 3 => 16328
  | _ => 16320

/-! ### FEC encoding (R284, R285) -/

/-- The bits of bytes in the order they are sent. -/
def frameBits (l : List Byte) : List Bool := l.flatMap (fun b => (List.range 8).map (fun i => b.getLsbD (7 - i)))

/-- The number that a list of bits spells, first bit most significant. -/
def ofBits (l : List Bool) : Nat := l.foldl (fun a b => 2 * a + b2n b) 0

/-- `n` bits of a number, most significant first. -/
def toBits (n v : Nat) : List Bool := (List.range n).map (fun i => v.testBit (n - 1 - i))

/-- Product in GF(2^10) under x^10 + x^3 + 1. -/
def gfMul (a b : Nat) : Nat :=
  ((List.range 10).foldl (fun (p : Nat × Nat) i =>
    (if b.testBit i then p.1 ^^^ p.2 else p.1, let t := p.2 * 2; if t.testBit 10 then t ^^^ 0x409 else t)) (0, a)).1

/-- Coefficients of the KF-L generator, the product of (x − α^i) for i = 0 to 29, highest power first. -/
def klGenerator : List Nat :=
  ((List.range 30).foldl (fun (p : List Nat × Nat) _ =>
    (List.zipWith (· ^^^ ·) (p.1 ++ [0]) (0 :: p.1.map (gfMul p.2)), gfMul p.2 2)) ([1], 1)).1

/-- The 30 parity symbols of 514 data symbols (systematic RS(544,514)). -/
def klParity (g : List Nat) (data : List Nat) : List Nat :=
  data.foldl (fun (reg : List Nat) s =>
    let fb := s ^^^ reg.headD 0
    List.zipWith (fun r c => r ^^^ gfMul fb c) (reg.drop 1 ++ [0]) (g.drop 1)) (List.replicate 30 0)

/-- Entry INDEX of the KF-S parity-check matrix as LINE_KFS_DATA returns it: a shift of 0 to 15, or 0xFF for a zero circulant (R285). -/
def kfsEntry (i : Nat) : Byte := let s := Config.kfsShift i; if s.toNat < 16 then s else 0xFF

/-- Row 16·r + i of H as a number whose bit x is the entry at column x: row i of a circulant of shift s has its one at column
(i + s) mod 16 (log entry 6). -/
def kfsRow (r i : Nat) : Nat :=
  (List.range 1153).foldl (fun a c =>
    let s := (kfsEntry (1153 * r + c)).toNat
    if s < 16 then a + 2 ^ (16 * c + (i + s) % 16) else a) 0

/-- The parity of the bits that two numbers share. -/
def dotBit : Nat → Nat → Nat → Nat
  | 0, _, _ => 0
  | n + 1, a, b => (b2n (a.testBit n && b.testBit n) + dotBit n a b) % 2

/-- One column of Gaussian elimination: the pivots found so far, each with its column, and the rows left. -/
def kfsPivot (p : List (Nat × Nat) × List Nat) (j : Nat) : List (Nat × Nat) × List Nat :=
  match p.2.find? (·.testBit j) with
  | none => p
  | some q =>
    let clear := fun (x : Nat) => if x.testBit j then x ^^^ q else x
    (p.1.map (fun e => (e.1, clear e.2)) ++ [(j, q)], (p.2.erase q).map clear)

/-- The 2,448 parity bits of a KF-S codeword: those that make H·x = 0 (R284, R285). Each row of H gives an equation in the parity bits,
its bit 2,448 the sum of its data bits. -/
def kfsParity (data : List Bool) : List Bool :=
  let x := (List.range 16000).foldl (fun a i => if data.getD i false then a + 2 ^ i else a) 0
  let rows := (List.range 2448).map (fun k =>
    let h := kfsRow (k / 16) (k % 16)
    h / 2 ^ 16000 % 2 ^ 2448 + 2 ^ 2448 * dotBit 16000 h x)
  let piv := ((List.range 2448).foldl kfsPivot ([], rows)).1
  (List.range 2448).map (fun j => match piv.find? (fun e => e.1 == j) with | some e => e.2.testBit 2448 | none => false)

/-- The codeword of k data bits: data, then parity. -/
def fecWord (kfl : Bool) (data : List Bool) : List Bool :=
  data ++ (if kfl then (klParity klGenerator ((chunksOf 10 data).map ofBits)).flatMap (toBits 10) else kfsParity data)

/-- k of the code. -/
def fecK (kfl : Bool) : Nat := if kfl then 5140 else 16000

/-- Bits into codewords: the coded bits of the codewords completed, and the bits left over. -/
def fecFeed (kfl : Bool) (bits : List Bool) : List Bool × List Bool :=
  let n := bits.length / fecK kfl
  (((List.range n).flatMap (fun i => fecWord kfl ((bits.drop (i * fecK kfl)).take (fecK kfl)))), bits.drop (n * fecK kfl))

/-! ### Symbols (R245, R246) -/

/-- One bit of the PRBS x^15 + x^14 + 1. -/
def prbsBit (s : Nat) : Nat × Nat :=
  let b := (s / 2 ^ 14 + s / 2 ^ 13) % 2
  (b, s * 2 % 2 ^ 15 + b)

/-- Level of a group of one or two bits (Table 9.2). -/
def symLevel : List Bool → Int
  | [false] => -1
  | [true] => 1
  | [false, false] => -3
  | [false, true] => -1
  | [true, true] => 1
  | [true, false] => 3
  | _ => 0

/-- Widths of the groups XI, XQ, YI, YQ by MODE. -/
def symWidths (mode : Nat) : List Nat :=
  match mode with
  | 0 => [2, 2, 2, 2]
  | 1 => [2, 1, 2, 1]
  | _ => [1, 1, 1, 1]

/-- A data symbol from its bits. -/
def dataSymbol (mode : Nat) (bits : List Bool) : Int × Int × Int × Int :=
  let w := symWidths mode
  let g := fun i => symLevel ((bits.drop ((w.take i).sum)).take (w.getD i 1))
  (g 0, g 1, g 2, g 3)

/-- A pilot symbol and the generators after it. -/
def pilotSymbol (mode : Nat) (p : Nat × Nat) : (Int × Int × Int × Int) × (Nat × Nat) :=
  let a : Int := if mode = 2 then 1 else 3
  let lv := fun (b : Nat) => if b = 0 then -a else a
  let xi := prbsBit p.1
  let xq := prbsBit xi.2
  let yi := prbsBit p.2
  let yq := prbsBit yi.2
  ((lv xi.1, lv xq.1, lv yi.1, lv yq.1), (xq.2, yq.2))

/-- Symbols that coded bits fill: every symbol at an index that is a multiple of 64 is a pilot. Answers the symbols, the bits left,
the next index and the generators. -/
def mapSymbols (mode : Nat) : Nat → List Bool → Nat → Nat × Nat → List (Int × Int × Int × Int) →
    List (Int × Int × Int × Int) × List Bool × Nat × (Nat × Nat)
  | 0, bits, i, p, acc => (acc.reverse, bits, i, p)
  | fuel + 1, bits, i, p, acc =>
    let w := (symWidths mode).sum
    if bits.length < w then (acc.reverse, bits, i, p)
    else if i % 64 = 0 then
      let q := pilotSymbol mode p
      mapSymbols mode fuel bits (i + 1) q.2 (q.1 :: acc)
    else mapSymbols mode fuel (bits.drop w) (i + 1) p (dataSymbol mode (bits.take w) :: acc)

/-- Symbols of a stretch of coded bits, from an index and generator states on. -/
def symbolsOf (mode : Nat) (bits : List Bool) (i : Nat) (p : Nat × Nat) :
    List (Int × Int × Int × Int) × List Bool × Nat × (Nat × Nat) :=
  mapSymbols mode (bits.length + bits.length / 63 + 2) bits i p []

/-- Connector and fibre on which the engine of plane p transmits (R242). -/
def fibreTx (p : Nat) : Nat × Nat := (p / 4, 2 * (p % 4))

/-- Connector and fibre on which the engine of plane p receives (R242). -/
def fibreRx (p : Nat) : Nat × Nat := (p / 4, 2 * (p % 4) + 1)

/-- A frame enters the encoder of carrier m: coded bits and symbols leave. The symbols that carry what was left of the frame before keep
their index; with the symbol that carries the first bit of a multiframe the index and the pilots restart (R245, R246). -/
def Dev.encode (d : Dev) (m : Nat) (f : Frame) : Dev :=
  let x := d.lineOf m
  let mode := d.f R.KW_CAR_CFG.MODE m
  let w := (symWidths mode).sum
  let fed := fecFeed (d.on R.KW_CAR_CFG.FEC m) (x.fecBits ++ frameBits (scramble (frameBytes f)))
  let bits := x.symBits ++ fed.1
  let old := if f.mfas = 0 then (x.symBits.length + x.fecBits.length) / w * w else 0
  let a := symbolsOf mode (bits.take old) x.symIdx x.prbs
  let b := if f.mfas = 0 then symbolsOf mode (bits.drop old) 0 (0x7FFF, 0x3FFF) else symbolsOf mode bits x.symIdx x.prbs
  let d1 := d.setLine m { x with fecBits := fed.2, symBits := b.2.1, symIdx := b.2.2.1, prbs := b.2.2.2 }
  d1.emit (.symbols (fibreTx (carrierEngine m)) m (a.1 ++ b.1))

/-! ### Packing -/

/-- Segments started in the room left in a frame, from data byte `pos` on: the bytes, the rest of the last one, what stays queued.
A race copy starts only as the first segment of its frame (R272). -/
def packSegs (room : Nat) (first : Bool) : List (Bool × List Byte) → List Byte × List Byte × List (Bool × List Byte)
  | [] => ([], [], [])
  | (race, b) :: t =>
    if room = 0 ∨ (race ∧ !first) then ([], [], (race, b) :: t)
    else if room < b.length then (b.take room, b.drop room, t)
    else
      let r := packSegs (room - b.length) false t
      (b ++ r.1, r.2.1, r.2.2)

/-- The data bytes of the next frame (R270): the rest of the segment under way, then whole segments back to back, then fill. Answers
the bytes, PTR, RACE, the rest and the queue. -/
def packFrame (n : Nat) (guard : Bool) (rest : List Byte) (q : List (Bool × List Byte)) :
    List Byte × Nat × Bool × List Byte × List (Bool × List Byte) :=
  if n ≤ rest.length then (rest.take n, 0x3FFF, false, rest.drop n, q)
  else
    let room := n - rest.length
    let p := if guard then ([], [], q) else packSegs room true q
    let body := rest ++ p.1
    (body ++ zeros (n - body.length), if p.1.isEmpty then 0x3FFF else rest.length,
      !p.1.isEmpty && (q.headD (false, [])).1, p.2.1, p.2.2)

/-- The queued control message that carrier m sends next to a site: CARRIER_OUT, receipts, then the rest in queue order (R273). Plan
messages travel on anchors, a PATH_REPORT and the NOTE behind it on the anchor of its plane (R385); it, and what is queued behind it, wait
for the QUAL frame (R260). -/
def Dev.nextCtl (d : Dev) (m site p : Nat) : Option ((Nat × Ctl)) :=
  let ok := fun (e : Nat × Ctl) => e.1 == site && (!ctlNeedsSeal e.2 || d.ctlOpen p) &&
    (match e.2 with
      | .plan _ _ => isAnchor m
      | .note e _ => m == 16 * e
      | .pathReport r => isAnchor m && r.plane.toNat == carrierEngine m
      | _ => true)
  let c := d.ctlQ.filter ok
  match c.find? (fun e => ctlRank e.2 == 0) with
  | some e => some e
  | none => match c.find? (fun e => ctlRank e.2 == 1) with
    | some e => some e
    | none => c.head?.filter (fun e => match e.2 with | .pathReport _ => (d.lineOf m).timeQ.isEmpty | _ => true)

/-- The site a lit transmitter reaches on its present colour, where it reaches one. -/
def Dev.txReach (d : Dev) (m : Nat) : Option Nat := catReach d.cat (carrierEngine m) (d.f R.KW_CAR_STATE.TX_COL m)

/-! ### The time-transfer field (R204, Table 7.3) -/

/-- Marks exchanged with peer p. -/
def Dev.mark (d : Dev) (p : Nat) : MarkX := tabGet (fun _ => MarkX.zero) d.marks p

/-- Replace them. -/
def Dev.setMark (d : Dev) (p : Nat) (x : MarkX) : Dev := { d with marks := tabPut (fun _ => MarkX.zero) p x d.marks }

/-- The seconds, nanoseconds and fraction of a timebase value (R190). -/
def tbSec (t : Nat) : Nat := t / 65536 / 1000000000
/-- Nanoseconds. -/
def tbNs (t : Nat) : Nat := t / 65536 % 1000000000
/-- Fraction. -/
def tbFrac (t : Nat) : Nat := t % 65536

/-- Domain `i` defines time: a grandmaster on its own timebase (R195). -/
def Dev.domGm (d : Dev) (i : Nat) : Bool :=
  d.on R.TIME_CTL.ENABLE && d.on R.TIME_DOM_CFG.EN i && d.on R.TIME_DOM_CFG.ROLE i && d.f R.TIME_DOM_CFG.SRC_TYPE i == 3

/-- The servo of a domain. -/
def Dev.servoOf (d : Dev) (i : Nat) : ServoX := tabGet (fun _ => ServoX.zero) d.servos i

/-- Replace it. -/
def Dev.setServo (d : Dev) (i : Nat) (x : ServoX) : Dev := { d with servos := tabPut (fun _ => ServoX.zero) i x d.servos }

/-- The servo state that a domain reports (Table 7.2, R195). -/
def Dev.domState (d : Dev) (i : Nat) : Nat := if d.domGm i then 2 else d.f R.TIME_DOM_STAT.STATE i

/-- The time-error estimate TE in ns (R203). -/
def Dev.domTe (d : Dev) (i : Nat) : Nat :=
  if d.domGm i then 0
  else
    match d.f R.TIME_DOM_STAT.STATE i with
    | 2 => d.f R.TIME_DOM_TE.TE i
    | 3 =>
      let x := d.servoOf i
      min 0xFFFFFFFF (x.teEntry + d.f R.TIME_HOLD.HO_RATE * d.since x.hoSince / 1000000000)
    | _ => 0xFFFFFFFF

/-- TRUST (R195, R203). -/
def Dev.domTrust (d : Dev) (i : Nat) : Bool :=
  d.domState i == 2 || (d.domState i == 3 && decide (d.domTe i ≤ d.f R.TIME_HOLD.TE_LIMIT))

/-- Two bytes that open every non-NONE field: TYPE, and the sender's steering domain. -/
def Dev.timeHead (d : Dev) (typ : Nat) : List Byte :=
  let st := d.f R.TIME_CTL.STEER
  beBytes 1 (typ * 16) ++ beBytes 1 (st * 128 + b2n (d.domTrust st) * 64 + d.domState st * 8)

/-- The field of the next frame of carrier m: MARK, ECHO or QUAL of an anchor visit, else NONE. -/
def Dev.timeField (d : Dev) (p typ : Nat) : List Byte :=
  let x := d.mark p
  match typ with
  | 1 => d.timeHead 1 ++ beBytes 2 x.sent ++ beBytes 6 (tbSec d.tb) ++ beBytes 4 (tbNs d.tb) ++ beBytes 2 (tbFrac d.tb)
  | 2 => match x.dIn with
    | some z => d.timeHead 2 ++ beBytes 2 x.seqIn ++ beBytes 8 (unsigned 64 z) ++ zeros 4
    | none => d.timeHead 2 ++ beBytes 2 0xFFFF ++ zeros 12
  | 3 =>
    let st := d.f R.TIME_CTL.STEER
    d.timeHead 3 ++ zeros 2 ++ beBytes 1 (d.f R.TIME_DOM_CFG.DOMAIN 0) ++ beBytes 1 (d.f R.TIME_DOM_CFG.DOMAIN 1) ++
      beBytes 1 (d.f R.TIME_DOM_CFG.CLASS st) ++ beBytes 1 (Config.stepsRemoved d.freeCtr).toNat ++ beBytes 4 (d.domTe st) ++
      zeros 4
  | _ => zeros 16

/-- A MARK has been sent. -/
def Dev.timeSent (d : Dev) (p typ : Nat) : Dev :=
  if typ = 1 then let x := d.mark p; d.setMark p { x with sent := (x.sent + 1) % 65536 }
  else if typ = 3 then d.usedFree
  else d

/-! ### Sending -/

/-- TTI byte i of carrier m (R278). -/
def Dev.ttiByte (d : Dev) (m i : Nat) : Byte :=
  let own := leBytes 8 (d.f R.LINE_SAPI_0.SAPI_0) ++ leBytes 8 (d.f R.LINE_SAPI_1.SAPI_1)
  let dapi := match (d.txReach m).bind d.peerOf with
    | some p => leBytes 8 (d.f R.LINE_PEER_SAPI_0.SAPI_0 p) ++ leBytes 8 (d.f R.LINE_PEER_SAPI_1.SAPI_1 p)
    | none => zeros 16
  (own ++ dapi ++ (List.range 4).flatMap (fun k => leBytes 8 (d.f R.LINE_OPER.OPER k))).getD i 0

/-- BDI toward a site on plane q (R282): a non-anchor carrier scheduled to hear it is out of its receive group. -/
def Dev.bdiNow (d : Dev) (site q : Nat) : Bool := (d.hearing site q).any (fun m => !(d.kwOf m).rxJoined)

/-- The COLL_END that the anchor of engine q owes the site of its visit (R117). -/
def Dev.dueNotice (d : Dev) (m site p : Nat) : Option EndNotice :=
  if isAnchor m && d.ctlOpen p then d.endNotices.find? (fun n => n.due && n.engine == carrierEngine m && n.site == site) else none

/-- A COLL_END has gone out in a visit: it goes out in three. -/
def Dev.noticeSent (d : Dev) (n : EndNotice) : Dev :=
  let l := d.endNotices.map (fun (x : EndNotice) => if x = n then { x with due := false, left := x.left - 1 } else x)
  { d with endNotices := l.filter (fun (x : EndNotice) => x.left != 0) }

/-- A message as it begins to leave: an accession message carries the time of its transmission, which an ACCEDE's context keeps for its
ACCEPT (Table 6.1, R160, R161). -/
def Dev.ctlStamp (d : Dev) : Ctl → Dev × Ctl
  | .accession typ m =>
    let x := d.ctx m.src.toNat
    let d1 := if typ = 9 ∧ x.state = .acceding ∧ x.gen = m.gen.toNat then d.setCtx m.src.toNat { x with tTx := d.tai } else d
    (d1, .accession typ { m with tTx := BitVec.ofNat 64 d.tai })
  | c => (d, c)

/-- A NOTE that carries the site's bit in LOST (R382). -/
def noteNames (site : Nat) : Ctl → Bool
  | .note _ m => m.lost.toNat.testBit site
  | _ => false

/-- The last bytes of the NOTE that carries a lost peer's bit have gone: that peer may return to ALIVE (R382, Table 14.5). -/
def Dev.noteGone (d : Dev) (x : LineX) : Dev :=
  match x.noteFor with
  | some p =>
    if x.ctlRest.isEmpty || decide (8 < x.ctlRest.length) || !(d.peer p).lostBit then d
    else (d.setPeer p { d.peer p with noteSent := true }).lostExit p
  | none => d

/-- Begin the next control message of carrier m when the last one is out: CARRIER_OUT, receipts, then the rest in queue order, an anchor's
COLL_END behind what was queued before its visit (R273). -/
def Dev.loadCtl (d : Dev) (m : Nat) : Dev × Bool :=
  if !(d.lineOf m).ctlRest.isEmpty ∨ (d.kwOf m).txGuard then (d, false)
  else
    match d.txReach m with
    | none => (d, false)
    | some site =>
      match d.peerOf site with
      | none => (d, false)
      | some p =>
        let c := d.nextCtl m site p
        let first := fun (n : EndNotice) => match c with | some e => ctlRank e.2 ≤ 1 || n.ahead.contains e | none => false
        match (d.dueNotice m site p).filter (fun n => !first n), c with
        | some n, _ =>
          let msg := Ctl.service 1 n.msg
          (((d.noticeSent n).emit (.control site msg)).onLine m (fun x => { x with ctlRest := d.ctlWire p msg, noteFor := none }), true)
        | none, none => (d, false)
        | none, some e =>
          let st := ({ d with ctlQ := d.ctlQ.erase e } : Dev).ctlStamp e.2
          (st.1.onLine m (fun x => { x with ctlRest := d.ctlWire p st.2, noteFor := if noteNames site st.2 then some p else none }), true)

/-- The window rule of R230 for a class and a tenant: in Open mode windows are disregarded (R340); in Itinerary mode a PLACED tenant needs
the unrestricted window, a PINNED tenant one pinned to it. -/
def Dev.windowFor (d : Dev) (m cls t : Nat) : Bool :=
  if d.itinMode = 0 then true
  else if d.on R.TENANT.PLACE_MODE t then (d.sched m).mask.testBit cls
  else (d.sched m).pins.any (fun p => p.1 == t && p.2.testBit cls)

/-- A segment queued on carrier m may not start now: its class or tenant is being withdrawn, or the transmitter retunes or parks (R230,
R231). -/
def Dev.segHeld (d : Dev) (m : Nat) (b : List Byte) : Bool :=
  match d.ctxs.find? (fun e => e.2.log.any (fun g => segBytes g.seg == b)) with
  | some e => let t := d.ctxTenant e.2; d.closing m e.2.cls t || !d.windowFor m e.2.cls t
  | none => (d.entriesSoon m).any (fun e => (e.action == 1 && e.arg.testBit 7) || (e.action == 4 && (d.parkLeft m e).arg.testBit 0))

/-- A queue without its first n entries that satisfy a test. -/
def dropWhere {α : Type} (p : α → Bool) : Nat → List α → List α
  | _, [] => []
  | 0, l => l
  | n + 1, x :: t => if p x then dropWhere p n t else x :: dropWhere p (n + 1) t

/-- The next frame of carrier m (R231, R263 to R273, R278, R282). -/
def Dev.sendFrame (d : Dev) (m : Nat) (fill : Int) : Dev :=
  let q := carrierEngine m
  let ld := d.loadCtl m
  let d1 := ld.1
  let x := d1.lineOf m
  let k := d1.kwOf m
  let jc := justification fill
  let may := fun (e : Bool × List Byte) => !d1.segHeld m e.2
  let free := x.txq.filter may
  let pk := packFrame (jcBytes jc) k.txGuard x.txRest free
  let site := d1.txReach m
  let bk := 8 * site.getD 0 + q
  let bei := match site with | some _ => min 15 (countOf d1.beiCnt bk) | none => 0
  let bdi := match site with | some s => d1.bdiNow s q | none => false
  let tf := if isAnchor m && !k.txGuard then x.timeQ.headD (0, 0) else (0, 0)
  let f : Frame :=
    { fas := fasPattern, mfas := BitVec.ofNat 8 x.txMfas, tti := d1.ttiByte m (x.txMfas % 64), bip := x.txBip, bei := BitVec.ofNat 4 bei,
      bdi := bdi, som := ld.2, cont := !x.ctlRest.isEmpty, jc1 := BitVec.ofNat 2 jc, jc2 := BitVec.ofNat 2 jc, jc3 := BitVec.ofNat 2 jc,
      njo := if jc = 3 then pk.1.take 8 else zeros 8, race := pk.2.2.1, ptr := BitVec.ofNat 14 pk.2.1,
      time := d1.timeField tf.1 tf.2, rcc := slice x.ctlRest 0 8, anchor := isAnchor m, wake := k.wakeSend,
      colour := BitVec.ofNat 7 (d1.f R.KW_CAR_STATE.TX_COL m), site := BitVec.ofNat 5 d1.site, plane := BitVec.ofNat 3 q,
      index := BitVec.ofNat 4 m, rail := BitVec.ofNat 6 (d1.f R.GLOBAL_LOC.RAIL),
      pjo := if jc = 1 then zeros 8 else (if jc = 3 then pk.1.drop 8 else pk.1).take 8,
      data := if jc = 1 then pk.1 else (if jc = 3 then pk.1.drop 16 else pk.1.drop 8) }
  let d2 := d1.onLine m (fun y =>
    { y with txMfas := (x.txMfas + 1) % 256, txBip := bip8 (framePayload f), txq := dropWhere may (free.length - pk.2.2.2.2.length) x.txq, txRest := pk.2.2.2.1,
             ctlRest := x.ctlRest.drop 8, timeQ := if tf.2 = 0 then x.timeQ else x.timeQ.drop 1 })
  let d3 := match site with | some _ => { d2 with beiCnt := setCount d2.beiCnt bk 0 } | none => d2
  let d4 := if isAnchor m then d3.onKw m (fun y => { y with wakeSend := false }) else d3
  (((d4.timeSent tf.1 tf.2).noteGone x).emit (.frame m f)).encode m f

/-- FRAME_TRANSMIT: a lit transmitter sends its next frame; `fill` is the fill of the payload FIFO against its centre (R268). -/
def execFrameTransmit (m : Fin 128) (fill : Int) (s : State) : Res :=
  .next (s.onDev (fun d => if (d.kwOf m).txLit then d.sendFrame m fill else d))

/-! ### Receiving -/

/-- K of Table 10.6. -/
def Dev.oofK (d : Dev) (m : Nat) : Nat :=
  match d.f R.KW_CAR_CFG.MODE m with
  | 0 => 4
  | 1 => 3
  | _ => 2

/-- A FAS matches when at most 2 of its 48 bits differ (R275). -/
def fasOk (f : Frame) : Bool := popcount 48 (f.fas ^^^ fasPattern).toNat ≤ 2

/-- Alignment on a frame (Table 10.5): the gateway after it, and whether the frame is in IF. -/
def Dev.align (d : Dev) (m : Nat) (ok : Bool) : Dev × Bool :=
  let x := d.lineOf m
  if d.on R.LINE_CAR_STAT.ALIGN m then
    if ok then (d.onLine m (fun y => { y with misses := 0 }), true)
    else if x.misses + 1 < d.oofK m then (d.onLine m (fun y => { y with misses := x.misses + 1 }), true)
    else (d.enterOof m, false)
  else if ok && x.sawFas then
    (((d.set R.LINE_CAR_STAT.ALIGN m 1).set R.LINE_CAR_STAT.LOF m 0).onLine m (fun y => { y with misses := 0, sawFas := false }), true)
  else (d.onLine m (fun y => { y with sawFas := ok }), false)

/-- The frame names the source that a plan accepted now gives for the LO colour (R219). -/
def Dev.fromSource (d : Dev) (m : Nat) (f : Frame) : Bool := d.plansNow.any (fun c => d.loSource c m == some f.site.toNat)

/-- The plan accepted now that a frame's colour, plane and site match, on this gateway's rail (R219, R266). -/
def Dev.framePlan (d : Dev) (m : Nat) (f : Frame) : Option (List Byte) :=
  if f.rail.toNat == d.f R.GLOBAL_LOC.RAIL && f.colour.toNat == d.f R.KW_CAR_STATE.LO_COL m && f.plane.toNat == carrierEngine m then
    d.plansNow.find? (fun c => d.loSource c m == some f.site.toNat)
  else none

/-- The frame matches a plan accepted now (R219); with CAT_CTL.ENABLE = 0 frames are not compared (Table 8.8). -/
def Dev.frameMatches (d : Dev) (m : Nat) (f : Frame) : Bool := !d.on R.CAT_CTL.ENABLE || (d.framePlan m f).isSome

/-- The peer with which a frame of an anchor outside a guard is contact: the one that its site is in the plan it matches, compared or not
(R381). -/
def Dev.frameContact (d : Dev) (m : Nat) (f : Frame) : Option Nat :=
  if isAnchor m && !(d.kwOf m).rxGuard then (d.framePlan m f).bind (fun c => catPeerOf c f.site.toNat) else none

/-- LINE_CAR_m_RXID from a frame in IF. -/
def Dev.rxId (d : Dev) (m : Nat) (f : Frame) : Dev :=
  ((((d.set R.LINE_CAR_RXID.COLOUR m f.colour.toNat).set R.LINE_CAR_RXID.SITE m f.site.toNat).set R.LINE_CAR_RXID.PLANE m
    f.plane.toNat).set R.LINE_CAR_RXID.INDEX m f.index.toNat).set R.LINE_CAR_RXID.RAIL m f.rail.toNat

/-- The accepted TTI is compared (R279, R280): dTIM. -/
def Dev.ttiCompare (d : Dev) (m : Nat) (t : List Byte) : Dev :=
  if isAnchor m ∨ !d.on R.LINE_CTL.ENABLE then d
  else
    let own := leBytes 8 (d.f R.LINE_SAPI_0.SAPI_0) ++ leBytes 8 (d.f R.LINE_SAPI_1.SAPI_1)
    let badS := match (d.loSource d.cat m).bind d.peerOf with
      | some p => d.on R.LINE_CTL.TIM_SAPI &&
          t.take 16 != leBytes 8 (d.f R.LINE_PEER_SAPI_0.SAPI_0 p) ++ leBytes 8 (d.f R.LINE_PEER_SAPI_1.SAPI_1 p)
      | none => false
    let badD := d.on R.LINE_CTL.TIM_DAPI && (t.drop 16).take 16 != own
    if badS || badD then
      let d1 := d.set R.LINE_CAR_STAT.TIM m 1
      if d.on R.LINE_CTL.TIM_ACT then d1.pmDefect m else d1
    else d.set R.LINE_CAR_STAT.TIM m 0

/-- One TTI byte (R279): three equal repetitions in a row are accepted, and a broken one begins the count anew; no defect is set inside a
guard (R277). -/
def Dev.ttiFeed (d : Dev) (m : Nat) (f : Frame) : Dev :=
  let x := d.lineOf m
  let i := f.mfas.toNat % 64
  let whole := x.ttiBuf.length == i
  let buf := if whole then x.ttiBuf ++ [f.tti] else if i = 0 then [f.tti] else []
  if buf.length < 64 then
    d.onLine m (fun y => if whole then { y with ttiBuf := buf } else { y with ttiBuf := buf, ttiLast := [], ttiRun := 0 })
  else
    let run := if buf == x.ttiLast then x.ttiRun + 1 else 1
    let d1 := d.onLine m (fun y => { y with ttiBuf := [], ttiLast := buf, ttiRun := min run 3 })
    if run < 3 then d1
    else
      let d2 := (List.range 8).foldl (fun (acc : Dev) k => acc.set R.LINE_CAR_TTI.TTI (8 * m + k) (leAt buf (8 * k) 8)) d1
      let d3 := d2.set R.LINE_CAR_STAT.TTI_OK m 1
      if (d.kwOf m).rxGuard then d3 else d3.ttiCompare m buf

/-- Bits of the justification code by majority; 0b10 acts as 0b00 and is counted (R269). -/
def jcMajority (f : Frame) : Nat :=
  ((f.jc1 &&& f.jc2) ||| (f.jc1 &&& f.jc3) ||| (f.jc2 &&& f.jc3)).toNat

/-- Length of a control message from its first frame's bytes (R273): none for an unknown TYPE or a length out of range. -/
def ctlLen (b : List Byte) : Option Nat :=
  match leAt b 0 1 % 16 with
  | 0x4 => some 32
  | 0x5 => none
  | 0x6 => some 24
  | 0x7 => some 48
  | 0x8 => some 80
  | 0x9 => some 64
  | 0xA => some 64
  | 0xB => some 64
  | 0xC => some 64
  | 0xD => some 64
  | 0xE => some 48
  | _ => none

/-- Length of a message as soon as its bytes show it: a SEAL fragment shows FLEN in bytes 8 and 9, a service message DLEN in bytes
22 and 23. `some none` when the message must be discarded. -/
def ctlKnown (b : List Byte) : Option (Option Nat) :=
  match leAt b 0 1 % 16 with
  | 0x5 =>
    if b.length < 10 then none
    else
      let n := ofBE (slice b 8 2)
      some (if 1 ≤ n ∧ n ≤ 248 then some (16 + 8 * ceilDiv n 8) else none)
  | 0xF =>
    if b.length < 24 then none
    else
      let n := ofBE (slice b 22 2)
      some (if n ≤ 208 then some (48 + 8 * ceilDiv n 8) else none)
  | _ => some (ctlLen b)

/-- The control bytes of a frame (R273): a complete message is handed up. -/
def Dev.ctlFeed (d : Dev) (m : Nat) (f : Frame) : Dev :=
  if !f.cont then d.onLine m (fun y => { y with ctlBuf := [] })
  else
    let old := (d.lineOf m).ctlBuf
    if !f.som && old.isEmpty then d
    else
      let buf := if f.som then slice f.rcc 0 8 else old ++ slice f.rcc 0 8
      match ctlKnown buf with
      | none => d.onLine m (fun y => { y with ctlBuf := buf })
      | some none => d.onLine m (fun y => { y with ctlBuf := [] })
      | some (some n) =>
        if buf.length < n then d.onLine m (fun y => { y with ctlBuf := buf })
        else (d.onLine m (fun y => { y with ctlBuf := [] })).emit (.controlIn m (buf.take n))

/-- What the segment parser holds while it goes through the data bytes of a frame. -/
structure SegScan where
  cur : List (Byte × Bool)
  race : Bool
  /-- Data byte at which the first segment of the frame starts. -/
  start : Option Nat
  /-- Complete segments: race mark, bytes, and a byte lay in an uncorrectable codeword. -/
  done : List (Bool × List Byte × Bool)
deriving DecidableEq, Repr

/-- Length of a segment once its header shows it: 64 + PLEN. -/
def segLen (l : List (Byte × Bool)) : Option Nat :=
  if l.length < 8 then none else some (64 + ofBE (slice (l.map (·.1)) 6 2) % 2 ^ 15)

/-- One data byte at place `i` (R271): between segments zeros are skipped, and a nonzero byte begins a segment. -/
def scanByte (ptr : Nat) (raceMark : Bool) (s : SegScan) (i : Nat) (b : Byte × Bool) : SegScan :=
  if s.cur.isEmpty && b.1 == 0 then s
  else
    let s1 := if s.cur.isEmpty then { s with start := some (s.start.getD i), race := raceMark && i == ptr } else s
    let cur := s1.cur ++ [b]
    if segLen cur == some cur.length then
      { s1 with cur := [], race := false, done := s1.done ++ [(s1.race, cur.map (·.1), cur.any (·.2))] }
    else { s1 with cur := cur }

/-- The data bytes from place `i` on. -/
def scanBytes (ptr : Nat) (raceMark : Bool) : SegScan → Nat → List (Byte × Bool) → SegScan
  | s, _, [] => s
  | s, i, b :: t => scanBytes ptr raceMark (scanByte ptr raceMark s i b) (i + 1) t

/-- Segments of a frame's data bytes, PTR winning over the natural start (R271): what was scanned, and whether they disagreed. -/
def scanFrame (sync : Bool) (cur : List (Byte × Bool)) (race : Bool) (ptr : Nat) (raceMark : Bool) (l : List (Byte × Bool)) :
    SegScan × Bool :=
  let empty : SegScan := ⟨[], false, none, []⟩
  let s0 : SegScan := ⟨cur, race, none, []⟩
  let want := if ptr = 0x3FFF then none else some ptr
  if sync then
    let s := scanBytes ptr raceMark s0 0 l
    if s.start = want then (s, false)
    else
      let stop := match want with
        | some p => min p (s.start.getD p)
        | none => s.start.getD l.length
      let head := scanBytes 0x3FFF false s0 0 (l.take stop)
      match want with
      | none => ({ head with cur := if s.start.isSome then [] else head.cur }, true)
      | some p =>
        let t := scanBytes ptr raceMark empty p (l.drop p)
        ({ t with done := head.done ++ t.done }, true)
  else
    match want with
    | none => (empty, false)
    | some p => (scanBytes ptr raceMark empty p (l.drop p), false)

/-- Mark the bytes of a frame that lie in an uncorrectable codeword. -/
def markBad (bad : List BadWord) (l : List Byte) (off : Nat) : List (Byte × Bool) :=
  l.mapIdx (fun i b => (b, bad.any (fun w => w.first.val ≤ off + i && off + i ≤ w.last.val)))

/-- Data bytes with their marks, under a justification code. -/
def markedData (jc : Nat) (f : Frame) (bad : List BadWord) : List (Byte × Bool) :=
  let body := markBad bad (slice f.data 0 16312) 72
  match jc with
  | 1 => body
  | 3 => markBad bad (slice f.njo 0 8) 14 ++ markBad bad (slice f.pjo 0 8) 64 ++ body
  | _ => markBad bad (slice f.pjo 0 8) 64 ++ body

/-- The segments of a frame are handed up; those touched by an uncorrectable codeword are discarded and counted (R286). -/
def Dev.segFeed (d : Dev) (m : Nat) (f : Frame) (jc : Nat) (bad : List BadWord) : Dev :=
  let x := d.lineOf m
  let r := scanFrame x.segSync x.segBuf x.segRace f.ptr.toNat f.race (markedData jc f bad)
  let d1 := if r.2 then d.bump R.LINE_CAR_CNT.PTR_MIS m else d
  let d2 := d1.onLine m (fun y =>
    { y with segBuf := r.1.cur, segRace := r.1.race, segSync := x.segSync || decide (f.ptr.toNat ≠ 0x3FFF) })
  r.1.done.foldl (fun (acc : Dev) s =>
    if s.2.2 then acc.bump R.LINE_CAR_CNT.UNCORR_SEG m else acc.emit (.segmentIn m s.1 s.2.1)) d2

/-- Performance monitoring takes a frame that is outside guards (R265, R277, R286, R287): `viol` BIP violations of the frame before
it, `words` codewords that failed and end in it, `unc` whether it overlaps one. -/
def PmX.frame (x : PmX) (viol : Nat) (unc prevUnc : Bool) (words : Nat) : PmX :=
  { x with frames := x.frames + 1, errored := x.errored + (if 0 < viol ∧ !prevUnc then 1 else 0) + b2n unc, bip := x.bip + viol,
           uncorr := x.uncorr + words }

/-- Far-end reports of a frame (R282, R287). -/
def PmX.report (x : PmX) (f : Frame) : PmX :=
  { x with feFrames := x.feFrames + 1, feBei := x.feBei + f.bei.toNat, feHit := x.feHit || f.bdi || decide (f.bei.toNat ≠ 0),
           feBdi := x.feBdi || f.bdi }

/-- A woken receiver sees WAKE = 1 from its source: it stays awake (R235). -/
def Dev.wakeSeen (d : Dev) (m : Nat) : Dev :=
  if (d.kwOf m).wakeCheck then
    (d.onKw m (fun k => { k with wakeCheck := false })).bump R.ITIN_STAT_WAKES.WAKES (carrierWing m)
  else d

/-- A side that has left its group delivers no bytes until it returns (R229, R283); an anchor belongs to none. -/
def Dev.delivers (d : Dev) (m : Nat) : Bool := isAnchor m || !(d.kwOf m).rxOut

/-- Performance monitoring and BEI take a frame (R265, R277, R282, R286, R287); inside a guard they take none. -/
def Dev.pmFrame (d : Dev) (m : Nat) (f : Frame) (ok : Bool) (bad : List BadWord) : Dev :=
  let x := d.lineOf m
  if (d.kwOf m).rxGuard then d
  else
    let viol := match x.rxBip with | some b => popcount 8 (b ^^^ f.bip).toNat | none => 0
    let unc := !bad.isEmpty
    let words := (bad.filter (·.ends)).length
    let pe := pathEnt f.site.toNat (carrierEngine m)
    let be := 8 * f.site.toNat + carrierEngine m
    let d1 := d.onPm m (fun p => p.frame viol unc x.rxBad words)
    if ok then
      let a := d1.onPm pe (fun p => (p.frame viol unc x.rxBad words).report f)
      { a with beiCnt := setCount a.beiCnt be (min 15 (countOf a.beiCnt be + viol)) }
    else d1

/-- The codewords that fail in a frame that is not in IF are counted as well, outside guards (R277, R286). -/
def Dev.pmWords (d : Dev) (m : Nat) (bad : List BadWord) : Dev :=
  if (d.kwOf m).rxGuard then d else d.onPm m (fun p => { p with uncorr := p.uncorr + (bad.filter (·.ends)).length })

/-- A frame in IF (R219, R265, R269, R271, R275 to R283, R286, R381): inside a guard it is not compared and nothing is counted against
it; segments and messages are delivered. -/
def Dev.frameIn (d : Dev) (m : Nat) (f : Frame) (bad : List BadWord) : Dev :=
  let guard := (d.kwOf m).rxGuard
  let jump := match (d.lineOf m).rxMfas with | some p => decide (f.mfas.toNat ≠ (p + 1) % 256) | none => false
  let d1 := if jump && !guard then d.bump R.LINE_CAR_CNT.OOF m else d
  let d2 := d1.rxId m f
  let ok := guard || d2.frameMatches m f
  let d3 := if ok then d2 else d2.bump R.CAT_CNT.MISPLAN 0
  let d4 := (d3.pmFrame m f ok bad).onLine m (fun y =>
    { y with rxMfas := some f.mfas.toNat, rxBip := if guard then none else some (bip8 (framePayload f)), rxBad := !bad.isEmpty && !guard })
  let d5 := match d4.frameContact m f with
    | some p => d4.contact p
    | none => d4
  let d6 := if ok && f.wake && d5.fromSource m f then d5.wakeSeen m else d5
  let d7 := d6.ttiFeed m f
  let jc := jcMajority f
  let d8 := if jc = 2 then d7.bump R.LINE_CAR_CNT.JC_INV m else d7
  if !d8.delivers m then d8.onLine m (fun y => { y with segBuf := [], segSync := false, ctlBuf := [] })
  else
    let d9 := d8.ctlFeed m f
    if ok then d9.segFeed m f jc bad else d9.onLine m (fun y => { y with segBuf := [], segSync := false })

/-- The receiver of carrier m delivers frames: its side works and is locked. -/
def Dev.rxWorks (d : Dev) (m : Nat) : Bool := d.rxMay m && d.on R.KW_CAR_STATE.RX_LOCK m

/-- FRAME_RECEIVE: one decoded frame at the expected place, with its codewords in error; a KF-L codeword with at most 15 wrong symbols is
corrected (R285). -/
def execFrameReceive (m : Fin 128) (f : Frame) (bad : List BadWord) (s : State) : Res :=
  .next (s.onDev (fun d0 =>
    let d := d0.listen m
    if d.rxWorks m then
      let failed := bad.filter (fun w => !d.on R.KW_CAR_CFG.FEC m || decide (15 < w.errs))
      let a := d.align m (fasOk f)
      let d1 := if a.2 then a.1.frameIn m f failed else a.1.pmWords m failed
      d1.regroup m
    else d))

/-- The non-anchor carrier of a plane with a lit transmitter on a colour. -/
def Dev.litOn (d : Dev) (q colour : Nat) : Option Nat :=
  ((List.range 15).map (fun i => 16 * q + i + 1)).find? (fun m => (d.kwOf m).txLit && d.f R.KW_CAR_STATE.TX_COL m == colour)

/-- CARRIER_OUT_RECEIVE (R283, R379): the carrier it names leaves the transmit group, and what it carried is resent (R175). -/
def execCarrierOutReceive (msg : CarrierOutMsg) (tagOk : Bool) (s : State) : Res :=
  .next (s.onDev (fun d =>
    if tagOk then
      if d.identOk msg.site.toNat msg.gwId.toNat then
        let d0 := match d.peerOf msg.site.toNat with | some p => d.contact p | none => d
        match d0.litOn msg.plane.toNat msg.colour.toNat with
        | some m =>
          if d0.txReach m = some msg.site.toNat then
            let d1 := (d0.set R.LINE_CAR_STAT.RMT_OUT m 1).alarm 4 m 0x002 1 0 1 (2 ^ msg.site.toNat)
            (d1.onKw m (fun x => { x with txOut := true })).txLeave m
          else d0
        | none => d0
      else d.identBad
    else d))

end Sys2Proof.Machine
end

