-- ==== Sys2Proof/Machine/Pm.lean ====
section
/-! DEFINITION. Performance monitoring (R287 to R292): seconds, bins, gauges, alerts. -/

namespace Sys2Proof.Machine

open Sys2Proof

/-! ### Gauges (R290) -/

/-- One more sample of a gauge. -/
def Gauge.add (g : Gauge) (v : Int) : Gauge :=
  if g.n = 0 then ⟨v, v, v, 1⟩ else
  ⟨if v < g.min then v else g.min, if g.max < v then v else g.max, g.sum + v, g.n + 1⟩

/-- The mean of a gauge's samples. -/
def Gauge.mean (g : Gauge) : Int := if g.n = 0 then 0 else g.sum / (g.n : Int)

/-- round(1,000 · log10(1/BER)) for `corrected` of `coded` bits; 0xFFFF when none was corrected (R290). The exponent of 2,000 turns
the rounding into an integer logarithm. -/
def berCode (corrected coded : Nat) : Nat :=
  if corrected = 0 then 0xFFFF else min 0xFFFF ((Nat.log 10 (coded ^ 2000 / corrected ^ 2000) + 1) / 2)

/-! ### Bins (R289) -/

/-- DAY_OFS; above 86,399 it acts as 0 (R292). -/
def Dev.dayOfs (d : Dev) : Nat := if 86399 < d.f R.LINE_CTL.DAY_OFS then 0 else d.f R.LINE_CTL.DAY_OFS

/-- Start of the 15-minute bin of a TAI second. -/
def start15 (sec : Nat) : Nat := sec / 900 * 900

/-- Start of the daily bin of a TAI second. -/
def start24 (ofs sec : Nat) : Nat := if sec < ofs then 0 else (sec - ofs) / 86400 * 86400 + ofs

/-- A bin that starts. -/
def PmBin.fresh (start : Nat) : PmBin := { PmBin.empty with start := start, valid := true }

/-- A completed bin as it is read: SUSPECT when its ELAPSED differs from its nominal length. -/
def PmBin.closed (b : PmBin) (len : Nat) : PmBin := { b with suspect := b.suspect || (b.valid && b.elapsed != len) }

/-- The bins already hold the one that starts at `start`: it is the current one, or one completed before it. -/
def holdsBin (cur : PmBin) (done : List PmBin) (start : Nat) : Bool :=
  cur.valid && (cur.start == start || (decide (start < cur.start) && done.any (fun b => b.valid && b.start == start)))

/-- Bring the bins of an entity to the one that holds a second: bins wholly skipped are not created, and a second of a completed bin
leaves the current one as it is. -/
def PmX.roll (x : PmX) (ofs sec : Nat) : PmX :=
  let x1 :=
    if holdsBin x.cur15 x.done15 (start15 sec) then x
    else if x.cur15.valid then
      { x with done15 := (x.cur15 :: x.done15).take 32, cur15 := PmBin.fresh (start15 sec) }
    else { x with cur15 := PmBin.fresh (start15 sec) }
  if holdsBin x1.cur24 x1.done24 (start24 ofs sec) then x1
  else if x1.cur24.valid then
    { x1 with done24 := [x1.cur24], cur24 := PmBin.fresh (start24 ofs sec) }
  else { x1 with cur24 := PmBin.fresh (start24 ofs sec) }

/-- Change, in the 15-minute and the daily bin that hold a second, what it counts. -/
def PmX.onBins (x : PmX) (ofs sec : Nat) (g : PmBin → PmBin) : PmX :=
  let f := fun (start : Nat) (b : PmBin) => if b.valid && b.start == start then g b else b
  { x with cur15 := f (start15 sec) x.cur15, done15 := x.done15.map (f (start15 sec)), cur24 := f (start24 ofs sec) x.cur24,
           done24 := x.done24.map (f (start24 ofs sec)) }

/-- What a second counts at the near end (R287): in an unavailable period UAS, else ES, SES and BBE. -/
def PmSec.near (p : PmSec) (b : PmBin) : PmBin :=
  if p.uas then { b with uas := b.uas + 1 }
  else { b with es := b.es + b2n p.es, ses := b.ses + b2n p.ses, bbe := b.bbe + (if p.ses then 0 else p.blocks) }

/-- The count of a second taken out again. -/
def PmSec.nearOut (p : PmSec) (b : PmBin) : PmBin :=
  if p.uas then { b with uas := b.uas - 1 }
  else { b with es := b.es - b2n p.es, ses := b.ses - b2n p.ses, bbe := b.bbe - (if p.ses then 0 else p.blocks) }

/-- What a second counts at the far end. -/
def PmSec.far (p : PmSec) (b : PmBin) : PmBin :=
  if p.feUas then { b with feUas := b.feUas + 1 }
  else { b with feEs := b.feEs + b2n p.feEs, feSes := b.feSes + b2n p.feSes, feBbe := b.feBbe + (if p.feSes then 0 else p.feBei) }

/-- The far-end count of a second taken out again. -/
def PmSec.farOut (p : PmSec) (b : PmBin) : PmBin :=
  if p.feUas then { b with feUas := b.feUas - 1 }
  else { b with feEs := b.feEs - b2n p.feEs, feSes := b.feSes - b2n p.feSes, feBbe := b.feBbe - (if p.feSes then 0 else p.feBei) }

/-- Ten consecutive seconds open the other state; they belong to the state they open, and their counts move (R288). -/
def PmX.availability (x : PmX) (ofs : Nat) : PmX :=
  let turn := x.recent.length == 10 && x.recent.all (fun p => p.ses != x.unavail)
  let x1 :=
    if turn then
      let moved := x.recent.map (fun p => { p with uas := !x.unavail })
      let a := x.recent.foldl (fun (acc : PmX) p => acc.onBins ofs p.sec p.nearOut) x
      let b := moved.foldl (fun (acc : PmX) p => acc.onBins ofs p.sec p.near) a
      { b with unavail := !x.unavail, recent := moved }
    else x
  let fturn := x1.recent.length == 10 && x1.recent.all (fun p => p.feSes != x1.feUnavail)
  if fturn then
    let moved := x1.recent.map (fun p => { p with feUas := !x1.feUnavail })
    let a := x1.recent.foldl (fun (acc : PmX) p => acc.onBins ofs p.sec p.farOut) x1
    let b := moved.foldl (fun (acc : PmX) p => acc.onBins ofs p.sec p.far) a
    { b with feUnavail := !x1.feUnavail, recent := moved }
  else x1

/-- Completed bins that no adjustment can reach are FINAL: none of the seconds still open lies in them. -/
def PmX.finals (x : PmX) : PmX :=
  let f := fun (len : Nat) (b : PmBin) =>
    { b with final := b.final || (x.recent.take 9).all (fun p => b.start + len ≤ p.sec || p.sec < b.start) }
  { x with done15 := x.done15.map (f 900), done24 := x.done24.map (f 86400) }

/-! ### One second -/

/-- SES_PCT; 0 acts as 1 (Table 10.10). -/
def Dev.sesPct (d : Dev) : Nat := max (d.f R.LINE_CTL.SES_PCT) 1

/-- The second that ends now: the frames due in it are counted up to its end. -/
def Dev.pmFlush (d : Dev) (ent : Nat) : Dev :=
  let till := d.tai / 1000000000 * 1000000000
  if ent < 128 then d.pmDue ent till
  else ((List.range 16).map (fun i => 16 * ((ent - 128) % 8) + i)).foldl (fun (a : Dev) m => a.pmDue m till) d

/-- Bits of the frames due in the second that ends now (R287): of a carrier by its MODE while it was scheduled and outside guards, of a path
those of the carriers that heard it, its plane's anchor among them. -/
def Dev.bitsDue (d : Dev) (ent : Nat) : Nat := ((d.pmFlush ent).pmOf ent).due

/-- A defect stands at the end of the second (R287). -/
def Dev.defectNow (d : Dev) (ent : Nat) : Bool :=
  if ent < 128 then
    d.on R.LINE_CAR_STAT.LOS ent || d.on R.LINE_CAR_STAT.LOF ent || (d.on R.LINE_CTL.TIM_ACT && d.on R.LINE_CAR_STAT.TIM ent)
  else d.pathDown ((ent - 128) / 8) ((ent - 128) % 8)

/-- The entity is at work now: a side neither parked, nor off, nor in a guard; a path one of whose carriers is (R288). -/
def Dev.liveNow (d : Dev) (ent : Nat) : Bool :=
  if ent < 128 then (d.rxLive ent).isSome
  else (d.hearing ((ent - 128) / 8) ((ent - 128) % 8)).any (fun m => !(d.kwOf m).rxGuard)

/-- The second is not classified (R288): the side was parked, off or in a guard throughout; a path had no carrier and no frame. -/
def Dev.notClassified (d : Dev) (ent : Nat) : Bool :=
  let x := d.pmOf ent
  x.frames == 0 && !x.live && !d.liveNow ent

/-- The second's classification (R287). -/
def Dev.classify (d : Dev) (ent sec : Nat) : PmSec :=
  let x := d.pmOf ent
  let bad := x.defect || d.defectNow ent
  { sec := sec, es := bad || decide (0 < x.errored),
    ses := bad || decide (0 < x.errored ∧ d.sesPct * d.bitsDue ent ≤ x.errored * 100 * 131072), blocks := x.errored,
    feEs := x.feHit, feSes := x.feBdi || decide (0 < x.feBei ∧ d.sesPct * x.feFrames ≤ x.feBei * 100), feBei := x.feBei,
    uas := x.unavail, feUas := x.feUnavail }

/-- Tallies for the next second; a defect that stands is set in it, and an entity at work is live in it. -/
def PmX.clearSecond (x : PmX) (defect live : Bool) : PmX :=
  { x with frames := 0, errored := 0, bip := 0, uncorr := 0, corr := 0, defect := defect, live := live, feFrames := 0, feBei := 0,
           feHit := false, feBdi := false, dirty := false, qAllLow := true, qAllOk := true, pAllLow := true, pAllOk := true, samples := 0, due := 0 }

/-- The next second of an entity begins. -/
def Dev.pmNext (d : Dev) (ent : Nat) : Dev := (d.pmFlush ent).onPm ent (fun x => x.clearSecond (d.defectNow ent) (d.liveNow ent))

/-- Counter c of a bin (Table 10.8). -/
def PmBin.counter (b : PmBin) (c : Nat) : Nat :=
  match c with
  | 0 => b.es
  | 1 => b.ses
  | 2 => b.uas
  | 3 => b.bbe
  | 4 => b.bip
  | 5 => b.uncorr
  | 6 => b.feEs
  | 7 => b.feSes
  | 8 => b.feUas
  | 9 => b.feBbe
  | _ => 0

/-- Counters of a bin that have just reached their thresholds (R291). -/
def Dev.crossed (d : Dev) (b : PmBin) (day : Bool) : List Nat :=
  (List.range 10).filter (fun c =>
    let t := if day then d.f R.LINE_TCA.T24 c else d.f R.LINE_TCA.T15 c
    t != 0 && decide (t ≤ b.counter c) && !b.alerted.contains c)

/-- Threshold-crossing alerts of an entity's current bins (R291). -/
def Dev.alerts (d : Dev) (ent : Nat) : Dev :=
  let x := d.pmOf ent
  let c15 := d.crossed x.cur15 false
  let c24 := d.crossed x.cur24 true
  let d1 := c15.foldl (fun (acc : Dev) c => acc.alarm 13 ent 0x006 1 c) d
  let d2 := c24.foldl (fun (acc : Dev) c => acc.alarm 13 ent 0x006 1 (16 + c)) d1
  d2.setPm ent { x with cur15 := { x.cur15 with alerted := x.cur15.alerted ++ c15 },
                        cur24 := { x.cur24 with alerted := x.cur24.alerted ++ c24 } }

/-- Gauge alerts after a second with samples (R291). -/
def Dev.gaugeAlerts (d : Dev) (ent : Nat) : Dev :=
  let x := d.pmOf ent
  if x.samples = 0 then d
  else
    let d1 := if x.qAllLow && !x.qLow then d.alarm 13 ent 0x007 1 0 else d
    let d2 := if x.pAllLow && !x.pLow then d1.alarm 13 ent 0x007 1 1 else d1
    d2.setPm ent { x with qLow := x.qAllLow || (x.qLow && !x.qAllOk), pLow := x.pAllLow || (x.pLow && !x.pAllOk) }

/-- The second that has just ended, of one entity (R287 to R291). -/
def Dev.pmSecond (d : Dev) (ent : Nat) : Dev :=
  let sec := d.tai / 1000000000 - 1
  let ofs := d.dayOfs
  let x := (d.pmOf ent).roll ofs sec
  let dirty := x.dirty || !d.domTrust (d.f R.TIME_CTL.STEER)
  let tally := fun (b : PmBin) =>
    { b with elapsed := b.elapsed + 1, bip := b.bip + x.bip, corr := b.corr + x.corr, uncorr := b.uncorr + x.uncorr,
             suspect := b.suspect || dirty }
  let x1 := x.onBins ofs sec tally
  let x2 :=
    if d.notClassified ent then x1
    else
      let p := d.classify ent sec
      let a := (x1.onBins ofs sec p.near).onBins ofs sec p.far
      ({ a with recent := (p :: a.recent).take 10 }).availability ofs
  let d1 := (d.setPm ent x2.finals).alerts ent
  let d2 := d1.gaugeAlerts ent
  let d3 := d2.pmNext ent
  if ent < 128 then d3.set R.LINE_CAR_STAT.UNAVAIL ent (b2n x2.unavail) else d3

/-- PM_SECOND: the end of a TAI second, for one entity; bins and alerts run with LINE_CTL.ENABLE = 1. -/
def execPmSecond (ent : Fin 384) (s : State) : Res :=
  .next (s.onDev (fun d => if d.on R.LINE_CTL.ENABLE then d.pmSecond ent else d.pmNext ent))

/-- The steering domain's TRUST was 0: the bins of every entity that has any are SUSPECT (R289). -/
def Dev.pmStepped (d : Dev) : Dev := { d with pm := d.pm.map (fun p => (p.1, { p.2 with dirty := true })) }

/-- The timebase steps to a second (R289): the bins it leaves and those it reaches are SUSPECT, and a forward step closes the current ones at
the boundary reached. -/
def PmX.step (x : PmX) (forward : Bool) (ofs tai : Nat) : PmX :=
  let y := { x with cur15 := { x.cur15 with suspect := true }, cur24 := { x.cur24 with suspect := true }, dirty := true,
                    liveAt := x.liveAt.map (fun l => (tai, l.2)) }
  if x.cur15.valid then (if forward then y.roll ofs (tai / 1000000000) else y) else { x with dirty := true, liveAt := y.liveAt }

/-- The timebase was stepped. -/
def Dev.pmStep (d : Dev) (forward : Bool) : Dev := { d with pm := d.pm.map (fun p => (p.1, p.2.step forward d.dayOfs d.tai)) }

/-- The bins of one entity are SUSPECT (R289). -/
def Dev.pmDirty (d : Dev) (ent : Nat) : Dev := d.onPm ent (fun x => { x with dirty := true })

/-! ### Samples (R259, R290) -/

/-- What a bin takes in, where it holds data. -/
def PmX.onCurrent (x : PmX) (g : PmBin → PmBin) : PmX :=
  let h := fun (b : PmBin) => if b.valid then g b else b
  { x with cur15 := h x.cur15, cur24 := h x.cur24 }

/-- A millisecond sample of a lit and locked transmit side enters the current bins. -/
def PmX.sampleTx (x : PmX) (v : Monitors) (heater : Nat) : PmX :=
  x.onCurrent (fun b => { b with biasTx := max b.biasTx v.biasTx.toNat, heater := max b.heater heater })

/-- A millisecond sample of a locked receive side enters the current bins. -/
def PmX.sample (x : PmX) (v : Monitors) (heater : Nat) (qLow pLow hyst : Int) : PmX :=
  let y := x.onCurrent (fun b =>
    let den := if v.coded = 0 then 1 else v.coded
    let num := b.berNum * den + v.corrected * b.berDen
    let g := Nat.gcd num (b.berDen * den)
    { b with ber := b.ber.add (berCode v.corrected v.coded), berNum := num / g, berDen := b.berDen * den / g, qmarg := b.qmarg.add v.qmarg.toInt, osnr := b.osnr.add v.osnr.toNat,
             cd := b.cd.add v.cd.toInt, dgd := b.dgd.add v.dgd.toNat, rxPow := b.rxPow.add v.rxPow.toInt,
             biasLo := max b.biasLo v.biasLo.toNat, heater := max b.heater heater })
  { y with corr := x.corr + v.corrected, samples := x.samples + 1,
           qAllLow := x.qAllLow && decide (v.qmarg.toInt < qLow), qAllOk := x.qAllOk && decide (qLow + hyst < v.qmarg.toInt),
           pAllLow := x.pAllLow && decide (v.rxPow.toInt < pLow), pAllOk := x.pAllOk && decide (pLow + hyst < v.rxPow.toInt) }

/-- The outputs of a carrier's heaters as its register shows them, in 0.01 mW: H0 to H3, under the budget (R256). -/
def Dev.heaterGauge (d : Dev) (m : Nat) : Nat := d.f R.KW_CAR_HTR.H0 m + d.f R.KW_CAR_HTR.H1 m + d.f R.KW_CAR_HTR.H2 m + d.f R.KW_CAR_HTR.H3 m

/-- What an anchor last heard from a site is kept for the next PATH_REPORT to it, with the dispersion (R260, R261). -/
def Dev.hear (d : Dev) (m site : Nat) (v : Monitors) : Dev :=
  let q := carrierEngine m
  let r : PathReport := { site := BitVec.ofNat 5 (d.f R.GLOBAL_LOC.SITE), plane := BitVec.ofNat 3 q,
                          colour := BitVec.ofNat 7 (d.f R.KW_CAR_STATE.LO_COL m), cd := v.cd, dgd := v.dgd, osnr := v.osnr,
                          qmarg := v.qmarg, rxPow := v.rxPow, gwId := BitVec.ofNat 32 (d.f R.CAT_SELF.GW_ID) }
  let d1 : Dev := { d with heard := tabIns (32 * q + site) r d.heard }
  match d1.peerOf site with
  | some p => d1.set R.KW_PEER.OWN_CD p v.cd.toNat
  | none => d1

/-- The bins of a carrier, and of the path it hears, take a sample (R290, R291). -/
def Dev.pmSample (d : Dev) (m : Nat) (v : Monitors) (rx tx : Bool) : Dev :=
  if !d.on R.LINE_CTL.ENABLE then d
  else
    let sec := d.tai / 1000000000
    let heat := d.heaterGauge m
    let a := if rx || tx then d.onPm m (fun x => x.roll d.dayOfs sec) else d
    let b := if tx then a.onPm m (fun x => x.sampleTx v heat) else a
    if rx then
      let c := b.onPm m (fun x => x.sample v heat (b.sf R.LINE_GTCA.QMARG_LOW) (b.sf R.LINE_GTCA.RXPOW_LOW) (b.f R.LINE_GTCA.HYST : Nat))
      match c.loSource c.cat m with
      | some site => c.onPm (pathEnt site (carrierEngine m)) (fun x => { x with corr := x.corr + v.corrected })
      | none => c
    else b

/-- MONITOR_SAMPLE (R249, R252, R256, R259, R261, R290): the heater loops take their errors; the monitors of each lit and locked side are
rewritten, with the path state of the receive side; an anchor's light is kept for the site it hears. -/
def Dev.monitorSample (d : Dev) (m : Nat) (v : Monitors) : Dev :=
  let e := carrierEngine m
  let d0 := d.heaterLoops m v.loopErr
  let d1 := ((d0.set R.KW_ENG_STAT.TEMP e v.temp.toNat).set R.KW_ENG_STAT.BULK e v.bulk.toNat).set R.KW_ENG_STAT.RX_TOTAL e v.rxTotal.toNat
  let tx := (d1.kwOf m).txLit && d1.on R.KW_CAR_STATE.TX_LOCK m
  let rx := d1.rxMay m && d1.on R.KW_CAR_STATE.RX_LOCK m
  let d2 := if tx then d1.txMonitors m v else d1
  let d3 :=
    if rx then
      let a := (d2.rxMonitors m v).pathWrite m v
      match (if isAnchor m then a.loSource a.cat m else none) with
      | some site => a.hear m site v
      | none => a
    else d2
  (d3.pmSample m v rx tx).thermalLoss m

/-- MONITOR_SAMPLE. -/
def execMonitorSample (m : Fin 128) (v : Monitors) (s : State) : Res :=
  .next (s.onDev (fun d => if d.engOk (carrierEngine m) then ((d.leadNow (carrierEngine m)).listen m).monitorSample m v else d))

/-! ### Reading the bins (Table 10.9) -/

/-- The mean of the bit error ratios of a bin's samples, as it is recorded (R290). -/
def PmBin.berMean (b : PmBin) : Int := if b.ber.n = 0 then 0 else (berCode b.berNum (b.berDen * b.ber.n) : Nat)

/-- Three 16-bit numbers in a word. -/
def pack3 (a b c : Int) : Nat := unsigned 16 a + 2 ^ 16 * unsigned 16 b + 2 ^ 32 * unsigned 16 c

/-- Word i of a bin record; unused bits, far-end fields of carriers and gauge fields of paths are 0. -/
def PmBin.word (b : PmBin) (path : Bool) (i : Nat) : Nat :=
  let fe := fun (n : Nat) => if path then n else 0
  let ga := fun (n : Nat) => if path then 0 else n
  let s17 := fun (n : Nat) => min n (2 ^ 17 - 1)
  let c64 := fun (n : Nat) => min n (2 ^ 64 - 1)
  match i with
  | 0 => b.start % 2 ^ 48 + 2 ^ 48 * b2n b.valid + 2 ^ 49 * b2n b.suspect + 2 ^ 50 * b2n b.final
  | 1 => s17 b.elapsed + 2 ^ 17 * s17 b.es + 2 ^ 34 * s17 b.ses
  | 2 => s17 b.uas + 2 ^ 17 * s17 (fe b.feEs) + 2 ^ 34 * s17 (fe b.feSes)
  | 3 => s17 (fe b.feUas)
  | 4 => c64 b.bbe
  | 5 => c64 b.bip
  | 6 => c64 b.corr
  | 7 => c64 b.uncorr
  | 8 => c64 (fe b.feBbe)
  | 9 => ga (pack3 b.ber.min b.berMean b.ber.max)
  | 10 => ga (pack3 b.qmarg.min b.qmarg.mean b.qmarg.max)
  | 11 => ga (pack3 b.osnr.min b.osnr.mean b.osnr.max)
  | 12 => ga (unsigned 32 b.cd.min + 2 ^ 32 * unsigned 32 b.cd.max)
  | 13 => ga (pack3 b.dgd.min b.dgd.mean b.dgd.max)
  | 14 => ga (pack3 b.rxPow.min b.rxPow.mean b.rxPow.max)
  | _ => ga (pack3 b.biasTx b.biasLo b.heater)

/-- The bin that LINE_PM_SEL names. -/
def PmX.bin (x : PmX) (b : Nat) : PmBin :=
  if b = 0 then x.cur15
  else if b ≤ 32 then (x.done15.getD (b - 1) PmBin.empty).closed 900
  else if b = 33 then x.cur24
  else (x.done24.getD 0 PmBin.empty).closed 86400

end Sys2Proof.Machine
end

