-- ==== Sys2Proof/Machine/Itinerary.lean ====
section
/-! DEFINITION. Itinerary entries, parks and wakes, return of carriers, plan control messages, the anchor rota (R221 to R241). An event
of the timetable (a slot, a wake slot, a visit) is a command; which entry it runs is the machine's own. -/

namespace Sys2Proof.Machine

open Sys2Proof

/-! ### The next entry of a wing (R225 to R229) -/

/-- Entries that wing w has launched on this edge of the TIME clock (R225). -/
def Dev.launched (d : Dev) (w : Nat) : Nat :=
  let e := tabGet (fun _ => (0, 0)) d.itinRuns w
  if e.1 = d.now then e.2 else 0

/-- Wing w launches one more (R225); entries that are discarded or skipped do not count (DEDUCED, log entry 128). -/
def Dev.launchOne (d : Dev) (w : Nat) : Dev :=
  { d with itinRuns := tabPut (fun _ => (0, 0)) w (d.now, d.launched w + 1) d.itinRuns }

/-- The entry wing w takes next, where its slot has come and fewer than 32 have been launched on this edge (R193, R225). -/
def Dev.dueEntry (d : Dev) (w : Nat) : Option ItinEntry :=
  let i := d.f R.ITIN_STAT_NEXT.NEXT w
  if d.on R.ITIN_CTL.ENABLE && d.wingEnabled w && decide (i < pageCount d.activePage w) && decide (d.launched w < 32) then
    let e := pageEntry d.activePage w i
    if diff40 e.slot d.ns40 ≤ 0 then some e else none
  else none

/-- The entry is skipped whole (R228): its TX colour is scheduled on another carrier of the engine, or it would pin a ninth tenant. -/
def Dev.conflict (d : Dev) (m : Nat) (e : ItinEntry) : Bool :=
  match e.action with
  | 1 => e.arg.testBit 7 &&
      (engCarriers (carrierEngine m)).any (fun c => c != m && (d.sched c).tx == some (e.arg % 128))
  | 2 => e.arg.testBit 26 && !(d.sched m).pins.any (fun p => p.1 == e.arg / 2 ^ 16 % 1024) && decide (8 ≤ (d.sched m).pins.length)
  | _ => false

/-- The pinned windows with classes added for a tenant. -/
def pinOpen (t cls : Nat) (pins : List (Nat × Nat)) : List (Nat × Nat) :=
  if pins.any (fun p => p.1 == t) then pins.map (fun p => if p.1 = t then (t, p.2 ||| cls) else p) else pins ++ [(t, cls)]

/-- The pinned windows with classes withdrawn from a tenant; a window with no class is none. -/
def pinClose (t cls : Nat) (pins : List (Nat × Nat)) : List (Nat × Nat) :=
  (pins.map (fun p => if p.1 = t then (t, p.2 &&& (511 - cls)) else p)).filter (fun p => p.2 != 0)

/-- The scheduled state of a carrier after an entry (R227). -/
def Sched.after (x : Sched) (e : ItinEntry) : Sched :=
  let cls := e.arg % 512
  let t := e.arg / 2 ^ 16 % 1024
  match e.action with
  | 1 => { x with tx := if e.arg.testBit 7 then some (e.arg % 128) else x.tx,
                  lo := if e.arg.testBit 15 then some (e.arg / 2 ^ 8 % 128) else x.lo }
  | 2 => if e.arg.testBit 26 then { x with pins := pinOpen t cls x.pins } else { x with mask := x.mask ||| cls }
  | 3 => if e.arg.testBit 26 then { x with pins := pinClose t cls x.pins } else { x with mask := x.mask &&& (511 - cls) }
  | 4 => { x with txPark := x.txPark || e.arg.testBit 0, rxPark := x.rxPark || e.arg.testBit 1,
                  rxParkC := if e.arg.testBit 1 then some (Sys2Proof.Machine.parkC e) else x.rxParkC }
  | 5 => { x with txPark := x.txPark && !e.arg.testBit 0, rxPark := x.rxPark && !e.arg.testBit 1 }
  | _ => x

/-- KW_CAR_m_STATE shows the parked sides; a parked receive side has no defects, and no cold acquisition of it runs (R277). -/
def Dev.parkBits (d : Dev) (m : Nat) : Dev :=
  let a := (d.set R.KW_CAR_STATE.TX_PARK m (b2n (d.sched m).txPark)).set R.KW_CAR_STATE.RX_PARK m (b2n (d.sched m).rxPark)
  if (d.sched m).rxPark then (a.onKw m (fun k => { k with cold := false })).noDefects m else a

/-- An entry changes the scheduled state, a PARK that of the sides whose park is not cancelled (R234); anchors have none (R227). -/
def Dev.schedStep (d : Dev) (m : Nat) (e : ItinEntry) : Dev :=
  if isAnchor m ∨ e.action = 0 ∨ 6 ≤ e.action then d else (d.setSched m ((d.sched m).after (d.parkLeft m e))).parkBits m

/-- Actions that are for a carrier, so that one out of its group skips them (R229); PHASE_START acts on none (R224). -/
def carrierAction (a : Nat) : Bool := a ≤ 5 || a == 7

/-- Run wing w's next entry if it has the action given and its slot has come (R225 to R229): `act` is its effect beside the scheduled
state. -/
def Dev.runEntry (d : Dev) (w action : Nat) (act : Nat → ItinEntry → Dev → Dev) : Dev :=
  match d.dueEntry w with
  | none => d
  | some e =>
    if e.action ≠ action then d
    else
      let m := entryCarrier w e
      let n := d.set R.ITIN_STAT_NEXT.NEXT w (d.f R.ITIN_STAT_NEXT.NEXT w + 1)
      let off := diff40 e.slot d.ns40
      if n.conflict m e then (n.set R.ITIN_ERR.CONFLICT 0 1).bump R.VAR_SKIP.VALUE w
      else if off < -d.grace then ((n.schedStep m e).bump R.ITIN_ERR.PAST 0).bump R.VAR_SKIP.VALUE w
      else if carrierAction action && n.carOut m then (n.schedStep m e).bump R.VAR_SKIP.VALUE w
      else
        let d1 := if off < 0 then n.bump R.VAR_LATE.VALUE w else n
        act m e ((d1.launchOne w).bump R.ITIN_STAT_EXECUTED.EXECUTED w)

/-- ITINERARY_NOP: no effect (Table 8.5). -/
def execItineraryNop (w : Fin 4) (s : State) : Res := .next (s.onDev (fun d => d.runEntry w 0 (fun _ _ x => x)))

/-- The tick `us` µs after an entry's SLOT (R231). -/
def Dev.afterSlot (d : Dev) (e : ItinEntry) (us : Nat) : Nat := d.now + 1000 * us - (-diff40 e.slot d.ns40).toNat

/-- The guard of a transmit side begins and ends at a tick; its fine lock is to come before that (R231, R248). -/
def Dev.guardTx (d : Dev) (m ends : Nat) : Dev :=
  if d.carOn m then d.onKw m (fun x => { x with txGuard := true, txGuardEnd := ends, lockDue := true }) else d

/-- The guard of a receive side (R231, R277). -/
def Dev.guardRx (d : Dev) (m ends : Nat) : Dev :=
  if d.carOn m then d.onKw m (fun x => { x with rxGuard := true, rxGuardEnd := ends }) else d

/-- What a RETUNE does to the optics (R231, R248, R252, R279): its guard is the entry's GUARD, or ITIN_CTL.GUARD for 0. -/
def retuneAct (m : Nat) (e : ItinEntry) (d : Dev) : Dev :=
  let g := e.arg / 2 ^ 16 % 256
  let ends := d.afterSlot e (if g = 0 then d.guardUs else g)
  let d1 := d.schedStep m e
  let d2 := if e.arg.testBit 7 then (d1.guardTx m ends).startTx m else d1
  let d3 := if e.arg.testBit 15 then ((d2.guardRx m ends).startLo m).enterOof m else d2
  ((d3.rebase m).regroup m).pathWatch (carrierEngine m) (d.rxSite m)

/-- RETUNE. -/
def execRetune (w : Fin 4) (s : State) : Res := .next (s.onDev (fun d => d.runEntry w 1 retuneAct))

/-- WINDOW_OPEN: the scheduled windows change (R227, R230, R240). -/
def execWindowOpen (w : Fin 4) (s : State) : Res :=
  .next (s.onDev (fun d => d.runEntry w 2 (fun m e x => x.schedStep m e)))

/-- WINDOW_CLOSE. -/
def execWindowClose (w : Fin 4) (s : State) : Res :=
  .next (s.onDev (fun d => d.runEntry w 3 (fun m e x => x.schedStep m e)))

/-- A receive side parks: its oscillator goes dark, it leaves its group, and it has no defects (R233, R277). -/
def Dev.rxDark (d : Dev) (m : Nat) : Dev :=
  let a := d.onKw m (fun k => { k with wakeCheck := false, rxGuard := false, loFine := false, cold := false, rxJoined := false })
  (((a.set R.LINE_CAR_STAT.RX_IN m 0).set R.KW_CAR_STATE.RX_LOCK m 0).set R.LINE_CAR_STAT.ALIGN m 0).noDefects m

/-- A PARK parks the sides it names, except one whose park was cancelled (R233, R234, R257): that entry counts as executed and not in
VAR_SKIP (DESIGN CHOICE, log entry 96). -/
def parkAct (m : Nat) (e : ItinEntry) (d : Dev) : Dev :=
  let x := d.sched m
  let l := d.parkLeft m e
  let tx := l.arg.testBit 0 && !x.txPark
  let rx := l.arg.testBit 1 && !x.rxPark
  let d1 := (d.setSched m (x.after l)).parkBits m
  let d2 := if tx then
      (((d1.onKw m (fun k => { k with txJoined := false })).set R.LINE_CAR_STAT.TX_IN m 0).darkTx m).bump R.ITIN_STAT_PARKS.PARKS
        (carrierWing m)
    else d1
  let d3 := if rx then
      (d2.rxDark m).bump R.ITIN_STAT_PARKS.PARKS (carrierWing m)
    else d2
  ((d3.rebase m).regroup m).pathWatch (carrierEngine m) (d.rxSite m)

/-- PARK. -/
def execPark (w : Fin 4) (s : State) : Res := .next (s.onDev (fun d => d.runEntry w 4 parkAct))

/-- Relight a transmit side (R235): the guard begins and ends at a tick; `slot` says that frames carry WAKE = 1 until it ends. -/
def Dev.wakeTx (d : Dev) (m ends : Nat) (slot : Bool) : Dev :=
  let d1 := (d.setSched m { d.sched m with txPark := false }).parkBits m
  let d2 := (d1.guardTx m ends).onKw m (fun x => { x with wakeReq := false })
  let d3 := (d2.startTx m).bump R.ITIN_STAT_WAKES.WAKES (carrierWing m)
  if slot && d3.carOn m then d3.onKw m (fun x => { x with wakeSend := true }) else d3

/-- Light a parked local oscillator again (R235); its guard ends at a tick. -/
def Dev.wakeRx (d : Dev) (m ends : Nat) (check : Bool) : Dev :=
  let d1 := (d.setSched m { d.sched m with rxPark := false }).parkBits m
  ((d1.guardRx m ends).onKw m (fun x => { x with wakeCheck := check })).startLo m

/-- A WAKE entry wakes the named sides at its SLOT (R235). -/
def wakeAct (m : Nat) (e : ItinEntry) (d : Dev) : Dev :=
  let ends := d.afterSlot e d.guardUs
  let d1 := if e.arg.testBit 0 && (d.sched m).txPark then d.wakeTx m ends false else d
  let d2 := if e.arg.testBit 1 && (d1.sched m).rxPark then
      (d1.wakeRx m ends false).bump R.ITIN_STAT_WAKES.WAKES (carrierWing m)
    else d1
  (d2.rebase m).regroup m

/-- WAKE. -/
def execWake (w : Fin 4) (s : State) : Res := .next (s.onDev (fun d => d.runEntry w 5 wakeAct))

/-- A HEATER_FF starts a pulse: for HOLD µs from its SLOT, 0 acting as 1, base and pulse terms become the base in force at SLOT plus STEP
(R253); one that clips the output is counted; with FF_EN = 0 there is no thermal effect. -/
def pulseAct (m : Nat) (e : ItinEntry) (d0 : Dev) : Dev :=
  let d := d0.leadNow (carrierEngine m)
  if !d.on R.KW_CTL.FF_EN then d
  else
    let h := e.arg / 2 ^ 32 % 4
    d.pulseStart m h (d.heaterBaseNow m h + signed 16 e.arg) (d.afterSlot e 0) (d.afterSlot e (max 1 (e.arg / 2 ^ 16 % 2 ^ 16)))

/-- HEATER_FF. -/
def execHeaterFf (w : Fin 4) (s : State) : Res := .next (s.onDev (fun d => d.runEntry w 7 pulseAct))

/-! ### Wakes (R234, R235) -/

/-- The pending PARKs of a side of carrier m: those among the entries of its wing still to come. -/
def Dev.parksAhead (d : Dev) (m side : Nat) : List ItinEntry :=
  let w := carrierWing m
  ((pageSection d.activePage w).drop (d.f R.ITIN_STAT_NEXT.NEXT w)).filter
    (fun e => e.action == 4 && entryCarrier w e == m && e.arg.testBit side)

/-- The pending PARK of a side of carrier m: the first one. -/
def Dev.pendingPark (d : Dev) (m side : Nat) : Option ItinEntry := (d.parksAhead m side).head?

/-- A wake request for the TX side of carrier m (R234): it cancels a park that lies more than 10 µs ahead, and waits for a wake slot
otherwise. -/
def Dev.wakeRequest (d : Dev) (m : Nat) : Dev :=
  if isAnchor m then d
  else if (d.sched m).txPark then d.onKw m (fun x => { x with wakeReq := true })
  else
    match d.pendingPark m 0 with
    | none => d
    | some e =>
      let c := parkC e
      if cancelled d.parkTx m c then d
      else if 10000 < diff40 c d.ns40 then
        ({ d with parkTx := d.parkTx ++ [⟨m, c, d.taiOf e.slot⟩] } : Dev).bump R.ITIN_STAT_CANCELLED.CANCELLED (carrierWing m)
      else d.onKw m (fun x => { x with wakeReq := true })

/-- WAKE_REQUEST: a write of ITIN_WAKE.GO, or a segment queued for a parked side. -/
def execWakeRequest (m : Fin 128) (s : State) : Res :=
  .next (if s.dev.ready then s.onDev (fun d => if d.wingPresent (carrierWing m) then d.wakeRequest m else d) else s)

/-- A wake slot, seen `delay` ns late: this is the first clock edge at or after it, between 0 and 1 ns late (R193, R235). -/
def Dev.wakeSlotNow (d : Dev) (delay : Nat) : Bool :=
  let period := 1000 * d.wakePeriod
  decide ((d.tb + 65536 * (period - delay % period)) % (65536 * period) < 65536)

/-- The delay from the source that carrier m's receiver is scheduled to hear (R222, R235). -/
def Dev.rxDelay (d : Dev) (m : Nat) : Option Nat := ((d.rxSite m).bind d.peerOf).map d.delayOf

/-- WAKE_SLOT for carrier m (R235): at a slot W a parked transmitter with a request relights and an anchor's next frame carries WAKE = 1;
at W + D − 1 µs a parked receiver lights its oscillator to look for WAKE = 1. -/
def execWakeSlot (m : Fin 128) (s : State) : Res :=
  .next (s.onDev (fun d =>
    if isAnchor m then (if d.wakeSlotNow 0 then d.onKw m (fun x => { x with wakeSend := true }) else d)
    else
      let d1 := if d.wakeSlotNow 0 && (d.kwOf m).wakeReq && (d.sched m).txPark then d.wakeTx m (d.now + 1000 * d.guardUs) true else d
      let lights := match d1.rxDelay m with
        | some delay => d1.wakeSlotNow (delay + 1000000 * d1.wakePeriod - 1000)
        | none => false
      let d2 := if lights && (d1.sched m).rxPark && d1.carOn m then d1.wakeRx m (d1.now + 1000 * (d1.guardUs + 1)) true else d1
      (d2.rebase m).regroup m))

/-- WAKE_CHECK_EXPIRY (R235): a woken receiver that has seen no WAKE = 1 by W + D + GUARD + 1 µs, which is 1 µs after its guard, parks
again. -/
def execWakeCheckExpiry (m : Fin 128) (s : State) : Res :=
  .next (s.onDev (fun d =>
    if (d.kwOf m).wakeCheck && decide ((d.kwOf m).rxGuardEnd + 1000 ≤ d.now) then
      let d1 := (d.setSched m { d.sched m with rxPark := true }).parkBits m
      ((d1.rxDark m).rebase m).regroup m
    else d))

/-- A plan message that passes its tag comes from the peer it names; otherwise it is discarded, a wrong GW_ID counted (Table 8.6). -/
def Dev.fromPeer (d : Dev) (site gw : Nat) (tagOk : Bool) (g : Nat → Dev → Dev) : Dev :=
  if tagOk then
    if d.identOk site gw then
      match d.peerOf site with
      | some p => g p (d.contact p)
      | none => d
    else d.identBad
  else d

/-- The non-anchor carrier of a plane whose scheduled LO colour is the one given. -/
def Dev.loOn (d : Dev) (q colour : Nat) : Option Nat :=
  ((List.range 15).map (fun i => 16 * q + i + 1)).find? (fun m => (d.sched m).lo == some colour)

/-- The non-anchor carrier of a plane whose scheduled TX colour is the one given. -/
def Dev.txOn (d : Dev) (q colour : Nat) : Option Nat :=
  ((List.range 15).map (fun i => 16 * q + i + 1)).find? (fun m => (d.sched m).tx == some colour)

/-- PARK_CANCEL_RECEIVE (R234): a receiver whose matching RX PARK is still to come skips it; where that PARK's SLOT has come CANCEL_LATE
is set. -/
def execParkCancelReceive (msg : PlanMsg) (tagOk : Bool) (s : State) : Res :=
  .next (s.onDev (fun d => d.fromPeer msg.site.toNat msg.gwId.toNat tagOk (fun _ x =>
    match x.loOn msg.plane.toNat msg.colour.toNat with
    | none => x
    | some m =>
      let c := msg.t.toNat
      if cancelled x.parkRx m c then x
      else
        match (x.parksAhead m 1).find? (fun e => parkC e == c) with
        | some e =>
          if 0 < diff40 e.slot x.ns40 then
            ({ x with parkRx := x.parkRx ++ [⟨m, c, e.slot⟩] } : Dev).bump R.ITIN_STAT_CANCELLED.CANCELLED (carrierWing m)
          else x.set R.ITIN_ERR.CANCEL_LATE 0 1
        | none => if (x.sched m).rxParkC = some c then x.set R.ITIN_ERR.CANCEL_LATE 0 1 else x)))

/-! ### Return of a carrier (R229) -/

/-- The first whole millisecond of the timebase at least COMMIT_LEAD ahead, in NS40. -/
def Dev.returnTime (d : Dev) : Nat :=
  (d.tai + d.f R.ITIN_LEAD.COMMIT_LEAD * 1000 + 999999) / 1000000 * 1000000 % 2 ^ 40

/-- A RETURN this gateway proposes. -/
def Dev.planMsg (d : Dev) (plane kind id t colour : Nat) (accept : Bool) (print : Nat) : PlanMsg :=
  { site := BitVec.ofNat 5 d.site, plane := BitVec.ofNat 3 plane, kind := BitVec.ofNat 2 kind, id := BitVec.ofNat 32 id,
    t := BitVec.ofNat 40 t, colour := BitVec.ofNat 7 colour, accept := accept, gwId := d.gwId, orderPrint := BitVec.ofNat 32 print }

/-- RELOCK_ATTEMPT (R229): an attempt of the Conservator, which needs Curator firmware alive, on a receive side that is out, with the
scheduled colour; once it has relocked, RETURN is proposed with a T, unless one whose T is still ahead stands. -/
def execRelockAttempt (m : Fin 128) (ok : Bool) (s : State) : Res :=
  .next (s.onDev (fun d =>
    if d.on R.CUR_STATE.ALIVE && d.rxMay m && (d.kwOf m).rxOut && ok then
      let d1 := (((d.onKw m (fun x => { x with loFine := true })).loMoves m (((d.sched m).lo).getD 0)).rebase m).rxLocked m
      match d1.rxSite m with
      | some site =>
        if d1.returnsTx.any (fun r => r.m == m.val && decide (0 < diff40 r.t d1.ns40)) then d1
        else
          let r : ReturnTx := { m := m, site := site, colour := d1.f R.KW_CAR_STATE.LO_COL m, t := d1.returnTime, acked := false }
          { d1 with returnsTx := d1.returnsTx.filter (fun r => r.m != m.val) ++ [r] }
      | none => d1
    else d))

/-- RETURN_RECEIVE (R229): every copy is answered, after the rejoin too; ACCEPT says whether the first copy for its T came before T − 10 µs. -/
def execReturnReceive (msg : PlanMsg) (tagOk : Bool) (s : State) : Res :=
  .next (s.onDev (fun d => d.fromPeer msg.site.toNat msg.gwId.toNat tagOk (fun _ x =>
    match x.txOn msg.plane.toNat msg.colour.toNat with
    | none => x
    | some m =>
      let t := msg.t.toNat
      let known := x.returnsRx.find? (fun r => r.m == m && r.t == t)
      let acc := match known with
        | some r => r.accept
        | none => decide (10000 < diff40 t x.ns40)
      let x1 : Dev := match known with
        | some _ => x
        | none => { x with returnsRx := x.returnsRx.filter (fun r => r.m != m) ++ [⟨m, t, acc, false⟩] }
      x1.send msg.site.toNat (.plan 5 (x1.planMsg msg.plane.toNat 0 0 t msg.colour.toNat acc 0)))))

/-- RETURN_ACK_RECEIVE (R229): it ends the repetition; after a refusal the receiver, which still returns its side at the old T, proposes a
new T as well. -/
def execReturnAckReceive (msg : PlanMsg) (tagOk : Bool) (s : State) : Res :=
  .next (s.onDev (fun d => d.fromPeer msg.site.toNat msg.gwId.toNat tagOk (fun _ x =>
    { x with returnsTx := x.returnsTx.flatMap (fun r =>
        if !r.acked && r.site == msg.site.toNat && r.colour == msg.colour.toNat && r.t == msg.t.toNat &&
            carrierEngine r.m == msg.plane.toNat then
          { r with acked := true } :: (if msg.accept then [] else [{ r with t := x.returnTime }])
        else [r]) })))

/-- A receive side that returns hears the colour that the timetable gives now; where that is another one it retunes, inside a guard (R229,
log entry 114). -/
def Dev.rejoinRx (d : Dev) (m : Nat) : Dev :=
  let a := d.onKw m (fun x => { x with rxOut := false })
  if !a.rxMay m ∨ a.f R.KW_CAR_STATE.LO_COL m = ((a.sched m).lo).getD 0 then a
  else
    (((a.guardRx m (a.now + 1000 * a.guardUs)).startLo m).enterOof m).rebase m

/-- A transmit side that is used again sends on the colour that the timetable gives now (R229, log entry 114). -/
def Dev.rejoinTx (d : Dev) (m : Nat) : Dev :=
  let a := (d.onKw m (fun x => { x with txOut := false })).set R.LINE_CAR_STAT.RMT_OUT m 0
  if !a.txMay m ∨ a.f R.KW_CAR_STATE.TX_COL m = (a.wantTx m).getD 0 then a
  else ((a.guardTx m (a.now + 1000 * a.guardUs)).startTx m).rebase m

/-- CARRIER_REJOIN (R229): T has come. The receiver returns the side to its group; the sender uses the carrier again where it
accepted T. -/
def execCarrierRejoin (m : Fin 128) (s : State) : Res :=
  .next (s.onDev (fun d =>
    let d1 := if d.returnsTx.any (fun r => r.m == m.val && decide (diff40 r.t d.ns40 ≤ 0)) then
        { d.rejoinRx m with returnsTx := d.returnsTx.filter (fun r => !(r.m == m.val && r.acked && decide (diff40 r.t d.ns40 ≤ 0))) }
      else d
    let d2 := if d1.returnsRx.any (fun r => r.m == m.val && r.accept && !r.rejoined && decide (diff40 r.t d.ns40 ≤ 0)) then
        { d1.rejoinTx m with
          returnsRx := d1.returnsRx.map (fun (r : ReturnRx) => if r.m = m.val then { r with rejoined := true } else r) }
      else d1
    d2.regroup m))

/-! ### Commit and activation (R237 to R241) -/

/-- ANNOUNCE_RECEIVE (R223, R237). -/
def execAnnounceReceive (msg : PlanMsg) (tagOk : Bool) (s : State) : Res :=
  .next (s.onDev (fun d => d.fromPeer msg.site.toNat msg.gwId.toNat tagOk (fun _ x =>
    let bit := 2 ^ msg.site.toNat
    if msg.kind = 1 then
      match x.catPending with
      | some c =>
        if catPlan c = msg.id.toNat then
          if orderPrint c ≠ msg.orderPrint.toNat then x.set R.CAT_ERR.ORDER 0 1
          else if x.f R.CAT_STATE.ACT_AT = msg.t.toNat then x.set R.CAT_READY.READY 0 (x.f R.CAT_READY.READY ||| bit)
          else x
        else x
      | none => x
    else if msg.kind = 2 then
      if x.on R.ITIN_STATE.PEND ∧ x.f R.ITIN_ID.PEND_ID = msg.id.toNat ∧ x.f R.ITIN_STATE.ACT_AT = msg.t.toNat then
        x.set R.ITIN_READY.READY 0 (x.f R.ITIN_READY.READY ||| bit)
      else x
    else x)))

/-- Drop the pending page; the inactive page is empty again. -/
def Dev.dropPage (d : Dev) : Dev :=
  let v := 1 - d.f R.ITIN_STATE.ACTIVE
  let d1 := ((((d.set R.ITIN_STATE.PEND 0 0).set R.ITIN_STATE.COMMITTED 0 0).set R.ITIN_STATE.ACT_AT 0 0).set R.ITIN_ID.PEND_ID 0 0).set
    R.ITIN_READY.READY 0 0
  { d1 with pages := d1.pages.put v [] }

/-- Drop the pending Catalogue version. -/
def Dev.dropCat (d : Dev) : Dev :=
  let v := 1 - d.f R.CAT_STATE.ACTIVE
  let d1 := ((((d.set R.CAT_STATE.PEND 0 0).set R.CAT_STATE.COMMITTED 0 0).set R.CAT_STATE.ACT_AT 0 0).set R.CAT_ID.PEND_PLAN 0 0).set
    R.CAT_READY.READY 0 0
  { d1 with cats := d1.cats.put v [] }

/-- CANCEL_RECEIVE (R238): before the commit point the matching pending item is dropped; later CANCEL_LATE is set. -/
def execCancelReceive (msg : PlanMsg) (tagOk : Bool) (s : State) : Res :=
  .next (s.onDev (fun d => d.fromPeer msg.site.toNat msg.gwId.toNat tagOk (fun _ x =>
    if msg.kind = 1 then
      if x.on R.CAT_STATE.PEND ∧ x.f R.CAT_ID.PEND_PLAN = msg.id.toNat ∧ x.f R.CAT_STATE.ACT_AT = msg.t.toNat then
        (if x.catCommitted then x.set R.CAT_ERR.CANCEL_LATE 0 1 else x.dropCat)
      else x
    else if msg.kind = 2 then
      if x.on R.ITIN_STATE.PEND ∧ x.f R.ITIN_ID.PEND_ID = msg.id.toNat ∧ x.f R.ITIN_STATE.ACT_AT = msg.t.toNat then
        (if x.pageCommitted then x.set R.ITIN_ERR.CANCEL_LATE 0 1 else x.dropPage)
      else x
    else x)))

/-- COMMIT_POINT (R238): ACTIVATE − COMMIT_LEAD of the pending item has come. -/
def execCommitPoint (k : PlanKind) (s : State) : Res :=
  .next (s.onDev (fun d =>
    match k with
    | .catalogue => if d.catCommitted then (d.set R.CAT_STATE.COMMITTED 0 1).set R.CAT_STATE.HOLDING 0 1 else d
    | .page => if d.pageCommitted then d.set R.ITIN_STATE.COMMITTED 0 1 else d))

/-- The pending page becomes active (R239); MODE takes effect (R240), unless ITIN_CTL.ENABLE = 0 (R14). -/
def Dev.activatePage (d : Dev) : Dev :=
  if d.on R.ITIN_STATE.PEND then
    let old := d.activePage
    let d1 := (List.range 4).foldl (fun (acc : Dev) w =>
      (acc.bump R.ITIN_STAT_DROPPED.DROPPED w (pageCount old w - acc.f R.ITIN_STAT_NEXT.NEXT w)).set R.ITIN_STAT_NEXT.NEXT w 0) d
    let id := d.f R.ITIN_ID.PEND_ID
    let d2 := ((((d1.set R.ITIN_STATE.ACTIVE 0 (1 - d.f R.ITIN_STATE.ACTIVE)).set R.ITIN_STATE.PEND 0 0).set R.ITIN_STATE.COMMITTED 0 0).set
      R.ITIN_STATE.ACT_AT 0 0).set R.ITIN_ID.ACTIVE_ID 0 id
    let d3 := (d2.set R.ITIN_ID.PEND_ID 0 0).set R.ITIN_READY.READY 0 0
    let d4 := if d3.cat.isEmpty || pagePlan d3.activePage != catPlan d3.cat then d3.set R.ITIN_ERR.PLAN 0 1 else d3
    { d4 with itinMode := if d4.on R.ITIN_CTL.ENABLE then d4.shadow 4 else d4.itinMode }
  else d

/-- A NS40 time has come. -/
def Dev.hasCome (d : Dev) (t : Nat) : Bool := decide (diff40 t d.ns40 ≤ 0)

/-- PAGE_ACTIVATE: ACTIVATE of the pending page has come. -/
def execPageActivate (s : State) : Res := .next (s.onDev (fun d => if d.hasCome (d.f R.ITIN_STATE.ACT_AT) then d.activatePage else d))

/-- A write of ITIN_CANCEL.GO (R238). -/
def Dev.itinCancel (d : Dev) : Dev :=
  if d.on R.ITIN_STATE.PEND then
    if d.pageCommitted then d.set R.ITIN_ERR.BUSY 0 1
    else ({ d with cancelTx := d.cancelTx ++ [⟨.page, d.f R.ITIN_ID.PEND_ID, d.f R.ITIN_STATE.ACT_AT, 0, d.taiOf (d.f R.ITIN_STATE.ACT_AT)⟩] } : Dev).dropPage
  else d

/-- A write of CAT_CANCEL.GO (R238). -/
def Dev.catCancel (d : Dev) : Dev :=
  match d.catPending with
  | some c =>
    if d.catCommitted then d.set R.CAT_ERR.BUSY 0 1
    else ({ d with cancelTx := d.cancelTx ++ [⟨.catalogue, d.f R.CAT_ID.PEND_PLAN, d.f R.CAT_STATE.ACT_AT, orderPrint c,
      d.taiOf (d.f R.CAT_STATE.ACT_AT)⟩] } : Dev).dropCat
  | none => d

/-- ITIN_CANCEL. -/
def execItinCancel (s : State) : Res := .next (if s.dev.ready then s.onDev (fun d => d.itinCancel) else s)

/-- CAT_CANCEL. -/
def execCatCancel (s : State) : Res := .next (if s.dev.ready then s.onDev (fun d => d.catCancel) else s)

/-- CEP_HOLD_END (R13, R218): CAT_CTL.HOLD ms after an activation, as HOLD stood then, both CEP values stop being accepted. -/
def execCepHoldEnd (s : State) : Res :=
  .next (s.onDev (fun d =>
    if !d.catCommitted && decide (d.catHold * 1000000 ≤ d.since d.catHeld) then d.set R.CAT_STATE.HOLDING 0 0 else d))

/-- A read of ITIN_PAGE_DATA (R15, R16, R241). -/
def Dev.pageRead (d : Dev) : Dev :=
  let img := d.page (d.f R.ITIN_PAGE_SEL.PAGE)
  let i := d.f R.ITIN_PAGE_SEL.WORD
  if 8 * i + 8 ≤ img.length then
    let d1 := d.emit (.readData (BitVec.ofNat 64 (leAt img (8 * i) 8)))
    if d.on R.ITIN_PAGE_SEL.AUTOINC then d1.set R.ITIN_PAGE_SEL.WORD 0 (i + 1) else d1
  else (d.set R.ITIN_ERR.RANGE 0 1).emit (.readData 0)

/-- A read of CAT_DATA (R15, R16, R241). -/
def Dev.catRead (d : Dev) : Dev :=
  let img := d.catVer (d.f R.CAT_SEL.VERSION)
  let i := d.f R.CAT_SEL.WORD
  if 8 * i + 8 ≤ img.length then
    let d1 := d.emit (.readData (BitVec.ofNat 64 (leAt img (8 * i) 8)))
    if d.on R.CAT_SEL.AUTOINC then d1.set R.CAT_SEL.WORD 0 (i + 1) else d1
  else (d.set R.CAT_ERR.RANGE 0 1).emit (.readData 0)

/-- ITIN_PAGE_DATA_READ. -/
def execItinPageDataRead (s : State) : Res := .next (if s.dev.ready then s.onDev (fun d => d.pageRead) else s)

/-- CAT_DATA_READ. -/
def execCatDataRead (s : State) : Res := .next (if s.dev.ready then s.onDev (fun d => d.catRead) else s)

end Sys2Proof.Machine
end

