-- ==== Sys2Proof/Machine/Publish.lean ====
section
/-! DEFINITION. Publishing of codec tables between gateways (R146 to R150, R274), and the release of delta snapshots (R44). -/

namespace Sys2Proof.Machine

open Sys2Proof

/-! ### Publishes -/

/-- Change the publish of a site with a transaction number. -/
def Dev.updPub (d : Dev) (site txn : Nat) (g : PubX → PubX) : Dev :=
  { d with pubs := d.pubs.map (fun (p : PubX) => if p.site = site ∧ p.txn = txn then g p else p) }

/-- The publish of a site with a transaction number. -/
def Dev.pub (d : Dev) (site txn : Nat) : Option PubX := d.pubs.find? (fun p => p.site == site && p.txn == txn)

/-- Forget a publish. -/
def Dev.delPub (d : Dev) (site txn : Nat) : Dev := { d with pubs := d.pubs.filter (fun (p : PubX) => !(p.site == site && p.txn == txn)) }

/-- A PUB_ message of a publish (Table 10.11). -/
def Dev.pubMsg (d : Dev) (p : PubX) (status : Nat) : ServiceMsg :=
  { site := BitVec.ofNat 5 d.site, status := BitVec.ofNat 8 status, id := BitVec.ofNat 32 p.jobId, key := BitVec.ofNat 32 p.tid, t := 0,
    v := p.ver == 1, slot := BitVec.ofNat 13 p.slot, frag := 0, nfrag := 1, dlen := 0, gwId := d.gwId, txn := BitVec.ofNat 32 p.txn,
    data := [] }

/-- Fragment f of the reserve of a publish. -/
def Dev.reserveMsg (d : Dev) (p : PubX) (f : Nat) : ServiceMsg :=
  { d.pubMsg p 0 with t := BitVec.ofNat 40 p.act, frag := BitVec.ofNat 8 f, nfrag := 5, dlen := 208, data := slice p.img (208 * f) 208 }

/-- Nothing more is expected of a peer: it has acknowledged the decision or is lost, or it takes no part (R147). -/
def PubX.settled (p : PubX) (site : Nat) : Bool := p.acks.contains site || p.answers.any (fun a => a.1 == site && a.2 == 0xFF)

/-- What a publish of this gateway sends in an anchor visit to a site (R147): the next fragment of the reserve until the site answers,
then PUB_COMMIT or PUB_ABORT until it acknowledges. -/
def Dev.pubNews (d : Dev) (site : Nat) : List Ctl :=
  (d.pubs.filter (fun p => p.own && p.peers.contains site && !p.settled site)).flatMap (fun p =>
    if p.decided = 0 then
      if p.answers.any (fun a => a.1 == site) then [] else [Ctl.service 2 (d.reserveMsg p (countOf p.frag site % 5))]
    else if p.decided = 1 then [Ctl.service 4 (d.pubMsg p 0)]
    else [Ctl.service 5 (d.pubMsg p 0)])

/-- The fragment sent to a site in this visit is behind. -/
def Dev.pubSent (d : Dev) (site : Nat) : Dev :=
  { d with pubs := d.pubs.map (fun (p : PubX) =>
      if p.own && p.decided == 0 && p.peers.contains site then { p with frag := setCount p.frag site ((countOf p.frag site + 1) % 5) } else p) }

/-- The version of a slot that a publish writes (R146). -/
def Dev.pubVer (d : Dev) (slot : Nat) : Nat :=
  let a := d.f R.SLOT.ACTIVE slot
  if d.installed slot a then 1 - a else a

/-- A slot's key is that of an image for a job. -/
def Dev.slotFits (d : Dev) (slot job : Nat) (img : List Byte) : Bool :=
  d.on R.SLOT.VALID slot && d.f R.SLOT.JOB slot == job && d.f R.SLOT.TID slot == imgTid img && d.f R.SLOT.FORMAT slot == imgFmt img

/-- The publish of a slot that is neither aborted nor active yet. -/
def Dev.pubOf (d : Dev) (slot : Nat) : Option PubX := d.pubs.find? (fun p => p.slot == slot && p.decided != 2 && !p.active)

/-- ACTIVE becomes v and PEND clears (R148); the publish is forgotten once nothing is left to do for it. -/
def Dev.pubActivate (d : Dev) (p : PubX) : Dev :=
  let d1 := (d.set R.SLOT.ACTIVE p.slot p.ver).set R.SLOT.PEND p.slot 0
  if !p.own || p.peers.all p.settled then d1.delPub p.site p.txn else d1.updPub p.site p.txn (fun q => { q with active := true })

/-- The operation of an own publish ends. -/
def Dev.pubOpEnd (d : Dev) (p : PubX) (st : Nat) : Dev :=
  match p.op with
  | some (n, i) => if st = 0 then d.okOp n i else d.endOp n i st
  | none => d

/-- An own publish is aborted with a status: PEND clears here, and every peer is told (R147, R150). -/
def Dev.pubAbort (d : Dev) (p : PubX) (st : Nat) : Dev :=
  let d1 := (d.updPub p.site p.txn (fun q => { q with decided := 2 })).set R.SLOT.PEND p.slot 0
  d1.pubOpEnd p st

/-- Every peer that accepted has acknowledged the commit: the operation completes with OK, or with PEER_LOST where one was lost first
(R150). -/
def Dev.pubSettle (d : Dev) (site txn : Nat) : Dev :=
  match d.pub site txn with
  | none => d
  | some p =>
    if p.decided = 0 ∨ !p.peers.all p.settled then d
    else if p.decided = 2 then d.delPub site txn
    else
      let d1 := d.pubOpEnd p (if p.lost then 0x0B else 0)
      if p.active then d1.delPub site txn else d1

/-- Every peer has answered: commit when all accept or take no part, otherwise abort with the first refusal (R147, R150). -/
def Dev.pubDecide (d : Dev) (site txn : Nat) : Dev :=
  match d.pub site txn with
  | none => d
  | some p =>
    if p.decided ≠ 0 ∨ !p.peers.all (fun s => p.answers.any (fun a => a.1 == s)) then d
    else
      match p.answers.find? (fun a => a.2 != 0 && a.2 != 0xFF) with
      | some a => d.pubAbort p a.2
      | none => (d.updPub site txn (fun q => { q with decided := 1 })).pubSettle site txn

/-- The peer of a site is lost (R147, R150): a publish it has not answered aborts with PEER_LOST; one it has accepted completes with
PEER_LOST, at once where it is committed. -/
def Dev.pubPeerLost (d : Dev) (site : Nat) : Dev :=
  d.pubs.foldl (fun (a : Dev) p =>
    if p.own && p.peers.contains site && !p.settled site then
      let a1 := if p.decided = 0 && !p.answers.any (fun x => x.1 == site) then a.pubAbort p 0x0B
        else if p.decided = 1 then a.pubOpEnd p 0x0B else a
      (a1.updPub p.site p.txn (fun q => { q with acks := q.acks ++ [site], lost := true })).pubSettle p.site p.txn
    else a) d

/-- Start a publish of this gateway (R147): PEND is set, and every peer of the active Catalogue version takes part. A peer lost before
aborts it at once. Without running firmware no table is published (R373; log entry 123). -/
def Dev.pubStart (d : Dev) (n i slot act jobId : Nat) (img : List Byte) : Dev :=
  if !d.fwRuns then d
  else
  let txn := d.pubTxn
  let peers := (List.range d.sites).filter (fun s => s != d.site && (d.peerOf s).isSome)
  let p : PubX := { slot := slot, ver := d.pubVer slot, img := img, act := act, jobId := jobId, tid := imgTid img, txn := txn, site := d.site,
                    op := some (n, i), own := true, peers := peers, answers := [], acks := [], decided := 0, installed := false, frag := [] }
  let d1 := { d with pubs := d.pubs ++ [p], pubTxn := (txn + 1) % 2 ^ 32 }
  let d2 := ((d1.set R.SLOT.PEND slot 1).set R.SLOT.ACT_AT slot act).pubDecide d.site txn
  (peers.filter (fun s => match d.peerOf s with | some k => d.f R.HEALTH_PEER.STATE k == 2 | none => false)).foldl
    (fun (a : Dev) s => a.pubPeerLost s) d2

/-! ### Messages of a publish -/

/-- A whole reserve is answered (R147). -/
def Dev.reserveWhole (d : Dev) (m : ServiceMsg) (img : List Byte) : Dev :=
  let site := m.site.toNat
  let slot := m.slot.toNat
  let p : PubX := { slot := slot, ver := b2n m.v, img := img, act := m.t.toNat, jobId := m.id.toNat, tid := m.key.toNat, txn := m.txn.toNat,
                    site := site, op := none, own := false, peers := [], answers := [], acks := [], decided := 0, installed := false, frag := [] }
  let say := fun (a : Dev) st => a.send site (.service 3 (a.pubMsg p st))
  match (d.listed 1).find? (fun j => d.on R.JOB.VALID j && d.f R.JOB.JOB_ID j == m.id.toNat) with
  | none => say d 0xFF
  | some j =>
    if (d.pub site m.txn.toNat).isSome then say d 0
    else if !imgOk img || !d.slotFits slot j img then say d 0x01
    else if d.on R.SLOT.PEND slot then say d 0x12
    else say ((({ d with pubs := d.pubs ++ [p] } : Dev).set R.SLOT.PEND slot 1).set R.SLOT.ACT_AT slot m.t.toNat) 0

/-- A fragment of a reserve (R274). -/
def Dev.reserveFrag (d : Dev) (m : ServiceMsg) : Dev :=
  let site := m.site.toNat
  let txn := m.txn.toNat
  let frag := (m.frag.toNat, slice m.data 0 208)
  let was := d.reserves.find? (fun r => r.site == site && r.txn == txn)
  let old := was.map (·.frags)
  let frs : List (Nat × List Byte) := match old with
    | none => [frag]
    | some l => if l.any (fun x => x.1 == frag.1) then l else l ++ [frag]
  let others := d.reserves.filter (fun (r : ReserveX) => !(r.site == site && r.txn == txn))
  if m.nfrag ≠ 5 ∨ 5 ≤ frag.1 ∨ m.dlen ≠ 208 then d
  else if frs.length = 5 then
    ({ d with reserves := others } : Dev).reserveWhole m
      ((List.range 5).flatMap (fun i => ((frs.find? (fun x => x.1 == i)).map (·.2)).getD []))
  else { d with reserves := others ++ [{ txn := txn, site := site, frags := frs, since := (was.map (·.since)).getD d.now }] }

/-- A service message that names a peer of the plan and passes its tag (R274): more than 208 data bytes discard it. -/
def Dev.service (d : Dev) (m : ServiceMsg) (tagOk : Bool) (g : Dev → Dev) : Dev :=
  d.fromPeer m.site.toNat m.gwId.toNat tagOk (fun _ a => if m.dlen.toNat ≤ 208 then g a else a)

/-- PUB_RESERVE_RECEIVE (R147, R274). -/
def execPubReserveReceive (m : ServiceMsg) (tagOk : Bool) (s : State) : Res :=
  .next (s.onDev (fun d => d.service m tagOk (fun a => a.reserveFrag m)))

/-- PUB_ANSWER_RECEIVE (R147, R150). -/
def execPubAnswerReceive (m : ServiceMsg) (tagOk : Bool) (s : State) : Res :=
  .next (s.onDev (fun d => d.service m tagOk (fun a =>
    match a.pub a.site m.txn.toNat with
    | none => a
    | some p =>
      if p.own && p.decided == 0 && p.peers.contains m.site.toNat && !p.answers.any (fun x => x.1 == m.site.toNat) then
        (a.updPub a.site m.txn.toNat (fun q => { q with answers := q.answers ++ [(m.site.toNat, m.status.toNat)] })).pubDecide a.site m.txn.toNat
      else a)))

/-- PUB_COMMIT_RECEIVE (R147, R148): every copy is acknowledged. -/
def execPubCommitReceive (m : ServiceMsg) (tagOk : Bool) (s : State) : Res :=
  .next (s.onDev (fun d => d.service m tagOk (fun a =>
    let a1 := a.updPub m.site.toNat m.txn.toNat (fun q => if q.own then q else { q with decided := 1 })
    a1.send m.site.toNat (.service 6 { m with site := BitVec.ofNat 5 a.site, gwId := a.gwId, status := 0 }))))

/-- PUB_ABORT_RECEIVE (R147): a reserve held is dropped and PEND clears; every copy is acknowledged. -/
def execPubAbortReceive (m : ServiceMsg) (tagOk : Bool) (s : State) : Res :=
  .next (s.onDev (fun d => d.service m tagOk (fun a =>
    let a1 := match a.pub m.site.toNat m.txn.toNat with
      | none => a
      | some p => if p.own || p.decided != 0 then a else (a.set R.SLOT.PEND p.slot 0).delPub p.site p.txn
    a1.send m.site.toNat (.service 6 { m with site := BitVec.ofNat 5 a.site, gwId := a.gwId, status := 0 }))))

/-- PUB_COMMIT_ACK_RECEIVE (R150). -/
def execPubCommitAckReceive (m : ServiceMsg) (tagOk : Bool) (s : State) : Res :=
  .next (s.onDev (fun d => d.service m tagOk (fun a =>
    match a.pub a.site m.txn.toNat with
    | none => a
    | some p =>
      if p.own && p.decided != 0 && !p.acks.contains m.site.toNat then
        (a.updPub a.site m.txn.toNat (fun q => { q with acks := q.acks ++ [m.site.toNat] })).pubSettle a.site m.txn.toNat
      else a)))

/-- RESERVE_DISCARD (R274): 100 ms after its first fragment a reserve that is not whole is discarded, of whatever site the number is. -/
def execReserveDiscard (txn : BitVec 32) (s : State) : Res :=
  .next (s.onDev (fun d => { d with reserves := d.reserves.filter (fun (r : ReserveX) =>
    !(r.txn == txn.toNat && decide (100000000 ≤ d.since r.since))) }))

/-! ### Installation and activation (R148) -/

/-- CODEC_INSTALL: a committed image is installed once REF of its version is 0; with ACTIVATE = 0, or past ACTIVATE (a late activation),
it becomes active at once. -/
def execCodecInstall (slot : Fin 8192) (s : State) : Res :=
  .next (s.onDev (fun d =>
    match d.pubOf slot with
    | none => d
    | some p =>
      if p.decided = 1 ∧ !p.installed ∧ d.f (refFld p.ver) slot = 0 then
        let q := { p with installed := true }
        let d1 := (d.setSlotImg slot p.ver p.img).updPub p.site p.txn (fun x => { x with installed := true })
        let d2 := (d1.set (if p.ver = 0 then R.SLOT.OK0 else R.SLOT.OK1) slot 1)
        let d3 := d2.unstage slot (fun v => v == p.ver)
        if p.act = 0 then d3.pubActivate q
        else if diff40 p.act d3.ns40 < 0 then (d3.bump R.CODEC_LATE_ACT.LATE_ACT 0).pubActivate q
        else d3
      else d))

/-- CODEC_ACTIVATE: at ACTIVATE an installed version becomes active. -/
def execCodecActivate (slot : Fin 8192) (s : State) : Res :=
  .next (s.onDev (fun d =>
    match d.pubOf slot with
    | none => d
    | some p => if p.installed ∧ d.on R.SLOT.PEND slot ∧ (p.act = 0 ∨ diff40 p.act d.ns40 ≤ 0) then d.pubActivate p else d))

/-! ### Delta releases (R44) -/

/-- Free this end of a delta slot and send its release to the receiver; a receiver at this site frees at once (R44). -/
def Dev.deltaRelease (d : Dev) (s : Nat) : Dev :=
  let d0 := (d.setWord (tblKey 5 s 0) 0).setWord (tblKey 5 s 1) 0
  match d.deltaOut s with
  | none => d0
  | some x =>
    let d1 := d.snapGive x
    let d2 := (d1.setWord (tblKey 5 s 0) 0).setWord (tblKey 5 s 1) 0
    let d3 := { d2 with deltasOut := d2.deltasOut.filter (fun (y : DeltaOut) => y.slot != s) }
    let jid := d.f R.JOB.JOB_ID (d.f R.DELTA.JOB s)
    if x.site = d.site then
      match d3.deltaIn x.site jid x.rank x.win x.roff with
      | some y => d3.deltaInFree y
      | none => d3
    else
      let m : ServiceMsg :=
        { site := BitVec.ofNat 5 d.site, status := 0, id := BitVec.ofNat 32 jid, key := BitVec.ofNat 32 x.rank, t := 0, v := false, slot := 0,
          frag := 0, nfrag := 1, dlen := 8, gwId := d.gwId, txn := 0, data := releaseData x.win x.roff }
      { d3 with anchorQ := d3.anchorQ ++ [(x.site, .service 7 m)] }

/-- DELTA_RELEASE_RECEIVE (R44): the snapshot named is freed; a release already handled gets the same answer. -/
def execDeltaReleaseReceive (m : ServiceMsg) (tagOk : Bool) (s : State) : Res :=
  .next (s.onDev (fun d => d.service m tagOk (fun a =>
    let win := ofBE (slice m.data 0 2)
    let off := ofBE (slice m.data 2 5)
    let a1 := match a.deltaIn m.site.toNat m.id.toNat (m.key.toNat % 2 ^ 22) win off with
      | some y => a.deltaInFree y
      | none => a
    a1.send m.site.toNat (.service 8 { m with site := BitVec.ofNat 5 a.site, gwId := a.gwId }))))

/-- DELTA_RELEASE_ACK_RECEIVE (R44): the release is not repeated any more, and a DELTA_PUT that waited for it starts. -/
def execDeltaReleaseAckReceive (m : ServiceMsg) (tagOk : Bool) (s : State) : Res :=
  .next (s.onDev (fun d => d.service m tagOk (fun a =>
    let win := ofBE (slice m.data 0 2)
    let off := ofBE (slice m.data 2 5)
    let a1 := { a with anchorQ := a.anchorQ.filter (fun (e : Nat × Ctl) =>
      !(e.1 == m.site.toNat && e.2.releases m.id.toNat m.key.toNat win off)) }
    ((a1.ops.filter (fun o => o.waits && o.d.opcode == 7 && o.site == m.site.toNat)).map a1.opKey).eraseDups.foldl (fun (b : Dev) k =>
      match b.ctxOf k with | some c => b.relaunch c | none => b) a1)))

/-- A peer cannot be reached any more: the snapshots kept for it are freed; a release of this end toward it goes on being repeated until it is
answered (R44). -/
def Dev.deltaPeerLost (d : Dev) (site : Nat) : Dev :=
  (d.deltasIn.filter (fun x => x.site == site)).foldl (fun (a : Dev) x => a.deltaInFree x) d

end Sys2Proof.Machine
end

