-- ==== Sys2Proof/Machine/Anchors.lean ====
section
/-! DEFINITION. Anchor visits (R204, R216, R221, R222, R258, R260): the anchor carrier of an engine turns to the next site of its rota, and
what is repeated in every visit is queued there. -/

namespace Sys2Proof.Machine

open Sys2Proof

/-! ### Anchor visits (R204, R221, R222, R229, R234, R237, R258, R260, R385) -/

/-- Queue a message unless the same one still waits. -/
def Dev.sendOnce (d : Dev) (site : Nat) (c : Ctl) : Dev := if d.ctlQ.contains (site, c) then d else d.send site c

/-- PATH_REPORT about the light that the anchor of plane q heard last from a site (R260); from one not heard yet its values are 0 (log
entry 106). -/
def Dev.pathReport (d : Dev) (q site : Nat) : PathReport :=
  let none_ : PathReport := { site := 0, plane := 0, colour := BitVec.ofNat 7 ((catAnchorRx d.cat q site).getD 0), cd := 0, dgd := 0,
                              osnr := 0, qmarg := 0, rxPow := 0, gwId := 0 }
  let r := ((d.heard.find? (fun e => e.1 == 32 * q + site)).map (·.2)).getD none_
  { r with site := BitVec.ofNat 5 d.site, plane := BitVec.ofNat 3 q, gwId := d.gwId }

/-- The report of plane q to a site takes the place of one that still waits. -/
def Dev.queueReport (d : Dev) (q site : Nat) : Dev :=
  let old := fun (e : Nat × Ctl) => e.1 == site && (match e.2 with | .pathReport r => r.plane.toNat == q | _ => false)
  ({ d with ctlQ := d.ctlQ.filter (fun e => !old e) } : Dev).send site (.pathReport (d.pathReport q site))

/-- The NOTE of engine e's anchor to a site takes the place of one that still waits (R385). -/
def Dev.queueNote (d : Dev) (e site : Nat) (m : NoteMsg) : Dev :=
  let old := fun (c : Nat × Ctl) => c.1 == site && (match c.2 with | .note q _ => q == e | _ => false)
  ({ d with ctlQ := d.ctlQ.filter (fun c => !old c) } : Dev).send site (.note e m)

/-- The sites whose peers satisfy a test, as a mask. -/
def Dev.siteMask (d : Dev) (t : Nat → Bool) : Nat :=
  ((List.range d.sites).filter (fun s => match d.peerOf s with | some p => t p | none => false)).foldl (fun a s => a + 2 ^ s) 0

/-- NOTE.SUSPECT and NOTE.LOST (Tables 14.5 and 14.6). -/
def Dev.noteMsg (d : Dev) : NoteMsg :=
  { site := BitVec.ofNat 5 d.site, suspect := BitVec.ofNat 32 (d.siteMask (fun p => d.f R.HEALTH_PEER.STATE p == 1)),
    lost := BitVec.ofNat 32 (d.siteMask (fun p => d.f R.HEALTH_PEER.STATE p == 2 && (d.peer p).lostBit)), gwId := d.gwId }

/-- ANNOUNCE for each pending item, CANCEL for each cancelled one (R237, R238). -/
def Dev.planNews (d : Dev) : List Ctl :=
  (match d.catPending with
    | some c => [Ctl.plan 1 (d.planMsg 0 1 (catPlan c) (d.f R.CAT_STATE.ACT_AT) 0 false (orderPrint c))]
    | none => []) ++
  (if d.on R.ITIN_STATE.PEND then [Ctl.plan 1 (d.planMsg 0 2 (d.f R.ITIN_ID.PEND_ID) (d.f R.ITIN_STATE.ACT_AT) 0 false 0)] else []) ++
  (d.cancelTx.filter (fun c => decide (d.tai < c.stop))).map (fun c =>
    Ctl.plan 2 (d.planMsg 0 (if c.kind = .catalogue then 1 else 2) c.id c.t 0 false c.orderPrint))

/-- PARK_CANCEL and RETURN toward a site (R229, R234). -/
def Dev.carrierNews (d : Dev) (site : Nat) : List Ctl :=
  (d.parkTx.filter (fun p => d.txSite p.m == some site && decide (d.tai < p.stop))).map (fun p =>
    Ctl.plan 3 (d.planMsg (carrierEngine p.m) 0 0 p.c (((d.sched p.m).tx).getD 0) false 0)) ++
  (d.returnsTx.filter (fun r => r.site == site && !r.acked)).map (fun r =>
    Ctl.plan 4 (d.planMsg (carrierEngine r.m) 0 0 r.t r.colour false 0))

/-- Cut and lost windows of one rota, counted once a rota at its first visit in the CAT_ANCHOR of each plane whose anchor listens (R222; that
p is the plane is DEDUCED, log entry 113); every plane has the same windows, and on point-to-point none overlap. -/
def Dev.countWindows (d : Dev) : Dev :=
  let rota := d.tai / (20000 * (d.sites - 1))
  if d.rotaDone = some rota ∨ catTopo d.cat = 1 then d
  else
    let w := d.listenWindows
    let last := (w.getLast?.map (fun x => x.1 + 20000 - 20000 * (d.sites - 1))).getD 0
    let cut := cutWindows last w
    let lost := (cut.filter (·.2)).length
    ((List.range 8).filter (fun e => d.carOn (16 * e) && d.faOk e)).foldl (fun (acc : Dev) e =>
      (acc.bump R.CAT_ANCHOR.LOST e lost).bump R.CAT_ANCHOR.TRUNC e (cut.length - lost)) { d with rotaDone := some rota }

/-- The anchor transmitter of engine e turns to the site of its visit, whose first ANCHOR_GUARD µs carry no messages (R216, R221,
R258): one that the end of the last visit cuts short is lost (log entry 50). -/
def Dev.anchorTurn (d1 : Dev) (e site : Nat) : Dev :=
  let m := 16 * e
  let v := d1.tai / 20000
  let d := if (d1.kwOf m).leadFor = some v then d1 else d1.ownPulse e v (d1.now - d1.tai % 20000)
  let tx := (catAnchorTx d.cat e site).getD 0
  let ends := d.now + 1000 * d.anchorGuard - d.tai % 20000
  let d0 := (d.onKw m (fun x => { x with txGuard := true, txGuardEnd := ends, visitAt := some (d.tai / 20000) })).onLine m
    (fun x => { x with ctlRest := [] })
  if (d.kwOf m).txLit && d.f R.KW_CAR_STATE.TX_COL m == tx then d0
  else (d0.startTx m).rebase m

/-- Cancellations whose time is over are forgotten: a CANCEL at its ACTIVATE (R238), a PARK_CANCEL at C + LAG once its PARK is no longer to
come (R234). -/
def Dev.cancelsOver (d : Dev) : Dev :=
  { d with cancelTx := d.cancelTx.filter (fun (c : CancelTx) => decide (d.tai < c.stop)),
           parkTx := d.parkTx.filter (fun (p : ParkCancel) => decide (d.tai < p.stop) || (d.parksAhead p.m 0).any (fun e => parkC e == p.c)),
           parkRx := d.parkRx.filter (fun (p : ParkCancel) => (d.parksAhead p.m 1).any (fun e => parkC e == p.c)) }

/-- ANCHOR_VISIT of engine e: the visit begins. Its guard carries frames without messages; then MARK, ECHO, QUAL, PATH_REPORT, NOTE and
the messages that wait for a visit leave. -/
def Dev.anchorVisit (d : Dev) (e : Nat) : Dev :=
  match d.anchorSite e with
  | none => d
  | some site =>
    match d.peerOf site with
    | none => d
    | some p =>
      let d1 := (d.cancelsOver.countWindows.anchorTurn e site).listen (16 * e)
      let d2 := d1.onLine (16 * e) (fun x => { x with timeQ := [(p, 1), (p, 2), (p, 3)] })
      let d3 := d2.queueReport e site
      let d5 := d3.queueNote e site d3.noteMsg
      let news := d5.planNews ++ d5.carrierNews site ++ (d5.anchorQ.filter (fun a => a.1 == site)).map (·.2) ++
        d5.pubNews site
      let d6 := news.foldl (fun (acc : Dev) c => acc.sendOnce site c) d5
      let d7 := { d6.pubSent site with
        endNotices := d6.endNotices.map (fun (n : EndNotice) => if n.engine = e then { n with due := n.site == site, ahead := d.ctlQ.filter (fun c => c.1 == site) } else n) }
      d7

/-- ANCHOR_VISIT: anchors run with CAT_CTL.ENABLE = 1; a visit begins once (R221). -/
def execAnchorVisit (e : Fin 8) (s : State) : Res :=
  .next (s.onDev (fun d =>
    if d.on R.CAT_CTL.ENABLE && d.carOn (16 * e.val) && d.faOk e && (d.kwOf (16 * e.val)).visitAt != some (d.tai / 20000) then
      d.anchorVisit e
    else d))

end Sys2Proof.Machine
end

