-- ==== Sys2Proof/Machine/Submission.lean ====
section
/-! DEFINITION. Descriptors from their start to their completion records (R20 to R45, R50, R52, R57, R62, R65, R109, R146, R224, R236,
R403): one command per opcode and kind starts the descriptor at the front of a ring. -/

namespace Sys2Proof.Machine

open Sys2Proof

/-! ### Checks on descriptor fields (R29 step 2, R52, R62) -/

/-- A check that fails answers its status and DETAIL. -/
abbrev Check := Option Verdict

/-- The first check of a list that fails. -/
def firstBad (l : List (Bool × Verdict)) : Check := (l.find? (·.1)).map (·.2)

/-- The opcodes of Table 1.9. -/
def knownOpcode (o : Nat) : Bool := o ≤ 7 || o == 0x10 || o == 0x20

/-- LENGTH is used (R31). -/
def usesLength (o : Nat) : Bool := o == 1 || o == 2 || o == 3 || o == 7 || o == 0x10 || o == 0x20

/-- A reserved bit of Tables 2.1 and 2.2 is set (R52). -/
def Desc.reservedSet (x : Desc) : Bool :=
  bitsOf x.w0 20 12 != 0 || bitsOf x.w1 38 26 != 0 || bitsOf x.w3 40 24 != 0 || bitsOf x.w4 40 24 != 0 || bitsOf x.w7 14 50 != 0 ||
  (x.opcode == 0x10 && (bitsOf x.w5 19 5 != 0 || bitsOf x.w6 32 32 != 0)) || (x.opcode == 0x20 && bitsOf x.w5 13 11 != 0)

/-- Format and operation are refused together (R33, R39, Table 3.4). -/
def Desc.fmtBad (x : Desc) : Bool :=
  match x.opcode with
  | 0x03 => !((x.format ≤ 0xC && x.redop ≤ 2) || (9 ≤ x.format && x.format ≤ 0xC && 4 ≤ x.redop && x.redop ≤ 6))
  | 0x07 => !(x.format ≤ 2 || (9 ≤ x.format && x.format ≤ 0xC))
  | 0x10 =>
    !((x.format ≤ 8 && x.redop ≤ 3) || (9 ≤ x.format && x.format ≤ 0xC && (x.redop ≤ 2 || (4 ≤ x.redop && x.redop ≤ 6))) ||
      (x.format == 0xD && (x.redop == 0 || x.redop == 3)))
  | _ => false

/-- A length or an offset is misaligned (R33, R35, R79), or the LENGTH of a codec table differs from 1,040 (R146). -/
def Desc.alignBad (x : Desc) : Bool :=
  let u := unitBytes x.format
  match x.opcode with
  | 0x03 => x.len % u != 0 || x.loff % u != 0 || x.roff % u != 0
  | 0x10 => x.len % u != 0 || x.loff % u != 0 || x.roff % u != 0
  | 0x04 => x.roff % 8 != 0
  | 0x05 => x.roff % 8 != 0
  | 0x20 => x.kind == 0 && x.len != 1040
  | _ => false

/-- A reserved SUBOP, KIND or CHUNK_LOG. -/
def Desc.subBad (x : Desc) : Bool :=
  match x.opcode with
  | 0x04 => 5 ≤ x.subop
  | 0x06 => 2 ≤ x.subop
  | 0x10 => 4 ≤ x.kind || x.chunkLog == 7
  | 0x20 => 3 ≤ x.kind
  | _ => false

/-- The sites of a tour set entry (Table 4.2): O[0] to O[N−1]. -/
def Dev.tourOrder (d : Dev) (ts : Nat) : List Nat :=
  (List.range (2 ^ d.f R.TOURSET.N_LOG ts)).map (fun i =>
    if i < 12 then d.f R.TOURSET.ORDER_A ts / 2 ^ (5 * i) % 32
    else if i < 24 then d.f R.TOURSET.ORDER_B ts / 2 ^ (5 * (i - 12)) % 32
    else d.f R.TOURSET.ORDER_C ts / 2 ^ (5 * (i - 24)) % 32)

/-- The collective of a COLL_ID differs from a descriptor in a field that R110 covers. -/
def Coll.differs (c : Coll) (d : Dev) (x : Desc) : Bool :=
  !(c.print == d.f R.TOURSET.PRINT x.tourSet && c.len == x.len && c.start == x.start && c.fmt == x.format && c.redop == x.redop &&
    c.sr == x.sr && c.kind == x.kind && c.chunkLog == x.chunkLog && (x.kind != 3 || c.root == x.rank))

/-- The descriptor checks of a COLLECTIVE (R108, R109), after the common ones. -/
def Dev.collCheck (d : Dev) (n : Nat) (x : Desc) : List (Bool × Verdict) :=
  let t := d.f R.SQ_CTL.TENANT n
  let j := d.f R.SQ_BIND.JOB n
  let ts := x.tourSet
  let e := d.regIndex j x.rank
  let same := match d.coll x.collId with
    | some c => c.admitted || c.ended.isSome || c.job != j || c.members.any (fun k => k.rank == d.f R.SQ_BIND.RANK n) ||
        decide (c.nlocal ≤ c.members.length)
    | none => false
  [(1024 ≤ ts || !d.on R.TOURSET.VALID ts || d.f R.TOURSET.TENANT ts != t, ⟨0x01, 0x00⟩),
   (x.kind == 3 && (decide (d.f R.JOB.RANKS j ≤ x.rank) || !(d.tourOrder ts).contains (d.f R.REGISTRAR.SITE e)), ⟨0x01, 0x06⟩),
   (same, ⟨0x01, 0x00⟩),
   ((match d.coll x.collId with | some c => c.differs d x | none => false), ⟨0x01, 0x00⟩)]

/-- The descriptor fits the binding of its delta slot (R40). -/
def Dev.deltaFits (d : Dev) (n : Nat) (x : Desc) (s : Nat) : Bool :=
  d.f R.DELTA.JOB s == d.f R.SQ_BIND.JOB n && d.f R.DELTA.RANK s == x.rank && d.f R.DELTA.FORMAT s == x.format && d.f R.DELTA.LEN s == x.len &&
    (match d.deltaOut s with | some y => y.rord == x.rord && y.lord == x.lord && y.roff == x.roff && y.loff == x.loff | none => false)

/-- The slot checks of a DELTA_PUT (R39, R40); a slot that another DELTA_PUT holds gives BUSY, and one past slot 16,383 ACCESS_DENIED (DESIGN
CHOICE, log entry 19). -/
def Dev.deltaCheck (d : Dev) (n : Nat) (x : Desc) : List (Bool × Verdict) :=
  let t := d.f R.SQ_CTL.TENANT n
  let s := d.f R.TENANT.DELTA_BASE t + x.dslot
  let st := d.f R.DELTA.STATE s
  [(d.f R.TENANT.DELTA_COUNT t ≤ x.dslot || decide (16384 ≤ s), ⟨0x03, 0x00⟩),
   (st != 0 && !d.deltaFits n x s, ⟨0x01, 0x00⟩),
   (st == 3, ⟨0x12, 0x00⟩)]

/-- R29 steps 1 and 2 in the order of R62. -/
def Dev.fieldCheck (d : Dev) (n : Nat) (x : Desc) : Check :=
  let t := d.f R.SQ_CTL.TENANT n
  firstBad ([(d.on R.TENANT.QUAR t, ⟨0x11, 0x00⟩), (!d.on R.TENANT.ENABLE t, ⟨0x03, 0x00⟩),
    (!knownOpcode x.opcode, ⟨0x01, 0x01⟩),
    (x.opcode == 0x20 && d.f R.TENANT.FUNC t != 0, ⟨0x03, 0x08⟩),
    (x.reservedSet, ⟨0x01, 0x02⟩), (x.subBad, ⟨0x01, 0x07⟩),
    (usesLength x.opcode && x.len == 0, ⟨0x01, 0x03⟩), (x.fmtBad, ⟨0x01, 0x04⟩), (x.alignBad, ⟨0x01, 0x05⟩),
    (x.opcode == 0x20 && x.kind != 0 && x.activate == 0, ⟨0x01, 0x00⟩)] ++
    (if x.opcode = 0x10 then d.collCheck n x else []) ++ (if x.opcode = 0x07 then d.deltaCheck n x else []))

/-! ### Translation (R23) -/

/-- The checks of one translation. -/
def Dev.xlatCheck (d : Dev) (n r : Nat) (ords : List Nat) (own : Bool) : Check :=
  let j := d.f R.SQ_BIND.JOB n
  let e := d.regIndex j r
  firstBad [(!d.on R.JOB.VALID j || d.f R.JOB.TENANT j != d.f R.SQ_CTL.TENANT n, ⟨0x03, 0x00⟩),
    (decide (d.f R.JOB.RANKS j ≤ r), ⟨0x01, 0x06⟩),
    (ords.any (fun w => decide (d.f R.JOB.ORDS j ≤ w)), ⟨0x01, 0x06⟩),
    (own && !d.ownRankHere j r, ⟨0x03, 0x09⟩),
    (!own && !(d.on R.REGISTRAR.VALID e && d.f R.REGISTRAR.RAIL e == d.f R.GLOBAL_LOC.RAIL), ⟨0x03, 0x00⟩)]

/-- The window index of an ordinal of a rank. -/
def Dev.xlatWin (d : Dev) (n r ord : Nat) : Nat := (d.f R.REGISTRAR.WIN_BASE (d.regIndex (d.f R.SQ_BIND.JOB n) r) + ord) % 65536

/-- Ordinals of the own windows of an opcode (Table 1.13). -/
def Desc.ownOrds (x : Desc) : List Nat :=
  match x.opcode with
  | 0x01 => [x.lord]
  | 0x02 => [x.lord]
  | 0x03 => [x.lord]
  | 0x07 => [x.lord]
  | 0x10 => [x.lord, x.rord]
  | 0x20 => [x.lord]
  | _ => []

/-- Translations in their order (R29 step 3). -/
def Dev.xlatChecks (d : Dev) (n : Nat) (x : Desc) : Check :=
  let own := d.f R.SQ_BIND.RANK n
  if x.opcode = 0 then none
  else if x.opcode = 6 then
    if x.subop % 2 = 0 ∧ d.f R.JOB.RANKS (d.f R.SQ_BIND.JOB n) ≤ x.rank then some ⟨0x01, 0x06⟩ else none
  else match d.xlatCheck n own x.ownOrds true with
    | some v => some v
    | none => if hasTarget x.opcode then d.xlatCheck n x.rank [x.rord] false else none

/-! ### Windows (R29 steps 4 and 5, R403) -/

/-- The checks of one own window: access and right, then bounds; a window that is not read has the first only. -/
def Dev.ownWinCheck (d : Dev) (n w ord : Nat) (right : Option Nat) (token : Option Nat) (off len : Nat) : Check :=
  let t := d.f R.SQ_CTL.TENANT n
  let j := d.f R.SQ_BIND.JOB n
  firstBad [(!(d.on R.WINDOW.VALID w && d.f R.WINDOW.TENANT w == t && d.f R.WINDOW.JOB w == j && d.f R.WINDOW.ORD w == ord), ⟨0x03, 0x12⟩),
    ((match right with | some b => !(d.f R.WINDOW.RIGHTS w).testBit b | none => false), ⟨0x03, 0x12⟩),
    ((match token with | some k => d.f R.WINDOW.TOKEN w != k | none => false), ⟨0x03, 0x12⟩),
    (right.isSome && decide (d.f R.WINDOW.LEN w < off + len), ⟨0x02, 0x10⟩)]

/-- The own windows of a descriptor in the order of Table 1.13. -/
def Dev.ownWins (d : Dev) (n : Nat) (x : Desc) : Check :=
  let w := fun ord => d.xlatWin n (d.f R.SQ_BIND.RANK n) ord
  let l := fun right => d.ownWinCheck n (w x.lord) x.lord right none x.loff x.len
  match x.opcode with
  | 0x01 => l (some 0)
  | 0x02 => l (some 1)
  | 0x03 => l (some 0)
  | 0x07 => l (some 0)
  | 0x20 => l (some 0)
  | 0x10 =>
    match l (if x.kind = 3 ∧ x.rank ≠ d.f R.SQ_BIND.RANK n then none else some 0) with
    | some v => some v
    | none => d.ownWinCheck n (w x.rord) x.rord (some 2) (some x.token) x.roff x.len
  | _ => none

/-- The remote bounds and right against the job layout (R29 step 5). -/
def Dev.remoteCheck (d : Dev) (n : Nat) (x : Desc) : Check :=
  if hasTarget x.opcode then
    let k := d.f R.SQ_BIND.JOB n * 64 + x.rord
    let len := if x.opcode = 0x04 ∨ x.opcode = 0x05 then 8 else x.len
    firstBad [(decide (d.f R.LAYOUT.LEN k < x.roff + len), ⟨0x02, 0x11⟩), (!(d.f R.LAYOUT.RIGHTS k).testBit (rightOf x.opcode), ⟨0x03, 0x00⟩)]
  else none

/-! ### TABLE_PUBLISH (R29 step 6) -/

/-- The image a TABLE_PUBLISH names, as it stands in memory now. -/
def Dev.pubImage (d : Dev) (n : Nat) (x : Desc) (m : List Host.Cell) : List Byte :=
  memRead m (d.winKey (d.xlatWin n (d.f R.SQ_BIND.RANK n) x.lord) x.loff) x.len

/-- The checks of R146 that read the image or the slot. -/
def Dev.codecCheck (d : Dev) (slot act : Nat) (img : List Byte) : Check :=
  let jobOk := d.on R.SLOT.VALID slot && d.f R.JOB.JOB_ID (d.f R.SLOT.JOB slot) == imgJob img
  firstBad [(!imgOk img || !jobOk || !d.slotFits slot (d.f R.SLOT.JOB slot) img, ⟨0x01, 0x00⟩), (d.on R.SLOT.PEND slot, ⟨0x12, 0x00⟩),
    (act != 0 && d.tooLate act, ⟨0x0E, 0x00⟩)]

/-- The checks on image and table state of a TABLE_PUBLISH. -/
def Dev.pubChecks (d : Dev) (n : Nat) (x : Desc) (m : List Host.Cell) : Check :=
  if x.opcode ≠ 0x20 then none
  else
    let img := d.pubImage n x m
    match x.kind with
    | 0 => d.codecCheck x.pubSlot x.activate img
    | 1 => d.catCheck img x.pubSlot x.activate
    | _ => d.pageCheck img x.pubSlot x.activate

/-- Every check of R29 before admission, in the order of R62. -/
def Dev.submitCheck (d : Dev) (n : Nat) (x : Desc) (m : List Host.Cell) : Check :=
  (d.fieldCheck n x).orElse (fun _ => (d.xlatChecks n x).orElse (fun _ => (d.ownWins n x).orElse (fun _ =>
    (d.remoteCheck n x).orElse (fun _ => d.pubChecks n x m))))

/-! ### Admission -/

/-- A PINNED tenant has no OPEN or ACCEDING context for a key (R157). -/
def Dev.pinnedOut (d : Dev) (k : CtxKey) (t : Nat) : Bool :=
  !d.on R.TENANT.PLACE_MODE t && (match d.ctxOf k with
    | some c => (d.ctx c).state != .opened && (d.ctx c).state != .acceding
    | none => true)

/-- Admission of an operation with a target rank: at this site it starts at once (R24); otherwise it needs its context (R157, R162), and
does not pass operations that already wait for that context (R45). -/
def Dev.admitTarget (d : Dev) (n i : Nat) : Dev :=
  match d.getOp n i with
  | none => d
  | some o =>
    if o.stage ≠ .waiting then d
    else if o.site = d.site then d.launchLocal o
    else
      let k := d.opKey o
      if d.pinnedOut k (d.opTenant o) then d.refuseOp n i 0x03
      else match d.ctxOf k with
      | none => d.wantCtx k (d.homeOf k)
      | some c =>
        if (d.ctx c).state = .opened then d.launchNext c o else d

/-- Quarter and stack of an operation's snapshot (R49, R179): a PINNED tenant's stand on its context; a PLACED tenant's home is chosen, and
its stack with it. Toward a rank of this site there is no context, and the spec names no quarter (DESIGN CHOICE, log entry 89). -/
def Dev.snapPlace (d : Dev) (o : Op) : Nat × Nat :=
  if o.site = d.site then (d.enabledWings.headD 0, 0)
  else match d.on R.TENANT.PLACE_MODE (d.opTenant o), d.ctxOf (d.opKey o) with
    | false, some c => ((d.ctx c).home, (d.ctx c).stack)
    | _, _ => (d.homeOf (d.opKey o), 0)

/-- Bind a delta slot at the first DELTA_PUT on it, or use it (R40, R42): the slot is BUSY while the operation runs. A snapshot whose stack
failed is placed again (R180). -/
def Dev.deltaTake (d : Dev) (n i : Nat) (o : Op) : Dev :=
  let x := o.d
  let t := d.opTenant o
  let s := d.deltaSlot o
  let st := d.f R.DELTA.STATE s
  let pages := ceilDiv x.len 65536
  let hold := fun (a : Dev) => (a.set R.DELTA.STATE s 3).updOp n i (fun o => { o with dwin := s + 1, resync := decide (st = 2) })
  let q := d.snapPlace o
  let mirror := d.on R.STREAM_DFLT.MIRROR
  let place := d.annexPlace t q.1 pages mirror (d.on R.TENANT.PLACE_MODE t) q.2
  if st ≠ 0 then
    if !d.deltasOut.any (fun y => y.slot == s && y.lost) then hold d
    else match place with
      | none => d.refuseOp n i 0x05
      | some (d1, a, _) =>
        hold { d1 with deltasOut := d1.deltasOut.map (fun (y : DeltaOut) =>
          if y.slot = s then { y with stack := a, mirror := mirror, lost := false } else y) }
  else
    match place with
    | none => d.refuseOp n i 0x05
    | some (d1, a, _) =>
      let y : DeltaOut := ⟨s, t, x.rord, x.lord, x.roff, x.loff, d.f R.SQ_BIND.RANK n, o.rwin, o.site, List.replicate x.len 0, a, mirror, true, false⟩
      let d2 := { d1 with deltasOut := d1.deltasOut ++ [y] }
      hold (((((d2.set R.DELTA.FORMAT s x.format).set R.DELTA.JOB s (d.f R.SQ_BIND.JOB n)).set R.DELTA.RANK s x.rank).set R.DELTA.PAGES s pages).set
        R.DELTA.LEN s x.len)

/-- Bind the codec version of an operation toward another site and stage it in the home wing (R140, R142). -/
def Dev.bindOp (d : Dev) (n i : Nat) (o : Op) : Dev :=
  if o.site = d.site ∨ !(o.d.opcode == 0x03 || o.d.opcode == 0x07) then d
  else match d.bindOf (d.f R.SQ_BIND.JOB n) o.d.format o.d.tag with
    | none => d
    | some b =>
      ((d.refTake b).stage (d.opHome o) b.1 b.2 true).1.updOp n i (fun o => { o with bind := some b })

/-- A COLLECTIVE descriptor is held for the admission of its collective (R108). -/
def Dev.collHold (d : Dev) (n i : Nat) (o : Op) : Dev :=
  let x := o.d
  let ts := x.tourSet
  let mem : Member := { ring := n, index := i, rank := d.f R.SQ_BIND.RANK n, srcWin := o.lwin, srcOff := x.loff, dstWin := o.dwin, dstOff := x.roff }
  match d.coll x.collId with
  | some c => d.updColl c.id (fun c => { c with members := c.members ++ [mem] })
  | none =>
    let c : Coll :=
      { id := x.collId, tenant := d.opTenant o, job := d.f R.SQ_BIND.JOB n, ts := ts, nlog := d.f R.TOURSET.N_LOG ts,
        rings := d.f R.TOURSET.RINGS ts, wings := d.f R.TOURSET.WINGS ts, wide := d.f R.TOURSET.PARTIAL ts, nlocal := d.f R.TOURSET.LOCAL ts,
        phase := d.f R.TOURSET.PHASE ts, order := d.tourOrder ts,
        strides := (List.range 8).map (fun r => signed 4 (d.f R.TOURSET.STRIDE ts / 2 ^ (4 * r))), raceK := 0, raceLag := 0,
        print := d.f R.TOURSET.PRINT ts, kind := x.kind, fmt := x.format, redop := x.redop, sr := x.sr, len := x.len, chunkLog := x.chunkLog,
        root := if x.kind = 3 then x.rank else 0,
        rootSite := if x.kind = 3 then d.f R.REGISTRAR.SITE (d.regIndex (d.f R.SQ_BIND.JOB n) x.rank) else 0, start := x.start, seed := 0, members := [mem], admitted := false, started := false, begun := [],
        bind := none, pieces := [], cursor := 0, reader := 0, buf := [], acc := none, reading := false, owed := 0, moved := [],
        ended := none, events := 0, refs := (d.earlyRefs.filter (fun e => e.1 == x.collId)).map (·.2) }
    { d with colls := d.colls ++ [c], earlyRefs := d.earlyRefs.filter (fun (e : Nat × Nat × Nat) => e.1 != x.collId) }

/-- Install a Catalogue version as pending (R236): it stands in the inactive version until its activation. -/
def Dev.catInstall (d : Dev) (slot act : Nat) (img : List Byte) : Dev :=
  let d1 := { d with cats := d.cats.put slot img }
  (((((d1.set R.CAT_STATE.PEND 0 1).set R.CAT_STATE.COMMITTED 0 0).set R.CAT_STATE.ACT_AT 0 act).set R.CAT_ID.PEND_PLAN 0 (catPlan img)).set
    R.CAT_READY.READY 0 0)

/-- Install an Itinerary page as pending (R224). -/
def Dev.pageInstall (d : Dev) (slot act : Nat) (img : List Byte) : Dev :=
  let d1 := { d with pages := d.pages.put slot img }
  (((((d1.set R.ITIN_STATE.PEND 0 1).set R.ITIN_STATE.COMMITTED 0 0).set R.ITIN_STATE.ACT_AT 0 act).set R.ITIN_ID.PEND_ID 0 (pageId img)).set
    R.ITIN_READY.READY 0 0)

/-- An operation that has passed its checks is admitted (R29 step 7). Without running firmware no table is published: the operation stays
(R373; log entry 123). -/
def Dev.admitAt (d : Dev) (n i : Nat) (m : List Host.Cell) : Dev :=
  match d.getOp n i with
  | none => d
  | some o =>
    let x := o.d
    match x.opcode with
    | 0x00 => d.endOp n i 0
    | 0x06 => d
    | 0x10 => d.collHold n i o
    | 0x20 =>
      let img := d.pubImage n x m
      match x.kind with
      | 0 => (d.updOp n i (fun o => { o with stage := .running })).pubStart n i x.pubSlot x.activate (imgJob img) img
      | k =>
        if !d.fwRuns then d.updOp n i (fun o => { o with stage := .running })
        else if k = 1 then (d.catInstall x.pubSlot x.activate img).endOp n i 0
        else (d.pageInstall x.pubSlot x.activate img).endOp n i 0
    | 0x07 =>
      if o.site ≠ d.site ∧ d.pinnedOut (d.opKey o) (d.opTenant o) then d.refuseOp n i 0x03
      else ((d.bindOp n i o).deltaTake n i o).admitTarget n i
    | _ => (d.bindOp n i o).admitTarget n i

/-- The checks of an operation are made now, and it is admitted or completes at once (R62). A mismatch among the held descriptors of a
collective completes all of them, and the gateway withdraws (R109). -/
def Dev.submit (d : Dev) (n i : Nat) (m : List Host.Cell) : Dev :=
  match d.getOp n i with
  | none => d
  | some o =>
    let x := o.d
    match d.submitCheck n x m with
    | some v =>
      let d1 := d.endOp n i v.status v.detail
      if x.opcode = 0x10 ∧ v = ⟨0x01, 0x00⟩ then
        match d.coll x.collId with
        | some c => if (firstBad ((d.collCheck n x).take 3)).isNone && c.differs d x then d1.collFail c.id 0x01 true else d1
        | none => d1
      else d1
    | none =>
      let own := d.f R.SQ_BIND.RANK n
      let e := d.regIndex (d.f R.SQ_BIND.JOB n) x.rank
      let t := d.f R.SQ_CTL.TENANT n
      let d1 := d.updOp n i (fun o => { o with
        stage := .waiting, admitted := true, seed := d.f R.TENANT.SEED t,
        lwin := if x.ownOrds.isEmpty then 0 else d.xlatWin n own x.lord,
        rwin := if hasTarget x.opcode then d.xlatWin n x.rank x.rord else 0,
        dwin := if x.opcode = 0x10 then d.xlatWin n own x.rord else 0,
        site := if hasTarget x.opcode then d.f R.REGISTRAR.SITE e else 0,
        ep := if hasTarget x.opcode then d.f R.REGISTRAR.EP e else 0 })
      d1.admitAt n i m

/-! ### FENCE (R38, R62) -/

/-- An operation is covered by a FENCE that is no FENCE itself. -/
def fenceCovers (f x : Desc) : Bool := x.opcode != 6 && (f.subop % 2 == 1 || (hasTarget x.opcode && x.rank == f.rank))

/-- A FENCE that has passed its checks and has not completed. -/
def Op.fencing (o : Op) : Bool := o.d.opcode == 6 && o.stage == .waiting

/-- A FENCE submitted earlier on the ring holds a descriptor back; `before` are the ring's operations before it. -/
def fenceHeld (before : List Op) (x : Desc) : Bool := before.any (fun f => f.fencing && fenceCovers f.d x)

/-- Operations held back that no FENCE covers any more start and are checked, in ring order (R38, R62). -/
def Dev.releaseHeld (d : Dev) (n : Nat) (m : List Host.Cell) : Dev :=
  (d.opsOf n).foldl (fun (a : Dev) o =>
    match a.getOp n o.index with
    | some p => if p.stage = .held ∧ !fenceHeld (a.opsBefore n p.index) p.d then a.submit n p.index m else a
    | none => a) d

/-- The descriptor of an opcode and kind that no other command starts: an unknown opcode or a reserved KIND. -/
def Desc.orphan (x : Desc) : Bool := !knownOpcode x.opcode || (x.opcode == 0x10 && 4 ≤ x.kind) || (x.opcode == 0x20 && 3 ≤ x.kind)

/-- An operation just taken from its ring: no check has been made. -/
def newOp (n i : Nat) (x : Desc) : Op :=
  { ring := n, index := i, d := x, stage := .held, admitted := false, site := 0, ep := 0, rwin := 0, lwin := 0, dwin := 0, ctx := none, opn := none, asked := 0,
    got := 0, owed := 0, allIn := false, bind := none, seed := 0, resync := false, delta := [], verdict := ⟨0, 0⟩, value := 0, events := 0 }

/-- Start the descriptor at the front of ring n if it is the one a command names: held back by a FENCE it waits, otherwise its checks
are made. -/
def startDesc (n : Nat) (mine : Desc → Bool) (s : State) : State :=
  match (s.dev.ring n).fetched with
  | [] => s
  | (i, x) :: rest =>
    if mine x then
      s.onBoth (fun d m =>
        let before := d.opsOf n
        let d1 := d.setRing n { d.ring n with fetched := rest }
        let d2 := { d1 with ops := d1.ops ++ [newOp n i x] }
        (if fenceHeld before x then d2 else d2.submit n i m, m))
    else s

/-- NOP (R50). A descriptor whose opcode or KIND the spec does not define is started by this command too: it fails its checks. -/
def execNop (n : Fin 4096) (s : State) : Res := .next (startDesc n (fun x => x.opcode == 0 || x.orphan) s)
/-- PUT (R29, R32). -/
def execPut (n : Fin 4096) (s : State) : Res := .next (startDesc n (fun x => x.opcode == 1) s)
/-- GET (R29, R32). -/
def execGet (n : Fin 4096) (s : State) : Res := .next (startDesc n (fun x => x.opcode == 2) s)
/-- PUT_REDUCE (R29, R33). -/
def execPutReduce (n : Fin 4096) (s : State) : Res := .next (startDesc n (fun x => x.opcode == 3) s)
/-- ATOMIC (R29, R35). -/
def execAtomic (n : Fin 4096) (s : State) : Res := .next (startDesc n (fun x => x.opcode == 4) s)
/-- SIGNAL (R29, R37). -/
def execSignal (n : Fin 4096) (s : State) : Res := .next (startDesc n (fun x => x.opcode == 5) s)
/-- FENCE (R29, R38). -/
def execFence (n : Fin 4096) (s : State) : Res := .next (startDesc n (fun x => x.opcode == 6) s)
/-- DELTA_PUT (R29, R39, R40, R42). -/
def execDeltaPut (n : Fin 4096) (s : State) : Res := .next (startDesc n (fun x => x.opcode == 7) s)
/-- COLLECTIVE of KIND 0 (R108, R109). -/
def execAllReduce (n : Fin 4096) (s : State) : Res := .next (startDesc n (fun x => x.opcode == 0x10 && x.kind == 0) s)
/-- COLLECTIVE of KIND 1 (R108, R109). -/
def execReduceScatter (n : Fin 4096) (s : State) : Res := .next (startDesc n (fun x => x.opcode == 0x10 && x.kind == 1) s)
/-- COLLECTIVE of KIND 2 (R108, R109). -/
def execAllGather (n : Fin 4096) (s : State) : Res := .next (startDesc n (fun x => x.opcode == 0x10 && x.kind == 2) s)
/-- COLLECTIVE of KIND 3 (R108, R109). -/
def execBroadcast (n : Fin 4096) (s : State) : Res := .next (startDesc n (fun x => x.opcode == 0x10 && x.kind == 3) s)
/-- TABLE_PUBLISH of KIND 0 (R146, R147). -/
def execTablePublishCodec (n : Fin 4096) (s : State) : Res := .next (startDesc n (fun x => x.opcode == 0x20 && x.kind == 0) s)
/-- TABLE_PUBLISH of KIND 1 (R236). -/
def execTablePublishCatalogue (n : Fin 4096) (s : State) : Res := .next (startDesc n (fun x => x.opcode == 0x20 && x.kind == 1) s)
/-- TABLE_PUBLISH of KIND 2 (R224). -/
def execTablePublishPage (n : Fin 4096) (s : State) : Res := .next (startDesc n (fun x => x.opcode == 0x20 && x.kind == 2) s)

/-- FENCE_RELEASE (R38): the ring's oldest FENCE completes with OK once every earlier operation in its scope and every earlier FENCE has
written its record; what it held back starts and is checked. -/
def execFenceRelease (n : Fin 4096) (s : State) : Res :=
  .next (match (s.dev.opsOf n).find? (·.fencing) with
  | none => s
  | some f =>
    if (s.dev.opsBefore n f.index).any (fun o => o.d.opcode == 6 || fenceCovers f.d o.d) then s
    else s.onBoth (fun d m => ((d.endOp n f.index 0).releaseHeld n m, m)))

/-! ### Completion records (R41, R44, R50, R65, R140, R144) -/

/-- A DELTA_PUT that never took its slot has ended with a failure: a BOUND slot becomes STALE (R42). -/
def Dev.deltaMissed (d : Dev) (o : Op) : Dev :=
  if o.d.dslot < d.f R.TENANT.DELTA_COUNT (d.opTenant o) ∧ d.deltaSlot o < 16384 ∧ d.f R.DELTA.STATE (d.deltaSlot o) = 1 then
    d.set R.DELTA.STATE (d.deltaSlot o) 2 else d

/-- A DELTA_PUT has ended (R40 to R42): the snapshot follows a success; a refusal of the first one for quota leaves the slot EMPTY; any
other status makes it STALE. -/
def Dev.deltaEnd (d : Dev) (o : Op) : Dev :=
  if o.d.opcode ≠ 7 then d
  else if o.dwin = 0 then d.deltaMissed o
  else
    let s := o.dwin - 1
    match d.deltaOut s with
    | none => d
    | some x =>
      if o.verdict.status = 0 ∨ o.verdict.status = 0x10 then
        let new := if o.resync then o.delta else deltaSum d.freeCtr o.d.format x.snap o.delta
        ({ d.usedFree with deltasOut := d.deltasOut.map (fun (y : DeltaOut) => if y.slot = s then { y with snap := new, fresh := false } else y) } : Dev).set
          R.DELTA.STATE s (if x.lost then 2 else 1)
      else if o.verdict.status = 5 ∧ x.fresh ∧ !o.resync then
        let d2 := d.snapGive x
        (({ d2 with deltasOut := d2.deltasOut.filter (fun (y : DeltaOut) => y.slot != s) } : Dev).setWord (tblKey 5 s 0) 0).setWord (tblKey 5 s 1) 0
      else d.set R.DELTA.STATE s 2

/-- The collective has ended and every record of its members is written. -/
def Dev.collOver (d : Dev) (c : Coll) : Bool := c.ended.isSome && !c.members.any (fun k => (d.getOp k.ring k.index).isSome)

/-- A collective that has ended is forgotten once every record of its members is written: the references it holds go back (R140, R141),
the counts of its slot are added (R144), and which of its pieces receipts have shown no longer matters (R122). -/
def Dev.collForget (d : Dev) : Dev :=
  let gone := d.colls.filter d.collOver
  let keep := fun (k : ItemKey) => !gone.any (fun c => k.kind == 3 && k.coll == c.id)
  let d1 := { d with
    colls := d.colls.filter (fun (c : Coll) => !d.collOver c)
    ctxs := if gone.isEmpty then d.ctxs else d.ctxs.map (fun (e : Nat × Ctx) =>
      (e.1, { e.2 with fresh := e.2.fresh.filter (fun f => keep f.2), shownItems := e.2.shownItems.filter keep })) }
  gone.foldl (fun (a : Dev) c =>
    let b := c.refs.foldl (fun (a : Dev) r => a.refDrop r) a
    match c.bind with
    | some r => (b.refDrop r).histFlushAll r.1
    | none => match b.slotFor c.job (partialCode c.fmt c.wide) c.id with
      | some n => b.histFlushAll n
      | none => b) d1

/-- SIGNALs of a ring that waited for an operation toward another site may start (R37). -/
def Dev.signalsGo (d : Dev) (n : Nat) : Dev :=
  ((d.opsOf n).filter (fun p => p.d.opcode == 5 && p.waits)).foldl (fun (a : Dev) p =>
    match a.ctxOf (a.opKey p) with | some c => a.relaunch c | none => a) d

/-- What follows an operation's record: its reservation, its reference, its slot and its context. -/
def Dev.opGone (d : Dev) (o : Op) : Dev :=
  let q := d.f R.SQ_CTL.CQ o.ring
  let d1 := d.drop R.CQ_CREDIT.RESERVED q
  let d2 := { d1 with ops := d1.ops.filter (fun p => !(p.ring == o.ring && p.index == o.index)) }
  let d3 := match o.bind with
    | some b => (d2.refDrop b).histFlushAll b.1
    | none => match d2.slotFor (d.f R.SQ_BIND.JOB o.ring) o.d.format o.d.tag with
      | some n => if o.d.opcode = 3 ∨ o.d.opcode = 7 then d2.histFlushAll n else d2
      | none => d2
  let d4 := ((d3.deltaEnd o).tearEnd o.ring).signalsGo o.ring
  match o.ctx with
  | some c => (d4.settleFailed c).relaunch c
  | none => match d4.ctxOf (d4.opKey o) with
    | some c => if hasTarget o.d.opcode then d4.relaunch c else d4
    | none => d4

/-- The record of an operation (Table 2.7). -/
def Dev.opRec (d : Dev) (o : Op) : Rec :=
  { source := 0, opcode := o.d.opcode, status := o.verdict.status, detail := o.verdict.detail, userTag := o.d.tag, sq := o.ring,
    sqHead := d.f R.SQ_STATE.HEAD o.ring,
    value := if (o.d.opcode = 4 ∨ o.d.opcode = 5) ∧ (o.verdict.status = 0 ∨ o.verdict.status = 0x10) then o.value else 0,
    index := o.index, events := if o.verdict.status = 0x10 then o.events else 0, window := 0, irq := o.d.irq }

/-- Destination ranges at this gateway that an operation's failure leaves undefined (R32, R92, R124): window, offset and bytes. For an
operation toward another site only a GET has its destination here (which ranges of other failures keep their contents: DESIGN CHOICE, log
entry 132). -/
def Dev.undefDest (d : Dev) (o : Op) : List (Nat × Nat × Nat) :=
  if o.d.opcode = 0x10 then
    d.colls.flatMap (fun c => (c.members.filter (fun k => k.ring == o.ring && k.index == o.index)).flatMap (fun k =>
      c.spoil.map (fun r => (k.dstWin, k.dstOff + r.1, r.2))))
  else if !o.admitted || !([0x06, 0x07, 0x08, 0x0A, 0x0B, 0x0C, 0x0D, 0x0F, 0x11, 0x13] : List Nat).contains o.verdict.status then []
  else if o.d.opcode = 2 then [(o.lwin, o.d.loff, o.d.len)]
  else if [1, 3, 7].contains o.d.opcode && o.site == d.site then [(o.rwin, o.d.roff, o.d.len)]
  else []

/-- Those ranges take free bytes. -/
def spoilDest (l : List (Nat × Nat × Nat)) (d : Dev) (m : List Host.Cell) : Dev × List Host.Cell :=
  l.foldl (fun a r => if r.2.2 = 0 then a
    else (a.1.usedFree, memWrite a.2 (a.1.winKey r.1 r.2.1) ((List.range r.2.2).map (Config.freeByte a.1.freeCtr)))) (d, m)

/-- COMPLETION_RECORD_WRITE (R65): the finished operation of a ring and index writes its record and is gone. What its
failure leaves undefined has taken free values by then (R32). -/
def execCompletionRecordWrite (n : Fin 4096) (index : BitVec 32) (writeOk : Bool) (s : State) : Res :=
  .next (match s.dev.getOp n index.toNat with
  | none => s
  | some o =>
    if o.stage = .done ∧ !(s.dev.colls.any (fun c => c.ended.isNone && c.members.any (fun k => k.ring == n.val && k.index == index.toNat))) then
      s.onBoth (fun d m =>
        let a := spoilDest (d.undefDest o) d m
        let r := writeRecord (d.f R.SQ_CTL.CQ n) (d.opRec o) writeOk a.1 a.2
        ((r.1.opGone o).collForget, r.2))
    else s)

/-! ### SQ_ABORT (R57, R59) -/

/-- An operation of an aborted ring ends with ABORTED, one that a FENCE held back with DETAIL 0x40 because it had not started (DESIGN CHOICE,
log entry 22): a collective it belongs to ends, one still held loses it, and one that loses its last descriptor gives back the references
its blocks took (R141). -/
def Dev.abortOp (d : Dev) (o : Op) : Dev :=
  match d.colls.find? (fun c => c.ended.isNone && c.members.any (fun k => k.ring == o.ring && k.index == o.index)) with
  | some c =>
    if c.admitted then (d.endOp o.ring o.index 0x0F).collFail c.id 0x0F true
    else
      let d1 := (d.endOp o.ring o.index 0x0F).updColl c.id (fun c => { c with
        members := c.members.filter (fun (k : Member) => !(k.ring == o.ring && k.index == o.index)) })
      let gone := d1.colls.filter (fun x => !x.admitted && x.members.isEmpty)
      let d2 := { d1 with colls := d1.colls.filter (fun (x : Coll) => x.admitted || !x.members.isEmpty) }
      (gone.map (·.refs)).flatten.foldl (fun (a : Dev) r => a.refDrop r) d2
  | none => d.endOp o.ring o.index 0x0F (if o.admitted then 0 else 0x40)

/-- Tear ring n down (R57): fetching stops, admitted operations and descriptors fetched but not started end with ABORTED; the records of
the others follow one by one. -/
def Dev.ringAbort (d : Dev) (n : Nat) : Dev :=
  let d1 := (((d.dropFetch n).set R.SQ_CTL.ENABLE n 0).set R.SQ_ABORT.ABORT n 1)
  let d2 := (d1.opsOf n).foldl (fun (a : Dev) o => if o.stage = .done then a else a.abortOp o) d1
  let mine := (d2.ring n).fetched.map (fun e => { newOp n e.1 e.2 with stage := .done, verdict := ⟨0x0F, 0x40⟩ })
  let d3 := { d2 with ops := d2.ops ++ mine }
  (d3.setRing n { d3.ring n with fetched := [], tear := 1 }).tearEnd n

/-- SQ_ABORT: a write of 1; while a teardown by SQ_ABORT runs it has no further effect. During a fetch-failure teardown (R58) the records
still owed take DETAIL 0x40 from then on (DESIGN CHOICE, log entry 93). -/
def execSqAbort (n : Fin 4096) (s : State) : Res :=
  .next (if s.dev.ready ∧ (s.dev.ring n).tear ≠ 1 then s.onDev (fun d => d.ringAbort n) else s)

end Sys2Proof.Machine
end

