-- ==== Sys2Proof/Machine/Atomics.lean ====
section
/-! DEFINITION. The atomic unit of the target gateway (R34 to R37): one command per sub-operation applies the oldest ATOMIC, one applies the
oldest SIGNAL that may take effect. -/

namespace Sys2Proof.Machine

open Sys2Proof

/-- The new value of an ATOMIC (Table 1.10) from the old value v and the operands. -/
def atomNew (subop v a b : Nat) : Nat :=
  match subop with
  | 0 => (v + a) % 2 ^ 64
  | 1 => if v = a then b else v
  | 2 => a
  | 3 => if signed 64 a < signed 64 v then a else v
  | _ => if signed 64 v < signed 64 a then a else v

/-- The prior value goes back to the requester (R35): on the stream it came by, or into the record of an operation of this gateway. -/
def Dev.atomAnswer (d : Dev) (r : AtomReq) (v : Nat) : Dev :=
  match r.stream with
  | some (_, c, opn) => d.answer c opn v
  | none => (d.updOp r.ring r.index (fun o => { o with value := v })).okOp r.ring r.index

/-- What the write of the new word serves. -/
def AtomReq.use (r : AtomReq) (v : Nat) : ReqUse :=
  match r.stream with
  | some (_, c, opn) => .tgtAtom c opn v
  | none => .opAtom r.ring r.index v

/-- The request applies to its 8-byte location (R36): gateway, memory, new value. The prior value goes back once the write is
acknowledged; a write that fails ends the operation (R334). -/
def atomApply (r : AtomReq) (d : Dev) (m : List Host.Cell) : Dev × List Host.Cell × Nat :=
  let v := ofLE (memRead m (d.winKey r.win r.off) 8)
  let w := atomNew (if r.isSignal then 0 else r.subop) v r.a r.b
  let p := winWrite (r.use v) r.win r.off (d.f R.WINDOW.TENANT r.win) (leBytes 8 w) d m
  (if p.2.2 = 0 then p.1.atomAnswer r v else p.1, p.2.1, w)

/-- Remove a request from the unit. -/
def Dev.atomDel (d : Dev) (r : AtomReq) : Dev := { d with atomics := d.atomics.erase r }

/-- An operation that arrived is complete at the target. -/
def TgtOp.complete (t : TgtOp) : Bool := t.answered || (t.opcode == 2 && t.started && decide (t.len ≤ t.got))

/-- A SIGNAL may take effect (R37): every operation submitted earlier on its ring to its target rank is complete at the target. On a
stream, every operation of the context with a lower number is (the operations of a ring to a rank use one context in order). -/
def Dev.signalMay (d : Dev) (r : AtomReq) : Bool :=
  match r.stream with
  | some (_, c, opn) =>
    ((d.ctx c).tgt.filter (fun t => t.opn != opn && decide (signed 16 (t.opn + 2 ^ 16 - opn) < 0))).all TgtOp.complete
  | none =>
    match d.getOp r.ring r.index with
    | some o => (d.opsBefore r.ring r.index).all (fun p => p.stage == .done || !(hasTarget p.d.opcode && p.d.rank == o.d.rank))
    | none => true

/-- A request that arrived before r at the same 8-byte location, of the kind that p picks, still waits: r may not pass it (R36). -/
def Dev.atomPasses (d : Dev) (r : AtomReq) (p : AtomReq → Bool) : Bool :=
  (d.atomics.takeWhile (· != r)).any (fun q => p q && d.winKey q.win q.off == d.winKey r.win r.off)

/-- Apply the oldest ATOMIC when it is of a sub-operation (R36); it does not pass a SIGNAL that may take effect. -/
def atomStep (subop : Nat) (s : State) : State :=
  match s.dev.atomics.find? (fun r => !r.isSignal) with
  | none => s
  | some r =>
    if r.subop = subop ∧ !s.dev.atomPasses r (fun q => q.isSignal && s.dev.signalMay q) then
      s.onBoth (fun d m =>
        let p := atomApply r (d.atomDel r) m
        (p.1, p.2.1))
    else s

/-- FADD64. -/
def execFadd64 (s : State) : Res := .next (atomStep 0 s)
/-- CAS64. -/
def execCas64 (s : State) : Res := .next (atomStep 1 s)
/-- SWAP64. -/
def execSwap64 (s : State) : Res := .next (atomStep 2 s)
/-- FMIN64. -/
def execFmin64 (s : State) : Res := .next (atomStep 3 s)
/-- FMAX64. -/
def execFmax64 (s : State) : Res := .next (atomStep 4 s)

/-- The notice of a SIGNAL (R37, R63): written to NOTIFY_CQ when it is enabled, the window's tenant owns it and a slot is free beyond
those reserved; otherwise dropped and counted. -/
def signalNotice (r : AtomReq) (new : Nat) (d : Dev) (m : List Host.Cell) : Dev × List Host.Cell :=
  if d.on R.WINDOW.NOTIFY_EN r.win then
    let q := d.f R.WINDOW.NOTIFY_CQ r.win
    if d.on R.CQ_CTL.ENABLE q && d.f R.CQ_CTL.TENANT q == d.f R.WINDOW.TENANT r.win && d.cqCredit q != 0 then
      writeRecord q { source := 1, opcode := 5, status := 0, detail := 0, userTag := 0, sq := 0, sqHead := 0, value := new, index := r.srcRank,
                      events := 0, window := r.win, irq := false } true d m
    else (d.bump R.CQ_ERR.DROPPED q, m)
  else (d, m)

/-- SIGNAL_TAKE_EFFECT (R36, R37): the oldest SIGNAL that may take effect, unless an ATOMIC arrived before it at its location. -/
def execSignalTakeEffect (s : State) : Res :=
  .next (match s.dev.atomics.find? (fun r => r.isSignal && s.dev.signalMay r) with
  | none => s
  | some r =>
    if s.dev.atomPasses r (fun q => !q.isSignal) then s
    else s.onBoth (fun d m =>
      let p := atomApply r (d.atomDel r) m
      signalNotice r p.2.2 p.1 p.2.1))

end Sys2Proof.Machine
end

