-- ==== Sys2Proof/Machine/Fences.lean ====
section
/-! DEFINITION. Loss of stacks and of quarters (R95, R122, R156, R180 to R182, R373, R374), and the staging of a collective's operands. -/

namespace Sys2Proof.Machine

open Sys2Proof

/-! ### Stacks (R180 to R182) -/

/-- Spare pages of a stack that resilvered copies hold. -/
def Dev.spareUsed (d : Dev) (k : Nat) : Nat :=
  (d.ctxs.map (fun e => if e.2.reserved && e.2.copyB == k && k / 2 != e.2.home then e.2.logPages else 0)).sum

/-- The stack with the most free SPARE pages, apart from the failed one and the survivor, the lowest number on a tie (R181). -/
def Dev.resilverTarget (d : Dev) (failed surv : Nat) : Option Nat :=
  let free := fun k => d.f R.ANNEX_STK.SPARE k - d.spareUsed k
  let ok := (List.range 8).filter (fun k => k != failed && k != surv && !d.on R.ANNEX_STK.FAILED k && d.wingEnabled (k / 2))
  ok.foldl (fun (best : Option Nat) k => match best with | none => some k | some b => if free b < free k then some k else best) none

/-- RESILVER_BW in bytes a tick: units of 10 GB/s, 0 acts as 1. -/
def Dev.resilverRate (d : Dev) : Nat := 10 * max (d.f R.ANNEX_CTL.RESILVER_BW) 1

/-- Resilvering of context c begins: the survivor's live log is copied once the copies before it are whole, at RESILVER_BW. -/
def Dev.resilverAdd (d : Dev) (c : Nat) : Dev :=
  let from_ := (d.resilver.map (·.due)).foldl max d.now
  { d with resilver := d.resilver ++ [⟨c, d.now, d.resilverRate, from_ + ceilDiv (d.ctx c).logUsed d.resilverRate⟩] }

/-- Start resilvering contexts whose mirror lost stack `failed` and whose copies are on one survivor (R181, R182). -/
def Dev.resilverGroup (d : Dev) (cs : List Nat) (failed surv : Nat) : Dev :=
    let need := (cs.map (fun c => (d.ctx c).logPages)).sum
    let d1 := ((d.set R.ANNEX_RSLV.FAILED 0 failed).set R.ANNEX_RSLV.SURV 0 surv)
    match d1.resilverTarget failed surv with
    | some t =>
      if need ≤ d1.f R.ANNEX_STK.SPARE t - d1.spareUsed t then
        let d2 := cs.foldl (fun (a : Dev) c =>
          let x := a.ctx c
          let b := a.setCtx c { x with copyB := t }
          ({ b with annexHeld := setCount b.annexHeld (b.ctxTenant x) (countOf b.annexHeld (b.ctxTenant x) + x.logPages) } : Dev).resilverAdd c) d1
        (d2.set R.ANNEX_RSLV.TARGET 0 t).set R.ANNEX_RSLV.STATE 0 1
      else (d1.set R.ANNEX_RSLV.STATE 0 3).alarm 5 failed 0x011 1 0
    | none => (d1.set R.ANNEX_RSLV.STATE 0 3).alarm 5 failed 0x011 1 0

/-- Start resilvering contexts whose mirror lost stack `failed`, for each survivor (the copy in copyA) by itself; ANNEX_RSLV shows the last
one (DESIGN CHOICE, log entry 100). -/
def Dev.resilverStart (d : Dev) (cs : List Nat) (failed : Nat) : Dev :=
  (cs.map (fun c => (d.ctx c).copyA)).eraseDups.foldl (fun (a : Dev) k => a.resilverGroup (cs.filter (fun c => (d.ctx c).copyA == k)) failed k) d

/-- Bytes of a resilvered log still to copy (R181): those cut before resilvering began and still live, at most what RESILVER_BW lets through
until the copy is whole. -/
def Dev.resilverRest (d : Dev) (r : Resilver) : Nat :=
  min (((d.ctx r.ctx).log.filter (fun g => decide (g.cutAt < r.since))).map (·.size)).sum (r.rate * (r.due - d.now))

/-- A segment of a log whose end, counted from `at_`, lies past what has been copied is not receipted. -/
def lostFrom (copied : Nat) : Nat → List LogEnt → Bool
  | _, [] => false
  | at_, g :: t => (!g.receipted && decide (copied < at_ + g.size)) || lostFrom copied (at_ + g.size) t

/-- An unreceipted segment of a log being resilvered is still only on the survivor: the oldest are copied first (R181, R182). -/
def Dev.onlySurvivor (d : Dev) (r : Resilver) : Bool :=
  let old := (d.ctx r.ctx).log.filter (fun g => decide (g.cutAt < r.since))
  lostFrom ((old.map (·.size)).sum - d.resilverRest r) 0 old

/-- A survivor fails before resilvering is complete (R182): contexts with an unreceipted segment that only it held fail with DATA_LOST, nothing
more is copied from it, and with no other log being copied resilvering has failed. -/
def Dev.survivorLost (d : Dev) (k : Nat) : Dev :=
  let hit := d.resilver.filter (fun r => (d.ctx r.ctx).reserved && (d.ctx r.ctx).copyA == k)
  let d1 := hit.foldl (fun (a : Dev) r => if a.onlySurvivor r then a.failCtx r.ctx 0x0C else a) d
  let d2 := { d1 with resilver := d1.resilver.filter (fun (r : Resilver) => !hit.contains r) }
  if !hit.isEmpty && d2.resilver.isEmpty then d2.set R.ANNEX_RSLV.STATE 0 3 else d2

/-- One context loses the copy of its log on stack k: whether it now needs resilvering (R180, R181). -/
def Dev.copyLost (d : Dev) (k c : Nat) : Dev × Bool :=
  let x := d.ctx c
  if !x.reserved || (x.copyA != k && x.copyB != k) || !d.wingEnabled x.home then (d, false)
  else if x.copyA = x.copyB then (d.setCtx c { x with noLog := true, stackWait := some k, since := d.now, waitFor := d.rto x }, false)
  else
    let surv := if x.copyA = k then x.copyB else x.copyA
    let d1 := d.annexDrop (d.ctxTenant x) x.home k x.logPages
    let d2 := { d1 with resilver := d1.resilver.filter (fun (r : Resilver) => r.ctx != c) }
    (d2.setCtx c { x with copyA := surv, copyB := surv }, true)

/-- Delta snapshots on a stack that is gone: an unmirrored one gives its pages back and makes its slot STALE (R180, R42), at once or when the
DELTA_PUT that holds it has ended; a mirrored one goes on from its other copy, and the failed copy's pages go back. A receiver's snapshot
without another copy is lost: of a slot of this site it makes the slot STALE, of another site's the next difference fails (DESIGN CHOICE, log
entry 35). -/
def Dev.snapsLost (d : Dev) (k : Nat) : Dev :=
  let hit := fun (s : Nat) (mir : Bool) => s == k || (mir && s + 1 == k)
  let ins := d.deltasIn.filter (fun y => hit y.stack y.mirror && !y.lost)
  let d0 := ins.foldl (fun (a : Dev) y => a.annexGive y.tenant k y.pages) d
  let far := fun (a : Dev) (y : DeltaOut) => y.site == a.site && ins.any (fun x => !x.mirror &&
    x.is a.site (a.f R.JOB.JOB_ID (a.f R.DELTA.JOB y.slot)) y.rank y.win y.roff)
  let d1 := (d.deltasOut.filter (fun y => hit y.stack y.mirror && !y.lost)).foldl (fun (a : Dev) y =>
    a.annexGive y.tenant k (a.f R.DELTA.PAGES y.slot)) d0
  let d2 := (d.deltasOut.filter (fun y => (hit y.stack y.mirror && !y.mirror && !y.lost) || far d y)).foldl (fun (a : Dev) y =>
    if a.f R.DELTA.STATE y.slot = 1 then a.set R.DELTA.STATE y.slot 2 else a) d1
  let left := fun (s : Nat) => if s = k then k + 1 else s
  { d2 with
    deltasOut := d2.deltasOut.map (fun (y : DeltaOut) => if !hit y.stack y.mirror then y
      else if y.mirror then { y with mirror := false, stack := left y.stack } else { y with lost := true })
    deltasIn := d2.deltasIn.map (fun (y : DeltaIn) => if !hit y.stack y.mirror then y
      else if y.mirror then { y with mirror := false, stack := left y.stack } else { y with lost := true }) }

/-- Every copy of a log and every snapshot on stack k is gone. -/
def Dev.stackGone (d : Dev) (k : Nat) : Dev :=
  let r := (d.ctxs.map (·.1)).foldl (fun (a : Dev × List Nat) c => let p := a.1.copyLost k c; (p.1, if p.2 then a.2 ++ [c] else a.2)) (d, [])
  (r.1.snapsLost k).resilverStart (r.2.filter (fun c => (r.1.ctx c).reserved)) k

/-! ### Quarters (R95, R122, R156, R374) -/

/-- A receipt sent on a context of wing q has shown a segment of a piece (R122). -/
def Dev.pieceShown (d : Dev) (x : Coll) (q j p : Nat) : Bool :=
  d.ctxs.any (fun e => e.2.home == q && e.2.shownItems.any (fun k => k.kind == 3 && k.coll == x.id && k.n == j && k.piece == p))

/-- A piece on a fenced wing that was held only there: received and receipted, but not yet forwarded and receipted downstream (R122). -/
def Dev.pieceLost (d : Dev) (x : Coll) (q : Nat) : Bool :=
  x.pieces.any (fun y => x.wingOf y.chunk == q && d.pieceShown x q y.chunk y.piece &&
    (!y.red.units.isEmpty || !y.gat.units.isEmpty || (y.got && d.pieceOut x.id y.chunk y.piece))) ||
  d.ctxs.any (fun e => e.2.home == q && e.2.held.any (fun h => h.seg.typ == 3 && segColl h.seg == x.id && e.2.shownItems.contains (segKey h.seg)))

/-- A piece of a chunk that leaves a fenced wing: its operand is staged again, and what arrived and was never receipted comes again from
upstream (R95, R122). -/
def PieceX.again (y : PieceX) : PieceX :=
  { y with operand := if y.reduced || y.final then y.operand else none, red := if y.reduced || y.final then y.red else Arrival.empty,
           gat := if y.final then y.gat else Arrival.empty }

/-- Chunks of a collective that run on a wing and are not finished here. -/
def Coll.chunksOn (x : Coll) (me q : Nat) : Nat :=
  ((List.range x.chunks).filter (fun j => x.wingOf j == q && (List.range x.n).any (fun p => !x.pieceDone me j p))).length

/-- The local ranks whose source is read (Table 4.3): all, the lowest, or the root. -/
def Coll.readers (x : Coll) : List Member :=
  match x.kind with
  | 2 => x.members.take 1
  | 3 => x.members.filter (fun k => k.rank == x.root)
  | _ => x.members

/-- The piece with a running number needs this gateway's operand and does not have it. -/
def Coll.wantsOperand (x : Coll) (me c : Nat) : Bool :=
  let j := c / x.n
  let p := c % x.n
  let y := x.piece j p
  x.pieceElems j p != 0 && y.operand.isNone && !y.reduced && !y.final && (x.reduces || x.ownerPos j p == me)

/-- The piece being staged, or the next one to stage. -/
def Coll.nextStage (x : Coll) (me : Nat) : Option Nat :=
  if x.readers.isEmpty then none
  else if x.acc.isSome || !x.buf.isEmpty then some x.cursor
  else (List.range (x.chunks * x.n)).find? (x.wantsOperand me)

/-- Ask for the next source bytes of the piece being staged: one read at a time (log entry 15). -/
def Dev.stageAsk (d : Dev) (id : Nat) : Dev :=
  match d.coll id with
  | none => d
  | some x =>
    if !x.admitted || x.ended.isSome || x.reading then d
    else match x.nextStage (x.posOfSite d.site) with
      | none => d
      | some c =>
        match x.readers[x.reader]? with
        | none => d
        | some k =>
          let len := min d.readMax (x.pieceBytes (c / x.n) (c % x.n) - x.buf.length)
          (d.updColl id (fun x => { x with cursor := c, reading := true })).winRead (.collRead id) k.srcWin
            (k.srcOff + x.pieceOff (c / x.n) (c % x.n) + x.buf.length) len x.tenant

/-- What a context of a fenced wing holds of a collective's pieces without having receipted it comes again elsewhere (R122). -/
def Ctx.forgetTour (x : Ctx) (id : Nat) : Ctx :=
  { x with held := x.held.filter (fun (h : HeldSeg) => !(h.seg.typ == 3 && segColl h.seg == id)),
           rx := x.rx.filter (fun (r : RxItem) => !(r.key.kind == 3 && r.key.coll == id)) }

/-- A collective meets the fence of quarter q (R95, R122): DATA_LOST where a partial was held only there, otherwise its chunks move to
the next enabled wing, and operands staged on the fenced wing are read again. -/
def Dev.collFence (d : Dev) (id q : Nat) : Dev :=
  match d.coll id with
  | none => d
  | some x =>
    if !x.admitted || x.ended.isSome || !(List.range x.wings).any (fun w => x.movedTo w == q) then d
    else if d.pieceLost x q then d.collFail id 0x0C true
    else
      let v := d.nextWing q
      let key := fun (e : Nat × Nat × Nat × Nat × SendItem) =>
        if e.2.2.2.2.coll = id ∧ e.2.2.2.1 = q then (e.1, e.2.1, e.2.2.1, v, e.2.2.2.2) else e
      let d1 := d.updColl id (fun x => { x with
        moved := x.moved ++ [(q, v)], movedAt := d.now, movedFor := d.lease, events := x.events + x.chunksOn (x.posOfSite d.site) q, cursor := 0, reader := 0, buf := [], acc := none,
        reading := false,
        begun := x.begun.filter (fun j => x.wingOf j != q),
        pieces := x.pieces.map (fun (y : PieceX) => if x.wingOf y.chunk = q then y.again else y) })
      ({ d1 with tourWait := d1.tourWait.map key,
                 ctxs := d1.ctxs.map (fun (e : Nat × Ctx) => if e.2.home = q then (e.1, e.2.forgetTour id) else e),
                 reqs := d1.reqs.filter (fun (r : Req) => r.use != ReqUse.collRead id) } : Dev).stageAsk id

/-- The place of CAUSE of quarter q in HEALTH_FENCE. -/
def causeFld (q : Nat) : Fld := { R.HEALTH_FENCE.CAUSE0 with lo := 8 + 8 * q }

/-- Quarter q is fenced (R374): its bit and cause, its transmitters dark, its contexts waiting one RTO (R156), its chunks moved (R95), its
stacks out. -/
def Dev.fenceQuarter (d : Dev) (q cause : Nat) : Dev :=
  if d.fenced q || !d.wingPresent q then d
  else
    let d0 := d.recoverStart (fun _ g => carrierWing g.carrier == q && (d.kwOf g.carrier).txJoined) []
    let d1 := (d0.set R.HEALTH_FENCE.FENCED 0 (d0.f R.HEALTH_FENCE.FENCED ||| 2 ^ q)).set (causeFld q) 0 cause
    let d2 := ((d1.alarm 1 q 0x021 1 cause).darkEngine (2 * q)).darkEngine (2 * q + 1)
    let d3 := (d2.ctxs.map (·.1)).foldl (fun (a : Dev) c =>
      if (a.ctx c).home = q ∧ (a.ctx c).reserved then a.onCtx c (fun x => { x with fenceWait := true, since := a.now, waitFor := a.rto x }) else a) d2
    let d4 := (d3.colls.map (·.id)).foldl (fun (a : Dev) id => a.collFence id q) d3
    (d4.stackGone (2 * q)).stackGone (2 * q + 1)

/-- With fewer than 24 working lanes the wing reports a tour-engine fault, which takes out its quarter (R91, R373). -/
def Dev.laneFault (d : Dev) (w : Nat) : Dev := if d.f R.TOUR_LANES.WORKING w < 24 then d.fenceQuarter w 1 else d

/-- A stack fails (R181, R362, R373): both stacks of a quarter failed take out the quarter. -/
def Dev.stackFail (d : Dev) (k : Nat) : Dev :=
  if d.on R.ANNEX_STK.FAILED k then d
  else
    let d1 := (d.recoverStart (fun c _ => (d.ctx c).copyA == k || (d.ctx c).copyB == k) []).set R.ANNEX_STK.FAILED k 1
    let d2 := (d1.alarm 5 k 0x010 1 0).survivorLost k
    let other := if k % 2 = 0 then k + 1 else k - 1
    if d2.on R.ANNEX_STK.FAILED other then d2.fenceQuarter (k / 2) 2 else d2.stackGone k

end Sys2Proof.Machine
end

