-- ==== Sys2Proof/Machine/Tours.lean ====
section
/-! DEFINITION. Tours (R75 to R124): tour sets, admission and start of collectives, the local stage, the reduce step, the gather pass,
provenance records, completion. -/

namespace Sys2Proof.Machine

open Sys2Proof

/-! ### Tour sets (R104 to R106) -/

/-- The key of word w of a tour set entry (table 6 of `layout`). -/
def tsKey (t w : Nat) : Nat := R.TOURSET.VALID.key t + w

/-- An admitted collective uses the entry. -/
def Dev.tsBusy (d : Dev) (t : Nat) : Bool := d.colls.any (fun c => c.ts == t && c.admitted && c.ended.isNone)

/-- A stride R105 allows. -/
def strideOk (v : Nat) : Bool := [1, 3, 5, 7, 15, 13, 11, 9].contains v

/-- All sites of an entry's order words, O[0] to O[31]. -/
def Dev.orderAll (d : Dev) (t : Nat) : List Nat :=
  (List.range 32).map (fun i =>
    if i < 12 then d.f R.TOURSET.ORDER_A t / 2 ^ (5 * i) % 32
    else if i < 24 then d.f R.TOURSET.ORDER_B t / 2 ^ (5 * (i - 12)) % 32
    else d.f R.TOURSET.ORDER_C t / 2 ^ (5 * (i - 24)) % 32)

/-- The entry may be published (R105). -/
def Dev.tsOk (d : Dev) (t : Nat) : Bool :=
  let nl := d.f R.TOURSET.N_LOG t
  let n := 2 ^ nl
  let r := d.f R.TOURSET.RINGS t
  let w := d.f R.TOURSET.WINGS t
  let st := fun i => d.f R.TOURSET.STRIDE t / 2 ^ (4 * i) % 16
  let o := d.orderAll t
  1 ≤ nl && nl ≤ 5 && 1 ≤ r && r ≤ 8 && 1 ≤ w && w ≤ 4 && d.f R.TOURSET.PARTIAL t ≤ 1 && d.f R.TOURSET.LOCAL t != 0 &&
  (List.range 8).all (fun i => if i < r then strideOk (st i) else st i == 0) &&
  (List.range n).all (fun v => (o.take n).contains v) && (o.drop n).all (· == 0) && d.site < n

/-- PRINT of an entry (R106). -/
def Dev.tsPrint (d : Dev) (t : Nat) : Nat :=
  let w := fun i => (d.word (tsKey t i)).toNat
  (crc32c (leBytes 8 (w 0 &&& 0x0000FFFF000FDFFE) ++ leBytes 8 (w 1 &&& 0xFFFFFFFF) ++ leBytes 8 (w 2) ++ leBytes 8 (w 3) ++ leBytes 8 (w 4))).toNat

/-- A tour set word as it reads: IDLE is what it says. -/
def Dev.tsWord (d : Dev) (t w : Nat) : Word :=
  if w = 0 then setBits (d.word (tsKey t 0)) 63 1 (b2n (!d.tsBusy t)) else d.word (tsKey t w)

/-- A write of a tour set word (R11, R105, R106). -/
def Dev.tsWrite (d : Dev) (t w : Nat) (l : Lanes) (v : Word) : Dev :=
  let was := d.on R.TOURSET.VALID t
  let d1 := d.writeReg (tsKey t w) (!was && !d.tsBusy t) l v R.TOUR_TS_ERR.BUSY
  if w = 0 && !was && d1.on R.TOURSET.VALID t then
    if d1.tsOk t then d1.set R.TOURSET.PRINT t (d1.tsPrint t)
    else (d1.set R.TOURSET.VALID t 0).set R.TOUR_TS_ERR.MISMATCH 0 1
  else d1

/-- TOUR_TS_DATA_ACCESS (R15, R16, R104). -/
def execTourTsDataAccess (a : Access) (s : State) : Res :=
  .next (if s.dev.ready then s.onDev (fun d =>
    let t := d.f R.TOUR_TS_SEL.INDEX
    let w := d.f R.TOUR_TS_SEL.WORD
    if 1024 ≤ t ∨ 5 ≤ w then
      let d1 := d.set R.TOUR_TS_ERR.RANGE 0 1
      match a with | .read => d1.emit (.readData 0) | .write _ _ => d1
    else
      let d1 := match a with
        | .read => d.emit (.readData (d.tsWord t w))
        | .write l v => d.tsWrite t w l v
      d1.selNext R.TOUR_TS_SEL.AUTOINC R.TOUR_TS_SEL.WORD R.TOUR_TS_SEL.INDEX 5) else s)

/-! ### Provenance (R99 to R101) -/

/-- The 32 bytes of a provenance record (Table 3.5). -/
def Coll.provBytes (x : Coll) (j p step pos fmt : Nat) (fin poison : Bool) (wing : Nat) (digest : BitVec 64) (events : Nat) : List Byte :=
  leBytes 8 (x.id + 2 ^ 32 * j) ++
  leBytes 8 (p % 32 + 2 ^ 8 * (step % 256) + 2 ^ 16 * (pos % 32) + 2 ^ 21 * (x.ringOf j) + 2 ^ 24 * (fmt % 16) + 2 ^ 28 * b2n fin +
    2 ^ 29 * b2n poison + 2 ^ 30 * (wing % 4) + 2 ^ 32 * x.pieceElems j p) ++
  leBytes 8 digest.toNat ++ leBytes 8 (min events 65535)

/-- A record goes to the wing's buffer, or is dropped where it is full (R101). -/
def provWrite (w : Nat) (rec : List Byte) (d : Dev) (m : List Host.Cell) : Dev × List Host.Cell :=
  let size := 2 ^ d.f R.TOUR_PROV_BASE.SIZE_LOG w
  let wr := d.f R.TOUR_PROV_IDX.WR w
  if idxSub wr (d.f R.TOUR_PROV_IDX.RD w) = size then ((d.bump R.TOUR_PROV_DROP.DROP w).set R.TOUR_ERR.PROV_OVF w 1, m)
  else (d.set R.TOUR_PROV_IDX.WR w (idxAdd wr 1), memWrite m (memKey 0 (d.f R.TOUR_PROV_BASE.ADDR w + 32 * (wr % size))) rec)

/-- A PARTIAL or FINAL record of a piece, as PROV_MODE asks for it (R99, R100). -/
def provPiece (x : Coll) (j p step : Nat) (fin poison : Bool) (fmt : Nat) (pf : PFmt) (us : List Nat) (d : Dev) (m : List Host.Cell) :
    Dev × List Host.Cell :=
  let w := x.wingOf j
  if (if fin then 1 else 2) ≤ d.provMode.getD w 0 then
    provWrite w (x.provBytes j p step (x.posOfSite d.site) fmt fin poison w (if poison then 0 else crc64 (digestBytes pf us)) (x.piece j p).events) d m
  else (d, m)

/-- A chunk that the engine of wing w has taken and not finished (R103): every one of a started collective on an enabled engine, and those
taken before the engine was disabled. -/
def Dev.chunkIn (d : Dev) (x : Coll) (w j : Nat) : Bool :=
  x.wingOf j == w && (d.on R.TOUR_CTL.ENABLE w || x.begun.contains j)

/-- TOUR_CTL_w.IDLE: no chunk in the engine and ENABLE = 0. -/
def Dev.tourIdle (d : Dev) (w : Nat) : Bool :=
  !d.on R.TOUR_CTL.ENABLE w && d.colls.all (fun x => !(x.started && x.ended.isNone) ||
    x.begun.all (fun j => x.wingOf j != w || (List.range x.n).all (fun p => x.pieceDone (x.posOfSite d.site) j p)))

/-- The engine has begun a chunk: a piece of it has arrived, in part or whole, or has been worked on (R103). -/
def Coll.chunkBegun (x : Coll) (j : Nat) : Bool :=
  x.pieces.any (fun y => y.chunk == j && (y.reduced || y.final || !y.red.units.isEmpty || !y.gat.units.isEmpty))

/-- ENABLE goes to 0: the chunks in the engine are remembered, and finish (R103). -/
def Dev.tourStop (d : Dev) (w : Nat) : Dev :=
  { d with colls := d.colls.map (fun (x : Coll) =>
      if x.started && x.ended.isNone then
        { x with begun := x.begun.filter (fun j => x.wingOf j != w) ++ (List.range x.chunks).filter (fun j => x.wingOf j == w && x.chunkBegun j) }
      else x) }

/-- TOUR_CTL (R12, R99, R103): a refused enable leaves ENABLE at 0 with MISMATCH; a write of 0 stops new chunks. PROV_MODE is shadowed
until the next tour phase. -/
def Dev.tourCtlWrite (d : Dev) (w : Nat) (l : Lanes) (v : Word) : Dev :=
  let was := d.on R.TOUR_CTL.ENABLE w
  if d.blkHeld 1 w && !was && wrote l v R.TOUR_CTL.ENABLE == 1 then d.set R.TOUR_ERR.BUSY w 1
  else
  let d0 := d.writeReg (R.TOUR_CTL.ENABLE.key w) (d.tourIdle w) l v R.TOUR_ERR.BUSY w
  let d1 := if was && !d0.on R.TOUR_CTL.ENABLE w then d0.tourStop w else d0
  if !was && d1.on R.TOUR_CTL.ENABLE w && d1.f R.TOUR_CTL.PROV_MODE w != 0 then
    let sl := d1.f R.TOUR_PROV_BASE.SIZE_LOG w
    let a := d1.f R.TOUR_PROV_BASE.ADDR w
    if sl < 10 ∨ 20 < sl ∨ a % 32 ≠ 0 ∨ d1.outsideHbm ((a : Int), ((a + 32 * 2 ^ sl - 1 : Nat) : Int)) then
      (d1.set R.TOUR_CTL.ENABLE w 0).set R.TOUR_ERR.MISMATCH w 1
    else d1
  else d1

/-- TOUR_PROV_IDX (R5, R101): a write that moves RD backward, or past WR, is ignored. -/
def execTourProvIdxWrite (w : Fin 4) (l : Lanes) (d : Word) (s : State) : Res :=
  .next (if s.dev.ready && s.dev.wingPresent w then s.onDev (fun x =>
    let old := x.f R.TOUR_PROV_IDX.RD w
    let new := bitsOf (mergeLanes l (x.word (R.TOUR_PROV_IDX.RD.key w)) d) 32 32
    if idxSub new old ≤ idxSub (x.f R.TOUR_PROV_IDX.WR w) old then x.set R.TOUR_PROV_IDX.RD w new else x) else s)

/-! ### Pieces on their way -/

/-- The partial format of a collective. -/
def Coll.pf (x : Coll) : PFmt := partialFmt x.fmt x.wide

/-- What fixes the draws of a rounding (R85). -/
def Coll.ctx (x : Coll) (step : Nat) : RCtx := ⟨x.sr, x.seed, x.id, step⟩

/-- The engine of a chunk works on it: not fenced, and it has taken the chunk (R103, R374). -/
def Dev.engineOn (d : Dev) (x : Coll) (j : Nat) : Bool := d.chunkIn x (x.wingOf j) j && d.wingEnabled (x.wingOf j)

/-- The item that carries a piece to the next site of its ring. -/
def Coll.item (x : Coll) (j p step : Nat) (us : List Nat) (poison : Bool) : SendItem :=
  { kind := 3, op := none, opn := none, coll := x.id, chunk := j, piece := p, step := step, ring := x.ringOf j, opcode := x.kind,
    tail := tourTail x.id x.print j p step (x.ringOf j), fmt := partialCode x.fmt x.wide, tid := x.id, bind := x.bind,
    raw := ofUnits (codedFmt (partialCode x.fmt x.wide)).bytes us, left := 0, bytes := [], sent := 0, starts := [], segidx := 0,
    poison := poison, bare := false, plain := false }

/-- Hand a piece to the stream of its ring and wing (R153, R157): without an OPEN context it waits; a PLACED tenant's starts an
accession, a PINNED tenant's ends the collective with ACCESS_DENIED unless a fence moved the chunk (R156). -/
def Dev.sendPiece (d : Dev) (x : Coll) (j p step : Nat) (us : List Nat) (poison : Bool) : Dev :=
  let me := x.posOfSite d.site
  let w := x.wingOf j
  let k : CtxKey := ⟨x.job, x.nextSite j me, x.ringOf j + 1, w⟩
  let it := x.item j p step us poison
  let wait := { d with tourWait := d.tourWait ++ [(k.job, k.site, k.cls, k.wing, it)] }
  let placed := d.on R.TENANT.PLACE_MODE x.tenant
  match d.ctxOf k with
  | some c =>
    match (d.ctx c).state with
    | .opened => d.onCtx c (fun y => { y with sendq := y.sendq ++ [it], lastUse := d.now })
    | .acceding => wait
    | _ => if placed || w != x.homeWing j then wait else d.collFail x.id 0x03 true
  | none => if placed then wait.wantCtx k w else if w != x.homeWing j then wait else d.collFail x.id 0x03 true

/-- Units that stand for a poisoned piece on the line: the spec gives them no value, so they are free. -/
def Dev.poisonUnits (d : Dev) (x : Coll) (j p : Nat) : List Nat :=
  (List.range (x.pieceElems j p / x.pf.elems)).map (fun i => (Config.freeByte d.freeCtr i).toNat)

/-- Final units as they are written to a destination (R94): the narrowed values, which every participant writes alike. -/
def Coll.finalUnits (x : Coll) (us : List Nat) : List Nat :=
  match x.pf with
  | .pair => us.map (fun u => if u / 2 ^ 32 = 0 then u % 2 ^ 32 else (narrowList x.fmt x.wide ⟨false, 0, 0, 0⟩ 0 [u]).codes.headD 0)
  | _ => (narrowList x.fmt x.wide ⟨false, 0, 0, 0⟩ 0 us).codes

/-- The destination range of a local rank's descriptor partly overlaps its source range (R112); the two have one layout (R113). -/
def Dev.rangesCross (d : Dev) (x : Coll) (k : Member) : Bool :=
  let a := d.winKey k.srcWin k.srcOff
  let b := d.winKey k.dstWin k.dstOff
  a != b && decide (a < b + x.len) && decide (b < a + x.len)

/-- Bytes that a local rank's ranges give or take: free ones where they cross, which R112 leaves undefined (log entry 97). -/
def Dev.rankBytes (d : Dev) (x : Coll) (k : Member) (bytes : List Byte) : Dev × List Byte :=
  if d.rangesCross x k then (d.usedFree, (List.range bytes.length).map (Config.freeByte d.freeCtr)) else (d, bytes)

/-- Write a piece's bytes to every local rank's destination window (Table 4.3). -/
def pieceWrite (id j p : Nat) (bytes : List Byte) (d : Dev) (m : List Host.Cell) : Dev × List Host.Cell :=
  match d.coll id with
  | none => (d, m)
  | some x => x.members.foldl (fun (a : Dev × List Host.Cell) k =>
      let b := a.1.rankBytes x k bytes
      let r := winWrite (.collWrite id) k.dstWin (k.dstOff + x.pieceOff j p) x.tenant b.2 b.1 a.2
      (r.1.updColl id (fun y => { y with owed := y.owed + r.2.2 }), r.2.1)) (d, m)

/-- The owner's last step (R83, R94, R99): AVG division, one narrowing, the writes, the FINAL record, and the start of the gather tour. The
owner writes the bits that every receiver of the gather tour writes (log entry 95). -/
def ownerFinish (id j p : Nat) (us : List Nat) (poison : Bool) (d : Dev) (m : List Host.Cell) : Dev × List Host.Cell :=
  match d.coll id with
  | none => (d, m)
  | some x =>
    let w := x.wingOf j
    let i := x.pieceFirst j p
    let q := if x.reduces ∧ x.redop = 3 then divideList x.pf x.nlog (x.ctx 0xFD) i us else ⟨us, 0, 0⟩
    let r := narrowList x.fmt x.wide (x.ctx 0xFF) i q.codes
    let wide := (widenList x.fmt x.wide r.codes).codes
    let fin := if x.gathers then x.finalUnits wide else r.codes
    let d1 := d.updPiece id j p (fun y =>
      { y with final := true, reduced := true, poison := poison, operand := none, red := Arrival.empty, got := y.got || x.reduces })
    let d2 := if poison then d1.usedFree else d1.arith w (q.sat + r.sat) (q.nan + r.nan)
    let a := if poison then (d2, m) else pieceWrite id j p (ofUnits (unitBytes x.fmt) fin) d2 m
    let b := provPiece x j p 0xFF true poison x.fmt (memFmt x.fmt) fin a.1 a.2
    let out := if poison then d.poisonUnits x j p else wide
    (if x.gathers then b.1.sendPiece x j p 0 out poison else b.1, b.2)

/-- A partial leaves this gateway on its reduce tour (R99). -/
def reduceEmit (id j p k : Nat) (us : List Nat) (poison : Bool) (d : Dev) (m : List Host.Cell) : Dev × List Host.Cell :=
  match d.coll id with
  | none => (d, m)
  | some x =>
    let d1 := d.updPiece id j p (fun y =>
      { y with reduced := true, poison := y.poison || poison, operand := none, red := Arrival.empty, got := y.got || k != 0 })
    let d2 := if poison then d1.usedFree else d1
    let a := provPiece x j p k false poison (partialCode x.fmt x.wide) x.pf us d2 m
    (a.1.sendPiece x j p k (if poison then d.poisonUnits x j p else us) poison, a.2)

/-- A piece whose operand is staged and which needs nothing from another gateway goes out: at pos[0] of a reduce tour, or at the owner
of a kind without one. It waits for the start of the collective and for its engine (R103, R116). -/
def pieceGo (id j p : Nat) (d : Dev) (m : List Host.Cell) : Dev × List Host.Cell :=
  match d.coll id with
  | none => (d, m)
  | some x =>
    let y := x.piece j p
    let me := x.posOfSite d.site
    match y.operand with
    | none => (d, m)
    | some us =>
      if !x.started || x.ended.isSome || y.reduced || y.final || !d.engineOn x j then (d, m)
      else if x.reduces then (if x.pos j p 0 = me then reduceEmit id j p 0 us y.poison d m else (d, m))
      else if x.ownerPos j p = me then ownerFinish id j p us y.poison d m else (d, m)

/-- Every staged piece of a collective that may go out does. -/
def collKick (id : Nat) (d : Dev) (m : List Host.Cell) : Dev × List Host.Cell :=
  match d.coll id with
  | none => (d, m)
  | some x => (x.pieces.filter (fun y => y.operand.isSome)).foldl (fun (a : Dev × List Host.Cell) y => pieceGo id y.chunk y.piece a.1 a.2) (d, m)

/-- TOUR_CTL_WRITE (R5, R103): with ENABLE = 1 the chunks that waited at the engine go on. -/
def execTourCtlWrite (w : Fin 4) (l : Lanes) (d : Word) (s : State) : Res :=
  .next (if s.dev.ready && s.dev.wingPresent w then s.onBoth (fun x m =>
    let x1 := (x.tourCtlWrite w l d).shadowsFrom x
    if x1.on R.TOUR_CTL.ENABLE w then (x1.colls.map (·.id)).foldl (fun (a : Dev × List Host.Cell) id => collKick id a.1 a.2) (x1, m)
    else (x1, m)) else s)

/-! ### The local stage (R76, R111, R112) -/

/-- The next source operand joins the running local sum (R111). -/
def Coll.stageUnits (x : Coll) (first : Nat) (bytes : List Byte) : ASum :=
  let u := widenList x.fmt x.wide (toUnits (unitBytes x.fmt) bytes)
  match x.acc with
  | none => u
  | some a =>
    let r := combineList x.pf x.redop (x.ctx (0xC0 + x.reader)) first a u.codes
    ⟨r.codes, u.sat + r.sat, u.nan + r.nan⟩

/-- Source bytes of a collective arrive; `faults` are the errors of the local combine (R89 to R92), which the first reader of a piece does
not make. -/
def collData (id : Nat) (data : List Byte) (faults : List BeatFault) (d : Dev) (m : List Host.Cell) : Dev × List Host.Cell :=
  match d.coll id with
  | none => (d, m)
  | some x =>
    if x.ended.isSome then (d, m)
    else
      let j := x.cursor / x.n
      let p := x.cursor % x.n
      let w := x.wingOf j
      let a := match x.readers[x.reader]? with
        | some k => d.rankBytes x k data
        | none => (d, data)
      let d0 := a.1
      let bytes := x.buf ++ a.2
      if bytes.length < x.pieceBytes j p then ((d0.updColl id (fun x => { x with buf := bytes, reading := false })).stageAsk id, m)
      else
        let r := x.stageUnits (x.pieceFirst j p) bytes
        let rp := if x.acc.isSome then d0.replays w x.redop faults else (d0, 0, [])
        let bad := !rp.2.2.isEmpty
        let d1 := if bad then rp.1.set R.TOUR_ERR.RESID w 1 else rp.1.arith w r.sat r.nan
        let d2 := ((d1.updPiece id j p (fun z => { z with events := z.events + rp.2.1, poison := z.poison || bad })).updColl id (fun z =>
          { z with events := z.events + rp.2.1 })).laneFault w
        if x.reader + 1 < x.readers.length then
          ((d2.updColl id (fun x => { x with buf := [], acc := some r.codes, reader := x.reader + 1, reading := false })).stageAsk id, m)
        else
          let d3 := d2.updColl id (fun y => { (y.setPiece { y.piece j p with operand := some r.codes }) with
            buf := [], acc := none, reader := 0, reading := false, cursor := y.cursor + 1 })
          let a := pieceGo id j p d3 m
          (a.1.stageAsk id, a.2)

/-! ### Admission (R95, R108 to R110, R116, R117) -/

/-- The held descriptors in ascending rank order. -/
def insertMember (k : Member) : List Member → List Member
  | [] => [k]
  | a :: t => if a.rank ≤ k.rank then a :: insertMember k t else k :: a :: t

/-- A collective starts here (R95, R107, R116): with another number of enabled wings it is withdrawn with BAD_DESCRIPTOR. Its start is a
tour-phase boundary of its wings (R12, R99). -/
def collStart (id : Nat) (d : Dev) (m : List Host.Cell) : Dev × List Host.Cell :=
  match d.coll id with
  | none => (d, m)
  | some x =>
    if !x.admitted || x.started || x.ended.isSome then (d, m)
    else if d.enabledWings.length ≠ x.wings then (d.collFail id 0x01 true, m)
    else
      let d1 := (List.range x.wings).foldl (fun (a : Dev) i => a.phaseBoundary (x.movedTo i)) d
      collKick id (d1.updColl id (fun x => { x with
        started := true, raceK := d.f R.TOURSET.RACE_K x.ts, raceLag := d.f R.TOURSET.RACE_LAG x.ts })) m

/-- A PINNED tenant lacks a context that the collective needs toward the next site of a ring (R157). -/
def Dev.pinnedLacks (d : Dev) (x : Coll) : Bool :=
  let me := x.posOfSite d.site
  !d.on R.TENANT.PLACE_MODE x.tenant && (List.range (min x.chunks (x.rings * x.wings))).any (fun j =>
    match d.ctxOf ⟨x.job, x.nextSite j me, x.ringOf j + 1, x.wingOf j⟩ with
    | some c => (d.ctx c).state != .opened && (d.ctx c).state != .acceding
    | none => true)

/-- The bound version is staged in wings 0 to W − 1 (R140, R142). -/
def Dev.collBind (d : Dev) (id : Nat) : Dev :=
  match d.coll id with
  | none => d
  | some x =>
    match d.bindOf x.job (partialCode x.fmt x.wide) x.id with
    | none => d
    | some b =>
      let d1 := ((List.range x.wings).map x.movedTo).foldl (fun (a : Dev) w => (a.stage w b.1 b.2 true).1) (d.refTake b)
      d1.updColl id (fun x => { x with bind := some b })

/-- Race copies that won before the admission are recovery events of their pieces and of the collective (R119, R120). -/
def Coll.takeWins (x : Coll) (l : List (Nat × Nat × Nat × Nat)) : Coll :=
  (l.filter (fun e => e.1 == x.id && e.2.1 == x.print)).foldl (fun (a : Coll) e =>
    let y := a.piece e.2.2.1 e.2.2.2
    { a.setPiece { y with events := y.events + 1 } with events := a.events + 1 }) x

/-- The wings of a collective whose quarters are fenced already when it is admitted: their chunks run on the next enabled wing, as those of a
quarter fenced later do (R95; DESIGN CHOICE, log entry 111). -/
def Dev.fencedMoves (d : Dev) (wings : Nat) : List (Nat × Nat) :=
  ((List.range wings).filter (fun w => !d.wingEnabled w)).map (fun w => (w, d.nextWing w))

/-- Admission of a collective whose LOCAL descriptors are held. An earlier collective of its COLL_ID no longer has its segments discarded
(DESIGN CHOICE, log entry 98). -/
def collAdmit (id : Nat) (d : Dev) (m : List Host.Cell) : Dev × List Host.Cell :=
  match d.coll id with
  | none => (d, m)
  | some x =>
    if x.admitted || x.ended.isSome || x.members.length < x.nlocal then (d, m)
    else
      let mem := x.members.foldl (fun (a : List Member) k => insertMember k a) []
      let full := decide (256 ≤ d.f R.TOUR_COLL.ACTIVE)
      let y := ({ x with members := mem, admitted := true, print := x.formPrint x.print, seed := d.f R.TENANT.SEED x.tenant, moved := d.fencedMoves x.wings } : Coll).takeWins
        d.raceWins
      let d1 := ({ d with
        deadColls := d.deadColls.filter (fun (e : Nat × Nat) => e.1 != id),
        raceWins := d.raceWins.filter (fun (e : Nat × Nat × Nat × Nat) => e.1 != id) } : Dev).updColl id (fun _ => y)
      if full then (d1.collFail id 0x05 true, m)
      else
        let d2 := (d1.collCount).collBind id
        let late := diff40 x.start d.ns40
        if x.kind = 3 ∧ x.rootSite = d.site ∧ y.readers.isEmpty then (d2.collFail id 0x03 true, m)
        else if d.pinnedLacks y then (d2.collFail id 0x03 true, m)
        else if x.start ≠ 0 ∧ late < -d.grace then (d2.collFail id 0x0E true, m)
        else
          let d3 := d2.stageAsk id
          if x.start ≠ 0 ∧ late < 0 then
            collStart id ((List.range x.wings).foldl (fun (a : Dev) w => a.bump R.VAR_LATE.VALUE w) d3) m
          else if x.start = 0 ∧ d.itinMode = 0 then collStart id d3 m
          else (d3, m)

/-- COLLECTIVE_ADMIT. -/
def execCollectiveAdmit (coll : BitVec 32) (s : State) : Res := .next (s.onBoth (collAdmit coll.toNat))

/-- COLLECTIVE_START (R116): START has come. A collective with START = 0 starts with its phase. -/
def execCollectiveStart (coll : BitVec 32) (s : State) : Res :=
  .next (match s.dev.coll coll.toNat with
  | none => s
  | some x => if x.start ≠ 0 ∧ diff40 x.start s.dev.ns40 ≤ 0 then s.onBoth (collStart coll.toNat) else s)

/-- PHASE_START (R12, R116, R225, R240): the tour-start action of a phase starts the collectives bound to it, in Itinerary mode; PROV_MODE
takes effect. ARG[15:0] names the phase. -/
def execPhaseStart (w : Fin 4) (s : State) : Res :=
  .next (match s.dev.dueEntry w with
  | none => s
  | some e =>
    if e.action ≠ 6 then s
    else
      let d1 := s.dev.runEntry w 6 (fun _ _ x => if x.itinMode = 0 then x else x.phaseBoundary w)
      let ran := s.dev.f R.ITIN_STAT_EXECUTED.EXECUTED w < d1.f R.ITIN_STAT_EXECUTED.EXECUTED w
      let s1 := s.onDev (fun _ => d1)
      if ran ∧ d1.itinMode = 1 then
        s1.onBoth (fun d m => ((d.colls.filter (fun x => x.start == 0 && x.phase == e.arg % 65536)).map (·.id)).foldl
          (fun (a : Dev × List Host.Cell) id => collStart id a.1 a.2) (d, m))
      else s1)

/-! ### The reduce step and the gather pass (R75, R90 to R94) -/

/-- The reduce step of a piece at this gateway. With a failed beat none of its SAT and NAN is counted (DESIGN CHOICE, log entry 138). -/
def reduceStep (id j p : Nat) (faults : List BeatFault) (d : Dev) (m : List Host.Cell) : Dev × List Host.Cell :=
  match d.coll id with
  | none => (d, m)
  | some x =>
    let y := x.piece j p
    let me := x.posOfSite d.site
    let w := x.wingOf j
    let k := x.redIdx j p me
    let rp := if y.red.poison then (d, 0, []) else d.replays w x.redop faults
    let bad := y.poison || y.red.poison || !rp.2.2.isEmpty
    let r := combineList x.pf x.redop (x.ctx k) (x.pieceFirst j p) y.red.units (y.operand.getD [])
    let d1 := if rp.2.2.isEmpty then rp.1 else rp.1.set R.TOUR_ERR.RESID w 1
    let d2 := if bad then d1 else d1.arith w r.sat r.nan
    let d3 := (d2.updPiece id j p (fun z => { z with events := z.events + rp.2.1 })).updColl id (fun z => { z with events := z.events + rp.2.1 })
    let a := if k + 1 < x.n then reduceEmit id j p k r.codes bad d3 m else ownerFinish id j p r.codes bad d3 m
    (a.1.laneFault w, a.2)

/-- A final piece passes this gateway on its gather tour (R75, R113): written unless it is poisoned, and forwarded unchanged. -/
def gatherPass (id j p : Nat) (d : Dev) (m : List Host.Cell) : Dev × List Host.Cell :=
  match d.coll id with
  | none => (d, m)
  | some x =>
    let y := x.piece j p
    let k := x.gatIdx j p (x.posOfSite d.site)
    let d1 := d.updPiece id j p (fun z => { z with final := true, poison := z.poison || y.gat.poison, gat := Arrival.empty, got := true })
    let a := if y.gat.poison then (d1, m) else pieceWrite id j p (ofUnits (unitBytes x.fmt) (x.finalUnits y.gat.units)) d1 m
    let out := if y.gat.poison then d.poisonUnits x j p else y.gat.units
    let b := if y.gat.poison then a.1.usedFree else a.1
    (if k + 1 < x.n then b.sendPiece x j p k out y.gat.poison else b, a.2)

/-- PARTIAL_COMBINE (R75, R76, R90 to R94, R103, R118): a whole piece that has arrived for a started collective, at an engine that is
enabled. `faults` are the beats that fail their first residue check. -/
def execPartialCombine (coll : BitVec 32) (chunk : Nat) (piece : Fin 32) (faults : List BeatFault) (s : State) : Res :=
  .next (match s.dev.coll coll.toNat with
  | none => s
  | some x =>
    let y := x.piece chunk piece
    if !x.started || x.ended.isSome || !s.dev.engineOn x chunk then s
    else if y.red.whole ∧ y.operand.isSome ∧ !y.reduced then s.onBoth (reduceStep coll.toNat chunk piece faults)
    else if y.gat.whole ∧ !y.final then s.onBoth (gatherPass coll.toNat chunk piece)
    else s)

/-! ### Ends (R117, R119, R156) -/

/-- A withdrawal elsewhere leaves the destination of a gather kind undefined here whether or not it has started here (R124). `b` is the
device before the end. -/
def Dev.othersGather (d b : Dev) (id st : Nat) : Dev :=
  if (b.coll id).any (fun c => c.ended.isNone && decide (2 ≤ c.kind)) && [0x01, 0x03, 0x05, 0x0E].contains st then
    d.updColl id (fun c => { c with spoil := [(0, c.len)] })
  else d

/-- COLL_END_RECEIVE (R117, R123, R274): the collective ends with the status carried, and this gateway sends its own notice; while its records
are not all written a later copy changes the status as R123 orders failures. Afterwards copies are ignored by COLL_ID and KEY: a collective of
that COLL_ID which is not over is another one (how long: DESIGN CHOICE, log entry 98). A gateway that holds no descriptor of the COLL_ID ignores
the notice (DESIGN CHOICE, log entry 98). -/
def execCollEndReceive (m : ServiceMsg) (tagOk : Bool) (s : State) : Res :=
  .next (s.onDev (fun d => d.service m tagOk (fun x =>
    let id := m.id.toNat
    let key := m.key.toNat
    if x.collOld id key && (x.coll id).all (fun c => c.ended.isNone) then x.noteCollEnd id key
    else if (x.coll id).isNone then x
    else ((x.collFail id m.status.toNat true).othersGather x id m.status.toNat).noteCollEnd id key)))

/-- Something this gateway sent for a collective is still to be cut or not receipted. -/
def Dev.collOut (d : Dev) (id : Nat) : Bool :=
  d.tourWait.any (fun e => e.2.2.2.2.coll == id) ||
    d.ctxs.any (fun e => e.2.sendq.any (fun t => t.kind == 3 && t.coll == id) || e.2.log.any (fun g => !g.receipted && g.seg.typ == 3 && segColl g.seg == id))

/-- Every piece is done at this gateway. -/
def Coll.allDone (x : Coll) (me : Nat) : Bool :=
  (List.range x.chunks).all (fun j => (List.range x.n).all (fun p => x.pieceDone me j p))

/-- COLLECTIVE_COMPLETE (R92, R119): one record per local descriptor, in rank order. A poisoned piece makes it RESIDUE_FAULT, which goes
out as a notice (R123). -/
def execCollectiveComplete (coll : BitVec 32) (s : State) : Res :=
  .next (match s.dev.coll coll.toNat with
  | none => s
  | some x =>
    if !x.started || x.ended.isSome || x.owed != 0 || !x.allDone (x.posOfSite s.dev.site) || s.dev.collOut x.id then s
    else s.onBoth (fun d m =>
      let bad := x.pieces.any (·.poison)
      let st := if bad then 0x09 else if x.events = 0 then 0 else 0x10
      let d1 := if bad then d.collFail x.id 0x09 true
        else (x.members.foldl (fun (a : Dev) k => a.endOp k.ring k.index st) d).updColl x.id (fun y => { y with ended := some st })
      let d2 := x.members.foldl (fun (a : Dev) k => a.updOp k.ring k.index (fun o => { o with events := x.events })) d1.collCount
      let r := x.members.foldl (fun (a : Dev × List Host.Cell) k =>
        match a.1.getOp k.ring k.index with
        | none => a
        | some o =>
          let e := spoilDest (a.1.undefDest o) a.1 a.2
          let b := writeRecord (e.1.f R.SQ_CTL.CQ k.ring) (e.1.opRec o) true e.1 e.2
          (b.1.opGone o, b.2)) (d2, m)
      (r.1.collForget, r.2)))

/-- PINNED_CHUNK_WAIT_EXPIRY (R156): PEER_LEASE after the move, chunks of a PINNED tenant's collective still wait for a context on their new
wing. -/
def execPinnedChunkWaitExpiry (coll : BitVec 32) (s : State) : Res :=
  .next (s.onDev (fun d =>
    match d.coll coll.toNat with
    | none => d
    | some x =>
      if x.ended.isNone && !x.moved.isEmpty && decide (x.movedFor ≤ d.since x.movedAt) && !d.on R.TENANT.PLACE_MODE x.tenant && d.tourWait.any (fun e => e.2.2.2.2.coll == x.id) then
        d.collFail x.id 0x0F true
      else d))

/-! ### Race copies (R120) -/

/-- STEP of a TOUR segment (Table 6.4). -/
def segStep (g : Segment) : Nat := ofBE (slice g.tail 14 1) % 32

/-- The index of the last segment of a piece on one step of a tour, once it has been cut. -/
def Ctx.lastSeg (x : Ctx) (id j p step : Nat) : Option Nat :=
  (x.log.find? (fun g => g.seg.last && segOf id j p g.seg && segStep g.seg == step)).map (fun g => g.seg.segidx.toNat)

/-- The window rule of R230 for a context's class and tenant. -/
def Dev.windowAdmits (d : Dev) (m : Nat) (x : Ctx) : Bool := d.windowFor m x.cls (d.ctxTenant x)

/-- A carrier may carry a context's class toward its site: no anchor, in its transmit group, scheduled toward it, in an open window, with
no retune, park or close of the window within two frames (R230, R231). -/
def Dev.classCarrier (d : Dev) (m : Nat) (x : Ctx) : Bool :=
  !isAnchor m && d.txSite m == some x.site && (d.kwOf m).txJoined && d.windowAdmits m x && !d.closing m x.cls (d.ctxTenant x)

/-- The carriers of a context's home wing that may carry its segments. -/
def Dev.ringCarriers (d : Dev) (x : Ctx) : List Nat := ((List.range 32).map (· + 32 * x.home)).filter (d.classCarrier · x)

/-- Bytes queued on a carrier: in its frames' queue, and cut segments that wait in the logs for their first transmission on it. -/
def Dev.carLoad (d : Dev) (m : Nat) : Nat :=
  ((d.lineOf m).txq.map (fun e => e.2.length)).sum + (d.lineOf m).txRest.length +
    (d.ctxs.map (fun e => ((e.2.log.filter (fun g => g.carrier == m && g.attempts == 0)).map (·.size)).sum)).sum

/-- RACE_COPY: a tail segment still queued RACE_LAG after its cut is copied onto a least-loaded carrier of the ring on the other plane of
the wing, or on the same plane if the ring has none there. -/
def execRaceCopy (c : Fin 32768) (seq : BitVec 32) (m : Fin 128) (s : State) : Res :=
  .next (s.onDev (fun d =>
    let x := d.ctx c
    match x.log.find? (fun g => g.seq % 2 ^ 32 == seq.toNat && g.seg.typ == 3 && g.attempts == 0 && !g.raced) with
    | none => d
    | some g =>
      match d.coll (segColl g.seg) with
      | none => d
      | some k =>
        let jp := segPiece g.seg
        let tail := match x.lastSeg k.id jp.1 jp.2 (segStep g.seg) with | some i => decide (i - g.seg.segidx.toNat < k.raceK) | none => false
        let all := (d.ringCarriers x).filter (· != g.carrier)
        let other := all.filter (fun a => carrierEngine a != carrierEngine g.carrier)
        let from_ := if other.isEmpty then all else other
        if k.ended.isNone && tail && decide (k.raceLag * 1000 ≤ d.since g.cutAt) && from_.contains m.val && from_.all (fun a => decide (d.carLoad m ≤ d.carLoad a)) then
          let d1 := d.onCtx c (fun y => { y with log := y.log.map (fun (e : LogEnt) => if e.seq = g.seq then { e with raced := true } else e) })
          (d1.onLine m (fun y => { y with txq := y.txq ++ [(true, segBytes g.seg)] })).emit (.segment m true g.seg)
        else d))

end Sys2Proof.Machine
end

