-- ==== Sys2Proof/Machine/Memio.lean ====
section
/-! DEFINITION. What memory answers (R330 to R339, R346): received LRM packets and their checks, meters and rate limiters, read data
delivered to what asked for it, acknowledgements, failures and retries. -/

namespace Sys2Proof.Machine

open Sys2Proof

/-! ### Received frames (R331, Tables 12.2 and 12.3) -/

/-- The fields of an LRM frame: IPv6 traffic class, addresses, UDP part, LRM header and payload. -/
structure LrmIn where
  ce : Bool
  src : List Byte
  ep : Nat
  typ : Nat
  tenant : Nat
  tag : Nat
  addr : Nat
  payload : List Byte
  len : Nat
deriving DecidableEq, Repr

/-- The frame's fields as they stand: 14 bytes Ethernet, 40 IPv6, 8 UDP, 16 LRM, the payload, 4 FCS. -/
def lrmParse (raw : List Byte) : LrmIn :=
  let udpLen := ofBE (slice raw 58 2)
  { ce := ofBE (slice raw 14 4) / 2 ^ 20 % 4 == 3, src := slice raw 22 16, ep := ofBE (slice raw 35 3), typ := leAt raw 62 1 % 16,
    tenant := ofBE (slice raw 64 2) % 1024, tag := ofBE (slice raw 66 4), addr := ofBE (slice raw 70 8),
    payload := slice raw 78 (udpLen - 24), len := raw.length }

/-- The acceptance checks of R331. -/
def Dev.lrmOk (d : Dev) (raw : List Byte) : Bool :=
  let udpLen := ofBE (slice raw 58 2)
  let udp := slice raw 54 udpLen
  decide (82 ≤ raw.length) && ofBE (slice raw 12 2) == 0x86DD && leAt raw 20 1 == 17 &&
  slice raw 38 16 == d.fabAddr (d.f R.FAB_SELF.SELF_EP) && ofBE (slice raw 56 2) == d.f R.FAB_ADDR1.UDP && slice raw 22 13 == d.fabPrefix &&
  decide (24 ≤ udpLen) && decide (54 + udpLen + 4 ≤ raw.length) && udpLen == ofBE (slice raw 18 2) &&
  ofBE (slice raw 60 2) != 0 && onesSum (pseudoHeader (slice raw 22 16) (slice raw 38 16) udp) == 65535 && leAt raw 62 1 / 16 == 1

/-- Table 12.3 has the type, in the direction of the gateway. -/
def lrmTypeIn (t : Nat) : Bool := [2, 4, 5, 6, 7].contains t

/-! ### Header samples (R346) -/

/-- Packets of a direction (0 receive, 1 transmit) are counted and sampled. -/
def Dev.sampling (d : Dev) (dir : Nat) : Bool := d.on R.FAB_HS.EN && (d.f R.FAB_HS.DIR).testBit dir

/-- One packet in a direction of a physical port, its first byte at the port at an NS40 time: every 2^K-th is written as a record, following
R101. -/
def headerSample (p dir time : Nat) (raw : List Byte) (d : Dev) (m : List Host.Cell) : Dev × List Host.Cell :=
  if !d.sampling dir then (d, m)
  else
    let key := 2 * (p / 4) + dir
    let n := countOf d.hsSeen key + 1
    if n < 2 ^ min 20 (d.f R.FAB_HS.K) then ({ d with hsSeen := setCount d.hsSeen key n }, m)
    else
      let d1 := { d with hsSeen := setCount d.hsSeen key 0 }
      let size := 2 ^ d.f R.FAB_HS_BASE.SIZE_LOG
      let wr := d.f R.FAB_HS_IDX.WR
      if idxSub wr (d.f R.FAB_HS_IDX.RD) = size then (d1.bump R.FAB_HS_DROP.DROP 0, m)
      else
        let r := leBytes 8 (time % 2 ^ 40 + 2 ^ 40 * (p % 128) + 2 ^ 47 * dir + 2 ^ 48 * (raw.length % 2 ^ 14)) ++ slice raw 0 120
        (d1.set R.FAB_HS_IDX.WR 0 (idxAdd wr 1), memWrite m (memKey 0 (d.f R.FAB_HS_BASE.ADDR + 128 * (wr % size))) r)

/-! ### Rate limiters (R337) -/

/-- The limiter of a flow: its index and state. -/
def Dev.limiterOf (d : Dev) (tenant ep : Nat) (write : Bool) : Option (Nat × Limiter) :=
  d.limiters.find? (fun e => e.2.tenant == tenant && e.2.ep == ep && e.2.write == write)

/-- Replace a limiter. -/
def Dev.setLimiter (d : Dev) (i : Nat) (x : Limiter) : Dev := { d with limiters := tabIns i x d.limiters }

/-- The index a new limiter takes: the lowest free one, or that of the highest rate, the lowest index on a tie. -/
def Dev.limiterSlot (d : Dev) : Nat :=
  if d.limiters.length < 16384 then ((List.range 16384).find? (fun i => d.limiters.all (fun e => e.1 != i))).getD 0
  else (d.limiters.foldl (fun (b : Option (Nat × Limiter)) e => match b with
    | none => some e
    | some x => if x.2.rate < e.2.rate then some e else b) none).elim 0 (·.1)

/-- A reduced rate. -/
def Dev.cutRate (d : Dev) (r : Nat) : Nat := max (10 * max (d.f R.FAB_ECN.RMIN) 1) (r * (256 - d.f R.FAB_ECN.DEC) / 256)

/-- Congestion on a flow (R337): its limiter is reduced at most once per CNP_INT; the first reduction creates it at the port's rate. -/
def Dev.reduceRate (d : Dev) (tenant ep : Nat) (write : Bool) : Dev :=
  match d.limiterOf tenant ep write with
  | some (i, x) =>
    if d.since x.cut < max (d.f R.FAB_ECN.CNP_INT) 1 * 1000 then d
    else d.setLimiter i { x with rate := d.cutRate x.rate, cut := d.now, raised := d.now }
  | none =>
    match d.egressPort ep tenant with
    | none => d
    | some p => d.setLimiter d.limiterSlot { tenant := tenant, ep := ep, write := write, rate := d.cutRate (d.portRate p), cut := d.now, next := d.now, raised := d.now }

/-- RATE_INCREASE (R337): RAI_INT has passed since the limiter was last reduced or raised; one that reaches the rate of its egress port is
freed. -/
def execRateIncrease (i : Fin 16384) (s : State) : Res :=
  .next (s.onDev (fun d =>
    match d.limiters.find? (fun e => e.1 == i.val) with
    | none => d
    | some (_, x) =>
      let r := x.rate + d.f R.FAB_ECN.RAI
      if d.since x.raised < max (d.f R.FAB_ECN.RAI_INT) 1 * 1000 then d
      else
      let top := match d.egressPort x.ep x.tenant with | some p => decide (d.portRate p ≤ r) | none => false
      if top then { d with limiters := d.limiters.filter (fun (e : Nat × Limiter) => e.1 != i.val) } else d.setLimiter i { x with rate := r, raised := d.now }))

/-! ### Delivery, acknowledgement, failure (R332, R334) -/

/-- An outstanding request is over. -/
def Dev.dropReq (d : Dev) (tag : Nat) : Dev := { d with reqs := d.reqs.filter (fun (q : Req) => q.tag != tag) }

/-- The request a response answers: sent, of the response's tenant and endpoint. -/
def Dev.reqFor (d : Dev) (x : LrmIn) (write : Bool) : Option Req :=
  d.reqs.find? (fun q => q.tag == x.tag && q.write == write && !q.host && decide (0 < q.attempts) && q.tenant == x.tenant && q.node == x.ep)

/-- Data reaches what asked for it; `faults` are the errors of the combine that it leads to, of a PUT_REDUCE of this site or of the local
stage (R89). Lanes fenced by it may be too many for the wing (R91). -/
def deliver (use : ReqUse) (data : List Byte) (faults : List BeatFault) (d : Dev) (m : List Host.Cell) : Dev × List Host.Cell :=
  match use with
  | .fetch n => (d.fetchArrive n data, m)
  | .opRead n i =>
    let p := opData n i data faults d m
    (if faults.isEmpty then p.1 else p.1.laneFault (d.enabledWings.headD 0), p.2)
  | .tgtRead c o => (d.tgtData c o data, m)
  | .collRead id => collData id data faults d m
  | _ => (d, m)

/-- A write is in memory. -/
def Dev.acked (d : Dev) (use : ReqUse) : Dev :=
  match use with
  | .opWrite n i => d.opAck n i
  | .tgtWrite c o => (d.updTgt c o (fun t => { t with owed := t.owed - 1 })).tgtSettle c o
  | .collWrite id => d.updColl id (fun x => { x with owed := x.owed - 1 })
  | .tgtAtom c o v => d.answer c o v
  | .opAtom n i v => (d.updOp n i (fun o => { o with value := v })).okOp n i
  | _ => d

/-- A request fails (R334): what follows depends on what it served. -/
def Dev.reqFailed (d : Dev) (use : ReqUse) (st : Nat) : Dev :=
  match use with
  | .fetch n => d.fetchFail n
  | .record q => d.set R.CQ_ERR.WRITE q 1
  | .opRead n i => d.endOp n i st
  | .opWrite n i => d.endOp n i st
  | .tgtRead c o => d.failTgt c o st
  | .tgtWrite c o => d.failTgt c o st
  | .tgtAtom c o _ => d.failTgt c o st
  | .opAtom n i _ => d.endOp n i st
  | .collRead id => d.collFail id st true
  | .collWrite id => d.collFail id st true
  | .signal => d
  | .quiet => d

/-- A received packet of a type (R331, R338, R346): sampled, and with FAB_CTL.ENABLE = 1 checked, metered, and handed on with its colour. A packet of another type of
Table 12.3 is not this command's. -/
def lrmReceive (p : Nat) (raw : List Byte) (typ : Nat) (act : LrmIn → Bool → Dev → List Host.Cell → Dev × List Host.Cell) (s : State) : State :=
  if !s.dev.lportUp p then s
  else s.onBoth (fun d m =>
    let x := lrmParse raw
    let good := d.lrmOk raw && lrmTypeIn x.typ
    if good && x.typ != typ then (d, m)
    else
      let a := headerSample p 0 d.ns40 raw d m
      if !d.on R.FAB_CTL.ENABLE then a
      else if !good then (a.1.bump R.FAB_PORT_CNT.RX_DROP (p / 4), a.2)
      else
        let r := a.1.meter x.tenant x.len
        act x r.2 r.1 a.2)

/-- Bytes of a read that its parts show; none where one is missing. -/
def gathered (addr len : Nat) (parts : List (Nat × List Byte)) : Option (List Byte) :=
  (List.range len).mapM (fun i => (parts.find? (fun q => decide (q.1 ≤ addr + i) && decide (addr + i < q.1 + q.2.length))).bind (fun q => q.2[addr + i - q.1]?))

/-- LRM_READ_RESP (R332, R334, R337): the data of a READ_REQ that is complete goes to what asked for it. -/
def execLrmReadResp (p : Fin 128) (m : ReadResp) (s : State) : Res :=
  .next (lrmReceive p m.frame.raw 2 (fun x _ d mem =>
    let d1 := if x.ce then d.reduceRate x.tenant x.ep false else d
    match d1.reqFor x false with
    | none => (d1.bump R.FAB_ERR.DUP_RESP 0, mem)
    | some q =>
      let parts := q.parts ++ [(x.addr, x.payload)]
      match gathered q.addr q.len parts with
      | none => ({ d1 with reqs := d1.reqs.map (fun (r : Req) => if r.tag = q.tag then { r with parts := parts } else r) }, mem)
      | some data =>
        let a := deliver q.use data m.faults ((d1.recoverReq q.tag).dropReq q.tag) mem
        (a.1.releaseReads, a.2)) s)

/-- The memory behind an acknowledged write: it fills now where its use says so. -/
def ackMemory (q : Req) (m : List Host.Cell) : List Host.Cell :=
  if q.use.atAck then memWrite m (memKey (nodeSpace false q.node) q.addr) q.data else m

/-- LRM_WRITE_ACK (R332, R334). -/
def execLrmWriteAck (p : Fin 128) (m : LrmPacket) (s : State) : Res :=
  .next (lrmReceive p m.raw 4 (fun x _ d mem =>
    match d.reqFor x true with
    | none => (d.bump R.FAB_ERR.DUP_RESP 0, mem)
    | some q => (((d.recoverReq q.tag).dropReq q.tag).acked q.use, ackMemory q mem)) s)

/-- LRM_NAK (R334): the endpoint refuses the address. -/
def execLrmNak (p : Fin 128) (m : LrmPacket) (s : State) : Res :=
  .next (lrmReceive p m.raw 7 (fun x _ d mem =>
    match (d.reqFor x false).orElse (fun _ => d.reqFor x true) with
    | none => (d.bump R.FAB_ERR.DUP_RESP 0, mem)
    | some q => (((d.reqFailed q.use 0x03).dropReq q.tag).recoverSweep, mem)) s)

/-- LRM_CNP (R337): the write limiter of the flow is reduced. -/
def execLrmCnp (p : Fin 128) (m : LrmPacket) (s : State) : Res :=
  .next (lrmReceive p m.raw 6 (fun x _ d mem => ((d.bump R.FAB_PORT_CNT2.CNP_RX (p.val / 4)).reduceRate x.tenant x.ep true, mem)) s)

/-- LRM_DOORBELL (R333, R339): applied as a BAR2 doorbell when the queue's tenant matches; a red one is dropped. -/
def execLrmDoorbell (p : Fin 128) (m : LrmPacket) (s : State) : Res :=
  .next (lrmReceive p m.raw 5 (fun x red d mem =>
    let q := x.addr / 2 ^ 48 % 2 ^ 13
    let idx := x.addr % 2 ^ 32
    if red then (d.bump R.FTEN.DB_RED x.tenant, mem)
    else if 4096 ≤ q then (d.dbDrop, mem)
    else if x.addr / 2 ^ 63 = 0 then
      (if d.f R.SQ_CTL.TENANT q = x.tenant then d.ringDoorbell 1 x.ep q idx else d.dbDrop, mem)
    else if d.f R.CQ_CTL.TENANT q = x.tenant then queueDoorbell 1 x.ep q idx d mem
    else (d.dbDrop, mem)) s)

/-- LRM_RETRY_TIMEOUT (R334): RTO, as it stood when the request was last sent (R13), has passed without the whole answer: the request is sent again, and fails after 8 attempts. -/
def execLrmRetryTimeout (tag : BitVec 32) (s : State) : Res :=
  .next (s.onDev (fun d =>
    match d.reqs.find? (fun q => q.tag == tag.toNat && !q.host && decide (0 < q.attempts)) with
    | none => d
    | some q =>
      if d.since q.sentAt < q.rto then d
      else if 8 ≤ q.attempts then ((d.reqFailed q.use 0x0A).dropReq q.tag).recoverSweep
      else
        let q1 := { q with attempts := q.attempts + 1, parts := [], sentAt := d.now, rto := d.lrmRto }
        (({ d with reqs := d.reqs.map (fun (r : Req) => if r.tag = q.tag then q1 else r) } : Dev).transmit q1).releaseReads))

/-- PCIE_READ_COMPLETION (R55): the completion of a whole read of host memory. -/
def execPcieReadCompletion (tag : BitVec 32) (data : ReadData) (s : State) : Res :=
  .next (match s.dev.reqs.find? (fun q => q.tag == tag.toNat && q.host && !q.write) with
  | none => s
  | some q => if data.bytes.length = q.len then s.onBoth (fun d m => deliver q.use data.bytes data.faults (d.dropReq q.tag) m) else s)

/-! ### Ports (R330) -/

/-- The lanes of a logical port (Table 12.1). -/
def Dev.laneMaskOf (d : Dev) (p : Nat) : Nat :=
  let k := p % 4
  match d.f R.FAB_PORT_CFG.MODE (p / 4) with
  | 0 => 0xFF
  | 1 => 0xF * 2 ^ (4 * k)
  | 2 => 3 * 2 ^ (2 * k)
  | _ => 2 ^ (2 * k)

/-- PORT_STATE_CHANGE (R330, R373): a port that goes down discards its queue, and the requests it carried are watched (R376). -/
def execPortStateChange (p : Fin 128) (up : Bool) (s : State) : Res :=
  .next (s.onDev (fun d =>
    let old := d.f R.FAB_PORT_STAT.UP (p.val / 4)
    let bit := 2 ^ (p.val % 4)
    if !d.lportExists p then d
    else if up then d.set R.FAB_PORT_STAT.UP (p.val / 4) (old ||| bit)
    else if !d.lportUp p then d
    else
      let hit := (d.reqs.filter (fun q => !q.host && decide (0 < q.attempts) && d.egressPort q.node q.tenant == some p.val)).map (·.tag)
      let d1 := (d.recoverStart (fun _ _ => false) hit).set R.FAB_PORT_STAT.UP (p.val / 4) (old - bit)
      (d1.discardPort p).alarm 6 (p.val / 4) 0x030 1 (d.laneMaskOf p)))

/-- BPM_POOL_STAT_READ (R189): LOW starts again from the present FREE. -/
def execBpmPoolStatRead (p : Fin 64) (s : State) : Res :=
  .next (if s.dev.ready then s.onDev (fun d =>
    let d1 := d.emit (.readData (d.word (R.BPM_POOL_STAT.FREE.key p)))
    d1.set R.BPM_POOL_STAT.LOW p (d.f R.BPM_POOL_STAT.FREE p)) else s)

end Sys2Proof.Machine
end

