-- ==== Sys2Proof/Machine/Streams.lean ====
section
/-! DEFINITION. Commands on stream contexts (R157 to R163, R188), receipts and retransmission (R169 to R175, R315, R316, R318), loss of
stacks and quarters as contexts see it (R156, R180, R181), buffer pools (R183). -/

namespace Sys2Proof.Machine

open Sys2Proof

/-! ### STREAM_CMD (R188, Table 6.10) -/

/-- A context refuses new operations from now on; those of a PINNED tenant that still wait for it end with ACCESS_DENIED (R162). -/
def Dev.drainCtx (d : Dev) (c : Nat) : Dev :=
  let x := d.ctx c
  let d1 := d.onCtx c (fun y => { y with state := .draining })
  if d.on R.TENANT.PLACE_MODE (d.ctxTenant x) then d1
  else (d1.waiters x.key).foldl (fun (a : Dev) o => a.refuseOp o.ring o.index 0x03) d1

/-- OPEN: the key and placement that STREAM_CMD0 and STREAM_CMD1 name; a PLACED tenant's home wing and stack are the gateway's choice
(R49). -/
def Dev.openAsked (d : Dev) : OpenReq :=
  let job := d.f R.STREAM_CMD0.JOB
  let cls := d.f R.STREAM_CMD0.CLASS
  let k : CtxKey := ⟨job, d.f R.STREAM_CMD0.SITE, cls, if cls = 0 then 0 else d.f R.STREAM_CMD0.WING⟩
  let placed := d.on R.TENANT.PLACE_MODE (d.f R.JOB.TENANT job)
  { key := k, home := if placed then d.homeOf k else if cls = 0 then d.f R.STREAM_CMD0.HOME else k.wing,
    tx := d.f R.STREAM_CMD0.TX_POOL, rx := d.f R.STREAM_CMD0.RX_POOL, mirror := d.on R.STREAM_CMD0.MIRROR,
    stack := d.f R.STREAM_CMD0.STACK, pages := d.f R.STREAM_CMD1.PAGES, winMax := d.f R.STREAM_CMD1.WIN_MAX, cmd := true }

/-- STREAM_CMD with OP = OPEN. A job that is not valid or this gateway's own site has no context (the model's choice of statuses). -/
def Dev.cmdOpen (d : Dev) : Dev :=
  let r := d.openAsked
  if !d.on R.JOB.VALID r.key.job then d.cmdDone 0x03 0x7FFF
  else if r.key.site = d.site then d.cmdDone 0x01 0x7FFF
  else match d.ctxOf r.key with
    | some c =>
      match (d.ctx c).state with
      | .acceding | .opened => d.cmdDone 0 c
      | _ => d.cmdDone 0x12 0x7FFF
    | none =>
      let p := d.startAccession r
      if p.1 ≠ 0 then (if p.1 = d.clusterCheck r.home ∧ p.1 = 0x12 then p.2.1.set R.STREAM_ERR.BUSY 0 1 else p.2.1).cmdDone p.1 0x7FFF
      else if (p.2.1.ctx p.2.2).cmd then p.2.1
      else p.2.1.cmdDone 0 p.2.2

/-- STREAM_CMD with OP = CLOSE. -/
def Dev.cmdClose (d : Dev) (c : Nat) : Dev :=
  match (d.ctx c).state with
  | .opened => (d.drainCtx c).cmdDone 0 c
  | .draining => d.cmdDone 0 c
  | .closed => d.cmdDone 0x01 0x7FFF
  | _ => d.cmdDone 0x12 0x7FFF

/-- STREAM_CMD with OP = ABORT (R163). -/
def Dev.cmdAbort (d : Dev) (c : Nat) : Dev :=
  match (d.ctx c).state with
  | .closed => d.cmdDone 0x01 0x7FFF
  | _ => (d.abortCtx c true).cmdDone 0 c

/-- A write of STREAM_CMD0 (R188): ignored with BUSY while GO = 1; with GO written 1 the command runs. -/
def Dev.streamCmd (d : Dev) (l : Lanes) (w : Word) : Dev :=
  if d.on R.STREAM_CMD0.GO then d.set R.STREAM_ERR.BUSY 0 1
  else
    let d1 := (d.writeFields (R.STREAM_CMD0.GO.key 0) true l w).1
    if wrote l w R.STREAM_CMD0.GO = 0 then d1.set R.STREAM_CMD0.GO 0 0
    else
      let d2 := d1.set R.STREAM_CMD0.GO 0 1
      let c := d2.f R.STREAM_CMD0.STREAM
      match d2.f R.STREAM_CMD0.OP with
      | 1 => d2.cmdOpen
      | 2 => d2.cmdClose c
      | 3 => d2.cmdAbort c
      | _ => d2.cmdDone 0x01 0x7FFF

/-- The write names an OP and sets GO. -/
def cmdIs (w : Word) (op : Nat) : Bool := bitsOf w R.STREAM_CMD0.OP.lo R.STREAM_CMD0.OP.w == op && bitsOf w R.STREAM_CMD0.GO.lo 1 == 1

/-- STREAM_OPEN (R157, R158, R188). -/
def execStreamOpen (d : Word) (s : State) : Res :=
  .next (if s.dev.ready && cmdIs d 1 then s.onDev (fun x => x.streamCmd .full d) else s)
/-- STREAM_CLOSE (R162, R188). -/
def execStreamClose (d : Word) (s : State) : Res :=
  .next (if s.dev.ready && cmdIs d 2 then s.onDev (fun x => x.streamCmd .full d) else s)
/-- STREAM_ABORT (R163, R188). -/
def execStreamAbort (d : Word) (s : State) : Res :=
  .next (if s.dev.ready && cmdIs d 3 then s.onDev (fun x => x.streamCmd .full d) else s)

/-! ### Accession messages (R158 to R163) -/

/-- ACCEDE_RECEIVE. -/
def execAccedeReceive (m : AccessionMsg) (tagOk : Bool) (s : State) : Res :=
  .next (s.onDev (fun d => d.fromSite m.site.toNat tagOk (fun a => a.accede m)))

/-- ACCEPT_RECEIVE (R161): the answer to this context's ACCEDE, which T_ECHO names, opens it; RTT0 is the time since T_ECHO. Where no key
can be derived the accession fails (R324). -/
def execAcceptReceive (m : AccessionMsg) (tagOk : Bool) (s : State) : Res :=
  .next (s.onDev (fun d => d.fromSite m.site.toNat tagOk (fun a =>
    let c := m.dst.toNat
    let x := a.ctx c
    if x.state = .acceding ∧ x.site = m.site.toNat ∧ x.tTx = m.tEcho.toNat then
      if a.noDerive x then a.failCtx c 0x0D else a.openCtx c m (a.tai - x.tTx) false
    else a)))

/-- REFUSE_RECEIVE (R160): what waits takes the peer's status. -/
def execRefuseReceive (m : AccessionMsg) (tagOk : Bool) (s : State) : Res :=
  .next (s.onDev (fun d => d.fromSite m.site.toNat tagOk (fun a =>
    let c := m.dst.toNat
    let x := a.ctx c
    if x.state = .acceding ∧ x.site = m.site.toNat ∧ m.status ≠ 0 then
      (((a.cmdEnd c m.status.toNat).endWork c m.status.toNat).onCtx c (fun y => { y with status := m.status.toNat })).closeCtx c
    else a)))

/-- Receiver snapshots of DELTA_PUTs that context c carried go when it is deacceded and the peer cannot be reached (R44). -/
def Dev.deltaUnreached (d : Dev) (c : Nat) : Dev :=
  let x := d.ctx c
  let gone := match d.peerOf x.site with | some p => d.f R.HEALTH_PEER.STATE p != 0 | none => true
  if x.cls == 0 && gone then
    (d.deltasIn.filter (fun y => y.site == x.site && y.jobId == d.f R.JOB.JOB_ID x.job)).foldl (fun (a : Dev) y => a.deltaInFree y) d
  else d

/-- A message names this end's context and the peer's. -/
def Ctx.named (x : Ctx) (m : AccessionMsg) : Bool :=
  x.site == m.site.toNat && x.peerStream == m.src.toNat && x.peerGen == m.gen.toNat

/-- The context of this end that a message from a site names: DST_STREAM, or, where the sender had no answer yet and DST_STREAM is 0x7FFF, the
one whose peer's context is SRC_STREAM with GEN (DESIGN CHOICE, log entry 99). -/
def Dev.namedCtx (d : Dev) (m : AccessionMsg) : Nat :=
  if m.dst = 0x7FFF then
    match d.ctxs.find? (fun e => e.2.named m && (e.2.state == .opened || e.2.state == .draining)) with
    | some e => e.1
    | none => 0x7FFF
  else m.dst.toNat

/-- DEACCEDE_RECEIVE (R162, R163). An ACCEDE still held that an ABORT takes back is forgotten (DESIGN CHOICE, log entry 99). -/
def execDeaccedeReceive (m : AccessionMsg) (tagOk : Bool) (s : State) : Res :=
  .next (s.onDev (fun d => d.fromSite m.site.toNat tagOk (fun d =>
    let a := if m.status = 0x0F then { d with heldAccedes := d.heldAccedes.filter (fun (h : HeldAccede) =>
      !(h.msg.site == m.site && h.msg.src == m.src && h.msg.gen == m.gen)) } else d
    let c := a.namedCtx m
    let x := a.ctx c
    if !x.named m || !(x.state == .opened || x.state == .draining) then a
    else if m.status = 0x0F then ((((a.endWork c 0x0F).sendDeaccede c 0xD 0).deltaUnreached c).closeCtx c)
    else (a.drainCtx c).onCtx c (fun y => { y with deRcvd := true }))))

/-- DEACCEDE_ACK_RECEIVE (R162). -/
def execDeaccedeAckReceive (m : AccessionMsg) (tagOk : Bool) (s : State) : Res :=
  .next (s.onDev (fun d => d.fromSite m.site.toNat tagOk (fun a =>
    let c := m.dst.toNat
    let x := a.ctx c
    if x.named m && x.state == .draining && x.deSent then (a.deltaUnreached c).closeCtx c else a)))

/-- ACCESSION_TIMEOUT (R160): no answer within PEER_LEASE of the ACCEDE. -/
def execAccessionTimeout (c : Fin 32768) (s : State) : Res :=
  .next (s.onDev (fun d =>
    if (d.ctx c).state = .acceding ∧ (d.ctx c).waitFor ≤ d.since (d.ctx c).since then
      (((d.cmdEnd c 0x0B).endWork c 0x0B).onCtx c (fun y => { y with status := 0x0B })).closeCtx c
    else d))

/-- ACCEDE_HOLD_EXPIRY (R159): a PINNED host has not opened the context within PEER_LEASE. -/
def execAccedeHoldExpiry (job : Fin 4096) (site : Fin 32) (cls : Fin 16) (w : Fin 4) (s : State) : Res :=
  .next (s.onDev (fun d =>
    let k : CtxKey := ⟨job, site, cls, if cls.val = 0 then 0 else w⟩
    let t := d.f R.JOB.TENANT job
    match d.heldAccedes.find? (fun h => d.msgJob h.msg == some job.val && msgKey job h.msg == k) with
    | some h =>
      if d.on R.TENANT.PLACE_MODE t || (d.ctxOf k).isSome || decide (d.since h.since < h.wait) then d
      else
        let d1 := { d with heldAccedes := d.heldAccedes.filter (fun (x : HeldAccede) => x != h) }
        d1.sendRefuse h.msg (d.on R.TENANT.SEC_MODE t) 0x03
    | none => d))

/-- IDLE_CLOSE (Table 6.2): no operation for STREAM_DFLT.IDLE_CLOSE ms. -/
def execIdleClose (c : Fin 32768) (s : State) : Res :=
  .next (s.onDev (fun d =>
    let x := d.ctx c
    if x.state = .opened ∧ d.f R.STREAM_DFLT.IDLE_CLOSE ≠ 0 ∧ (d.opsOn c).isEmpty ∧ x.sendq.isEmpty ∧ x.tgt.isEmpty ∧
        d.f R.STREAM_DFLT.IDLE_CLOSE * 1000000 ≤ d.since x.lastUse then d.drainCtx c
    else d))

/-- Everything this end sent is receipted, nothing arriving is unfinished, and its operations are complete (Table 6.2). What the peer has
still open does not count once it has sent DEACCEDE. -/
def Dev.drained (d : Dev) (c : Nat) : Bool :=
  let x := d.ctx c
  x.sendq.isEmpty && x.log.isEmpty && x.held.isEmpty && (d.opsOn c).isEmpty && (x.tgt.isEmpty || x.deRcvd)

/-- DRAIN_COMPLETE (R162): DEACCEDE goes out; a peer's DEACCEDE is answered and the context closes. -/
def execDrainComplete (c : Fin 32768) (s : State) : Res :=
  .next (s.onDev (fun d =>
    let x := d.ctx c
    if x.state ≠ .draining ∨ !d.drained c then d
    else if x.deRcvd then ((d.sendDeaccede c 0xD 0).deltaUnreached c).closeCtx c
    else if x.deSent then d
    else (d.sendDeaccede c 0xC 0).onCtx c (fun y => { y with deSent := true })))

/-! ### Receipts (R169, R170, R318) -/

/-- The GCM IV (R318): TYPE 1 for a receipt, DIR from the two sites, COUNT. -/
def gcmIv (receipt : Bool) (sender addressee count : Nat) : List Byte :=
  beBytes 4 (2 ^ 31 * b2n receipt + 2 ^ 30 * b2n (decide (addressee < sender))) ++ beBytes 8 (count % 2 ^ 32)

/-- The active Catalogue version as segments and receipts carry it (R218). -/
def Dev.cepNow (d : Dev) : Bool := d.f R.CAT_STATE.ACTIVE == 1

/-- BASE of the next receipt (R170): CUM + 1 on the first one, and on the first one after CUM changes. -/
def Ctx.nextBase (x : Ctx) : Nat :=
  if !x.rcpted || x.rcvCum != x.lastCum then x.rcvCum + 1
  else if x.sackBase + 256 ≤ x.rcvHigh then x.sackBase + 256
  else x.rcvCum + 1

/-- The credit a receipt grants (R169): receive loans less the segments held in them. -/
def Ctx.creditNow (x : Ctx) : Nat := x.rxBufs.length - x.held.length

/-- Take one further receive loan when the window could use it (R169, R184); how many a receipt asks for is the model's choice. -/
def Dev.growCredit (d : Dev) (c : Nat) : Dev :=
  let x := d.ctx c
  if x.creditNow < min x.winMax (2 ^ 20) then (d.borrow c false).1 else d

/-- Send a receipt on context c with a resend request (REASON 0: none). Without the key of CUM's epoch none can be formed (R316). The tour
segments that it shows count as receipted from here on (R122, DEDUCED, log entry 129). -/
def Dev.sendReceipt (d : Dev) (c reason nseq : Nat) : Dev :=
  let d1 := d.growCredit c
  let x := d1.ctx c
  let e := epochOf x.rcvCum
  match d1.streamKey x false e with
  | none => d1
  | some k =>
    let base := x.nextBase
    let r : Receipt :=
      { kph := e % 2 == 1, cep := d1.cepNow, gen := BitVec.ofNat 8 x.peerGen, reason := BitVec.ofNat 4 reason,
        dst := BitVec.ofNat 15 x.peerStream, cum := BitVec.ofNat 32 x.rcvCum, high := BitVec.ofNat 32 x.rcvHigh,
        base := BitVec.ofNat 32 base, nseq := BitVec.ofNat 32 (if reason = 0 then 0 else nseq), rseq := BitVec.ofNat 32 x.rseqOut,
        credit := BitVec.ofNat 32 x.creditNow,
        sack := BitVec.ofNat 256 (((List.range 256).filter (fun i => x.rcvd.contains (base + i))).foldl (fun a i => a + 2 ^ i) 0) }
    let tag := (Config.gcmSeal k (gcmIv true d1.site x.site x.rseqOut) (receiptBytes r) []).2
    let shown := fun (f : Nat × ItemKey) => decide (f.1 < x.rcvCum) || (decide (base ≤ f.1) && decide (f.1 < base + 256))
    let d2 := d1.onCtx c (fun y => { y with
      rseqOut := y.rseqOut + 1, lastRcpt := d1.now, arrived := 0, sackBase := base, lastCum := y.rcvCum, creditSent := y.creditNow,
      granted := max y.granted (y.rcvCum + y.creditNow), rcpted := true, fresh := y.fresh.filter (fun f => !shown f),
      shownItems := (y.shownItems ++ (y.fresh.filter shown).map (·.2)).eraseDups })
    d2.send x.site (.receipt r tag)

/-- The triggers of R169 that an arrival can meet: RCPT_CNT segments, and credit that has grown from 0. -/
def Dev.receiptCheck (d : Dev) (c : Nat) : Dev :=
  let x := d.ctx c
  if x.state ≠ .opened ∧ x.state ≠ .draining then d
  else if max (d.f R.STREAM_TIMER.RCPT_CNT) 1 ≤ x.arrived ∨ (x.creditSent = 0 ∧ 0 < x.creditNow) then d.sendReceipt c 0 0
  else d

/-- RECEIPT_TIMER (R169): RCPT_INT has passed since the last receipt and a segment has arrived since then. -/
def execReceiptTimer (c : Fin 32768) (s : State) : Res :=
  .next (s.onDev (fun d =>
    let x := d.ctx c
    if (x.state = .opened ∨ x.state = .draining) ∧ x.arrived ≠ 0 ∧ max (d.f R.STREAM_TIMER.RCPT_INT) 1 * 1000 ≤ d.since x.lastRcpt then
      d.sendReceipt c 0 0
    else d.receiptCheck c))

/-! ### Retransmission (R166, R171 to R174) -/

/-- A round-trip sample m in ns (R161, R171). -/
def Ctx.sample (x : Ctx) (m : Nat) : Ctx :=
  if x.rttFresh then { x with srtt := m, rttvar := m / 2, rttFresh := false }
  else
    let dev : Int := ((((m : Int) - (x.srtt : Int)).natAbs : Nat) : Int)
    { x with rttvar := ((x.rttvar : Int) + (dev - (x.rttvar : Int)) / 4).toNat,
             srtt := ((x.srtt : Int) + ((m : Int) - (x.srtt : Int)) / 8).toNat }

/-- The whole sequence number near a reference that a 32-bit one stands for. -/
def wholeSeq (near v : Nat) : Int := (near : Int) + diff32 v near

/-- A retained segment as a receipt shows it: CUM has passed it, or its SACK bit is set (R170). -/
def shownBy (r : Receipt) (cum base : Int) (seq : Nat) : Bool :=
  decide ((seq : Int) < cum) || (decide (base ≤ (seq : Int)) && r.sack.getLsbD ((seq : Int) - base).toNat && decide ((seq : Int) < base + 256))

/-- R173: reported missing beyond DUP_THR, and last sent at least SRTT / 2 ago. -/
def Dev.missing (d : Dev) (x : Ctx) (cum base high : Int) (e : LogEnt) : Bool :=
  (decide ((e.seq : Int) = cum) || (decide (base ≤ (e.seq : Int)) && decide ((e.seq : Int) < base + 256))) &&
  decide ((max (d.f R.STREAM_TIMER.DUP_THR) 1 : Nat) ≤ high - (e.seq : Int)) && decide (x.srtt / 2 ≤ d.since e.lastSend)

/-- Segments queued again under R173 are counted. -/
def Dev.nackResend (d : Dev) (c : Nat) (pick : LogEnt → Bool) : Dev :=
  let x := d.ctx c
  let n := (x.log.filter (fun e => pick e && !e.receipted && decide (0 < e.attempts) && !e.resend)).length
  (d.bump R.STREAM_STAT_NACK_RESEND.NACK_RESEND x.home n).markResend c pick

/-- An accepted receipt (R167, R170 to R173, R176, R316, R376). -/
def Dev.takeReceipt (d : Dev) (c : Nat) (r : Receipt) : Dev :=
  let x := d.ctx c
  let cum := wholeSeq x.sndUna r.cum.toNat
  if cum < (x.sndUna : Int) ∨ (x.sndNxt : Int) < cum then d
  else
    let base := wholeSeq cum.toNat r.base.toNat
    let high := wholeSeq cum.toNat r.high.toNat
    let fresh := x.log.any (fun e => !e.receipted && shownBy r cum base e.seq)
    let prog := decide ((x.sndUna : Int) < cum) || fresh
    let last := x.log.find? (fun e => (e.seq : Int) + 1 == cum && e.attempts == 1 && !e.raced)
    let y0 := if (x.sndUna : Int) < cum then (match last with | some e => x.sample (d.now - e.lastSend) | none => x) else x
    let log := (x.log.map (fun (e : LogEnt) => if shownBy r cum base e.seq then { e with receipted := true, resend := false } else e)).filter
      (fun (e : LogEnt) => decide (cum ≤ (e.seq : Int)))
    let open_ := log.any (fun e => !e.receipted)
    let y := { y0 with
      rseqIn := some r.rseq.toNat, sndUna := cum.toNat, credit := r.credit.toNat, log := log,
      backoff := if prog then 0 else x.backoff, timer := if !open_ then none else if prog then some (d.now, d.rtoRun { y0 with backoff := 0 }) else x.timer }
    let d1 := d.setCtx c y
    let d2 := if epochOf x.sndUna < epochOf cum.toNat then d1.enterEpoch y true (epochOf cum.toNat) else d1
    let d3 := d2.nackResend c (d2.missing y cum base high)
    let d4 := if r.reason = 0 then d3 else d3.nackResend c (fun e => decide ((e.seq : Int) = wholeSeq cum.toNat r.nseq.toNat))
    d4.recoverRcpt c

/-- RECEIPT_RECEIVE (R168, R169, R172, R218, R319). -/
def execReceiptReceive (r : Receipt) (tagOk : Bool) (s : State) : Res :=
  .next (s.onDev (fun d =>
    let c := r.dst.toNat
    let x := d.ctx c
    if !d.on R.STREAM_CTL.ENABLE then d
    else if !d.cepOk r.cep then d.bump R.CAT_ERR.CEP_STALE 0
    else if (x.state ≠ .opened ∧ x.state ≠ .draining) ∨ x.gen ≠ r.gen.toNat then d
    else if !tagOk then d.bump R.VT_CNT2.RCPT_AUTH 0
    else d.fromSite x.site true (fun a =>
      match x.rseqIn with
      | some old => if 0 < diff32 r.rseq.toNat old then a.takeReceipt c r else a
      | none => a.takeReceipt c r)))

/-- RETRANSMISSION_TIMEOUT (R172). -/
def execRetransmissionTimeout (c : Fin 32768) (s : State) : Res :=
  .next (s.onDev (fun d =>
    let x := d.ctx c
    match x.timer with
    | none => d
    | some (t, run) =>
      if d.since t < run then d
      else
        let b := min (x.backoff + 1) 7
        let d1 := (d.bump R.STREAM_STAT_TIMEOUT.TIMEOUT x.home).onCtx c (fun y => { y with
          timer := some (d.now, d.rtoRun { x with backoff := b }), backoff := b })
        match x.log.find? (fun e => !e.receipted && decide (0 < e.attempts) && decide (d.rto x ≤ d.since e.lastSend)) with
        | some e => d1.markResend c (fun g => g.seq == e.seq)
        | none => d1))

/-! ### Stacks (R180, R181) -/

/-- STACK_FAILURE. -/
def execStackFailure (k : Fin 8) (s : State) : Res :=
  .next (s.onDev (fun d => if d.wingPresent (k.val / 2) then d.stackFail k else d))

/-- The direction's log is placed again on stack k with n pages (R180). -/
def Dev.relocate (d : Dev) (c k n : Nat) : Dev :=
  let x := d.ctx c
  let t := d.ctxTenant x
  let d1 := d.annexDrop t x.home x.copyA x.logPages
  (d1.annexTake t k n).setCtx c { x with copyA := k, copyB := k, stack := k % 2, logPages := n, noLog := false, stackWait := none }

/-- ANNEX_RELOCATE (R180): one RTO after the failure of the stack that held an unmirrored log. -/
def execAnnexRelocate (c : Fin 32768) (s : State) : Res :=
  .next (s.onDev (fun d =>
    let x := d.ctx c
    match x.stackWait with
    | none => d
    | some k =>
      let other := if k % 2 = 0 then k + 1 else k - 1
      let free := d.stackFree other
      if d.since x.since < x.waitFor then d
      else if x.log.any (fun e => !e.receipted) then d.failCtx c 0x0C
      else if d.on R.ANNEX_STK.FAILED other ∨ free < 2 then d.failCtx c 0x0C
      else d.relocate c other (min x.pages free)))

/-- ANNEX_RSLV.LEFT: copying runs at RESILVER_BW (DESIGN CHOICE, log entry 100). -/
def Dev.resilverLeft (d : Dev) : Nat := (d.resilver.map d.resilverRest).sum

/-- RESILVER_COMPLETE (R181): nothing of the survivor's live log of context c is left to copy, and its mirror is whole again; the target was
placed when resilvering started. -/
def execResilverComplete (c : Fin 32768) (s : State) : Res :=
  .next (s.onDev (fun d =>
    if d.resilver.any (fun r => r.ctx == c.val && d.resilverRest r == 0) then
      let d1 := { d with resilver := d.resilver.filter (fun (r : Resilver) => r.ctx != c.val) }
      if d1.resilver.isEmpty then d1.set R.ANNEX_RSLV.STATE 0 2 else d1
    else d))

/-! ### A fenced quarter's contexts (R156) -/

/-- The sending of a piece was cut short (R122): a partial that came from another gateway is lost with DATA_LOST; this gateway's own
contribution is staged and sent again, unless its piece is already final here. -/
def Dev.pieceAgain (d : Dev) (id j p : Nat) : Dev :=
  match d.coll id with
  | none => d
  | some x =>
    let y := x.piece j p
    if x.ended.isSome || (x.reduces && y.final) then d
    else if y.got then d.collFail id 0x0C true
    else (d.updPiece id j p (fun y => { y with operand := none, reduced := false, final := false })).stageAsk id

/-- Tour pieces that context c has not finished sending leave it (R122). Those with no byte cut wait for a context of the next wing: a PLACED
tenant's accede there, a PINNED tenant's wait for their host. -/
def Dev.movePieces (d : Dev) (c : Nat) : Dev :=
  let x := d.ctx c
  if x.cls = 0 then d
  else
    let v := d.nextWing x.home
    let k : CtxKey := { x.key with wing := v }
    let part := (x.sendq.filter (fun t => t.kind == 3 && t.sent != 0)).map (fun t => (t.coll, t.chunk, t.piece))
    let again := part ++ (x.log.filter (fun e => !e.receipted && e.seg.typ == 3)).map (fun e => (segColl e.seg, segPiece e.seg))
    let mine := x.sendq.filter (fun t => t.kind == 3 && t.sent == 0)
    let d1 := d.onCtx c (fun y => { y with
      sendq := y.sendq.filter (fun (t : SendItem) => t.kind != 3), log := y.log.filter (fun (e : LogEnt) => e.receipted || e.seg.typ != 3) })
    let d2 := again.eraseDups.foldl (fun (a : Dev) e => a.pieceAgain e.1 e.2.1 e.2.2) d1
    let keep := mine.filter (fun t => match d2.coll t.coll with | some y => y.ended.isNone | none => false)
    let d3 := { d2 with tourWait := d2.tourWait ++ keep.map (fun t => (k.job, k.site, k.cls, k.wing, t)) }
    match d3.ctxOf k with
    | some e => if (d3.ctx e).state = .opened then d3.ctxOpened e else d3
    | none => d3.wantCtx k v

/-- An operation starts over on another context (R156): the move is one recovery event. -/
def Dev.restartOp (d : Dev) (o : Op) : Dev :=
  let d1 := d.updOp o.ring o.index (fun o => { o with
    stage := .waiting, ctx := none, opn := none, asked := 0, got := 0, owed := 0, allIn := false, delta := [], events := o.events + 1 })
  { d1 with reqs := d1.reqs.filter (fun (q : Req) => !servesOp o.ring o.index q.use) }

/-- QUARTER_CONTEXT_END (R156, R122): one RTO after the fence of its home quarter, context c fails with DATA_LOST where a segment is
unreceipted; otherwise it closes, and its operations, those that waited for it too, go on elsewhere (PLACED) or end (PINNED). -/
def execQuarterContextEnd (c : Fin 32768) (s : State) : Res :=
  .next (s.onDev (fun d =>
    let x := d.ctx c
    if !x.fenceWait || decide (d.since x.since < x.waitFor) then d
    else
      let bad := x.log.filter (fun e => !e.receipted)
      if !bad.isEmpty then
        let d1 := (d.opsOn c).foldl (fun (a : Dev) o => a.endOp o.ring o.index 0x0C) (d.cmdEnd c 0x0C)
        let d3 := d1.movePieces c
        let d4 := d3.ctxRefsDrop c
        ((d4.recoverGone c).onCtx c (fun y => { y with
          state := .failed, status := 0x0C, log := [], sendq := [], held := [], rx := [], tgt := [], timer := none, fenceWait := false })).settleFailed c
      else
        let placed := d.on R.TENANT.PLACE_MODE (d.ctxTenant x)
        let mine := d.opsOn c ++ (if placed || x.state != .acceding then [] else d.waiters x.key)
        let d1 := mine.foldl (fun (a : Dev) o => if placed then a.restartOp o else a.endOp o.ring o.index 0x0F) (d.cmdEnd c 0x0F)
        let d2 := d1.movePieces c
        let d3 := if x.state = .opened ∨ x.state = .draining then d2.sendDeaccede c 0xC 0 else d2
        (d3.releaseCtx c).keyFree x.key (d3.nextWing x.home)))

/-! ### Buffer pools (R183) -/

/-- No buffer of the pool is on loan or reserved (IDLE). -/
def Dev.poolIdle (d : Dev) (p : Nat) : Bool := (d.lent p).isEmpty && d.poolResv p == 0

/-- The bytes of a pool: first and one past the last. -/
def Dev.poolSpan (d : Dev) (p : Nat) : Nat × Nat :=
  let b := d.f R.BPM_POOL_BASE.BASE p
  (b, b + d.f R.BPM_POOL_CFG.COUNT p * d.f R.BPM_POOL_CFG.SIZE p * 64)

/-- Two address ranges share a byte. -/
def overlaps (a b : Nat × Nat) : Bool := decide (a.1 < b.2) && decide (b.1 < a.2)

/-- The pool may be enabled (R183). -/
def Dev.poolOk (d : Dev) (p : Nat) : Bool :=
  let loc := d.f R.BPM_POOL_CFG.LOC p
  let s := d.poolSpan p
  d.f R.BPM_POOL_CFG.SIZE p != 0 && d.f R.BPM_POOL_CFG.COUNT p != 0 && d.f R.BPM_POOL_BASE.BASE p % 64 == 0 &&
  (if loc < 4 then decide (s.2 ≤ 2 ^ 28) && d.wingEnabled loc
   else loc == 4 && !overlaps s (d.f R.COURIER_HBM_BASE.ADDR, d.f R.COURIER_HBM_LIMIT.ADDR + 1) &&
     (List.range 64).all (fun k => k == p || !d.on R.BPM_POOL_CFG.EN k || d.f R.BPM_POOL_CFG.LOC k != 4 || !overlaps s (d.poolSpan k)) &&
     s.1 / 2 ^ 37 == (s.2 - 1) / 2 ^ 37 && d.wingEnabled (s.1 / 2 ^ 37))

/-- POOL_ENABLE: a write of BPM_POOL_CFG_p (R11, R183). -/
def Dev.poolWrite (d : Dev) (p : Nat) (l : Lanes) (w : Word) : Dev :=
  let was := d.on R.BPM_POOL_CFG.EN p
  let d1 := d.writeReg (R.BPM_POOL_CFG.EN.key p) (!was && d.poolIdle p) l w R.BPM_ERR.BUSY
  if !was && d1.on R.BPM_POOL_CFG.EN p then
    if d1.poolOk p then (d1.set R.BPM_POOL_STAT.LOW p (d1.poolFree p)).poolSync p
    else (d1.set R.BPM_POOL_CFG.EN p 0).set R.BPM_ERR.MISMATCH 0 1
  else d1

/-- POOL_ENABLE. -/
def execPoolEnable (p : Fin 64) (l : Lanes) (d : Word) (s : State) : Res :=
  .next (if s.dev.ready then s.onDev (fun x => x.poolWrite p l d) else s)

end Sys2Proof.Machine
end

