-- ==== Sys2Proof/Machine/Cut.lean ====
section
/-! DEFINITION. SEGMENT_CUT (R135, R136, R143, R144, R164, R165, R167, R176, R230, R316, R318): blocks are coded, segments cut, sealed and
kept in the Annex. -/

namespace Sys2Proof.Machine

open Sys2Proof

/-! ### Which carrier may carry a segment (R121, R153, R230, R340) -/

/-- Carrier m may carry a segment of context x: in its transmit group, reaching the peer, in an open window. Class r + 1 keeps to the wing
of its ring while that wing has such a carrier (R121). -/
def Dev.mayCarry (d : Dev) (m : Nat) (x : Ctx) : Bool :=
  let ok := fun k => d.classCarrier k x
  ok m && (x.cls == 0 || carrierWing m == x.home || !((List.range 32).map (· + 32 * x.home)).any ok)

/-- A carrier's optical margin is POOR (R386). -/
def Dev.poorCarrier (d : Dev) (m : Nat) : Bool := d.f R.MARGIN.STATE (128 * 2 + m) == 2

/-- A PLACED segment keeps off a POOR carrier while a better one is eligible (R388). -/
def Dev.marginAdmits (d : Dev) (m : Nat) (x : Ctx) : Bool :=
  !d.on R.TENANT.PLACE_MODE (d.ctxTenant x) || !d.poorCarrier m ||
  !((List.range 128).any (fun k => !d.poorCarrier k && d.mayCarry k x))

/-- Carrier m is chosen for a segment of context x (R230): a PLACED tenant's takes, of the eligible carriers that are not POOR, or of all
when all are, one with the fewest bytes queued; a PINNED tenant's any eligible one (log entry 107). -/
def Dev.chosen (d : Dev) (m : Nat) (x : Ctx) : Bool :=
  d.mayCarry m x && (!d.on R.TENANT.PLACE_MODE (d.ctxTenant x) ||
    (let all := (List.range 128).filter (fun k => d.mayCarry k x)
     let good := all.filter (fun k => !d.poorCarrier k)
     (good.isEmpty || !d.poorCarrier m) && (if good.isEmpty then all else good).all (fun k => decide (d.carLoad m ≤ d.carLoad k))))

/-- Carrier m is scheduled to carry context x's class toward its site, in its group or not: a segment may be queued for it (R234). -/
def Dev.scheduledFor (d : Dev) (m : Nat) (x : Ctx) : Bool := !isAnchor m && d.txSite m == some x.site && d.windowAdmits m x

/-! ### Blocks (R135, R143, R144) -/

/-- Bytes in memory of a whole block. -/
def blkBytes (cf : Nat) : Nat := blockUnits cf * (codedFmt cf).bytes

/-- A block of an item can be coded: a whole one is staged, or the rest of the item. -/
def SendItem.canCode (t : SendItem) : Bool := !t.plain && !t.raw.isEmpty && (decide (blkBytes t.fmt ≤ t.raw.length) || t.left == 0)

/-- Code the next block of an item on wing w for a job: CODED with the bound version when it is staged there; with REASON 1 when it is
not, and staging is asked for again (R143). A bound operation counts in the slot it holds, whatever becomes of VALID (R144; DESIGN CHOICE, log
entry 112). -/
def Dev.codeOne (d : Dev) (w job : Nat) (t : SendItem) : Dev × SendItem :=
  let part := t.raw.take (blkBytes t.fmt)
  let us := toUnits (codedFmt t.fmt).bytes part
  let r : Dev × List Byte × Bool := match t.bind with
    | none => (d, rawBlock t.fmt 0 us, false)
    | some (slot, ver) =>
      if d.isStaged w slot ver then (d.touchTab w slot ver, codeBlock t.fmt slot ver (d.slotImg slot ver) us)
      else (((d.stage w slot ver true).1).bump R.VAR_RAW_FALLBACK.VALUE w, rawBlock t.fmt 1 us, false)
  let d1 := match (t.bind.map (·.1)).orElse (fun _ => d.slotFor job t.fmt t.tid) with | some n => r.1.histCount n w t.fmt us | none => r.1
  let d2 := if r.2.2 then d1.bump R.CODEC_STAT_CODED.CODED w else d1.bump R.CODEC_STAT_RAW.RAW w
  let d3 := (d2.bump R.CODEC_STAT_IN_BYTES.IN_BYTES w part.length).bump R.CODEC_STAT_OUT_BYTES.OUT_BYTES w r.2.1.length
  (d3, { t with raw := t.raw.drop (blkBytes t.fmt), starts := t.starts ++ [t.sent + t.bytes.length], bytes := t.bytes ++ r.2.1 })

/-- Code blocks until a whole segment is ready or nothing more can be coded; a block is longer than 20 bytes, so 1,024 steps are
enough. -/
def Dev.codeUp : Nat → Dev → Nat → Nat → SendItem → Dev × SendItem
  | 0, d, _, _, t => (d, t)
  | n + 1, d, w, job, t =>
    if 16384 ≤ t.bytes.length ∨ !t.canCode then (d, t)
    else
      let p := d.codeOne w job t
      Dev.codeUp n p.1 w job p.2

/-- The item would have nothing more after the bytes that are ready. -/
def SendItem.over (t : SendItem) : Bool := t.raw.isEmpty && t.left == 0

/-- A segment of the item can be cut. -/
def SendItem.cuttable (t : SendItem) : Bool := t.bare || decide (16384 ≤ t.bytes.length) || (t.over && !t.bytes.isEmpty)

/-- The item could give a segment once its staged bytes are coded. -/
def SendItem.hopeful (t : SendItem) : Bool :=
  t.cuttable || (t.canCode && (t.left == 0 || decide (16384 ≤ t.bytes.length + t.raw.length)))

/-! ### The segment (R164 to R167, R316, R318) -/

/-- BLK_OFF of the next segment (R136). -/
def SendItem.blkOff (t : SendItem) : Nat :=
  match t.starts.find? (fun a => decide (t.sent ≤ a)) with
  | some a => if a < t.sent + min 16384 t.bytes.length then a - t.sent else 0xFFFF
  | none => 0xFFFF

/-- The next segment of an item on context x, before encryption; the operation number is given with the first segment of a request. -/
def Dev.formSeg (d : Dev) (x : Ctx) (t : SendItem) (opn : Nat) : Segment :=
  let e := epochOf x.sndNxt
  { ver := 1, typ := BitVec.ofNat 4 t.kind, kph := e % 2 == 1, cep := d.cepNow, first := t.segidx == 0,
    last := t.bare || (t.over && decide (t.bytes.length ≤ 16384)), poison := t.poison, gen := BitVec.ofNat 8 x.peerGen,
    cls := BitVec.ofNat 4 x.cls, wing := BitVec.ofNat 2 x.home, dst := BitVec.ofNat 15 x.peerStream, seq := BitVec.ofNat 32 x.sndNxt,
    opn := BitVec.ofNat 16 opn, segidx := BitVec.ofNat 24 t.segidx, blkOff := BitVec.ofNat 16 (if t.plain || t.bare then 0xFFFF else t.blkOff),
    opcode := BitVec.ofNat 8 t.opcode, tail := t.tail, payload := t.bytes.take 16384, tag := [] }

/-- Encrypt a segment under a key (R318). -/
def Dev.sealSeg (d : Dev) (x : Ctx) (k : List Byte) (g : Segment) : Segment :=
  let r := Config.gcmSeal k (gcmIv false d.site x.site x.sndNxt) (segHeader g) g.payload
  { g with payload := r.1, tag := r.2 }

/-- The window of R167, log room, and a direction that may cut (R156, R180). -/
def Dev.mayCut (d : Dev) (x : Ctx) (size : Nat) : Bool :=
  d.on R.STREAM_CTL.ENABLE && (x.state == .opened || x.state == .draining) && !x.noLog && !x.fenceWait && d.wingEnabled x.home &&
  decide (x.sndNxt - x.sndUna < min (min x.winMax x.credit) (2 ^ 20)) && decide (x.logUsed + size ≤ x.logPages * 65536)

/-- A transmit loan is free for one more segment: each segment not yet sent holds one; a further loan is asked for when none is free
(R167, R184). -/
def Dev.txLoan (d : Dev) (c : Nat) : Dev × Bool :=
  let x := d.ctx c
  if (x.log.filter (fun e => e.attempts == 0)).length < x.txBufs.length then (d, true) else d.borrow c true

/-- An operation's request has its number (R165); what an earlier operation of that number left behind goes. -/
def Dev.numberOp (d : Dev) (c : Nat) (t : SendItem) (opn : Nat) : Dev :=
  match t.op with
  | some (n, i) =>
    (d.updOp n i (fun o => { o with opn := some opn })).onCtx c (fun x => { x with
      rx := x.rx.filter (fun (r : RxItem) => !(r.key.kind == 2 && r.key.n == opn)) })
  | none => d

/-- The last segment of an answer has been cut: the operation is over at this gateway and its references go back (R141). -/
def Dev.tgtGone (d : Dev) (c opn : Nat) : Dev :=
  match (d.ctx c).tgtOp opn with
  | none => d
  | some t => (t.refs.foldl (fun (a : Dev) r => a.refDrop r) d).onCtx c (fun x => { x with tgt := x.tgt.filter (fun (u : TgtOp) => u.opn != opn) })

/-- Put an item, advanced by one segment, back in the place of context c's queue where it stood, or remove it when it is over. -/
def replaceItem (i : Nat) (t : SendItem) (last : Bool) (l : List SendItem) : List SendItem :=
  if last then l.take i ++ l.drop (i + 1) else l.take i ++ t :: l.drop (i + 1)

/-- Cut one segment of item i of context c onto carrier m. -/
def Dev.cutItem (d : Dev) (c m i : Nat) (t : SendItem) (key : List Byte) : Dev :=
  let x := d.ctx c
  let new := t.kind == 1 && t.opn.isNone
  let opn := if new then x.nextOpn % 2 ^ 16 else t.opn.getD 0
  let g0 := d.formSeg x t opn
  let n := g0.payload.length
  let g := d.sealSeg x key g0
  let e : LogEnt := { seq := x.sndNxt, seg := g, size := 64 + n, attempts := 0, cutAt := d.now, lastSend := d.now, carrier := m, raced := false,
                      receipted := false, resend := false }
  let t1 := { t with opn := if t.kind = 1 then some opn else t.opn, bytes := t.bytes.drop n, sent := t.sent + n, segidx := t.segidx + 1,
                     starts := t.starts.filter (fun a => decide (t.sent + n ≤ a)) }
  let d1 := d.lineSettle.setCtx c { x with
    sndNxt := x.sndNxt + 1, nextOpn := if new then x.nextOpn + 1 else x.nextOpn, log := x.log ++ [e], lastUse := d.now,
    timer := if x.timer.isNone then some (d.now, d.rtoRun x) else x.timer, sendq := replaceItem i t1 g.last x.sendq }
  let d2 := if new then d1.numberOp c t opn else d1
  if t.kind = 2 ∧ g.last then d2.tgtGone c opn else d2

/-- An item that is to get its operation number, and an earlier one of the same ring and target rank that has none yet: operations of one
ring to one rank are numbered, and so start at the target, in submission order (R37, R45). -/
def Dev.wouldPass (d : Dev) (before : List SendItem) (t : SendItem) : Bool :=
  let to_ := fun (u : SendItem) => match u.op with | some (n, i) => (d.getOp n i).map (fun (o : Op) => (n, o.d.rank)) | none => none
  t.kind == 1 && t.opn.isNone && before.any (fun u => u.kind == 1 && u.opn.isNone && to_ u == to_ t)

/-- The place of the item that gives the next segment: the first that could give one and passes no other out of turn. -/
def Dev.nextItem (d : Dev) (l : List SendItem) : Option Nat :=
  (List.range l.length).find? (fun i => match l[i]? with
    | some t => t.hopeful && !d.wouldPass (l.take i) t
    | none => false)

/-- SEGMENT_CUT (R167, R230, R234): the first item of context c that can give a segment gives one, onto carrier m. A segment queued for a
transmit side that is parked, or whose park is pending, is a wake request. -/
def Dev.segmentCut (d : Dev) (c m : Nat) : Dev :=
  let x := d.ctx c
  match d.nextItem x.sendq with
  | none => d
  | some i =>
    match x.sendq[i]? with
    | none => d
    | some t0 =>
      if !d.mayCut x 64 then d
      else if !d.chosen m x then (if d.scheduledFor m x && !d.mayCarry m x then d.wakeRequest m else d)
      else
        match d.streamKey x true (epochOf x.sndNxt) with
        | none =>
          if d.ctxSealed x || x.stalledAt == some (epochOf x.sndNxt) then d
          else (d.onCtx c (fun y => { y with stalledAt := some (epochOf y.sndNxt) })).bump R.VT_CNT2.STALL 0
        | some key =>
          let p := d.codeUp 1024 x.home x.job t0
          let d1 := p.1.onCtx c (fun y => { y with sendq := replaceItem i p.2 false y.sendq })
          let size := 64 + min 16384 p.2.bytes.length
          if !p.2.cuttable || !d1.mayCut x size then d1
          else
            let q := d1.txLoan c
            if q.2 then (q.1.cutItem c m i p.2 key).wakeRequest m else q.1

/-- SEGMENT_CUT. -/
def execSegmentCut (c : Fin 32768) (m : Fin 128) (s : State) : Res := .next (s.onDev (fun d => d.segmentCut c m))

end Sys2Proof.Machine
end

