-- ==== Sys2Proof/Machine/Arrivals.lean ====
section
/-! DEFINITION. SEGMENT_RECEIVE and BLOCK_DECODE (R30, R34, R41, R45, R90 to R92, R103, R110, R117, R118, R137, R138, R141, R143, R149, R165,
R168, R218, R315 to R317, R319): segments that arrive on a context, what they carry, and their blocks. -/

namespace Sys2Proof.Machine

open Sys2Proof

/-! ### What a segment belongs to (Tables 6.3 and 6.4) -/

/-- COLL_PRINT of a TOUR segment. -/
def segPrint (g : Segment) : Nat := ofBE (slice g.tail 4 4)

/-- Where a segment's payload stands in its item's bytes (R136: every segment but the last has 16,384). -/
def segStart (g : Segment) : Nat := g.segidx.toNat * 16384

/-- The segment carries block bytes (R136): not a GET request, an operand, a result, or an answer that reports a failure. -/
def segBlocks (g : Segment) : Bool :=
  g.typ == 3 || (g.typ == 1 && (g.opcode == 1 || g.opcode == 3 || g.opcode == 7)) || (g.typ == 2 && g.opcode == 2 && ofBE (slice g.tail 4 1) == 0)

/-- The operation an OP_REQ segment describes (Table 6.4); its operands stand in the payload. -/
def tgtOf (g : Segment) (seq : Nat) (plain : List Byte) : TgtOp :=
  let b5 := ofBE (slice g.tail 5 1)
  { opn := g.opn.toNat, first := seq, opcode := g.opcode.toNat, jobId := ofBE (slice g.tail 0 4), win := ofBE (slice g.tail 6 2),
    off := ofBE (slice g.tail 16 5), len := ofBE (slice g.tail 12 4), fmt := b5 / 16, redop := b5 / 2 % 8, sr := b5 % 2 == 1,
    tid := ofBE (slice g.tail 21 4), srcRank := ofBE (slice g.tail 25 3) % 2 ^ 22, ord := ofBE (slice g.tail 4 1) % 64,
    token := ofBE (slice g.tail 8 4), started := false, status := 0, a := ofBE (slice plain 0 8), b := ofBE (slice plain 8 8), asked := 0,
    got := 0, owed := 0, carry := [], answered := false, events := 0, seed := 0, refs := [] }

/-- The item with a key, as far as it has come. -/
def Ctx.item (x : Ctx) (k : ItemKey) : RxItem :=
  (x.rx.find? (fun r => r.key == k)).getD { key := k, done := [], passed := [], total := none, ready := [], next := 0, elems := 0, fails := [], dead := false, bad := 0 }

/-- Replace an item. -/
def Dev.setItem (d : Dev) (c : Nat) (r : RxItem) : Dev :=
  d.onCtx c (fun x => { x with rx := x.rx.filter (fun (y : RxItem) => y.key != r.key) ++ [r] })

/-- Forget an item. -/
def Dev.dropItem (d : Dev) (c : Nat) (k : ItemKey) : Dev := d.onCtx c (fun x => { x with rx := x.rx.filter (fun (y : RxItem) => y.key != k) })

/-- The byte up to which ranges cover everything from a byte on. -/
def reach : Nat → Nat → List (Nat × Nat) → Nat
  | 0, a, _ => a
  | n + 1, a, l => match l.find? (fun r => decide (r.1 ≤ a) && decide (a < r.2)) with
    | some r => reach n r.2 l
    | none => a

/-- The decoded ranges cover a segment's bytes. -/
def RxItem.covers (r : RxItem) (a b : Nat) : Bool := decide (b ≤ reach (r.done.length + 1) a r.done)

/-- Every block with one of these bytes has passed its CRC or has been dealt with. -/
def RxItem.checked (r : RxItem) (a b : Nat) : Bool :=
  decide (b ≤ reach (r.done.length + r.passed.length + 1) a (r.done ++ r.passed))

/-- An item all of whose bytes have been dealt with, and nothing of which waits for delivery, is forgotten. -/
def Dev.itemOver (d : Dev) (c : Nat) (k : ItemKey) : Dev :=
  let r := (d.ctx c).item k
  match r.total with
  | some n => if r.ready.isEmpty && r.covers 0 n then d.dropItem c k else d
  | none => d

/-! ### Receiving -/

/-- A block has passed its CRC: every held segment of the item all of whose blocks have passed is marked received (R137, R168 step 5). It
stays in its receive buffer until its blocks are decoded (R76, R118, R143). -/
def Dev.crcPassed (d : Dev) (c : Nat) (k : ItemKey) (off size : Nat) : Dev :=
  let r0 := (d.ctx c).item k
  let r := if r0.passed.contains (off, off + size) then r0 else { r0 with passed := r0.passed ++ [(off, off + size)] }
  let ok := (d.ctx c).held.filter (fun h => segKey h.seg == k && r.checked (segStart h.seg) (segStart h.seg + h.plain.length))
  ok.foldl (fun (a : Dev) h => a.markReceived c h.seq) (d.setItem c r)

/-- Every held segment of an item whose blocks have all been decoded leaves its receive buffer. -/
def Dev.settleHeld (d : Dev) (c : Nat) (k : ItemKey) : Dev :=
  let r := (d.ctx c).item k
  let ok := (d.ctx c).held.filter (fun h => segKey h.seg == k && r.covers (segStart h.seg) (segStart h.seg + h.plain.length))
  ok.foldl (fun (a : Dev) h => a.received c h.seq) d

/-- Nothing more of the item is delivered: its held segments are received, and their bytes count as dealt with. Only a request's item is
kept, to know its later segments by. -/
def Dev.itemDead (d : Dev) (c : Nat) (k : ItemKey) : Dev :=
  let r := (d.ctx c).item k
  let mine := (d.ctx c).held.filter (fun h => segKey h.seg == k)
  let d1 := mine.foldl (fun (a : Dev) h => a.received c h.seq) d
  if k.kind ≠ 1 then d1.dropItem c k
  else (d1.setItem c { r with
    dead := true, ready := [], done := r.done ++ mine.map (fun h => (segStart h.seg, segStart h.seg + h.plain.length)) }).itemOver c k

/-- The operation of this gateway that a response answers. -/
def Dev.opOf (d : Dev) (c opn : Nat) : Option Op := d.ops.find? (fun o => o.ctx == some c && o.opn == some opn && o.stage == .running)

/-- An item's operation, piece or response fails with a status (R92, R123, R137, R138). -/
def Dev.itemFail (d : Dev) (c : Nat) (k : ItemKey) (st : Nat) : Dev :=
  let d1 := match k.kind with
    | 1 => (d.setItem c { (d.ctx c).item k with bad := st }).failTgt c k.n st
    | 2 => match d.opOf c k.n with | some o => d.endOp o.ring o.index st | none => d
    | _ => d.collFail k.coll st true
  d1.itemDead c k

/-! ### Delivery of decoded blocks -/

/-- Elements of a whole item, where the item shows them: of a request its LENGTH, of a response the operation's. -/
def Dev.itemElems (d : Dev) (c : Nat) (k : ItemKey) : Option Nat :=
  match k.kind with
  | 1 => ((d.ctx c).tgtOp k.n).map (fun t =>
      if t.opcode = 3 ∨ t.opcode = 7 then ceilDiv t.len (unitBytes t.fmt) * unitElems t.fmt else t.len)
  | 2 => (d.opOf c k.n).map (fun o => o.d.len)
  | _ => (d.coll k.coll).map (fun x => x.pieceElems k.n k.piece)

/-- A block of a write that arrived reaches its window (R30, R34, R41 to R43, R46, R90, R92). A PUT's bytes go out in whole aligned 8-byte
units: what a block ends within waits for the next one. -/
def tgtBlock (c : Nat) (t : TgtOp) (b : RxBlock) (elems : Nat) (d : Dev) (m : List Host.Cell) : Dev × List Host.Cell :=
  let x := d.ctx c
  let w := x.home
  let ten := d.ctxTenant x
  let use := ReqUse.tgtWrite c t.opn
  let fin := fun (p : Dev × List Host.Cell × Nat) (n ev : Nat) =>
    (p.1.updTgt c t.opn (fun t => { t with got := t.got + n, owed := t.owed + p.2.2, events := t.events + ev }), p.2.1)
  match t.opcode with
  | 3 =>
    let u := unitBytes t.fmt
    let off := elems / unitElems t.fmt * u
    let r := combined w t.redop b.faults d m (reduceInto use w t.win (t.off + off) ten t.fmt t.redop ⟨t.sr, t.seed, t.tid, 0xFE⟩ elems ·
      (ofUnits u b.units))
    let q := fin r.1 (u * b.units.length) r.2.1
    let e := if r.2.2 then q.1.failTgt c t.opn 0x09 else q.1
    (e.laneFault w, q.2)
  | 7 =>
    match (d.deltaIn x.site t.jobId t.srcRank t.win t.off).filter (!·.lost) with
    | none => (d.failTgt c t.opn 0x0C, m)
    | some s =>
      let u := unitBytes t.fmt
      let off := elems / unitElems t.fmt * u
      let data := (ofUnits u b.units).take (t.len - off)
      let p := d.deltaApply s t.fmt off (t.redop == 1) data
      fin (winWrite use t.win (t.off + off) ten p.2 p.1 m) data.length 0
  | _ =>
    let new := b.units.map (fun v => (BitVec.ofNat 8 v : Byte))
    let data := t.carry ++ new
    let at_ := t.off + elems - t.carry.length
    let n := if t.len ≤ elems + new.length then data.length else wholeUnits at_ data.length
    fin (winWrite use t.win at_ ten (data.take n) (d.updTgt c t.opn (fun t => { t with carry := data.drop n })) m) new.length 0

/-- A block of a GET's data reaches the requester's window (R32). -/
def getBlock (o : Op) (b : RxBlock) (elems : Nat) (d : Dev) (m : List Host.Cell) : Dev × List Host.Cell :=
  let data := b.units.map (fun v => (BitVec.ofNat 8 v : Byte))
  let p := winWrite (.opWrite o.ring o.index) o.lwin (o.d.loff + elems) (d.opTenant o) data d m
  ((p.1.updOp o.ring o.index (fun o => { o with
      got := o.got + data.length, owed := o.owed + p.2.2, allIn := decide (o.d.len ≤ o.got + data.length) })).opSettle o.ring o.index, p.2.1)

/-- The tour a piece's segment is on at this gateway: the reduce tour toward position index k carries STEP = k − 1, the gather tour
toward index k carries STEP = k − 1; none where it is on neither. -/
def Coll.tourOf (x : Coll) (me : Nat) (k : ItemKey) : Option Bool :=
  if x.chunks ≤ k.n ∨ x.pieceElems k.n k.piece = 0 ∨ x.ringOf k.n ≠ k.ring then none
  else if x.reduces && k.step + 1 == x.redIdx k.n k.piece me then some true
  else if x.gathers && k.step + 1 == x.gatIdx k.n k.piece me then some false
  else none

/-- A block of a piece joins what has arrived on its tour; the item's first block begins the piece anew. A piece sent a second time after a
fence upstream (R122) changes nothing once it is whole or has been worked on. -/
def Dev.pieceBlock (d : Dev) (x : Coll) (k : ItemKey) (red poison first : Bool) (b : RxBlock) : Dev :=
  let total := x.pieceElems k.n k.piece
  let add := fun (a : Arrival) =>
    if a.whole then a
    else
      let us := (if first then [] else a.units) ++ b.units
      ({ units := us, whole := decide (total ≤ us.length * x.pf.elems), poison := (!first && a.poison) || poison } : Arrival)
  d.updPiece x.id k.n k.piece (fun y =>
    if red then (if y.reduced then y else { y with red := add y.red }) else (if y.final then y else { y with gat := add y.gat }))

/-- Elements of a block in the coded format of its item. -/
def RxBlock.elems (b : RxBlock) (cf : Nat) : Nat := b.units.length * (codedFmt cf).elems

/-- n bytes of an item from an offset, where every segment that holds one is held; the first argument bounds the segments used. -/
def heldRun : Nat → List HeldSeg → Nat → Nat → Option (List Byte)
  | _, _, _, 0 => some []
  | 0, _, _, _ + 1 => none
  | f + 1, l, o, n + 1 =>
    match l.find? (fun h => decide (segStart h.seg ≤ o) && decide (o < segStart h.seg + h.plain.length)) with
    | none => none
    | some h =>
      let part := slice h.plain (o - segStart h.seg) (min (n + 1) (segStart h.seg + h.plain.length - o))
      (heldRun f l (o + part.length) (n + 1 - part.length)).map (part ++ ·)

/-- Bytes of an item, where every segment that holds one is held. -/
def heldBytes (l : List HeldSeg) (o n : Nat) : Option (List Byte) := heldRun (l.length + 1) l o n

/-- The place in the order of arrival of the latest segment that holds one of n bytes from an offset. -/
def heldStamp (l : List HeldSeg) (o n : Nat) : Nat :=
  ((l.filter (fun h => decide (segStart h.seg < o + n) && decide (o < segStart h.seg + h.plain.length))).map (·.stamp)).foldl max 0

/-- A block of a PUT_REDUCE whose place in its operation is known: elements before it, its units, the place of its latest segment in the
order of arrival, and the block itself where it is decoded. -/
structure UpdBlock where
  elems : Nat
  units : Nat
  stamp : Nat
  block : Option RxBlock
deriving DecidableEq, Repr

/-- The blocks of an item whose places are known, each whole here, decoded or not: they follow one another from an offset and a number of
elements on. Answers also where they end; the first argument bounds their number. -/
def RxItem.placed (r : RxItem) (fmt : Nat) (l : List HeldSeg) : Nat → Nat → Nat → List UpdBlock × Nat
  | 0, o, _ => ([], o)
  | n + 1, o, e =>
    match r.ready.find? (fun b => b.off == o) with
    | some b =>
      let p := r.placed fmt l n b.fin (e + b.elems fmt)
      (⟨e, b.units.length, b.stamp, some b⟩ :: p.1, p.2)
    | none =>
      match (heldBytes l o 16).map blkHead with
      | none => ([], o)
      | some h =>
        if (heldBytes l o h.size).isNone then ([], o)
        else
          let p := r.placed fmt l n (o + h.size) (e + h.count + 1)
          (⟨e, (h.count + 1) / (codedFmt fmt).elems, heldStamp l o h.size, none⟩ :: p.1, p.2)

/-- The PUT_REDUCE that an item's segments describe, while nothing has ended it. -/
def Ctx.updateOf (x : Ctx) (r : RxItem) : Option TgtOp :=
  if r.key.kind ≠ 1 || r.dead then none
  else ((x.tgtOp r.key.n).orElse (fun _ => r.op)).filter (fun t => t.opcode == 3 && t.status == 0)

/-- Where the updates of a PUT_REDUCE stand: the blocks whose places are known, and the places in the order of arrival of what is here of
blocks whose places are not. -/
def Ctx.updates (x : Ctx) (r : RxItem) (t : TgtOp) : List UpdBlock × List Nat :=
  let l := x.held.filter (fun h => segKey h.seg == r.key)
  let p := r.placed t.fmt l (r.ready.length + (l.map (fun h => h.plain.length)).sum / 20 + 1) r.next r.elems
  let fin := reach (l.length + 1) p.2 (l.map (fun h => (segStart h.seg, segStart h.seg + h.plain.length)))
  (p.1, (l.filter (fun h => decide (fin ≤ segStart h.seg))).map (·.stamp) ++ (r.ready.filter (fun b => decide (p.2 < b.off))).map (·.stamp))

/-- The memory that a PUT_REDUCE updates: all of it, and one block's part of it. -/
def Dev.updateSpan (d : Dev) (t : TgtOp) : Nat × Nat := (d.winKey t.win t.off, d.winKey t.win t.off + t.len)
/-- One block's part. -/
def Dev.blockSpan (d : Dev) (t : TgtOp) (u : UpdBlock) : Nat × Nat :=
  let a := d.winKey t.win (t.off + u.elems / unitElems t.fmt * unitBytes t.fmt)
  (a, a + u.units * unitBytes t.fmt)

/-- Two byte ranges share a byte. -/
def spansMeet (a b : Nat × Nat) : Bool := decide (a.1 < b.2) && decide (b.1 < a.2)

/-- A PUT_REDUCE's block waits: what updates memory that it updates, or may do so, arrived before it on another operation and has not been
applied (R34). -/
def Dev.updateWaits (d : Dev) (c opn : Nat) (a : Nat × Nat) (stamp : Nat) : Bool :=
  d.ctxs.any (fun e => e.2.rx.any (fun r => !(e.1 == c && r.key.n == opn) &&
    (match e.2.updateOf r with
     | none => false
     | some t =>
       let p := e.2.updates r t
       (p.2.any (fun k => decide (k < stamp)) && spansMeet a (d.updateSpan t)) ||
       p.1.any (fun u => !u.block.any (·.applied) && decide (u.stamp < stamp) && spansMeet a (d.blockSpan t u)))))

/-- Blocks of an item that stand next in order are delivered (R45, R137): a request's once it has started; those of a PUT_REDUCE are passed
once they have been applied. Their counts must be those of R135. `cf` is the coded format, `poison` the flag of a piece. -/
def deliverReady : Nat → Nat → ItemKey → Nat → Bool → Dev → List Host.Cell → Dev × List Host.Cell
  | 0, _, _, _, _, d, m => (d, m)
  | n + 1, c, k, cf, poison, d, m =>
    let r := (d.ctx c).item k
    match r.ready.find? (fun b => b.off == r.next) with
    | none => (d, m)
    | some b =>
      match d.itemElems c k with
      | none => (d, m)
      | some total =>
        let e := b.elems cf
        let r1 := { r with ready := r.ready.filter (fun (y : RxBlock) => y != b), next := b.fin, elems := r.elems + e }
        let want := min (blockUnits cf * (codedFmt cf).elems) (total - r.elems)
        let bad := e != want
        match k.kind with
        | 1 =>
          match (d.ctx c).tgtOp k.n with
          | none => (d, m)
          | some t =>
            if !t.started then (d, m)
            else if t.opcode = 3 then (if b.applied then deliverReady n c k cf poison (d.setItem c r1) m else (d, m))
            else if bad then (((d.set R.CODEC_ERR.DECODE 0 1).bump R.CODEC_STAT_DEC_FAIL.DEC_FAIL (d.ctx c).home).itemFail c k 0x08, m)
            else
              let p := tgtBlock c t b r.elems (d.setItem c r1) m
              deliverReady n c k cf poison (p.1.tgtSettle c k.n) p.2
        | 2 =>
          match d.opOf c k.n with
          | none => (d.itemDead c k, m)
          | some o =>
            if bad then (((d.set R.CODEC_ERR.DECODE 0 1).bump R.CODEC_STAT_DEC_FAIL.DEC_FAIL (d.ctx c).home).itemFail c k 0x08, m)
            else
              let p := getBlock o b r.elems (d.setItem c r1) m
              deliverReady n c k cf poison p.1 p.2
        | _ =>
          match d.coll k.coll with
          | none => (d, m)
          | some x =>
            match x.tourOf (x.posOfSite d.site) k with
            | none => (d, m)
            | some red =>
              if bad then (((d.set R.CODEC_ERR.DECODE 0 1).bump R.CODEC_STAT_DEC_FAIL.DEC_FAIL (d.ctx c).home).itemFail c k 0x08, m)
              else deliverReady n c k cf poison ((d.setItem c r1).pieceBlock x k red poison (r.elems == 0) b) m

/-- Deliver what an item has ready. -/
def deliverItem (c : Nat) (k : ItemKey) (cf : Nat) (poison : Bool) (d : Dev) (m : List Host.Cell) : Dev × List Host.Cell :=
  let p := deliverReady (((d.ctx c).item k).ready.length + 1) c k cf poison d m
  (if ((p.1.ctx c).item k).dead then p.1.itemDead c k else p.1.itemOver c k, p.2)

/-- A decoded block of a PUT_REDUCE whose place is known updates its elements, whether its turn in the item has come or not (R34); its count
must be that of R135. -/
def applyUpdate (c : Nat) (r : RxItem) (t : TgtOp) (u : UpdBlock) (b : RxBlock) (d : Dev) (m : List Host.Cell) : Dev × List Host.Cell :=
  let total := ceilDiv t.len (unitBytes t.fmt) * unitElems t.fmt
  if b.elems t.fmt ≠ min (blockUnits t.fmt * (codedFmt t.fmt).elems) (total - u.elems) then
    (((d.set R.CODEC_ERR.DECODE 0 1).bump R.CODEC_STAT_DEC_FAIL.DEC_FAIL (d.ctx c).home).itemFail c r.key 0x08, m)
  else
    let r1 := { r with ready := r.ready.map (fun (y : RxBlock) => if y.off = b.off then { y with applied := true } else y) }
    let p := tgtBlock c t b u.elems (d.setItem c r1) m
    deliverItem c r.key t.fmt false (p.1.tgtSettle c t.opn) p.2

/-- The decoded block of a PUT_REDUCE that may update its elements now: its operation has started, its place is known, and nothing that
arrived before it is in its way (R34, R45). -/
def Dev.nextUpdate (d : Dev) : Option (Nat × RxItem × TgtOp × UpdBlock × RxBlock) :=
  d.ctxs.findSome? (fun e => e.2.rx.findSome? (fun r =>
    match (e.2.updateOf r).filter (·.started) with
    | none => none
    | some t => (e.2.updates r t).1.findSome? (fun u => match u.block with
      | some b => if !b.applied && !d.updateWaits e.1 r.key.n (d.blockSpan t u) u.stamp then some (e.1, r, t, u, b) else none
      | none => none)))

/-- Every update that may be made now is made; the argument bounds how many. -/
def updatesGo : Nat → Dev → List Host.Cell → Dev × List Host.Cell
  | 0, d, m => (d, m)
  | n + 1, d, m =>
    match d.nextUpdate with
    | none => (d, m)
    | some (c, r, t, u, b) =>
      let p := applyUpdate c r t u b d m
      updatesGo n p.1 p.2

/-- How many decoded blocks wait for their place. -/
def Dev.readyBlocks (d : Dev) : Nat := (d.ctxs.map (fun e => (e.2.rx.map (fun r => r.ready.length)).sum)).sum

/-! ### Operations that arrive (R30, R45, R165) -/

/-- Start the operation with a number that arrived on context c: the checks of R30, then its effect. -/
def startTgt (c : Nat) (t : TgtOp) (d : Dev) (m : List Host.Cell) : Dev × List Host.Cell :=
  let x := d.ctx c
  let ten := d.ctxTenant x
  let len := if t.opcode = 4 ∨ t.opcode = 5 then 8 else t.len
  let k : ItemKey := ⟨1, 0, t.opn, 0, 0, 0⟩
  let st := d.targetCheck ten t.jobId t.win t.ord t.token t.opcode t.off len
  let d0 := (d.updTgt c t.opn (fun t => { t with started := true, seed := d.f R.TENANT.SEED ten })).onCtx c (fun x => { x with
    tgtNext := (t.opn + 1) % 2 ^ 16 })
  let r := x.item k
  if st ≠ 0 then (((d0.targetRefused st).failTgt c t.opn st).itemDead c k, m)
  else if r.bad ≠ 0 then (d0.failTgt c t.opn r.bad, m)
  else match t.opcode with
    | 4 | 5 =>
      (d0.atomArrive { stream := some (x.home, c, t.opn), ring := 0, index := 0, isSignal := t.opcode == 5, subop := t.redop, a := t.a, b := t.b,
                       win := t.win, off := t.off, srcRank := t.srcRank, at_ := d.now }, m)
    | 2 => ((d0.onCtx c (fun x => { x with sendq := x.sendq ++ [respItem t true 0] })).askTgt c t.opn, m)
    | 7 =>
      let p := d0.deltaInOpen x.site t.jobId t.srcRank t.win t.off ten t.len x.home x.stack t.redop
      if p.2 ≠ 0 then ((p.1.failTgt c t.opn p.2).itemDead c k, m) else deliverItem c k t.fmt false p.1 m
    | 1 => deliverItem c k 0xF false d0 m
    | 3 => deliverItem c k t.fmt false d0 m
    | _ => ((d0.failTgt c t.opn 0x01).itemDead c k, m)

/-- Start every operation whose turn it is (R45). -/
def startTgts : Nat → Nat → Dev → List Host.Cell → Dev × List Host.Cell
  | 0, _, d, m => (d, m)
  | n + 1, c, d, m =>
    match (d.ctx c).tgtOp (d.ctx c).tgtNext with
    | none => (d, m)
    | some t =>
      if t.started then (d, m)
      else
        let p := startTgt c t d m
        startTgts n c p.1 p.2

/-- The first segment of an operation has arrived: it takes over the references that its blocks took (R141), and what an earlier operation of
its number left behind is gone. -/
def Dev.tgtArrive (d : Dev) (c : Nat) (t : TgtOp) : Dev :=
  let join := fun (a : Dev) =>
    let r := (a.ctx c).item ⟨1, 0, t.opn, 0, 0, 0⟩
    (if r.refs.isEmpty then a else a.setItem c { r with refs := [] }).onCtx c (fun x => { x with tgt := x.tgt ++ [{ t with refs := r.refs }] })
  match (d.ctx c).tgtOp t.opn with
  | some old => if old.first = t.first then d else
      join ((d.tgtGone c t.opn).onCtx c (fun x => { x with rx := x.rx.filter (fun (r : RxItem) => !(r.key.kind == 1 && r.key.n == t.opn)) }))
  | none => join d

/-- An OP_REQ segment that is held. -/
def reqSegment (c : Nat) (h : HeldSeg) (d : Dev) (m : List Host.Cell) : Dev × List Host.Cell :=
  let d1 := if h.seg.first then d.tgtArrive c (tgtOf h.seg h.seq h.plain) else d
  let d2 := if !segBlocks h.seg then d1.received c h.seq
    else if ((d1.ctx c).item (segKey h.seg)).dead then d1.itemDead c (segKey h.seg) else d1
  startTgts ((d2.ctx c).tgt.length + 1) c d2 m

/-- An OP_RESP segment that is held: a result, a completion or a failure ends the operation (R51); a GET's data waits for its blocks. -/
def Dev.respSegment (d : Dev) (c : Nat) (h : HeldSeg) : Dev :=
  let g := h.seg
  let st := ofBE (slice g.tail 4 1)
  let ev := ofBE (slice g.tail 6 2)
  match d.opOf c g.opn.toNat with
  | none => (d.received c h.seq).itemDead c (segKey g)
  | some o =>
    let d1 := d.updOp o.ring o.index (fun o => { o with events := o.events + ev })
    if st ≠ 0 then ((d1.endOp o.ring o.index st).received c h.seq).itemDead c (segKey g)
    else if g.opcode = 2 then d1
    else ((d1.updOp o.ring o.index (fun o => { o with value := ofBE (slice h.plain 0 8) })).okOp o.ring o.index).received c h.seq

/-- How long segments of a collective that failed are discarded (R117): one anchor rota and the longest round trip to a peer, in which every
participant has its notice (DESIGN CHOICE, log entry 98). -/
def Dev.collLinger (d : Dev) : Nat := 20000 * (d.sites - 1) + ((List.range d.sites).map d.rttE).foldl max 0

/-- Segments of a COLL_ID are discarded: its collective has ended here and is not forgotten, or failed a short time ago. -/
def Dev.collDead (d : Dev) (id : Nat) : Bool :=
  d.colls.any (fun x => x.id == id && x.admitted && x.ended.isSome) || d.deadColls.any (fun e => e.1 == id && decide (d.since e.2 ≤ d.collLinger))

/-- What a TOUR segment meets (R110, R117, R118): 0 its collective runs or is not here yet; 1 it is over; 2 its fingerprint differs. -/
def Dev.tourMeets (d : Dev) (g : Segment) : Nat :=
  match d.colls.find? (fun x => x.id == segColl g && x.admitted && x.ended.isNone) with
  | some x => if x.print = segPrint g then 0 else 2
  | none => if d.collDead (segColl g) then 1 else 0

/-- A TOUR segment that is held. A fingerprint that differs ends this gateway's collective with BAD_DESCRIPTOR (R110), whose segments are
discarded from then on (R117). -/
def Dev.tourSegment (d : Dev) (c : Nat) (h : HeldSeg) : Dev :=
  match d.tourMeets h.seg with
  | 0 => d
  | 1 => (d.received c h.seq).dropItem c (segKey h.seg)
  | _ => (d.received c h.seq).collFail (segColl h.seg) 0x01 true

/-- A LAST segment shows where its item ends, and every segment of a request which operation it is (Table 6.4). -/
def Dev.noteTotal (d : Dev) (c : Nat) (h : HeldSeg) : Dev :=
  if segBlocks h.seg then
    let r := (d.ctx c).item (segKey h.seg)
    d.setItem c { r with
      total := if h.seg.last then some (segStart h.seg + h.plain.length) else r.total,
      op := if h.seg.typ = 1 then some (tgtOf h.seg 0 []) else none }
  else d

/-! ### SEGMENT_RECEIVE (R168) -/

/-- The first byte of buffer i of pool p: in HBM or in the SRAM of a wing (R183). -/
def Dev.bufKey (d : Dev) (p i : Nat) : Nat :=
  let loc := d.f R.BPM_POOL_CFG.LOC p
  memKey (if loc < 4 then 1 + loc else 0) (d.f R.BPM_POOL_BASE.BASE p + i * (d.f R.BPM_POOL_CFG.SIZE p * 64))

/-- The receive loan that held a failed segment is zeroed whole and is free for the next one (R319). Which of the context's loans that was is a
free choice (log entry 116). -/
def Dev.wipeLoan (d : Dev) (c : Nat) (m : List Host.Cell) : Dev × List Host.Cell :=
  let x := d.ctx c
  match x.rxBufs[Config.freePick d.freeCtr 0 % x.rxBufs.length]? with
  | none => (d, m)
  | some i => (d.usedFree, memWrite m (d.bufKey x.rxPool i) (zeros (d.f R.BPM_POOL_CFG.SIZE x.rxPool * 64)))

/-- A tag failure (R319): the third within 1 s quarantines the context; otherwise the segment is asked for again. -/
def Dev.tagFail (d : Dev) (c seq : Nat) : Dev :=
  let d1 := d.bump R.VT_CNT.AUTH_FAIL 0
  let recent := ((d1.ctx c).authFails ++ [d1.now]).filter (fun t => decide (d1.now ≤ t + 10 ^ 9))
  let d2 := d1.onCtx c (fun x => { x with authFails := recent })
  if 3 ≤ recent.length then d2.quarantine c 0x06 else d2.sendReceipt c 1 seq

/-- A race copy that arrives first is a recovery event of its piece and of its collective (R100, R119, R120); before the collective is
admitted here it is remembered. -/
def Dev.raceWon (d : Dev) (c : Nat) (g : Segment) : Dev :=
  let d1 := d.bump R.VAR_RACE_WIN.VALUE (d.ctx c).home
  let jp := segPiece g
  if g.typ ≠ 3 ∨ d1.tourMeets g ≠ 0 then d1
  else if d1.colls.any (fun x => x.id == segColl g && x.admitted) then
    (d1.updPiece (segColl g) jp.1 jp.2 (fun y => { y with events := y.events + 1 })).updColl (segColl g) (fun x => { x with events := x.events + 1 })
  else { d1 with raceWins := d1.raceWins ++ [(segColl g, segPrint g, jp.1, jp.2)] }

/-- A segment that has passed its tag is held (R168 step 5), and what it carries is taken up. -/
def holdSegment (c : Nat) (h : HeldSeg) (d : Dev) (m : List Host.Cell) : Dev × List Host.Cell :=
  let d1 := d.onCtx c (fun x => { x with held := x.held ++ [h], lastUse := d.now })
  let d2 := if h.race then d1.raceWon c h.seg else d1
  let d3 := d2.noteTotal c h
  let p := match h.seg.typ.toNat with
    | 1 => reqSegment c h d3 m
    | 2 => (d3.respSegment c h, m)
    | 3 => (d3.tourSegment c h, m)
    | _ => (d3.received c h.seq, m)
  (p.1.itemOver c (segKey h.seg), p.2)

/-- The steps of R168, and the checks of R218 and R317 beside them. A fenced wing takes no new segment (R374, DEDUCED, log entry 130); STALE of a
CLOSED context, which has no home wing, counts on the wing of the carrier (DESIGN CHOICE, log entry 131). -/
def segmentIn (car : Nat) (g : Segment) (race tagOk : Bool) (d : Dev) (m : List Host.Cell) : Dev × List Host.Cell :=
  let c := g.dst.toNat
  let x := d.ctx c
  if !d.on R.STREAM_CTL.ENABLE then (d, m)
  else if !d.cepOk g.cep then (d.bump R.CAT_ERR.CEP_STALE 0, m)
  else if (x.state ≠ .opened ∧ x.state ≠ .draining) ∨ x.gen ≠ g.gen.toNat then
    (d.bump R.STREAM_STAT_STALE.STALE (if x.isClosed then carrierWing car else x.home), m)
  else if !d.wingEnabled x.home then (d, m)
  else
    let d1 := d.onCtx c (fun x => { x with arrived := x.arrived + 1 })
    let z := wholeSeq x.rcvCum g.seq.toNat
    let seq := z.toNat
    if z < (x.rcvCum : Int) ∨ x.rcvd.contains seq ∨ x.held.any (fun h => h.seq == seq) then
      ((d1.bump R.STREAM_STAT_DUP.DUP x.home).receiptCheck c, m)
    else if x.rcvCum + 2 ^ 20 ≤ seq ∨ x.granted ≤ seq then ((d1.bump R.STREAM_STAT_OUT_WIN.OUT_WIN x.home).receiptCheck c, m)
    else
      let e := epochOf seq
      match d1.half (halfIx x.pair (b2n g.kph) (1 - d1.outHalf x.site)) with
      | none => ((d1.bump R.VT_CNT.NOKEY 0).receiptCheck c, m)
      | some k =>
        if k.epoch ≠ e ∨ k.wrap ≠ none then ((d1.bump R.VT_CNT.NOKEY 0).receiptCheck c, m)
        else if !tagOk then
          let w := d1.wipeLoan c m
          ((w.1.tagFail c seq).receiptCheck c, w.2)
        else
          let d2 := match d1.peerOf x.site with | some p => d1.contact p | none => d1
          let plain := Config.gcmOpen k.key (gcmIv false x.site d1.site seq) (segHeader g) g.payload
          let p := holdSegment c ⟨seq, g, slice plain 0 g.payload.length, race, d2.segSeen⟩ { d2 with segSeen := d2.segSeen + 1 } m
          let q := updatesGo p.1.readyBlocks p.1 p.2
          (q.1.receiptCheck c, q.2)

/-- SEGMENT_RECEIVE. -/
def execSegmentReceive (m : Fin 128) (g : Segment) (race tagOk : Bool) (s : State) : Res := .next (s.onBoth (segmentIn m g race tagOk))

/-! ### BLOCK_DECODE (R137, R138, R143, R149) -/

/-- A block is known to begin at an offset: the item's first, one after a block that has passed, or one that BLK_OFF names. -/
def blockStarts (r : RxItem) (l : List HeldSeg) (o : Nat) : Bool :=
  o == 0 || (r.done ++ r.passed).any (fun e => e.2 == o) || l.any (fun h => h.seg.blkOff != 0xFFFF && segStart h.seg + h.seg.blkOff.toNat == o)

/-- The coded format of an item (R125): of a request its segments name it. -/
def Dev.itemFmt (d : Dev) (k : ItemKey) (g : Segment) : Nat :=
  match k.kind with
  | 1 => if g.opcode = 3 ∨ g.opcode = 7 then ofBE (slice g.tail 5 1) / 16 else 0xF
  | 2 => 0xF
  | _ => match d.coll k.coll with | some x => partialCode x.fmt x.wide | none => 0xE

/-- A block may be decoded now (R76, R103, R118): a piece's once its collective has started, its engine is enabled, and for a reduce
tour this gateway's operand is staged. A block of a PUT_REDUCE asks for no engine (DESIGN CHOICE, log entry 139). -/
def Dev.mayDecode (d : Dev) (k : ItemKey) : Bool :=
  if k.kind ≠ 3 then true
  else match d.coll k.coll with
    | none => false
    | some x =>
      x.started && x.ended.isNone && d.engineOn x k.n &&
        (match x.tourOf (x.posOfSite d.site) k with
         | some true => (x.piece k.n k.piece).operand.isSome
         | some false => true
         | none => false)

/-- R138 apart from the fields' contents and the table. -/
def headOk (h : BlkHead) (cf : Nat) : Bool :=
  decide (h.mode ≤ 1) && !h.rsvd && h.fmt == cf && decide (h.slot < 8192) && (h.count + 1) % (codedFmt cf).elems == 0 &&
    decide ((h.count + 1) / (codedFmt cf).elems ≤ blockUnits cf)

/-- The table a CODED block needs: ready; to be waited for; or none (R143, R149). A pending publish's image needs no staging. -/
inductive TableState where
  | here (img : List Byte)
  | wait
  | missing
deriving DecidableEq, Repr

/-- Which it is on wing w. -/
def Dev.tableState (d : Dev) (w : Nat) (h : BlkHead) : TableState :=
  match d.tableFor h.slot h.ver h.tchk with
  | none => .missing
  | some img =>
    if d.installed h.slot h.ver && imgCheck (d.slotImg h.slot h.ver) % 65536 == h.tchk && !d.isStaged w h.slot h.ver then .wait else .here img

/-- An operation or collective takes a reference with its first CODED block that names a version (R141); an operation whose first segment is
not here yet, or a collective that has no descriptor here yet, takes over what its blocks took. -/
def Dev.takeRef (d : Dev) (c : Nat) (k : ItemKey) (b : Nat × Nat) : Dev :=
  match k.kind with
  | 1 =>
    match (d.ctx c).tgtOp k.n with
    | some t => if t.refs.contains b then d else (d.refTake b).updTgt c k.n (fun t => { t with refs := t.refs ++ [b] })
    | none =>
      let r := (d.ctx c).item k
      if r.refs.contains b then d else (d.refTake b).setItem c { r with refs := r.refs ++ [b] }
  | 3 =>
    match d.coll k.coll with
    | some x => if x.refs.contains b then d else (d.refTake b).updColl k.coll (fun x => { x with refs := x.refs ++ [b] })
    | none =>
      let e := (k.coll, b.1, b.2)
      if d.earlyRefs.contains e then d else { d.refTake b with earlyRefs := d.earlyRefs ++ [e] }
  | _ => d

/-- A block fails its CRC (R137): its segments are released and asked for again, one receipt each; a second failure ends the
operation with CRC_ERROR. -/
def Dev.crcFail (d : Dev) (c : Nat) (k : ItemKey) (off size : Nat) : Dev :=
  let r := (d.ctx c).item k
  let d1 := d.set R.CODEC_ERR.CRC 0 1
  if r.fails.contains off then d1.itemFail c k 0x07
  else
    let mine := (d.ctx c).held.filter (fun h => segKey h.seg == k && decide (segStart h.seg < off + size) &&
      decide (off < segStart h.seg + h.plain.length))
    let d2 := d1.setItem c { r with fails := r.fails ++ [off] }
    let d3 := d2.onCtx c (fun x => { x with held := x.held.filter (fun (h : HeldSeg) => !mine.any (fun g => g.seq == h.seq)) })
    mine.foldl (fun (a : Dev) h => a.sendReceipt c 2 h.seq) d3

/-- A block fails to decode (R138). -/
def Dev.decodeFail (d : Dev) (c : Nat) (k : ItemKey) : Dev :=
  ((d.set R.CODEC_ERR.DECODE 0 1).bump R.CODEC_STAT_DEC_FAIL.DEC_FAIL (d.ctx c).home).itemFail c k 0x08

/-- A block has passed: its units wait for their place, its segments that hold nothing else are received, and what stands next is
delivered. -/
def blockPassed (c : Nat) (k : ItemKey) (cf off size : Nat) (poison : Bool) (us : List Nat) (faults : List BeatFault) (d : Dev)
    (m : List Host.Cell) : Dev × List Host.Cell :=
  let r := (d.ctx c).item k
  let stamp := heldStamp ((d.ctx c).held.filter (fun h => segKey h.seg == k)) off size
  let d1 := d.setItem c { r with done := r.done ++ [(off, off + size)], ready := r.ready ++ [⟨off, off + size, us, faults, stamp, false⟩] }
  deliverItem c k cf poison (d1.settleHeld c k) m

/-- A whole block of an item that has passed its CRC: header, table, fields. -/
def decodeBlock (c : Nat) (k : ItemKey) (cf off : Nat) (poison : Bool) (h : BlkHead) (b : List Byte) (faults : List BeatFault) (d : Dev)
    (m : List Host.Cell) : Dev × List Host.Cell :=
  let w := (d.ctx c).home
  if !headOk h cf then (d.decodeFail c k, m)
  else if h.mode = 1 then
    match decodeRaw h b with
    | some us => blockPassed c k cf off b.length poison us faults d m
    | none => (d.decodeFail c k, m)
  else
    let d0 := d.takeRef c k (h.slot, h.ver)
    match d0.tableState w h with
    | .missing => (d0.decodeFail c k, m)
    | .wait =>
      let r := (d0.ctx c).item k
      let d1 := (d0.stage w h.slot h.ver false).1
      if r.waits.contains off then (d1, m)
      else ((d1.bump R.CODEC_STAT_STAGE_WAIT.STAGE_WAIT w).setItem c { r with waits := r.waits ++ [off] }, m)
    | .here img =>
      match decodeCoded h img b with
      | some us => blockPassed c k cf off b.length poison us faults (d0.touchTab w h.slot h.ver) m
      | none => (d0.decodeFail c k, m)

/-- The item no longer delivers anything at this gateway: it is dead, its operation is gone, or its collective is over or knows no such
piece. -/
def Dev.itemGone (d : Dev) (c : Nat) (k : ItemKey) (g : Segment) : Bool :=
  ((d.ctx c).item k).dead ||
  (match k.kind with
   | 1 => false
   | 2 => (d.opOf c k.n).isNone
   | _ => d.tourMeets g != 0 ||
       (match d.coll k.coll with
        | some x => x.admitted && (x.tourOf (x.posOfSite d.site) k).isNone
        | none => false))

/-- Decode the block of an item that begins at an offset, when every segment that holds one of its bytes is held. A block whose lengths
pass the item's end cannot have its CRC. -/
def blockDecode (c : Nat) (k : ItemKey) (off : Nat) (faults : List BeatFault) (d : Dev) (m : List Host.Cell) : Dev × List Host.Cell :=
  let r := (d.ctx c).item k
  let l := (d.ctx c).held.filter (fun h => segKey h.seg == k)
  match l with
  | [] => (d, m)
  | h0 :: _ =>
    if d.itemGone c k h0.seg then
      (match l.find? (fun h => h.seg.typ == 3 && d.tourMeets h.seg == 2) with
       | some h => d.tourSegment c h
       | none => d.itemDead c k, m)
    else if r.done.any (fun e => e.1 == off) || !blockStarts r l off || (!d.mayDecode k && r.passed.any (fun e => e.1 == off)) then (d, m)
    else
      match heldBytes l off 16 with
      | none => (match r.total with
          | some n => if n < off + 20 ∧ (heldBytes l off (n - off)).isSome ∧ off < n then d.crcFail c k off (n - off) else d
          | none => d, m)
      | some hb =>
        let h := blkHead hb
        let n := match r.total with | some t => min h.size (t - off) | none => h.size
        match heldBytes l off n with
        | none => (d, m)
        | some b =>
          if n < h.size ∨ !blockCrcOk b then (d.crcFail c k off n, m)
          else if !d.mayDecode k then
            let d1 := if h.mode == 0 && !h.rsvd && decide (h.slot < 8192) then d.takeRef c k (h.slot, h.ver) else d
            (d1.crcPassed c k off n, m)
          else decodeBlock c k (d.itemFmt k h0.seg) off h0.seg.poison h b faults (d.crcPassed c k off n) m

/-- BLOCK_DECODE. -/
def execBlockDecode (c : Fin 32768) (item : ItemKey) (off : Nat) (faults : List BeatFault) (s : State) : Res :=
  .next (s.onBoth (fun d m =>
    let x := d.ctx c
    if x.state ≠ .opened ∧ x.state ≠ .draining then (d, m)
    else
      let p := blockDecode c item off faults d m
      let q := updatesGo p.1.readyBlocks p.1 p.2
      (q.1.receiptCheck c, q.2)))

end Sys2Proof.Machine
end

