-- ==== Sys2Proof/Machine/Time.lean ====
section
/-! DEFINITION. Timekeeping (R190 to R214): the timebase and its tick, the servos of the two domains, switchover, software adjustments,
PTP, time transfer over the line, the transparent clock and the time pins. Times and offsets are in 2^-16 ns, frequencies in
2^-16 ppb (R190, R191). -/

namespace Sys2Proof.Machine

open Sys2Proof

/-! ### Frequency (R190, R197, R198, R202) -/

/-- ±200 ppm in 2^-16 ppb (R190, R197). -/
def yLimit : Int := 200000 * 65536

/-- A frequency held to ±200 ppm. -/
def clampY (y : Int) : Int := max (-yLimit) (min y yLimit)

/-- The PI loop of the steering domain's servo moves the timebase (Table 7.2). -/
def Dev.steered (d : Dev) : Bool :=
  let i := d.f R.TIME_CTL.STEER
  let st := d.f R.TIME_DOM_STAT.STATE i
  d.on R.TIME_CTL.ENABLE && d.on R.TIME_DOM_CFG.EN i && d.f R.TIME_DOM_CFG.SRC_TYPE i != 3 &&
    (st == 1 || st == 2 || (st == 3 && (d.servoOf i).live))

/-- A physical fabric port has an up logical port (R202: "that link is up"). -/
def Dev.physUp (d : Dev) (fp : Nat) : Bool := (List.range 4).any (fun k => d.lportUp (4 * fp + k))

/-- The CLK_MODE reference that is present (Table 13.3): 1 REF10M_IN, 2 PPS_IN. -/
def Dev.clkRef (d : Dev) : Option Nat :=
  let use := fun (r : Nat) => if d.refLost.contains r then none else some r
  match d.f R.SYS_STRAP.CLK_EFF with
  | 1 => use 1
  | 2 => use 2
  | 3 => (use 1).orElse (fun _ => use 2)
  | _ => none

/-- The mean of y over the last HO_AVG s in LOCKED (R202). -/
def Dev.holdMean (d : Dev) (i : Nat) : Option Int :=
  let x := d.servoOf i
  let span := 1000000000 * max 1 (d.f R.TIME_HOLD.HO_AVG)
  let l := x.hist.filter (fun p => decide (x.hoSince ≤ p.1 + span))
  match l, x.hist with
  | [], [] => none
  | [], p :: _ => some p.2
  | p :: t, _ => some (((p :: t).map (·.2)).sum / ((t.length + 1 : Nat) : Int))

/-- The frequency followed while no servo steers the timebase (R202). -/
def Dev.freqRef (d : Dev) : Int :=
  let i := d.f R.TIME_CTL.STEER
  if d.on R.TIME_SYNCE.SRC_EN && d.physUp (d.f R.TIME_SYNCE.SRC_PORT) then Config.refFreq 0
  else
    match d.clkRef with
    | some r => Config.refFreq r
    | none =>
      if d.on R.TIME_CTL.ENABLE && d.f R.TIME_DOM_STAT.STATE i == 3 then (d.holdMean i).getD 0 else 0

/-- The frequency of the timebase apart from a slew. -/
def Dev.yBase (d : Dev) : Int := clampY (if d.steered then (d.servoOf (d.f R.TIME_CTL.STEER)).y else d.freqRef)

/-- SLEW_MAX: 0 acts as 1, and a value above 50,000 acts as 50,000 (Table 7.5). -/
def Dev.slewMax (d : Dev) : Nat := min 50000 (max 1 (d.f R.TIME_CTL.SLEW_MAX))

/-- What the next tick takes from a slew in progress, in 2^-16 ns · 10^-9 (R198), within the limit of R190. -/
def Dev.slewNow (d : Dev) : Int :=
  let r : Int := d.slewMax * 65536
  clampY (d.yBase + max (-r) (min d.slew r)) - d.yBase

/-- y in force (TIME_FREQ.FADJ). -/
def Dev.yForce (d : Dev) : Int := d.yBase + d.slewNow

/-- The timebase counts modulo 2^48 seconds (R190). -/
def tbMod : Nat := 2 ^ 48 * 1000000000 * 65536

/-- One edge of the 1 GHz TIME clock (R190): the timebase advances by a nominal nanosecond times 1 + y. -/
def Dev.tick (d : Dev) : Dev :=
  let r := d.slewNow
  let acc := d.tbRem + d.yBase + r
  { d with now := d.now + 1, tb := ((d.tb + 65536 : Nat) + acc / 1000000000).toNat % tbMod, tbRem := acc % 1000000000, slew := d.slew - r }

/-! ### Steps (R192) -/

/-- The remainder of a slew is replaced (R198 to R200); what has been removed since a domain's last sample stays known. -/
def Dev.setSlew (d : Dev) (v : Int) : Dev :=
  { [0, 1].foldl (fun (a : Dev) i => a.setServo i { a.servoOf i with slewAt := (a.servoOf i).slewAt + v - d.slew }) d with slew := v }

/-- A domain's offset against the timebase as it stands: its last sample less what a slew has removed since (R200). -/
def Dev.offsetNow (d : Dev) (i : Nat) : Int := d.sf R.TIME_DOM_STAT.OFFSET i - ((d.servoOf i).slewAt - d.slew) / 1000000000

/-- A second that PPS_OUT has pulsed. -/
def Dev.ppsPulsed (d : Dev) (k : Nat) : Bool := d.ppsDone.any (fun r => decide (r.1 ≤ k) && decide (k ≤ r.2))

/-- A second joins the runs of pulsed seconds. -/
def addRun (k : Nat) (l : List (Nat × Nat)) : List (Nat × Nat) :=
  match l.find? (fun r => r.2 + 1 == k) with
  | some r => (r.1, k) :: l.filter (fun x => x != r)
  | none => (k, k) :: l

/-- The whole second last reached on PPS_OUT, OUT_OFS included (R210). -/
def Dev.ppsSecond (d : Dev) : Nat := (((d.tai : Int) - d.sf R.TIME_PPS.OUT_OFS) / 1000000000).toNat

/-- PPS_OUT rises for a second that it has not pulsed yet (R192, R210). -/
def Dev.ppsFire (d : Dev) : Dev :=
  let k := d.ppsSecond
  if d.on R.TIME_CTL.ENABLE && d.on R.TIME_PPS.OUT_EN && !d.ppsPulsed k then
    { d.emit (.pulse "PPS_OUT" (max 1 (d.f R.TIME_PPS.WIDTH))) with ppsDone := addRun k d.ppsDone }
  else d

/-- A step forward has taken the timebase from second `a` to second `b`: PPS_OUT rises once unless it has pulsed every second crossed, and
they all count as pulsed (R192; log entry 48). -/
def Dev.ppsCross (d : Dev) (a b : Nat) : Dev :=
  if d.on R.TIME_CTL.ENABLE && d.on R.TIME_PPS.OUT_EN &&
      decide (reach (d.ppsDone.length + 1) (a + 1) (d.ppsDone.map (fun r => (r.1, r.2 + 1))) ≤ b) then
    { d.emit (.pulse "PPS_OUT" (max 1 (d.f R.TIME_PPS.WIDTH))) with ppsDone := (a + 1, b) :: d.ppsDone }
  else d

/-- A step of the timebase: the offsets of running servos are measured against the new timebase; a step forward across a second fires
PPS_OUT once; performance bins become SUSPECT (R192, R289). -/
def Dev.stepBy (d : Dev) (z : Int) : Dev :=
  if z = 0 then d
  else
    let k := d.ppsSecond
    let d1 := { d.pmSettle with tb := unsignedMod ((d.tb : Int) + z) }
    let d2 := [0, 1].foldl (fun (acc : Dev) i =>
      if acc.f R.TIME_DOM_STAT.STATE i = 0 then acc else acc.setS R.TIME_DOM_STAT.OFFSET i (acc.sf R.TIME_DOM_STAT.OFFSET i - z)) d1
    let d3 := d2.pmStep (decide (0 < z))
    if k < d3.ppsSecond then d3.ppsCross k d3.ppsSecond else d3
where
  /-- A timebase value modulo 2^48 s. -/
  unsignedMod (z : Int) : Nat := (z % (tbMod : Int)).toNat

/-! ### Servos (R194 to R203) -/

/-- TRUST is brought up to date; a change in the steering domain raises the alarm of R203, on unit 0 (Table 14.3), and the current bins
are SUSPECT (R289). -/
def Dev.trustRefresh (d : Dev) (i : Nat) : Dev :=
  let t := b2n (d.domTrust i)
  if d.f R.TIME_DOM_TE.TRUST i = t then d
  else
    let d1 := d.set R.TIME_DOM_TE.TRUST i t
    if d.f R.TIME_CTL.STEER = i then (d1.alarm 0 0 0x043 1 t).pmStepped else d1

/-- While the steering domain's TRUST is 0 the current bins become SUSPECT (R289). -/
def Dev.pmTrust (d : Dev) : Dev := if d.domTrust (d.f R.TIME_CTL.STEER) then d else d.pmStepped

/-- Both domains' trust follows the limits (R203). -/
def Dev.trustBoth (d : Dev) : Dev := (d.trustRefresh 0).trustRefresh 1

/-- The sample interval of a domain in ns (Table 7.1). -/
def Dev.tau (d : Dev) (i : Nat) : Nat :=
  match d.f R.TIME_DOM_CFG.SRC_TYPE i with
  | 0 => max 20000 (20000 * (d.sites - 1))
  | 1 =>
    let k := d.sf R.TIME_DOM_CFG.LOG_SYNC i
    if 0 ≤ k then 1000000000 * 2 ^ k.toNat else 1000000000 / 2 ^ (-k).toNat
  | _ => 1000000000

/-- A switchover to domain `i` (R199, R200). -/
def Dev.switchTo (d : Dev) (i : Nat) : Dev :=
  let d := d.pmTrust
  let y := d.yBase
  let z := if d.domGm i then 0 else d.offsetNow i
  let s := max (-13107) (min z 13107)
  let d1 := (d.stepBy s).setSlew ((z - s) * 1000000000)
  let d2 := (d1.set R.TIME_CTL.STEER 0 i).set R.TIME_ERR.SWITCH 0 1
  d2.setServo i { d2.servoOf i with integ := y, y := y }

/-- Automatic switchover when the steering domain has left LOCKED (R199). -/
def Dev.autoSwitch (d : Dev) (i : Nat) : Dev :=
  if d.on R.TIME_CTL.AUTO && d.f R.TIME_CTL.STEER == i && d.domState i != 2 && d.domState (1 - i) == 2 then d.switchTo (1 - i) else d

/-- The servo of domain i enters FREERUN with a fresh loop (Table 7.2). -/
def Dev.freerun (d : Dev) (i : Nat) : Dev := ((d.setServo i { ServoX.zero with slewAt := d.slew }).set R.TIME_DOM_STAT.STATE i 0)

/-- The PI loop on one offset (R197). -/
def Dev.loop (d : Dev) (i : Nat) (o : Int) : ServoX :=
  let x := d.servoOf i
  let den : Int := 65536 * d.tau i
  let integ := x.integ + (d.f R.TIME_DOM_SERVO.KI i : Int) * o * 1000000000 / den
  { x with integ := integ, y := clampY (integ + (d.f R.TIME_DOM_SERVO.KP i : Int) * o * 1000000000 / den) }

/-- The state after a sample of size `a` (Table 7.2), with the runs of samples below LOCK_THR and above UNLOCK_THR. -/
def Dev.servoMove (d : Dev) (i st : Nat) (x : ServoX) (a : Nat) : Nat × ServoX :=
  let good := if st = 0 then 0 else if a < 65536 * d.f R.TIME_DOM_SERVO.LOCK_THR i then min 16 (x.good + 1) else 0
  let bad := if 65536 * d.f R.TIME_DOM_SERVO.UNLOCK_THR i < a then min 4 (x.bad + 1) else 0
  match st with
  | 0 => (1, { x with good := 0, bad := 0 })
  | 2 => if 4 ≤ bad then (1, { x with good := 0, bad := 0 }) else (2, { x with good := 0, bad := bad })
  | _ => if 16 ≤ good then (2, { x with good := 0, bad := 0 }) else (st, { x with good := good, bad := 0 })

/-- A valid sample of domain i (R194 to R197, R203). -/
def Dev.servoSample (d : Dev) (i : Nat) (o : Int) : Dev :=
  if !(d.on R.TIME_CTL.ENABLE && d.on R.TIME_DOM_CFG.EN i && d.f R.TIME_DOM_CFG.SRC_TYPE i != 3) then d
  else
    let d := d.pmTrust
    let st := d.f R.TIME_DOM_STAT.STATE i
    let big := st == 0 && d.f R.TIME_CTL.STEER == i && decide (65536000 < o.natAbs)
    let d1 := if big then ((d.stepBy o).set R.TIME_ERR.STEP 0 1).set R.TIME_DOM_STAT.OFFSET i 0 else d.setS R.TIME_DOM_STAT.OFFSET i o
    let o1 := if big then 0 else o
    let d2 := if st = 0 then d1.setServo i { d1.servoOf i with integ := 0, y := 0 } else d1
    let mv := d2.servoMove i st (d2.loop i o1) o1.natAbs
    let last := (o1.natAbs :: mv.2.last).take 16
    let hist := if mv.1 = 2 then ((d2.now, mv.2.y) :: mv.2.hist).filter (fun p => decide (d2.now ≤ p.1 + 65535000000000)) else mv.2.hist
    let d3 := (d2.setServo i { mv.2 with last := last, hist := hist, live := true, slewAt := d2.slew }).set R.TIME_DOM_STAT.STATE i mv.1
    let d4 := if mv.1 = 2 then d3.set R.TIME_DOM_TE.TE i (min 0xFFFFFFFF (last.sum / (65536 * last.length))) else d3
    let d5 := d4.trustRefresh i
    if st = 2 then d5.autoSwitch i else d5

/-- The source of domain i is lost (R196, R199, R203). -/
def Dev.sourceLost (d : Dev) (i : Nat) : Dev :=
  let lost := fun (a : Dev) => a.set R.TIME_ERR.SRC_LOST 0 (a.f R.TIME_ERR.SRC_LOST ||| 2 ^ i)
  if !(d.on R.TIME_CTL.ENABLE && d.on R.TIME_DOM_CFG.EN i && d.f R.TIME_DOM_CFG.SRC_TYPE i != 3) then d
  else
    match d.f R.TIME_DOM_STAT.STATE i with
    | 1 => (lost (d.freerun i)).trustRefresh i
    | 2 =>
      let x := { d.servoOf i with teEntry := d.f R.TIME_DOM_TE.TE i, hoSince := d.now, live := false, good := 0, bad := 0 }
      ((lost ((d.setServo i x).set R.TIME_DOM_STAT.STATE i 3)).trustRefresh i).autoSwitch i
    | 3 => if (d.servoOf i).live then lost (d.setServo i { d.servoOf i with live := false, good := 0 }) else d
    | _ => d

/-- HOLDOVER_TRUST_LOSS: TE has grown past TE_LIMIT (R203). -/
def execHoldoverTrustLoss (i : Fin 2) (s : State) : Res :=
  .next (s.onDev (fun d => if d.domState i = 3 ∧ d.domTrust i = false then d.trustRefresh i else d))

/-! ### Software adjustments and switchover (R198, R199, R214) -/

/-- TIME_ADJ with GO: MODE and OFFSET are written, and the adjustment is made or refused (R198). -/
def Dev.timeAdj (d : Dev) (mode : Nat) (ofs : BitVec 48) : Dev :=
  let d1 := (d.set R.TIME_ADJ.OFFSET 0 ofs.toNat).set R.TIME_ADJ.MODE 0 mode
  let z := ofs.toInt
  let i := d.f R.TIME_CTL.STEER
  let open_ := d.domState i == 0 || d.domState i == 3 || !d.on R.TIME_DOM_CFG.EN i
  let fits := mode != 3 && (mode != 2 || (decide (0 ≤ z) && decide (z ≤ 65536 * 1000000000)))
  if open_ && fits then
    match mode with
    | 0 => (d1.setSlew 0).stepBy z
    | 1 => d1.setSlew (z * 1000000000)
    | _ => (d1.setSlew 0).stepBy ((d.f R.TIME_SET.SEC * 1000000000 * 65536 : Nat) + z - d.tb)
  else d1.set R.TIME_ERR.BUSY 0 1

/-- A write of TIME_CTL.STEER (R199); one that names a domain with EN = 0 is refused (R214). -/
def Dev.steerWrite (d : Dev) (i : Nat) : Dev :=
  if !d.on R.TIME_DOM_CFG.EN i then d.set R.TIME_ERR.BUSY 0 1
  else if d.f R.TIME_CTL.STEER = i then d
  else d.switchTo i

/-- A write of TIME_DOM_d_CFG (R11, R196, R214): fields that wait for the domain's EN = 0, then the check of EN = 1. -/
def Dev.domCfgWrite (d : Dev) (i : Nat) (l : Lanes) (w : Word) : Dev :=
  let was := d.on R.TIME_DOM_CFG.EN i
  let d1 := d.writeReg (R.TIME_DOM_CFG.EN.key i) (!was) l w R.TIME_ERR.BUSY
  let touched := bitsOf (laneMask l) 0 1 == 1
  let en := d1.on R.TIME_DOM_CFG.EN i
  let same := fun (x : Fld) => d1.f x 0 == d1.f x 1
  let typ := d1.f R.TIME_DOM_CFG.SRC_TYPE i
  let bad := (typ == 1 && decide (128 ≤ d1.f R.TIME_DOM_CFG.SRC i)) ||
    (d1.on R.TIME_DOM_CFG.EN (1 - i) && same R.TIME_DOM_CFG.DOMAIN && same R.TIME_DOM_CFG.SRC_TYPE &&
      (decide (2 ≤ typ) || same R.TIME_DOM_CFG.SRC))
  let d2 :=
    if !touched then d1
    else if en && !was && bad then (d1.set R.TIME_DOM_CFG.EN i 0).set R.TIME_ERR.BUSY 0 1
    else if en then { (d1.freerun i).set R.TIME_DOM_STAT.OFFSET i 0 with slaves := tabPut (fun _ => SlaveX.zero) i SlaveX.zero d1.slaves }
    else d1.freerun i
  let d3 := d2.trustRefresh i
  if d.domState i = 2 then d3.autoSwitch i else d3

/-- A read of TIME_NOW_SEC latches the whole timebase (Table 7.5). -/
def Dev.timeLatch (d : Dev) : Dev :=
  ((d.set R.TIME_NOW_SEC.SEC 0 (tbSec d.tb)).set R.TIME_NOW_NS.NS 0 (tbNs d.tb)).set R.TIME_NOW_NS.FRAC 0 (tbFrac d.tb)

/-- TIME_NOW_READ. -/
def execTimeNowRead (s : State) : Res :=
  .next (s.onDev (fun d => if d.ready then (let a := d.timeLatch; a.emit (.readData (a.word (R.TIME_NOW_SEC.SEC.key 0)))) else d))

/-! ### PTP (R194, R195, R201) -/

/-- The offset of a domain that PTP messages sent for it carry (R201). -/
def Dev.domOffset (d : Dev) (i : Nat) : Int := if d.domGm i then 0 else d.sf R.TIME_DOM_STAT.OFFSET i

/-- A timestamp of a message body, in 2^-16 ns (R191). -/
def ptpStamp (m : PtpMsg) : Int := ((m.sec.toNat * 1000000000 + m.ns.toNat) * 65536 : Nat)

/-- A message with a timestamp in its body (R191: the fraction is truncated). -/
def ptpWith (t : Int) (m : PtpMsg) : PtpMsg :=
  { m with sec := BitVec.ofNat 48 (tbSec t.toNat), ns := BitVec.ofNat 32 (tbNs t.toNat) }

/-- A message of domain i that the gateway sends on port p. -/
def Dev.ptpNew (d : Dev) (i p typ seq : Nat) : PtpMsg :=
  { typ := BitVec.ofNat 4 typ, domain := BitVec.ofNat 8 (d.f R.TIME_DOM_CFG.DOMAIN i), twoStep := false, seq := BitVec.ofNat 16 seq,
    src := Config.portIdentity p, req := 0, corr := 0, sec := 0, ns := 0, clockClass := BitVec.ofNat 8 (d.f R.TIME_DOM_CFG.CLASS i),
    utcOfs := BitVec.ofInt 16 (d.sf R.TIME_TOD.UTC_OFS), leap := BitVec.ofNat 2 (d.f R.TIME_TOD.LEAP % 3), rxTime := 0, udp := none }

/-- A message of this gateway waits on port p, to go over IEEE 802.3 or over UDP/IPv6 (R201, R340). -/
def Dev.ptpSend (d : Dev) (p : Nat) (udp : Bool) (due : PtpDue) (m : PtpMsg) : Dev :=
  d.setPtpQueue p (d.ptpQueue p ++ [⟨m, udp, due⟩])

/-- Logical port p is set in MASTER_LO or MASTER_HI of domain i, and is not its slave port (R201). -/
def Dev.isMaster (d : Dev) (i p : Nat) : Bool :=
  (if p < 64 then (d.f R.TIME_DOM_MASTER_LO.MASTER_LO i).testBit p else (d.f R.TIME_DOM_MASTER_HI.MASTER_HI i).testBit (p - 64)) &&
    !(d.f R.TIME_DOM_CFG.SRC_TYPE i == 1 && d.f R.TIME_DOM_CFG.SRC i == p)

/-- Logical port p is the slave port of domain i (R201). -/
def Dev.isSlave (d : Dev) (i p : Nat) : Bool := d.f R.TIME_DOM_CFG.SRC_TYPE i == 1 && d.f R.TIME_DOM_CFG.SRC i == p

/-- The exchange of a slave port. -/
def Dev.slaveOf (d : Dev) (i : Nat) : SlaveX := tabGet (fun _ => SlaveX.zero) d.slaves i
/-- Replace it. -/
def Dev.setSlave (d : Dev) (i : Nat) (x : SlaveX) : Dev := { d with slaves := tabPut (fun _ => SlaveX.zero) i x d.slaves }

/-- A measured mean path delay of domain i. -/
def Dev.setMpd (d : Dev) (i : Nat) (z : Int) : Dev :=
  (d.setSlave i { d.slaveOf i with mpd := some z, pd := none }).set R.TIME_DOM_PATH.MPD i (unsigned 48 z)

/-- A complete Sync on the slave port p of domain i: the sample, and the delay request of the configured mechanism (R194), carried as the
Sync was. -/
def Dev.syncDone (d : Dev) (i p : Nat) (t1 : Int) : Dev :=
  let x := d.slaveOf i
  let d1 := match x.mpd with
    | some z => d.servoSample i (t1 + z - x.t2)
    | none => d
  let q := d1.ptpNew i p (if d1.on R.TIME_DOM_CFG.DELAY i then 2 else 1) d1.ptpSeq
  let d2 := d1.setSlave i { x with t1 := some t1, wait := false, reqSeq := d1.ptpSeq, t3 := d1.tb, pd := none }
  { d2.ptpSend p x.udp (.asked i) q with ptpSeq := (d1.ptpSeq + 1) % 65536 }

/-- A message at the slave port p of domain i (IEEE 1588-2019: offset from master; E2E or P2P as DELAY selects). -/
def Dev.slaveIn (d : Dev) (i p : Nat) (m : PtpMsg) : Dev :=
  let x := d.slaveOf i
  let p2p := d.on R.TIME_DOM_CFG.DELAY i
  let mine := m.req == Config.portIdentity p && m.seq.toNat == x.reqSeq
  match m.typ.toNat with
  | 0x0 =>
    let d1 := d.setSlave i { x with seq := m.seq.toNat, t2 := m.rxTime, corr := m.corr.toInt, wait := m.twoStep, udp := m.udp.isSome }
    if m.twoStep then d1 else d1.syncDone i p (ptpStamp m + m.corr.toInt)
  | 0x8 => if x.wait && m.seq.toNat == x.seq then d.syncDone i p (ptpStamp m + x.corr + m.corr.toInt) else d
  | 0x9 =>
    match x.t1 with
    | some t1 =>
      if !p2p && mine then
        let first := x.mpd.isNone
        let z := ((x.t2 - t1) + (ptpStamp m - m.corr.toInt - x.t3)) / 2
        let d1 := d.setMpd i z
        if first then d1.servoSample i (t1 + z - x.t2) else d1
      else d
    | none => d
  | 0x3 =>
    if p2p && mine then
      if m.twoStep then d.setSlave i { x with pd := some (ptpStamp m, (m.rxTime : Int), m.corr.toInt) }
      else linked (d.setMpd i (((m.rxTime : Int) - x.t3 - m.corr.toInt) / 2))
    else d
  | 0xA =>
    match x.pd with
    | some (t2, t4, c) => if p2p && mine then linked (d.setMpd i (((t4 - x.t3) - (ptpStamp m - t2) - c - m.corr.toInt) / 2)) else d
    | none => d
  | _ => d
where
  /-- Under P2P the delay is the link's, which the transparent clock also uses (R207). -/
  linked (a : Dev) : Dev :=
    { a with linkDelay := setCount a.linkDelay p ((((tabGet (fun _ => SlaveX.zero) a.slaves i).mpd.getD 0).toNat) + 1) }

/-- A master port answers a delay request of domain i (R201), carried as the request was. -/
def Dev.masterIn (d : Dev) (i p : Nat) (m : PtpMsg) : Dev :=
  let o := d.domOffset i
  let re := fun (typ : Nat) => { d.ptpNew i p typ m.seq.toNat with req := m.src }
  let say := fun (due : PtpDue) (x : PtpMsg) => d.ptpSend p m.udp.isSome due x
  let p2p := d.on R.TIME_DOM_CFG.DELAY i
  match m.typ.toNat with
  | 0x1 => if p2p then d else say .whole (ptpWith (m.rxTime + o) { re 9 with corr := m.corr })
  | 0x2 =>
    if !p2p then d
    else if d.on R.TIME_DOM_CFG.ONE_STEP i then say (.turn m.rxTime) { re 3 with corr := m.corr }
    else say (.answer i m.corr) (ptpWith (m.rxTime + o) { re 3 with twoStep := true })
  | _ => d

/-- A UDP checksum of zero over IPv6: the message is discarded and counted (R208). -/
def zeroSum (m : PtpMsg) : Bool := match m.udp with | some u => u.cksum == 0 | none => false

/-- A PTP message on logical port p (R194, R195, R201, R208); an Announce is counted, whatever its checksum (R195). -/
def Dev.ptpIn (d : Dev) (p : Nat) (m : PtpMsg) : Dev :=
  if !d.on R.TIME_CTL.ENABLE || !d.lportUp p then d
  else if zeroSum m || m.typ == 0xB || m.typ == 0xC || m.typ == 0xD then { d with ptpCount := d.ptpCount + 1 }
  else [0, 1].foldl (fun (acc : Dev) i =>
    if acc.on R.TIME_DOM_CFG.EN i && acc.f R.TIME_DOM_CFG.DOMAIN i == m.domain.toNat then
      if acc.isSlave i p then acc.slaveIn i p m
      else if acc.isMaster i p then acc.masterIn i p m
      else acc
    else acc) d

/-- Sync (in two-step mode a Follow_Up comes after it) and Announce of domain i on master port p (R201, R212); which of the two carriages a
port's own messages use the spec leaves open (log entry 47). -/
def Dev.syncOut (d : Dev) (i p seq : Nat) : Dev :=
  let udp := Config.ptpUdp p
  let d1 := if d.on R.TIME_DOM_CFG.ONE_STEP i then d.ptpSend p udp (.origin i) (d.ptpNew i p 0 seq)
    else d.ptpSend p udp (.follow i) { d.ptpNew i p 0 seq with twoStep := true }
  d1.ptpSend p udp .whole (d.ptpNew i p 0xB seq)

/-- PTP_SYNC_SEND: the Sync interval of domain i has passed. -/
def execPtpSyncSend (i : Fin 2) (s : State) : Res :=
  .next (s.onDev (fun d =>
    if d.on R.TIME_CTL.ENABLE && d.on R.TIME_DOM_CFG.EN i then
      let d1 := ((List.range 128).filter (fun p => d.lportUp p && d.isMaster i p)).foldl (fun (acc : Dev) p => acc.syncOut i p acc.ptpSeq) d
      { d1 with ptpSeq := (d1.ptpSeq + 1) % 65536 }
    else d))

/-- An event message: Sync, Delay_Req, Pdelay_Req, Pdelay_Resp. -/
def ptpEvent (m : PtpMsg) : Bool := decide (m.typ.toNat < 4)

/-- The message that a port sends next: event messages before the others (Table 12.5, level 1). -/
def ptpFirst (l : List PtpOut) : Option PtpOut := (l.find? (fun x => ptpEvent x.m)).orElse (fun _ => l.head?)

/-- A message leaves port p (R201): what its departure brings is done, and it is answered as sent. -/
def Dev.ptpLeave (d : Dev) (p : Nat) (x : PtpOut) : Dev × PtpMsg :=
  let d1 := d.setPtpQueue p ((d.ptpQueue p).erase x)
  let at_ := fun (i : Nat) => (d.tb : Int) + d.domOffset i
  match x.due with
  | .whole => (d1, x.m)
  | .origin i => (d1, ptpWith (at_ i) x.m)
  | .follow i => (d1.ptpSend p x.udp .whole (ptpWith (at_ i) { x.m with typ := 8, twoStep := false }), x.m)
  | .asked i =>
    let y := d.slaveOf i
    (if y.reqSeq = x.m.seq.toNat then d1.setSlave i { y with t3 := d.tb } else d1, ptpWith d.tb x.m)
  | .turn rx => (d1, { x.m with corr := BitVec.ofInt 64 (x.m.corr.toInt + d.tb - rx) })
  | .answer i corr => (d1.ptpSend p x.udp .whole (ptpWith (at_ i) { x.m with typ := 0xA, twoStep := false, corr := corr }), x.m)

/-- The frame that carries a PTP message: the spec gives the message and not its frame, so its length and bytes are free (log entry 47). -/
def Dev.ptpFrame (d : Dev) : List Byte := (List.range (Config.freePick d.freeCtr 0 % 2 ^ 14)).map (Config.freeByte d.freeCtr)

/-- A PTP packet in a direction of a port is counted and sampled as any other (R346). -/
def ptpSample (p dir time : Nat) (d : Dev) (m : List Host.Cell) : Dev × List Host.Cell :=
  if d.sampling dir then headerSample p dir time d.ptpFrame d.usedFree m else (d, m)

/-- Logical port p sends the first of its PTP messages; the spec gives its UDP datagram no contents, so they are free. -/
def ptpDepart (p : Nat) (x : PtpOut) (d : Dev) (m : List Host.Cell) : Dev × List Host.Cell :=
  let w := d.freeWord
  let u : Udp := ⟨w.extractLsb' 0 16, w.extractLsb' 16 16, w.extractLsb' 32 16, w.extractLsb' 48 16⟩
  let r := d.usedFree.ptpLeave p x
  ptpSample p 1 d.ns40 (r.1.emit (.ptp p { r.2 with udp := if x.udp then some u else none })) m

/-! ### The transparent clock (R207, R208) -/

/-- 16-bit ones'-complement addition. -/
def onesAdd (a b : Nat) : Nat := (a + b) % 65536 + (a + b) / 65536

/-- S_old and S_new of R208: the ones'-complement sums of the words that an update of correctionField changes. -/
def changedSums (old new : Nat) : Nat × Nat :=
  let w := fun (v k : Nat) => v / 65536 ^ k % 65536
  let ch := (List.range 4).filter (fun k => w old k != w new k)
  let sum := fun (v : Nat) => ch.foldl (fun a k => onesAdd a (w v k)) 0
  (sum old, sum new)

/-- The trailer after an update of correctionField (R208). -/
def trailerAfter (t old new : Nat) : Nat :=
  let s := changedSums old new
  onesAdd (onesAdd t s.1) (65535 - s.2)

/-- The recomputed UDP checksum of a message without a trailer (R208): that of the datagram with the new words for the old; the checksum 0
is sent as all ones. -/
def cksumAfter (c old new : Nat) : Nat :=
  let s := changedSums old new
  let x := 65535 - onesAdd (onesAdd (65535 - c) (65535 - s.1)) s.2
  if x = 0 then 65535 else x

/-- The datagram ends with a checksum-neutral trailer (R208). -/
def hasTrailer (u : Udp) : Bool := u.len.toNat == u.msgLen.toNat + 2

/-- The datagram of an event message after an update of its correctionField (R208). -/
def udpAfter (u : Udp) (old new : Nat) : Udp :=
  if hasTrailer u then { u with tail := BitVec.ofNat 16 (trailerAfter u.tail.toNat old new) }
  else { u with cksum := BitVec.ofNat 16 (cksumAfter u.cksum.toNat old new) }

/-- A domainNumber is tracked (R207). -/
def Dev.tracked (d : Dev) (n : Nat) : Bool := [0, 1].any (fun i => d.on R.TIME_DOM_CFG.EN i && d.f R.TIME_DOM_CFG.DOMAIN i == n)

/-- The link delay of an ingress port, in 2^-16 ns: under P2P what the slave port of a domain there has measured (R207). -/
def Dev.portDelay (d : Dev) (p : Nat) : Nat :=
  if [0, 1].any (fun i => d.on R.TIME_DOM_CFG.EN i && d.on R.TIME_DOM_CFG.DELAY i && d.isSlave i p) then countOf d.linkDelay p - 1 else 0

/-- A physical port is in the group of the transparent clock. -/
def Dev.inGroup (d : Dev) (q : Nat) : Bool := (d.f R.TIME_TC.PORTS).testBit (q / 4)

/-- A message that arrived on logical port p at its rxTime and leaves `residence` later is relayed now (R207). -/
def Dev.relays (d : Dev) (p : Nat) (m : PtpMsg) (residence : Nat) : Bool :=
  let n := m.domain.toNat
  d.on R.TIME_CTL.ENABLE && d.on R.TIME_TC.EN && d.inGroup p && d.lportUp p && decide (d.f R.TIME_TC.DOM_LO ≤ n) &&
    decide (n ≤ d.f R.TIME_TC.DOM_HI) && !d.tracked n && (m.rxTime + residence) % tbMod == d.tb

/-- The ports that a relayed message leaves on. -/
def Dev.relayPorts (d : Dev) (p : Nat) : List Nat := (List.range 128).filter (fun q => q / 4 != p / 4 && d.inGroup q && d.lportUp q)

/-- The message as it leaves the relay (R207, R208). -/
def Dev.relayed (d : Dev) (p : Nat) (m : PtpMsg) (residence : Nat) : PtpMsg :=
  let corr := m.corr + BitVec.ofNat 64 (residence + d.portDelay p)
  if ptpEvent m then { m with corr := corr, udp := m.udp.map (fun u => udpAfter u m.corr.toNat corr.toNat) } else m

/-- The relay of a message (R207, R208); each packet in and out is sampled (R346). -/
def relay (p : Nat) (m : PtpMsg) (residence : Nat) (d : Dev) (mem : List Host.Cell) : Dev × List Host.Cell :=
  if !d.relays p m residence then (d, mem)
  else
    let a := ptpSample p 0 (m.rxTime / 65536) d mem
    if zeroSum m || m.typ == 0xC || m.typ == 0xD then ({ a.1 with ptpCount := a.1.ptpCount + 1 }, a.2)
    else
      let bare := match m.udp with | some u => !hasTrailer u | none => false
      let d1 := if ptpEvent m && bare then a.1.bump R.TIME_ERR.TRAILER 0 else a.1
      (d.relayPorts p).foldl (fun (acc : Dev × List Host.Cell) q =>
        ptpSample q 1 d.ns40 (acc.1.emit (.ptp q (d.relayed p m residence))) acc.2) (d1, a.2)

/-- PTP_RELAY. -/
def execPtpRelay (p : Fin 128) (m : PtpMsg) (residence : Nat) (s : State) : Res := .next (s.onBoth (relay p m residence))

/-! ### Time transfer over the line (R204, R205) -/

/-- The anchor of engine e is up (R194, R242): its receiver is locked and aligned on an engine the part has. -/
def Dev.anchorUp (d : Dev) (e : Nat) : Bool := d.engOk e && d.on R.KW_CAR_STATE.RX_LOCK (16 * e) && d.on R.LINE_CAR_STAT.ALIGN (16 * e)

/-- MARK_RECEIVE: the mark's arrival at the coupler is timestamped, while the anchor that heard it is up (R194). -/
def execMarkReceive (e : Fin 8) (p : Fin 4096) (m : TimeMark) (arrival : Nat) (s : State) : Res :=
  .next (s.onDev (fun d =>
    if !d.anchorUp e then d
    else
    let ts : Int := ((m.sec.toNat * 1000000000 + m.ns.toNat) * 65536 + m.frac.toNat : Nat)
    d.setMark p { d.mark p with seqIn := m.seq.toNat, dIn := some ((arrival : Int) - ts) }))

/-- The frequency of a colour in GHz (R3). -/
def colourGHz (n : Nat) : Nat := if n < 64 then 191350 + 75 * n else 186200 + 75 * (n - 64)

/-- ASYM of R205 in 2^-16 ns, for peer p heard on the anchor of engine e. -/
def Dev.asym (d : Dev) (e p : Nat) : Int :=
  let fixed := d.sf R.TIME_ASYM.ASYM p * 65536 / 1000
  if !d.on R.TIME_ASYM.CD_AUTO p then fixed
  else
    match d.siteOf p with
    | none => fixed
    | some site =>
      match catAnchorTx d.cat e site, catAnchorRx d.cat e site with
      | some a, some b =>
        let own := d.sf R.KW_PEER.OWN_CD p
        let twice := if d.cdReports.contains p then own + d.sf R.KW_PEER.PEER_CD p else 2 * own
        let fo : Int := colourGHz a
        let fi : Int := colourGHz b
        fixed + twice * 65536 * 299792458 * (fi - fo) / (2000 * fo * fi)
      | _, _ => fixed

/-! ### Time pins (R209 to R212) -/

/-- PPS_OUT_PULSE: the timebase has reached a whole second plus OUT_OFS. -/
def execPpsOutPulse (s : State) : Res := .next (s.onDev (fun d => d.ppsFire))

/-- Decimal digits, most significant first. -/
def decDigits : Nat → Nat → List Byte
  | 0, _ => []
  | fuel + 1, n => (if n < 10 then [] else decDigits fuel (n / 10)) ++ [BitVec.ofNat 8 (48 + n % 10)]

/-- A decimal number, with a minus sign where it is negative. -/
def decInt (z : Int) : List Byte := if z < 0 then 45 :: decDigits 20 z.natAbs else decDigits 20 z.natAbs

/-- An uppercase hexadecimal digit. -/
def hexDigit (n : Nat) : Byte := BitVec.ofNat 8 (if n < 10 then 48 + n else 55 + n)

/-- A message of R211 around its body. -/
def todFrame (body : List Byte) : List Byte :=
  let c := (body.foldl (· ^^^ ·) 0).toNat
  [36] ++ body ++ [42, hexDigit (c / 16), hexDigit (c % 16), 13, 10]

/-- The message that TOD_OUT sends for second `k` (R211). -/
def Dev.todMessage (d : Dev) (k : Nat) : List Byte :=
  let i := d.f R.TIME_CTL.STEER
  todFrame (ascii "LKTOD," ++ decInt k ++ [44] ++ decInt (d.sf R.TIME_TOD.UTC_OFS) ++ [44] ++ decInt (d.f R.TIME_TOD.LEAP % 3 : Nat) ++
    [44] ++ decInt (d.domState i + 4 * b2n (d.domTrust i) : Nat))

/-- TOD_OUT_SEND: 10 ms after the rising edge of PPS_OUT (R210). -/
def execTodOutSend (s : State) : Res :=
  .next (s.onDev (fun d =>
    if d.on R.TIME_CTL.ENABLE && d.on R.TIME_TOD.OUT_EN then d.emit (.tod (d.todMessage d.ppsSecond)) else d))

/-- A decimal number read from its digits. -/
def readDec (l : List Byte) : Option Nat :=
  if l.isEmpty then none
  else l.foldl (fun (acc : Option Nat) b =>
    match acc with
    | some n => if 48 ≤ b.toNat ∧ b.toNat ≤ 57 then some (10 * n + (b.toNat - 48)) else none
    | none => none) (some 0)

/-- A decimal number with an optional minus sign. -/
def readDecInt (l : List Byte) : Option Nat :=
  match l with
  | b :: t => if b = 45 then readDec t else readDec l
  | [] => none

/-- A list of bytes cut at a byte. -/
def splitAt (c : Byte) : List Byte → List (List Byte)
  | [] => [[]]
  | b :: t =>
    match splitAt c t with
    | h :: r => if b = c then [] :: h :: r else (b :: h) :: r
    | [] => [[b]]

/-- The seconds of a well-formed TOD message; none for a bad CC or a malformed field (R211). Q is not looked at. -/
def todSeconds (l : List Byte) : Option Nat :=
  let body := (l.drop 1).take (l.length - 6)
  if l.length < 6 ∨ l ≠ todFrame body then none
  else
    match splitAt 44 body with
    | [h, sec, u, leap, _] =>
      match readDec sec, readDecInt u, readDec leap with
      | some k, some v, some x => if h = ascii "LKTOD" ∧ k < 2 ^ 48 ∧ v ≤ 128 ∧ x ≤ 2 then some k else none
      | _, _, _ => none
    | _ => none

/-- A domain's source is the time pins (R209). -/
def Dev.usesPins (d : Dev) (i : Nat) : Bool := d.on R.TIME_DOM_CFG.EN i && d.f R.TIME_DOM_CFG.SRC_TYPE i == 2

/-- PPS_IN_EDGE: the rising edge is timestamped. -/
def execPpsInEdge (s : State) : Res :=
  .next (s.onDev (fun d => if d.on R.TIME_CTL.ENABLE && d.on R.TIME_PPS.IN_EN then { d with ppsEdge := some d.tb } else d))

/-- TOD_IN_TIMEOUT: no message came within 900 ms of an edge (R209). -/
def execTodInTimeout (s : State) : Res :=
  .next (s.onDev (fun d =>
    if d.on R.TIME_CTL.ENABLE && (match d.ppsEdge with | some e => decide (e + 900000000 * 65536 < d.tb) | none => false) then
      let d1 := { d with ppsEdge := none }
      if d.usesPins 0 || d.usesPins 1 then d1.set R.TIME_ERR.TOD_BAD 0 1 else d1
    else d))

/-- PPS_IN_MISSING: an edge did not come (R209). -/
def execPpsInMissing (s : State) : Res :=
  .next (s.onDev (fun d => if d.on R.TIME_CTL.ENABLE && d.on R.TIME_PPS.IN_EN then d.set R.TIME_ERR.PPS_MISS 0 1 else d))

/-- LEAP_EVENT: the end of the UTC day applies the leap indication to the UTC offset, and LEAP clears (R212). -/
def execLeapEvent (s : State) : Res :=
  .next (s.onDev (fun d =>
    match d.f R.TIME_TOD.LEAP with
    | 1 => (d.setS R.TIME_TOD.UTC_OFS 0 (d.sf R.TIME_TOD.UTC_OFS + 1)).set R.TIME_TOD.LEAP 0 0
    | 2 => (d.setS R.TIME_TOD.UTC_OFS 0 (d.sf R.TIME_TOD.UTC_OFS - 1)).set R.TIME_TOD.LEAP 0 0
    | _ => d))

/-- REFERENCE_LOST: which of REF10M_IN and PPS_IN are absent now (R202; Table 13.3 for the mode's reference). -/
def execReferenceLost (ref10m pps : Bool) (s : State) : Res :=
  .next (s.onDev (fun d =>
    let d1 := { d with refLost := (if ref10m then [1] else []) ++ (if pps then [2] else []) }
    if d1.f R.SYS_STRAP.CLK_EFF != 0 && d1.clkRef.isNone then d1.set R.TIME_ERR.REF_LOST 0 1 else d1))

end Sys2Proof.Machine
end

