-- ==== Sys2Proof/Machine/Vitrine.lean ====
section
/-! DEFINITION. Vitrine (R293 to R328): sealing of peers, the VT_CMD commands, the BAR4 key loads, the tenants' pair ranges, the tamper
sensors, and power grants of the cipher clusters. -/

namespace Sys2Proof.Machine

open Sys2Proof

/-! ### Random draws -/

/-- `n` bytes from the TRNG. -/
def Dev.drawn (d : Dev) (n : Nat) : List Byte := Config.trng d.trngCtr n

/-- A draw has been taken. -/
def Dev.drew (d : Dev) : Dev := { d with trngCtr := d.trngCtr + 1 }

/-! ### Keys outside the clusters (R293) -/

/-- AAD of a wrapped half: its place and epoch (log entry 104). -/
def wrapAad (i epoch : Nat) : List Byte := beBytes 4 i ++ beBytes 8 epoch

/-- A half leaves its cluster: AES-256-GCM under the storage key, with an IV from the generator (R293, R294). -/
def Dev.wrapHalf (d : Dev) (i : Nat) : Dev :=
  match d.half i with
  | some ⟨e, k, none⟩ =>
    let iv := slice (d.drawn 12) 0 12
    let c := Config.gcmSeal d.storageKey iv (wrapAad i e) k
    d.drew.setHalf i (some ⟨e, c.1, some (iv, c.2)⟩)
  | _ => d

/-- A half returns to a cluster; nothing is unwrapped while TRNG_OK reads 0 (R324). -/
def Dev.unwrapHalf (d : Dev) (i : Nat) : Dev :=
  match d.half i with
  | some ⟨e, k, some (iv, _)⟩ =>
    if d.on R.VT_STAT.TRNG_OK then d.setHalf i (some ⟨e, Config.gcmOpen d.storageKey iv (wrapAad i e) k, none⟩) else d
  | _ => d

/-- Every half leaves its cluster (Table 11.11). -/
def Dev.wrapKeys (d : Dev) : Dev := d.halves.foldl (fun (a : Dev) e => a.wrapHalf e.1) d

/-- Every half returns to its cluster. -/
def Dev.unwrapKeys (d : Dev) : Dev := d.halves.foldl (fun (a : Dev) e => a.unwrapHalf e.1) d

/-- The four halves of a pair pass through Vitrine to another cluster. -/
def Dev.movePair (d : Dev) (pair : Nat) : Dev := (List.range 4).foldl (fun (a : Dev) j => (a.wrapHalf (4 * pair + j)).unwrapHalf (4 * pair + j)) d

/-- A half that a load writes: in P2 and P3 it is held wrapped (Table 11.3, H). -/
def Dev.storeHalf (d : Dev) (i : Nat) (k : HalfKey) : Dev :=
  if 2 ≤ d.f R.SYS_PWR.STATE then (d.setHalf i (some k)).wrapHalf i else d.setHalf i (some k)

/-! ### The peers of a sealing (R303) -/

/-- SEAL_RETRY ms, 0 acting as 1, count for peer p from now on (R13, R303). -/
def Dev.sealTimed (d : Dev) (p : Nat) : Dev :=
  { d with sealAt := tabPut (fun _ => (0, 0)) p (d.now, max (d.f R.VT_CTL.SEAL_RETRY) 1 * 1000000) d.sealAt }

/-- When that wait began for a peer, and how long it is. -/
def Dev.sealWait (d : Dev) (p : Nat) : Nat × Nat := tabGet (fun _ => (0, 0)) d.sealAt p

/-- Sealing with peer p is in FAILED from now on. -/
def Dev.sealFailed (d : Dev) (p : Nat) : Dev := (d.set R.VT_PEER.STATE p 3).sealTimed p

/-- The active and the pending plan, where there is one. -/
def Dev.plansHeld (d : Dev) : List (List Byte) :=
  (if d.cat.isEmpty then [] else [d.cat]) ++ (match d.catPending with | some c => [c] | none => [])

/-- The site that a plan gives peer p. -/
def sitePlan (c : List Byte) (p : Nat) : Option Nat :=
  (List.range (catN c)).find? (fun s => s != catOwn c && catSiteMap c s == p)

/-- The site and the GW_ID of peer p in the active plan, else in the pending one (R303). -/
def Dev.sealPeerAt (d : Dev) (p : Nat) : Option (Nat × Nat) :=
  d.plansHeld.findSome? (fun c => if catPeerValid c p then (sitePlan c p).map (fun s => (s, catPeerGw c p)) else none)

/-- The session with a peer. -/
def Dev.sealOf (d : Dev) (p : Nat) : Option SealX := (d.seals.find? (fun e => e.1 == p)).map (fun e => e.2)

/-- Replace or end the session with a peer. -/
def Dev.setSeal (d : Dev) (p : Nat) (x : Option SealX) : Dev :=
  let l := d.seals.filter (fun (e : Nat × SealX) => e.1 != p)
  { d with seals := match x with | some y => tabIns p y l | none => l }

/-- The installed credential is for this gateway's GW_ID (R303). -/
def Dev.credOurs (d : Dev) : Bool := !d.cred.isEmpty && ofBE (slice d.cred 4 4) == d.f R.CAT_SELF.GW_ID

/-- Queue a SEAL body toward a site, cut into fragments of at most 248 bytes (R304). -/
def Dev.sealSend (d : Dev) (site step session : Nat) (body : List Byte) : Dev :=
  let fr := chunksOf 248 body
  ((List.range fr.length).zip fr).foldl (fun (a : Dev) e => a.send site (.seal step e.1 fr.length session e.2)) d

/-- The two GW_IDs at the start of every body (Table 11.7). -/
def Dev.gwPair (d : Dev) (gw : Nat) : List Byte := beBytes 4 (d.f R.CAT_SELF.GW_ID) ++ beBytes 4 gw

/-- Pad to a multiple of 8. -/
def pad8 (l : List Byte) : List Byte := l ++ zeros (8 * ceilDiv l.length 8 - l.length)

/-- ATT for a challenger's nonce (Table 11.5). -/
def Dev.att (d : Dev) (nonce : List Byte) : List Byte :=
  beBytes 1 1 ++ beBytes 1 (d.f R.VT_STAT.SEC) ++ beBytes 1 (d.f R.VT_STAT.DBG) ++ beBytes 1 (d.f R.VT_STAT.SVN_RUN) ++
  beBytes 1 (d.f R.VT_STAT.SVN_MIN) ++ zeros 3 ++ slice nonce 0 32 ++ slice d.meas.vit 0 48 ++ slice d.meas.cur 0 48

/-- DIK then alias certificate. -/
def Dev.chain (d : Dev) : List Byte := Config.dikCert ++ Config.aliasCert d.meas.vit d.meas.cur

/-- The start of INIT and REPLY: GW_IDs, NONCE, EPUB, credential, CHAIN (Table 11.7). -/
def Dev.hello (d : Dev) (gw : Nat) (nonce priv : List Byte) : List Byte :=
  d.gwPair gw ++ slice nonce 0 32 ++ slice (Config.ecPublic priv) 0 97 ++ zeros 7 ++ slice d.cred 0 128 ++ beBytes 4 d.chain.length ++ zeros 4 ++
  pad8 d.chain

/-- Where ATT stands in a REPLY: after CHAIN. -/
def attPos (body : List Byte) : Nat := 280 + 8 * ceilDiv (ofBE (slice body 272 4)) 8

/-- A session fails (R305): FAILED, REASON, FAILS; `alert` tells the peer. -/
def Dev.sealFail (d : Dev) (p reason session : Nat) (alert : Bool) : Dev :=
  let d1 := (((d.setSeal p none).sealFailed p).set R.VT_PEER.REASON p reason).bump R.VT_PEER.FAILS p
  match d1.sealPeerAt p with
  | some (site, gw) => if alert then d1.sealSend site 5 session (d1.gwPair gw ++ beBytes 1 reason ++ zeros 7) else d1
  | none => d1

/-- Sealing is refused with REASON 5 (R303): the peer is FAILED unless an earlier sealing with it stands. -/
def Dev.sealRefuse (d : Dev) (p reason : Nat) : Dev :=
  let d1 := d.set R.VT_PEER.REASON p reason
  if d1.f R.VT_PEER.STATE p = 2 then d1 else (d1.sealFailed p).bump R.VT_PEER.FAILS p

/-- SEALING is shown unless an earlier sealing stands until DONE (R307). -/
def Dev.sealing (d : Dev) (p : Nat) : Dev := if d.f R.VT_PEER.STATE p = 2 then d else d.set R.VT_PEER.STATE p 1

/-- Start sealing with peer p (R303): INIT is sent. It runs in SECURE only; while TRNG_OK reads 0 it fails (R324). -/
def Dev.sealStart (d : Dev) (p : Nat) : Dev :=
  if d.f R.VT_STAT.SEC ≠ 1 then d
  else match d.sealPeerAt p with
    | none => d
    | some (site, gw) =>
      if !d.credOurs then d.sealRefuse p 5
      else if !d.on R.VT_STAT.TRNG_OK then (if d.f R.VT_PEER.STATE p = 2 then d else d.sealFailed p)
      else
        let ses := ofBE (d.drawn 4)
        let d1 := d.drew
        let nonce := d1.drawn 32
        let d2 := d1.drew
        let priv := d2.drawn 48
        let d3 := d2.drew
        let body := d3.hello gw nonce priv
        (((d3.setSeal p (some { ours := true, session := ses, priv := priv, bodyI := body, bodyR := [], bodyF := [], keys := [],
                                restricted := false, svn := 0 })).sealing p).sealSend site 1 ses body)

/-- Start sealing with every peer named by the active plan that is not sealed (R303). -/
def Dev.sealAll (d : Dev) : Dev :=
  (List.range (catPeers d.cat)).foldl (fun (a : Dev) p =>
    if catPeerValid a.cat p && a.f R.VT_PEER.STATE p != 2 && (a.sealOf p).isNone then a.sealStart p else a) d

/-! ### Reassembly (R304) -/

/-- The body of a step from a peer under reassembly. -/
def SealRx.is (r : SealRx) (p step : Nat) : Bool := r.peer == p && r.step == step

/-- Take one fragment: the body when it is whole. -/
def Dev.sealFeed (d : Dev) (p step : Nat) (m : SealMsg) : Dev × Option (List Byte) :=
  let n := m.flen.toNat
  let last := m.frag.toNat + 1 == m.nfrag.toNat
  if n = 0 ∨ 248 < n ∨ m.nfrag.toNat ≤ m.frag.toNat ∨ (!last && n != 248) then (d, none)
  else
    let old := (d.sealRx.find? (fun r => r.is p step)).getD
      { peer := p, step := step, session := m.session.toNat, nfrag := m.nfrag.toNat, since := d.now, parts := [] }
    let r : SealRx :=
      if old.session = m.session.toNat ∧ old.nfrag = m.nfrag.toNat then old
      else { peer := p, step := step, session := m.session.toNat, nfrag := m.nfrag.toNat, since := d.now, parts := [] }
    let r1 : SealRx := { r with parts := tabIns m.frag.toNat (slice m.body 0 n) r.parts }
    let rest := d.sealRx.filter (fun x => !x.is p step)
    if r1.parts.length = r1.nfrag then ({ d with sealRx := rest }, some (r1.parts.flatMap (fun e => e.2)))
    else ({ d with sealRx := rest ++ [r1] }, none)

/-- Checks 1 to 3 of R305 on an INIT or a REPLY: 0 when they pass. -/
def Dev.helloCheck (d : Dev) (gw : Nat) (m : SealMsg) (body : List Byte) : Nat :=
  if !m.chainOk then 1
  else if !m.credOk || decide (ofBE (slice body 160 8) < tbSec d.tb) then 2
  else if ofBE (slice body 148 4) ≠ ofBE (slice body 0 4) ∨ ofBE (slice body 0 4) ≠ gw then 3
  else 0

/-- Check 4 of R305 on an ATT: SEC, DBG, SVN_RUN and the nonce. -/
def Dev.attCheck (d : Dev) (att nonce : List Byte) : Bool :=
  leAt att 1 1 == 1 && decide (leAt att 2 1 ≤ 1) && decide (d.f R.VT_CTL.PEER_MIN_SVN ≤ leAt att 3 1) && slice att 8 32 == slice nonce 0 32

/-- TH_R: the INIT body and the REPLY body up to the end of its ATT (R306). -/
def thR (bodyI bodyR : List Byte) : List Byte := Config.sha384 (bodyI ++ bodyR.take (attPos bodyR + 136))

/-- TH_I: the INIT body, the whole REPLY body, and the FINISH body up to the end of its ATT (R306). -/
def thI (bodyI bodyR bodyF : List Byte) : List Byte := Config.sha384 (bodyI ++ bodyR ++ bodyF.take 144)

/-- K_CTL_IR, K_CTL_RI, K_CONF_I, K_CONF_R and STR_BASE (R306). -/
def sealKeys (bodyI bodyR priv epub : List Byte) : List (List Byte) :=
  let z := Config.ecdh priv epub
  let prk := Config.hmac384 (slice bodyI 8 32 ++ slice bodyR 8 32) z
  let th := thR bodyI bodyR
  ["LK-CTL-IR", "LK-CTL-RI", "LK-CONF-I", "LK-CONF-R", "LK-STR-BASE"].map (fun l => Config.hkdfExpand prk (ascii l ++ th) 48)

/-- A session ends well (R306, R307, R308): the control keys, and STR_BASE unless the sealing is RESTRICTED; a lost peer may return. -/
def Dev.sealed (d : Dev) (p : Nat) (x : SealX) : Dev :=
  let ir := x.keys.getD 0 []
  let ri := x.keys.getD 1 []
  let base := if x.restricted then [] else x.keys.getD 4 []
  let d1 := { d.setSeal p none with
    ctlKeys := tabIns p (if x.ours then ir else ri, if x.ours then ri else ir, base) (d.ctlKeys.filter (fun e => e.1 != p)) }
  let d2 := ((d1.set R.VT_PEER.STATE p 2).set R.VT_PEER.RESTRICTED p (b2n x.restricted)).set R.VT_PEER.PEER_SVN p x.svn
  (d2.set R.VT_PEER.REASON p 0).lostExit p

/-- An INIT is whole (R303, R305): while no REPLY to this gateway's own INIT has been taken the two cross, and that of the lower GW_ID
proceeds; the checks; REPLY. -/
def Dev.initWhole (d : Dev) (p site gw : Nat) (m : SealMsg) (body : List Byte) : Dev :=
  let session := m.session.toNat
  let crossing := match d.sealOf p with | some x => x.ours && x.bodyR.isEmpty && decide (d.f R.CAT_SELF.GW_ID < gw) | none => false
  if crossing then d
  else
    let c := d.helloCheck gw m body
    if c ≠ 0 then (d.sealing p).sealFail p c session true
    else if !d.credOurs then d.sealRefuse p 5
    else if !d.on R.VT_STAT.TRNG_OK then (if d.f R.VT_PEER.STATE p = 2 then d else d.sealFailed p)
    else
      let nonce := d.drawn 32
      let d1 := d.drew
      let priv := d1.drawn 48
      let d2 := d1.drew
      let sigNonce := d2.drawn 48
      let d3 := d2.drew
      let pre := d3.hello gw nonce priv ++ d3.att (slice body 8 32)
      let reply := pre ++ slice (Config.ecdsaSign (Config.aliasKey d3.meas.vit d3.meas.cur) (Config.sha384 (body ++ pre)) sigNonce) 0 96
      let x : SealX := { ours := false, session := session, priv := priv, bodyI := body, bodyR := reply, bodyF := [],
                         keys := sealKeys body reply priv (slice body 40 97), restricted := d3.f R.VT_STAT.DBG == 1, svn := 0 }
      ((d3.setSeal p (some x)).sealing p).sealSend site 2 session reply

/-- TRNG_OK reads 0 where a session would derive its keys: the sealing fails (R324), and one that stood before stays (log entry 58). -/
def Dev.sealTrng (d : Dev) (p : Nat) : Dev :=
  let d1 := d.setSeal p none
  if d.f R.VT_PEER.STATE p = 2 then d1 else d1.sealFailed p

/-- A REPLY is whole (R305, R306): the checks; FINISH. -/
def Dev.replyWhole (d : Dev) (p site gw : Nat) (m : SealMsg) (x : SealX) (body : List Byte) : Dev :=
  let att := slice body (attPos body) 136
  let c := d.helloCheck gw m body
  if c ≠ 0 then d.sealFail p c x.session true
  else if !d.attCheck att (slice x.bodyI 8 32) then d.sealFail p 4 x.session true
  else if !m.sigOk then d.sealFail p 6 x.session true
  else if !d.on R.VT_STAT.TRNG_OK then d.sealTrng p
  else
    let keys := sealKeys x.bodyI body x.priv (slice body 40 97)
    let pre := d.gwPair gw ++ d.att (slice body 8 32)
    let sigNonce := d.drawn 48
    let d1 := d.drew
    let th := thI x.bodyI body pre
    let sig := slice (Config.ecdsaSign (Config.aliasKey d1.meas.vit d1.meas.cur) th sigNonce) 0 96
    let fin := pre ++ sig ++ slice (Config.hmac384 (keys.getD 2 []) (th ++ sig)) 0 48
    let y := { x with bodyR := body, bodyF := fin, keys := keys, svn := leAt att 3 1,
                      restricted := x.restricted || leAt att 2 1 == 1 || d1.f R.VT_STAT.DBG == 1 }
    (d1.setSeal p (some y)).sealSend site 3 x.session fin

/-- A FINISH is whole (R305, R306): the checks; SEALED with DONE. -/
def Dev.finishWhole (d : Dev) (p site gw : Nat) (m : SealMsg) (x : SealX) (body : List Byte) : Dev :=
  let att := slice body 8 136
  if !m.chainOk then d.sealFail p 1 x.session true
  else if !d.attCheck att (slice x.bodyR 8 32) then d.sealFail p 4 x.session true
  else if !(m.sigOk && m.macOk) then d.sealFail p 6 x.session true
  else if !d.on R.VT_STAT.TRNG_OK then d.sealTrng p
  else
    let th := thI x.bodyI x.bodyR body
    let mac := slice (Config.hmac384 (x.keys.getD 3 []) (th ++ slice body 144 96 ++ slice body 240 48)) 0 48
    (d.sealed p { x with svn := leAt att 3 1, restricted := x.restricted || leAt att 2 1 == 1 }).sealSend site 4 x.session (d.gwPair gw ++ mac)

/-- A SEAL fragment of a step from peer p: reassembled, and a whole body goes on with its session (R304). R305 checks no addressee. -/
def Dev.sealStep (d : Dev) (p step : Nat) (m : SealMsg) (ours : Bool) (go : Dev → SealX → Nat → Nat → List Byte → Dev) : Dev :=
  match d.sealPeerAt p, d.sealOf p with
  | some (site, gw), some x =>
    if d.f R.VT_STAT.SEC ≠ 1 ∨ x.session ≠ m.session.toNat ∨ x.ours ≠ ours then d
    else match d.sealFeed p step m with
      | (d1, none) => d1
      | (d1, some body) => go d1 x site gw body
  | _, _ => d

/-- INIT_RECEIVE. -/
def execInitReceive (p : Fin 4096) (m : SealMsg) (s : State) : Res :=
  .next (s.onDev (fun d =>
    match d.sealPeerAt p with
    | none => d
    | some (site, gw) =>
      if d.f R.VT_STAT.SEC ≠ 1 then d
      else match d.sealFeed p 1 m with
        | (d1, none) => d1
        | (d1, some body) => d1.initWhole p site gw m body))

/-- REPLY_RECEIVE. -/
def execReplyReceive (p : Fin 4096) (m : SealMsg) (s : State) : Res :=
  .next (s.onDev (fun d => d.sealStep p 2 m true (fun a x site gw body => a.replyWhole p site gw m x body)))

/-- FINISH_RECEIVE. -/
def execFinishReceive (p : Fin 4096) (m : SealMsg) (s : State) : Res :=
  .next (s.onDev (fun d => d.sealStep p 3 m false (fun a x site gw body => a.finishWhole p site gw m x body)))

/-- DONE_RECEIVE: a DONE whose MAC verifies makes the initiator SEALED. -/
def execDoneReceive (p : Fin 4096) (m : SealMsg) (s : State) : Res :=
  .next (s.onDev (fun d => d.sealStep p 4 m true (fun a x _ _ _ =>
    if x.keys.isEmpty then a else if !m.macOk then a.sealFail p 6 x.session true
    else if a.on R.VT_STAT.TRNG_OK then a.sealed p x else a.sealTrng p)))

/-- ALERT_RECEIVE: the session ends in FAILED with the REASON given. -/
def execAlertReceive (p : Fin 4096) (m : SealMsg) (s : State) : Res :=
  .next (s.onDev (fun d =>
    match d.sealOf p with
    | none => d
    | some x => d.sealStep p 5 m x.ours (fun a x _ _ body => a.sealFail p (leAt body 8 1) x.session false)))

/-- SEAL_REASSEMBLY_TIMEOUT: a body whose first fragment came 100 ms ago or earlier is discarded. -/
def execSealReassemblyTimeout (p : Fin 4096) (step : Fin 8) (s : State) : Res :=
  .next (s.onDev (fun d => { d with sealRx := d.sealRx.filter (fun r => !(r.is p step && decide (100000000 ≤ d.since r.since))) }))

/-- SEAL_RETRY ms have passed (0 acts as 1) in FAILED, or since the peer was lost or sealing with a lost peer was last tried (R303). -/
def Dev.retryDue (d : Dev) (p : Nat) : Bool :=
  (d.f R.VT_PEER.STATE p == 3 || (d.f R.VT_PEER.STATE p != 2 && d.f R.HEALTH_PEER.STATE p == 2)) &&
  decide ((d.sealWait p).2 ≤ d.since (d.sealWait p).1)

/-- SEAL_RETRY: from FAILED, or with a lost peer until it is SEALED. -/
def execSealRetry (p : Fin 4096) (s : State) : Res :=
  .next (s.onDev (fun d => if d.retryDue p then (d.sealStart p).sealTimed p else d))

/-! ### VT_CMD (Table 11.12) -/

/-- VT_CMD ends with a status and LEN bytes in VT_BUF. -/
def Dev.vtDone (d : Dev) (st len : Nat) : Dev := (d.set R.VT_CMD_RES.STATUS 0 st).set R.VT_CMD_RES.LEN 0 len

/-- A command that is not accepted: one of the three codes; the spec does not say which (log entry 3). -/
def Dev.vtRefuse (d : Dev) : Dev :=
  d.usedFree.vtDone (match d.freeWord.toNat % 3 with | 0 => 0x12 | 1 => 0x03 | _ => 0x01) 0

/-- Start of a command: OP and ARG as written; BAR0 must accept the access (R359). -/
def Dev.vtCmd (d : Dev) (op arg : Nat) (g : Dev → Dev) : Dev :=
  if d.ready then g ((d.set R.VT_CMD.OP 0 op).set R.VT_CMD.ARG 0 arg) else d

/-- Byte i of VT_BUF. -/
def Dev.vtByte (d : Dev) (i : Nat) : Byte := BitVec.ofNat 8 (d.f R.VT_BUF.BUF (i / 8) / 2 ^ (8 * (i % 8)))

/-- Bytes of VT_BUF. -/
def Dev.vtBytes (d : Dev) (o n : Nat) : List Byte := (List.range n).map (fun i => d.vtByte (o + i))

/-- Place bytes at the start of VT_BUF; the buffer holds 4,096. -/
def Dev.vtPlace (d : Dev) (l : List Byte) : Dev :=
  (List.range (ceilDiv (min l.length 4096) 8)).foldl (fun (a : Dev) i =>
    let n := min 8 (l.length - 8 * i)
    let keep := a.f R.VT_BUF.BUF i / 2 ^ (8 * n) * 2 ^ (8 * n)
    a.set R.VT_BUF.BUF i (keep + leAt l (8 * i) n)) d

/-- SECURE. -/
def Dev.secure (d : Dev) : Bool := d.f R.VT_STAT.SEC == 1

/-- COMMIT_SVN: SVN_MIN rises to the running Vitrine SVN, nothing lowers it (R300). -/
def execCommitSvn (s : State) : Res :=
  .next (s.onDev (fun d => d.vtCmd 1 0 (fun a =>
    if a.secure then (a.set R.VT_STAT.SVN_MIN 0 (max (a.f R.VT_STAT.SVN_MIN) (a.f R.VT_STAT.SVN_RUN))).vtDone 0 0 else a.vtRefuse)))

/-- OPKEY_PROGRAM: the digest of the operator's public key goes into one-time bits, once (R301). -/
def execOpkeyProgram (s : State) : Res :=
  .next (s.onDev (fun d => d.vtCmd 2 0 (fun a =>
    if a.secure && !a.on R.VT_STAT.OPKEY_SET then
      ((List.range 6).foldl (fun (b : Dev) i => b.set R.VT_OPKEY.OPKEY i (a.f R.VT_BUF.BUF i)) (a.set R.VT_STAT.OPKEY_SET 0 1)).vtDone 0 0
    else a.vtRefuse)))

/-- The digest of the operator's key in the first 97 bytes of VT_BUF equals VT_OPKEY, which has been programmed (R301). -/
def Dev.keyMatches (d : Dev) : Bool :=
  d.on R.VT_STAT.OPKEY_SET && (List.range 6).all (fun i => leAt (Config.sha384 (d.vtBytes 0 97)) (8 * i) 8 == d.f R.VT_OPKEY.OPKEY i)

/-- CRED_INSTALL: the credential at byte 104 of VT_BUF, behind the operator's key (R301); `keyOk` says that the key is
a point of P-384, `sigOk` that SIG is its signature: the two together are that the credential verifies under the key. -/
def execCredInstall (keyOk sigOk : Bool) (s : State) : Res :=
  .next (s.onDev (fun d => d.vtCmd 3 0 (fun a =>
    let c := a.vtBytes 104 128
    if a.secure && a.keyMatches && keyOk && sigOk && slice c 8 8 == slice Config.serial 0 8 && decide (tbSec a.tb < ofBE (slice c 16 8)) then
      ({ a with cred := c }.set R.VT_STAT.CRED_OK 0 1).vtDone 0 0
    else a.vtRefuse)))

/-- ATTEST: ATT, the alias key's signature over its SHA-384, then the two certificates (R302). -/
def execAttest (s : State) : Res :=
  .next (s.onDev (fun d => d.vtCmd 4 0 (fun a =>
    if a.secure then
      let att := a.att (a.vtBytes 0 32)
      let l := att ++ slice (Config.ecdsaSign (Config.aliasKey a.meas.vit a.meas.cur) (Config.sha384 att) (a.drawn 48)) 0 96 ++ a.chain
      (a.drew.vtPlace l).vtDone 0 (min l.length 4096)
    else a.vtRefuse)))

/-- SEAL_PEER: sealing with the named peer starts (R303). -/
def execSealPeer (arg : BitVec 16) (s : State) : Res :=
  .next (s.onDev (fun d => d.vtCmd 5 arg.toNat (fun a =>
    if a.secure && (a.sealPeerAt arg.toNat).isSome then
      if a.on R.VT_STAT.TRNG_OK then (a.sealStart arg.toNat).vtDone 0 0 else (a.sealStart arg.toNat).vtDone 0x0D 0
    else a.vtRefuse)))

/-- DBG_CHALLENGE: a fresh nonce in VT_BUF (R302). -/
def execDbgChallenge (s : State) : Res :=
  .next (s.onDev (fun d => d.vtCmd 6 0 (fun a =>
    if a.f R.VT_STAT.SEC = 1 ∨ a.f R.VT_STAT.SEC = 2 then
      let n := slice (a.drawn 32) 0 32
      ({ a.drew with dbgNonce := n }.vtPlace n).vtDone 0 32
    else a.vtRefuse)))

/-- A SEALED tenant is enabled (R297). -/
def Dev.sealedTenant (d : Dev) : Bool := (d.listed 0).any (fun t => d.on R.TENANT.ENABLE t && d.on R.TENANT.SEC_MODE t)

/-! ### Erasure and sensors (R324, R325) -/

/-- Every hashed HBM content is lost (R324, R349): delta snapshots and codec slots. -/
def Dev.hashedLost (d : Dev) : Dev :=
  let d1 := (d.listed 5).foldl (fun (a : Dev) n =>
    let b := match a.deltaOut n with
      | some x =>
        let c := a.annexGive x.tenant x.stack (a.f R.DELTA.PAGES n)
        if x.mirror then c.annexGive x.tenant (x.stack + 1) (a.f R.DELTA.PAGES n) else c
      | none => a
    (b.setWord (tblKey 5 n 0) 0).setWord (tblKey 5 n 1) 0) d
  let d2 := d1.deltasIn.foldl (fun (a : Dev) x => a.deltaInFree x) { d1 with deltasOut := [] }
  (d2.listed 7).foldl (fun (a : Dev) n => a.slotDiscard n) { d2 with hists := [], histPend := [] }

/-- Every key is zeroised (R324): cluster stores, control keys and STR_BASE, KEKs, the storage key and the keyed-hash keys; every context
and every collective ends with KEY_LOST, and the hashed contents are lost. -/
def Dev.erase (d : Dev) : Dev :=
  let d1 := d.ctxs.foldl (fun (a : Dev) e => a.failCtx e.1 0x0D) d
  let d2 := (d1.colls.filter (fun x => x.ended.isNone)).foldl (fun (a : Dev) x => a.collFail x.id 0x0D true) d1
  let d3 := (List.range 4096).foldl (fun (a : Dev) p =>
    if a.f R.VT_PEER.STATE p = 0 then a else (a.set R.VT_PEER.STATE p 0).set R.VT_PEER.RESTRICTED p 0) d2
  let d4 := { d3 with halves := [], ctlKeys := [], keks := [], storageKey := [], seals := [], sealRx := [], hashKeys := [0, 0, 0] }
  ({ d4 with ctxs := d4.ctxs.map (fun (e : Nat × Ctx) => (e.1, { e.2 with kstr := [] })) }).hashedLost

/-- Every context bound to a cluster. -/
def Dev.clusterCtxs (d : Dev) (k : Nat) : List Nat :=
  (d.ctxs.filter (fun e => e.2.reserved && e.2.cluster == k)).map (fun e => e.1)

/-- Level of a sensor (Table 11.10). -/
def sensorLevel (i : Nat) : Nat := if i < 8 then 3 else if i < 13 then 2 else 1

/-- Sensor i trips (R324); `cluster` is the cluster of sensors 9 to 12, whose record a fence of its quarter stands for (R374). -/
def Dev.sensor (d : Dev) (i cluster : Nat) : Dev :=
  let d0 := d.set R.VT_SENSE.LIVE 0 (d.f R.VT_SENSE.LIVE ||| 2 ^ i)
  let d1 := if 9 ≤ i ∧ i < 13 ∧ d.fenced (cluster / 10) then d0 else d0.alarm 12 i 0x050 (sensorLevel i) 0
  if i < 8 then
    let e := (d1.erase.set R.VT_STAT.L3_CAUSE 0 i).bump R.VT_STAT.L3_COUNT 0
    let e1 := if i = 7 then e.set R.VT_STAT.SELFTEST 0 0 else e
    if e1.f R.VT_STAT.SEC = 1 then e1.set R.VT_STAT.SEC 0 2 else e1
  else if i = 8 then d1.set R.VT_STAT.TRNG_OK 0 0
  else if i < 13 then
    let d2 := if d1.clusterFence.contains cluster then d1 else { d1 with clusterFence := d1.clusterFence ++ [cluster] }
    (d2.clusterCtxs cluster).foldl (fun (a : Dev) c => a.quarantine c 0x06) d2
  else d1

/-- What the debug port decodes a JTAG instruction as (R298, Table 11.2): while LOCKED, BYPASS for all but BYPASS, IDCODE and
SAMPLE/PRELOAD, and EXTEST before the operator key is set, with no tenant enabled. -/
def Dev.jtagDecode (d : Dev) (ir : JtagInstr) : JtagInstr :=
  if d.f R.VT_STAT.DBG ≠ 0 then ir
  else match ir with
    | .bypass => .bypass
    | .idcode => .idcode
    | .sample => .sample
    | .extest => if !d.on R.VT_STAT.OPKEY_SET && !(d.listed 0).any (fun t => d.on R.TENANT.ENABLE t) then .extest else .bypass
    | .other => .bypass

/-- TAMPER_SENSOR_TRIP. Sensor JTAG trips where the instruction shifted in is decoded as BYPASS instead (R298). -/
def execTamperSensorTrip (i : Fin 16) (sight : SensorSight) (s : State) : Res :=
  .next (s.onDev (fun d => if i.val = 13 ∧ d.jtagDecode sight.jtag = sight.jtag then d else d.sensor i sight.cluster))

/-- Keys that a SEALED context needs and does not hold, because none could be derived meanwhile (R316, R324). -/
def Dev.dueKeys (d : Dev) (c : Nat) : Dev :=
  let x := d.ctx c
  if x.state = .opened ∨ x.state = .draining then
    let h := d.outHalf x.site
    [(h, epochOf x.sndUna), (h, epochOf x.sndUna + 1), (1 - h, epochOf x.rcvCum), (1 - h, epochOf x.rcvCum + 1)].foldl (fun (a : Dev) e =>
      match a.half (halfIx x.pair e.2 e.1) with
      | some k => if k.epoch = e.2 then a else a.writeEpoch x e.1 e.2
      | none => a.writeEpoch x e.1 e.2) d
  else d

/-- TRNG_RECOVERY: 1,024 consecutive samples have passed; keys that fell due meanwhile are derived, and outside P2 and P3 halves that
should have returned to their clusters do (R324). -/
def execTrngRecovery (s : State) : Res :=
  .next (s.onDev (fun d =>
    let a := (d.set R.VT_STAT.TRNG_OK 0 1).set R.VT_SENSE.LIVE 0 (d.f R.VT_SENSE.LIVE &&& (2 ^ 16 - 1 - 2 ^ 8))
    let b := if d.f R.SYS_PWR.STATE 0 < 2 then a.unwrapKeys else a
    b.ctxs.foldl (fun (b : Dev) e => b.dueKeys e.1) b))

/-! ### The rest of VT_CMD -/

/-- The debug token in VT_BUF names this device and the last nonce, with scope 0x01 (R302). -/
def Dev.tokenOk (d : Dev) : Bool :=
  !d.dbgNonce.isEmpty && d.vtBytes 0 8 == slice Config.serial 0 8 && d.vtBytes 8 32 == d.dbgNonce && d.vtByte 40 == 1 &&
  d.vtBytes 41 7 == zeros 7

/-- DBG_UNLOCK (R297, R302, R308): NW, every STR_BASE erased, every sealing RESTRICTED, also one whose keys are kept while the next is
tried. -/
def execDbgUnlock (sigOk : Bool) (s : State) : Res :=
  .next (s.onDev (fun d => d.vtCmd 7 0 (fun a =>
    if !((a.f R.VT_STAT.SEC == 1 || a.f R.VT_STAT.SEC == 2) && a.f R.VT_STAT.DBG == 0) then a.vtRefuse
    else if a.sealedTenant then a.vtDone 0x12 0
    else
      let b := { a with dbgNonce := [] }
      if a.tokenOk && sigOk then
        let c := { (b.set R.VT_STAT.DBG 0 1) with
          ctlKeys := b.ctlKeys.map (fun (e : Nat × List Byte × List Byte × List Byte) => (e.1, e.2.1, e.2.2.1, []))
          seals := b.seals.map (fun (e : Nat × SealX) => (e.1, { e.2 with restricted := true })) }
        ((List.range 4096).foldl (fun (q : Dev) p => if q.f R.VT_PEER.STATE p = 2 ∨ q.ctlKeys.any (fun e => e.1 == p) then q.set R.VT_PEER.RESTRICTED p 1 else q) c).vtDone 0 0
      else (b.sensor 15 0).vtRefuse)))

/-- DBG_LOCK: NW returns to LOCKED (R297). -/
def execDbgLock (s : State) : Res :=
  .next (s.onDev (fun d => d.vtCmd 8 0 (fun a => if a.f R.VT_STAT.DBG = 1 then (a.set R.VT_STAT.DBG 0 0).vtDone 0 0 else a.vtRefuse)))

/-- Draw the keys of the three hashed maps (R349). -/
def Dev.drawHashKeys (d : Dev) : Dev :=
  let a := ofBE (d.drawn 32)
  let d1 := d.drew
  let b := ofBE (d1.drawn 32)
  let d2 := d1.drew
  let c := ofBE (d2.drawn 32)
  { d2.drew with hashKeys := [a, b, c] }

/-- REHASH: only in P3 (R326); the contents hashed under the old keys are lost. -/
def execRehash (s : State) : Res :=
  .next (s.onDev (fun d => d.vtCmd 9 0 (fun a =>
    if a.f R.SYS_PWR.STATE = 3 then (a.drawHashKeys.hashedLost).vtDone 0 0 else a.vtDone 0x12 0)))

/-- RMA: a Nimmor token naming SERIAL erases as L3 and fuses RMA (Table 11.12). -/
def execRma (sigOk : Bool) (s : State) : Res :=
  .next (s.onDev (fun d => d.vtCmd 10 0 (fun a =>
    if a.secure && sigOk && a.vtBytes 0 8 == slice Config.serial 0 8 then
      ((a.erase.set R.VT_STAT.SEC 0 3).set R.VT_STAT.DBG 0 2).vtDone 0 0
    else a.vtRefuse)))

/-- SELFTEST: the known-answer tests again; a failure trips sensor KAT (R296). -/
def execSelftest (pass : Bool) (s : State) : Res :=
  .next (s.onDev (fun d => d.vtCmd 11 0 (fun a =>
    if pass then
      ((a.set R.VT_STAT.SELFTEST 0 1).set R.VT_SENSE.LIVE 0 (a.f R.VT_SENSE.LIVE &&& (2 ^ 16 - 1 - 2 ^ 7))).vtDone 0 0
    else (a.sensor 7 0).vtRefuse)))

/-! ### Key loads (R309 to R314) -/

/-- The 64-bit epoch at or near `base` whose low 32 bits are those given. -/
def nearEpoch (base low : Nat) : Nat := ((base : Int) + diff32 low base).toNat

/-- The epoch from which on a context needs the half of a direction: SND_UNA's or CUM's (R313). -/
def Dev.needFrom (d : Dev) (x : Ctx) (half : Nat) : Nat := if half = d.outHalf x.site then epochOf x.sndUna else epochOf x.rcvCum

/-- The context that holds a pair. -/
def Dev.pairCtx (d : Dev) (pair : Nat) : Option Nat := match d.bound pair with | some b => b.ctx | none => none

/-- The half holds a key that a context still needs. -/
def Dev.halfNeeded (d : Dev) (pair phase half : Nat) : Bool :=
  match d.pairCtx pair, d.half (halfIx pair phase half) with
  | some c, some k => decide (d.needFrom (d.ctx c) half ≤ k.epoch)
  | _, _ => false

/-- The stream key that a load names. -/
def loadKeyOf (r : LoadRecord) : Nat × Nat × Nat × Nat := (r.job.toNat, r.site.toNat, r.cls.toNat, if r.cls.toNat = 0 then 0 else r.wing.toNat)

/-- Another pair already holds this stream key's half of this phase (R312). -/
def Dev.loadClash (d : Dev) (r : LoadRecord) : Option Nat :=
  let k := loadKeyOf r
  (d.binds.filter (fun e => e.1 != r.slot.toNat / 2 && (match e.2 with | some b => (b.job, b.site, b.cls, b.wing) == k | none => false) &&
    (d.half (halfIx e.1 r.slot.toNat r.half.toNat)).isSome)).head?.map (fun e => e.1)

/-- A commit ends (R313): SEQ, STATUS and DONE of the channel, whose bytes are zeroed. -/
def Dev.loadDone (d : Dev) (f ch st : Nat) : Dev :=
  let k := 16 * f + ch
  let seq := ((d.loadRes.find? (fun e => e.1 == k)).map (fun e => e.2.1)).getD 0
  { d with loadRes := tabIns k ((seq + 1) % 65536, st) (d.loadRes.filter (fun e => e.1 != k)),
           loadRecs := d.loadRecs.filter (fun e => e.1 != k) }

/-- Steps 1 and 2 of R313: 0 when they pass. The phase of a SET_KEK's SLOT, which holds no key, is not asked for (log entry 57). -/
def Dev.loadCheck (d : Dev) (f : Nat) (r : LoadRecord) (kek : Bool) : Nat :=
  let t := r.tenant.toNat
  let pair := r.slot.toNat / 2
  if r.reserved || (!kek && r.slot.toNat % 2 != r.epoch.toNat % 2) then 0x01
  else if d.f R.TENANT.FUNC t ≠ f ∨ d.on R.TENANT.SEC_MODE t ∨
      !(decide (d.f R.VTTEN.PAIR_BASE t ≤ pair) && decide (pair < d.f R.VTTEN.PAIR_BASE t + d.f R.VTTEN.PAIR_COUNT t)) then 0x03
  else 0

/-- Refuse a commit: a foreign load trips its sensor (R313 step 2). -/
def Dev.loadRefuse (d : Dev) (f ch st : Nat) : Dev := if st = 0x03 then (d.sensor 14 0).loadDone f ch st else d.loadDone f ch st

/-- KEY_CONFLICT at level L2 (R312): the context of the existing pair enters QUARANTINED, which raises the alarm with it as the unit. Where
no context is left to quarantine the alarm is raised all the same; of a pair that no context holds its UNIT is a free value (log entry
57). -/
def Dev.keyConflict (d : Dev) (ctx : Option Nat) : Dev :=
  match ctx with
  | some c =>
    if (d.ctx c).state = .closed ∨ (d.ctx c).state = .quarantined then d.alarm 10 c 0x051 2 0x13 else d.quarantine c 0x13
  | none => d.usedFree.alarm 10 (d.freeWord.toNat % 65536) 0x051 2 0x13

/-- A plaintext half-key in hand: steps 5 and 6 of R313, then the write. -/
def Dev.loadKey (d : Dev) (f ch : Nat) (r : LoadRecord) (key : List Byte) : Dev :=
  let pair := r.slot.toNat / 2
  let phase := r.slot.toNat % 2
  let half := r.half.toNat
  let ks := loadKeyOf r
  let other := match d.bound pair with | some b => b.ctx.isSome && (b.job, b.site, b.cls, b.wing) != ks | none => false
  if d.halfNeeded pair phase half || other then d.loadDone f ch 0x12
  else match d.loadClash r with
    | some old =>
      let d1 := ((d.setHalf (halfIx pair phase half) none).set R.VT_ERR.CONFLICT 0 1)
      (d1.keyConflict (d1.pairCtx old)).loadDone f ch 0x13
    | none =>
      let base := match d.pairCtx pair with | some c => d.needFrom (d.ctx c) half | none => 0
      let ctx := d.pairCtx pair
      let d1 := d.setBound pair (some ⟨ks.1, ks.2.1, ks.2.2.1, ks.2.2.2, ctx⟩)
      (d1.storeHalf (halfIx pair phase half) { epoch := nearEpoch base r.epoch.toNat, key := slice key 0 32 }).loadDone f ch 0

/-- BAR4 accepts accesses once boot is READY (R359), and a SECURE, MANUF or RMA gateway takes keys; in ERASED there are no keys. -/
def Dev.loadStart (d : Dev) (f ch : Nat) (r : LoadRecord) (kek : Bool) (g : Dev → Dev) : Dev :=
  if !d.ready then d
  else
    let c := d.loadCheck f r kek
    if c ≠ 0 then d.loadRefuse f ch c
    else if d.f R.VT_STAT.SEC = 2 then d.loadDone f ch 0x03
    else g d

/-- LOAD (OP 1). -/
def execLoad (f : Fin 256) (ch : Fin 16) (r : LoadRecord) (s : State) : Res :=
  .next (s.onDev (fun d => d.loadStart f ch r false (fun a =>
    if !a.on R.VT_CTL.PLAIN_OK then a.loadDone f ch 0x03 else a.loadKey f ch r r.key)))

/-- The first 16 bytes of a record (Table 11.9). -/
def loadAad (op : Nat) (r : LoadRecord) : List Byte :=
  leBytes 8 (op + 2 ^ 4 * r.half.toNat + 2 ^ 16 * r.tenant.toNat + 2 ^ 32 * r.slot.toNat) ++
  leBytes 8 (r.job.toNat + 2 ^ 12 * r.site.toNat + 2 ^ 20 * r.cls.toNat + 2 ^ 24 * r.wing.toNat + 2 ^ 32 * r.epoch.toNat)

/-- LOAD_WRAPPED (OP 2). -/
def execLoadWrapped (f : Fin 256) (ch : Fin 16) (r : LoadRecord) (tagOk : Bool) (s : State) : Res :=
  .next (s.onDev (fun d => d.loadStart f ch r false (fun a =>
    if !a.on R.VT_STAT.TRNG_OK then a.loadDone f ch 0x0D
    else match a.keks.find? (fun e => e.1 == r.tenant.toNat) with
      | none => a.loadDone f ch 0x06
      | some e =>
        if !tagOk then a.loadDone f ch 0x06
        else a.loadKey f ch r (Config.gcmOpen e.2 (slice r.nonce 0 12) (loadAad 2 r) (slice r.key 0 32)))))

/-- CLEAR (OP 3): the half is zeroised; a context that needed it fails with KEY_LOST. -/
def execClear (f : Fin 256) (ch : Fin 16) (r : LoadRecord) (s : State) : Res :=
  .next (s.onDev (fun d => d.loadStart f ch r false (fun a =>
    let pair := r.slot.toNat / 2
    let need := a.halfNeeded pair (r.slot.toNat % 2) r.half.toNat
    let b := a.setHalf (halfIx pair (r.slot.toNat % 2) r.half.toNat) none
    let c := match a.pairCtx pair with | some x => if need then b.failCtx x 0x0D else b | none => b
    c.loadDone f ch 0)))

/-- VT_LOADPUB: the public point of the static load key, 97 bytes (R314). -/
def loadPub : List Byte := slice (Config.ecPublic Config.loadKey) 0 97

/-- SET_KEK (OP 4): KEK_t from the ECDH secret of the host key and the load key. -/
def execSetKek (f : Fin 256) (ch : Fin 16) (r : LoadRecord) (s : State) : Res :=
  .next (s.onDev (fun d => d.loadStart f ch r true (fun a =>
    if !a.on R.VT_STAT.TRNG_OK then a.loadDone f ch 0x0D
    else
      let z := Config.ecdh Config.loadKey (slice r.key 0 97)
      let kek := Config.hkdfExpand (Config.hmac384 (Config.sha384 loadPub) z) (ascii "LK-KEK" ++ beBytes 2 r.tenant.toNat) 32
      { a with keks := tabIns r.tenant.toNat kek (a.keks.filter (fun e => e.1 != r.tenant.toNat)) }.loadDone f ch 0)))

/-- IDLE of a tenant (R17, R20): no admitted operation or collective of it remains. -/
def Dev.tenantIdle (d : Dev) (t : Nat) : Bool :=
  !(d.ops.any (fun o => o.admitted && d.opTenant o == t)) && !(d.colls.any (fun x => x.tenant == t && x.ended.isNone))

/-- Two pair ranges overlap (R309). -/
def Dev.pairsClash (d : Dev) (t base count : Nat) : Bool :=
  count != 0 && (decide (32768 < base + count) || (d.listed 9).any (fun u => u != t && d.f R.VTTEN.PAIR_COUNT u != 0 &&
    decide (d.f R.VTTEN.PAIR_BASE u < base + count) && decide (base < d.f R.VTTEN.PAIR_BASE u + d.f R.VTTEN.PAIR_COUNT u)))

/-- A write of the tenant's VT_TEN word (R309): refused with MISMATCH where ranges would overlap or pass pair 32,767. -/
def Dev.vtTenWrite (d : Dev) (t : Nat) (l : Lanes) (w : Word) : Dev :=
  let k := tblKey 9 t 0
  let p := d.writeFields k (!d.on R.TENANT.ENABLE t && d.tenantIdle t) l w
  if p.2 then d.set R.VT_ERR.BUSY 0 1
  else if p.1.pairsClash t (p.1.f R.VTTEN.PAIR_BASE t) (p.1.f R.VTTEN.PAIR_COUNT t) then d.set R.VT_ERR.MISMATCH 0 1
  else p.1

/-- VT_TEN_WRITE. -/
def execVtTenWrite (t : Fin 1024) (l : Lanes) (w : Word) (s : State) : Res :=
  .next (s.onDev (fun d => if d.ready then d.vtTenWrite t l w else d))

/-! ### Power grants (R326, R327) -/

/-- Contexts at work: bound to a cluster, or homed on a wing, with something unreceipted, held or to be cut. -/
def Ctx.busy (x : Ctx) : Bool := !(x.log.all (fun g => g.receipted) && x.held.isEmpty && x.sendq.isEmpty && x.tgt.isEmpty)

/-- Cluster i has no cipher work. -/
def Dev.clusterIdle (d : Dev) (i : Nat) : Bool := d.ctxs.all (fun e => !(e.2.reserved && e.2.cluster == i && e.2.busy))

/-- The clusters of wing w that could take the contexts of cluster i: not gated and not fenced. -/
def Dev.otherClusters (d : Dev) (i : Nat) : List Nat :=
  ((List.range 10).map (fun k => 10 * (i / 10) + k)).filter (fun j => j != i && !(d.f R.VT_PWR_RES.GATED).testBit j && !d.clusterFence.contains j)

/-- Slots held at a cluster: two for each context bound to it. -/
def Dev.clusterSlots (d : Dev) (i : Nat) : Nat := 2 * (d.clusterCtxs i).length

/-- The other clusters of the wing have room for the slots of cluster i (R321, R326). -/
def Dev.clusterRoom (d : Dev) (i : Nat) : Bool :=
  let o := d.otherClusters i
  decide (d.clusterSlots i ≤ (o.map (fun j => 8192 - d.clusterSlots j)).sum)

/-- Grant the gate of cluster i: its slots are wrapped and move, context by context, to the least loaded other cluster. -/
def Dev.gateCluster (d : Dev) (i : Nat) : Dev :=
  let d1 := (d.clusterCtxs i).foldl (fun (a : Dev) c =>
    let o := a.otherClusters i
    let j := o.foldl (fun b k => if a.clusterSlots k < a.clusterSlots b then k else b) (o.headD i)
    (a.onCtx c (fun x => { x with cluster := j })).movePair (a.ctx c).pair) d
  d1.set R.VT_PWR_RES.GATED 0 (d1.f R.VT_PWR_RES.GATED ||| 2 ^ i)

/-- The bits of GATED that a target covers. -/
def gateBits (target : Nat) : Nat := if target < 40 then 2 ^ target else (2 ^ 10 - 1) * 2 ^ (10 * (target - 64))

/-- Target is a cluster or a quarter that this gateway has. -/
def Dev.gateTarget (d : Dev) (target : Nat) : Bool :=
  (decide (target < 40) && d.wingPresent (target / 10)) || (decide (64 ≤ target) && decide (target < 68) && d.wingPresent (target - 64))

/-- The unit is idle, so that a gate may be granted. -/
def Dev.gateReady (d : Dev) (target : Nat) : Bool :=
  if target < 40 then d.clusterIdle target
  else d.ctxs.all (fun e => !(e.2.reserved && e.2.home == target - 64)) &&
    (List.range 10).all (fun k => d.clusterIdle (10 * (target - 64) + k))

/-- A power request ends. -/
def Dev.pwrDone (d : Dev) (st : Nat) : Dev :=
  { ((d.set R.VT_PWR_RES.STATUS 0 st).set R.VT_PWR_REQ.GO 0 0) with gateReq := none }

/-- A gate granted in P0 enters P1 TRIM (Table 13.8): a completed power-state move, at which PROFILE takes effect (R367). -/
def Dev.trim (d : Dev) : Dev := if d.f R.SYS_PWR.STATE = 0 then (d.set R.SYS_PWR.STATE 0 1).takeProfile else d

/-- Grant a gate. -/
def Dev.gateGrant (d : Dev) (target : Nat) : Dev :=
  if target < 40 then (if d.clusterRoom target then ((d.gateCluster target).pwrDone 0).trim else d.pwrDone 0x12)
  else ((d.set R.VT_PWR_RES.GATED 0 (d.f R.VT_PWR_RES.GATED ||| gateBits target)).pwrDone 0).trim

/-- A write of VT_PWR_REQ with GO: only one request at a time; its fields are written. -/
def Dev.pwrReq (d : Dev) (target action : Nat) (g : Dev → Dev) : Dev :=
  if !d.ready || d.gateReq.isSome then d
  else g ((d.set R.VT_PWR_REQ.TARGET 0 target).set R.VT_PWR_REQ.ACTION 0 action)

/-- POWER_GATE: granted at once when the unit is idle, deferred otherwise. -/
def execPowerGate (target : Fin 128) (s : State) : Res :=
  .next (s.onDev (fun d => d.pwrReq target 0 (fun a =>
    if !a.gateTarget target then a.pwrDone 0x12
    else if a.gateReady target then a.gateGrant target
    else { a.set R.VT_PWR_REQ.GO 0 1 with gateReq := some target.val, gateAt := a.now })))

/-- POWER_UNGATE. -/
def execPowerUngate (target : Fin 128) (s : State) : Res :=
  .next (s.onDev (fun d => d.pwrReq target 1 (fun a =>
    if !a.gateTarget target then a.pwrDone 0x12
    else (a.set R.VT_PWR_RES.GATED 0 (a.f R.VT_PWR_RES.GATED &&& (2 ^ 40 - 1 - gateBits target))).pwrDone 0)))

/-- GATE_DEFER_END: granted once the unit is idle, BUSY where it is not 10 ms after the request (R326). -/
def execGateDeferEnd (s : State) : Res :=
  .next (s.onDev (fun d =>
    match d.gateReq with
    | none => d
    | some t => if d.gateReady t then d.gateGrant t else if 10000000 ≤ d.since d.gateAt then d.pwrDone 0x12 else d))

/-- The pairs whose keys a cluster's store holds. -/
def Dev.clusterPairs (d : Dev) (k : Nat) : List Nat := (d.clusterCtxs k).map (fun c => (d.ctx c).pair)

/-- Zeroise the key store of a cluster (R327). -/
def Dev.zeroCluster (d : Dev) (k : Nat) : Dev :=
  (d.clusterPairs k).foldl (fun (a : Dev) p =>
    (((a.setHalf (4 * p) none).setHalf (4 * p + 1) none).setHalf (4 * p + 2) none).setHalf (4 * p + 3) none) d

/-- CLUSTER_POWER_LOSS: zeroised, and its contexts end with KEY_LOST, unless the quarter is fenced (R156 and R122 decide there). -/
def execClusterPowerLoss (k : Fin 40) (s : State) : Res :=
  .next (s.onDev (fun d =>
    let cs := d.clusterCtxs k
    let d1 := d.zeroCluster k
    if d1.fenced (k.val / 10) then d1 else cs.foldl (fun (a : Dev) c => a.failCtx c 0x0D) d1))

end Sys2Proof.Machine
end

