-- ==== Sys2Proof/Machine/Plans.lean ====
section
/-! DEFINITION. Activation of a Catalogue version (R218, R220, R303, R381, R382), items overtaken by a forward step of the timebase
(R239), and the events of timekeeping that may step it. -/

namespace Sys2Proof.Machine

open Sys2Proof

/-- Peers enter and leave the plan at an activation (R381, R382): a peer that was not in the plan starts in ALIVE, one that is no longer
in it is ABSENT. -/
def Dev.planPeers (d : Dev) : Dev :=
  (List.range 4096).foldl (fun (a : Dev) p =>
    if catPeerValid a.cat p then
      (if a.f R.HEALTH_PEER.STATE p = 3 then
        (a.setPeer p { last := a.now, deadline := a.now + a.lease, vouched := 0, lostBit := false, noteSent := false }).set
          R.HEALTH_PEER.STATE p 0
      else a)
    else if a.f R.HEALTH_PEER.STATE p = 3 then a
    else (a.setPeer p PeerX.empty).set R.HEALTH_PEER.STATE p 3) d

/-- The pending Catalogue version becomes active (R239): both CEP values are accepted until HOLD is over (R218); contexts whose peer site
maps to another peer index, or to none, end with ABORTED, and a domain whose source peer has gone has lost its source (R220); the bins of
a path whose site has another peer index are SUSPECT (R289). -/
def Dev.activateCat (d : Dev) : Dev :=
  if d.on R.CAT_STATE.PEND then
    let old := d.peerOf
    let id := d.f R.CAT_ID.PEND_PLAN
    let d1 := ((((d.pmSettle.set R.CAT_STATE.ACTIVE 0 (1 - d.f R.CAT_STATE.ACTIVE)).set R.CAT_STATE.PEND 0 0).set R.CAT_STATE.COMMITTED 0 0).set
      R.CAT_STATE.ACT_AT 0 0).set R.CAT_STATE.HOLDING 0 1
    let d2 := ((d1.set R.CAT_ID.ACTIVE_PLAN 0 id).set R.CAT_ID.PEND_PLAN 0 0).set R.CAT_READY.READY 0 0
    let d3 := { d2 with catHeld := d2.now, catHold := d2.f R.CAT_CTL.HOLD }
    let d4 := (d3.ctxs.filter (fun e => !e.2.isClosed && old e.2.site != d3.peerOf e.2.site)).foldl (fun (a : Dev) e => a.failCtx e.1 0x0F) d3
    let d5 := d4.planPeers
    let d6 := [0, 1].foldl (fun (a : Dev) i =>
      if a.on R.TIME_DOM_CFG.EN i && a.f R.TIME_DOM_CFG.SRC_TYPE i == 0 && !catPeerValid a.cat (a.f R.TIME_DOM_CFG.SRC i) then a.sourceLost i
      else a) d5
    let moved := (List.range 32).filter (fun x => old x != d6.peerOf x)
    let d7 := moved.foldl (fun (a : Dev) x => (List.range 8).foldl (fun (b : Dev) q => b.pmDirty (pathEnt x q)) a) d6
    ((List.range 8).foldl (fun (a : Dev) e => a.regroupEngine e) d7).sealAll
  else d

/-- CATALOGUE_ACTIVATE: ACTIVATE of the pending version has come. -/
def execCatalogueActivate (s : State) : Res :=
  .next (s.onDev (fun d => if d.hasCome (d.f R.CAT_STATE.ACT_AT) then d.activateCat else d))

/-- A pending item's ACTIVATE lay ahead of `before` and no longer lies ahead. -/
def passed (act before now : Nat) : Bool := decide (0 < diff40 act before) && decide (diff40 act now ≤ 0)

/-- A forward step from `before` overtakes pending items: they activate at once, the earlier one first (R239). -/
def Dev.overtaken (d : Dev) (before : Nat) : Dev :=
  let c := d.on R.CAT_STATE.PEND && passed (d.f R.CAT_STATE.ACT_AT) before d.ns40
  let p := d.on R.ITIN_STATE.PEND && passed (d.f R.ITIN_STATE.ACT_AT) before d.ns40
  let pageFirst := p && c && decide (diff40 (d.f R.ITIN_STATE.ACT_AT) (d.f R.CAT_STATE.ACT_AT) < 0)
  let d1 := if pageFirst then d.activatePage else d
  let d2 := if c then d1.activateCat else d1
  if p && !pageFirst then d2.activatePage else d2

/-- A change of the gateway in which the timebase may step. -/
def State.onPlan (s : State) (g : Dev → Dev) : State := s.onDev (fun d => (g d).overtaken d.ns40)

/-! ### Events of timekeeping that may step the timebase -/

/-- SERVO_SAMPLE: a valid sample `o` (domain time minus timebase). -/
def execServoSample (i : Fin 2) (o : Int) (s : State) : Res := .next (s.onPlan (fun d => d.servoSample i o))

/-- SOURCE_LOST: no valid sample for 8 sample intervals, or the line peer is suspected. -/
def execSourceLost (i : Fin 2) (s : State) : Res := .next (s.onPlan (fun d => d.sourceLost i))

/-- TIME_ADJ_STEP. -/
def execTimeAdjStep (ofs : BitVec 48) (s : State) : Res := .next (s.onPlan (fun d => if d.ready then d.timeAdj 0 ofs else d))

/-- TIME_ADJ_SLEW. -/
def execTimeAdjSlew (ofs : BitVec 48) (s : State) : Res := .next (s.onPlan (fun d => if d.ready then d.timeAdj 1 ofs else d))

/-- TIME_ADJ_SET. -/
def execTimeAdjSet (ofs : BitVec 48) (s : State) : Res := .next (s.onPlan (fun d => if d.ready then d.timeAdj 2 ofs else d))

/-- STEER_WRITE. -/
def execSteerWrite (i : Fin 2) (s : State) : Res := .next (s.onPlan (fun d => if d.ready then d.steerWrite i else d))

/-- DOMAIN_ENABLE. -/
def execDomainEnable (i : Fin 2) (l : Lanes) (w : Word) (s : State) : Res := .next (s.onPlan (fun d => if d.ready then d.domCfgWrite i l w else d))

/-- PTP_MESSAGE_RECEIVE: the packet is sampled (R346) and taken. -/
def execPtpMessageReceive (p : Fin 128) (m : PtpMsg) (s : State) : Res :=
  .next (if s.dev.lportUp p then (s.onBoth (ptpSample p 0 (m.rxTime / 65536))).onPlan (fun d => d.ptpIn p m) else s)

/-- ECHO_RECEIVE: the sample and the mean path delay (R205), while the anchor that heard it is up (R194); an ECHO of no mark is ignored
(R204). -/
def execEchoReceive (e : Fin 8) (p : Fin 4096) (m : TimeEcho) (s : State) : Res :=
  .next (s.onPlan (fun d =>
    match (d.mark p).dIn with
    | none => d
    | some dIn =>
      if (m.seq = 0xFFFF ∧ m.diff = 0) ∨ !d.anchorUp e then d
      else
        let dOut := m.diff.toInt
        let o := (dOut - dIn - d.asym e p) / 2
        let mpd := (dIn + dOut) / 2
        let d1 := { d with dMean := setCount d.dMean p ((mpd / 65536).toNat + 1) }
        [0, 1].foldl (fun (acc : Dev) i =>
          if acc.on R.TIME_DOM_CFG.EN i && acc.f R.TIME_DOM_CFG.SRC_TYPE i == 0 && acc.f R.TIME_DOM_CFG.SRC i == p.val then
            (acc.set R.TIME_DOM_PATH.MPD i (unsigned 48 mpd)).servoSample i o
          else acc) d1))

/-- TOD_IN_MESSAGE: parsed with IN_EN = 1; the message between 10 ms and 900 ms after the edge completes the sample (R209, R211). -/
def execTodInMessage (bytes : List Byte) (s : State) : Res :=
  .next (s.onPlan (fun d =>
    if !(d.on R.TIME_CTL.ENABLE && d.on R.TIME_TOD.IN_EN) then d
    else
      match todSeconds bytes, d.ppsEdge with
      | none, _ => d.set R.TIME_ERR.TOD_BAD 0 1
      | some _, none => d
      | some k, some e =>
        let dt : Int := (d.tb : Int) - e
        if dt < 10000000 * 65536 then d.set R.TIME_ERR.TOD_BAD 0 1
        else if 900000000 * 65536 < dt then { d.set R.TIME_ERR.TOD_BAD 0 1 with ppsEdge := none }
        else
          let o := ((k * 1000000000 * 65536 : Nat) : Int) + d.sf R.TIME_PPS.IN_DELAY * 65536 - e
          [0, 1].foldl (fun (acc : Dev) i => if acc.usesPins i then acc.servoSample i o else acc) { d with ppsEdge := none }))

end Sys2Proof.Machine
end

