-- ==== Sys2Proof/Machine/Fabric.lean ====
section
/-! DEFINITION. Transmit scheduling on fabric ports and line carriers (R340 to R344), queue samples (R345), the package ring (R347, R348)
and the regulation of the HBM interleave (R351). -/

namespace Sys2Proof.Machine

open Sys2Proof

/-! ### One WFQ selection (R341) -/

/-- The finish tag of a queue whose head is L bytes long, at weight w. -/
def finishTag (t len w : Nat) : Nat := (t + len * 65536 / max w 1) % 2 ^ 48

/-- The queue with the smallest finish tag, the lowest number on equal tags; its tag, and whether there was a tie. -/
def wfqPick (l : List (Nat × Nat)) : Option (Nat × Nat × Bool) :=
  l.foldl (fun (b : Option (Nat × Nat × Bool)) e =>
    match b with
    | none => some (e.1, e.2, false)
    | some (q, f, tie) =>
      if diff48 e.2 f < 0 then some (e.1, e.2, false)
      else if e.2 = f then some (min q e.1, f, true)
      else some (q, f, tie)) none

/-- The chosen queue's tag becomes its finish tag, and V follows without moving back. -/
def WfqX.serve (x : WfqX) (q f : Nat) : WfqX := { v := if diff48 x.v f < 0 then f else x.v, t := tabIns q f x.t }

/-- The tag of a queue. -/
def WfqX.tag (x : WfqX) (q : Nat) : Nat := tabGet (fun _ => 0) x.t q

/-! ### Fabric ports -/

/-- A write limiter paces WRITE bytes, a read limiter the LENGTH of READ_REQs (R337). -/
def LrmOut.paced (q : LrmOut) : Nat := if q.typ = 3 then q.payload.length else ofBE q.payload

/-- A packet whose limiter lets it leave now. -/
def Dev.mayLeave (d : Dev) (q : LrmOut) : Bool :=
  match d.limiterOf q.tenant q.ep (q.typ == 3) with
  | some (_, x) => decide (x.next ≤ d.now)
  | none => true

/-- The heads of the flows of a port, in arrival order, that may leave now (Table 12.5, level 5). -/
def Dev.portHeads (d : Dev) (p : Nat) : List LrmOut :=
  let l := d.portQueue p
  let heads := l.foldl (fun (a : List LrmOut) q => if a.any (fun h => h.tenant == q.tenant && h.flow == q.flow) then a else a ++ [q]) []
  heads.filter d.mayLeave

/-- The smallest number of a list. -/
def least (l : List Nat) : Option Nat := l.foldl (fun (b : Option Nat) n => match b with | none => some n | some m => some (min m n)) none

/-- The pacing of a packet that leaves: its bytes at the limiter's rate of 0.1 Gb/s units (R337). -/
def Dev.pace (d : Dev) (q : LrmOut) : Dev :=
  match d.limiterOf q.tenant q.ep (q.typ == 3) with
  | some (i, x) => d.setLimiter i { x with next := d.now + ceilDiv (80 * q.paced) (max x.rate 1) }
  | none => d

/-- The first packet of a flow leaves a port's queue. -/
def dropHead (tenant flow : Nat) : List LrmOut → List LrmOut
  | [] => []
  | q :: t => if q.tenant = tenant ∧ q.flow = flow then t else q :: dropHead tenant flow t

/-- A selection among the LRM packets of logical port p (Table 12.5, levels 2 to 5). -/
def lrmSelect (p : Nat) (d : Dev) (m : List Host.Cell) : Dev × List Host.Cell :=
  let heads := if d.on R.FAB_CTL.ENABLE && d.lportUp p && d.on R.FAB_PORT_CFG.EN (p / 4) then d.portHeads p else []
  match least (heads.map (fun q => d.f R.FTEN.PRIO_FAB q.tenant)) with
  | none => (d, m)
  | some prio =>
    let hs := heads.filter (fun q => d.f R.FTEN.PRIO_FAB q.tenant == prio)
    let inner := fun t => wfqPick ((hs.filter (fun q => q.tenant == t)).map (fun q =>
      (q.flow, finishTag ((d.wfqOf (wfqInner p t)).tag q.flow) (d.lrmLen q) 1)))
    let outer := (distinct (hs.map (fun q => q.tenant))).filterMap (fun t =>
      match inner t with
      | none => none
      | some (fl, _, _) => (hs.find? (fun q => q.tenant == t && q.flow == fl)).map (fun q =>
          (t, finishTag ((d.wfqOf p).tag t) (d.lrmLen q) (d.f R.FTEN.W_FAB t))))
    match wfqPick outer with
    | none => (d, m)
    | some (t, f3, tie3) =>
      match inner t with
      | none => (d, m)
      | some (fl, f4, tie4) =>
        match hs.find? (fun q => q.tenant == t && q.flow == fl) with
        | none => (d, m)
        | some q =>
          let d1 := (d.setWfq p ((d.wfqOf p).serve t f3)).setWfq (wfqInner p t) ((d.wfqOf (wfqInner p t)).serve fl f4)
          let d2 := d1.bump R.FAB_PORT_CNT2.TIES (p / 4) (b2n tie3 + b2n tie4)
          let d3 := (d2.setPortQueue p (dropHead t fl (d2.portQueue p))).pace q
          let frame := d3.lrmFrame q
          headerSample p 1 d.ns40 frame (d3.emit (.lrm p frame)) m

/-- A selection on logical port p at a packet start (R340): PTP messages first, then LRM packets, the reads that may go now among them
(R339). -/
def portSelect (p : Nat) (d : Dev) (m : List Host.Cell) : Dev × List Host.Cell :=
  match if d.lportUp p then ptpFirst (d.ptpQueue p) else none with
  | some x => ptpDepart p x d m
  | none => lrmSelect p d.releaseReads m

/-! ### Line carriers -/

/-- Carrier m may send a segment of context x now: R230, and in PLACED mode R388. -/
def Dev.carries (d : Dev) (m : Nat) (x : Ctx) : Bool := d.mayCarry m x && d.marginAdmits m x

/-- The first segment of context c that waits for its first transmission on a carrier that can no longer carry it, where carrier m can: it
waits on m from now on (R121, R175, R388). -/
def Dev.adoptOne (d : Dev) (m c : Nat) : Dev :=
  let x := d.ctx c
  if !d.carries m x then d
  else
    match x.log.find? (fun e => !e.receipted && !e.resend && e.attempts == 0 && e.carrier != m && !d.carries e.carrier x) with
    | none => d
    | some g => d.onCtx c (fun y => { y with log := y.log.map (fun (e : LogEnt) => if e.seq = g.seq then { e with carrier := m } else e) })

/-- Carrier m takes over what waits on carriers that can no longer carry it. -/
def Dev.adopt (d : Dev) (m : Nat) : Dev := (d.ctxs.map (·.1)).foldl (fun (a : Dev) c => a.adoptOne m c) d.lineSettle

/-- The entry that a context would send next on carrier m: resends before new segments, each in ascending SEQ (level 5). -/
def Ctx.lineHead (x : Ctx) (m : Nat) : Option LogEnt :=
  match x.log.find? (fun e => waitsOn m e && e.resend) with
  | some e => some e
  | none => x.log.find? (waitsOn m)

/-- Contexts whose queue on carrier m is not empty, with the next entry. -/
def Dev.lineQueues (d : Dev) (m : Nat) : List (Nat × Ctx × LogEnt) :=
  d.ctxs.filterMap (fun e => if e.2.queuedOn m then (e.2.lineHead m).map (fun g => (e.1, e.2, g)) else none)

/-- Queues in a list keep their tag, a queue that has become non-empty starts at V, the others lose theirs (R341). -/
def WfqX.refresh (x : WfqX) (qs : List Nat) : WfqX :=
  { x with t := qs.foldl (fun (a : List (Nat × Nat)) q => tabIns q ((x.t.find? (fun e => e.1 == q)).map (fun e => e.2) |>.getD x.v) a) [] }

/-- Tags of carrier m's selectors with the queues that are not empty now. -/
def Dev.lineTags (d : Dev) (m : Nat) : Dev :=
  let a := d.lineSettle
  let ent := 128 + m
  let ts := a.lineQueued ent
  ts.foldl (fun (a : Dev) t => a.setWfq (wfqInner ent t) ((a.wfqOf (wfqInner ent t)).refresh (a.lineQueued (wfqInner ent t))))
    (a.setWfq ent ((a.wfqOf ent).refresh ts))

/-- An entry is transmitted on carrier m (R174): one attempt more; a resend counts in VAR_RETX of the home wing and is a recovery event
of what it carries. -/
def Dev.sendEntry (d : Dev) (c m : Nat) (g : LogEnt) : Dev :=
  let d1 := d.onCtx c (fun x => { x with
    log := x.log.map (fun (e : LogEnt) => if e.seq = g.seq then { e with attempts := e.attempts + 1, lastSend := d.now, carrier := m, resend := false } else e) })
  let d2 := (d1.onLine m (fun y => { y with txq := y.txq ++ [(false, segBytes g.seg)] })).emit (.segment m false g.seg)
  if g.attempts = 0 then d2
  else
    let d3 := (d2.bump R.VAR_RETX.VALUE (d2.ctx c).home).eventOp c g.seg
    if g.seg.typ = 3 then d3.updColl (segColl g.seg) (fun x => { x with events := x.events + 1 }) else d3

/-- A selection on carrier m at a segment start. -/
def Dev.lineSelect (d0 : Dev) (m : Nat) : Dev :=
  let d := (d0.adopt m).lineTags m
  let qs := (d.lineQueues m).filter (fun q => d.carries m q.2.1)
  if (d.kwOf m).txGuard then d
  else match least (qs.map (fun q => d.f R.FTEN.PRIO_LINE (d.ctxTenant q.2.1))) with
  | none => d
  | some prio =>
    let hs := qs.filter (fun q => d.f R.FTEN.PRIO_LINE (d.ctxTenant q.2.1) == prio)
    let ent := 128 + m
    let inner := fun t => wfqPick ((hs.filter (fun q => d.ctxTenant q.2.1 == t)).map (fun q =>
      (q.1, finishTag ((d.wfqOf (wfqInner ent t)).tag q.1) q.2.2.size 1)))
    let outer := (distinct (hs.map (fun q => d.ctxTenant q.2.1))).filterMap (fun t =>
      match inner t with
      | none => none
      | some (c, _, _) => (hs.find? (fun q => q.1 == c)).map (fun q =>
          (t, finishTag ((d.wfqOf ent).tag t) q.2.2.size (d.f R.FTEN.W_LINE t))))
    match wfqPick outer with
    | none => d
    | some (t, f3, tie3) =>
      match inner t with
      | none => d
      | some (c, f4, tie4) =>
        match hs.find? (fun q => q.1 == c) with
        | none => d
        | some q =>
          let d1 := (d.setWfq ent ((d.wfqOf ent).serve t f3)).setWfq (wfqInner ent t) ((d.wfqOf (wfqInner ent t)).serve c f4)
          let d2 := if d1.itinMode = 0 then d1.bump R.VAR_OPEN_ARB.VALUE (carrierWing m) (b2n tie3 + b2n tie4) else d1
          (d2.sendEntry c m q.2.2).lineTags m

/-- SCHEDULING_SELECTION: entity 0 to 127 is a logical port, 128 + m carrier Cm. -/
def execSchedulingSelection (ent : Fin 256) (s : State) : Res :=
  .next (if ent.val < 128 then s.onBoth (portSelect ent) else s.onDev (fun d => d.lineSelect (ent.val - 128)))

/-! ### Queue samples (R345) -/

/-- Queued bytes and sojourn delay of the level-3 queue of an entity and a tenant. -/
def Dev.queueNow (d : Dev) (ent t : Nat) : Nat × Nat :=
  if ent < 128 then
    let l := (d.portQueue ent).filter (fun q => q.tenant == t)
    ((l.map d.lrmLen).sum, match l with | q :: _ => d.since q.at_ | [] => 0)
  else
    let m := ent - 128
    let l := d.ctxs.flatMap (fun e => if d.ctxTenant e.2 = t then
      e.2.log.filter (fun g => g.carrier == m && !g.receipted && (g.resend || g.attempts == 0)) else [])
    ((l.map (fun g => g.size)).sum, (l.map (fun g => d.since g.cutAt)).foldl max 0)

/-- Record a sample of a queue: the last and the largest since the previous read of the word. -/
def Dev.queueSample (d : Dev) (ent t : Nat) : Dev :=
  let i := 1024 * ent + t
  let v := d.queueNow ent t
  let a := min v.1 (2 ^ 32 - 1)
  let b := min v.2 (2 ^ 32 - 1)
  (((d.set R.FABQS.LAST0 i a).set R.FABQS.MAX0 i (max a (d.f R.FABQS.MAX0 i))).set R.FABQS.LAST1 i b).set R.FABQS.MAX1 i (max b (d.f R.FABQS.MAX1 i))

/-- Queues that may hold something, by 1,024·entity + tenant. -/
def Dev.queuesHeld (d : Dev) : List Nat :=
  distinct (d.portQ.flatMap (fun e => e.2.map (fun q => 1024 * e.1 + q.tenant)) ++
    d.ctxs.flatMap (fun e => (e.2.log.filter (fun g => g.resend || g.attempts == 0)).map (fun g => 1024 * (128 + g.carrier) + d.ctxTenant e.2)))

/-- QUEUE_SAMPLE: every level-3 queue; one with nothing waiting samples 0. -/
def execQueueSample (s : State) : Res :=
  .next (s.onDev (fun d => (distinct (d.queuesHeld ++ d.listed 11)).foldl (fun (a : Dev) i => a.queueSample (i / 1024) (i % 1024)) d))

/-- A read of FAB_QS_DATA: LAST and MAX of the selected queue and word; MAX clears. -/
def Dev.qsRead (d : Dev) : Dev :=
  let i := d.f R.FAB_QS_SEL.QUEUE
  let w := if d.f R.FAB_QS_SEL.WORD = 0 then (R.FABQS.LAST0, R.FABQS.MAX0) else (R.FABQS.LAST1, R.FABQS.MAX1)
  (d.emit (.readData (BitVec.ofNat 64 (d.f w.1 i + 2 ^ 32 * d.f w.2 i)))).set w.2 i 0

/-- FAB_QS_DATA_READ. -/
def execFabQsDataRead (s : State) : Res := .next (s.onDev (fun d => if d.ready then d.qsRead else d))

/-! ### The package ring (R347, R348) -/

/-- Stop 5 of an LK384 forwards flits and does nothing else (R347). -/
def Dev.stopServes (d : Dev) (stop : Nat) : Bool := stop != 5 || d.wingPresent 3

/-- A flit travels toward ascending stops (R347). -/
def ringUp (stop dst : Nat) : Bool :=
  let n := (dst + 8 - stop) % 8
  n < 4 || (n == 4 && stop % 2 == 0)

/-- Stops a flit has gone since it set out: one per ns of the way it has to go (R347). -/
def Dev.flitGone (d : Dev) (x : RingFlit) : Nat := min x.way (d.since x.since)

/-- The stop a flit is at now. -/
def Dev.flitAt (d : Dev) (x : RingFlit) : Nat := if x.up then (x.at_ + d.flitGone x) % 8 else (x.at_ + 8 - d.flitGone x % 8) % 8

/-- The flit is at its destination and waits to be ejected. -/
def Dev.flitThere (d : Dev) (x : RingFlit) : Bool := d.flitGone x == x.way

/-- A flit that is on the ring passes a stop now and takes the slot of its direction: it came from another stop, or was turned away by the
full ejection buffer here (R348). -/
def Dev.flitPasses (d : Dev) (stop : Nat) (up : Bool) : Bool :=
  d.ringFlits.any (fun x => x.up == up && d.flitAt x == stop && !d.flitThere x && (d.flitGone x != 0 || x.way == 8))

/-- Buffers of a channel that are free at a stop in a direction. -/
def Dev.ringFree (d : Dev) (stop vc : Nat) (up : Bool) : Nat :=
  Config.ringBuffers - (d.ringFlits.filter (fun x => d.flitAt x == stop && x.vc == vc && x.up == up)).length

/-- Injections waiting at a stop whose direction no flit takes: those that have a slot. -/
def Dev.ringOpen (d : Dev) (stop : Nat) : List (Nat × Nat) :=
  (d.ringWait.filter (fun w => w.1 == stop && !d.flitPasses stop (ringUp stop w.2.2))).map (fun w => w.2)

/-- Injections waiting at a stop that could enter now: channel and destination. -/
def Dev.ringReady (d : Dev) (stop : Nat) : List (Nat × Nat) :=
  (d.ringOpen stop).filter (fun w => decide (2 ≤ d.ringFree stop w.1 (ringUp stop w.2)))

/-- The injection that wins the slot: VC0 before VC1 before VC2, but VC2 every fourth slot in which it waits. -/
def ringPick (turn : Bool) (l : List (Nat × Nat)) : Option (Nat × Nat) :=
  match if turn then l.find? (fun w => w.1 == 2) else none with
  | some w => some w
  | none => match l.find? (fun w => w.1 == 0), l.find? (fun w => w.1 == 1), l.find? (fun w => w.1 == 2) with
    | some w, _, _ => some w
    | none, some w, _ => some w
    | none, none, w => w

/-- Remove the first waiting injection equal to one. -/
def dropWait (x : Nat × Nat × Nat) : List (Nat × Nat × Nat) → List (Nat × Nat × Nat)
  | [] => []
  | w :: t => if w = x then t else w :: dropWait x t

/-- A flit that enters at a stop for another. -/
def Dev.newFlit (d : Dev) (vc dst stop : Nat) : RingFlit :=
  let up := ringUp stop dst
  { vc := vc, dst := dst, up := up, at_ := stop, since := d.now, way := if up then (dst + 8 - stop) % 8 else (stop + 8 - dst) % 8 }

/-- One cycle at a stop: a flit that passes has precedence, and otherwise it is an injection slot (R348; DESIGN CHOICE, log entry 119). -/
def Dev.ringSlot (d : Dev) (stop : Nat) : Dev :=
  let vc2 := (d.ringOpen stop).any (fun w => w.1 == 2)
  let n := countOf d.ringTurn stop + (if vc2 then 1 else 0)
  let turn := vc2 && n % 4 == 0
  let d1 : Dev := { d with ringTurn := setCount d.ringTurn stop (n % 4) }
  let d2 := match ringPick turn (d1.ringReady stop) with
    | none => d1
    | some (vc, dst) =>
      let x := d1.newFlit vc dst stop
      (({ d1 with ringWait := dropWait (stop, vc, dst) d1.ringWait, ringFlits := d1.ringFlits ++ [x] } : Dev).emit (.flit stop vc x.up)).bump
        R.SYS_PRING.INJ stop
  if d2.ringWait.any (fun w => w.1 == stop) then d2.bump R.SYS_PRING.STALL stop else d2

/-- FLIT_INJECT: a flit, where one is given, joins the injections waiting at the stop, and one injection slot passes. -/
def execFlitInject (stop : Fin 8) (flit : Option (Fin 3 × Fin 8)) (s : State) : Res :=
  .next (s.onDev (fun d =>
    if !d.stopServes stop then d
    else
      let a := match flit with
        | some (vc, dst) => if dst = stop || !d.stopServes dst then d else { d with ringWait := d.ringWait ++ [(stop.val, vc.val, dst.val)] }
        | none => d
      a.ringSlot stop))

/-- Change the first flit that a test finds; none keeps it out of the list. -/
def onFlit (p : RingFlit → Bool) (g : RingFlit → Option RingFlit) : List RingFlit → List RingFlit
  | [] => []
  | x :: t => if p x then (match g x with | some y => y :: t | none => t) else x :: onFlit p g t

/-- FLIT_ARRIVE: a flit that has come to its stop is ejected, or goes on round the ring when the ejection buffer is full. -/
def execFlitArrive (stop : Fin 8) (vc : Fin 3) (up full : Bool) (s : State) : Res :=
  .next (s.onDev (fun d =>
    let here := fun (x : RingFlit) => x.dst == stop.val && x.vc == vc.val && x.up == up && d.flitThere x
    if !d.stopServes stop || !d.ringFlits.any here then d
    else if full then
      ({ d with ringFlits := onFlit here (fun x => some { x with at_ := stop, since := d.now, way := 8 }) d.ringFlits }).bump R.SYS_PRING_DEFLECT.DEFLECT stop
    else { d with ringFlits := onFlit here (fun _ => none) d.ringFlits }))

/-! ### The HBM map and its regulation (R349, R351) -/

/-- The quarter in whose HBM a device address lies (R349): A[38:37]. -/
def hbmQuarter (a : Nat) : Nat := a / 2 ^ 37 % 4

/-- A device address exists: below 2^39, in a quarter that the part has. -/
def Dev.hbmExists (d : Dev) (a : Nat) : Bool := decide (a < 2 ^ 39) && d.wingPresent (hbmQuarter a)

/-- The address lies in the courier housekeeping region, which is mapped linearly and never hashed (R349). -/
def Dev.hbmLinear (d : Dev) (a : Nat) : Bool := decide (d.f R.COURIER_HBM_BASE.ADDR ≤ a) && decide (a ≤ d.f R.COURIER_HBM_LIMIT.ADDR)

/-- The stack and the pseudo-channel that hold the 256-byte granule of a hashed address: a keyed hash of the granule's address places it on one
of the two stacks of its quarter and on one of that stack's 32 pseudo-channels (R349). Where the boot has failed one stack, the other holds all of its quarter (R362). -/
def Dev.hbmPlace (d : Dev) (a : Nat) : Option (Nat × Nat) :=
  if d.hbmExists a && !d.hbmLinear a then
    let h := Config.keyedHash (d.hashKeys.getD 2 0) (beBytes 5 (a / 256))
    let k := 2 * hbmQuarter a + h % 2
    some (if d.on R.ANNEX_STK.FAILED k then 2 * hbmQuarter a + (1 - h % 2) else k, h / 2 % 32)
  else none

/-- The first place of the largest of 32 counts. -/
def busiest (l : List Nat) : Nat := ((List.range 32).foldl (fun b i => if l.getD b 0 < l.getD i 0 then i else b) 0)

/-- SKEW_CHECK: requests of a stack's 32 pseudo-channels in the millisecond that ends, and the tenant with the most on the busiest. -/
def execSkewCheck (k : Fin 8) (counts : List Nat) (tenant : Fin 1024) (s : State) : Res :=
  .next (s.onDev (fun d =>
    if !d.fwRuns || !d.wingPresent (k.val / 2) then d
    else
      let c := slice32 counts
      let hot := busiest c
      if c.sum != 0 && decide (d.f R.SYS_HBMREG.SKEW_THR * c.sum ≤ c.getD hot 0 * 32 * 16) then
        let n := countOf d.skewRuns k + 1
        if n < max (d.f R.SYS_HBMREG.SKEW_MS) 1 then { d with skewRuns := setCount d.skewRuns k n }
        else
          let d1 := { d with skewRuns := setCount d.skewRuns k 0 }.bump R.SYS_HBM_SKEW.EVENTS k
          ((d1.set R.SYS_HBM_SKEW.HOT_CH k hot).set R.SYS_HBM_SKEW.HOT_TEN k tenant).alarm 5 k 0x012 1 (hot + 32 * tenant.val)
      else { d with skewRuns := setCount d.skewRuns k 0 }))
where
  /-- The counts of the 32 pseudo-channels. -/
  slice32 (l : List Nat) : List Nat := (List.range 32).map (fun i => l.getD i 0)

end Sys2Proof.Machine
end

