-- ==== Sys2Proof/Machine/System.lean ====
section
/-! DEFINITION. Reset, straps, boot, power states, clocks, block resets and the Curator mailbox (R353 to R372, R296, R299, R391, R393). -/

namespace Sys2Proof.Machine

open Sys2Proof

/-! ### Reset (R325, R349, R355, R358) -/

/-- Words of the AON island that keep their value through RESET_N (R358): the backup registers, the retained SRAM, and the completion
tails that RING_RETAIN reports (R67). -/
def aonKey (k : Nat) : Bool :=
  (0xF00100 ≤ k && k < 0xF00180) || (0xF10000 ≤ k && k < 0xF18000) || (0x888000 ≤ k && k < 0x888000 + 8 * 4096)

/-- Fuses and retained values of the Vitrine die after a reset (R297, R300, R301, R325): ERASED lasts until the reset; the retained L3
record does not survive power-on. -/
def Dev.fusesOf (d old : Dev) (por : Bool) : Dev :=
  let sec := if old.f R.VT_STAT.SEC = 2 then 1 else old.f R.VT_STAT.SEC
  let d1 := ((d.set R.VT_STAT.SEC 0 sec).set R.VT_STAT.DBG 0 (if sec = 1 then 0 else 2)).set R.VT_STAT.SVN_MIN 0 (old.f R.VT_STAT.SVN_MIN)
  let d2 := (List.range 6).foldl (fun (a : Dev) i => a.set R.VT_OPKEY.OPKEY i (old.f R.VT_OPKEY.OPKEY i))
    (d1.set R.VT_STAT.OPKEY_SET 0 (old.f R.VT_STAT.OPKEY_SET))
  if por then d2 else (d2.set R.VT_STAT.L3_CAUSE 0 (old.f R.VT_STAT.L3_CAUSE)).set R.VT_STAT.L3_COUNT 0 (old.f R.VT_STAT.L3_COUNT)

/-- A FLASH_WRITE that a reset or a loss of power interrupts leaves its slot unacceptable (R371). -/
def Dev.brokenSlot (d : Dev) (r : MbxRun) : List Nat :=
  if r.op = 2 ∧ r.status = 0 then d.slotBad.filter (· != r.slot) ++ [r.slot] else d.slotBad

/-- Everything returns to its reset value except what R325, R355 and R358 keep; RESET_N is driven low. What is sensed outside the
gateway (connectors, reference inputs) stays. -/
def Dev.resetDev (d : Dev) (por : Bool) : Dev :=
  let keep : List (Nat × Word) := if por then [] else d.words.filter (fun p => aonKey p.1)
  let d1 : Dev := { Dev.reset with
    words := keep, now := d.now, rstAt := d.now, railsBad := d.railsBad,
    slotBad := (match d.mailbox with | some r => d.brokenSlot r | none => d.slotBad), out := d.out, freeCtr := d.freeCtr, trngCtr := d.trngCtr, faSettled := d.faSettled, refLost := d.refLost,
    profile := if por then 0 else d.profile, storageKey := if por then [] else d.storageKey, inReset := true }
  let d2 := ((d1.set R.GLOBAL_ID.PART 0 (d.f R.GLOBAL_ID.PART)).set R.GLOBAL_ID.WING_MASK 0 (d.f R.GLOBAL_ID.WING_MASK)).set R.KW_FA.PRESENT 0
    (d.f R.KW_FA.PRESENT)
  let d3 := ((d2.fusesOf d por).set R.SYS_RST_CAUSE.POR 0 (b2n por)).set R.SYS_RST_CAUSE.EXT 0 (b2n (!por))
  let d4 := if por then d3 else
    ((d3.set R.SYS_RST_CAUSE.COUNT 0 (min 0xFFFF (d.f R.SYS_RST_CAUSE.COUNT + 1))).set R.SYS_PWR.PROFILE 0 (d.f R.SYS_PWR.PROFILE))
  d4.emit (.pin "RESET_N" false)

/-- The memories inside the gateway lose their contents with their power; host and fabric memories do not. -/
def powerLost (m : List Host.Cell) : List Host.Cell := m.filter (fun c => 16 * 2 ^ 64 ≤ c.1)

/-- The power-on detector holds reset. -/
def powerOnReset (d : Dev) (m : List Host.Cell) : Dev × List Host.Cell := (d.resetDev true, powerLost m)

/-- POWER_ON: the power-on detector has found power missing, and every rail comes up. -/
def execPowerOn (s : State) : Res := .next (s.onBoth (fun d m => powerOnReset { d with railsBad := [] } m))

/-- A rail of Table 15.2: nominal mV, lowest and highest recommended value in 10 µV, absolute maximum in mV. The rails that adaptive voltage
scaling moves have their wider range except in the fixed-voltage profile, which has nominal ±3 % (R391). -/
def railLimits (fixed : Bool) : Rail → Nat × Nat × Nat × Nat
  | .aon => (800, 77600, 82400, 950)
  | .vio18 => (1800, 171000, 189000, 2100)
  | .vit => (750, 72750, 77250, 900)
  | .ctrl => if fixed then (750, 72750, 77250, 900) else (750, 67500, 78800, 900)
  | .pcie => (850, 82450, 87550, 1000)
  | .fio => if fixed then (750, 72750, 77250, 900) else (750, 67500, 78800, 900)
  | .vpp _ => (1800, 171000, 189000, 2100)
  | .hbm _ => (1050, 101850, 108150, 1200)
  | .hbmq _ => (400, 38800, 41200, 500)
  | .wing _ => if fixed then (750, 72750, 77250, 900) else (750, 67500, 78800, 900)
  | .eic _ => (800, 77600, 82400, 950)
  | .pic _ => (3300, 313500, 346500, 3630)
  | .lsr _ => (2500, 242500, 257500, 2800)

/-- The quarter of a rail of power-rail group q (R1). -/
def railQuarter : Rail → Option Nat
  | .vpp q => some q.val
  | .hbm q => some q.val
  | .hbmq q => some q.val
  | .wing q => some q.val
  | .eic q => some q.val
  | .pic q => some q.val
  | .lsr q => some q.val
  | _ => none

/-- A rail is back inside the detector's range: a cause of the reset ends (R355). -/
def Dev.railBack (d : Dev) (rail : Rail) : Dev :=
  if d.railsBad.contains rail then { d with railsBad := d.railsBad.filter (· != rail), rstAt := d.now } else d

/-- POWER_RAIL_FAULT (R355, R393): a rail has this voltage. Below 85 % of nominal or above the absolute maximum the detector holds reset until
the rail is back. Inside that, a rail of a quarter out of its recommended range is a fault of the quarter (R373), and VDD_VIT trips sensor
V_VIT (R393). -/
def execPowerRailFault (rail : Rail) (mv : Nat) (s : State) : Res :=
  let p := railLimits (s.dev.profile == 1) rail
  .next (if mv * 100 < 85 * p.1 ∨ p.2.2.2 < mv then
    s.onBoth (fun d m => powerOnReset { d with railsBad := d.railsBad.filter (· != rail) ++ [rail] } m)
  else if s.dev.railsBad.contains rail then s.onDev (fun d => d.railBack rail)
  else if s.dev.inReset || (decide (p.2.1 ≤ mv * 100) && decide (mv * 100 ≤ p.2.2.1)) then s
  else
    match railQuarter rail with
    | some q => s.onDev (fun d => if d.ready then d.fenceQuarter q 5 else d)
    | none => if rail = .vit then s.onDev (fun d => d.sensor 3 0) else s)

/-- A pulse on RESET_N is recognised: a reset, or during the stretch of one the count of 20 ms starts again (R355). -/
def Dev.resetPulse (d : Dev) : Dev := if d.inReset then { d with rstAt := d.now } else d.resetDev false

/-- RESET_N_ASSERT (R355): 1 µs or longer is always recognised, a pulse below 100 ns never; between them a free value decides. -/
def execResetNAssert (lowNs : Nat) (s : State) : Res :=
  .next (if lowNs < 100 then s
  else if 1000 ≤ lowNs then s.onDev (fun d => d.resetPulse)
  else s.onDev (fun d => if d.freeWord.getLsbD 0 then d.usedFree.resetPulse else d.usedFree))

/-! ### Straps and boot (R356 to R362) -/

/-- Reset has lasted 20 ms since its last cause ended, and none is present (R355). -/
def Dev.resetOver (d : Dev) : Bool := d.inReset && d.railsBad.isEmpty && decide (20000000 ≤ d.since d.rstAt)

/-- RESET_RELEASE (R349, R355, R356): the straps are sampled, ROM runs, and the keys of the hashed maps are drawn. -/
def execResetRelease (bootSel clkMode : Fin 4) (s : State) : Res :=
  .next (if s.dev.resetOver then s.onDev (fun d =>
    let d1 := ({ d with inReset := false, released := d.now }.emit (.pin "RESET_N" true)).set R.SYS_STRAP.BOOT_SEL 0 bootSel
    let d2 := (d1.set R.SYS_STRAP.CLK_MODE 0 clkMode).set R.SYS_STRAP.CLK_BAD 0 (b2n (clkMode == 3))
    let d3 := if bootSel = 3 then d2.set R.SYS_STRAP.CFG_USED 0 1
      else (d2.set R.SYS_STRAP.BOOT_EFF 0 bootSel).set R.SYS_STRAP.CLK_EFF 0 (if clkMode = 3 then 0 else clkMode.val)
    let d4 := (d3.set R.SYS_BOOT.STATE 0 1).drawHashKeys
    if d4.storageKey.isEmpty then { d4.drew with storageKey := d4.drawn 32 } else d4)
  else s)

/-- Nominal resistances of bins 1 to 14, in ohms (Table 13.2). -/
def binOhms : List Nat := [1000, 1620, 2490, 3740, 5620, 8250, 12100, 17800, 26100, 38300, 56200, 82500, 121000, 178000]

/-- The bin of a reading of r ohms (R357): below 500 Ω bin 0, above 250 kΩ bin 15, else the bin whose nominal resistance lies nearest on a
logarithmic scale, the bounds being the geometric means of neighbours. -/
def cfgBin (r : Nat) : Nat :=
  if r < 500 then 0
  else if 250000 < r then 15
  else 1 + ((binOhms.zip (binOhms.drop 1)).filter (fun p => decide (p.1 * p.2 < r * r))).length

/-- CFG_SENSE_CONVERSION (R357): the converter reads r ohms. -/
def execCfgSenseConversion (r : Nat) (s : State) : Res :=
  let bin := cfgBin r
  .next (s.onDev (fun d =>
    if d.on R.SYS_STRAP.CFG_USED && d.f R.SYS_BOOT.STATE == 1 then
      ((d.set R.SYS_STRAP.CFG_BIN 0 bin).set R.SYS_STRAP.BOOT_EFF 0 (bin / 4)).set R.SYS_STRAP.CLK_EFF 0 (bin % 4)
    else d))

/-- µs since RESET_N was released (SYS_BOOT.ELAPSED). -/
def Dev.bootTime (d : Dev) : Dev := d.set R.SYS_BOOT.ELAPSED 0 (min (2 ^ 32 - 1) (d.since d.released / 1000))

/-- CODE holds the first cause found (Table 13.5). -/
def Dev.bootCode (d : Dev) (code : Nat) : Dev := if d.f R.SYS_BOOT.CODE = 0 then d.set R.SYS_BOOT.CODE 0 code else d

/-- Boot ends in FAILED: CODE is the cause of that, and DEGRADED goes with READY alone (Table 13.5; log entry 120). -/
def Dev.bootFail (d : Dev) (code : Nat) : Dev :=
  (((d.set R.SYS_BOOT.CODE 0 code).set R.SYS_BOOT.DEGRADED 0 0).set R.SYS_BOOT.STATE 0 5).bootTime

/-- Boot enters LOADING. -/
def Dev.bootLoad (d : Dev) : Dev := { d.set R.SYS_BOOT.STATE 0 2 with loadingAt := d.now }

/-- Clock domains that this gateway has (Table 13.6, R5). -/
def Dev.domains (d : Dev) : List Nat :=
  (List.range 25).filter (fun k =>
    if k < 4 then d.wingPresent k else if 5 ≤ k ∧ k < 13 then d.wingPresent ((k - 5) / 2) else if 15 ≤ k ∧ k < 19 then d.wingPresent (k - 15)
    else true)

/-- LOCK bits set. -/
def Dev.lockBits (d : Dev) (ks : List Nat) : Dev :=
  d.set R.SYS_CLK_STAT.LOCK 0 (ks.foldl (fun a k => a ||| 2 ^ k) (d.f R.SYS_CLK_STAT.LOCK))

/-- BOOT_SELFTEST_DONE (R296, R360): with REFCLK the control-die PLLs are locked; a failed test trips sensor KAT. -/
def execBootSelftestDone (pass refclk : Bool) (s : State) : Res :=
  .next (s.onDev (fun d =>
    if d.f R.SYS_BOOT.STATE ≠ 1 then d
    else if !refclk then d.bootFail 2
    else
      let d1 := d.lockBits [4, 19, 20, 21, 22, 23, 24]
      if !pass then (d1.sensor 7 0).bootFail 1
      else
        let d2 := (d1.set R.VT_STAT.SELFTEST 0 1).set R.VT_STAT.TRNG_OK 0 1
        d2.bootLoad.set R.SYS_BOOT.IMAGE 0 (b2n (d2.f R.SYS_STRAP.BOOT_EFF == 2))))

/-- A part passes the checks of R299. -/
def Dev.partGood (d : Dev) (h : ImageHeader) : Bool :=
  h.keyOk && h.sigOk && decide (d.f R.VT_STAT.SVN_MIN ≤ h.svn.toNat) && decide (h.svn.toNat ≤ 64)

/-- The Vitrine part is accepted and started; its digest is recorded. -/
def Dev.takeVit (d : Dev) (h : ImageHeader) : Dev :=
  ({ d with partOk := true, meas := { d.meas with vit := h.digest } } : Dev).set R.VT_STAT.SVN_RUN 0 h.svn.toNat

/-- The Curator part is accepted: CC0 is released and boot goes to INIT; image B at boot source 0b00 means that image A was rejected. -/
def Dev.takeCur (d : Dev) (h : ImageHeader) : Dev :=
  let d1 := ({ d with meas := { d.meas with cur := h.digest } } : Dev).set R.CUR_STATE.SVN 0 h.svn.toNat
  let d2 := ((d1.set R.CUR_STATE.ALIVE 0 1).set R.VT_STAT.BOOT_IMG 0 (d.f R.SYS_BOOT.IMAGE)).set R.SYS_BOOT.STATE 0 3
  if d.f R.SYS_STRAP.BOOT_EFF = 0 ∧ d.f R.SYS_BOOT.IMAGE = 1 then (d2.bootCode 3).set R.SYS_BOOT.DEGRADED 0 1 else d2

/-- A flash image is rejected: image B where the boot source falls back to it, else boot fails. -/
def Dev.imageBad (d : Dev) : Dev :=
  if d.f R.SYS_STRAP.BOOT_EFF = 0 ∧ d.f R.SYS_BOOT.IMAGE = 0 then { d.set R.SYS_BOOT.IMAGE 0 1 with partOk := false } else d.bootFail 4

/-- IMAGE_CHECK (R299, R360): in LOADING from flash, Vitrine part first. A slot whose write was interrupted is unacceptable (R371). -/
def execImageCheck (part : ImagePart) (h : ImageHeader) (s : State) : Res :=
  .next (s.onDev (fun d =>
    if d.f R.SYS_BOOT.STATE ≠ 2 ∨ d.f R.SYS_STRAP.BOOT_EFF = 1 then d
    else
      let good := d.partGood h && !d.slotBad.contains (d.f R.SYS_BOOT.IMAGE)
      match part with
      | .vitrine => if d.partOk then d else if good then d.takeVit h else d.imageBad
      | .curator => if !d.partOk then d else if good then d.takeCur h else d.imageBad))

/-- CUR_DL_LEN names 1 byte to 16 MiB, at an address that is a multiple of 4 KiB (R361). -/
def Dev.dlOk (d : Dev) : Bool :=
  decide (0 < d.f R.CUR_DL_LEN.LEN) && decide (d.f R.CUR_DL_LEN.LEN ≤ 2 ^ 24) && d.f R.CUR_DL_ADDR.ADDR % 4096 == 0

/-- The ROM waits for the host's image (R361). -/
def Dev.dlWaits (d : Dev) : Bool := d.pcieUp && d.f R.SYS_BOOT.STATE == 2 && d.f R.SYS_STRAP.BOOT_EFF == 1

/-- CUR_DL_LEN is written with GO = 1: the ROM asks for the image, and GO reads 1 until it is read (Table 13.11; log entry 121). -/
def Dev.dlStart (d : Dev) : Dev :=
  if !d.dlWaits || d.on R.CUR_DL_LEN.GO then d
  else if !d.dlOk then d.bootFail 5
  else
    { (d.set R.CUR_DL_LEN.GO 0 1).emit (.hostRead d.nextTag 0 (d.f R.CUR_DL_ADDR.ADDR) (d.f R.CUR_DL_LEN.LEN)) with
      nextTag := (d.nextTag + 1) % 2 ^ 32 }

/-- HOST_DOWNLOAD (R361): the image has been read; where GO was not written yet it is written now. It boots, or its rejection ends boot. -/
def execHostDownload (vit cur : ImageHeader) (s : State) : Res :=
  .next (s.onDev (fun d =>
    let d1 := d.dlStart
    if !d1.dlWaits || !d1.on R.CUR_DL_LEN.GO then d1
    else
      let d2 := d1.set R.CUR_DL_LEN.GO 0 0
      if d2.partGood vit && d2.partGood cur then (d2.takeVit vit).takeCur cur else d2.bootFail 5))

/-- DOWNLOAD_TIMEOUT: no download has started within 60 s of LOADING (Table 13.5). -/
def execDownloadTimeout (s : State) : Res :=
  .next (s.onDev (fun d =>
    if d.f R.SYS_BOOT.STATE = 2 ∧ d.f R.SYS_STRAP.BOOT_EFF = 1 ∧ d.f R.CUR_DL_LEN.GO = 0 ∧ 60000000000 ≤ d.since d.loadingAt then d.bootFail 5
    else d))

/-- PCIE_CONFIG_READY (R359): 100 ms after the release of RESET_N. -/
def execPcieConfigReady (s : State) : Res :=
  .next (s.onDev (fun d => if d.inReset || decide (d.since d.released < 100000000) then d else { d with pcieUp := true }))

/-- Stacks that failed training (R362): FAILED is set. -/
def Dev.trainFail (d : Dev) (ks : List Nat) : Dev :=
  let d1 := ks.foldl (fun (a : Dev) k => (a.set R.ANNEX_STK.FAILED k 1).alarm 5 k 0x010 1 0) d
  if ks.isEmpty then d1 else (d1.bootCode 6).set R.SYS_BOOT.DEGRADED 0 1

/-- Quarters that cannot run (R362) are fenced. -/
def Dev.bootFence (d : Dev) (qs : List Nat) : Dev :=
  let d1 := qs.foldl (fun (a : Dev) q => a.fenceQuarter q 6) d
  if qs.isEmpty then d1 else (d1.bootCode 7).set R.SYS_BOOT.DEGRADED 0 1

/-- BOOT_INIT_DONE (R360, R362, R367). -/
def execBootInitDone (pllOk : Bool) (stacksOk : Fin 256) (wingsOk : Fin 16) (s : State) : Res :=
  .next (s.onDev (fun d =>
    if d.f R.SYS_BOOT.STATE ≠ 3 then d
    else if !pllOk then d.bootFail 2
    else
      let bad := (List.range 8).filter (fun k => d.wingPresent (k / 2) && !stacksOk.val.testBit k)
      let d1 := (d.lockBits d.domains).trainFail bad
      let qs := (List.range 4).filter (fun q => d.wingPresent q && (!wingsOk.val.testBit q || (bad.contains (2 * q) && bad.contains (2 * q + 1))))
      let d2 := d1.bootFence qs
      if d2.enabledWings.isEmpty then d2.bootFail 8
      else ((d2.set R.SYS_BOOT.STATE 0 4).bootTime).takeProfile))

/-! ### Power states (R365, R366) -/

/-- The moves of Table 13.8. -/
def moveListed (st t : Nat) : Bool :=
  [(0, 1), (1, 0), (0, 2), (0, 3), (1, 2), (1, 3), (2, 0), (2, 3), (3, 2), (3, 0)].contains (st, t)

/-- The checks of R366. -/
def Dev.pwrDrained (d : Dev) : Bool :=
  d.ctxs.all (fun e => e.2.isClosed) && d.ringList.all d.ringIdle && d.rings.all (fun p => d.ringIdle p.1) &&
  d.words.all (fun p => !(0x840000 ≤ p.1 && p.1 < 0x880000) || d.cqIdle ((p.1 - 0x840000) / 0x40)) &&
  (List.range 4).all (fun w => !d.wingPresent w || d.tourIdle w) && d.f R.TOUR_COLL.ACTIVE == 0 &&
  (List.range 12).all (fun c => d.f R.CR_STAT.STATE c != 1 && !d.on R.CR_CTL.ARM c) &&
  !d.on R.CAT_STATE.PEND && !d.on R.ITIN_STATE.PEND && (d.listed 7).all (fun n => !d.on R.SLOT.PEND n)

/-- A write of SYS_PWR.TARGET. -/
def Dev.powerTarget (d : Dev) (t : Nat) : Dev :=
  let st := d.f R.SYS_PWR.STATE
  let busy := d.set R.SYS_PWR_ERR.BUSY 0 1
  if !d.ready || d.on R.SYS_PWR.MOVING || d.gateReq.isSome || !moveListed st t then busy
  else if st ≤ 1 ∧ 2 ≤ t ∧ !d.pwrDrained then busy.set R.SYS_PWR_ERR.DRAIN 0 1
  else (d.set R.SYS_PWR.TARGET 0 t).set R.SYS_PWR.MOVING 0 1

/-- POWER_TARGET_WRITE. -/
def execPowerTargetWrite (t : Fin 4) (s : State) : Res :=
  .next (s.onDev (fun d => if d.barOpen (R.SYS_PWR.TARGET.key 0) then d.powerTarget t else d))

/-- A carrier loses its power: dark, out of its groups, its heaters at 0; a receive side that is scheduled loses its light, which inside a guard
sets nothing before its end (R276, R277). -/
def Dev.carrierOff (d : Dev) (m : Nat) : Dev :=
  let k := d.kwOf m
  let d1 := (d.dropTx m).setKw m { KwX.empty with rxGuard := k.rxGuard, rxGuardEnd := if k.rxGuard then k.rxGuardEnd else 0 }
  let d2 := ((d1.set R.KW_CAR_STATE.TX_LOCK m 0).set R.KW_CAR_STATE.RX_LOCK m 0).set R.KW_CAR_HTR.H0 m 0
  let d3 := ((d2.set R.KW_CAR_HTR.H1 m 0).set R.KW_CAR_HTR.H2 m 0).set R.KW_CAR_HTR.H3 m 0
  let d4 := ((d3.set R.LINE_CAR_STAT.TX_IN m 0).set R.LINE_CAR_STAT.RX_IN m 0).set R.LINE_CAR_STAT.ALIGN m 0
  if d4.rxSched m && !k.rxGuard then d4.losSet m else d4

/-- The line of the gateway goes down: every laser and microheater of the present engines is off. -/
def Dev.lineOff (d : Dev) : Dev :=
  (List.range 8).foldl (fun (a : Dev) e =>
    if a.wingPresent (e / 2) then ((engCarriers e).foldl (fun (b : Dev) m => b.carrierOff m) a).set R.KW_ENG_STAT.HTR_SUM e 0 else a) d

/-- The fabric ports go down and discard their queues. -/
def Dev.fabricOff (d : Dev) : Dev :=
  { (List.range 32).foldl (fun (a : Dev) p => a.set R.FAB_PORT_STAT.UP p 0) d with portQ := [], ptpQ := [] }

/-- Outside P0 and P1, TEN_EN, FAB_CTL.ENABLE and STREAM_CTL.ENABLE behave as 0 and keep what was written (R366). -/
def Dev.holdEnables (d : Dev) : Dev :=
  let v := d.f R.GLOBAL_CTL.TEN_EN + 2 * d.f R.FAB_CTL.ENABLE + 4 * d.f R.STREAM_CTL.ENABLE
  { ((d.set R.GLOBAL_CTL.TEN_EN 0 0).set R.FAB_CTL.ENABLE 0 0).set R.STREAM_CTL.ENABLE 0 0 with enHeld := v }

/-- They come back into force. -/
def Dev.freeEnables (d : Dev) : Dev :=
  { ((d.set R.GLOBAL_CTL.TEN_EN 0 (d.enHeld % 2)).set R.FAB_CTL.ENABLE 0 (d.enHeld / 2 % 2)).set R.STREAM_CTL.ENABLE 0 (d.enHeld / 4 % 2) with
    enHeld := 0 }

/-- Entering P2 from P0 or P1 (Table 13.8): the line sources of TIME are lost (R196). -/
def Dev.goDark (d : Dev) : Dev :=
  let d1 := ({ d.lineOff.fabricOff with ctlQ := [], ringFlits := [], ringWait := [] } : Dev).holdEnables
  [0, 1].foldl (fun (a : Dev) i => if a.f R.TIME_DOM_CFG.SRC_TYPE i = 0 then a.sourceLost i else a) d1

/-- Entering P3: wing SRAM is lost, and with it the staged codec tables; a CODEC_STAGE under way ends with FAIL (DESIGN CHOICE, log entry
112). -/
def Dev.goHold (d : Dev) : Dev :=
  let d := if d.on R.CODEC_STAGE.GO then (d.set R.CODEC_STAGE.GO 0 0).set R.CODEC_STAGE.FAIL 0 1 else d
  { (List.range 4).foldl (fun (a : Dev) w => (a.staged.filter (fun e => e.wing == w)).foldl (fun (b : Dev) e => b.histFlush e.slot w) a) d with
    staged := [], stageReq := [] }

/-- Carriers that are switched on start again by cold acquisition (R249, R366). -/
def Dev.relight (d : Dev) : Dev :=
  (List.range 128).foldl (fun (a : Dev) m =>
    if a.carOn m then ((((a.onKw m (fun x => { x with needCold := true, piAt := a.now })).startTx m).startLo m).rebase m).regroup m else a) d.freeEnables

/-- The state that a move from st toward t reaches next: between P0 or P1 and P3 it passes through P2 (Table 13.8). -/
def moveNext (st t : Nat) : Nat := if (st ≤ 1 ∧ t = 3) ∨ (st = 3 ∧ t ≤ 1) then 2 else t

/-- A power move reaches its next state, and ends where that is its target: P0 has everything powered, and PROFILE takes force at the
completed move (R326, R366, R367). -/
def Dev.moveDone (d : Dev) : Dev :=
  let st := d.f R.SYS_PWR.STATE
  let t := d.f R.SYS_PWR.TARGET
  let n := moveNext st t
  let d1 := d.set R.SYS_PWR.STATE 0 n
  let d2 := if n = 0 then d1.set R.VT_PWR_RES.GATED 0 0 else d1
  let d3 := if st ≤ 1 ∧ n = 2 then d2.wrapKeys.goDark else d2
  let d4 := if n = 3 then d3.goHold else d3
  let d5 := if 2 ≤ st ∧ n ≤ 1 then d4.unwrapKeys.relight else d4
  if n = t then (d5.set R.SYS_PWR.MOVING 0 0).takeProfile else d5

/-- Wing SRAM in P3. -/
def sramLost (m : List Host.Cell) : List Host.Cell := m.filter (fun c => c.1 < 2 ^ 64 || 5 * 2 ^ 64 ≤ c.1)

/-- POWER_MOVE_DONE (R366, R367). -/
def execPowerMoveDone (s : State) : Res :=
  .next (if s.dev.on R.SYS_PWR.MOVING then
    let s1 := s.onPlan (fun d => d.moveDone)
    if moveNext (s.dev.f R.SYS_PWR.STATE) (s.dev.f R.SYS_PWR.TARGET) = 3 then { s1 with mem := sramLost s1.mem } else s1
  else s)

/-! ### Temperature and clocks (R364, R367, R368) -/

/-- THERM_N is asserted. -/
def Dev.thermOn (d : Dev) : Dev := if d.thermN then d else { d.emit (.pin "THERM_N" false) with thermN := true }

/-- Some junction is at or above THROTTLE_C. -/
def Dev.hot (d : Dev) : Bool := !d.hotWings.isEmpty

/-- THROTTLE: the junction of quarter q has this temperature, in 0.1 °C. -/
def execThrottle (q : Fin 4) (temp : BitVec 16) (s : State) : Res :=
  .next (s.onDev (fun d =>
    if !d.wingPresent q then d
    else
      let d1 := d.set (tempFld q) 0 temp.toNat
      if temp.toInt < d1.throttleC then d1 else d1.thermOn.junctionHot q))

/-- THROTTLE_RELEASE (R368): every junction of the gateway is below THROTTLE_C. -/
def execThrottleRelease (s : State) : Res :=
  .next (s.onDev (fun d =>
    if d.thermN && !d.hot then
      { d.emit (.pin "THERM_N" true) with thermN := false, throttled := [] }
    else d))

/-- JUNCTION_125C (R327, R368): the quarter is powered off without a grant, its clusters are zeroised, and it is fenced; a power move
ends in the state reached. -/
def execJunction125c (q : Fin 4) (s : State) : Res :=
  .next (s.onDev (fun d =>
    if !d.wingPresent q then d
    else
      let d1 := (d.set (tempFld q) 0 1250).thermOn.alarm 1 q 0x023 1 1
      let d2 := d1.set R.SYS_PWR_ERR.EMERG 0 (d1.f R.SYS_PWR_ERR.EMERG ||| 2 ^ q.val)
      let d3 := (List.range 10).foldl (fun (a : Dev) k => a.zeroCluster (10 * q + k)) d2
      let d4 := { d3.fenceQuarter q 4 with throttled := d3.throttled.filter (· != q.val) }
      d4.set R.SYS_PWR.MOVING 0 0))

/-- PLL_LOCK_LOSS (R364): VITRINE and AON have no PLL (Table 13.6). -/
def execPllLockLoss (dom : Fin 25) (s : State) : Res :=
  .next (s.onDev (fun d =>
    if !(d.f R.SYS_CLK_STAT.LOCK).testBit dom || dom == 22 || dom == 23 then d
    else
      let d1 := ((d.set R.SYS_CLK_STAT.LOCK 0 (d.f R.SYS_CLK_STAT.LOCK - 2 ^ dom.val)).bump R.SYS_CLK_STAT.LOSS 0).alarm 14 dom 0x022 1 0
      match domainQuarter dom with
      | some q => d1.fenceQuarter q 3
      | none => d1))

/-! ### Block resets (R369) -/

/-- A write of SYS_BLK_RST with GO = 1: the unit exists, it is quiesced, and its reset. -/
def Dev.blkReset (d : Dev) (b u : Nat) (known quiet : Bool) (g : Dev → Dev) : Dev :=
  if !d.barOpen (R.SYS_BLK_RST.GO.key 0) || d.on R.SYS_BLK_RST.GO then d
  else
    let d1 := (((d.set R.SYS_BLK_RST.BLOCK 0 b).set R.SYS_BLK_RST.UNIT 0 u).set R.SYS_BLK_RES.BLOCK 0 b).set R.SYS_BLK_RES.UNIT 0 u
    if !known then d1.set R.SYS_BLK_RES.STATUS 0 0x01
    else if !quiet then d1.set R.SYS_BLK_RES.STATUS 0 0x12
    else ((g d1).set R.SYS_BLK_RES.STATUS 0 0).set R.SYS_BLK_RST.GO 0 1

/-- Block 0x01. -/
def Dev.tourBlk (d : Dev) (u : Nat) : Dev :=
  d.blkReset 1 u (d.wingPresent u) (d.tourIdle u) (fun a =>
    { ((((a.set R.TOUR_LANES.FENCED u 0).set R.TOUR_LANES.SPARE_USED u 0).set R.TOUR_LANES.WORKING u 32).setWord (R.TOUR_ERR.BUSY.key u) 0) with
      laneHits := a.laneHits.filter (fun p => p.1 / 64 != u) })

/-- TOUR_ENGINE_RESET. -/
def execTourEngineReset (unit : Fin 256) (s : State) : Res := .next (s.onDev (fun d => d.tourBlk unit))

/-- Block 0x02. -/
def Dev.codecBlk (d : Dev) (u : Nat) : Dev :=
  d.blkReset 2 u (d.wingPresent u) (d.staged.all (fun e => e.wing != u || !d.pinned e)) (fun a =>
    let b := (a.staged.filter (fun e => e.wing == u)).foldl (fun (b : Dev) e => b.histFlush e.slot u) a
    let rest := b.stageReq.filter (fun r => r.2.2 != u)
    let c := { b with staged := b.staged.filter (fun (e : TabEnt) => e.wing != u), stageReq := rest }
    if rest.isEmpty then c.set R.CODEC_STAGE.GO 0 0 else c)

/-- CODEC_STAGING_RESET. -/
def execCodecStagingReset (unit : Fin 256) (s : State) : Res := .next (s.onDev (fun d => d.codecBlk unit))

/-- Block 0x03. -/
def Dev.cipherBlk (d : Dev) (u : Nat) : Dev :=
  d.blkReset 3 u (decide (u < 40) && d.wingPresent (u / 10)) (d.clusterCtxs u).isEmpty (fun a =>
    { a.zeroCluster u with clusterFence := a.clusterFence.filter (· != u) })

/-- CIPHER_CLUSTER_RESET. -/
def execCipherClusterReset (unit : Fin 256) (s : State) : Res := .next (s.onDev (fun d => d.cipherBlk unit))

/-- DSP and FEC state of a carrier. -/
def LineX.dspReset (x : LineX) : LineX :=
  { x with fecBits := [], symBits := [], symIdx := 0, prbs := LineX.empty.prbs }

/-- Block 0x04. -/
def Dev.kwaveBlk (d : Dev) (u : Nat) : Dev :=
  d.blkReset 4 u (decide (u < 8) && d.wingPresent (u / 2)) (d.engIdle u) (fun a =>
    (engCarriers u).foldl (fun (b : Dev) m =>
      (((b.pathClear (fun c => c == m)).onLine m LineX.dspReset).setKw m KwX.empty).setWord (R.KW_CAR_CNT.COLD.key m) 0) a)

/-- KWAVE_ENGINE_RESET. -/
def execKwaveEngineReset (unit : Fin 256) (s : State) : Res := .next (s.onDev (fun d => d.kwaveBlk unit))

/-- FAB_PORT_fp_CFG.IDLE: EN = 0 and the queues of its logical ports empty. -/
def Dev.fportIdle (d : Dev) (u : Nat) : Bool :=
  !d.on R.FAB_PORT_CFG.EN u && (List.range 4).all (fun k => (d.portQueue (4 * u + k)).isEmpty && (d.ptpQueue (4 * u + k)).isEmpty)

/-- Block 0x05. -/
def Dev.fabricBlk (d : Dev) (u : Nat) : Dev :=
  d.blkReset 5 u (decide (u < 32)) (d.fportIdle u) (fun a => a.set R.FAB_PORT_STAT.UP u 0)

/-- FABRIC_PORT_RESET. -/
def execFabricPortReset (unit : Fin 256) (s : State) : Res := .next (s.onDev (fun d => d.fabricBlk unit))

/-- Block 0x06. -/
def Dev.courierBlk (d : Dev) (u : Nat) : Dev :=
  d.blkReset 6 u (decide (u < 12)) (d.f R.CR_STAT.STATE u != 1 && !d.on R.CR_CTL.ARM u) (fun a =>
    ((a.set R.CR_STAT.STATE u 0).set R.CR_STAT.LAST u 0).set R.CR_PROG.DONE u 0)

/-- COURIER_CHANNEL_RESET. -/
def execCourierChannelReset (unit : Fin 256) (s : State) : Res := .next (s.onDev (fun d => d.courierBlk unit))

/-- BLOCK_RESET_DONE. -/
def execBlockResetDone (s : State) : Res := .next (s.onDev (fun d => d.set R.SYS_BLK_RST.GO 0 0))

/-! ### The Curator mailbox (R370, R371) -/

/-- Bytes into CUR_MBX_BUF. -/
def Dev.mbxPlace (d : Dev) (l : List Byte) : Dev :=
  ((chunksOf 8 l).mapIdx (fun i c => (i, ofLE c))).foldl (fun (a : Dev) e => a.set R.CUR_MBX_BUF.BUF e.1 e.2) d

/-- A command ends: STATUS and LEN, then GO, then the interrupt. -/
def Dev.mbxEnd (d : Dev) (st : Nat) (l : List Byte) : Dev :=
  let d1 := (((d.mbxPlace l).set R.CUR_MBX_RES.STATUS 0 st).set R.CUR_MBX_RES.LEN 0 l.length).set R.CUR_MBX_CMD.GO 0 0
  let d2 : Dev := { d1 with mailbox := none }
  if d2.on R.CUR_MBX_CTL.IRQ_EN then d2.sendMsix 0 (d2.f R.CUR_MBX_CTL.VECTOR) else d2

/-- A write of CUR_MBX_CMD with GO = 1: ignored while one runs, BUSY before READY. `res` is the status and the buffer it will end with. -/
def Dev.mbxCmd (d : Dev) (op arg : Nat) (res : Nat × List Byte) (g : Dev → Dev) : Dev :=
  if !d.barOpen (R.CUR_MBX_CMD.GO.key 0) || d.on R.CUR_MBX_CMD.GO then d
  else
    let d1 := (d.set R.CUR_MBX_CMD.OP 0 op).set R.CUR_MBX_CMD.ARG 0 arg
    if !d1.ready then d1.mbxEnd 0x12 []
    else g { d1.set R.CUR_MBX_CMD.GO 0 1 with
      mailbox := some { op := op, slot := if op = 2 then arg % 2 else 0, at_ := d1.now, status := res.1, buf := res.2 } }

/-- The time within which a command ends, in ns (R370): 10 s for FLASH_WRITE, 10 ms for the others. -/
def MbxRun.limit (r : MbxRun) : Nat := if r.op = 2 then 10000000000 else 10000000

/-- The 16 bytes of VERSION (Table 13.10): the running Curator SVN at a place that the spec does not give, among bytes of the build identifier
and the calibration version. -/
def versionBytes (svn : Nat) : List Byte :=
  (List.range 16).map (fun i => if i = Config.versionSvnAt % 16 then BitVec.ofNat 8 svn else Config.versionByte i)

/-- VERSION. -/
def execVersion (s : State) : Res := .next (s.onDev (fun d => d.mbxCmd 1 0 (0, versionBytes (d.f R.CUR_STATE.SVN)) id))

/-- The status FLASH_WRITE ends with (R371): the other slot holds an acceptable image, which an interrupted write is not. -/
def Dev.flashStatus (d : Dev) (slot : Nat) (vit cur : ImageHeader) (otherGood : Bool) : Nat :=
  if !(d.dlOk && d.partGood vit && d.partGood cur) then 0x03
  else if d.f R.SYS_STRAP.BOOT_EFF ≠ 1 ∧ d.f R.SYS_BOOT.IMAGE = slot ∧ (!otherGood || d.slotBad.contains (1 - slot)) then 0x12
  else 0

/-- FLASH_WRITE: `otherGood` says that the slot not named holds an image that passes the checks. -/
def execFlashWrite (arg : BitVec 32) (vit cur : ImageHeader) (otherGood : Bool) (s : State) : Res :=
  .next (s.onDev (fun d =>
    let slot := arg.toNat % 2
    d.mbxCmd 2 arg.toNat (d.flashStatus slot vit cur otherGood, []) id))

/-- CAL_READ. -/
def execCalRead (arg : BitVec 32) (s : State) : Res :=
  .next (s.onDev (fun d => d.mbxCmd 3 arg.toNat (0, (Config.calRecord arg.toNat).take 4096) id))

/-- LOG_READ. -/
def execLogRead (arg : BitVec 32) (s : State) : Res :=
  .next (s.onDev (fun d => d.mbxCmd 4 arg.toNat (0, (Config.logBytes d.fwLog d.freeCtr arg.toNat).take 4096) (fun a => a.usedFree)))

/-- A command ends as it was to end; a FLASH_WRITE that passed its checks has written its slot. -/
def Dev.mbxFinish (d : Dev) (r : MbxRun) : Dev :=
  let d1 := if r.op = 2 ∧ r.status = 0 then { d.emit (.flash r.slot) with slotBad := d.slotBad.filter (· != r.slot) } else d
  d1.mbxEnd r.status r.buf

/-- MAILBOX_COMPLETE: the firmware ends the command it runs; one that has run longer than R370 allows completes with BUSY, and has written no
slot (DESIGN CHOICE, log entry 122), also where the firmware has stopped meanwhile. -/
def execMailboxComplete (s : State) : Res :=
  .next (s.onDev (fun d =>
    match d.mailbox with
    | some r => if r.limit < d.since r.at_ then d.mbxEnd 0x12 [] else if d.fwRuns then d.mbxFinish r else d
    | none => d))

/-- HEARTBEAT (R370): it wraps. -/
def execHeartbeat (s : State) : Res :=
  .next (s.onDev (fun d => if d.fwRuns then d.set R.CUR_STATE.HEARTBEAT 0 ((d.f R.CUR_STATE.HEARTBEAT + 1) % 2 ^ 32) else d))

/-- CURATOR_FIRMWARE_STOP (R358, R373): the firmware leaves its crash record in words 0 to 511 of the retained SRAM; what it holds is free. -/
def execCuratorFirmwareStop (s : State) : Res :=
  .next (s.onDev (fun d =>
    if d.fwRuns then
      let d1 := (List.range 512).foldl (fun (a : Dev) i => a.usedFree.setWord (R.SYS_RSRAM.DATA.key i) a.freeWord) d
      d1.set R.CUR_STATE.ALIVE 0 0
    else d))

end Sys2Proof.Machine
end

