-- ==== Sys2Proof/Machine/Health.lean ====
section
/-! DEFINITION. Faults, alarm records, peer leases and the Conservator (R373 to R389, R394). -/

namespace Sys2Proof.Machine

open Sys2Proof

/-! ### Alarm records (R377 to R380) -/

/-- ALERT_N is held low while ALERT_EN = 1 and WR ≠ RD (R380). -/
def Dev.alertRefresh (d : Dev) : Dev :=
  let want := d.on R.HEALTH_CTL.ALERT_EN && d.f R.HEALTH_ALM_IDX.WR != d.f R.HEALTH_ALM_IDX.RD
  if want == d.alertN then d else { d.emit (.pin "ALERT_N" (!want)) with alertN := want }

/-- The record of a window (Table 14.2). -/
def Dev.alarmRecord (d : Dev) (w : AlarmWin) : List Byte :=
  leBytes 2 (w.key.cond % 4096 + 4096 * w.level + 16384 * w.kind) ++ leBytes 1 w.key.uclass ++ leBytes 2 w.key.unit ++ leBytes 3 d.alarmSeq ++
  leBytes 8 w.first ++ leBytes 4 w.count ++ leBytes 4 w.detail ++ leBytes 4 w.peers ++ leBytes 4 (min (2 ^ 32 - 1) (w.lastTick - w.firstTick))

/-- A record that closes: into the ring with one MSI-X, dropped where the ring is full or ENABLE = 0; in the latter case the firmware
keeps the latest 64 (R101, R377, R380). -/
def alarmWrite (w : AlarmWin) (d : Dev) (m : List Host.Cell) : Dev × List Host.Cell :=
  let r := d.alarmRecord w
  let d1 : Dev := { d with alarmSeq := (d.alarmSeq + 1) % 2 ^ 24 }
  let size := 2 ^ d.f R.HEALTH_ALM_BASE.SIZE_LOG
  let wr := d.f R.HEALTH_ALM_IDX.WR
  if !d.on R.HEALTH_CTL.ENABLE then
    let d2 := d1.bump R.HEALTH_ALM_DROP.DROP 0
    (if d2.fwRuns then { d2 with fwLog := (r :: d2.fwLog).take 64 } else d2, m)
  else if idxSub wr (d.f R.HEALTH_ALM_IDX.RD) = size then (d1.bump R.HEALTH_ALM_DROP.DROP 0, m)
  else
    (((d1.set R.HEALTH_ALM_IDX.WR 0 (idxAdd wr 1)).sendMsix 0 (d.f R.HEALTH_CTL.VECTOR)).alertRefresh,
      memWrite m (memKey 0 (d.f R.HEALTH_ALM_BASE.ADDR + 32 * (wr % size))) r)

/-- COAL_US, as it stood when the window opened (R13), have passed since. -/
def Dev.winOver (d : Dev) (w : AlarmWin) : Bool := decide (1000 * max w.coal 1 ≤ d.since w.firstTick)

/-- ALARM_WINDOW_CLOSE. The OVERFLOW window has the key (0, 0, 0x0FF). -/
def execAlarmWindowClose (k : AlarmKey) (s : State) : Res :=
  .next (s.onBoth (fun d m =>
    match d.alarms.find? (fun w => w.key == k) with
    | some w => if d.winOver w then alarmWrite w { d with alarms := d.alarms.filter (fun (x : AlarmWin) => x.key != k) } m else (d, m)
    | none =>
      match d.overflow with
      | some w => if w.key = k && d.winOver w then alarmWrite w { d with overflow := none } m else (d, m)
      | none => (d, m)))

/-! ### Peer leases (R381 to R385) -/

/-- The domains whose line source is peer p have lost it (R196). -/
def Dev.peerTimeLost (d : Dev) (p : Nat) : Dev :=
  [0, 1].foldl (fun (a : Dev) i => if a.f R.TIME_DOM_CFG.SRC_TYPE i = 0 ∧ a.f R.TIME_DOM_CFG.SRC i = p then a.sourceLost i else a) d

/-- Peer p enters LOST (R307, R382, R383); `why`: 0 expiry, 1 condemned, 2 mutual. -/
def Dev.peerLost (d : Dev) (p why : Nat) : Dev :=
  let site := (d.siteOf p).getD 32
  let d1 := ((d.set R.HEALTH_PEER.STATE p 2).bump R.HEALTH_PEER.LOSSES p).alarm 8 p 0x041 1 why
  let d2 := d1.setPeer p { d1.peer p with vouched := 0, lostBit := why != 2, noteSent := false }
  let d3 := ((d2.ctxs.filter (fun e => e.2.site == site && !e.2.isClosed)).map (·.1)).foldl (fun (a : Dev) c => a.failCtx c 0x0B) d2
  let d4 := (d3.colls.filter (fun x => x.ended.isNone && x.order.contains site)).foldl (fun (a : Dev) x => a.collFail x.id 0x0B true) d3
  let d5 := (d4.pubPeerLost site).deltaPeerLost site
  let d6 := ((d5.set R.VT_PEER.STATE p 0).set R.VT_PEER.RESTRICTED p 0).sealTimed p
  let d7 : Dev := { d6 with ctlKeys := d6.ctlKeys.filter (fun e => e.1 != p), seals := d6.seals.filter (fun e => e.1 != p) }
  d7.peerTimeLost p

/-- PEER_SUSPECT: no contact for SUSPECT_MS; once the deadline is reached the peer passes straight to LOST (R382). -/
def execPeerSuspect (p : Fin 4096) (s : State) : Res :=
  .next (s.onPlan (fun d =>
    if d.f R.HEALTH_PEER.STATE p = 0 ∧ d.now < (d.peer p).deadline ∧ max (d.f R.HEALTH_LEASE.SUSPECT_MS) 1 * 1000000 ≤ d.since (d.peer p).last then
      ((d.set R.HEALTH_PEER.STATE p 1).alarm 8 p 0x040 1 0).peerTimeLost p
    else d))

/-- PEER_LEASE_EXPIRY: the deadline is reached. -/
def execPeerLeaseExpiry (p : Fin 4096) (s : State) : Res :=
  .next (s.onPlan (fun d => if d.f R.HEALTH_PEER.STATE p ≤ 1 ∧ (d.peer p).deadline ≤ d.now then d.peerLost p 0 else d))

/-- A write of HEALTH_PEER_CMD with GO = 1: its fields are written and RES says how it ended. -/
def Dev.peerCmd (d : Dev) (p op ext : Nat) (g : Dev → Dev × Nat) : Dev :=
  if d.ready then
    let d1 := ((d.set R.HEALTH_PEER_CMD.PEER 0 p).set R.HEALTH_PEER_CMD.OP 0 op).set R.HEALTH_PEER_CMD.EXT_MS 0 ext
    let r := g d1
    r.1.set R.HEALTH_PEER_RES.STATUS 0 r.2
  else d

/-- What VOUCH does: too late once the deadline is reached. -/
def Dev.vouchPeer (d : Dev) (p ext : Nat) : Dev × Nat :=
  let st := d.f R.HEALTH_PEER.STATE p
  if st = 3 then (d, 0x01)
  else if st = 2 then (d, 0x12)
  else if (d.peer p).deadline ≤ d.now then (d.peerLost p 0, 0x12)
  else
    let dl := max (d.peer p).deadline (d.now + ext * 1000000)
    (d.setPeer p { d.peer p with deadline := dl, vouched := dl }, 0)

/-- VOUCH. -/
def execVouch (p : Fin 4096) (extMs : BitVec 16) (s : State) : Res :=
  .next (s.onPlan (fun d => d.peerCmd p 1 extMs.toNat (fun a => a.vouchPeer p extMs.toNat)))

/-- What CONDEMN does. -/
def Dev.condemnPeer (d : Dev) (p : Nat) : Dev × Nat :=
  match d.f R.HEALTH_PEER.STATE p with
  | 3 => (d, 0x01)
  | 2 => (d, 0)
  | _ => (d.peerLost p 1, 0)

/-- CONDEMN. -/
def execCondemn (p : Fin 4096) (s : State) : Res := .next (s.onPlan (fun d => d.peerCmd p 2 0 (fun a => a.condemnPeer p)))

/-- NOTE_RECEIVE (R385): a NOTE whose GW_ID differs is discarded; one whose tag fails has no effect. -/
def execNoteReceive (m : NoteMsg) (tagOk : Bool) (s : State) : Res :=
  .next (s.onPlan (fun d =>
    let x := m.site.toNat
    match d.peerOf x with
    | none => if tagOk then d.identBad else d
    | some p =>
      if !tagOk then d
      else if !d.identOk x m.gwId.toNat then d.identBad
      else
        let d1 := d.contact p
        let d2 := (bitsSet 32 m.suspect.toNat).foldl (fun (a : Dev) y =>
          if y = a.site then a.bump R.HEALTH_ERR.SUSPECTED_BY 0
          else match a.peerOf y with
            | some q => a.alarm 8 q 0x042 1 0 1 (2 ^ x)
            | none => a) d1
        if m.lost.toNat.testBit d2.site ∧ d2.f R.HEALTH_PEER.STATE p ≤ 1 then d2.peerLost p 2 else d2))

/-! ### The Conservator (R386 to R388, R394) -/

/-- The unit has a margin of the kind (Table 14.7), and this gateway has the unit (R5). -/
def Dev.marginUnit (d : Dev) (k u : Nat) : Bool :=
  match k with
  | 0 => decide (u < 7) && (decide (4 ≤ u) || d.wingPresent u)
  | 1 => decide (u < 7) && (decide (4 ≤ u) || d.wingPresent u)
  | 2 => decide (u < 128) && d.wingPresent (carrierWing u)
  | _ => decide (u < 8) && d.wingPresent (u / 2)

/-- The next state of a margin (R386). -/
def marginState (old : Nat) (v warn poor hyst : Int) : Nat :=
  let raw := if v < poor then 2 else if v < warn then 1 else 0
  if old ≤ raw then raw
  else if warn + hyst < v then 0
  else if old = 2 ∧ ¬ (poor + hyst < v) then 2
  else 1

/-- Parts of a margin beside its register words. -/
def Dev.marginX (d : Dev) (i : Nat) : MarginX := tabGet (fun _ => MarginX.empty) d.margins i
/-- Replace them. -/
def Dev.setMarginX (d : Dev) (i : Nat) (x : MarginX) : Dev := { d with margins := tabPut (fun _ => MarginX.empty) i x d.margins }

/-- The value a sample of the margin gives (Table 14.7): an optical margin is QMARG of the receive side, which the monitors of its carrier
hold (R259); the others are measured. -/
def Dev.marginValue (d : Dev) (k u : Nat) (v : BitVec 16) : Int :=
  if k = 2 then d.sf R.KW_CAR_QUAL.QMARG u else v.toInt

/-- MARGIN_SAMPLE: every 1 ms; an optical margin needs a locked receiver. -/
def execMarginSample (k : Fin 4) (u : Fin 128) (v : BitVec 16) (s : State) : Res :=
  .next (s.onDev (fun d =>
    if !d.fwRuns || !d.marginUnit k u || (k.val == 2 && !d.on R.KW_CAR_STATE.RX_LOCK u) then d
    else
      let i := 128 * k.val + u
      let x := d.marginX i
      let y := d.marginValue k u v
      let low := if x.fresh then min (d.sf R.MARGIN.MIN i) y else y
      let st := marginState (d.f R.MARGIN.STATE i) y (d.sf R.HEALTH_CONS.WARN k) (d.sf R.HEALTH_CONS.POOR k) (d.f R.HEALTH_CONS.HYST k)
      let d1 := (((d.setMarginX i { x with fresh := true, sum := x.sum + y, count := x.count + 1 }).setS R.MARGIN.CUR i y).setS R.MARGIN.MIN i low).set R.MARGIN.STATE i st
      if st = d.f R.MARGIN.STATE i then d1 else d1.alarm 0 0 0x060 1 (k.val + 4 * u + 512 * st)))

/-- The least-squares line through n means, newest first: its value at the newest and its slope per second, both times n·D, and D. -/
def trendLine (l : List Int) : Int × Int × Int :=
  let n : Int := (l.length : Int)
  let ys := l.reverse
  let sx : Int := ((List.range l.length).map (fun (i : Nat) => (i : Int))).sum
  let sxx : Int := ((List.range l.length).map (fun (i : Nat) => ((i * i : Nat) : Int))).sum
  let sy := ys.sum
  let sxy := (ys.mapIdx (fun (i : Nat) y => (i : Int) * y)).sum
  let det := n * sxx - sx * sx
  let num := n * sxy - sx * sy
  (det * sy + num * (n * (n - 1) - sx), num * n, n * det)

/-- Whole seconds until the line reaches POOR; none where it never does. -/
def trendSecs (l : List Int) (poor : Int) : Option Nat :=
  let t := trendLine l
  if t.2.2 ≤ 0 then none
  else if t.1 ≤ poor * t.2.2 then some 0
  else if 0 ≤ t.2.1 then none
  else some (((t.1 - poor * t.2.2) + (-t.2.1) - 1) / (-t.2.1)).toNat

/-- The rail a timing margin steers (R388, R394): VDD_Wq, VDD_FIO (4), VDD_CTRL (5). -/
def marginRail (u : Nat) : Nat := if u < 4 then u else if u < 6 then 4 else 5

/-- Steps below nominal of a rail. -/
def Dev.railSteps (d : Dev) (r : Nat) : Int := tabGet (fun _ => (0 : Int)) d.rails r

/-- The PMBus commands of one move of a rail to mv mV, with the bits of a free value that say whether the regulator acknowledges each: after
one that it does not acknowledge no more come (R394; their order is a DESIGN CHOICE, log entry 124). -/
def pmbusSends (addr mv : Nat) (w : Word) : List Out :=
  [.pmbus addr .voutMode 0] ++ (if w.getLsbD 0 then [.pmbus addr .voutCommand mv] ++ (if w.getLsbD 1 then [.pmbus addr .readVout 0] else []) else [])

/-- The rail moves to `n` steps of 5 mV below its nominal 750 mV, never out of its recommended range (0.675 V is 15 steps). Whether the
regulator acknowledges is a free value; one that does not is held at nominal and gets no further command (R394). -/
def Dev.railMove (d : Dev) (r : Nat) (n : Int) : Dev :=
  if d.railNak.contains r || n < 0 || 15 < n then d
  else
    let w := d.freeWord
    let d1 := (pmbusSends (0x40 + r) (750 - 5 * n).toNat w).foldl (fun (a : Dev) o => a.emit o) d.usedFree
    if w.getLsbD 0 && w.getLsbD 1 && w.getLsbD 2 then { d1 with rails := tabPut (fun _ => (0 : Int)) r n d1.rails }
    else { d1 with rails := tabPut (fun _ => (0 : Int)) r 0 d1.rails, railNak := d1.railNak ++ [r] }

/-- Adaptive voltage scaling by a timing margin, once a second (R388). -/
def Dev.railAdapt (d : Dev) (u : Nat) (mean : Int) : Dev :=
  let i := 128 + u
  let r := marginRail u
  if d.profile ≠ 0 then d
  else if d.f R.MARGIN.STATE i ≠ 0 then (d.setMarginX i { d.marginX i with high := 0 }).railMove r (d.railSteps r - 1)
  else if d.sf R.HEALTH_CONS.WARN 1 + 2 * (d.f R.HEALTH_CONS.HYST 1 : Int) < mean then
    let h := (d.marginX i).high + 1
    if h < 60 then d.setMarginX i { d.marginX i with high := h }
    else (d.setMarginX i { d.marginX i with high := 0 }).railMove r (d.railSteps r + 1)
  else d.setMarginX i { d.marginX i with high := 0 }

/-- `mean` is the mean of the samples of the second that ends, rounded either way: which way the spec does not say (log entry 125). -/
def MarginX.isMean (x : MarginX) (mean : Int) : Bool := decide (x.count ≠ 0) && decide ((mean * x.count - x.sum).natAbs < x.count)

/-- TREND_FIT (R387): the mean of the second that ends joins the history; a fit needs TREND_S means. -/
def execTrendFit (k : Fin 4) (u : Fin 128) (mean : Int) (s : State) : Res :=
  .next (s.onDev (fun d =>
    if !d.fwRuns || !d.marginUnit k u || !(d.marginX (128 * k.val + u)).isMean mean then d
    else
      let i := 128 * k.val + u
      let n := max (d.f R.HEALTH_CONS_TREND.TREND_S k) 60
      let x := { d.marginX (128 * k.val + u) with sum := 0, count := 0 }
      let means := (mean :: x.means).take n
      let secs := if means.length = n then trendSecs means (d.sf R.HEALTH_CONS.POOR k) else none
      let near := match secs with | some t => decide (t ≤ 3600 * d.f R.HEALTH_CONS.HORIZON k) | none => false
      let hours := match secs with | some t => min (t / 3600) 0xFFFFFE | none => 0xFFFFFF
      let raise := near && !x.raised && d.f R.MARGIN.STATE i != 2
      let d1 := (d.setMarginX i { x with means := means, raised := near && (x.raised || raise) }).set R.MARGIN.TTP i hours
      let d2 := if raise then d1.alarm 0 0 0x061 1 (k.val + 4 * u + 512 * d.f R.MARGIN.STATE i + 65536 * (hours % 65536)) else d1
      if k = 1 then d2.railAdapt u mean else d2))

/-- HEALTH_MDATA_READ (R16, R386): the selected margin; MIN clears. A unit out of range sets RANGE and reads 0. -/
def execHealthMdataRead (s : State) : Res :=
  .next (s.onDev (fun d =>
    if !d.ready then d.emit (.readData 0)
    else
      let k := d.f R.HEALTH_MSEL.KIND
      let u := d.f R.HEALTH_MSEL.UNIT
      let i := 128 * k + u
      if (match k with | 0 => 7 | 1 => 7 | 2 => 128 | _ => 8) ≤ u then (d.set R.HEALTH_ERR.RANGE 0 1).emit (.readData 0)
      else if !d.marginUnit k u then d.emit (.readData 0)
      else ((d.emit (.readData (d.word (R.MARGIN.CUR.key i)))).set R.MARGIN.MIN i 0).setMarginX i { d.marginX i with fresh := false }))

/-! ### Faults of a wing and of an EIC (R373, R374) -/

/-- WING_FAULT. -/
def execWingFault (w : Fin 4) (s : State) : Res := .next (s.onDev (fun d => if d.ready then d.fenceQuarter w 7 else d))

/-- EIC_FAULT: the engine is out of service until a reset. -/
def execEicFault (e : Fin 8) (s : State) : Res :=
  .next (s.onDev (fun d =>
    if d.ready && d.wingEnabled (e.val / 2) && !d.engDark.contains (8 + e.val) then
      (({ d with engDark := d.engDark ++ [8 + e.val] } : Dev).planeLost e).darkEngine e
    else d))

end Sys2Proof.Machine
end

