-- ==== Sys2Proof/Machine/Registers.lean ====
section
/-! DEFINITION. Writes of BAR0 registers that have no row of their own (R5, R9 to R18, R44, R70, R346, R352, R359, R366, R369, R372, R380,
R402), the tables behind GLOBAL_TBL_SEL (R15 to R27), and what reads of registers return. -/

namespace Sys2Proof.Machine

open Sys2Proof

/-! ### IDLE bits -/

/-- IDLE of a job: no admitted operation of it remains (Table 1.4). -/
def Dev.jobIdle (d : Dev) (j : Nat) : Bool :=
  !(d.ops.any (fun o => o.admitted && d.f R.SQ_BIND.JOB o.ring == j)) && !(d.colls.any (fun x => x.job == j && x.ended.isNone))

/-- IDLE of a window: no admitted operation of this gateway or of a peer uses it (Table 1.7, R27). -/
def Dev.windowIdle (d : Dev) (w : Nat) : Bool :=
  !(d.ops.any (fun o => o.admitted && ((!o.d.ownOrds.isEmpty && o.lwin == w) || (o.d.opcode == 0x10 && o.dwin == w) ||
    (hasTarget o.d.opcode && o.rwin == w && o.site == d.site)))) &&
  !(d.colls.any (fun x => x.ended.isNone && x.members.any (fun k => k.srcWin == w || k.dstWin == w))) &&
  !(d.ctxs.any (fun e => e.2.tgt.any (fun t => t.started && t.status == 0 && t.win == w))) && !(d.atomics.any (fun a => a.win == w))

/-- STREAM_CTL.IDLE: no context outside CLOSED. -/
def Dev.streamsIdle (d : Dev) : Bool := d.ctxs.all (fun e => e.2.isClosed)

/-- FAB_CTL.IDLE: ENABLE = 0 and no request to an endpoint outstanding. -/
def Dev.fabIdle (d : Dev) : Bool := !d.on R.FAB_CTL.ENABLE && d.reqs.all (fun q => q.host)

/-! ### The owning block (R11, Table 15.5) -/

/-- The owner of an S-class field of instance i is disabled. -/
def Dev.ownerOff (d : Dev) (own : Owner) (i : Nat) : Bool :=
  match own with
  | .global => !d.on R.GLOBAL_CTL.TEN_EN
  | .ring => !d.on R.SQ_CTL.ENABLE i && d.ringIdle i
  | .queue => !d.on R.CQ_CTL.ENABLE i && d.cqIdle i
  | .courier => d.f R.CR_STAT.STATE i != 1 && !d.on R.CR_CTL.ARM i
  | .tour => d.tourIdle i
  | .domain => !d.on R.TIME_DOM_CFG.EN i
  | .cat => !d.on R.CAT_CTL.ENABLE
  | .annex => !d.on R.STREAM_CTL.ENABLE && d.streamsIdle
  | .pool => !d.on R.BPM_POOL_CFG.EN i && d.poolIdle i
  | .fabric => d.fabIdle
  | .port => d.fportIdle i
  | .line => !d.on R.LINE_CTL.ENABLE
  | .engine => d.engIdle i
  | .carrier => d.carIdle i
  | .vitrine => !d.on R.STREAM_CTL.ENABLE && d.streamsIdle
  | .health => !d.on R.HEALTH_CTL.ENABLE
  | .table => true
  | .none => true

/-- Where BUSY of a block is logged. -/
def ownerBusy (own : Owner) (i : Nat) : Fld × Nat :=
  match own with
  | .ring => (R.SQ_ERR.BUSY, i)
  | .queue => (R.CQ_ERR.BUSY, i)
  | .courier => (R.CR_STAT.BUSY, i)
  | .tour => (R.TOUR_ERR.BUSY, i)
  | .domain => (R.TIME_ERR.BUSY, 0)
  | .cat => (R.CAT_ERR.BUSY, 0)
  | .annex => (R.STREAM_ERR.BUSY, 0)
  | .pool => (R.BPM_ERR.BUSY, 0)
  | .fabric => (R.FAB_ERR.BUSY, 0)
  | .port => (R.FAB_ERR.BUSY, 0)
  | .line => (R.LINE_ERR.BUSY, 0)
  | .engine => (R.KW_ERR.BUSY, 0)
  | .carrier => (R.KW_ERR.BUSY, 0)
  | .vitrine => (R.VT_ERR.BUSY, 0)
  | .health => (R.HEALTH_ERR.BUSY, 0)
  | _ => (R.GLOBAL_ERR.BUSY, 0)

/-- The generic write of instance i of a register, field by field (R11). -/
def Dev.plainWrite (d : Dev) (r : LReg) (i : Nat) (l : Lanes) (v : Word) : Dev :=
  let b := ownerBusy r.own i
  d.writeReg (r.base + r.stride * i) (d.ownerOff r.own i) l v b.1 b.2

/-! ### Tables behind GLOBAL_TBL_SEL (R15 to R27, R44) -/

/-- Entries and words per entry of a table code (Table 1.2); none is reserved. -/
def tblSize (t : Nat) : Option (Nat × Nat) :=
  match t with
  | 0 => some (1024, 4)
  | 1 => some (4096, 2)
  | 2 => some (262144, 1)
  | 3 => some (4194304, 1)
  | 4 => some (65536, 4)
  | 5 => some (16384, 2)
  | _ => none

/-- The entry's own ENABLE or VALID is 0 and its IDLE is 1 (R17); a layout word follows its job. -/
def Dev.tblOff (d : Dev) (t n : Nat) : Bool :=
  match t with
  | 0 => !d.on R.TENANT.ENABLE n && d.tenantIdle n
  | 1 => !d.on R.JOB.VALID n && d.jobIdle n
  | 2 => !d.on R.JOB.VALID (n / 64) && d.jobIdle (n / 64)
  | 4 => !d.on R.WINDOW.VALID n && d.windowIdle n
  | _ => true

/-- What a read of a table word returns: TOKEN of a window reads 0 (Table 1.7). -/
def Dev.tblWord (d : Dev) (t n w : Nat) : Word :=
  let v := d.word (tblKey t n w)
  if t = 4 ∧ w = 3 then setBits v 0 32 0
  else if w ≠ 0 then v
  else match t with
    | 0 => setBits v 63 1 (b2n (d.tenantIdle n))
    | 1 => setBits v 63 1 (b2n (d.jobIdle n))
    | 4 => setBits v 63 1 (b2n (d.windowIdle n))
    | _ => v

/-- The checks of R22 on a job entry as it stands: the bit of GLOBAL_ERR that the first failing one sets; MISMATCH is tested before QUOTA
(DESIGN CHOICE, log entry 87). -/
def Dev.jobCheck (d : Dev) (n : Nat) : Option Fld :=
  let ranks := d.f R.JOB.RANKS n
  let t := d.f R.JOB.TENANT n
  if ranks = 0 ∨ 4194304 < d.f R.JOB.REG_BASE n + ranks ∨ d.f R.JOB.ORDS n = 0 ∨ 64 < d.f R.JOB.ORDS n then some R.GLOBAL_ERR.MISMATCH
  else if d.f R.TENANT.MAX_JOBS t ≤ ((d.listed 1).filter (fun k => k != n && d.on R.JOB.VALID k && d.f R.JOB.TENANT k == t)).length then
    some R.GLOBAL_ERR.QUOTA
  else none

/-- The checks of R26 on a window entry as it stands, MISMATCH before QUOTA (DESIGN CHOICE, log entry 87). -/
def Dev.windowCheck (d : Dev) (n : Nat) : Option Fld :=
  let j := d.f R.WINDOW.JOB n
  let t := d.f R.WINDOW.TENANT n
  let ord := d.f R.WINDOW.ORD n
  let lay := 64 * j + ord
  if !d.on R.JOB.VALID j || d.f R.JOB.TENANT j != t || decide (d.f R.JOB.ORDS j ≤ ord) || d.f R.WINDOW.LEN n != d.f R.LAYOUT.LEN lay ||
      (d.f R.WINDOW.RIGHTS n &&& (31 - d.f R.LAYOUT.RIGHTS lay)) != 0 || d.f R.WINDOW.ADDR n % 8 != 0 then some R.GLOBAL_ERR.MISMATCH
  else if d.f R.TENANT.MAX_WINDOWS t ≤ ((d.listed 4).filter (fun k => k != n && d.on R.WINDOW.VALID k && d.f R.WINDOW.TENANT k == t)).length then
    some R.GLOBAL_ERR.QUOTA
  else none

/-- A write of DELTA.STATE (R44): only 0, and only from BOUND or STALE. -/
def Dev.deltaWrite (d : Dev) (n : Nat) (l : Lanes) (v : Word) : Dev :=
  let st := d.f R.DELTA.STATE n
  if bitsOf (laneMask l) 0 2 = 0 then d
  else if bitsOf v 0 2 = 0 ∧ (st = 1 ∨ st = 2) then d.deltaRelease n
  else d.set R.GLOBAL_ERR.BUSY 0 1

/-- A write of a table word. -/
def Dev.tblWrite (d : Dev) (t n w : Nat) (l : Lanes) (v : Word) : Dev :=
  let d1 := d.writeReg (tblKey t n w) (d.tblOff t n) l v R.GLOBAL_ERR.BUSY
  let refuse := fun (x : Fld) (e : Option Fld) => match e with | some b => (d1.set x n 0).set b 0 1 | none => d1
  if t = 5 then (if w = 0 then d.deltaWrite n l v else d)
  else if w ≠ 0 then d1
  else match t with
    | 0 => if !d.on R.TENANT.QUAR n && d1.on R.TENANT.QUAR n then d1.quarTenant n else d1
    | 1 => if !d.on R.JOB.VALID n && d1.on R.JOB.VALID n then refuse R.JOB.VALID (d1.jobCheck n) else d1
    | 4 => if !d.on R.WINDOW.VALID n && d1.on R.WINDOW.VALID n then refuse R.WINDOW.VALID (d1.windowCheck n) else d1
    | _ => d1

/-- An access of GLOBAL_TBL_DATA. -/
def Dev.tblAccess (d : Dev) (a : Access) : Dev :=
  let t := d.f R.GLOBAL_TBL_SEL.TABLE
  let n := d.f R.GLOBAL_TBL_SEL.INDEX
  let w := d.f R.GLOBAL_TBL_SEL.WORD
  let bad := match a with
    | .read => (d.set R.GLOBAL_ERR.RANGE 0 1).emit (.readData 0)
    | .write _ _ => d.set R.GLOBAL_ERR.RANGE 0 1
  match tblSize t with
  | none => bad
  | some s =>
    if s.1 ≤ n ∨ s.2 ≤ w then bad
    else
      let d1 := match a with
        | .read => d.emit (.readData (d.tblWord t n w))
        | .write l v => d.tblWrite t n w l v
      d1.selNext R.GLOBAL_TBL_SEL.AUTOINC R.GLOBAL_TBL_SEL.WORD R.GLOBAL_TBL_SEL.INDEX s.2

/-- GLOBAL_TBL_DATA_ACCESS. -/
def execGlobalTblDataAccess (a : Access) (s : State) : Res :=
  .next (s.onDev (fun d =>
    if d.ready then d.tblAccess a else match a with | .read => d.emit (.readData 0) | .write _ _ => d))

/-! ### Registers whose write does more than change fields -/

/-- A write of RD of a record ring (R101): one that moves RD backward, or past WR, is ignored. -/
def Dev.rdWrite (d : Dev) (wr rd : Fld) (i : Nat) (l : Lanes) (v : Word) : Dev :=
  let old := d.f rd i
  let new := bitsOf (mergeLanes l (d.word (rd.key i)) v) rd.lo rd.w
  if idxSub new old ≤ idxSub (d.f wr i) old then d.set rd i new else d

/-- A record ring of 2^sl records of `rec` bytes at `a` lies in the courier region (R103). -/
def Dev.recRingOk (d : Dev) (a sl size : Nat) : Bool :=
  decide (10 ≤ sl) && decide (sl ≤ 20) && a % size == 0 && !d.outsideHbm ((a : Int), ((a + size * 2 ^ sl - 1 : Nat) : Int))

/-- HEALTH_CTL (R380). -/
def Dev.healthCtl (d : Dev) (r : LReg) (l : Lanes) (v : Word) : Dev :=
  let d1 := d.plainWrite r 0 l v
  let d2 := if !d.on R.HEALTH_CTL.ENABLE && d1.on R.HEALTH_CTL.ENABLE &&
      !d1.recRingOk (d1.f R.HEALTH_ALM_BASE.ADDR) (d1.f R.HEALTH_ALM_BASE.SIZE_LOG) 32 then
      (d1.set R.HEALTH_CTL.ENABLE 0 0).set R.HEALTH_ERR.MISMATCH 0 1 else d1
  d2.alertRefresh

/-- FAB_HS (R346): the count of packets starts with the enable. -/
def Dev.hsCtl (d : Dev) (r : LReg) (l : Lanes) (v : Word) : Dev :=
  let d1 := d.plainWrite r 0 l v
  if !d.on R.FAB_HS.EN && d1.on R.FAB_HS.EN then
    if d1.recRingOk (d1.f R.FAB_HS_BASE.ADDR) (d1.f R.FAB_HS_BASE.SIZE_LOG) 128 then { d1 with hsSeen := [] }
    else (d1.set R.FAB_HS.EN 0 0).set R.FAB_ERR.MISMATCH 0 1
  else d1

/-- An enable that behaves as 0 in P2 and P3 (R366): what is written there is kept aside. -/
def Dev.enableWrite (d : Dev) (r : LReg) (x : Fld) (bit : Nat) (l : Lanes) (v : Word) : Dev :=
  let d1 := d.plainWrite r 0 l v
  if d.f R.SYS_PWR.STATE ≤ 1 || bitsOf (laneMask l) x.lo x.w == 0 then d1
  else
    let rest := if d1.enHeld.testBit bit then d1.enHeld - 2 ^ bit else d1.enHeld
    { d1.set x 0 0 with enHeld := rest + d1.f x * 2 ^ bit }

/-- A carrier takes the colours it should have now, or goes dark. -/
def Dev.carrierRefresh (d : Dev) (m : Nat) : Dev :=
  if d.carOn m then ((((d.onKw m (fun x => { x with piAt := d.now })).startTx m).startLo m).rebase m).regroup m
  else ((((d.darkTx m).set R.KW_CAR_STATE.RX_LOCK m 0).onKw m (fun x => { x with loFine := false, cold := false })).regroup m).rebase m

/-- KW_CTL: with ENABLE every engine in service lights or goes dark. -/
def Dev.kwCtl (d : Dev) (r : LReg) (l : Lanes) (v : Word) : Dev :=
  let d1 := d.plainWrite r 0 l v
  if d.on R.KW_CTL.ENABLE == d1.on R.KW_CTL.ENABLE then d1
  else (List.range 128).foldl (fun (a : Dev) m => if a.on R.KW_CAR_CFG.EN m && a.wingPresent (carrierWing m) then a.carrierRefresh m else a) d1

/-- KW_ENG_e_CFG (R256, R262, R369). -/
def Dev.kwEngCfg (d : Dev) (r : LReg) (e : Nat) (l : Lanes) (v : Word) : Dev :=
  if d.blkHeld 4 e && !d.on R.KW_ENG_CFG.EN e && wrote l v R.KW_ENG_CFG.EN == 1 then d.set R.KW_ERR.BUSY 0 1
  else
    let d1 := d.plainWrite r e l v
    if d.on R.KW_ENG_CFG.EN e == d1.on R.KW_ENG_CFG.EN e then d1.heaterWrite e
    else (engCarriers e).foldl (fun (a : Dev) m => if a.on R.KW_CAR_CFG.EN m then a.carrierRefresh m else a) d1

/-- CAT_CTL: with ENABLE the anchors run or stop (R221). -/
def Dev.catCtl (d : Dev) (r : LReg) (l : Lanes) (v : Word) : Dev :=
  let d1 := d.plainWrite r 0 l v
  if d.on R.CAT_CTL.ENABLE == d1.on R.CAT_CTL.ENABLE then d1
  else (List.range 8).foldl (fun (a : Dev) e => if a.carOn (16 * e) then (a.startTx (16 * e)).rebase (16 * e) else a) d1

/-- LINE_CTL: TIM_ACT decides whether dTIM removes a receive side (R281). -/
def Dev.lineCtl (d : Dev) (r : LReg) (l : Lanes) (v : Word) : Dev :=
  let d1 := d.plainWrite r 0 l v
  if d.on R.LINE_CTL.TIM_ACT == d1.on R.LINE_CTL.TIM_ACT then d1
  else (List.range 8).foldl (fun (a : Dev) e => a.regroupEngine e) d1

/-- FAB_PORT_fp_CFG (R352, R369): a new MODE retrains the port. -/
def Dev.fportCfg (d : Dev) (r : LReg) (p : Nat) (l : Lanes) (v : Word) : Dev :=
  if d.blkHeld 5 p && !d.on R.FAB_PORT_CFG.EN p && wrote l v R.FAB_PORT_CFG.EN == 1 then d.set R.FAB_ERR.BUSY 0 1
  else
    let d1 := d.plainWrite r p l v
    if d.f R.FAB_PORT_CFG.MODE p = d1.f R.FAB_PORT_CFG.MODE p then d1 else d1.set R.FAB_PORT_STAT.UP p 0

/-- FAB_TEN_DATA (R338, R352): the bucket is settled at the old rates first, a meter that is enabled starts full, and reads that may go now
go (R339). -/
def Dev.ftenWrite (d : Dev) (l : Lanes) (v : Word) : Dev :=
  let t := d.f R.FAB_TEN_SEL.INDEX
  let w := d.f R.FAB_TEN_SEL.WORD
  if 7 ≤ w then d.set R.FAB_ERR.RANGE 0 1
  else
    let d0 := if d.on R.FTEN.EN t then d.setMeter t (d.meterNow t) else d
    let d1 := (d0.writeFields (tblKey 8 t w) true l v).1
    let bad := d1.on R.FTEN.EN t && (decide (d1.f R.FTEN.PIR t < d1.f R.FTEN.CIR t) || decide (d1.f R.FTEN.PBS t < d1.f R.FTEN.CBS t))
    let d2 := if bad then d.set R.FAB_ERR.MISMATCH 0 1
      else if !d.on R.FTEN.EN t && d1.on R.FTEN.EN t then d1.setMeter t (d1.meterFull t) else d1
    d2.releaseReads.selNext R.FAB_TEN_SEL.AUTOINC R.FAB_TEN_SEL.WORD R.FAB_TEN_SEL.INDEX 7

/-- SYS_PWR: a write of TARGET, whatever its value, asks for a move (R365); under a lower THROTTLE_C junctions may reach it at once (R367,
R368). -/
def Dev.pwrWrite (d : Dev) (r : LReg) (l : Lanes) (v : Word) : Dev :=
  let old := d.f R.SYS_PWR.TARGET
  let d1 := d.plainWrite r 0 l v
  let new := d1.f R.SYS_PWR.TARGET
  let d2 := d1.set R.SYS_PWR.TARGET 0 old
  let d3 := (d2.hotWings.filter (fun q => !d.hotWings.contains q)).foldl (fun (a : Dev) q => a.junctionHot q) (if d2.hot then d2.thermOn else d2)
  if bitsOf (laneMask l) R.SYS_PWR.TARGET.lo R.SYS_PWR.TARGET.w = 0 then d3 else d3.powerTarget new

/-- SYS_BLK_RST (R369). -/
def Dev.blkWrite (d : Dev) (r : LReg) (l : Lanes) (v : Word) : Dev :=
  if d.on R.SYS_BLK_RST.GO then d
  else
    let d1 := d.plainWrite r 0 l v
    if wrote l v R.SYS_BLK_RST.GO = 0 then d1
    else
      let u := d1.f R.SYS_BLK_RST.UNIT
      match d1.f R.SYS_BLK_RST.BLOCK with
      | 1 => d1.tourBlk u
      | 2 => d1.codecBlk u
      | 3 => d1.cipherBlk u
      | 4 => d1.kwaveBlk u
      | 5 => d1.fabricBlk u
      | 6 => d1.courierBlk u
      | b => d1.blkReset b u false false id

/-- An image that nothing is known of: how its checks come out is free (log entry 3). -/
def Dev.freeImage (d : Dev) : ImageHeader :=
  { svn := d.freeWord.setWidth 8, len := 0, digest := (List.range 48).map (Config.freeByte d.freeCtr), keyOk := d.freeWord.getLsbD 8,
    sigOk := d.freeWord.getLsbD 9 }

/-- The next free value is taken, for a command that rests on what the registers alone do not say. -/
def State.drawFree (s : State) (g : Word → State → State) : State :=
  g s.dev.freeWord (s.onDev (fun d => d.usedFree))

/-- The state after a command whose meaning answers a next state; the state itself otherwise. -/
def State.afterRes (s : State) (r : Res) : State :=
  match r with
  | .next t => t
  | .fault _ => s
  | .refused _ => s

/-- CUR_MBX_CMD with GO: the rows of Table 13.10; any other OP is BAD_DESCRIPTOR. -/
def Dev.mbxGo (d : Dev) : Dev :=
  let arg := BitVec.ofNat 32 (d.f R.CUR_MBX_CMD.ARG)
  match d.f R.CUR_MBX_CMD.OP with
  | 1 => d.mbxCmd 1 arg.toNat (0, versionBytes (d.f R.CUR_STATE.SVN)) id
  | 2 =>
    let st := d.flashStatus (arg.toNat % 2) d.freeImage d.usedFree.freeImage (d.freeWord.getLsbD 10)
    d.mbxCmd 2 arg.toNat (st, []) (fun a => a.usedFree.usedFree)
  | 3 => d.mbxCmd 3 arg.toNat (0, (Config.calRecord arg.toNat).take 4096) id
  | 4 => d.mbxCmd 4 arg.toNat (0, (Config.logBytes d.fwLog d.freeCtr arg.toNat).take 4096) (fun a => a.usedFree)
  | op => if d.ready then d.mbxEnd 0x01 [] else d.mbxCmd op arg.toNat (0x01, []) id

/-- CUR_MBX_CMD (R370). -/
def Dev.mbxWrite (d : Dev) (r : LReg) (l : Lanes) (v : Word) : Dev :=
  if d.on R.CUR_MBX_CMD.GO then d
  else
    let d1 := d.plainWrite r 0 l v
    if wrote l v R.CUR_MBX_CMD.GO = 0 then d1 else d1.mbxGo

/-- HEALTH_PEER_CMD with GO (R384); OP 0 and 3 are BAD_DESCRIPTOR. -/
def Dev.peerGo (d : Dev) : Dev :=
  let p := d.f R.HEALTH_PEER_CMD.PEER
  let r := match d.f R.HEALTH_PEER_CMD.OP with
    | 1 => d.vouchPeer p (d.f R.HEALTH_PEER_CMD.EXT_MS)
    | 2 => d.condemnPeer p
    | _ => (d, 0x01)
  r.1.set R.HEALTH_PEER_RES.STATUS 0 r.2

/-- VT_CMD with GO (Table 11.12); whether a key is a point of P-384 and whether a signature verifies are free here. -/
def vtGo (s : State) : State :=
  let arg := BitVec.ofNat 16 (s.dev.f R.VT_CMD.ARG)
  match s.dev.f R.VT_CMD.OP with
  | 1 => s.afterRes (execCommitSvn s)
  | 2 => s.afterRes (execOpkeyProgram s)
  | 3 => s.drawFree (fun w t => t.afterRes (execCredInstall (w.getLsbD 0) (w.getLsbD 1) t))
  | 4 => s.afterRes (execAttest s)
  | 5 => s.afterRes (execSealPeer arg s)
  | 6 => s.afterRes (execDbgChallenge s)
  | 7 => s.drawFree (fun w t => t.afterRes (execDbgUnlock (w.getLsbD 0) t))
  | 8 => s.afterRes (execDbgLock s)
  | 9 => s.afterRes (execRehash s)
  | 10 => s.drawFree (fun w t => t.afterRes (execRma (w.getLsbD 0) t))
  | 11 => s.drawFree (fun w t => t.afterRes (execSelftest (w.getLsbD 0) t))
  | _ => s.onDev (fun d => d.vtRefuse)

/-- TIME_CTL: a new STEER is a switchover (R199); TRUST follows the other fields with the STEER that stands (R203). -/
def Dev.timeCtl (d : Dev) (r : LReg) (l : Lanes) (v : Word) : Dev :=
  let old := d.f R.TIME_CTL.STEER
  let d1 := d.plainWrite r 0 l v
  let new := d1.f R.TIME_CTL.STEER
  let d2 := (d1.set R.TIME_CTL.STEER 0 old).trustBoth
  if new = old then d2 else (d2.steerWrite new).trustBoth

/-- CR_CTL: GO, ARM and ABORT (R70 to R72); where ABORT stops is free here. -/
def courierCtl (c : Fin 16) (l : Lanes) (v : Word) (s : State) : State :=
  let go := fun (t : State) => if wrote l v R.CR_CTL.GO = 1 then t.afterRes (execCourierGo c t) else t
  let arm := fun (t : State) =>
    if bitsOf (laneMask l) 1 1 = 1 then t.afterRes (execCourierArm c (wrote l v R.CR_CTL.ARM == 1) t) else t
  let abort := fun (t : State) =>
    if wrote l v R.CR_CTL.ABORT = 1 then t.drawFree (fun w u => u.afterRes (execCourierAbort c (w.toNat / 2) (w.getLsbD 0) u)) else t
  abort (arm (go s))

/-! ### REGISTER_WRITE -/

/-- A write of instance i of a register of one of the blocks GLOBAL to STREAM (Table 15.5). -/
def regWriteA (r : LReg) (i : Nat) (l : Lanes) (v : Word) (s : State) : State :=
  let b := r.base
  let dev := fun (g : Dev → Dev) => s.onDev g
  if b = R.GLOBAL_CTL.TEN_EN.base then dev (fun d => d.enableWrite r R.GLOBAL_CTL.TEN_EN 0 l v)
  else if b = R.GLOBAL_TBL_DATA.DATA.base then dev (fun d => d.tblAccess (.write l v))
  else if b = R.CUR_MBX_CMD.OP.base then dev (fun d => d.mbxWrite r l v)
  else if b = R.CUR_DL_LEN.LEN.base then
    let s1 := dev (fun d => d.plainWrite r 0 l v)
    if wrote l v R.CUR_DL_LEN.GO = 1 then s1.onDev (fun d => d.dlStart) else s1
  else if b = R.TIME_CTL.ENABLE.base then s.onPlan (fun d => d.timeCtl r l v)
  else if b = R.TIME_ADJ.OFFSET.base then
    s.onPlan (fun d =>
      let d1 := d.plainWrite r 0 l v
      if wrote l v R.TIME_ADJ.GO = 1 then d1.timeAdj (d1.f R.TIME_ADJ.MODE) (BitVec.ofNat 48 (d1.f R.TIME_ADJ.OFFSET)) else d1)
  else if b = R.TIME_HOLD.HO_AVG.base then dev (fun d => (d.plainWrite r 0 l v).trustBoth)
  else if b = R.TIME_DOM_CFG.EN.base then s.onPlan (fun d => d.domCfgWrite i l v)
  else if b = R.ITIN_CANCEL.GO.base then dev (fun d => if wrote l v R.ITIN_CANCEL.GO = 1 then d.itinCancel else d)
  else if b = R.ITIN_WAKE.CARRIER.base then
    dev (fun d =>
      let d1 := d.plainWrite r 0 l v
      let m := d1.f R.ITIN_WAKE.CARRIER
      if wrote l v R.ITIN_WAKE.GO = 1 ∧ d1.wingPresent (carrierWing m) then d1.wakeRequest m else d1)
  else if b = R.CAT_CTL.ENABLE.base then dev (fun d => d.catCtl r l v)
  else if b = R.CAT_CANCEL.GO.base then dev (fun d => if wrote l v R.CAT_CANCEL.GO = 1 then d.catCancel else d)
  else if b = R.TOUR_CTL.ENABLE.base then s.afterRes (execTourCtlWrite (Fin.ofNat 4 i) l v s)
  else if b = R.TOUR_PROV_IDX.WR.base then dev (fun d => d.rdWrite R.TOUR_PROV_IDX.WR R.TOUR_PROV_IDX.RD i l v)
  else if b = R.TOUR_TS_DATA.DATA.base then s.afterRes (execTourTsDataAccess (.write l v) s)
  else if b = R.CODEC_SLOT_DATA.DATA.base then s.afterRes (execCodecSlotDataAccess (.write l v) s)
  else if b = R.CODEC_STAGE.SLOT.base then s.afterRes (execCodecStage l v s)
  else if b = R.CODEC_BUILD.SLOT.base then s.afterRes (execCodecBuild l v s)
  else if b = R.STREAM_CTL.ENABLE.base then dev (fun d => d.enableWrite r R.STREAM_CTL.ENABLE 2 l v)
  else if b = R.STREAM_CMD0.OP.base then dev (fun d => d.streamCmd l v)
  else if b = R.STREAM_DATA.DATA.base then dev (fun d => d.set R.STREAM_ERR.RANGE 0 1)
  else if b = R.BPM_POOL_CFG.EN.base then dev (fun d => d.poolWrite i l v)
  else if b = R.BPM_QDATA.LIMIT.base then dev (fun d => (d.writeFields (tblKey 10 (d.f R.BPM_QSEL.INDEX) 0) true l v).1)
  else dev (fun d => d.plainWrite r i l v)

/-- The RANGE bit that an access of the data register at `b` sets: its selector is out of range (R16 and the chapters' tables). -/
def Dev.selRange (d : Dev) (b : Nat) : Option Fld :=
  let bad := fun (c : Bool) (x : Fld) => if c then some x else none
  if b = R.STREAM_DATA.DATA.base then bad (decide (5 ≤ d.f R.STREAM_SEL.WORD)) R.STREAM_ERR.RANGE
  else if b = R.FAB_TEN_DATA.DATA.base then bad (decide (7 ≤ d.f R.FAB_TEN_SEL.WORD)) R.FAB_ERR.RANGE
  else if b = R.KW_PATH_DATA.DATA.base then bad (!d.wingPresent (carrierWing (d.f R.KW_PATH_SEL.CARRIER))) R.KW_ERR.RANGE
  else if b = R.LINE_PM_DATA.DATA.base then
    let e := d.f R.LINE_PM_SEL.ENTITY
    bad (decide (384 ≤ e) || decide (35 ≤ d.f R.LINE_PM_SEL.BIN) || (decide (e < 128) && !d.wingPresent (carrierWing e))) R.LINE_ERR.RANGE
  else if b = R.HEALTH_MDATA.CUR.base then
    bad (decide ((match d.f R.HEALTH_MSEL.KIND with | 0 => 7 | 1 => 7 | 2 => 128 | _ => 8) ≤ d.f R.HEALTH_MSEL.UNIT)) R.HEALTH_ERR.RANGE
  else if b = R.LINE_KFS_DATA.SHIFT.base then bad (decide (176409 ≤ d.f R.LINE_KFS_SEL.INDEX)) R.LINE_ERR.RANGE
  else if b = R.ITIN_PAGE_DATA.DATA.base then
    bad (decide ((d.page (d.f R.ITIN_PAGE_SEL.PAGE)).length < 8 * d.f R.ITIN_PAGE_SEL.WORD + 8)) R.ITIN_ERR.RANGE
  else if b = R.CAT_DATA.DATA.base then bad (decide ((d.catVer (d.f R.CAT_SEL.VERSION)).length < 8 * d.f R.CAT_SEL.WORD + 8)) R.CAT_ERR.RANGE
  else none

/-- A write of instance i of a register of one of the blocks RING to SYSTEM (Table 15.5). -/
def regWriteB (r : LReg) (i : Nat) (l : Lanes) (v : Word) (s : State) : State :=
  let b := r.base
  let dev := fun (g : Dev → Dev) => s.onDev g
  if b = R.SQ_CTL.ENABLE.base then dev (fun d => d.sqCtlWrite i l v)
  else if b = R.SQ_ABORT.ABORT.base then
    if wrote l v R.SQ_ABORT.ABORT = 1 then s.afterRes (execSqAbort (Fin.ofNat 4096 i) s) else s
  else if b = R.CQ_CTL.ENABLE.base then dev (fun d => d.cqCtlWrite i l v)
  else if b = R.FAB_CTL.ENABLE.base then dev (fun d => d.enableWrite r R.FAB_CTL.ENABLE 1 l v)
  else if b = R.FAB_TEN_DATA.DATA.base then dev (fun d => d.ftenWrite l v)
  else if b = R.FAB_HS.EN.base then dev (fun d => d.hsCtl r l v)
  else if b = R.FAB_HS_IDX.WR.base then dev (fun d => d.rdWrite R.FAB_HS_IDX.WR R.FAB_HS_IDX.RD 0 l v)
  else if b = R.FAB_PORT_CFG.EN.base then dev (fun d => d.fportCfg r i l v)
  else if b = R.LINE_CTL.ENABLE.base then dev (fun d => d.lineCtl r l v)
  else if b = R.KW_CTL.ENABLE.base then dev (fun d => d.kwCtl r l v)
  else if b = R.KW_PATH_CLR.GO.base then
    dev (fun d =>
      let d1 := d.plainWrite r 0 l v
      if wrote l v R.KW_PATH_CLR.GO = 1 then d1.pathClear (fun m => d1.on R.KW_PATH_CLR.ALL || m == d1.f R.KW_PATH_SEL.CARRIER) else d1)
  else if b = R.KW_ENG_CFG.EN.base then dev (fun d => d.kwEngCfg r i l v)
  else if b = R.KW_CAR_CFG.EN.base then dev (fun d => d.carCfgWrite i l v)
  else if b = R.VT_TEN_DATA.PAIR_BASE.base then dev (fun d => d.vtTenWrite (d.f R.VT_TEN_SEL.INDEX) l v)
  else if b = R.VT_CMD.OP.base then
    let s1 := dev (fun d => d.plainWrite r 0 l v)
    if wrote l v R.VT_CMD.GO = 1 then vtGo s1 else s1
  else if b = R.VT_PWR_REQ.TARGET.base then
    if s.dev.gateReq.isSome then s
    else
      let s1 := dev (fun d => d.plainWrite r 0 l v)
      if wrote l v R.VT_PWR_REQ.GO = 0 then s1
      else
        let t : Fin 128 := Fin.ofNat 128 (s1.dev.f R.VT_PWR_REQ.TARGET)
        match s1.dev.f R.VT_PWR_REQ.ACTION with
        | 0 => s1.afterRes (execPowerGate t s1)
        | 1 => s1.afterRes (execPowerUngate t s1)
        | _ => s1.onDev (fun d => d.pwrDone 0x12)
  else if b = R.HEALTH_CTL.ENABLE.base then dev (fun d => d.healthCtl r l v)
  else if b = R.HEALTH_ALM_IDX.WR.base then
    dev (fun d => (d.rdWrite R.HEALTH_ALM_IDX.WR R.HEALTH_ALM_IDX.RD 0 l v).alertRefresh)
  else if b = R.HEALTH_PEER_CMD.PEER.base then
    s.onPlan (fun d =>
      let d1 := d.plainWrite r 0 l v
      if wrote l v R.HEALTH_PEER_CMD.GO = 1 then d1.peerGo else d1)
  else if b = R.CR_CTL.GO.base then courierCtl (Fin.ofNat 16 i) l v s
  else if decide (R.CR_SRC.SRC.base ≤ b) && decide (b ≤ R.CR_ATTR.TAG.base) then
    dev (fun d => if d.on R.CR_CTL.ARM i then d.set R.CR_STAT.BUSY i 1 else d.plainWrite r i l v)
  else if b = R.SYS_PWR.TARGET.base then dev (fun d => d.pwrWrite r l v)
  else if b = R.SYS_BLK_RST.GO.base then dev (fun d => d.blkWrite r l v)
  else dev (fun d => d.plainWrite r i l v)

/-- A register of a courier channel that Curator firmware owns: BAR0 reads it and does not write it (02, Courier channels). -/
def firmwareOwns (r : LReg) (i : Nat) : Bool := decide (R.CR_SRC.SRC.base ≤ r.base) && decide (r.base ≤ R.CR_PROG.DONE.base) && decide (12 ≤ i)

/-- The register an offset names belongs to a unit that this gateway lacks (R5). -/
def Dev.absentReg (d : Dev) (r : LReg) (i : Nat) : Bool := r.div != 0 && !d.wingPresent (i / r.div)

/-- The bits of a register that belong to wing w alone (R5): its pools in STREAM_DFLT, its bit of CODEC_STAGE.WINGS. -/
def wingBits (r : LReg) (w : Nat) : Word :=
  if r.base = R.STREAM_DFLT.POOLS.base then setBits 0 (R.STREAM_DFLT.POOLS.lo + 12 * w) 12 0xFFF
  else if r.base = R.CODEC_STAGE.WINGS.base then setBits 0 (R.CODEC_STAGE.WINGS.lo + w) 1 1
  else 0

/-- The bits of a register that belong to a wing this gateway lacks: they read 0 and a write leaves them (R5). -/
def Dev.absentBits (d : Dev) (r : LReg) : Word :=
  (List.range 4).foldl (fun (a : Word) w => if d.wingPresent w then a else a ||| wingBits r w) 0

/-- The data of a write as a register with absent bits takes it: those bits keep what they held. -/
def Dev.presentData (d : Dev) (r : LReg) (i : Nat) (v : Word) : Word :=
  (v &&& ~~~(d.absentBits r)) ||| (d.word (r.base + r.stride * i) &&& d.absentBits r)

/-- A write of the register at an aligned offset (R5, R10, R359). -/
def writeAt (key : Nat) (l : Lanes) (v : Word) (s : State) : State :=
  match findReg layout key with
  | none => s
  | some (r, i) =>
    if 2 ^ 26 ≤ key || !s.dev.barOpen key || s.dev.absentReg r i || firmwareOwns r i then s
    else match s.dev.selRange r.base with
    | some x => s.onDev (fun d => d.set x 0 1)
    | none =>
      if r.base < 0x800000 && !(r.base == 0) then regWriteA r i l (s.dev.presentData r i v) s
      else regWriteB r i l (s.dev.presentData r i v) s

/-- The half that a 32-bit access addresses, and its data there; any other size or alignment has no effect (R9). -/
def accessOf (off size : Nat) (v : Word) : Option (Nat × Lanes × Word) :=
  if size = 8 ∧ off % 8 = 0 then some (off, .full, v)
  else if size = 4 ∧ off % 8 = 0 then some (off, .lo, v &&& 0xFFFFFFFF)
  else if size = 4 ∧ off % 8 = 4 then some (off - 4, .hi, v <<< 32)
  else none

/-- REGISTER_WRITE: `size` bytes at BAR0 offset `off`; a 32-bit access carries its data in the low half of `d`. -/
def execRegisterWrite (off : Nat) (size : Nat) (d : Word) (s : State) : Res :=
  .next (match accessOf off size d with
  | none => s
  | some (key, l, v) => (writeAt key l v s).onDev (fun d => d.shadowsFrom s.dev))

/-! ### Reads of registers (R5, R9, R10, R15, R16, R60, R359): no row of the table, so functions that no command runs (log entry 77) -/

/-- A word of a stream context (Table 6.7). -/
def Ctx.word (x : Ctx) (w : Nat) : Nat :=
  match w with
  | 0 =>
    let st := match x.state with | .closed => 0 | .acceding => 1 | .opened => 2 | .draining => 3 | .failed => 4 | .quarantined => 5
    st + 2 ^ 4 * x.cls + 2 ^ 8 * x.home + 2 ^ 10 * b2n x.mirror + 2 ^ 11 * (x.stack % 2) + 2 ^ 12 * x.job + 2 ^ 24 * x.site +
      2 ^ 32 * x.peerStream + 2 ^ 48 * x.gen + 2 ^ 56 * x.status
  | 1 => x.pages + 2 ^ 24 * x.winMax + 2 ^ 45 * x.txPool + 2 ^ 51 * x.rxPool
  | 2 => x.sndNxt % 2 ^ 32 + 2 ^ 32 * (x.sndUna % 2 ^ 32)
  | 3 => x.srtt % 2 ^ 32
  | _ => x.rcvCum % 2 ^ 32 + 2 ^ 32 * (x.rcvHigh % 2 ^ 32)

/-- APPROVED (R295). -/
def Dev.approved (d : Dev) : Bool :=
  d.f R.VT_STAT.SEC == 1 && d.f R.VT_STAT.DBG == 0 && d.on R.VT_STAT.SELFTEST && d.on R.VT_STAT.TRNG_OK && !d.on R.VT_CTL.PLAIN_OK

/-- VT_SENSE.LIVE (R324): of the sensors that have tripped, KAT and TRNG until they pass again; whether another still trips now nothing tells the
gateway's commands, so that is a free value (log entry 118). -/
def Dev.sensorsLive (d : Dev) : Nat :=
  let v := d.f R.VT_SENSE.LIVE
  (List.range 16).foldl (fun a i => if v.testBit i && (i == 7 || i == 8 || Config.sensorNow d.now i) then a + 2 ^ i else a) 0

/-- The half of an epoch of context x, sent or received, is VALID. -/
def Dev.halfReady (d : Dev) (x : Ctx) (half epoch : Nat) : Bool :=
  match d.half (halfIx x.pair epoch half) with | some k => k.epoch == epoch | none => false

/-- VT_CTX_c word 0 (Table 11.13): the pair and cluster bound, the phases of SND_NXT and CUM, whether the halves of the next epochs are
VALID, tag failures within the last second. -/
def Dev.cipherWord (d : Dev) (c : Nat) : Nat :=
  let x := d.ctx c
  if !x.reserved then 0
  else
    let eo := epochOf x.sndNxt
    let ei := epochOf x.rcvCum
    let h := d.outHalf x.site
    let fails := (x.authFails.filter (fun t => decide (d.now ≤ t + 10 ^ 9))).length
    x.pair + 2 ^ 16 * (eo % 2) + 2 ^ 17 * (ei % 2) + 2 ^ 18 * b2n (d.halfReady x h (eo + 1)) + 2 ^ 19 * b2n (d.halfReady x (1 - h) (ei + 1)) +
      2 ^ 20 * (fails % 4) + 2 ^ 22 * x.cluster

/-- The word of a register with every field that the gateway computes when it is read. -/
def Dev.liveWord (d : Dev) (r : LReg) (i : Nat) : Word :=
  let b := r.base
  let v := d.word (b + r.stride * i)
  let idle := fun (x : Bool) => setBits v 63 1 (b2n x)
  if b = R.GLOBAL_CTL.TEN_EN.base then v ||| BitVec.ofNat 64 (d.enHeld % 2)
  else if b = R.SQ_CTL.ENABLE.base then idle (d.ringIdle i)
  else if b = R.CQ_CTL.ENABLE.base then idle (d.cqIdle i)
  else if b = R.TOUR_CTL.ENABLE.base then idle (d.tourIdle i)
  else if b = R.STREAM_CTL.ENABLE.base then idle d.streamsIdle ||| BitVec.ofNat 64 (d.enHeld / 4 % 2)
  else if b = R.BPM_POOL_CFG.EN.base then idle (d.poolIdle i)
  else if b = R.KW_CTL.ENABLE.base then idle ((List.range 8).all d.engIdle)
  else if b = R.KW_ENG_CFG.EN.base then idle (d.engIdle i)
  else if b = R.KW_CAR_CFG.EN.base then idle (d.carIdle i)
  else if b = R.FAB_CTL.ENABLE.base then idle d.fabIdle ||| BitVec.ofNat 64 (d.enHeld / 2 % 2)
  else if b = R.FAB_PORT_CFG.EN.base then idle (d.fportIdle i)
  else if b = R.ANNEX_STK.SPARE.base then setBits v 24 24 (d.stackFree i)
  else if b = R.ANNEX_RSLV.STATE.base then setBits v R.ANNEX_RSLV.LEFT.lo R.ANNEX_RSLV.LEFT.w d.resilverLeft
  else if b = R.VT_STAT.SEC.base then setBits v 4 1 (b2n d.approved)
  else if b = R.VT_LOADPUB.LOADPUB.base then BitVec.ofNat 64 (leAt loadPub (8 * i) 8)
  else if b = R.TIME_FREQ.FADJ.base then setBits v R.TIME_FREQ.FADJ.lo R.TIME_FREQ.FADJ.w (unsigned R.TIME_FREQ.FADJ.w d.yForce)
  else if b = R.TIME_DOM_STAT.STATE.base then
    setBits (setBits v R.TIME_DOM_STAT.STATE.lo R.TIME_DOM_STAT.STATE.w (d.domState i)) R.TIME_DOM_STAT.OFFSET.lo R.TIME_DOM_STAT.OFFSET.w
      (unsigned R.TIME_DOM_STAT.OFFSET.w (d.domOffset i))
  else if b = R.TIME_DOM_TE.TE.base then
    setBits (setBits v R.TIME_DOM_TE.TE.lo R.TIME_DOM_TE.TE.w (d.domTe i)) R.TIME_DOM_TE.TRUST.lo R.TIME_DOM_TE.TRUST.w (b2n (d.domTrust i))
  else if b = R.KW_CAR_HTR.H0.base then
    (List.range 4).foldl (fun (a : Word) h => setBits a (16 * h) 16 (((d.leadNow (carrierEngine i)).budgeted (carrierEngine i)).1 i h).toNat) 0
  else if b = R.KW_ENG_STAT.HTR_SUM.base then
    setBits v R.KW_ENG_STAT.HTR_SUM.lo R.KW_ENG_STAT.HTR_SUM.w (demand i ((d.leadNow i).budgeted i).1 / 100).toNat
  else if b = R.HEALTH_RECOV.LAST.base then d.recoverSweep.word b
  else if b = R.HEALTH_PEER.STATE.base then
    let x := d.peer i
    let st := d.f R.HEALTH_PEER.STATE i
    let since := if st = 3 then 0 else min (2 ^ 24 - 1) (d.since x.last / 1000)
    let left := if 2 ≤ st then 0 else min (2 ^ 24 - 1) ((x.deadline - d.now) / 1000)
    setBits (setBits (setBits v 2 1 (b2n (decide (d.now < x.vouched)))) 8 24 since) 32 24 left
  else if b = R.VT_SENSE.LIVE.base then setBits v 0 16 d.sensorsLive
  else if b = R.VT_CTX.PAIR.base then BitVec.ofNat 64 (d.cipherWord i)
  else if b = R.VT_CTX_E.E_OUT.base then
    let x := d.ctx i
    if x.reserved then BitVec.ofNat 64 (epochOf x.sndNxt % 2 ^ 32 + 2 ^ 32 * (epochOf x.rcvCum % 2 ^ 32)) else 0
  else v

/-- A selected word as a read returns it. -/
def natWord (n : Nat) : Word := BitVec.ofNat 64 n

/-- What a data register returns once its selector is in range; none for a register that is no such window. -/
def Dev.selWord (d : Dev) (b : Nat) : Option Word :=
  if b = R.STREAM_DATA.DATA.base then
    let x := d.ctx (d.f R.STREAM_SEL.INDEX)
    let w := d.f R.STREAM_SEL.WORD
    some (natWord (if w = 3 then x.srtt % 2 ^ 32 + 2 ^ 32 * (d.rto x % 2 ^ 32) else x.word w))
  else if b = R.BPM_QDATA.LIMIT.base then some (d.word (tblKey 10 (d.f R.BPM_QSEL.INDEX) 0))
  else if b = R.FAB_TEN_DATA.DATA.base then some (d.word (tblKey 8 (d.f R.FAB_TEN_SEL.INDEX) (d.f R.FAB_TEN_SEL.WORD)))
  else if b = R.VT_TEN_DATA.PAIR_BASE.base then
    let t := d.f R.VT_TEN_SEL.INDEX
    let lo := d.f R.VTTEN.PAIR_BASE t
    let used := (d.binds.filter (fun e => e.2.isSome && decide (lo ≤ e.1) && decide (e.1 < lo + d.f R.VTTEN.PAIR_COUNT t))).length
    some (setBits (setBits (d.word (tblKey 9 t 0)) 32 1 (b2n (d.keks.any (fun e => e.1 == t)))) 33 16 used)
  else if b = R.KW_PATH_DATA.DATA.base then
    some (natWord (d.pathWord (d.f R.KW_PATH_SEL.CARRIER) (d.f R.KW_PATH_SEL.COLOUR) (d.f R.KW_PATH_SEL.WORD)))
  else if b = R.LINE_PM_DATA.DATA.base then
    let e := d.f R.LINE_PM_SEL.ENTITY
    some (natWord (((d.pmOf e).bin (d.f R.LINE_PM_SEL.BIN)).word (decide (128 ≤ e)) (d.f R.LINE_PM_SEL.WORD)))
  else if b = R.LINE_KFS_DATA.SHIFT.base then some ((kfsEntry (d.f R.LINE_KFS_SEL.INDEX)).setWidth 64)
  else none

/-- A selector advances after a read that AUTOINC steps (R15, Tables 6.6, 10.10 and 12.8). -/
def Dev.selStep (d : Dev) (b : Nat) : Dev :=
  if b = R.STREAM_DATA.DATA.base then d.selNext R.STREAM_SEL.AUTOINC R.STREAM_SEL.WORD R.STREAM_SEL.INDEX 5
  else if b = R.FAB_TEN_DATA.DATA.base then d.selNext R.FAB_TEN_SEL.AUTOINC R.FAB_TEN_SEL.WORD R.FAB_TEN_SEL.INDEX 7
  else if b = R.LINE_PM_DATA.DATA.base then d.selNext R.LINE_PM_SEL.AUTOINC R.LINE_PM_SEL.WORD R.LINE_PM_SEL.BIN 16
  else d

/-- The command that a read of the register at `b` is, where the register has a row of its own. -/
def readRow (b i : Nat) : Option (State → Res) :=
  if b = R.GLOBAL_TBL_DATA.DATA.base then some (execGlobalTblDataAccess .read)
  else if b = R.TOUR_TS_DATA.DATA.base then some (execTourTsDataAccess .read)
  else if b = R.CODEC_SLOT_DATA.DATA.base then some (execCodecSlotDataAccess .read)
  else if b = R.ITIN_PAGE_DATA.DATA.base then some execItinPageDataRead
  else if b = R.CAT_DATA.DATA.base then some execCatDataRead
  else if b = R.TIME_NOW_SEC.SEC.base then some execTimeNowRead
  else if b = R.FAB_QS_DATA.LAST.base then some execFabQsDataRead
  else if b = R.HEALTH_MDATA.CUR.base then some execHealthMdataRead
  else if b = R.BPM_POOL_STAT.FREE.base then some (execBpmPoolStatRead (Fin.ofNat 64 i))
  else none

/-- What a command that reads put on the port; 0 where it put nothing there. -/
def readOf (s t : State) : Word :=
  match t.dev.out.drop s.dev.out.length with
  | [.readData w] => w
  | _ => 0

/-- A read of the word at an aligned BAR0 offset: what it returns, and the machine after it. -/
def readAt (key : Nat) (s : State) : Word × State :=
  if 2 ^ 26 ≤ key || !s.dev.barOpen key then (0, s)
  else match s.dev.selRange key with
  | some x => (0, s.onDev (fun d => d.set x 0 1))
  | none =>
    match s.dev.selWord key with
    | some w => (w, s.onDev (fun d => d.selStep key))
    | none =>
      match findReg layout key with
      | none => (0, s)
      | some (r, i) =>
        if s.dev.absentReg r i then (0, s)
        else match readRow r.base i with
        | some g => let t := s.afterRes (g s); (readOf s t, t)
        | none => (s.dev.liveWord r i &&& ~~~(s.dev.absentBits r), s)

/-- A read of `size` bytes at a BAR0 offset (R9): 64 bits, or the aligned half in the low bits; any other access reads all ones and has
no effect. -/
def readBar0 (off size : Nat) (s : State) : Word × State :=
  match accessOf off size 0 with
  | none => (0xFFFFFFFFFFFFFFFF, s)
  | some (key, .full, _) => readAt key s
  | some (key, .lo, _) => ((readAt key s).1 &&& 0xFFFFFFFF, (readAt key s).2)
  | some (key, .hi, _) => ((readAt key s).1 >>> 32, (readAt key s).2)

/-- A read of BAR2: 0 at every offset and size, and nothing changes (R60). -/
def readBar2 (_off _size : Nat) (s : State) : Word × State := (0, s)

end Sys2Proof.Machine
end

