-- ==== Sys2Proof/Machine/Dispatch.lean ====
section
/-! DEFINITION. The meaning of every command: one arm per constructor of `Instr`. -/

namespace Sys2Proof.Machine

open Sys2Proof

def exec (i : Instr) (s : State) : Host.Outcome State Fault Refusal :=
  match i with
  | .registerWrite off size d => Sys2Proof.Machine.execRegisterWrite off size d s
  | .globalTblDataAccess a => Sys2Proof.Machine.execGlobalTblDataAccess a s
  | .ringDoorbell f n w index => Sys2Proof.Machine.execRingDoorbell f n w index s
  | .queueDoorbell f q w index => Sys2Proof.Machine.execQueueDoorbell f q w index s
  | .descriptorFetch => Sys2Proof.Machine.execDescriptorFetch s
  | .fetchFailed n => Sys2Proof.Machine.execFetchFailed n s
  | .abortRecordWrite n readOk writeOk => Sys2Proof.Machine.execAbortRecordWrite n readOk writeOk s
  | .sqCtlWrite n l d => Sys2Proof.Machine.execSqCtlWrite n l d s
  | .sqAbort n => Sys2Proof.Machine.execSqAbort n s
  | .cqCtlWrite q l d => Sys2Proof.Machine.execCqCtlWrite q l d s
  | .nop n => Sys2Proof.Machine.execNop n s
  | .put n => Sys2Proof.Machine.execPut n s
  | .get n => Sys2Proof.Machine.execGet n s
  | .putReduce n => Sys2Proof.Machine.execPutReduce n s
  | .atomic n => Sys2Proof.Machine.execAtomic n s
  | .signal n => Sys2Proof.Machine.execSignal n s
  | .fence n => Sys2Proof.Machine.execFence n s
  | .fenceRelease n => Sys2Proof.Machine.execFenceRelease n s
  | .deltaPut n => Sys2Proof.Machine.execDeltaPut n s
  | .allReduce n => Sys2Proof.Machine.execAllReduce n s
  | .reduceScatter n => Sys2Proof.Machine.execReduceScatter n s
  | .allGather n => Sys2Proof.Machine.execAllGather n s
  | .broadcast n => Sys2Proof.Machine.execBroadcast n s
  | .tablePublishCodec n => Sys2Proof.Machine.execTablePublishCodec n s
  | .tablePublishCatalogue n => Sys2Proof.Machine.execTablePublishCatalogue n s
  | .tablePublishPage n => Sys2Proof.Machine.execTablePublishPage n s
  | .completionRecordWrite n index writeOk => Sys2Proof.Machine.execCompletionRecordWrite n index writeOk s
  | .coalescingTimer q => Sys2Proof.Machine.execCoalescingTimer q s
  | .fadd64 => Sys2Proof.Machine.execFadd64 s
  | .cas64 => Sys2Proof.Machine.execCas64 s
  | .swap64 => Sys2Proof.Machine.execSwap64 s
  | .fmin64 => Sys2Proof.Machine.execFmin64 s
  | .fmax64 => Sys2Proof.Machine.execFmax64 s
  | .signalTakeEffect => Sys2Proof.Machine.execSignalTakeEffect s
  | .courierGo c => Sys2Proof.Machine.execCourierGo c s
  | .courierArm c on => Sys2Proof.Machine.execCourierArm c on s
  | .courierAbort c bursts writeOk => Sys2Proof.Machine.execCourierAbort c bursts writeOk s
  | .courierTransferEnd c writeOk => Sys2Proof.Machine.execCourierTransferEnd c writeOk s
  | .courierMemoryError c moved writeOk => Sys2Proof.Machine.execCourierMemoryError c moved writeOk s
  | .tourCtlWrite w l d => Sys2Proof.Machine.execTourCtlWrite w l d s
  | .tourProvIdxWrite w l d => Sys2Proof.Machine.execTourProvIdxWrite w l d s
  | .partialCombine coll chunk piece faults => Sys2Proof.Machine.execPartialCombine coll chunk piece faults s
  | .tourTsDataAccess a => Sys2Proof.Machine.execTourTsDataAccess a s
  | .collectiveAdmit coll => Sys2Proof.Machine.execCollectiveAdmit coll s
  | .collectiveStart coll => Sys2Proof.Machine.execCollectiveStart coll s
  | .collEndReceive m tagOk => Sys2Proof.Machine.execCollEndReceive m tagOk s
  | .collectiveComplete coll => Sys2Proof.Machine.execCollectiveComplete coll s
  | .raceCopy c seq m => Sys2Proof.Machine.execRaceCopy c seq m s
  | .segmentCut c m => Sys2Proof.Machine.execSegmentCut c m s
  | .blockDecode c item off faults => Sys2Proof.Machine.execBlockDecode c item off faults s
  | .codecSlotDataAccess a => Sys2Proof.Machine.execCodecSlotDataAccess a s
  | .codecStage l d => Sys2Proof.Machine.execCodecStage l d s
  | .stagingComplete slot ver w => Sys2Proof.Machine.execStagingComplete slot ver w s
  | .codecBuild l d => Sys2Proof.Machine.execCodecBuild l d s
  | .codecBuildDone => Sys2Proof.Machine.execCodecBuildDone s
  | .pubReserveReceive m tagOk => Sys2Proof.Machine.execPubReserveReceive m tagOk s
  | .pubAnswerReceive m tagOk => Sys2Proof.Machine.execPubAnswerReceive m tagOk s
  | .pubCommitReceive m tagOk => Sys2Proof.Machine.execPubCommitReceive m tagOk s
  | .pubAbortReceive m tagOk => Sys2Proof.Machine.execPubAbortReceive m tagOk s
  | .pubCommitAckReceive m tagOk => Sys2Proof.Machine.execPubCommitAckReceive m tagOk s
  | .codecInstall slot => Sys2Proof.Machine.execCodecInstall slot s
  | .codecActivate slot => Sys2Proof.Machine.execCodecActivate slot s
  | .reserveDiscard txn => Sys2Proof.Machine.execReserveDiscard txn s
  | .deltaReleaseReceive m tagOk => Sys2Proof.Machine.execDeltaReleaseReceive m tagOk s
  | .deltaReleaseAckReceive m tagOk => Sys2Proof.Machine.execDeltaReleaseAckReceive m tagOk s
  | .streamOpen d => Sys2Proof.Machine.execStreamOpen d s
  | .streamClose d => Sys2Proof.Machine.execStreamClose d s
  | .streamAbort d => Sys2Proof.Machine.execStreamAbort d s
  | .accedeReceive m tagOk => Sys2Proof.Machine.execAccedeReceive m tagOk s
  | .acceptReceive m tagOk => Sys2Proof.Machine.execAcceptReceive m tagOk s
  | .refuseReceive m tagOk => Sys2Proof.Machine.execRefuseReceive m tagOk s
  | .deaccedeReceive m tagOk => Sys2Proof.Machine.execDeaccedeReceive m tagOk s
  | .deaccedeAckReceive m tagOk => Sys2Proof.Machine.execDeaccedeAckReceive m tagOk s
  | .accessionTimeout c => Sys2Proof.Machine.execAccessionTimeout c s
  | .accedeHoldExpiry job site cls w => Sys2Proof.Machine.execAccedeHoldExpiry job site cls w s
  | .idleClose c => Sys2Proof.Machine.execIdleClose c s
  | .drainComplete c => Sys2Proof.Machine.execDrainComplete c s
  | .segmentReceive m g race tagOk => Sys2Proof.Machine.execSegmentReceive m g race tagOk s
  | .receiptTimer c => Sys2Proof.Machine.execReceiptTimer c s
  | .receiptReceive r tagOk => Sys2Proof.Machine.execReceiptReceive r tagOk s
  | .retransmissionTimeout c => Sys2Proof.Machine.execRetransmissionTimeout c s
  | .stackFailure k => Sys2Proof.Machine.execStackFailure k s
  | .annexRelocate c => Sys2Proof.Machine.execAnnexRelocate c s
  | .resilverComplete c => Sys2Proof.Machine.execResilverComplete c s
  | .quarterContextEnd c => Sys2Proof.Machine.execQuarterContextEnd c s
  | .bufferReturn p ptr => Sys2Proof.Machine.execBufferReturn p ptr s
  | .poolEnable p l d => Sys2Proof.Machine.execPoolEnable p l d s
  | .servoSample dom o => Sys2Proof.Machine.execServoSample dom o s
  | .sourceLost dom => Sys2Proof.Machine.execSourceLost dom s
  | .ptpMessageReceive p m => Sys2Proof.Machine.execPtpMessageReceive p m s
  | .ptpSyncSend dom => Sys2Proof.Machine.execPtpSyncSend dom s
  | .ptpRelay p m residence => Sys2Proof.Machine.execPtpRelay p m residence s
  | .timeAdjStep ofs => Sys2Proof.Machine.execTimeAdjStep ofs s
  | .timeAdjSlew ofs => Sys2Proof.Machine.execTimeAdjSlew ofs s
  | .timeAdjSet ofs => Sys2Proof.Machine.execTimeAdjSet ofs s
  | .steerWrite dom => Sys2Proof.Machine.execSteerWrite dom s
  | .domainEnable dom l d => Sys2Proof.Machine.execDomainEnable dom l d s
  | .timeNowRead => Sys2Proof.Machine.execTimeNowRead s
  | .ppsOutPulse => Sys2Proof.Machine.execPpsOutPulse s
  | .todOutSend => Sys2Proof.Machine.execTodOutSend s
  | .ppsInEdge => Sys2Proof.Machine.execPpsInEdge s
  | .todInMessage bytes => Sys2Proof.Machine.execTodInMessage bytes s
  | .todInTimeout => Sys2Proof.Machine.execTodInTimeout s
  | .leapEvent => Sys2Proof.Machine.execLeapEvent s
  | .markReceive e p m arrival => Sys2Proof.Machine.execMarkReceive e p m arrival s
  | .echoReceive e p m => Sys2Proof.Machine.execEchoReceive e p m s
  | .anchorVisit e => Sys2Proof.Machine.execAnchorVisit e s
  | .itineraryNop w => Sys2Proof.Machine.execItineraryNop w s
  | .retune w => Sys2Proof.Machine.execRetune w s
  | .windowOpen w => Sys2Proof.Machine.execWindowOpen w s
  | .windowClose w => Sys2Proof.Machine.execWindowClose w s
  | .park w => Sys2Proof.Machine.execPark w s
  | .wake w => Sys2Proof.Machine.execWake w s
  | .phaseStart w => Sys2Proof.Machine.execPhaseStart w s
  | .heaterFf w => Sys2Proof.Machine.execHeaterFf w s
  | .heaterPulseEnd m h => Sys2Proof.Machine.execHeaterPulseEnd m h s
  | .guardEnd m => Sys2Proof.Machine.execGuardEnd m s
  | .fineLock m lo => Sys2Proof.Machine.execFineLock m lo s
  | .receiverRelock m ok => Sys2Proof.Machine.execReceiverRelock m ok s
  | .coldAcquisition m => Sys2Proof.Machine.execColdAcquisition m s
  | .parkCancelReceive m tagOk => Sys2Proof.Machine.execParkCancelReceive m tagOk s
  | .wakeRequest m => Sys2Proof.Machine.execWakeRequest m s
  | .wakeSlot m => Sys2Proof.Machine.execWakeSlot m s
  | .wakeCheckExpiry m => Sys2Proof.Machine.execWakeCheckExpiry m s
  | .returnReceive m tagOk => Sys2Proof.Machine.execReturnReceive m tagOk s
  | .returnAckReceive m tagOk => Sys2Proof.Machine.execReturnAckReceive m tagOk s
  | .carrierRejoin m => Sys2Proof.Machine.execCarrierRejoin m s
  | .relockAttempt m ok => Sys2Proof.Machine.execRelockAttempt m ok s
  | .announceReceive m tagOk => Sys2Proof.Machine.execAnnounceReceive m tagOk s
  | .cancelReceive m tagOk => Sys2Proof.Machine.execCancelReceive m tagOk s
  | .commitPoint k => Sys2Proof.Machine.execCommitPoint k s
  | .pageActivate => Sys2Proof.Machine.execPageActivate s
  | .catalogueActivate => Sys2Proof.Machine.execCatalogueActivate s
  | .itinCancel => Sys2Proof.Machine.execItinCancel s
  | .catCancel => Sys2Proof.Machine.execCatCancel s
  | .cepHoldEnd => Sys2Proof.Machine.execCepHoldEnd s
  | .itinPageDataRead => Sys2Proof.Machine.execItinPageDataRead s
  | .catDataRead => Sys2Proof.Machine.execCatDataRead s
  | .connectorChange f present => Sys2Proof.Machine.execConnectorChange f present s
  | .connectorSettle f => Sys2Proof.Machine.execConnectorSettle f s
  | .fibreLos e rxTotal => Sys2Proof.Machine.execFibreLos e rxTotal s
  | .picTempDeviation e temp => Sys2Proof.Machine.execPicTempDeviation e temp s
  | .pathReportReceive m tagOk => Sys2Proof.Machine.execPathReportReceive m tagOk s
  | .monitorSample m v => Sys2Proof.Machine.execMonitorSample m v s
  | .pathClear m => Sys2Proof.Machine.execPathClear m s
  | .pathClearAll => Sys2Proof.Machine.execPathClearAll s
  | .carrierCfgWrite m l d => Sys2Proof.Machine.execCarrierCfgWrite m l d s
  | .receiverLockLoss m => Sys2Proof.Machine.execReceiverLockLoss m s
  | .frameTransmit m fill => Sys2Proof.Machine.execFrameTransmit m fill s
  | .frameReceive m f bad => Sys2Proof.Machine.execFrameReceive m f bad s
  | .carrierOutReceive m tagOk => Sys2Proof.Machine.execCarrierOutReceive m tagOk s
  | .pmSecond ent => Sys2Proof.Machine.execPmSecond ent s
  | .initReceive p m => Sys2Proof.Machine.execInitReceive p m s
  | .replyReceive p m => Sys2Proof.Machine.execReplyReceive p m s
  | .finishReceive p m => Sys2Proof.Machine.execFinishReceive p m s
  | .doneReceive p m => Sys2Proof.Machine.execDoneReceive p m s
  | .alertReceive p m => Sys2Proof.Machine.execAlertReceive p m s
  | .sealReassemblyTimeout p step => Sys2Proof.Machine.execSealReassemblyTimeout p step s
  | .sealRetry p => Sys2Proof.Machine.execSealRetry p s
  | .commitSvn => Sys2Proof.Machine.execCommitSvn s
  | .opkeyProgram => Sys2Proof.Machine.execOpkeyProgram s
  | .credInstall keyOk sigOk => Sys2Proof.Machine.execCredInstall keyOk sigOk s
  | .attest => Sys2Proof.Machine.execAttest s
  | .sealPeer arg => Sys2Proof.Machine.execSealPeer arg s
  | .dbgChallenge => Sys2Proof.Machine.execDbgChallenge s
  | .dbgUnlock sigOk => Sys2Proof.Machine.execDbgUnlock sigOk s
  | .dbgLock => Sys2Proof.Machine.execDbgLock s
  | .rehash => Sys2Proof.Machine.execRehash s
  | .rma sigOk => Sys2Proof.Machine.execRma sigOk s
  | .selftest pass => Sys2Proof.Machine.execSelftest pass s
  | .load f ch r => Sys2Proof.Machine.execLoad f ch r s
  | .loadWrapped f ch r tagOk => Sys2Proof.Machine.execLoadWrapped f ch r tagOk s
  | .clear f ch r => Sys2Proof.Machine.execClear f ch r s
  | .setKek f ch r => Sys2Proof.Machine.execSetKek f ch r s
  | .vtTenWrite t l d => Sys2Proof.Machine.execVtTenWrite t l d s
  | .tamperSensorTrip sensor sight => Sys2Proof.Machine.execTamperSensorTrip sensor sight s
  | .trngRecovery => Sys2Proof.Machine.execTrngRecovery s
  | .powerGate target => Sys2Proof.Machine.execPowerGate target s
  | .powerUngate target => Sys2Proof.Machine.execPowerUngate target s
  | .gateDeferEnd => Sys2Proof.Machine.execGateDeferEnd s
  | .clusterPowerLoss k => Sys2Proof.Machine.execClusterPowerLoss k s
  | .lrmReadResp p m => Sys2Proof.Machine.execLrmReadResp p m s
  | .lrmWriteAck p m => Sys2Proof.Machine.execLrmWriteAck p m s
  | .lrmDoorbell p m => Sys2Proof.Machine.execLrmDoorbell p m s
  | .lrmCnp p m => Sys2Proof.Machine.execLrmCnp p m s
  | .lrmNak p m => Sys2Proof.Machine.execLrmNak p m s
  | .lrmRetryTimeout tag => Sys2Proof.Machine.execLrmRetryTimeout tag s
  | .portStateChange p up => Sys2Proof.Machine.execPortStateChange p up s
  | .rateIncrease limiter => Sys2Proof.Machine.execRateIncrease limiter s
  | .schedulingSelection ent => Sys2Proof.Machine.execSchedulingSelection ent s
  | .queueSample => Sys2Proof.Machine.execQueueSample s
  | .fabQsDataRead => Sys2Proof.Machine.execFabQsDataRead s
  | .flitInject stop flit => Sys2Proof.Machine.execFlitInject stop flit s
  | .flitArrive stop vc up full => Sys2Proof.Machine.execFlitArrive stop vc up full s
  | .skewCheck k counts tenant => Sys2Proof.Machine.execSkewCheck k counts tenant s
  | .powerOn => Sys2Proof.Machine.execPowerOn s
  | .powerRailFault rail mv => Sys2Proof.Machine.execPowerRailFault rail mv s
  | .resetNAssert lowNs => Sys2Proof.Machine.execResetNAssert lowNs s
  | .resetRelease bootSel clkMode => Sys2Proof.Machine.execResetRelease bootSel clkMode s
  | .cfgSenseConversion ohms => Sys2Proof.Machine.execCfgSenseConversion ohms s
  | .bootSelftestDone pass refclk => Sys2Proof.Machine.execBootSelftestDone pass refclk s
  | .imageCheck part h => Sys2Proof.Machine.execImageCheck part h s
  | .bootInitDone pllOk stacksOk wingsOk => Sys2Proof.Machine.execBootInitDone pllOk stacksOk wingsOk s
  | .pcieConfigReady => Sys2Proof.Machine.execPcieConfigReady s
  | .hostDownload vit cur => Sys2Proof.Machine.execHostDownload vit cur s
  | .downloadTimeout => Sys2Proof.Machine.execDownloadTimeout s
  | .powerTargetWrite t => Sys2Proof.Machine.execPowerTargetWrite t s
  | .powerMoveDone => Sys2Proof.Machine.execPowerMoveDone s
  | .throttle q temp => Sys2Proof.Machine.execThrottle q temp s
  | .junction125c q => Sys2Proof.Machine.execJunction125c q s
  | .pllLockLoss dom => Sys2Proof.Machine.execPllLockLoss dom s
  | .tourEngineReset unit => Sys2Proof.Machine.execTourEngineReset unit s
  | .codecStagingReset unit => Sys2Proof.Machine.execCodecStagingReset unit s
  | .cipherClusterReset unit => Sys2Proof.Machine.execCipherClusterReset unit s
  | .kwaveEngineReset unit => Sys2Proof.Machine.execKwaveEngineReset unit s
  | .fabricPortReset unit => Sys2Proof.Machine.execFabricPortReset unit s
  | .courierChannelReset unit => Sys2Proof.Machine.execCourierChannelReset unit s
  | .blockResetDone => Sys2Proof.Machine.execBlockResetDone s
  | .version => Sys2Proof.Machine.execVersion s
  | .flashWrite arg vit cur otherGood => Sys2Proof.Machine.execFlashWrite arg vit cur otherGood s
  | .calRead arg => Sys2Proof.Machine.execCalRead arg s
  | .logRead arg => Sys2Proof.Machine.execLogRead arg s
  | .mailboxComplete => Sys2Proof.Machine.execMailboxComplete s
  | .heartbeat => Sys2Proof.Machine.execHeartbeat s
  | .alarmWindowClose k => Sys2Proof.Machine.execAlarmWindowClose k s
  | .peerSuspect p => Sys2Proof.Machine.execPeerSuspect p s
  | .peerLeaseExpiry p => Sys2Proof.Machine.execPeerLeaseExpiry p s
  | .vouch p extMs => Sys2Proof.Machine.execVouch p extMs s
  | .condemn p => Sys2Proof.Machine.execCondemn p s
  | .noteReceive m tagOk => Sys2Proof.Machine.execNoteReceive m tagOk s
  | .marginSample k u v => Sys2Proof.Machine.execMarginSample k u v s
  | .trendFit k u mean => Sys2Proof.Machine.execTrendFit k u mean s
  | .healthMdataRead => Sys2Proof.Machine.execHealthMdataRead s
  | .transmitterLockLoss m => Sys2Proof.Machine.execTransmitterLockLoss m s
  | .wingFault w => Sys2Proof.Machine.execWingFault w s
  | .eicFault e => Sys2Proof.Machine.execEicFault e s
  | .curatorFirmwareStop => Sys2Proof.Machine.execCuratorFirmwareStop s
  | .holdoverTrustLoss dom => Sys2Proof.Machine.execHoldoverTrustLoss dom s
  | .ppsInMissing => Sys2Proof.Machine.execPpsInMissing s
  | .referenceLost ref10m pps => Sys2Proof.Machine.execReferenceLost ref10m pps s
  | .throttleRelease => Sys2Proof.Machine.execThrottleRelease s
  | .pcieReadCompletion tag data => Sys2Proof.Machine.execPcieReadCompletion tag data s
  | .bpmPoolStatRead p => Sys2Proof.Machine.execBpmPoolStatRead p s
  | .pinnedChunkWaitExpiry coll => Sys2Proof.Machine.execPinnedChunkWaitExpiry coll s

end Sys2Proof.Machine
end

