-- ==== Sys2Proof/Machine/Step.lean ====
section
/-! DEFINITION. One step of the block: the command at the front of the queue, or, on an empty queue, one edge of the TIME clock. -/

namespace Sys2Proof.Machine

open Sys2Proof

/-- The machine with other commands waiting. -/
def State.withPending (s : State) (l : List Instr) : State := { s with pending := l }

/-- A step. With a command waiting it is that command's effect on the state that holds the rest of the queue; on an empty queue the
1 GHz TIME clock has one edge (R190; DESIGN CHOICE, log entry 4). -/
def step (s : State) : Host.Outcome State Fault Refusal :=
  match s.pending with
  | [] => .next (s.onDev Dev.tick)
  | c :: rest => exec c (s.withPending rest)

/-- The command that a word spells, put at the front of the queue. -/
def State.withFetchWord (s : State) (nbits w : Nat) : State :=
  match decodeTableWord nbits w with
  | none => s
  | some c => s.withPending (c :: s.pending)

end Sys2Proof.Machine
end

