-- ==== Sys2Proof/WellFormed.lean ====
section
/-! DEFINITION. Which operand values a command can arrive with: the fixed lengths of messages, the sizes and ranges of bus accesses.
A meaning does not rest on these checks: it answers on every operand. -/

namespace Sys2Proof

/-- Bus accesses come in these sizes (R9, R60). -/
def sizeOk (n : Nat) : Bool := n == 1 || n == 2 || n == 4 || n == 8

/-- A segment (Tables 6.3 and 6.4): 28 header bytes after the first 20, at most 16,384 bytes of payload, a 16-byte tag. -/
def segmentOk (g : Segment) : Bool := g.tail.length == 28 && decide (g.payload.length ≤ 16384) && g.tag.length == 16

/-- A frame (Table 10.2): 4 rows of 4,096 bytes. -/
def frameOk (f : Frame) : Bool :=
  f.njo.length == 8 && f.time.length == 16 && f.rcc.length == 8 && f.pjo.length == 8 && f.data.length == 16312

/-- A fragment of a SEAL body (Table 11.6). -/
def sealOk (m : SealMsg) : Bool := decide (m.frag < m.nfrag) && m.body.length == m.flen.toNat

/-- A service message (Table 10.11). -/
def serviceOk (m : ServiceMsg) : Bool := decide (m.frag < m.nfrag) && m.data.length == m.dlen.toNat

/-- A load record (Table 11.9): 240 bytes from +0x10 on at most. -/
def loadOk (r : LoadRecord) : Bool := decide (r.key.length ≤ 97) && decide (r.tag.length ≤ 16) && decide (r.nonce.length ≤ 12)

/-- A firmware part (R299). -/
def imageOk (h : ImageHeader) : Bool := h.digest.length == 48

/-- Beats that fail their residue check (R90): at most one report a beat. -/
def faultsOk (l : List BeatFault) : Bool := decide (l.map (fun x => x.beat)).Nodup

/-- An LRM frame (R331): at least the two MAC addresses, the type and the FCS of an Ethernet frame. -/
def lrmOk (m : LrmPacket) : Bool := decide (64 ≤ m.raw.length)

/-- Nanoseconds within a second. -/
def nsOk (n : BitVec 32) : Bool := decide (n.toNat < 1000000000)

/-- The command is one that can arrive. -/
def Instr.wf : Instr → Bool
  | .registerWrite off size d => decide (off < 2 ^ 26) && sizeOk size && decide (d.toNat < 2 ^ (8 * size))
  | .ringDoorbell _ _ w _ => sizeOk w.size
  | .queueDoorbell _ _ w _ => sizeOk w.size
  | .partialCombine _ _ _ faults => faultsOk faults
  | .blockDecode _ item _ faults => decide (item.kind ≤ 3) && faultsOk faults
  | .collEndReceive m _ => serviceOk m
  | .pubReserveReceive m _ => serviceOk m
  | .pubAnswerReceive m _ => serviceOk m
  | .pubCommitReceive m _ => serviceOk m
  | .pubAbortReceive m _ => serviceOk m
  | .pubCommitAckReceive m _ => serviceOk m
  | .deltaReleaseReceive m _ => serviceOk m
  | .deltaReleaseAckReceive m _ => serviceOk m
  | .segmentReceive _ g _ _ => segmentOk g
  | .ptpMessageReceive _ m => nsOk m.ns
  | .ptpRelay _ m _ => nsOk m.ns
  | .markReceive _ _ m _ => nsOk m.ns
  | .monitorSample _ v => v.loopErr.length == 4 && decide (v.corrected ≤ v.coded)
  | .frameReceive _ f bad => frameOk f && bad.all (fun b => decide (b.first ≤ b.last))
  | .initReceive _ m => sealOk m
  | .replyReceive _ m => sealOk m
  | .finishReceive _ m => sealOk m
  | .doneReceive _ m => sealOk m
  | .alertReceive _ m => sealOk m
  | .load _ _ r => loadOk r
  | .loadWrapped _ _ r _ => loadOk r
  | .clear _ _ r => loadOk r
  | .setKek _ _ r => loadOk r
  | .lrmReadResp _ m => lrmOk m.frame && faultsOk m.faults
  | .lrmWriteAck _ m => lrmOk m
  | .lrmDoorbell _ m => lrmOk m
  | .lrmCnp _ m => lrmOk m
  | .lrmNak _ m => lrmOk m
  | .skewCheck _ counts _ => counts.length == 32
  | .imageCheck _ h => imageOk h
  | .hostDownload v c => imageOk v && imageOk c
  | .flashWrite _ v c _ => imageOk v && imageOk c
  | .globalTblDataAccess _ => true
  | .descriptorFetch => true
  | .fetchFailed _ => true
  | .abortRecordWrite _ _ _ => true
  | .sqCtlWrite _ _ _ => true
  | .sqAbort _ => true
  | .cqCtlWrite _ _ _ => true
  | .nop _ => true
  | .put _ => true
  | .get _ => true
  | .putReduce _ => true
  | .atomic _ => true
  | .signal _ => true
  | .fence _ => true
  | .fenceRelease _ => true
  | .deltaPut _ => true
  | .allReduce _ => true
  | .reduceScatter _ => true
  | .allGather _ => true
  | .broadcast _ => true
  | .tablePublishCodec _ => true
  | .tablePublishCatalogue _ => true
  | .tablePublishPage _ => true
  | .completionRecordWrite _ _ _ => true
  | .coalescingTimer _ => true
  | .fadd64 => true
  | .cas64 => true
  | .swap64 => true
  | .fmin64 => true
  | .fmax64 => true
  | .signalTakeEffect => true
  | .courierGo _ => true
  | .courierArm _ _ => true
  | .courierAbort _ _ _ => true
  | .courierTransferEnd _ _ => true
  | .courierMemoryError _ _ _ => true
  | .tourCtlWrite _ _ _ => true
  | .tourProvIdxWrite _ _ _ => true
  | .tourTsDataAccess _ => true
  | .collectiveAdmit _ => true
  | .collectiveStart _ => true
  | .collectiveComplete _ => true
  | .raceCopy _ _ _ => true
  | .segmentCut _ _ => true
  | .codecSlotDataAccess _ => true
  | .codecStage _ _ => true
  | .stagingComplete _ _ _ => true
  | .codecBuild _ _ => true
  | .codecBuildDone => true
  | .codecInstall _ => true
  | .codecActivate _ => true
  | .reserveDiscard _ => true
  | .streamOpen _ => true
  | .streamClose _ => true
  | .streamAbort _ => true
  | .accedeReceive _ _ => true
  | .acceptReceive _ _ => true
  | .refuseReceive _ _ => true
  | .deaccedeReceive _ _ => true
  | .deaccedeAckReceive _ _ => true
  | .accessionTimeout _ => true
  | .accedeHoldExpiry _ _ _ _ => true
  | .idleClose _ => true
  | .drainComplete _ => true
  | .receiptTimer _ => true
  | .receiptReceive _ _ => true
  | .retransmissionTimeout _ => true
  | .stackFailure _ => true
  | .annexRelocate _ => true
  | .resilverComplete _ => true
  | .quarterContextEnd _ => true
  | .bufferReturn _ _ => true
  | .poolEnable _ _ _ => true
  | .servoSample _ _ => true
  | .sourceLost _ => true
  | .ptpSyncSend _ => true
  | .timeAdjStep _ => true
  | .timeAdjSlew _ => true
  | .timeAdjSet _ => true
  | .steerWrite _ => true
  | .domainEnable _ _ _ => true
  | .timeNowRead => true
  | .ppsOutPulse => true
  | .todOutSend => true
  | .ppsInEdge => true
  | .todInMessage _ => true
  | .todInTimeout => true
  | .leapEvent => true
  | .echoReceive _ _ _ => true
  | .anchorVisit _ => true
  | .itineraryNop _ => true
  | .retune _ => true
  | .windowOpen _ => true
  | .windowClose _ => true
  | .park _ => true
  | .wake _ => true
  | .phaseStart _ => true
  | .heaterFf _ => true
  | .heaterPulseEnd _ _ => true
  | .guardEnd _ => true
  | .fineLock _ _ => true
  | .receiverRelock _ _ => true
  | .coldAcquisition _ => true
  | .parkCancelReceive _ _ => true
  | .wakeRequest _ => true
  | .wakeSlot _ => true
  | .wakeCheckExpiry _ => true
  | .returnReceive _ _ => true
  | .returnAckReceive _ _ => true
  | .carrierRejoin _ => true
  | .relockAttempt _ _ => true
  | .announceReceive _ _ => true
  | .cancelReceive _ _ => true
  | .commitPoint _ => true
  | .pageActivate => true
  | .catalogueActivate => true
  | .itinCancel => true
  | .catCancel => true
  | .cepHoldEnd => true
  | .itinPageDataRead => true
  | .catDataRead => true
  | .connectorChange _ _ => true
  | .connectorSettle _ => true
  | .fibreLos _ _ => true
  | .picTempDeviation _ _ => true
  | .pathReportReceive _ _ => true
  | .pathClear _ => true
  | .pathClearAll => true
  | .carrierCfgWrite _ _ _ => true
  | .receiverLockLoss _ => true
  | .frameTransmit _ _ => true
  | .carrierOutReceive _ _ => true
  | .pmSecond _ => true
  | .sealReassemblyTimeout _ _ => true
  | .sealRetry _ => true
  | .commitSvn => true
  | .opkeyProgram => true
  | .credInstall _ _ => true
  | .attest => true
  | .sealPeer _ => true
  | .dbgChallenge => true
  | .dbgUnlock _ => true
  | .dbgLock => true
  | .rehash => true
  | .rma _ => true
  | .selftest _ => true
  | .vtTenWrite _ _ _ => true
  | .tamperSensorTrip _ _ => true
  | .trngRecovery => true
  | .powerGate _ => true
  | .powerUngate _ => true
  | .gateDeferEnd => true
  | .clusterPowerLoss _ => true
  | .lrmRetryTimeout _ => true
  | .portStateChange _ _ => true
  | .rateIncrease _ => true
  | .schedulingSelection _ => true
  | .queueSample => true
  | .fabQsDataRead => true
  | .flitInject _ _ => true
  | .flitArrive _ _ _ _ => true
  | .powerOn => true
  | .powerRailFault _ _ => true
  | .resetNAssert _ => true
  | .resetRelease _ _ => true
  | .cfgSenseConversion _ => true
  | .bootSelftestDone _ _ => true
  | .bootInitDone _ _ _ => true
  | .pcieConfigReady => true
  | .downloadTimeout => true
  | .powerTargetWrite _ => true
  | .powerMoveDone => true
  | .throttle _ _ => true
  | .junction125c _ => true
  | .pllLockLoss _ => true
  | .tourEngineReset _ => true
  | .codecStagingReset _ => true
  | .cipherClusterReset _ => true
  | .kwaveEngineReset _ => true
  | .fabricPortReset _ => true
  | .courierChannelReset _ => true
  | .blockResetDone => true
  | .version => true
  | .calRead _ => true
  | .logRead _ => true
  | .mailboxComplete => true
  | .heartbeat => true
  | .alarmWindowClose _ => true
  | .peerSuspect _ => true
  | .peerLeaseExpiry _ => true
  | .vouch _ _ => true
  | .condemn _ => true
  | .noteReceive _ _ => true
  | .marginSample _ _ _ => true
  | .trendFit _ _ _ => true
  | .healthMdataRead => true
  | .transmitterLockLoss _ => true
  | .wingFault _ => true
  | .eicFault _ => true
  | .curatorFirmwareStop => true
  | .holdoverTrustLoss _ => true
  | .ppsInMissing => true
  | .referenceLost _ _ => true
  | .throttleRelease => true
  | .pcieReadCompletion _ data => faultsOk data.faults
  | .bpmPoolStatRead _ => true
  | .pinnedChunkWaitExpiry _ => true

end Sys2Proof
end

