-- ==== Sys2Proof/Safety.lean ====
section
/-! DEFINITION. What counts as a safe run of the block, and the invariant that statements may assume. -/

namespace Sys2Proof

open Sys2Proof.Machine

/-- The canonical form of the state: memory and the register table list their entries in rising order and none at its default. -/
def Wf (s : State) : Prop := memWf s.mem ∧ tabWf resetWord s.dev.words

/-- Every waiting command is one that can arrive. -/
def QueueWf (s : State) : Prop := ∀ c ∈ s.pending, c.wf = true

/-- A run of `k` steps from `s` ends in a next state: no fault, no refusal. -/
def Safe (k : Nat) (s : State) : Prop := ∃ t, core.run k s = .next t

/-- The command completes from `s`: it answers a next state, of which `P` holds. -/
def Completes (c : Instr) (s : State) (P : State → Prop) : Prop := ∃ t, exec c s = .next t ∧ P t

/-- Every byte of memory reads in `t` as it did in `s`. -/
def SameMem (s t : State) : Prop := ∀ a, memGet t.mem a = memGet s.mem a

/-- Every byte of memory outside `n` bytes from `a` reads in `t` as it did in `s`. -/
def SameMemBut (s t : State) (a n : Nat) : Prop := ∀ b, b < a ∨ a + n ≤ b → memGet t.mem b = memGet s.mem b

/-- Every byte of memory whose address is not listed reads in `t` as it did in `s`. -/
def SameMemOff (s t : State) (l : List Nat) : Prop := ∀ b, b ∉ l → memGet t.mem b = memGet s.mem b

/-- Every register word but those named reads in `t` as it did in `s`. -/
def SameWords (s t : State) (but : List Nat) : Prop := ∀ k, k ∉ but → t.dev.word k = s.dev.word k

/-- Every part of the block beside its register words is as it was. -/
def SameUnits (s t : State) : Prop := { t.dev with words := s.dev.words } = s.dev

/-- As `SameUnits`, but for what has been sent. -/
def SameUnitsBut (out : List Out) (s t : State) : Prop := { t.dev with words := s.dev.words, out := s.dev.out } = s.dev ∧ t.dev.out = s.dev.out ++ out

/-- The message of MSI-X vector v of function f has been sent, or is pending where the vector is masked (R66). -/
def MsixSent (s t : State) (f v : Nat) : Prop :=
  if s.dev.msix.masked.contains (f, v) then t.dev.out = s.dev.out ∧ t.dev.msix.pend.contains (f, v) = true else t.dev.out = s.dev.out ++ [.msix f v]

/-- A reset: what lies beside the register words is as right after power-on, but for the time, what is sensed outside the gateway and the
rails, what R325 and R358 keep, and the model's own count of free values. -/
def BackToReset (s t : State) : Prop :=
  { Dev.reset with words := t.dev.words, now := s.dev.now, rstAt := s.dev.now, railsBad := t.dev.railsBad, slotBad := t.dev.slotBad, out := t.dev.out, freeCtr := t.dev.freeCtr, trngCtr := s.dev.trngCtr, faSettled := s.dev.faSettled, refLost := s.dev.refLost, profile := t.dev.profile, storageKey := t.dev.storageKey, inReset := true } = t.dev ∧
  (s.dev.mailbox = none → t.dev.slotBad = s.dev.slotBad)

/-- No operation, collective or waiting piece of this gateway is in flight, and no ACCEDE is held. -/
abbrev NothingWaits (s : State) : Prop := s.dev.ops = [] ∧ s.dev.colls = [] ∧ s.dev.tourWait = [] ∧ s.dev.heldAccedes = []

/-- The last control message queued, where it is an accession message: the site it goes to, its type (Table 6.1), STATUS and
DST_STREAM. -/
def lastAccession (d : Dev) : Option (Nat × Nat × Nat × Nat) :=
  match d.ctlQ.getLast? with
  | some (x, .accession typ m) => some (x, typ, m.status.toNat, m.dst.toNat)
  | _ => none

/-- Segment g, of whole sequence number seq, meets a context of its generation that is open or draining, in the right Catalogue phase,
inside the window granted, has not arrived before (steps 1 to 3 of R168), and the home wing of the context works (R374). -/
abbrev InWindow (s : State) (g : Segment) (seq : Nat) : Prop :=
  s.dev.f R.STREAM_CTL.ENABLE = 1 ∧ s.dev.cepOk g.cep = true ∧
  ((s.dev.ctx g.dst.toNat).state = .opened ∨ (s.dev.ctx g.dst.toNat).state = .draining) ∧ (s.dev.ctx g.dst.toNat).gen = g.gen.toNat ∧
  wholeSeq (s.dev.ctx g.dst.toNat).rcvCum g.seq.toNat = (seq : Int) ∧ (s.dev.ctx g.dst.toNat).rcvCum ≤ seq ∧
  seq ∉ (s.dev.ctx g.dst.toNat).rcvd ∧ (s.dev.ctx g.dst.toNat).held.any (fun h => h.seq == seq) = false ∧
  seq < (s.dev.ctx g.dst.toNat).rcvCum + 2 ^ 20 ∧ seq < (s.dev.ctx g.dst.toNat).granted ∧ s.dev.wingEnabled (s.dev.ctx g.dst.toNat).home = true

/-- The half-key that opens segment g (R316). -/
abbrev openHalf (s : State) (g : Segment) : Option HalfKey :=
  s.dev.half (halfIx (s.dev.ctx g.dst.toNat).pair (b2n g.kph) (1 - s.dev.outHalf (s.dev.ctx g.dst.toNat).site))

/-- Entry e is the next of wing w, its slot has come within LATE_GRACE, it does not conflict, and its carrier is in its group (R225 to
R229): it runs. -/
abbrev EntryRuns (s : State) (w : Nat) (e : ItinEntry) : Prop :=
  s.dev.dueEntry w = some e ∧ s.dev.conflict (entryCarrier w e) e = false ∧ -s.dev.grace ≤ diff40 e.slot s.dev.ns40 ∧
  s.dev.carOut (entryCarrier w e) = false

/-- What running an entry of wing w leaves in the wing's own counters: NEXT, EXECUTED and the entries of this edge one further (R225). -/
abbrev EntryCounted (s t : State) (w : Nat) : Prop :=
  t.dev.f R.ITIN_STAT_NEXT.NEXT w = (s.dev.f R.ITIN_STAT_NEXT.NEXT w + 1) % 2 ^ 15 ∧
  t.dev.f R.ITIN_STAT_EXECUTED.EXECUTED w = min (s.dev.f R.ITIN_STAT_EXECUTED.EXECUTED w + 1) (2 ^ 64 - 1) ∧
  t.dev.launched w = s.dev.launched w + 1

/-- A message that names site and GW_ID comes from peer p of the active plan (Table 8.6, R274). -/
abbrev FromPeer (s : State) (site gw p : Nat) : Prop := s.dev.identOk site gw = true ∧ s.dev.peerOf site = some p

/-- SEQ of a load channel (R313). -/
abbrev Machine.Dev.loadSeq (d : Dev) (f ch : Nat) : Nat := ((d.loadRes.find? (fun e => e.1 == 16 * f + ch)).map (fun e => e.2.1)).getD 0

/-- The load channel's SEQ has risen by one, its STATUS is st and its bytes are zeroed (R313). -/
abbrev LoadEnds (s t : State) (f ch st : Nat) : Prop :=
  t.dev.loadRes.find? (fun e => e.1 == 16 * f + ch) = some (16 * f + ch, (s.dev.loadSeq f ch + 1) % 65536, st) ∧
  t.dev.loadRecs.any (fun e => e.1 == 16 * f + ch) = false

/-- An LRM packet of a type arrives on a logical port that is up, passes the checks of R331, is not sampled, and its tenant is not
metered. -/
abbrev LrmArrives (s : State) (p : Nat) (m : LrmPacket) (typ : Nat) : Prop :=
  s.dev.f R.FAB_CTL.ENABLE = 1 ∧ s.dev.lportUp p = true ∧ s.dev.f R.FAB_HS.EN = 0 ∧ s.dev.lrmOk m.raw = true ∧ (lrmParse m.raw).typ = typ ∧
  s.dev.f R.FTEN.EN (lrmParse m.raw).tenant = 0

/-- The commands that start a descriptor of ring n, with the opcode and, where it matters, the kind of the descriptor (Table 1.9). -/
def startCommands (n : Fin 4096) : List (Instr × Nat × Option Nat) :=
  [(.nop n, 0, none), (.put n, 1, none), (.get n, 2, none), (.putReduce n, 3, none), (.atomic n, 4, none), (.signal n, 5, none),
   (.fence n, 6, none), (.deltaPut n, 7, none), (.allReduce n, 0x10, some 0), (.reduceScatter n, 0x10, some 1), (.allGather n, 0x10, some 2),
   (.broadcast n, 0x10, some 3), (.tablePublishCodec n, 0x20, some 0), (.tablePublishCatalogue n, 0x20, some 1),
   (.tablePublishPage n, 0x20, some 2)]

/-- The commands that stand for an entry of wing w's Itinerary, each with the OP of its entry (R224, Table 8.2). -/
def itinCommands (w : Fin 4) : List (Instr × Nat) :=
  [(.itineraryNop w, 0), (.retune w, 1), (.windowOpen w, 2), (.windowClose w, 3), (.park w, 4), (.wake w, 5), (.phaseStart w, 6), (.heaterFf w, 7)]

end Sys2Proof
end

