-- ==== Sys2Proof/Certificates/Slice0/Obligations.lean ====
section
/-! DEFINITION. The statements about this model. A clause `Completes c s P` says that command `c` answers a next state from `s`, of
which `P` holds. Fields are read by `Dev.f` (`R.<register>.<field>`, instance number last) and words by `Dev.word`. -/

open Sys2Proof Sys2Proof.Machine

/-- A step is the command at the front of the queue, run on the state that holds the rest of the queue (spec section "Every step and what it holds"
(95_what_each_step_holds.md), notes/assumptions/4.md). The model's choices: log entry 4 (commands come by a queue, first in, first out). -/
def Obligations.StepRunsTheFrontCommand : Prop :=
  ∀ (c : Instr) (rest : List Instr) (s : State), Machine.step (s.withPending (c :: rest)) = Machine.exec c (s.withPending rest)

/-- With no command waiting a step is one edge of the TIME clock and nothing else: every unit but the timebase, its remainder and its slew
stays (R190, notes/assumptions/4.md). The model's choices: log entry 4 (an edge of the TIME clock is what a step on an empty queue is). -/
def Obligations.IdleStepIsOneTick : Prop :=
  ∀ s : State, s.pending = [] →
    ∃ t, Machine.step s = .next t ∧ t.dev.now = s.dev.now + 1 ∧ t.pending = [] ∧ t.mem = s.mem ∧
      { t.dev with now := s.dev.now, tb := s.dev.tb, tbRem := s.dev.tbRem, slew := s.dev.slew } = s.dev ∧
      t.dev.slew = s.dev.slew - s.dev.slewNow ∧
      (s.dev.yBase = 0 → s.dev.slewNow = 0 → s.dev.tbRem = 0 → t.dev.tb = (s.dev.tb + 65536) % tbMod)

/-- No command stops the gateway, and none touches the commands that wait behind it (spec section "Every step and what it holds"
(95_what_each_step_holds.md), notes/assumptions/20.md, notes/assumptions/4.md). The model's choices: log entry 20 (a command whose conditions do not
hold changes nothing, so that every command completes from every state), log entry 4 (the queue of waiting commands). -/
def Obligations.EveryCommandCompletesAndKeepsTheQueue : Prop :=
  ∀ (c : Instr) (s : State), Completes c s (fun t => t.pending = s.pending)

/-- Right after power-on the memory and the register table have their canonical form and no command waits (R355, R10). -/
def Obligations.ResetStateIsCanonical : Prop := Wf State.reset ∧ State.reset.pending = []

/-- Every step keeps the memory in its canonical form (R55, R65, R72, R346, R355, R366). -/
def Obligations.StepKeepsMemoryCanonical : Prop :=
  ∀ s t : State, memWf s.mem → Machine.step s = .next t → memWf t.mem

/-- Every step keeps the register table in its canonical form (R9, R10, R355). -/
def Obligations.StepKeepsRegistersCanonical : Prop :=
  ∀ s t : State, tabWf resetWord s.dev.words → Machine.step s = .next t → tabWf resetWord t.dev.words

/-- A BAR0 write of another size or alignment, or one that BAR0 does not serve yet, changes nothing (R9, R359). -/
def Obligations.RegisterWritesThatHaveNoEffect : Prop :=
  (∀ (off size : Nat) (v : Word) (s : State), ¬ (size = 8 ∧ off % 8 = 0) → ¬ (size = 4 ∧ off % 4 = 0) →
    Machine.exec (.registerWrite off size v) s = .next s) ∧
  (∀ (off size : Nat) (v : Word) (s : State), s.dev.f R.SYS_BOOT.STATE ≠ 4 → earlyKey off = false → off % 8 = 0 →
    Machine.exec (.registerWrite off size v) s = .next s)

/-- A BAR0 register write completes, each field of the registers named taking the data as its change class gives, and nothing else changes (R9, R11,
R12, R402, notes/assumptions/86.md). The model's choices: log entry 86 (the same cycle as a boundary is the same tick of the TIME clock). -/
def Obligations.RegisterWriteTakesEachFieldByItsClass : Prop :=
  (∀ (v : Word) (s : State), s.dev.f R.SYS_BOOT.STATE = 4 →
    Completes (.registerWrite 0x700038 8 v) s (fun t =>
      t.dev.f R.STREAM_TIMER.RCPT_INT = bitsOf v 0 16 ∧ t.dev.f R.STREAM_TIMER.RCPT_CNT = bitsOf v 16 8 ∧
      t.dev.f R.STREAM_TIMER.DUP_THR = bitsOf v 24 4 ∧ t.dev.f R.STREAM_TIMER.RTO_MIN = bitsOf v 32 16 ∧
      t.dev.f R.STREAM_TIMER.RTO_MAX = bitsOf v 48 16 ∧ SameMem s t ∧ SameUnits s t ∧ SameWords s t [0x700038])) ∧
  (∀ (v : Word) (s : State), s.dev.f R.SYS_BOOT.STATE = 4 →
    Completes (.registerWrite 0x700038 4 v) s (fun t =>
      t.dev.f R.STREAM_TIMER.RCPT_INT = bitsOf v 0 16 ∧ t.dev.f R.STREAM_TIMER.RCPT_CNT = bitsOf v 16 8 ∧
      t.dev.f R.STREAM_TIMER.RTO_MIN = s.dev.f R.STREAM_TIMER.RTO_MIN ∧ t.dev.f R.STREAM_TIMER.RTO_MAX = s.dev.f R.STREAM_TIMER.RTO_MAX ∧
      SameMem s t ∧ SameUnits s t ∧ SameWords s t [0x700038])) ∧
  (∀ (v : Word) (s : State), s.dev.f R.SYS_BOOT.STATE = 4 →
    Completes (.registerWrite 0x70003C 4 v) s (fun t =>
      t.dev.f R.STREAM_TIMER.RCPT_INT = s.dev.f R.STREAM_TIMER.RCPT_INT ∧ t.dev.f R.STREAM_TIMER.RCPT_CNT = s.dev.f R.STREAM_TIMER.RCPT_CNT ∧
      t.dev.f R.STREAM_TIMER.RTO_MIN = bitsOf v 0 16 ∧ t.dev.f R.STREAM_TIMER.RTO_MAX = bitsOf v 16 16 ∧
      SameMem s t ∧ SameUnits s t ∧ SameWords s t [0x700038])) ∧
  (∀ (v : Word) (s : State), s.dev.f R.SYS_BOOT.STATE = 4 →
    Completes (.registerWrite 0xD00010 8 v) s (fun t => SameMem s t ∧ SameUnits s t ∧ SameWords s t [0xD00010, R.HEALTH_ERR.BUSY.key 0] ∧
      (s.dev.f R.HEALTH_CTL.ENABLE = 0 → t.dev.f R.HEALTH_ALM_BASE.ADDR = bitsOf v 0 40 ∧ t.dev.f R.HEALTH_ALM_BASE.SIZE_LOG = bitsOf v 40 5 ∧
        t.dev.f R.HEALTH_ERR.BUSY = s.dev.f R.HEALTH_ERR.BUSY) ∧
      (s.dev.f R.HEALTH_CTL.ENABLE = 1 → t.dev.f R.HEALTH_ALM_BASE.ADDR = s.dev.f R.HEALTH_ALM_BASE.ADDR ∧
        t.dev.f R.HEALTH_ALM_BASE.SIZE_LOG = s.dev.f R.HEALTH_ALM_BASE.SIZE_LOG ∧
        t.dev.f R.HEALTH_ERR.BUSY =
          if s.dev.f R.HEALTH_ALM_BASE.ADDR = bitsOf v 0 40 ∧ s.dev.f R.HEALTH_ALM_BASE.SIZE_LOG = bitsOf v 40 5 then
            s.dev.f R.HEALTH_ERR.BUSY else 1))) ∧
  (∀ (n : Fin 4096) (v : Word) (s : State), s.dev.f R.SYS_BOOT.STATE = 4 →
    Completes (.registerWrite (0x800020 + 0x40 * n.val) 8 v) s (fun t =>
      t.dev.f R.SQ_ERR.BUSY n = (if v.getLsbD 0 then 0 else s.dev.f R.SQ_ERR.BUSY n) ∧
      t.dev.f R.SQ_ERR.MISMATCH n = (if v.getLsbD 1 then 0 else s.dev.f R.SQ_ERR.MISMATCH n) ∧
      t.dev.f R.SQ_ERR.DB_RANGE n = (if v.getLsbD 2 then 0 else s.dev.f R.SQ_ERR.DB_RANGE n) ∧
      t.dev.f R.SQ_ERR.FETCH n = (if v.getLsbD 3 then 0 else s.dev.f R.SQ_ERR.FETCH n) ∧
      SameMem s t ∧ SameUnits s t ∧ SameWords s t [R.SQ_ERR.BUSY.key n])) ∧
  (∀ (v : Word) (s : State), s.dev.f R.SYS_BOOT.STATE = 4 →
    Completes (.registerWrite 0x90000C 4 v) s (fun t =>
      (t.dev.f R.FAB_ERR.DUP_RESP = if bitsOf v 0 16 = 0 then 0 else s.dev.f R.FAB_ERR.DUP_RESP) ∧
      SameMem s t ∧ SameUnits s t ∧ SameWords s t [R.FAB_ERR.DUP_RESP.key 0])) ∧
  (∀ (v : Word) (s : State), s.dev.f R.SYS_BOOT.STATE = 4 → (∀ e ∈ s.dev.shadowAt, e.2.1 ≤ s.dev.now) →
    Completes (.registerWrite 0x300000 8 v) s (fun t => t.dev.f R.ITIN_CTL.MODE = bitsOf v 1 1 ∧ t.dev.f R.ITIN_CTL.ENABLE = bitsOf v 0 1 ∧
      t.dev.itinMode = s.dev.itinMode ∧ t.dev.shadow 4 = s.dev.shadow 4 ∧
      { t.dev with now := t.dev.now + 1 }.shadow 4 = bitsOf v 1 1 ∧ SameMem s t ∧
      { t.dev with words := s.dev.words, shadowAt := s.dev.shadowAt } = s.dev ∧ SameWords s t [0x300000]))

/-- For a register without counters, a 32-bit write changes no bit of the half it does not address, whatever the classes of its
fields (R9, R11, R402). -/
def Obligations.HalfWordWriteKeepsTheOtherHalf : Prop :=
  ∀ (fields : List LField) (dis : Bool) (l : Lanes) (old new : Word), (∀ g ∈ fields, g.kind ≠ .cnt) →
    (writeWord fields dis l old new).1 &&& ~~~(laneMask l) = old &&& ~~~(laneMask l)

/-- A register write changes no bit that lies in no writable field: read-only fields and reserved bits stay (R9, R10, R11). -/
def Obligations.WriteKeepsReadOnlyAndReservedBits : Prop :=
  ∀ (d : Dev) (key : Nat) (dis : Bool) (l : Lanes) (v : Word) (r : LReg) (i lo n : Nat), findReg layout key = some (r, i) →
    (∀ g ∈ r.fields, g.kind ≠ .ro → g.lo + g.w ≤ lo ∨ lo + n ≤ g.lo) →
    bitsOf ((d.writeFields key dis l v).1.word key) lo n = bitsOf (d.word key) lo n

/-- GLOBAL_TBL_DATA reads or writes the selected table word and advances the selector (R15, R16, R22). -/
def Obligations.TableAccessFollowsTheSelector : Prop :=
  (∀ s : State, s.dev.f R.SYS_BOOT.STATE = 4 → s.dev.f R.GLOBAL_TBL_SEL.TABLE = 3 → s.dev.f R.GLOBAL_TBL_SEL.WORD = 0 →
    Completes (.globalTblDataAccess .read) s (fun t =>
      t.dev.out = s.dev.out ++ [.readData (s.dev.word (tblKey 3 (s.dev.f R.GLOBAL_TBL_SEL.INDEX) 0))] ∧ SameMem s t ∧
      SameWords s t [R.GLOBAL_TBL_SEL.INDEX.key 0] ∧
      t.dev.f R.GLOBAL_TBL_SEL.INDEX =
        if s.dev.f R.GLOBAL_TBL_SEL.AUTOINC = 0 then s.dev.f R.GLOBAL_TBL_SEL.INDEX else (s.dev.f R.GLOBAL_TBL_SEL.INDEX + 1) % 2 ^ 22)) ∧
  (∀ s : State, s.dev.f R.SYS_BOOT.STATE = 4 → s.dev.f R.GLOBAL_TBL_SEL.TABLE = 4 → s.dev.f R.GLOBAL_TBL_SEL.WORD = 3 →
      s.dev.f R.GLOBAL_TBL_SEL.INDEX < 65536 →
    Completes (.globalTblDataAccess .read) s (fun t => ∃ w, t.dev.out = s.dev.out ++ [.readData w] ∧ bitsOf w 0 32 = 0 ∧
      bitsOf w 32 32 = bitsOf (s.dev.word (tblKey 4 (s.dev.f R.GLOBAL_TBL_SEL.INDEX) 3)) 32 32)) ∧
  (∀ (v : Word) (s : State), s.dev.f R.SYS_BOOT.STATE = 4 → s.dev.f R.GLOBAL_TBL_SEL.TABLE = 3 → s.dev.f R.GLOBAL_TBL_SEL.WORD = 0 →
    Completes (.globalTblDataAccess (.write .full v)) s (fun t =>
      t.dev.f R.REGISTRAR.SITE (s.dev.f R.GLOBAL_TBL_SEL.INDEX) = bitsOf v 1 5 ∧ SameMem s t)) ∧
  (∀ (v : Word) (s : State), s.dev.f R.SYS_BOOT.STATE = 4 → s.dev.f R.GLOBAL_TBL_SEL.TABLE = 1 → s.dev.f R.GLOBAL_TBL_SEL.WORD = 0 →
      s.dev.f R.GLOBAL_TBL_SEL.INDEX < 4096 → s.dev.f R.JOB.VALID (s.dev.f R.GLOBAL_TBL_SEL.INDEX) = 0 →
      s.dev.jobIdle (s.dev.f R.GLOBAL_TBL_SEL.INDEX) = true → v.getLsbD 0 = true → bitsOf v 11 23 = 0 →
    Completes (.globalTblDataAccess (.write .full v)) s (fun t =>
      t.dev.f R.JOB.VALID (s.dev.f R.GLOBAL_TBL_SEL.INDEX) = 0 ∧ t.dev.f R.GLOBAL_ERR.MISMATCH = 1))

/-- A table access with INDEX or WORD out of the table's range sets RANGE, returns 0 on a read, and moves nothing (R16). -/
def Obligations.TableAccessOutOfRangeHasNoEffect : Prop :=
  ∀ (a : Access) (s : State), s.dev.f R.SYS_BOOT.STATE = 4 →
    (match s.dev.f R.GLOBAL_TBL_SEL.TABLE with
      | 0 => 1024 ≤ s.dev.f R.GLOBAL_TBL_SEL.INDEX ∨ 4 ≤ s.dev.f R.GLOBAL_TBL_SEL.WORD
      | 1 => 4096 ≤ s.dev.f R.GLOBAL_TBL_SEL.INDEX ∨ 2 ≤ s.dev.f R.GLOBAL_TBL_SEL.WORD
      | 2 => 262144 ≤ s.dev.f R.GLOBAL_TBL_SEL.INDEX ∨ 1 ≤ s.dev.f R.GLOBAL_TBL_SEL.WORD
      | 3 => 4194304 ≤ s.dev.f R.GLOBAL_TBL_SEL.INDEX ∨ 1 ≤ s.dev.f R.GLOBAL_TBL_SEL.WORD
      | 4 => 65536 ≤ s.dev.f R.GLOBAL_TBL_SEL.INDEX ∨ 4 ≤ s.dev.f R.GLOBAL_TBL_SEL.WORD
      | 5 => 16384 ≤ s.dev.f R.GLOBAL_TBL_SEL.INDEX ∨ 2 ≤ s.dev.f R.GLOBAL_TBL_SEL.WORD
      | _ => True) →
    Completes (.globalTblDataAccess a) s (fun t => t.dev.f R.GLOBAL_ERR.RANGE = 1 ∧ SameMem s t ∧ SameWords s t [R.GLOBAL_ERR.RANGE.key 0] ∧
      (∀ x : Fld, x.key 0 = R.GLOBAL_ERR.RANGE.key 0 → x.lo + x.w ≤ 1 ∨ 2 ≤ x.lo → t.dev.f x = s.dev.f x) ∧
      SameUnitsBut (match a with | .read => [.readData 0] | .write _ _ => []) s t)

/-- An accepted doorbell moves TAIL of its ring or HEAD of its queue to INDEX; one past its bound is refused with DB_RANGE and
no change (R61). -/
def Obligations.DoorbellsMoveTheirIndex : Prop :=
  (∀ (f : Fin 256) (n : Fin 4096) (index : BitVec 32) (s : State), s.dev.f R.SYS_BOOT.STATE = 4 → s.dev.f R.SQ_CTL.LOC n = 0 →
      s.dev.f R.SQ_BIND.SRC n = f → s.dev.f R.SQ_CTL.ENABLE n = 1 → (s.dev.ring n).tear = 0 →
    Completes (.ringDoorbell f n ⟨0, 8⟩ index) s (fun t =>
      let head := s.dev.f R.SQ_STATE.HEAD n
      let tail := s.dev.f R.SQ_STATE.TAIL n
      let d := (index.toNat + 2 ^ 32 - head) % 2 ^ 32
      let ok := (tail + 2 ^ 32 - head) % 2 ^ 32 ≤ d ∧ d ≤ 2 ^ s.dev.f R.SQ_CTL.SIZE_LOG n
      t.dev.f R.SQ_STATE.HEAD n = head ∧ t.dev.f R.SQ_STATE.TAIL n = (if ok then index.toNat else tail) ∧
      t.dev.f R.SQ_ERR.DB_RANGE n = (if ok then s.dev.f R.SQ_ERR.DB_RANGE n else 1) ∧
      SameMem s t ∧ SameUnits s t ∧ SameWords s t [R.SQ_STATE.TAIL.key n, R.SQ_ERR.DB_RANGE.key n])) ∧
  (∀ (f : Fin 256) (q : Fin 4096) (index : BitVec 32) (s : State), s.dev.f R.SYS_BOOT.STATE = 4 → s.dev.f R.CQ_CTL.LOC q = 0 →
      s.dev.f R.CQ_BIND.DST q = f → s.dev.f R.CQ_CTL.ENABLE q = 1 →
    Completes (.queueDoorbell f q ⟨8, 8⟩ index) s (fun t =>
      let head := s.dev.f R.CQ_STATE.HEAD q
      let tail := s.dev.f R.CQ_STATE.TAIL q
      let ok := (index.toNat + 2 ^ 32 - head) % 2 ^ 32 ≤ (tail + 2 ^ 32 - head) % 2 ^ 32
      t.dev.f R.CQ_STATE.TAIL q = tail ∧ t.dev.f R.CQ_STATE.HEAD q = (if ok then index.toNat else head) ∧
      t.dev.f R.CQ_ERR.DB_RANGE q = (if ok then s.dev.f R.CQ_ERR.DB_RANGE q else 1) ∧
      (¬ ok → SameUnits s t) ∧ SameMem s t ∧ SameWords s t [R.CQ_STATE.HEAD.key q, R.CQ_ERR.DB_RANGE.key q]))

/-- A doorbell of another size or at another place of its page changes nothing; one to no matching enabled queue counts DB_DROP; in teardown
it sets DB_RANGE (R59, R60, R61). -/
def Obligations.DoorbellsToNoQueueAreDropped : Prop :=
  (∀ (f : Fin 256) (n off : Fin 4096) (size : Nat) (index : BitVec 32) (s : State),
    (size ≠ 8 ∨ off.val ≠ 0 → Machine.exec (.ringDoorbell f n ⟨off, size⟩ index) s = .next s) ∧
    (size ≠ 8 ∨ off.val ≠ 8 → Machine.exec (.queueDoorbell f n ⟨off, size⟩ index) s = .next s)) ∧
  (∀ (f : Fin 256) (n : Fin 4096) (index : BitVec 32) (s : State), s.dev.f R.SYS_BOOT.STATE = 4 →
      s.dev.f R.SQ_CTL.LOC n = 1 ∨ s.dev.f R.SQ_BIND.SRC n ≠ f ∨ s.dev.f R.SQ_CTL.ENABLE n = 0 ∧ (s.dev.ring n).tear = 0 →
    Completes (.ringDoorbell f n ⟨0, 8⟩ index) s (fun t => t.dev.f R.RING_GERR.DB_DROP = min (s.dev.f R.RING_GERR.DB_DROP + 1) (2 ^ 32 - 1) ∧
      SameMem s t ∧ SameUnits s t ∧ SameWords s t [R.RING_GERR.DB_DROP.key 0])) ∧
  (∀ (f : Fin 256) (q : Fin 4096) (index : BitVec 32) (s : State), s.dev.f R.SYS_BOOT.STATE = 4 →
      s.dev.f R.CQ_CTL.LOC q = 1 ∨ s.dev.f R.CQ_BIND.DST q ≠ f ∨ s.dev.f R.CQ_CTL.ENABLE q = 0 →
    Completes (.queueDoorbell f q ⟨8, 8⟩ index) s (fun t => t.dev.f R.RING_GERR.DB_DROP = min (s.dev.f R.RING_GERR.DB_DROP + 1) (2 ^ 32 - 1) ∧
      SameMem s t ∧ SameUnits s t ∧ SameWords s t [R.RING_GERR.DB_DROP.key 0])) ∧
  (∀ (f : Fin 256) (n : Fin 4096) (index : BitVec 32) (s : State), s.dev.f R.SYS_BOOT.STATE = 4 → s.dev.f R.SQ_CTL.LOC n = 0 →
      s.dev.f R.SQ_BIND.SRC n = f → (s.dev.ring n).tear ≠ 0 →
    Completes (.ringDoorbell f n ⟨0, 8⟩ index) s (fun t => t.dev.f R.SQ_ERR.DB_RANGE n = 1 ∧ SameMem s t ∧ SameUnits s t ∧ SameWords s t [R.SQ_ERR.DB_RANGE.key n]))

/-- An accepted doorbell of a host queue (LOC 0) re-arms it and fires it when enough records wait; its coalescing timer fires an armed queue with
records (R61, R66, notes/assumptions/20.md, notes/assumptions/127.md). The model's choices: log entry 20 (a COALESCING_TIMER before its time changes
nothing), log entry 127 (how a vector is masked). -/
def Obligations.QueuesRearmAndFire : Prop :=
  (∀ (f : Fin 256) (q : Fin 4096) (index : BitVec 32) (s : State), s.dev.f R.SYS_BOOT.STATE = 4 → s.dev.f R.CQ_CTL.LOC q = 0 →
      s.dev.f R.CQ_BIND.DST q = f → s.dev.f R.CQ_CTL.ENABLE q = 1 →
      (index.toNat + 2 ^ 32 - s.dev.f R.CQ_STATE.HEAD q) % 2 ^ 32 ≤ (s.dev.f R.CQ_STATE.TAIL q + 2 ^ 32 - s.dev.f R.CQ_STATE.HEAD q) % 2 ^ 32 →
    Completes (.queueDoorbell f q ⟨8, 8⟩ index) s (fun t =>
      let p := (s.dev.f R.CQ_STATE.TAIL q + 2 ^ 32 - index.toNat) % 2 ^ 32
      SameMem s t ∧ SameWords s t [R.CQ_STATE.HEAD.key q] ∧
      if p < max (s.dev.f R.CQ_COAL.COUNT q) 1 then
        (t.dev.cq q).armed = true ∧ (t.dev.cq q).p = p ∧ (t.dev.cq q).timer.isSome = decide (0 < p) ∧ t.dev.out = s.dev.out
      else
        (t.dev.cq q).armed = false ∧ (t.dev.cq q).p = 0 ∧ (t.dev.cq q).timer = none ∧
          MsixSent s t (s.dev.f R.CQ_BIND.DST q) (s.dev.f R.CQ_CTL.VECTOR q))) ∧
  (∀ (q : Fin 4096) (t0 time : Nat) (s : State), (s.dev.cq q).timer = some (t0, time) → time ≠ 0 → 1000 * time ≤ s.dev.now - t0 →
      s.dev.f R.CQ_CTL.LOC q = 0 →
    Completes (.coalescingTimer q) s (fun t => (t.dev.cq q).timer = none ∧ SameMem s t ∧ SameWords s t [] ∧
      if (s.dev.cq q).armed = true ∧ 0 < (s.dev.cq q).p then
        (t.dev.cq q).armed = false ∧ (t.dev.cq q).p = 0 ∧
          MsixSent s t (s.dev.f R.CQ_BIND.DST q) (s.dev.f R.CQ_CTL.VECTOR q)
      else (t.dev.cq q).armed = (s.dev.cq q).armed ∧ (t.dev.cq q).p = (s.dev.cq q).p ∧ t.dev.out = s.dev.out)) ∧
  (∀ (q : Fin 4096) (t0 time : Nat) (s : State), (s.dev.cq q).timer = some (t0, time) → s.dev.now - t0 < 1000 * time →
    Completes (.coalescingTimer q) s (fun t => t = s))

/-- A fetch reserves completion slots and reads descriptors; a failed read disables the ring; SQ_ABORT tears it down; unfetched descriptors end
ABORTED one by one (R55, R56, R57, R58, R59, R63, notes/assumptions/8.md, notes/assumptions/22.md). The model's choices: log entry 8 (the ring
selected, and one read of consecutive descriptors under way), log entry 22 (SQ_ABORT sets ENABLE to 0 at once, and fetched descriptors that have not
started are gone with it). -/
def Obligations.DescriptorsAreFetchedOrGivenUp : Prop :=
  (∀ (n : Nat) (s : State), s.dev.selectRing = some n →
    Completes .descriptorFetch s (fun t =>
      (t.dev.ring n).reading = some (s.dev.nextTag, s.dev.fetchCount n) ∧ t.dev.nextTag = (s.dev.nextTag + 1) % 2 ^ 32 ∧
      t.dev.f R.CQ_CREDIT.RESERVED (s.dev.f R.SQ_CTL.CQ n) =
        min (s.dev.f R.CQ_CREDIT.RESERVED (s.dev.f R.SQ_CTL.CQ n) + s.dev.fetchCount n) (2 ^ 32 - 1) ∧
      (∃ r ∈ t.dev.reqs, r.tag = s.dev.nextTag ∧ r.use = .fetch n ∧ r.len = 64 * s.dev.fetchCount n ∧
        r.addr = (s.dev.f R.SQ_BASE.ADDR n + 64 * (s.dev.f R.SQ_STATE.HEAD n % 2 ^ s.dev.f R.SQ_CTL.SIZE_LOG n)) % 2 ^ 64) ∧ SameMem s t)) ∧
  (∀ (n : Fin 4096) (tag k : Nat) (s : State), (s.dev.ring n).reading = some (tag, k) →
    Completes (.fetchFailed n) s (fun t => t.dev.f R.SQ_ERR.FETCH n = 1 ∧ t.dev.f R.SQ_CTL.ENABLE n = 0 ∧ (t.dev.ring n).reading = none ∧
      t.dev.f R.CQ_CREDIT.RESERVED (s.dev.f R.SQ_CTL.CQ n) = s.dev.f R.CQ_CREDIT.RESERVED (s.dev.f R.SQ_CTL.CQ n) - k ∧ SameMem s t)) ∧
  (∀ (n : Fin 4096) (s : State), s.dev.f R.SYS_BOOT.STATE = 4 → (s.dev.ring n).tear ≠ 1 →
    Completes (.sqAbort n) s (fun t => t.dev.f R.SQ_CTL.ENABLE n = 0 ∧ (t.dev.ring n).reading = none ∧ (t.dev.ring n).fetched = [] ∧
      (s.dev.f R.SQ_STATE.TAIL n ≠ s.dev.f R.SQ_STATE.HEAD n → t.dev.f R.SQ_ABORT.ABORT n = 1 ∧ (t.dev.ring n).tear = 1) ∧ SameMem s t)) ∧
  (∀ (n : Fin 4096) (readOk writeOk : Bool) (s : State), (s.dev.ring n).tear ≠ 0 → s.dev.f R.SQ_STATE.TAIL n ≠ s.dev.f R.SQ_STATE.HEAD n →
      s.dev.cqCredit (s.dev.f R.SQ_CTL.CQ n) ≠ 0 →
    Completes (.abortRecordWrite n readOk writeOk) s (fun t =>
      t.dev.f R.SQ_STATE.HEAD n = (s.dev.f R.SQ_STATE.HEAD n + 1) % 2 ^ 32 ∧
      t.dev.f R.CQ_STATE.TAIL (s.dev.f R.SQ_CTL.CQ n) = (s.dev.f R.CQ_STATE.TAIL (s.dev.f R.SQ_CTL.CQ n) + 1) % 2 ^ 32))

/-- Writing ENABLE of a ring or queue enables it when its set-up passes R54's checks and the model's own, else sets MISMATCH; static fields of an
enabled one stay (R11, R53, R54, R57, R64, notes/assumptions/24.md). The model's choices: log entry 24 (the own Registrar entry must also be VALID and
name this site, so that sqEnableOk refuses more than the checks of R54). -/
def Obligations.RingsAndQueuesAreEnabledAfterTheirChecks : Prop :=
  (∀ (n : Fin 4096) (v : Word) (s : State), s.dev.f R.SYS_BOOT.STATE = 4 → s.dev.f R.SQ_CTL.ENABLE n = 0 → s.dev.ringIdle n = true →
      v.getLsbD 0 = true →
    Completes (.sqCtlWrite n .full v) s (fun t =>
      let d1 := (s.dev.writeFields (R.SQ_CTL.ENABLE.key n) true .full v).1
      d1.f R.SQ_CTL.SIZE_LOG n = bitsOf v 4 5 ∧ d1.f R.SQ_CTL.TENANT n = bitsOf v 16 10 ∧ d1.f R.SQ_CTL.CQ n = bitsOf v 32 12 ∧
      t.dev.f R.SQ_CTL.ENABLE n = (if d1.sqEnableOk n then 1 else 0) ∧
      t.dev.f R.SQ_ERR.MISMATCH n = (if d1.sqEnableOk n then s.dev.f R.SQ_ERR.MISMATCH n else 1) ∧
      SameMem s t ∧ SameWords s t [R.SQ_CTL.ENABLE.key n, R.SQ_ERR.MISMATCH.key n])) ∧
  (∀ (q : Fin 4096) (v : Word) (s : State), s.dev.f R.SYS_BOOT.STATE = 4 → s.dev.f R.CQ_CTL.ENABLE q = 0 → s.dev.cqIdle q = true →
      v.getLsbD 0 = true →
    Completes (.cqCtlWrite q .full v) s (fun t =>
      let d1 := (s.dev.writeFields (R.CQ_CTL.ENABLE.key q) true .full v).1
      t.dev.f R.CQ_CTL.ENABLE q = (if d1.cqEnableOk q then 1 else 0) ∧
      t.dev.f R.CQ_ERR.MISMATCH q = (if d1.cqEnableOk q then s.dev.f R.CQ_ERR.MISMATCH q else 1) ∧
      (d1.cqEnableOk q = true → (t.dev.cq q).armed = true ∧ (t.dev.cq q).p = 0) ∧ SameMem s t)) ∧
  (∀ (n : Fin 4096) (v : Word) (s : State), s.dev.f R.SYS_BOOT.STATE = 4 → s.dev.f R.SQ_CTL.ENABLE n = 1 →
    Completes (.sqCtlWrite n .full v) s (fun t =>
      t.dev.f R.SQ_CTL.SIZE_LOG n = s.dev.f R.SQ_CTL.SIZE_LOG n ∧ t.dev.f R.SQ_CTL.CQ n = s.dev.f R.SQ_CTL.CQ n ∧
      t.dev.f R.SQ_CTL.ENABLE n = bitsOf v 0 1 ∧ t.dev.f R.SQ_CTL.WEIGHT n = bitsOf v 48 4 ∧
      (s.dev.f R.SQ_CTL.SIZE_LOG n ≠ bitsOf v 4 5 → t.dev.f R.SQ_ERR.BUSY n = 1) ∧ SameMem s t))

/-- The record of a finished operation goes into its queue's next slot; no byte but it and a destination that its failure leaves undefined changes
(R65, R67, R32, notes/assumptions/132.md). The model's choices: log entry 132 (which bytes of a failed destination take free values, before the
record). -/
def Obligations.CompletionRecordsAreWritten : Prop :=
  ∀ (n : Fin 4096) (index : BitVec 32) (writeOk : Bool) (o : Op) (s : State), s.dev.getOp n index.toNat = some o → o.stage = .done →
      s.dev.colls.any (fun c => c.ended.isNone && c.members.any (fun k => k.ring == n.val && k.index == index.toNat)) = false →
      s.dev.f R.CQ_CTL.LOC (s.dev.f R.SQ_CTL.CQ n) = 0 →
    Completes (.completionRecordWrite n index writeOk) s (fun t =>
      let q := s.dev.f R.SQ_CTL.CQ n
      let i := s.dev.f R.CQ_STATE.TAIL q
      let sl := s.dev.f R.CQ_CTL.SIZE_LOG q
      let at_ := memKey (hostSpace (s.dev.f R.CQ_BIND.DST q)) ((s.dev.f R.CQ_BASE.ADDR q + 32 * (i % 2 ^ sl)) % 2 ^ 64)
      (∀ a, if writeOk = true ∧ at_ ≤ a ∧ a < at_ + 32 then memGet t.mem a = (recBytes (s.dev.opRec o) (phaseOf sl i)).getD (a - at_) 0
        else (∀ r ∈ s.dev.undefDest o, a < s.dev.winKey r.1 r.2.1 ∨ s.dev.winKey r.1 r.2.1 + r.2.2 ≤ a) → memGet t.mem a = memGet s.mem a) ∧
      (o.admitted = true → o.verdict.status = 0 ∨ o.verdict.status = 0x10 → o.d.opcode ≠ 0x10 → s.dev.undefDest o = []) ∧
      (o.admitted = true → o.verdict.status = 0x0F → o.d.opcode = 2 → s.dev.undefDest o = [(o.lwin, o.d.loff, o.d.len)]) ∧
      t.dev.f R.CQ_STATE.TAIL q = (i + 1) % 2 ^ 32 ∧ t.dev.f R.RING_RETAIN.TAIL q = (i + 1) % 2 ^ 32 ∧ t.dev.f R.RING_RETAIN.VALID q = 1 ∧
      (writeOk = false → t.dev.f R.CQ_ERR.WRITE q = 1) ∧ t.dev.getOp n index.toNat = none)

/-- Whatever its opcode, the descriptor at the front of a ring is held back by a covering FENCE, or takes the status and DETAIL of the first failing
check (R29, R38, R62, notes/assumptions/36.md). The model's choices: log entry 36 (a FENCE is not held back by an earlier FENCE). -/
def Obligations.StartedDescriptorsAreCheckedOrHeld : Prop :=
  ∀ (n : Fin 4096) (c : Instr) (op : Nat) (kind : Option Nat) (i : Nat) (x : Desc) (rest : List (Nat × Desc)) (s : State),
    (c, op, kind) ∈ startCommands n → (s.dev.ring n).fetched = (i, x) :: rest → x.opcode = op → (∀ k, kind = some k → x.kind = k) →
    s.dev.getOp n i = none →
    Completes c s (fun t => (t.dev.ring n).fetched = rest ∧ SameMem s t ∧
      (fenceHeld (s.dev.opsOf n) x = true → ∃ o, t.dev.getOp n i = some o ∧ o.stage = .held ∧ o.d = x) ∧
      (fenceHeld (s.dev.opsOf n) x = false → ∀ v, s.dev.submitCheck n x s.mem = some v →
        ∃ o, t.dev.getOp n i = some o ∧ o.stage = .done ∧ o.verdict = v ∧ o.d = x))

/-- PUT, GET, PUT_REDUCE, ATOMIC and SIGNAL toward another site that pass their checks run on the OPEN context of their job and
site (R29, R32, R33, R35, R37, R165). -/
def Obligations.RemoteOperationsJoinTheirContext : Prop :=
  ∀ (n : Fin 4096) (p : Instr × Nat) (i c : Nat) (x : Desc) (rest : List (Nat × Desc)) (s : State),
    p ∈ [(Instr.put n, 1), (Instr.get n, 2), (Instr.putReduce n, 3), (Instr.atomic n, 4), (Instr.signal n, 5)] →
    (s.dev.ring n).fetched = (i, x) :: rest → x.opcode = p.2 → s.dev.getOp n i = none → fenceHeld (s.dev.opsOf n) x = false →
    s.dev.submitCheck n x s.mem = none →
    let job := s.dev.f R.SQ_BIND.JOB n
    let site := s.dev.f R.REGISTRAR.SITE (s.dev.f R.JOB.REG_BASE job + x.rank)
    site ≠ s.dev.site → s.dev.ctxOf ⟨job, site, 0, 0⟩ = some c → (s.dev.ctx c).state = .opened → (s.dev.opsOn c).length < 65536 →
    s.dev.waiters ⟨job, site, 0, 0⟩ = [] →
    Completes p.1 s (fun t => SameMem s t ∧ (∃ o, t.dev.getOp n i = some o ∧ o.stage = .running ∧ o.ctx = some c ∧ o.d = x) ∧
      (t.dev.ctx c).sendq.length = (s.dev.ctx c).sendq.length + 1)

/-- An operation whose target rank stands at this site runs at once after the target's own checks (R24, R30, R32, R35, R36,
R37). -/
def Obligations.LocalOperationsRunAtOnce : Prop :=
  ∀ (n : Fin 4096) (p : Instr × Nat) (i : Nat) (x : Desc) (rest : List (Nat × Desc)) (s : State),
    p ∈ [(Instr.put n, 1), (Instr.get n, 2), (Instr.putReduce n, 3), (Instr.atomic n, 4), (Instr.signal n, 5)] →
    (s.dev.ring n).fetched = (i, x) :: rest → x.opcode = p.2 → s.dev.getOp n i = none → fenceHeld (s.dev.opsOf n) x = false →
    s.dev.submitCheck n x s.mem = none →
    s.dev.f R.REGISTRAR.SITE (s.dev.f R.JOB.REG_BASE (s.dev.f R.SQ_BIND.JOB n) + x.rank) = s.dev.site →
    Completes p.1 s (fun t => SameMem s t ∧
      let st := s.dev.targetCheck (s.dev.f R.SQ_CTL.TENANT n) (s.dev.f R.JOB.JOB_ID (s.dev.f R.SQ_BIND.JOB n)) (s.dev.xlatWin n x.rank x.rord)
        x.rord x.token x.opcode x.roff (if x.opcode = 4 ∨ x.opcode = 5 then 8 else x.len)
      ∃ o, t.dev.getOp n i = some o ∧ o.d = x ∧
        if st = 0 then o.stage = .running ∧ (x.opcode = 4 ∨ x.opcode = 5 → t.dev.atomics.length = s.dev.atomics.length + 1)
        else o.stage = .done ∧ o.verdict = ⟨st, 0⟩)

/-- A NOP is done with OK, a FENCE waits until its release, a DELTA_PUT with an OPEN context takes its slot and runs, the first on an EMPTY one
binding it (R29, R38, R40, R42, R50, R62, notes/assumptions/36.md). The model's choices: log entry 36 (a FENCE is not held back by an earlier FENCE,
so its clause has no such premise), log entry 19 (of a delta slot in use). -/
def Obligations.NopsFencesAndDeltasAreAdmitted : Prop :=
  (∀ (n : Fin 4096) (i : Nat) (x : Desc) (rest : List (Nat × Desc)) (s : State), (s.dev.ring n).fetched = (i, x) :: rest → x.opcode = 0 →
      s.dev.getOp n i = none → fenceHeld (s.dev.opsOf n) x = false → s.dev.submitCheck n x s.mem = none →
    Completes (.nop n) s (fun t => SameMem s t ∧ ∃ o, t.dev.getOp n i = some o ∧ o.stage = .done ∧ o.verdict = ⟨0, 0⟩)) ∧
  (∀ (n : Fin 4096) (i : Nat) (x : Desc) (rest : List (Nat × Desc)) (s : State), (s.dev.ring n).fetched = (i, x) :: rest → x.opcode = 6 →
      s.dev.getOp n i = none → s.dev.submitCheck n x s.mem = none →
    Completes (.fence n) s (fun t => SameMem s t ∧ ∃ o, t.dev.getOp n i = some o ∧ o.fencing = true ∧ o.d = x)) ∧
  (∀ (n : Fin 4096) (i c : Nat) (x : Desc) (rest : List (Nat × Desc)) (s : State), (s.dev.ring n).fetched = (i, x) :: rest → x.opcode = 7 →
      s.dev.getOp n i = none → fenceHeld (s.dev.opsOf n) x = false → s.dev.submitCheck n x s.mem = none →
    let job := s.dev.f R.SQ_BIND.JOB n
    let site := s.dev.f R.REGISTRAR.SITE (s.dev.f R.JOB.REG_BASE job + x.rank)
    let slot := s.dev.f R.TENANT.DELTA_BASE (s.dev.f R.SQ_CTL.TENANT n) + x.dslot
    site ≠ s.dev.site → s.dev.ctxOf ⟨job, site, 0, 0⟩ = some c → (s.dev.ctx c).state = .opened → (s.dev.opsOn c).length < 65536 →
    s.dev.waiters ⟨job, site, 0, 0⟩ = [] → s.dev.deltasOut.any (fun y => y.slot == slot && (y.lost || y.fresh)) = false →
    s.dev.f R.DELTA.STATE slot = 1 ∨ s.dev.f R.DELTA.STATE slot = 2 →
    Completes (.deltaPut n) s (fun t => SameMem s t ∧ t.dev.f R.DELTA.STATE slot = 3 ∧
      ∃ o, t.dev.getOp n i = some o ∧ o.stage = .running ∧ o.ctx = some c ∧ o.resync = decide (s.dev.f R.DELTA.STATE slot = 2))) ∧
  (∀ (n : Fin 4096) (f : Op) (s : State), (s.dev.opsOf n).find? (·.fencing) = some f → s.dev.getOp n f.index = some f →
      (s.dev.opsBefore n f.index).any (fun o => o.d.opcode == 6 || fenceCovers f.d o.d) = false →
    Completes (.fenceRelease n) s (fun t => SameMem s t ∧ ∃ o, t.dev.getOp n f.index = some o ∧ o.stage = .done ∧ o.verdict = ⟨0, 0⟩)) ∧
  (∀ (n : Fin 4096) (i c : Nat) (x : Desc) (rest : List (Nat × Desc)) (s : State), (s.dev.ring n).fetched = (i, x) :: rest → x.opcode = 7 →
      s.dev.getOp n i = none → fenceHeld (s.dev.opsOf n) x = false → s.dev.submitCheck n x s.mem = none →
    let job := s.dev.f R.SQ_BIND.JOB n
    let tenant := s.dev.f R.SQ_CTL.TENANT n
    let site := s.dev.f R.REGISTRAR.SITE (s.dev.f R.JOB.REG_BASE job + x.rank)
    let slot := s.dev.f R.TENANT.DELTA_BASE tenant + x.dslot
    let pages := ceilDiv x.len 65536
    let stack := 2 * (s.dev.ctx c).home + (s.dev.ctx c).stack % 2
    site ≠ s.dev.site → s.dev.ctxOf ⟨job, site, 0, 0⟩ = some c → (s.dev.ctx c).state = .opened → (s.dev.opsOn c).length < 65536 →
    s.dev.waiters ⟨job, site, 0, 0⟩ = [] → s.dev.deltasOut.any (fun y => y.slot == slot) = false → s.dev.anchorQ.any (fun e => e.1 == site) = false →
    s.dev.f R.TENANT.PLACE_MODE tenant = 0 → s.dev.f R.STREAM_DFLT.MIRROR = 0 → s.dev.f R.DELTA.STATE slot = 0 →
    Completes (.deltaPut n) s (fun t => SameMem s t ∧ ∃ o, t.dev.getOp n i = some o ∧
      if pages ≤ s.dev.annexLeft tenant ∧ pages ≤ s.dev.stackFree stack then
        t.dev.f R.DELTA.STATE slot = 3 ∧ t.dev.f R.DELTA.FORMAT slot = x.format ∧ t.dev.f R.DELTA.JOB slot = job ∧
        t.dev.f R.DELTA.RANK slot = x.rank ∧ t.dev.f R.DELTA.LEN slot = x.len ∧ (o.stage = .running ∧ o.ctx = some c ∧ o.resync = false) ∧
        ∃ y ∈ t.dev.deltasOut, (y.slot = slot ∧ y.fresh = true ∧ y.snap = List.replicate x.len 0 ∧ y.stack = stack) ∧
          (y.rord = x.rord ∧ y.lord = x.lord ∧ y.roff = x.roff ∧ y.loff = x.loff)
      else t.dev.f R.DELTA.STATE slot = 0 ∧ t.dev.deltasOut = s.dev.deltasOut ∧ o.stage = .done ∧ o.verdict = ⟨0x05, 0⟩))

/-- A COLLECTIVE descriptor that passes its checks joins its collective; a TABLE_PUBLISH starts its publish or installs its image as pending (R29,
R108, R146, R147, R224, R236, notes/assumptions/39.md, notes/assumptions/43.md, notes/assumptions/123.md). The model's choices: log entry 43 (the
image is read when the descriptor is submitted), log entry 39 (the corners of joining a collective), log entry 123 (a codec publish without running
firmware waits). -/
def Obligations.CollectivesAndPublishesAreAdmitted : Prop :=
  (∀ (n : Fin 4096) (c : Instr × Nat) (i : Nat) (x : Desc) (rest : List (Nat × Desc)) (s : State),
      c ∈ [(Instr.allReduce n, 0), (Instr.reduceScatter n, 1), (Instr.allGather n, 2), (Instr.broadcast n, 3)] →
      (s.dev.ring n).fetched = (i, x) :: rest → x.opcode = 0x10 → x.kind = c.2 → s.dev.getOp n i = none →
      fenceHeld (s.dev.opsOf n) x = false → s.dev.submitCheck n x s.mem = none →
    Completes c.1 s (fun t => SameMem s t ∧ (∃ o, t.dev.getOp n i = some o ∧ o.stage = .waiting ∧ o.d = x) ∧
      ∃ k, t.dev.coll x.collId = some k ∧ ∃ a ∈ k.members, a.ring = n ∧ a.index = i)) ∧
  (∀ (n : Fin 4096) (i : Nat) (x : Desc) (rest : List (Nat × Desc)) (s : State), (s.dev.ring n).fetched = (i, x) :: rest → x.opcode = 0x20 →
      x.kind = 0 → s.dev.getOp n i = none → fenceHeld (s.dev.opsOf n) x = false → s.dev.submitCheck n x s.mem = none →
      s.dev.pub s.dev.site s.dev.pubTxn = none → s.dev.f R.CUR_STATE.ALIVE = 1 →
      (∀ site, site < s.dev.sites → (s.dev.peerOf site).all (fun p => s.dev.f R.HEALTH_PEER.STATE p != 2) = true) →
    Completes (.tablePublishCodec n) s (fun t => SameMem s t ∧ t.dev.f R.SLOT.PEND x.pubSlot = 1 ∧
      t.dev.f R.SLOT.ACT_AT x.pubSlot = x.activate ∧ t.dev.pubTxn = (s.dev.pubTxn + 1) % 2 ^ 32)) ∧
  (∀ (n : Fin 4096) (i site p : Nat) (x : Desc) (rest : List (Nat × Desc)) (s : State), (s.dev.ring n).fetched = (i, x) :: rest → x.opcode = 0x20 →
      x.kind = 0 → s.dev.getOp n i = none → fenceHeld (s.dev.opsOf n) x = false → s.dev.submitCheck n x s.mem = none →
      s.dev.pub s.dev.site s.dev.pubTxn = none → s.dev.f R.CUR_STATE.ALIVE = 1 → site ≠ s.dev.site → s.dev.peerOf site = some p → s.dev.f R.HEALTH_PEER.STATE p = 2 →
    Completes (.tablePublishCodec n) s (fun t => SameMem s t ∧ t.dev.f R.SLOT.PEND x.pubSlot = 0 ∧
      t.dev.pubTxn = (s.dev.pubTxn + 1) % 2 ^ 32)) ∧
  (∀ (n : Fin 4096) (i : Nat) (x : Desc) (rest : List (Nat × Desc)) (s : State), (s.dev.ring n).fetched = (i, x) :: rest → x.opcode = 0x20 →
      x.kind = 1 → s.dev.getOp n i = none → fenceHeld (s.dev.opsOf n) x = false → s.dev.submitCheck n x s.mem = none →
    Completes (.tablePublishCatalogue n) s (fun t => SameMem s t ∧ t.dev.f R.CAT_STATE.PEND = 1 ∧ t.dev.f R.CAT_STATE.COMMITTED = 0 ∧
      t.dev.f R.CAT_STATE.ACT_AT = x.activate ∧ t.dev.f R.CAT_ID.PEND_PLAN = catPlan (s.dev.pubImage n x s.mem) % 2 ^ 32 ∧
      t.dev.f R.CAT_READY.READY = 0 ∧ ∃ o, t.dev.getOp n i = some o ∧ o.stage = .done ∧ o.verdict = ⟨0, 0⟩)) ∧
  (∀ (n : Fin 4096) (i : Nat) (x : Desc) (rest : List (Nat × Desc)) (s : State), (s.dev.ring n).fetched = (i, x) :: rest → x.opcode = 0x20 →
      x.kind = 2 → s.dev.getOp n i = none → fenceHeld (s.dev.opsOf n) x = false → s.dev.submitCheck n x s.mem = none →
    Completes (.tablePublishPage n) s (fun t => SameMem s t ∧ t.dev.f R.ITIN_STATE.PEND = 1 ∧ t.dev.f R.ITIN_STATE.COMMITTED = 0 ∧
      t.dev.f R.ITIN_STATE.ACT_AT = x.activate ∧ t.dev.f R.ITIN_ID.PEND_ID = pageId (s.dev.pubImage n x s.mem) % 2 ^ 32 ∧
      t.dev.f R.ITIN_READY.READY = 0 ∧ ∃ o, t.dev.getOp n i = some o ∧ o.stage = .done ∧ o.verdict = ⟨0, 0⟩)) ∧
  (∀ (n : Fin 4096) (i : Nat) (x : Desc) (rest : List (Nat × Desc)) (s : State), (s.dev.ring n).fetched = (i, x) :: rest → x.opcode = 0x20 →
      x.kind = 0 → s.dev.getOp n i = none → fenceHeld (s.dev.opsOf n) x = false → s.dev.submitCheck n x s.mem = none →
      s.dev.f R.CUR_STATE.ALIVE ≠ 1 →
    Completes (.tablePublishCodec n) s (fun t => SameMem s t ∧ t.dev.f R.SLOT.PEND x.pubSlot = s.dev.f R.SLOT.PEND x.pubSlot ∧ t.dev.pubs = s.dev.pubs ∧ t.dev.pubTxn = s.dev.pubTxn ∧
      ∃ o, t.dev.getOp n i = some o ∧ o.stage = .running))

/-- POWER_ON, a rail below 85 % or above its maximum, and RESET_N for 1 us put back every register, unit and queue but those kept, and start the
reset's count (R325, R349, R355, R358, R391, R393, notes/assumptions/1.md, notes/assumptions/2.md, notes/assumptions/60.md). The model's choices: log
entry 1 (a value for every register that the spec gives none), log entry 2 (what memory holds after power-on), log entry 60 (what RESET_N keeps, and
what a power-on drops). -/
def Obligations.ResetsReturnToTheResetState : Prop :=
  (∀ (c : Instr) (s : State), (c = .powerOn ∨ ∃ rail mv, c = .powerRailFault rail mv ∧
      (mv * 100 < 85 * (railLimits (s.dev.profile == 1) rail).1 ∨ (railLimits (s.dev.profile == 1) rail).2.2.2 < mv)) →
    Completes c s (fun t => t.dev.inReset = true ∧ t.dev.rstAt = s.dev.now ∧ (c = .powerOn → t.dev.railsBad = []) ∧
      (∀ rail mv, c = .powerRailFault rail mv → rail ∈ t.dev.railsBad) ∧ t.dev.f R.SYS_RST_CAUSE.POR = 1 ∧ t.dev.f R.SYS_RST_CAUSE.EXT = 0 ∧
      t.dev.f R.GLOBAL_ID.WING_MASK = s.dev.f R.GLOBAL_ID.WING_MASK ∧ t.dev.out = s.dev.out ++ [.pin "RESET_N" false] ∧
      (∀ k, k ∉ [R.GLOBAL_ID.PART.key 0, R.KW_FA.PRESENT.key 0, R.VT_STAT.SEC.key 0, R.SYS_RST_CAUSE.POR.key 0] ++
        (List.range 6).map R.VT_OPKEY.OPKEY.key → t.dev.word k = resetWord k) ∧
      BackToReset s t ∧ t.dev.profile = 0 ∧ t.dev.storageKey = [] ∧
      ∀ a, memGet t.mem a = if a < 16 * 2 ^ 64 then memDefault a else memGet s.mem a)) ∧
  (∀ (lowNs : Nat) (s : State), s.dev.inReset = false → 1000 ≤ lowNs →
    Completes (.resetNAssert lowNs) s (fun t => t.dev.inReset = true ∧ t.dev.rstAt = s.dev.now ∧ t.dev.f R.SYS_RST_CAUSE.POR = 0 ∧ t.dev.f R.SYS_RST_CAUSE.EXT = 1 ∧
      t.dev.f R.SYS_RST_CAUSE.COUNT = min 0xFFFF (s.dev.f R.SYS_RST_CAUSE.COUNT + 1) ∧
      t.dev.f R.SYS_PWR.PROFILE = s.dev.f R.SYS_PWR.PROFILE ∧ t.dev.out = s.dev.out ++ [.pin "RESET_N" false] ∧
      (∀ k, k ∉ [R.GLOBAL_ID.PART.key 0, R.KW_FA.PRESENT.key 0, R.VT_STAT.SEC.key 0, R.SYS_RST_CAUSE.POR.key 0, R.SYS_PWR.PROFILE.key 0] ++
        (List.range 6).map R.VT_OPKEY.OPKEY.key → t.dev.word k = if aonKey k then s.dev.word k else resetWord k) ∧
      BackToReset s t ∧ t.dev.profile = s.dev.profile ∧ t.dev.storageKey = s.dev.storageKey ∧
      t.dev.railsBad = s.dev.railsBad ∧ SameMem s t)) ∧
  (∀ (lowNs : Nat) (s : State), s.dev.inReset = true → 1000 ≤ lowNs →
    Completes (.resetNAssert lowNs) s (fun t => t.dev = { s.dev with rstAt := s.dev.now } ∧ SameMem s t)) ∧
  (∀ (lowNs : Nat) (s : State), lowNs < 100 → Completes (.resetNAssert lowNs) s (fun t => t = s))

/-- Each boot command, at the time its rule gives, moves SYS_BOOT.STATE as Table 13.4 says and records what it sampled, verified or accepted (R349,
R355, R356, R357, R359, R360, R361, R299, Table 13.2, Table 13.4, Table 13.5, notes/assumptions/81.md). The model's choices: log entry 62 (the LOCK
bits set), 76 (the map keys are drawn at RESET_RELEASE), 81 (an image passes by the operand of its event, and CLK_BAD is set whatever BOOT_SEL is), 86
(PROFILE as it stood before this tick), 120 (CODE in FAILED), 121 (what GO of CUR_DL_LEN waits for), 20 (a RESET_RELEASE while no reset is held, a
rail is bad or 20 ms have not passed, and a PCIE_CONFIG_READY before its time, change nothing). -/
def Obligations.BootGoesThroughItsStates : Prop :=
  (∀ (bootSel clkMode : Fin 4) (s : State), s.dev.inReset = true → s.dev.railsBad = [] → 20000000 ≤ s.dev.now - s.dev.rstAt →
    Completes (.resetRelease bootSel clkMode) s (fun t => t.dev.inReset = false ∧ t.dev.f R.SYS_BOOT.STATE = 1 ∧
      t.dev.f R.SYS_STRAP.BOOT_SEL = bootSel ∧ t.dev.f R.SYS_STRAP.CLK_MODE = clkMode ∧
      t.dev.f R.SYS_STRAP.CLK_BAD = (if clkMode = 3 then 1 else 0) ∧ (bootSel = 3 → t.dev.f R.SYS_STRAP.CFG_USED = 1) ∧
      (bootSel ≠ 3 → t.dev.f R.SYS_STRAP.BOOT_EFF = bootSel) ∧ t.dev.hashKeys.length = 3 ∧
      t.dev.out = s.dev.out ++ [.pin "RESET_N" true] ∧ SameMem s t ∧ SameWords s t [R.SYS_STRAP.BOOT_SEL.key 0, R.SYS_BOOT.STATE.key 0])) ∧
  (∀ (bootSel clkMode : Fin 4) (s : State), s.dev.inReset = false ∨ s.dev.railsBad ≠ [] ∨ s.dev.now - s.dev.rstAt < 20000000 →
    Completes (.resetRelease bootSel clkMode) s (fun t => t = s)) ∧
  (∀ (r : Nat) (s : State), s.dev.f R.SYS_BOOT.STATE = 1 → s.dev.f R.SYS_STRAP.CFG_USED = 1 →
    Completes (.cfgSenseConversion r) s (fun t =>
      let bin := t.dev.f R.SYS_STRAP.CFG_BIN
      (r < 500 → bin = 0) ∧ (250000 < r → bin = 15) ∧
      (500 ≤ r → r ≤ 250000 → 1 ≤ bin ∧ bin ≤ 14 ∧ ∀ x ∈ binOhms,
        (binOhms.getD (bin - 1) 0 < x → r * r ≤ binOhms.getD (bin - 1) 0 * x) ∧ (x < binOhms.getD (bin - 1) 0 → x * binOhms.getD (bin - 1) 0 < r * r)) ∧
      t.dev.f R.SYS_STRAP.BOOT_EFF = bin / 4 ∧ t.dev.f R.SYS_STRAP.CLK_EFF = bin % 4 ∧ SameMem s t ∧ SameUnits s t ∧
      SameWords s t [R.SYS_STRAP.CFG_BIN.key 0])) ∧
  (∀ (s : State), s.dev.f R.SYS_BOOT.STATE = 1 →
    Completes (.bootSelftestDone true true) s (fun t => t.dev.f R.SYS_BOOT.STATE = 2 ∧ t.dev.f R.VT_STAT.SELFTEST = 1 ∧
      t.dev.f R.VT_STAT.TRNG_OK = 1 ∧ t.dev.loadingAt = s.dev.now ∧ SameMem s t ∧
      { t.dev with words := s.dev.words, loadingAt := s.dev.loadingAt } = s.dev ∧
      SameWords s t [R.SYS_BOOT.STATE.key 0, R.VT_STAT.SELFTEST.key 0, R.SYS_CLK_STAT.LOCK.key 0])) ∧
  (∀ (pass : Bool) (s : State), s.dev.f R.SYS_BOOT.STATE = 1 →
    Completes (.bootSelftestDone pass false) s (fun t => t.dev.f R.SYS_BOOT.STATE = 5 ∧
      t.dev.f R.SYS_BOOT.CODE = 2 ∧ t.dev.f R.SYS_BOOT.DEGRADED = 0 ∧ SameMem s t ∧ SameUnits s t ∧
      SameWords s t [R.SYS_BOOT.STATE.key 0])) ∧
  (∀ (s : State), s.dev.inReset = true ∨ s.dev.now - s.dev.released < 100000000 → Completes .pcieConfigReady s (fun t => t = s)) ∧
  (∀ (s : State), s.dev.inReset = false → 100000000 ≤ s.dev.now - s.dev.released →
    Completes .pcieConfigReady s (fun t => t.dev.pcieUp = true ∧ SameMem s t ∧ SameWords s t [] ∧ { t.dev with pcieUp := s.dev.pcieUp } = s.dev)) ∧
  (∀ (h : ImageHeader) (s : State), s.dev.f R.SYS_BOOT.STATE = 2 → s.dev.f R.SYS_STRAP.BOOT_EFF ≠ 1 → s.dev.partGood h = true → s.dev.slotBad.contains (s.dev.f R.SYS_BOOT.IMAGE) = false → s.dev.partOk = false →
    Completes (.imageCheck .vitrine h) s (fun t => t.dev.partOk = true ∧ t.dev.f R.VT_STAT.SVN_RUN = h.svn.toNat ∧ t.dev.meas.vit = h.digest ∧
      SameMem s t ∧ SameWords s t [R.VT_STAT.SVN_RUN.key 0])) ∧
  (∀ (h : ImageHeader) (s : State), s.dev.f R.SYS_BOOT.STATE = 2 → s.dev.f R.SYS_STRAP.BOOT_EFF ≠ 1 → s.dev.partGood h = true → s.dev.slotBad.contains (s.dev.f R.SYS_BOOT.IMAGE) = false → s.dev.partOk = true →
    Completes (.imageCheck .curator h) s (fun t => t.dev.f R.SYS_BOOT.STATE = 3 ∧ t.dev.f R.CUR_STATE.ALIVE = 1 ∧
      t.dev.f R.CUR_STATE.SVN = h.svn.toNat ∧ t.dev.meas.cur = h.digest ∧ SameMem s t ∧
      SameWords s t [R.SYS_BOOT.STATE.key 0, R.CUR_STATE.ALIVE.key 0, R.VT_STAT.BOOT_IMG.key 0])) ∧
  (∀ (h : ImageHeader) (s : State), s.dev.f R.SYS_BOOT.STATE = 2 → s.dev.f R.SYS_STRAP.BOOT_EFF = 0 → s.dev.f R.SYS_BOOT.IMAGE = 0 →
      s.dev.partGood h = false ∨ 0 ∈ s.dev.slotBad → s.dev.partOk = false →
    Completes (.imageCheck .vitrine h) s (fun t => t.dev.f R.SYS_BOOT.STATE = 2 ∧ t.dev.f R.SYS_BOOT.IMAGE = 1 ∧ t.dev.partOk = false ∧
      SameMem s t ∧ SameWords s t [R.SYS_BOOT.STATE.key 0])) ∧
  (∀ (vit cur : ImageHeader) (s : State), s.dev.pcieUp = true → s.dev.f R.SYS_BOOT.STATE = 2 → s.dev.f R.SYS_STRAP.BOOT_EFF = 1 →
      s.dev.f R.CUR_DL_LEN.GO = 1 ∨ s.dev.dlOk = true → s.dev.partGood vit = true → s.dev.partGood cur = true →
    Completes (.hostDownload vit cur) s (fun t => t.dev.f R.SYS_BOOT.STATE = 3 ∧ t.dev.f R.VT_STAT.SVN_RUN = vit.svn.toNat ∧
      t.dev.f R.CUR_STATE.SVN = cur.svn.toNat ∧ t.dev.f R.CUR_STATE.ALIVE = 1 ∧ t.dev.f R.CUR_DL_LEN.GO = 0 ∧
      t.dev.out = s.dev.out ++ (if s.dev.f R.CUR_DL_LEN.GO = 1 then []
        else [.hostRead s.dev.nextTag 0 (s.dev.f R.CUR_DL_ADDR.ADDR) (s.dev.f R.CUR_DL_LEN.LEN)]) ∧ SameMem s t ∧
      SameWords s t [R.SYS_BOOT.STATE.key 0, R.CUR_STATE.ALIVE.key 0, R.VT_STAT.SVN_RUN.key 0, R.CUR_DL_LEN.GO.key 0])) ∧
  (∀ (vit cur : ImageHeader) (s : State), s.dev.pcieUp = true → s.dev.f R.SYS_BOOT.STATE = 2 → s.dev.f R.SYS_STRAP.BOOT_EFF = 1 →
      s.dev.f R.CUR_DL_LEN.GO = 0 → s.dev.dlOk = false →
    Completes (.hostDownload vit cur) s (fun t => t.dev.f R.SYS_BOOT.STATE = 5 ∧ t.dev.f R.SYS_BOOT.CODE = 5 ∧ SameMem s t ∧ SameUnits s t ∧
      SameWords s t [R.SYS_BOOT.STATE.key 0])) ∧
  (∀ (s : State), s.dev.f R.SYS_BOOT.STATE = 2 → s.dev.f R.SYS_STRAP.BOOT_EFF = 1 → s.dev.f R.CUR_DL_LEN.GO = 0 →
      60000000000 ≤ s.dev.now - s.dev.loadingAt →
    Completes .downloadTimeout s (fun t => t.dev.f R.SYS_BOOT.STATE = 5 ∧ t.dev.f R.SYS_BOOT.CODE = 5 ∧ t.dev.f R.SYS_BOOT.DEGRADED = 0 ∧
      SameMem s t ∧ SameUnits s t ∧ SameWords s t [R.SYS_BOOT.STATE.key 0])) ∧
  (∀ (s : State), s.dev.f R.SYS_BOOT.STATE = 3 → s.dev.enabledWings ≠ [] →
    Completes (.bootInitDone true 255 15) s (fun t => t.dev.f R.SYS_BOOT.STATE = 4 ∧ t.dev.profile = s.dev.shadow 5 ∧
      SameMem s t ∧ SameWords s t [R.SYS_BOOT.STATE.key 0, R.SYS_CLK_STAT.LOCK.key 0, R.SYS_PWR_ERR.THROTTLED.key 0]))

/-- SYS_PWR moves by Table 13.8 after its checks; THROTTLE, THROTTLE_RELEASE, 125 degrees, a PLL and a rail act as R364 to R368, R391 and R393 say
(R364, R365, R366, R367, R368, R355, R373, R391, R393, notes/assumptions/63.md, notes/assumptions/64.md, notes/assumptions/65.md). The model's
choices: log entry 63 (a rail of a quarter acts in READY alone), 64 (SYS_TEMP from the event, and the release on every stored temperature), 65 (a move
acts at POWER_MOVE_DONE), 86 (PROFILE as it stood before this tick), 20 (a rail inside its range changes nothing). -/
def Obligations.PowerTemperatureAndClocksAct : Prop :=
  (∀ (t : Fin 4) (s : State), s.dev.f R.SYS_BOOT.STATE = 4 → s.dev.f R.SYS_PWR.MOVING = 0 → s.dev.gateReq = none →
      moveListed (s.dev.f R.SYS_PWR.STATE) t = true → (s.dev.f R.SYS_PWR.STATE ≤ 1 ∧ 2 ≤ t.val → s.dev.pwrDrained = true) →
    Completes (.powerTargetWrite t) s (fun u => u.dev.f R.SYS_PWR.TARGET = t ∧ u.dev.f R.SYS_PWR.MOVING = 1 ∧
      u.dev.f R.SYS_PWR.STATE = s.dev.f R.SYS_PWR.STATE ∧ SameMem s u ∧ SameUnits s u ∧ SameWords s u [R.SYS_PWR.TARGET.key 0])) ∧
  (∀ (t : Fin 4) (s : State), s.dev.f R.SYS_BOOT.STATE = 4 →
      s.dev.f R.SYS_PWR.MOVING = 1 ∨ s.dev.gateReq ≠ none ∨ moveListed (s.dev.f R.SYS_PWR.STATE) t = false →
    Completes (.powerTargetWrite t) s (fun u => u.dev.f R.SYS_PWR_ERR.BUSY = 1 ∧ SameMem s u ∧ SameUnits s u ∧
      SameWords s u [R.SYS_PWR_ERR.BUSY.key 0])) ∧
  (∀ (t : Fin 4) (s : State), s.dev.f R.SYS_BOOT.STATE = 4 → s.dev.f R.SYS_PWR.MOVING = 0 → s.dev.gateReq = none →
      moveListed (s.dev.f R.SYS_PWR.STATE) t = true → s.dev.f R.SYS_PWR.STATE ≤ 1 → 2 ≤ t.val → s.dev.pwrDrained = false →
    Completes (.powerTargetWrite t) s (fun u => u.dev.f R.SYS_PWR_ERR.BUSY = 1 ∧ u.dev.f R.SYS_PWR_ERR.DRAIN = 1 ∧ SameMem s u ∧
      SameUnits s u ∧ SameWords s u [R.SYS_PWR_ERR.BUSY.key 0])) ∧
  (∀ (s : State), s.dev.f R.SYS_PWR.MOVING = 1 → s.dev.f R.SYS_PWR.STATE ≤ 1 → s.dev.f R.SYS_PWR.TARGET ≤ 1 →
    Completes .powerMoveDone s (fun u => u.dev.f R.SYS_PWR.STATE = s.dev.f R.SYS_PWR.TARGET ∧ u.dev.f R.SYS_PWR.MOVING = 0 ∧
      u.dev.f R.VT_PWR_RES.GATED = (if s.dev.f R.SYS_PWR.TARGET = 0 then 0 else s.dev.f R.VT_PWR_RES.GATED) ∧
      u.dev.profile = s.dev.shadow 5 ∧ (s.dev.profile = 1 → s.dev.shadow 5 = 0 → ∀ q : Fin 4, q.val ∈ s.dev.hotWings → s.dev.fenced q = false →
        u.dev.throttled.contains q.val = true ∧ u.dev.f R.SYS_PWR_ERR.THROTTLED = 1) ∧ SameMem s u ∧
      SameWords s u [R.SYS_PWR.STATE.key 0, R.VT_PWR_RES.GATED.key 0, R.SYS_PWR_ERR.THROTTLED.key 0])) ∧
  (∀ (s : State), s.dev.f R.SYS_PWR.MOVING = 1 → s.dev.f R.SYS_PWR.STATE = 2 → s.dev.f R.SYS_PWR.TARGET = 3 →
    Completes .powerMoveDone s (fun u => u.dev.f R.SYS_PWR.STATE = 3 ∧ u.dev.f R.SYS_PWR.MOVING = 0 ∧ u.dev.staged = [] ∧
      u.dev.f R.CODEC_STAGE.GO = 0 ∧ SameWords s u [R.SYS_PWR.STATE.key 0, R.CODEC_STAGE.GO.key 0] ∧
      ∀ a : Fin 8, memGet u.mem (memKey a 64) = if 1 ≤ a.val ∧ a.val < 5 then memDefault (memKey a 64) else memGet s.mem (memKey a 64))) ∧
  (∀ (q : Fin 4) (temp : BitVec 16) (s : State), s.dev.wingPresent q = true → s.dev.fenced q = false → s.dev.profile ≠ 1 →
      s.dev.throttleC ≤ temp.toInt →
    Completes (.throttle q temp) s (fun u => u.dev.f (tempFld q) = temp.toNat ∧ u.dev.f R.SYS_PWR_ERR.THROTTLED = 1 ∧
      u.dev.throttled.contains q.val = true ∧ u.dev.thermN = true ∧ SameMem s u ∧
      SameWords s u [R.SYS_TEMP.TQ0.key 0, R.SYS_PWR_ERR.THROTTLED.key 0])) ∧
  (∀ (q : Fin 4) (temp : BitVec 16) (s : State), s.dev.wingPresent q = true → temp.toInt < s.dev.throttleC →
    Completes (.throttle q temp) s (fun u => u.dev.f (tempFld q) = temp.toNat ∧ SameMem s u ∧ SameUnits s u ∧
      SameWords s u [R.SYS_TEMP.TQ0.key 0])) ∧
  (∀ (s : State), s.dev.thermN = true → (∀ q : Fin 4, s.dev.wingPresent q = true → s.dev.sf (tempFld q) < s.dev.throttleC) →
    Completes .throttleRelease s (fun u => u.dev.thermN = false ∧ u.dev.throttled = [] ∧ u.dev.out = s.dev.out ++ [.pin "THERM_N" true] ∧
      SameMem s u ∧ SameWords s u [])) ∧
  (∀ (q : Fin 4) (s : State), s.dev.wingPresent q = true →
    Completes (.junction125c q) s (fun u => u.dev.throttled.contains q.val = false ∧ u.dev.f R.SYS_PWR.MOVING = 0 ∧
      (u.dev.f R.SYS_PWR_ERR.EMERG).testBit q = true ∧ (u.dev.f R.HEALTH_FENCE.FENCED).testBit q = true ∧ u.dev.thermN = true ∧
      u.dev.f (tempFld q) = 1250 ∧ (s.dev.fenced q = false → u.dev.f (causeFld q) = 4) ∧ SameMem s u)) ∧
  (∀ (dom : Fin 25) (s : State), dom ≠ 22 → dom ≠ 23 → (s.dev.f R.SYS_CLK_STAT.LOCK).testBit dom = true → domainQuarter dom = none →
    Completes (.pllLockLoss dom) s (fun u => u.dev.f R.SYS_CLK_STAT.LOCK = s.dev.f R.SYS_CLK_STAT.LOCK - 2 ^ dom.val ∧
      u.dev.f R.SYS_CLK_STAT.LOSS = min (s.dev.f R.SYS_CLK_STAT.LOSS + 1) (2 ^ 32 - 1) ∧ SameMem s u ∧
      SameWords s u [R.SYS_CLK_STAT.LOCK.key 0, R.HEALTH_ALM_DROP.OVERFLOW.key 0])) ∧
  (∀ (rail : Rail) (mv : Nat) (q : Nat) (s : State), s.dev.f R.SYS_BOOT.STATE = 4 → s.dev.inReset = false → s.dev.railsBad.contains rail = false →
      railQuarter rail = some q → 85 * (railLimits (s.dev.profile == 1) rail).1 ≤ mv * 100 → mv ≤ (railLimits (s.dev.profile == 1) rail).2.2.2 →
      mv * 100 < (railLimits (s.dev.profile == 1) rail).2.1 ∨ (railLimits (s.dev.profile == 1) rail).2.2.1 < mv * 100 →
    Completes (.powerRailFault rail mv) s (fun u => u.dev = s.dev.fenceQuarter q 5 ∧ SameMem s u)) ∧
  (∀ (mv : Nat) (s : State), s.dev.inReset = false → s.dev.railsBad.contains .vit = false → 85 * (railLimits (s.dev.profile == 1) .vit).1 ≤ mv * 100 → mv ≤ (railLimits (s.dev.profile == 1) .vit).2.2.2 →
      mv * 100 < (railLimits (s.dev.profile == 1) .vit).2.1 ∨ (railLimits (s.dev.profile == 1) .vit).2.2.1 < mv * 100 →
    Completes (.powerRailFault .vit mv) s (fun u => u.dev = s.dev.sensor 3 0 ∧ SameMem s u)) ∧
  (∀ (rail : Rail) (mv : Nat) (s : State), s.dev.railsBad.contains rail = false → 85 * (railLimits (s.dev.profile == 1) rail).1 ≤ mv * 100 → mv ≤ (railLimits (s.dev.profile == 1) rail).2.2.2 →
      (railLimits (s.dev.profile == 1) rail).2.1 ≤ mv * 100 → mv * 100 ≤ (railLimits (s.dev.profile == 1) rail).2.2.1 →
    Machine.exec (.powerRailFault rail mv) s = .next s) ∧
  (∀ (rail : Rail) (mv : Nat) (s : State), s.dev.railsBad.contains rail = true → 85 * (railLimits (s.dev.profile == 1) rail).1 ≤ mv * 100 →
      mv ≤ (railLimits (s.dev.profile == 1) rail).2.2.2 →
    Completes (.powerRailFault rail mv) s (fun u =>
      u.dev = { s.dev with railsBad := s.dev.railsBad.filter (· != rail), rstAt := s.dev.now } ∧ SameMem s u))

/-- A block reset of a quiesced unit clears what Table 13.9 lists and reports OK, others report why; the Curator runs its mailbox commands and its
firmware stops (R369, R370, R371, R358, R373, Table 13.9, notes/assumptions/66.md, notes/assumptions/67.md, notes/assumptions/122.md,
notes/assumptions/126.md). The model's choices: log entry 66 (a reset acts at its command, GO stays 1 until BLOCK_RESET_DONE), 67 and 122 (when a
FLASH_WRITE is checked and written, a command out of time), 126 (a cluster without a context holds no key). -/
def Obligations.BlockResetsAndMailbox : Prop :=
  (∀ (c : Instr × Nat × Bool × Bool) (unit : Fin 256) (s : State),
      c ∈ [(.tourEngineReset unit, 1, s.dev.wingPresent unit, s.dev.tourIdle unit),
        (.codecStagingReset unit, 2, s.dev.wingPresent unit, s.dev.staged.all (fun e => e.wing != unit || !s.dev.pinned e)),
        (.cipherClusterReset unit, 3, decide (unit.val < 40) && s.dev.wingPresent (unit / 10), (s.dev.clusterCtxs unit).isEmpty),
        (.kwaveEngineReset unit, 4, decide (unit.val < 8) && s.dev.wingPresent (unit / 2), s.dev.engIdle unit),
        (.fabricPortReset unit, 5, decide (unit.val < 32), s.dev.fportIdle unit),
        (.courierChannelReset unit, 6, decide (unit.val < 12), s.dev.f R.CR_STAT.STATE unit != 1 && !s.dev.on R.CR_CTL.ARM unit)] →
      s.dev.barOpen (R.SYS_BLK_RST.GO.key 0) = true → s.dev.f R.SYS_BLK_RST.GO = 0 →
    Completes c.1 s (fun t => SameMem s t ∧ t.dev.f R.SYS_BLK_RES.BLOCK = c.2.1 ∧ t.dev.f R.SYS_BLK_RES.UNIT = unit ∧
      t.dev.f R.SYS_BLK_RES.STATUS = (if c.2.2.1 = false then 1 else if c.2.2.2 = false then 0x12 else 0) ∧
      t.dev.f R.SYS_BLK_RST.GO = (if c.2.2.1 = true ∧ c.2.2.2 = true then 1 else 0))) ∧
  (∀ (unit : Fin 256) (s : State), s.dev.barOpen (R.SYS_BLK_RST.GO.key 0) = true → s.dev.f R.SYS_BLK_RST.GO = 0 →
      s.dev.wingPresent unit = true → s.dev.tourIdle unit = true →
    Completes (.tourEngineReset unit) s (fun t => t.dev.f R.TOUR_LANES.FENCED unit = 0 ∧ t.dev.f R.TOUR_LANES.SPARE_USED unit = 0 ∧
      t.dev.f R.TOUR_LANES.WORKING unit = 32 ∧ t.dev.word (R.TOUR_ERR.BUSY.key unit) = 0)) ∧
  (∀ (unit : Fin 256) (s : State), s.dev.barOpen (R.SYS_BLK_RST.GO.key 0) = true → s.dev.f R.SYS_BLK_RST.GO = 0 →
      s.dev.wingPresent unit = true → s.dev.staged.all (fun e => e.wing != unit || !s.dev.pinned e) = true →
    Completes (.codecStagingReset unit) s (fun t => t.dev.staged = s.dev.staged.filter (fun (e : TabEnt) => e.wing != unit))) ∧
  (∀ (unit : Fin 256) (s : State), s.dev.barOpen (R.SYS_BLK_RST.GO.key 0) = true → s.dev.f R.SYS_BLK_RST.GO = 0 →
      unit.val < 40 → s.dev.wingPresent (unit / 10) = true → (s.dev.clusterCtxs unit).isEmpty = true →
    Completes (.cipherClusterReset unit) s (fun t => t.dev.clusterFence = s.dev.clusterFence.filter (· != unit.val) ∧
      t.dev.halves = s.dev.halves)) ∧
  (∀ (unit : Fin 256) (i : Fin 16) (s : State), s.dev.barOpen (R.SYS_BLK_RST.GO.key 0) = true → s.dev.f R.SYS_BLK_RST.GO = 0 →
      unit.val < 8 → s.dev.wingPresent (unit / 2) = true → s.dev.engIdle unit = true →
    Completes (.kwaveEngineReset unit) s (fun t =>
      t.dev.lineOf (16 * unit + i) = (s.dev.lineOf (16 * unit + i)).dspReset ∧ t.dev.word (R.KW_CAR_CNT.COLD.key (16 * unit + i)) = 0 ∧
      ∀ k : Fin 128, (tabGet (fun _ => PathEnt.empty) t.dev.paths (128 * (16 * unit + i) + k)).valid = false)) ∧
  (∀ (unit : Fin 256) (s : State), s.dev.barOpen (R.SYS_BLK_RST.GO.key 0) = true → s.dev.f R.SYS_BLK_RST.GO = 0 →
      unit.val < 32 → s.dev.fportIdle unit = true →
    Completes (.fabricPortReset unit) s (fun t => t.dev.f R.FAB_PORT_STAT.UP unit = 0 ∧
      SameUnits s t ∧ SameWords s t [R.SYS_BLK_RST.GO.key 0, R.SYS_BLK_RES.STATUS.key 0, R.FAB_PORT_STAT.UP.key unit])) ∧
  (∀ (unit : Fin 256) (s : State), s.dev.barOpen (R.SYS_BLK_RST.GO.key 0) = true → s.dev.f R.SYS_BLK_RST.GO = 0 →
      unit.val < 12 → s.dev.f R.CR_STAT.STATE unit ≠ 1 → s.dev.f R.CR_CTL.ARM unit = 0 →
    Completes (.courierChannelReset unit) s (fun t => t.dev.f R.CR_STAT.STATE unit = 0 ∧ t.dev.f R.CR_STAT.LAST unit = 0 ∧
      t.dev.f R.CR_PROG.DONE unit = 0 ∧ SameUnits s t ∧
      SameWords s t [R.SYS_BLK_RST.GO.key 0, R.SYS_BLK_RES.STATUS.key 0, R.CR_STAT.STATE.key unit, R.CR_PROG.DONE.key unit])) ∧
  (∀ (s : State), Completes .blockResetDone s (fun t => t.dev.f R.SYS_BLK_RST.GO = 0 ∧ SameMem s t ∧ SameUnits s t ∧
      SameWords s t [R.SYS_BLK_RST.GO.key 0])) ∧
  (∀ (arg : BitVec 32) (vit cur : ImageHeader) (good : Bool) (c : Instr × Nat × Nat) (s : State),
      c ∈ [(.version, 1, 0), (.flashWrite arg vit cur good, 2, arg.toNat), (.calRead arg, 3, arg.toNat), (.logRead arg, 4, arg.toNat)] →
      s.dev.f R.SYS_BOOT.STATE = 4 → s.dev.f R.CUR_MBX_CMD.GO = 0 →
    Completes c.1 s (fun t => t.dev.f R.CUR_MBX_CMD.GO = 1 ∧ t.dev.f R.CUR_MBX_CMD.OP = c.2.1 ∧ t.dev.f R.CUR_MBX_CMD.ARG = c.2.2 ∧
      (∃ r, t.dev.mailbox = some r ∧ r.op = c.2.1 ∧ r.at_ = s.dev.now) ∧ t.dev.out = s.dev.out ∧ SameMem s t ∧ SameWords s t [R.CUR_MBX_CMD.GO.key 0])) ∧
  (∀ (arg : BitVec 32) (vit cur : ImageHeader) (good : Bool) (c : Instr) (s : State),
      c ∈ [.version, .flashWrite arg vit cur good, .calRead arg, .logRead arg] →
      s.dev.barOpen (R.CUR_MBX_CMD.GO.key 0) = true → s.dev.f R.SYS_BOOT.STATE ≠ 4 → s.dev.f R.CUR_MBX_CMD.GO = 0 →
    Completes c s (fun t => t.dev.f R.CUR_MBX_RES.STATUS = 0x12 ∧ t.dev.f R.CUR_MBX_RES.LEN = 0 ∧ t.dev.f R.CUR_MBX_CMD.GO = 0 ∧
      t.dev.mailbox = none ∧ SameMem s t ∧ SameWords s t [R.CUR_MBX_CMD.GO.key 0, R.CUR_MBX_RES.STATUS.key 0])) ∧
  (∀ (arg : BitVec 32) (vit cur : ImageHeader) (good : Bool) (s : State), s.dev.f R.SYS_BOOT.STATE = 4 → s.dev.f R.CUR_MBX_CMD.GO = 0 →
    Completes (.flashWrite arg vit cur good) s (fun t =>
      let ok := s.dev.dlOk && s.dev.partGood vit && s.dev.partGood cur
      let only := s.dev.f R.SYS_STRAP.BOOT_EFF ≠ 1 ∧ s.dev.f R.SYS_BOOT.IMAGE = arg.toNat % 2 ∧ (good = false ∨ 1 - arg.toNat % 2 ∈ s.dev.slotBad)
      t.dev.mailbox.map (fun r => (r.slot, r.status)) = some (arg.toNat % 2, if ok = false then 0x03 else if only then 0x12 else 0))) ∧
  (∀ (r : MbxRun) (s : State), s.dev.f R.CUR_STATE.ALIVE = 1 → s.dev.mailbox = some r →
      s.dev.now - r.at_ ≤ (if r.op = 2 then 10000000000 else 10000000) →
    Completes .mailboxComplete s (fun t => t.dev.f R.CUR_MBX_RES.STATUS = r.status % 2 ^ 8 ∧ t.dev.f R.CUR_MBX_RES.LEN = r.buf.length % 2 ^ 16 ∧
      t.dev.f R.CUR_MBX_CMD.GO = 0 ∧ t.dev.mailbox = none ∧ (.flash r.slot ∈ t.dev.out.drop s.dev.out.length ↔ r.op = 2 ∧ r.status = 0) ∧
      SameMem s t)) ∧
  (∀ (r : MbxRun) (s : State), s.dev.mailbox = some r → (if r.op = 2 then 10000000000 else 10000000) < s.dev.now - r.at_ →
    Completes .mailboxComplete s (fun t => t.dev.f R.CUR_MBX_RES.STATUS = 0x12 ∧ t.dev.f R.CUR_MBX_RES.LEN = 0 ∧ t.dev.f R.CUR_MBX_CMD.GO = 0 ∧
      t.dev.mailbox = none ∧ .flash r.slot ∉ t.dev.out.drop s.dev.out.length ∧ SameMem s t)) ∧
  (∀ (s : State), s.dev.f R.CUR_STATE.ALIVE = 1 →
    Completes .heartbeat s (fun t => t.dev.f R.CUR_STATE.HEARTBEAT = (s.dev.f R.CUR_STATE.HEARTBEAT + 1) % 2 ^ 32 ∧ SameMem s t ∧
      SameUnits s t ∧ SameWords s t [R.CUR_STATE.HEARTBEAT.key 0])) ∧
  (∀ (s : State), s.dev.f R.CUR_STATE.ALIVE = 1 →
    Completes .curatorFirmwareStop s (fun t => t.dev.f R.CUR_STATE.ALIVE = 0 ∧ SameMem s t ∧
      SameWords s t (R.CUR_STATE.ALIVE.key 0 :: (List.range 512).map R.SYS_RSRAM.DATA.key)))

/-- TIME_ADJ steps, slews or sets the timebase when no servo holds it, else BUSY; STEER switches to an enabled domain; a domain is enabled in FREERUN
(R198, R199, R214, notes/assumptions/45.md, notes/assumptions/46.md). The model's choices: log entry 46 (TIME_ADJ is taken while the steering domain
is free-running, in HOLDOVER or not enabled, and EN 1 gives FREERUN with OFFSET 0), log entry 45 (the frequency at a switchover). -/
def Obligations.TimebaseIsAdjustedAndSteered : Prop :=
  (∀ (ofs : BitVec 48) (s : State), s.dev.f R.SYS_BOOT.STATE = 4 → s.dev.domState (s.dev.f R.TIME_CTL.STEER) = 0 ∨
      s.dev.domState (s.dev.f R.TIME_CTL.STEER) = 3 ∨ s.dev.f R.TIME_DOM_CFG.EN (s.dev.f R.TIME_CTL.STEER) = 0 →
      s.dev.f R.CAT_STATE.PEND = 0 → s.dev.f R.ITIN_STATE.PEND = 0 →
    Completes (.timeAdjStep ofs) s (fun t => t.dev.slew = 0 ∧
      t.dev.tb = (if ofs.toInt = 0 then s.dev.tb else (((s.dev.tb : Int) + ofs.toInt) % (2 ^ 48 * 1000000000 * 65536 : Nat)).toNat) ∧
      t.dev.f R.TIME_ADJ.OFFSET = ofs.toNat ∧ t.dev.f R.TIME_ADJ.MODE = 0 ∧ SameMem s t ∧
      SameWords s t [R.TIME_ADJ.OFFSET.key 0, R.TIME_DOM_STAT.STATE.key 0, R.TIME_DOM_STAT.STATE.key 1])) ∧
  (∀ (ofs : BitVec 48) (s : State), s.dev.f R.SYS_BOOT.STATE = 4 → s.dev.domState (s.dev.f R.TIME_CTL.STEER) = 0 ∨
      s.dev.domState (s.dev.f R.TIME_CTL.STEER) = 3 ∨ s.dev.f R.TIME_DOM_CFG.EN (s.dev.f R.TIME_CTL.STEER) = 0 →
    Completes (.timeAdjSlew ofs) s (fun t => t.dev.slew = ofs.toInt * 1000000000 ∧ t.dev.tb = s.dev.tb ∧
      t.dev.f R.TIME_ADJ.OFFSET = ofs.toNat ∧ t.dev.f R.TIME_ADJ.MODE = 1 ∧ SameMem s t ∧ SameWords s t [R.TIME_ADJ.OFFSET.key 0])) ∧
  (∀ (ofs : BitVec 48) (s : State), s.dev.f R.SYS_BOOT.STATE = 4 → s.dev.domState (s.dev.f R.TIME_CTL.STEER) = 0 ∨
      s.dev.domState (s.dev.f R.TIME_CTL.STEER) = 3 ∨ s.dev.f R.TIME_DOM_CFG.EN (s.dev.f R.TIME_CTL.STEER) = 0 →
      s.dev.f R.CAT_STATE.PEND = 0 → s.dev.f R.ITIN_STATE.PEND = 0 → ofs.toNat ≤ 65536 * 1000000000 → s.dev.tb < 2 ^ 48 * 1000000000 * 65536 →
    Completes (.timeAdjSet ofs) s (fun t => t.dev.slew = 0 ∧
      t.dev.tb = (s.dev.f R.TIME_SET.SEC * 1000000000 * 65536 + ofs.toNat) % (2 ^ 48 * 1000000000 * 65536) ∧
      t.dev.f R.TIME_ADJ.MODE = 2 ∧ SameMem s t ∧
      SameWords s t [R.TIME_ADJ.OFFSET.key 0, R.TIME_DOM_STAT.STATE.key 0, R.TIME_DOM_STAT.STATE.key 1])) ∧
  (∀ (ofs : BitVec 48) (c : Instr) (s : State), c ∈ [.timeAdjStep ofs, .timeAdjSlew ofs, .timeAdjSet ofs] → s.dev.f R.SYS_BOOT.STATE = 4 →
      s.dev.domState (s.dev.f R.TIME_CTL.STEER) ≠ 0 → s.dev.domState (s.dev.f R.TIME_CTL.STEER) ≠ 3 →
      s.dev.f R.TIME_DOM_CFG.EN (s.dev.f R.TIME_CTL.STEER) = 1 →
    Completes c s (fun t => t.dev.f R.TIME_ERR.BUSY = 1 ∧ t.dev.tb = s.dev.tb ∧ t.dev.slew = s.dev.slew ∧ SameMem s t ∧ SameUnits s t ∧
      SameWords s t [R.TIME_ADJ.OFFSET.key 0, R.TIME_ERR.BUSY.key 0])) ∧
  (∀ (i : Fin 2) (s : State), s.dev.f R.SYS_BOOT.STATE = 4 → s.dev.f R.TIME_DOM_CFG.EN i = 0 →
    Completes (.steerWrite i) s (fun t => t.dev.f R.TIME_ERR.BUSY = 1 ∧ SameMem s t ∧ SameUnits s t ∧ SameWords s t [R.TIME_ERR.BUSY.key 0])) ∧
  (∀ (i : Fin 2) (s : State), s.dev.f R.SYS_BOOT.STATE = 4 → s.dev.f R.TIME_DOM_CFG.EN i = 1 → s.dev.f R.TIME_CTL.STEER = i →
    Completes (.steerWrite i) s (fun t => SameMem s t ∧ SameUnits s t ∧ SameWords s t [])) ∧
  (∀ (i : Fin 2) (s : State), s.dev.f R.SYS_BOOT.STATE = 4 → s.dev.f R.TIME_DOM_CFG.EN i = 1 → s.dev.f R.TIME_CTL.STEER ≠ i →
      s.dev.f R.CAT_STATE.PEND = 0 → s.dev.f R.ITIN_STATE.PEND = 0 →
    Completes (.steerWrite i) s (fun t => t.dev.f R.TIME_CTL.STEER = i ∧ t.dev.f R.TIME_ERR.SWITCH = 1 ∧
      (t.dev.servoOf i).y = s.dev.yBase ∧ SameMem s t ∧
      SameWords s t [R.TIME_CTL.STEER.key 0, R.TIME_ERR.SWITCH.key 0, R.TIME_DOM_STAT.STATE.key 0, R.TIME_DOM_STAT.STATE.key 1])) ∧
  (∀ (i : Fin 2) (w : Word) (s : State), s.dev.f R.SYS_BOOT.STATE = 4 → s.dev.f R.TIME_DOM_CFG.EN i = 0 →
      s.dev.f R.TIME_DOM_CFG.EN (1 - i.val) = 0 → s.dev.domState i ≠ 2 → bitsOf w 0 1 = 1 → bitsOf w 10 2 ≠ 1 →
    Completes (.domainEnable i .full w) s (fun t => t.dev.f R.TIME_DOM_CFG.EN i = 1 ∧ t.dev.f R.TIME_DOM_CFG.SRC_TYPE i = bitsOf w 10 2 ∧
      t.dev.f R.TIME_DOM_CFG.DOMAIN i = bitsOf w 1 7 ∧ t.dev.f R.TIME_DOM_CFG.SRC i = bitsOf w 12 12 ∧ t.dev.f R.TIME_DOM_STAT.STATE i = 0 ∧
      t.dev.f R.TIME_DOM_STAT.OFFSET i = 0 ∧ t.dev.tb = s.dev.tb ∧ SameMem s t ∧
      SameWords s t [R.TIME_DOM_CFG.EN.key i, R.TIME_DOM_STAT.STATE.key i, R.TIME_DOM_TE.TE.key i, R.HEALTH_ALM_DROP.OVERFLOW.key 0]))

/-- A valid sample, the loss of a source, and the end of trust in HOLDOVER move the servo of a domain as Table 7.2 says (R192, R195, R196, R197, R203,
notes/assumptions/45.md, notes/assumptions/20.md). The model's choices: log entry 45 (the first sample in FREERUN does not count toward the 16, and
the arithmetic of the loop), log entry 20 (with TIME or the domain not enabled nothing changes). -/
def Obligations.ServosFollowTheirSamplesAndSources : Prop :=
  (∀ (i : Fin 2) (o : Int) (s : State), s.dev.f R.TIME_CTL.ENABLE = 1 → s.dev.f R.TIME_DOM_CFG.EN i = 1 →
      s.dev.f R.TIME_DOM_CFG.SRC_TYPE i ≠ 3 → s.dev.f R.TIME_DOM_STAT.STATE i = 1 →
    Completes (.servoSample i o) s (fun t => t.dev.sf R.TIME_DOM_STAT.OFFSET i = clampS 48 o ∧ t.dev.tb = s.dev.tb ∧
      (t.dev.f R.TIME_DOM_STAT.STATE i = 1 ∨ t.dev.f R.TIME_DOM_STAT.STATE i = 2) ∧ (t.dev.servoOf i).y = (s.dev.loop i o).y ∧ SameMem s t ∧
      SameWords s t [R.TIME_DOM_STAT.STATE.key i, R.TIME_DOM_TE.TE.key i, R.HEALTH_ALM_DROP.OVERFLOW.key 0])) ∧
  (∀ (i : Fin 2) (o : Int) (s : State), s.dev.f R.TIME_CTL.ENABLE = 1 → s.dev.f R.TIME_DOM_CFG.EN i = 1 →
      s.dev.f R.TIME_DOM_CFG.SRC_TYPE i ≠ 3 → s.dev.f R.TIME_DOM_STAT.STATE i = 0 → s.dev.f R.TIME_CTL.STEER = i → 65536000 < o.natAbs →
      s.dev.f R.CAT_STATE.PEND = 0 → s.dev.f R.ITIN_STATE.PEND = 0 →
    Completes (.servoSample i o) s (fun t => t.dev.f R.TIME_ERR.STEP = 1 ∧ t.dev.f R.TIME_DOM_STAT.OFFSET i = 0 ∧
      t.dev.f R.TIME_DOM_STAT.STATE i = 1 ∧ t.dev.tb = (((s.dev.tb : Int) + o) % (2 ^ 48 * 1000000000 * 65536 : Nat)).toNat ∧ SameMem s t)) ∧
  (∀ (i : Fin 2) (s : State), s.dev.f R.TIME_CTL.ENABLE = 1 → s.dev.f R.TIME_DOM_CFG.EN i = 1 →
      s.dev.f R.TIME_DOM_CFG.SRC_TYPE i ≠ 3 → s.dev.f R.TIME_CTL.AUTO = 0 →
      s.dev.f R.TIME_DOM_STAT.STATE i = 1 ∨ s.dev.f R.TIME_DOM_STAT.STATE i = 2 →
    Completes (.sourceLost i) s (fun t => (t.dev.f R.TIME_ERR.SRC_LOST).testBit i = true ∧ t.dev.tb = s.dev.tb ∧
      t.dev.f R.TIME_DOM_STAT.STATE i = (if s.dev.f R.TIME_DOM_STAT.STATE i = 1 then 0 else 3) ∧ SameMem s t ∧
      SameWords s t [R.TIME_DOM_STAT.STATE.key i, R.TIME_ERR.SRC_LOST.key 0, R.TIME_DOM_TE.TE.key i, R.HEALTH_ALM_DROP.OVERFLOW.key 0])) ∧
  (∀ (i : Fin 2) (s : State), s.dev.domState i = 3 → s.dev.domTrust i = false →
    Completes (.holdoverTrustLoss i) s (fun t => t.dev.f R.TIME_DOM_TE.TRUST i = 0 ∧ SameMem s t ∧
      SameWords s t [R.TIME_DOM_TE.TE.key i, R.HEALTH_ALM_DROP.OVERFLOW.key 0])) ∧
  (∀ (i : Fin 2) (o : Int) (s : State), s.dev.f R.TIME_CTL.ENABLE = 1 → s.dev.f R.TIME_DOM_CFG.EN i = 1 → s.dev.f R.TIME_DOM_CFG.SRC_TYPE i ≠ 3 →
      s.dev.f R.TIME_DOM_STAT.STATE i = 0 → s.dev.f R.TIME_CTL.STEER ≠ i ∨ o.natAbs ≤ 65536000 →
    Completes (.servoSample i o) s (fun t => t.dev.f R.TIME_DOM_STAT.STATE i = 1 ∧ t.dev.sf R.TIME_DOM_STAT.OFFSET i = clampS 48 o ∧ t.dev.tb = s.dev.tb ∧
      (t.dev.servoOf i).good = 0 ∧ (t.dev.servoOf i).bad = 0 ∧ SameMem s t)) ∧
  (∀ (i : Fin 2) (o : Int) (s : State), s.dev.f R.TIME_CTL.ENABLE = 1 → s.dev.f R.TIME_DOM_CFG.EN i = 1 → s.dev.f R.TIME_DOM_CFG.SRC_TYPE i ≠ 3 →
      s.dev.f R.TIME_DOM_STAT.STATE i = 1 ∨ s.dev.f R.TIME_DOM_STAT.STATE i = 3 → o.natAbs < 65536 * s.dev.f R.TIME_DOM_SERVO.LOCK_THR i →
    Completes (.servoSample i o) s (fun t =>
      (if 15 ≤ (s.dev.servoOf i).good then t.dev.f R.TIME_DOM_STAT.STATE i = 2 ∧ (t.dev.servoOf i).good = 0
       else t.dev.f R.TIME_DOM_STAT.STATE i = s.dev.f R.TIME_DOM_STAT.STATE i ∧ (t.dev.servoOf i).good = (s.dev.servoOf i).good + 1) ∧
      t.dev.tb = s.dev.tb ∧ SameMem s t)) ∧
  (∀ (i : Fin 2) (o : Int) (s : State), s.dev.f R.TIME_CTL.ENABLE = 1 → s.dev.f R.TIME_DOM_CFG.EN i = 1 → s.dev.f R.TIME_DOM_CFG.SRC_TYPE i ≠ 3 →
      s.dev.f R.TIME_DOM_STAT.STATE i = 1 ∨ s.dev.f R.TIME_DOM_STAT.STATE i = 3 → 65536 * s.dev.f R.TIME_DOM_SERVO.LOCK_THR i ≤ o.natAbs →
    Completes (.servoSample i o) s (fun t => t.dev.f R.TIME_DOM_STAT.STATE i = s.dev.f R.TIME_DOM_STAT.STATE i ∧ (t.dev.servoOf i).good = 0 ∧
      t.dev.tb = s.dev.tb ∧ SameMem s t)) ∧
  (∀ (i : Fin 2) (o : Int) (s : State), s.dev.f R.TIME_CTL.ENABLE = 1 → s.dev.f R.TIME_DOM_CFG.EN i = 1 → s.dev.f R.TIME_DOM_CFG.SRC_TYPE i ≠ 3 →
      s.dev.f R.TIME_CTL.AUTO = 0 → s.dev.f R.TIME_DOM_STAT.STATE i = 2 →
    Completes (.servoSample i o) s (fun t =>
      (if o.natAbs ≤ 65536 * s.dev.f R.TIME_DOM_SERVO.UNLOCK_THR i then t.dev.f R.TIME_DOM_STAT.STATE i = 2 ∧ (t.dev.servoOf i).bad = 0
       else if 3 ≤ (s.dev.servoOf i).bad then t.dev.f R.TIME_DOM_STAT.STATE i = 1 ∧ (t.dev.servoOf i).bad = 0
       else t.dev.f R.TIME_DOM_STAT.STATE i = 2 ∧ (t.dev.servoOf i).bad = (s.dev.servoOf i).bad + 1) ∧ t.dev.tb = s.dev.tb ∧ SameMem s t)) ∧
  (∀ (i : Fin 2) (o : Int) (s : State), s.dev.f R.TIME_CTL.ENABLE = 0 ∨ s.dev.f R.TIME_DOM_CFG.EN i = 0 ∨ s.dev.f R.TIME_DOM_CFG.SRC_TYPE i = 3 →
    Completes (.servoSample i o) s (fun t => t = s) ∧ Completes (.sourceLost i) s (fun t => t = s))

/-- PTP messages for no domain are counted; a one-step Sync is taken; Sync and Announce wait on every master port; an event message is relayed (R201,
R207, R208, R340, R346, Table 12.5, notes/assumptions/47.md, notes/assumptions/103.md, notes/assumptions/20.md). The model's choices: log entry 47 (an
Announce with each Sync, one delay request per Sync, IEEE 802.3 or UDP), 103 (the link delay of a port), 20 (a residence that does not end now changes
nothing). -/
def Obligations.PtpMessagesAreTakenSentAndRelayed : Prop :=
  (∀ (p : Fin 128) (m : PtpMsg) (s : State), s.dev.f R.TIME_CTL.ENABLE = 1 → s.dev.lportUp p = true →
      s.dev.f R.FAB_HS.EN = 0 → zeroSum m = true ∨ m.typ = 0xC ∨ m.typ = 0xD →
    Completes (.ptpMessageReceive p m) s (fun t => t.dev.ptpCount = s.dev.ptpCount + 1 ∧ SameMem s t ∧ SameWords s t [] ∧
      { t.dev with ptpCount := s.dev.ptpCount } = s.dev)) ∧
  (∀ (p : Fin 128) (m : PtpMsg) (s : State), s.dev.f R.TIME_CTL.ENABLE = 1 → s.dev.lportUp p = true → zeroSum m = false →
      s.dev.f R.FAB_HS.EN = 0 → m.typ = 0 → m.twoStep = false → s.dev.f R.TIME_DOM_CFG.EN 0 = 1 → s.dev.f R.TIME_DOM_CFG.EN 1 = 0 →
      s.dev.f R.TIME_DOM_CFG.DOMAIN 0 = m.domain.toNat → s.dev.isSlave 0 p = true → (s.dev.slaveOf 0).mpd = none →
    Completes (.ptpMessageReceive p m) s (fun t => (t.dev.slaveOf 0).t1 = some (ptpStamp m + m.corr.toInt) ∧ (t.dev.slaveOf 0).t2 = m.rxTime ∧
      (t.dev.slaveOf 0).reqSeq = s.dev.ptpSeq ∧ t.dev.out = s.dev.out ∧
      (∃ x, t.dev.ptpQueue p = s.dev.ptpQueue p ++ [x] ∧ x.due = .asked 0 ∧ x.m.seq = BitVec.ofNat 16 s.dev.ptpSeq) ∧ t.dev.ptpSeq = (s.dev.ptpSeq + 1) % 65536 ∧
      SameMem s t ∧ SameWords s t [])) ∧
  (∀ (i : Fin 2) (s : State), s.dev.f R.TIME_CTL.ENABLE = 1 → s.dev.f R.TIME_DOM_CFG.EN i = 1 →
    Completes (.ptpSyncSend i) s (fun t => t.dev.ptpSeq = (s.dev.ptpSeq + 1) % 65536 ∧ SameMem s t ∧ SameWords s t [] ∧
      t.dev.out = s.dev.out ∧ ∀ p : Fin 128, t.dev.ptpQueue p = s.dev.ptpQueue p ++
        if s.dev.lportUp p = true ∧ s.dev.isMaster i p = true then
          [if s.dev.f R.TIME_DOM_CFG.ONE_STEP i = 0 then ⟨{ s.dev.ptpNew i p 0 s.dev.ptpSeq with twoStep := true }, Config.ptpUdp p, .follow i⟩
           else ⟨s.dev.ptpNew i p 0 s.dev.ptpSeq, Config.ptpUdp p, .origin i⟩, ⟨s.dev.ptpNew i p 0xB s.dev.ptpSeq, Config.ptpUdp p, .whole⟩]
        else [])) ∧
  (∀ (p : Fin 128) (m : PtpMsg) (residence : Nat) (s : State), s.dev.f R.TIME_CTL.ENABLE = 1 → s.dev.f R.TIME_TC.EN = 1 →
      (s.dev.f R.TIME_TC.PORTS).testBit (p / 4) = true → s.dev.lportUp p = true → s.dev.f R.TIME_TC.DOM_LO ≤ m.domain.toNat →
      m.domain.toNat ≤ s.dev.f R.TIME_TC.DOM_HI → s.dev.tracked m.domain.toNat = false →
      (m.rxTime + residence) % tbMod = s.dev.tb → s.dev.f R.FAB_HS.EN = 0 → m.udp = none → m.typ.toNat < 4 →
    Completes (.ptpRelay p m residence) s (fun t => SameMem s t ∧ SameWords s t [] ∧ SameUnitsBut
      (((List.range 128).filter (fun q => q / 4 != p.val / 4 && (s.dev.f R.TIME_TC.PORTS).testBit (q / 4) && s.dev.lportUp q)).map
        (fun q => .ptp q { m with corr := m.corr + BitVec.ofNat 64 (residence + s.dev.portDelay p) })) s t)) ∧
  (∀ (p : Fin 128) (m : PtpMsg) (residence : Nat) (u : Udp) (s : State), s.dev.f R.TIME_CTL.ENABLE = 1 → s.dev.f R.TIME_TC.EN = 1 →
      (s.dev.f R.TIME_TC.PORTS).testBit (p / 4) = true → s.dev.lportUp p = true → s.dev.f R.TIME_TC.DOM_LO ≤ m.domain.toNat →
      m.domain.toNat ≤ s.dev.f R.TIME_TC.DOM_HI → s.dev.tracked m.domain.toNat = false →
      (m.rxTime + residence) % tbMod = s.dev.tb → s.dev.f R.FAB_HS.EN = 0 → m.udp = some u → u.cksum ≠ 0 → m.typ.toNat < 4 →
    Completes (.ptpRelay p m residence) s (fun t => SameMem s t ∧ SameWords s t [R.TIME_ERR.TRAILER.key 0] ∧
      t.dev.f R.TIME_ERR.TRAILER =
        (if hasTrailer u then s.dev.f R.TIME_ERR.TRAILER else min (s.dev.f R.TIME_ERR.TRAILER + 1) (2 ^ R.TIME_ERR.TRAILER.w - 1)) ∧
      SameUnitsBut (((List.range 128).filter (fun q => q / 4 != p.val / 4 && (s.dev.f R.TIME_TC.PORTS).testBit (q / 4) && s.dev.lportUp q)).map
        (fun q => .ptp q { m with
          corr := m.corr + BitVec.ofNat 64 (residence + s.dev.portDelay p),
          udp := some (udpAfter u m.corr.toNat (m.corr + BitVec.ofNat 64 (residence + s.dev.portDelay p)).toNat) })) s t)) ∧
  (∀ (p : Fin 128) (m : PtpMsg) (residence : Nat) (s : State), (m.rxTime + residence) % tbMod ≠ s.dev.tb →
    Completes (.ptpRelay p m residence) s (fun t => t = s))

/-- A mark and an echo are taken while the anchor that heard them is up, the echo with the mean path delay (R194, R204, R205, notes/assumptions/48.md,
notes/assumptions/45.md, notes/assumptions/20.md). The model's choices: log entry 48 (MARK and ECHO are taken whatever TIME_CTL.ENABLE is), log entry
45 (the rounding of the mean), log entry 20 (with the anchor not up nothing changes). -/
def Obligations.MarksAndEchoesMeasureThePath : Prop :=
  (∀ (e : Fin 8) (p : Fin 4096) (m : TimeMark) (q : TimeEcho) (arrival : Nat) (s : State), s.dev.anchorUp e = false →
    Completes (.markReceive e p m arrival) s (fun t => t = s) ∧ Completes (.echoReceive e p q) s (fun t => t = s)) ∧
  (∀ (e : Fin 8) (p : Fin 4096) (m : TimeMark) (arrival : Nat) (s : State), s.dev.anchorUp e = true →
    Completes (.markReceive e p m arrival) s (fun t => (t.dev.mark p).seqIn = m.seq.toNat ∧
      (t.dev.mark p).dIn = some ((arrival : Int) - (((m.sec.toNat * 1000000000 + m.ns.toNat) * 65536 + m.frac.toNat : Nat) : Int)) ∧
      SameMem s t ∧ SameWords s t [])) ∧
  (∀ (e : Fin 8) (p : Fin 4096) (m : TimeEcho) (dIn : Int) (s : State), (s.dev.mark p).dIn = some dIn → m.seq ≠ 0xFFFF →
      s.dev.anchorUp e = true →
      s.dev.f R.TIME_DOM_CFG.EN 0 = 0 → s.dev.f R.TIME_DOM_CFG.EN 1 = 0 →
    Completes (.echoReceive e p m) s (fun t => countOf t.dev.dMean p = ((dIn + m.diff.toInt) / 2 / 65536).toNat + 1 ∧ SameMem s t ∧
      SameWords s t []))

/-- The time pins, the leap event, the loss of a reference, and TIME_NOW (R192, R202, R209, R210, R211, R212, Table 7.5, notes/assumptions/48.md,
notes/assumptions/20.md). The model's choices: log entry 48 (a second already pulsed is not pulsed again, and a time-of-day message less than 10 ms
after its edge is bad), log entry 20 (a pulse for such a second changes nothing). -/
def Obligations.TimePinsAndReferencesAct : Prop :=
  (∀ (bytes : List Byte) (s : State), s.dev.f R.TIME_CTL.ENABLE = 1 → s.dev.f R.TIME_TOD.IN_EN = 1 → todSeconds bytes = none →
    Completes (.todInMessage bytes) s (fun t => t.dev.f R.TIME_ERR.TOD_BAD = 1 ∧ SameMem s t ∧ SameUnits s t ∧
      SameWords s t [R.TIME_ERR.TOD_BAD.key 0])) ∧
  (∀ (bytes : List Byte) (k e : Nat) (s : State), s.dev.f R.TIME_CTL.ENABLE = 1 → s.dev.f R.TIME_TOD.IN_EN = 1 → todSeconds bytes = some k →
      s.dev.ppsEdge = some e → e + 10000000 * 65536 ≤ s.dev.tb → s.dev.tb ≤ e + 900000000 * 65536 → s.dev.usesPins 0 = true →
      s.dev.usesPins 1 = false → s.dev.f R.TIME_DOM_STAT.STATE 0 = 1 →
    Completes (.todInMessage bytes) s (fun t => t.dev.ppsEdge = none ∧ t.dev.sf R.TIME_DOM_STAT.OFFSET 0 =
      clampS 48 (((k * 1000000000 * 65536 : Nat) : Int) + s.dev.sf R.TIME_PPS.IN_DELAY * 65536 - e) ∧ SameMem s t)) ∧
  (∀ (s : State), s.dev.f R.TIME_CTL.ENABLE = 1 → s.dev.f R.TIME_PPS.OUT_EN = 1 → s.dev.ppsPulsed s.dev.ppsSecond = false →
    Completes .ppsOutPulse s (fun t => t.dev.ppsDone = addRun s.dev.ppsSecond s.dev.ppsDone ∧ SameMem s t ∧ SameWords s t [] ∧
      t.dev.out = s.dev.out ++ [.pulse "PPS_OUT" (max 1 (s.dev.f R.TIME_PPS.WIDTH))])) ∧
  (∀ (s : State), s.dev.ppsPulsed s.dev.ppsSecond = true → Completes .ppsOutPulse s (fun t => t = s)) ∧
  (∀ (s : State), s.dev.f R.TIME_CTL.ENABLE = 1 → s.dev.f R.TIME_TOD.OUT_EN = 1 →
    Completes .todOutSend s (fun t => SameMem s t ∧ SameWords s t [] ∧ SameUnitsBut [.tod (s.dev.todMessage s.dev.ppsSecond)] s t)) ∧
  (∀ (s : State), s.dev.f R.TIME_CTL.ENABLE = 1 → s.dev.f R.TIME_PPS.IN_EN = 1 →
    Completes .ppsInEdge s (fun t => t.dev.ppsEdge = some s.dev.tb ∧ SameMem s t ∧ SameWords s t [] ∧
      { t.dev with ppsEdge := s.dev.ppsEdge } = s.dev)) ∧
  (∀ (e : Nat) (s : State), s.dev.f R.TIME_CTL.ENABLE = 1 → s.dev.ppsEdge = some e → e + 900000000 * 65536 < s.dev.tb → s.dev.usesPins 0 = true ∨ s.dev.usesPins 1 = true →
    Completes .todInTimeout s (fun t => t.dev.ppsEdge = none ∧ t.dev.f R.TIME_ERR.TOD_BAD = 1 ∧ SameMem s t ∧
      SameWords s t [R.TIME_ERR.TOD_BAD.key 0])) ∧
  (∀ (s : State), s.dev.f R.TIME_CTL.ENABLE = 1 → s.dev.f R.TIME_PPS.IN_EN = 1 →
    Completes .ppsInMissing s (fun t => t.dev.f R.TIME_ERR.PPS_MISS = 1 ∧ SameMem s t ∧ SameUnits s t ∧
      SameWords s t [R.TIME_ERR.PPS_MISS.key 0])) ∧
  (∀ (s : State), s.dev.f R.TIME_TOD.LEAP = 1 ∨ s.dev.f R.TIME_TOD.LEAP = 2 →
    Completes .leapEvent s (fun t => t.dev.sf R.TIME_TOD.UTC_OFS =
        clampS 8 (s.dev.sf R.TIME_TOD.UTC_OFS + (if s.dev.f R.TIME_TOD.LEAP = 1 then 1 else -1)) ∧ t.dev.f R.TIME_TOD.LEAP = 0 ∧
      SameMem s t ∧ SameUnits s t ∧ SameWords s t [R.TIME_TOD.LEAP.key 0])) ∧
  (∀ (s : State), s.dev.f R.SYS_STRAP.CLK_EFF ≠ 0 →
    Completes (.referenceLost true true) s (fun t => t.dev.refLost = [1, 2] ∧ t.dev.f R.TIME_ERR.REF_LOST = 1 ∧ SameMem s t ∧
      SameWords s t [R.TIME_ERR.REF_LOST.key 0])) ∧
  (∀ (s : State), s.dev.f R.SYS_BOOT.STATE = 4 → s.dev.tb < 2 ^ 48 * 1000000000 * 65536 →
    Completes .timeNowRead s (fun t => t.dev.f R.TIME_NOW_SEC.SEC = s.dev.tb / 65536 / 1000000000 ∧
      t.dev.f R.TIME_NOW_NS.NS = s.dev.tb / 65536 % 1000000000 ∧ t.dev.f R.TIME_NOW_NS.FRAC = s.dev.tb % 65536 ∧
      SameMem s t ∧ SameWords s t [R.TIME_NOW_SEC.SEC.key 0, R.TIME_NOW_NS.NS.key 0] ∧
      SameUnitsBut [.readData (t.dev.word (R.TIME_NOW_SEC.SEC.key 0))] s t))

/-- The oldest ATOMIC of its sub-operation, or the oldest SIGNAL that may take effect, replaces exactly its 8 bytes with the value of Table 1.10 (R34,
R35, R36, R37, Table 1.10, notes/assumptions/13.md, notes/assumptions/37.md, notes/assumptions/20.md). The model's choices: log entry 13 (bytes toward
an endpoint count as in memory at once), log entry 37 (the oldest first, none passing another at one place, memory read and written in one step), log
entry 20 (otherwise nothing changes). -/
def Obligations.AtomicsApplyAtTheirTarget : Prop :=
  (∀ (c : Instr × Nat) (r : AtomReq) (s : State), c ∈ [(.fadd64, 0), (.cas64, 1), (.swap64, 2), (.fmin64, 3), (.fmax64, 4)] →
      s.dev.atomics.find? (fun r => !r.isSignal) = some r → r.subop = c.2 →
      s.dev.atomPasses r (fun q => q.isSignal && s.dev.signalMay q) = false →
    Completes c.1 s (fun t =>
      let key := s.dev.winKey r.win r.off
      let v := ofLE (memRead s.mem key 8)
      let new := if c.2 = 0 then (v + r.a) % 2 ^ 64 else if c.2 = 1 then (if v = r.a then r.b else v) else if c.2 = 2 then r.a
        else if c.2 = 3 then (if signed 64 r.a < signed 64 v then r.a else v) else (if signed 64 v < signed 64 r.a then r.a else v)
      (∀ j : Fin 8, memGet t.mem (key + j) = BitVec.ofNat 8 (new / 2 ^ (8 * j.val))) ∧
      SameMemBut s t key 8 ∧ t.dev.atomics.length < s.dev.atomics.length)) ∧
  (∀ (c : Instr × Nat) (r : AtomReq) (o : Op) (s : State), c ∈ [(.fadd64, 0), (.cas64, 1), (.swap64, 2), (.fmin64, 3), (.fmax64, 4)] →
      s.dev.atomics.find? (fun r => !r.isSignal) = some r → r.subop = c.2 → r.stream = none → s.dev.f R.WINDOW.LOC r.win = 1 →
      s.dev.atomPasses r (fun q => q.isSignal && s.dev.signalMay q) = false →
      s.dev.getOp r.ring r.index = some o → o.stage ≠ .done →
    Completes c.1 s (fun t => ∃ p, t.dev.getOp r.ring r.index = some p ∧ (p.stage = .done ∧
      p.value = ofLE (memRead s.mem (s.dev.winKey r.win r.off) 8) ∧ p.verdict.status = (if o.events = 0 then 0 else 0x10)))) ∧
  (∀ (r : AtomReq) (s : State), s.dev.atomics.find? (fun r => r.isSignal && s.dev.signalMay r) = some r → s.dev.f R.WINDOW.NOTIFY_EN r.win = 0 →
      s.dev.atomPasses r (fun q => !q.isSignal) = false →
    Completes .signalTakeEffect s (fun t =>
      let key := s.dev.winKey r.win r.off
      let new := (ofLE (memRead s.mem key 8) + r.a) % 2 ^ 64
      (∀ j : Fin 8, memGet t.mem (key + j) = BitVec.ofNat 8 (new / 2 ^ (8 * j.val))) ∧
      SameMemBut s t key 8 ∧ t.dev.atomics.length < s.dev.atomics.length)) ∧
  (∀ (r : AtomReq) (s : State), s.dev.atomics.find? (fun r => r.isSignal && s.dev.signalMay r) = some r → s.dev.f R.WINDOW.NOTIFY_EN r.win = 1 →
      s.dev.atomPasses r (fun q => !q.isSignal) = false → s.dev.f R.CQ_CTL.ENABLE (s.dev.f R.WINDOW.NOTIFY_CQ r.win) = 0 →
    Completes .signalTakeEffect s (fun t => t.dev.f R.CQ_ERR.DROPPED (s.dev.f R.WINDOW.NOTIFY_CQ r.win) =
      min (s.dev.f R.CQ_ERR.DROPPED (s.dev.f R.WINDOW.NOTIFY_CQ r.win) + 1) (2 ^ R.CQ_ERR.DROPPED.w - 1))) ∧
  (∀ (c : Instr × Nat) (r : AtomReq) (s : State), c ∈ [(.fadd64, 0), (.cas64, 1), (.swap64, 2), (.fmin64, 3), (.fmax64, 4)] →
      s.dev.atomics.find? (fun r => !r.isSignal) = some r → s.dev.atomPasses r (fun q => q.isSignal && s.dev.signalMay q) = true →
    Completes c.1 s (fun t => t = s)) ∧
  (∀ (r : AtomReq) (s : State), s.dev.atomics.find? (fun r => r.isSignal && s.dev.signalMay r) = some r →
      s.dev.atomPasses r (fun q => !q.isSignal) = true →
    Completes .signalTakeEffect s (fun t => t = s))

/-- GO loads, checks and reserves a record slot, TRANSFER_END moves the nest, ABORT and an error stop it, each with STATE, LAST, DONE and the record
as told (R68, R69, R70, R71, R72, Table 2.9, R65, notes/assumptions/23.md, notes/assumptions/90.md, notes/assumptions/92.md). The model's choices: log
entry 23 (a load that waits for its slot stays in RUN), 90 (a CR_CQ that names a queue which is not enabled), 92 (ABORT of a HALTED channel gives
IDLE), 3 (which value stays where several writes land). -/
def Obligations.CourierChannelsRunTheirTransfers : Prop :=
  (∀ (c : Fin 16) (s : State), s.dev.f R.SYS_BOOT.STATE = 4 → s.dev.f R.CR_STAT.STATE c = 1 ∨ s.dev.blkHeld 6 c = true →
    Completes (.courierGo c) s (fun t => t.dev.f R.CR_STAT.BUSY c = 1 ∧ SameMem s t ∧ SameUnits s t ∧ SameWords s t [R.CR_STAT.BUSY.key c])) ∧
  (∀ (c : Fin 16) (s : State), s.dev.f R.SYS_BOOT.STATE = 4 → s.dev.f R.CR_STAT.STATE c ≠ 1 → s.dev.blkHeld 6 c = false →
      s.dev.f R.CR_ATTR.REC_EN c = 0 →
    Completes (.courierGo c) s (fun t => t.dev.f R.CR_CTL.ARM c = 0 ∧ t.dev.f R.CR_STAT.LOADS c = (s.dev.f R.CR_STAT.LOADS c + 1) % 2 ^ 32 ∧
      t.dev.f R.CR_PROG.DONE c = 0 ∧ t.dev.courier c = s.dev.shadowSet c ∧ SameMem s t ∧
      SameWords s t [R.CR_CTL.ARM.key c, R.CR_STAT.STATE.key c, R.CR_PROG.DONE.key c] ∧
      match s.dev.courierCheck (s.dev.shadowSet c) with
      | none => t.dev.f R.CR_STAT.STATE c = 1
      | some v => t.dev.f R.CR_STAT.STATE c = 0 ∧ t.dev.f R.CR_STAT.LAST c = v.status)) ∧
  (∀ (c : Fin 16) (on : Bool) (s : State), s.dev.f R.SYS_BOOT.STATE = 4 → s.dev.blkHeld 6 c = false →
    Completes (.courierArm c on) s (fun t => t.dev.f R.CR_CTL.ARM c = (if on then 1 else 0) ∧ SameMem s t ∧ SameUnits s t ∧
      SameWords s t [R.CR_CTL.ARM.key c])) ∧
  (∀ (c : Fin 16) (bursts : Nat) (ok : Bool) (s : State), s.dev.f R.SYS_BOOT.STATE = 4 → s.dev.f R.CR_STAT.STATE c ≠ 1 →
    Completes (.courierAbort c bursts ok) s (fun t => t.dev.f R.CR_CTL.ARM c = 0 ∧ t.dev.f R.CR_STAT.STATE c = 0 ∧ SameMem s t ∧
      SameUnits s t ∧ SameWords s t [R.CR_CTL.ARM.key c, R.CR_STAT.STATE.key c])) ∧
  (∀ (c : Fin 16) (bursts : Nat) (ok : Bool) (s : State), s.dev.f R.SYS_BOOT.STATE = 4 → s.dev.f R.CR_STAT.STATE c = 1 →
      (s.dev.courier c).waiting = false → (s.dev.courier c).recEn = false →
    Completes (.courierAbort c bursts ok) s (fun t => t.dev.f R.CR_CTL.ARM c = 0 ∧ t.dev.f R.CR_STAT.STATE c = 0 ∧
      t.dev.f R.CR_STAT.LAST c = 0x0F ∧ t.dev.f R.CR_PROG.DONE c = min (4096 * bursts) (s.dev.courier c).moves.length % 2 ^ 64 ∧
      SameMemOff s t (((s.dev.courier c).moves.take (4096 * bursts)).map (·.2)) ∧
      SameWords s t [R.CR_CTL.ARM.key c, R.CR_STAT.STATE.key c, R.CR_PROG.DONE.key c])) ∧
  (∀ (c : Fin 16) (ok : Bool) (s : State), s.dev.f R.CR_STAT.STATE c = 1 → (s.dev.courier c).waiting = false →
      (s.dev.courier c).recEn = false → s.dev.f R.CR_CTL.ARM c = 0 →
    Completes (.courierTransferEnd c ok) s (fun t => t.dev.f R.CR_STAT.STATE c = 0 ∧ t.dev.f R.CR_STAT.LAST c = 0 ∧
      t.dev.f R.CR_PROG.DONE c = (s.dev.courier c).moves.length % 2 ^ 64 ∧
      (∀ p ∈ (s.dev.courier c).moves, p.2 ∉ (s.dev.courier c).moves.map (·.1) →
        ∃ q ∈ (s.dev.courier c).moves, q.2 = p.2 ∧ memGet t.mem p.2 = memGet s.mem q.1) ∧
      SameMemOff s t ((s.dev.courier c).moves.map (·.2)) ∧
      SameWords s t [R.CR_STAT.STATE.key c, R.CR_PROG.DONE.key c])) ∧
  (∀ (c : Fin 16) (ok : Bool) (s : State), s.dev.f R.CR_STAT.STATE c = 1 → (s.dev.courier c).waiting = false →
      (s.dev.courier c).recEn = false → s.dev.f R.CR_CTL.ARM c = 1 → s.dev.f R.CR_ATTR.REC_EN c = 0 →
      s.dev.courierCheck (s.dev.shadowSet c) = none →
    Completes (.courierTransferEnd c ok) s (fun t => t.dev.f R.CR_STAT.STATE c = 1 ∧ t.dev.f R.CR_CTL.ARM c = 0 ∧
      t.dev.f R.CR_STAT.LOADS c = (s.dev.f R.CR_STAT.LOADS c + 1) % 2 ^ 32 ∧ t.dev.courier c = s.dev.shadowSet c ∧
      SameMemOff s t ((s.dev.courier c).moves.map (·.2)))) ∧
  (∀ (c : Fin 16) (moved : Nat) (ok : Bool) (s : State), s.dev.f R.CR_STAT.STATE c = 1 → (s.dev.courier c).waiting = false →
      (s.dev.courier c).recEn = false →
    Completes (.courierMemoryError c moved ok) s (fun t => t.dev.f R.CR_STAT.STATE c = 2 ∧ t.dev.f R.CR_STAT.LAST c = 0x0F ∧
      t.dev.f R.CR_PROG.DONE c = min moved (s.dev.courier c).moves.length % 2 ^ 64 ∧ t.dev.f R.CR_CTL.ARM c = s.dev.f R.CR_CTL.ARM c ∧
      SameMemOff s t (((s.dev.courier c).moves.take moved).map (·.2)) ∧
      SameWords s t [R.CR_STAT.STATE.key c, R.CR_PROG.DONE.key c])) ∧
  (∀ (c : Fin 16) (s : State), s.dev.f R.SYS_BOOT.STATE = 4 → s.dev.f R.CR_STAT.STATE c ≠ 1 → s.dev.blkHeld 6 c = false →
      s.dev.f R.CR_ATTR.REC_EN c = 1 → s.dev.cqCredit (s.dev.f R.CR_CQ.CQ c) = 0 →
    Completes (.courierGo c) s (fun t => t.dev.f R.CR_STAT.STATE c = 1 ∧ t.dev.courier c = { s.dev.shadowSet c with waiting := true } ∧ SameMem s t ∧
      SameWords s t [R.CR_CTL.ARM.key c, R.CR_STAT.STATE.key c, R.CR_PROG.DONE.key c])) ∧
  (∀ (c : Fin 16) (s : State), s.dev.f R.SYS_BOOT.STATE = 4 → s.dev.f R.CR_STAT.STATE c ≠ 1 → s.dev.blkHeld 6 c = false →
      s.dev.f R.CR_ATTR.REC_EN c = 1 → s.dev.cqCredit (s.dev.f R.CR_CQ.CQ c) ≠ 0 → s.dev.courierCheck (s.dev.shadowSet c) = none →
    Completes (.courierGo c) s (fun t => t.dev.f R.CR_STAT.STATE c = 1 ∧ t.dev.courier c = s.dev.shadowSet c ∧
      t.dev.f R.CQ_CREDIT.RESERVED (s.dev.f R.CR_CQ.CQ c) = min (s.dev.f R.CQ_CREDIT.RESERVED (s.dev.f R.CR_CQ.CQ c) + 1) (2 ^ 32 - 1) ∧
      SameMem s t ∧ SameWords s t
        [R.CR_CTL.ARM.key c, R.CR_STAT.STATE.key c, R.CR_PROG.DONE.key c, R.CQ_CREDIT.RESERVED.key (s.dev.f R.CR_CQ.CQ c)])) ∧
  (∀ (c : Fin 16) (n : Nat) (ok : Bool) (e : Instr × Verdict × Nat × List (Nat × Nat)) (s : State),
      e ∈ [(.courierTransferEnd c ok, ⟨0, 0⟩, 0, (s.dev.courier c).moves),
        (.courierAbort c n ok, ⟨0x0F, 0x40⟩, 0, (s.dev.courier c).moves.take (4096 * n)),
        (.courierMemoryError c n ok, ⟨0x0F, 0x30⟩, 2, (s.dev.courier c).moves.take n)] →
      s.dev.f R.SYS_BOOT.STATE = 4 → s.dev.f R.CR_STAT.STATE c = 1 → (s.dev.courier c).waiting = false → (s.dev.courier c).recEn = true →
      s.dev.f R.CR_CTL.ARM c = 0 → s.dev.f R.CQ_CTL.LOC (s.dev.f R.CR_CQ.CQ c) = 0 →
    Completes e.1 s (fun t =>
      let q := s.dev.f R.CR_CQ.CQ c
      let i := s.dev.f R.CQ_STATE.TAIL q
      let sl := s.dev.f R.CQ_CTL.SIZE_LOG q
      let at_ := memKey (hostSpace (s.dev.f R.CQ_BIND.DST q)) ((s.dev.f R.CQ_BASE.ADDR q + 32 * (i % 2 ^ sl)) % 2 ^ 64)
      let rec_ := recBytes (s.dev.courierRec c (s.dev.courier c) e.2.1 e.2.2.2.length) (phaseOf sl i)
      t.dev.f R.CR_STAT.STATE c = e.2.2.1 ∧ t.dev.f R.CR_STAT.LAST c = e.2.1.status ∧ t.dev.f R.CR_PROG.DONE c = e.2.2.2.length % 2 ^ 64 ∧
      t.dev.f R.CQ_STATE.TAIL q = (i + 1) % 2 ^ 32 ∧ t.dev.f R.CQ_CREDIT.RESERVED q = s.dev.f R.CQ_CREDIT.RESERVED q - 1 ∧
      (∀ a, at_ ≤ a → a < at_ + 32 → ok = true → memGet t.mem a = rec_.getD (a - at_) 0) ∧
      ∀ a, ¬ (at_ ≤ a ∧ a < at_ + 32) → a ∉ e.2.2.2.map (·.2) → memGet t.mem a = memGet s.mem a))

/-- STREAM_OPEN sends ACCEDE for a context in ACCEDING; ACCEDE or ACCEPT of the peer opens it, REFUSE, a bad tag and the timeout do not (R157, R158,
R159, R160, R161, R188, R324, Table 6.1, Table 6.2, notes/assumptions/29.md, notes/assumptions/30.md, notes/assumptions/133.md). The model's choices:
log entry 29 (T_TX is the time at which the ACCEDE begins to leave, RTT0 its whole ns and RTTVAR the floored half), 30 (the statuses of STREAM_OPEN),
133 (a TRNG that fails before a SEALED context opens), 20 (earlier nothing changes, notes/assumptions/20.md). -/
def Obligations.ContextsOpenByAccession : Prop :=
  (∀ (w : Word) (s : State), s.dev.f R.SYS_BOOT.STATE = 4 → s.dev.f R.STREAM_CMD0.GO = 0 → cmdIs w 1 = true →
      (let d := ((s.dev.writeFields (R.STREAM_CMD0.GO.key 0) true .full w).1).set R.STREAM_CMD0.GO 0 1;
       let r := d.openAsked;
       d.f R.JOB.VALID r.key.job = 1 ∧ r.key.site ≠ d.site ∧ d.ctxOf r.key = none ∧ d.heldAccedes = [] ∧ (d.reserve r).1 = 0) →
    Completes (.streamOpen w) s (fun t =>
      let d := ((s.dev.writeFields (R.STREAM_CMD0.GO.key 0) true .full w).1).set R.STREAM_CMD0.GO 0 1
      let c := (d.reserve d.openAsked).2.2
      (t.dev.ctx c).state = .acceding ∧ (t.dev.ctx c).gen = ((s.dev.ctx c).gen + 1) % 256 ∧ (t.dev.ctx c).key = d.openAsked.key ∧
      t.dev.f R.STREAM_CMD0.GO = 1 ∧ (lastAccession t.dev).map (fun e => (e.1, e.2.1)) = some (d.openAsked.key.site, 9) ∧ SameMem s t)) ∧
  (∀ (w : Word) (c : Fin 32768) (s : State), s.dev.f R.SYS_BOOT.STATE = 4 → s.dev.f R.STREAM_CMD0.GO = 0 → cmdIs w 1 = true →
      (let d := ((s.dev.writeFields (R.STREAM_CMD0.GO.key 0) true .full w).1).set R.STREAM_CMD0.GO 0 1;
       let r := d.openAsked;
       d.f R.JOB.VALID r.key.job = 1 ∧ r.key.site ≠ d.site ∧ d.ctxOf r.key = some c.val ∧ (d.ctx c).state = .opened) →
    Completes (.streamOpen w) s (fun t => t.dev.f R.STREAM_CMD0.GO = 0 ∧ t.dev.f R.STREAM_CMD_RES.STATUS = 0 ∧
      t.dev.f R.STREAM_CMD_RES.STREAM = c ∧ SameMem s t ∧ SameUnits s t ∧
      SameWords s t [R.STREAM_CMD0.GO.key 0, R.STREAM_CMD_RES.STATUS.key 0])) ∧
  (∀ (w : Word) (s : State), s.dev.f R.SYS_BOOT.STATE = 4 → s.dev.f R.STREAM_CMD0.GO = 0 → cmdIs w 1 = true →
      (let d := ((s.dev.writeFields (R.STREAM_CMD0.GO.key 0) true .full w).1).set R.STREAM_CMD0.GO 0 1;
       let r := d.openAsked;
       d.f R.JOB.VALID r.key.job = 1 ∧ r.key.site ≠ d.site ∧ d.ctxOf r.key = none ∧ d.heldAccedes = [] ∧ d.openChecks r ≠ 0) →
    Completes (.streamOpen w) s (fun t =>
      let d := ((s.dev.writeFields (R.STREAM_CMD0.GO.key 0) true .full w).1).set R.STREAM_CMD0.GO 0 1
      t.dev.f R.STREAM_CMD0.GO = 0 ∧ t.dev.f R.STREAM_CMD_RES.STATUS = d.openChecks d.openAsked ∧ t.dev.f R.STREAM_ERR.CMD = 1 ∧
      SameMem s t ∧ SameUnits s t)) ∧
  (∀ (m : AccessionMsg) (c : Instr) (s : State),
      c ∈ [.accedeReceive m false, .acceptReceive m false, .refuseReceive m false, .deaccedeReceive m false, .deaccedeAckReceive m false] →
    Completes c s (fun t => SameMem s t ∧ SameUnits s t ∧ SameWords s t [])) ∧
  (∀ (m : AccessionMsg) (p job c : Nat) (s : State), s.dev.peerOf m.site.toNat = some p → (s.dev.contact p).msgJob m = some job →
      (s.dev.contact p).ctxOf (msgKey job m) = some c → (s.dev.ctx c).state = .acceding →
      (s.dev.contact p).ctxSealed (s.dev.ctx c) = m.sealed → s.dev.noDerive (s.dev.ctx c) = false → NothingWaits s → c < 32768 →
    Completes (.accedeReceive m true) s (fun t => (t.dev.ctx c).state = .opened ∧ (t.dev.ctx c).peerStream = m.src.toNat ∧
      (t.dev.ctx c).peerGen = m.gen.toNat ∧ (t.dev.ctx c).credit = m.credit.toNat ∧ (t.dev.ctx c).gen = (s.dev.ctx c).gen ∧
      ((s.dev.ctx c).cmd = true → t.dev.f R.STREAM_CMD0.GO = 0 ∧ t.dev.f R.STREAM_CMD_RES.STATUS = 0 ∧ t.dev.f R.STREAM_CMD_RES.STREAM = c) ∧
      SameMem s t)) ∧
  (∀ (m : AccessionMsg) (p : Nat) (s : State), s.dev.peerOf m.site.toNat = some p → (s.dev.ctx m.dst.toNat).state = .acceding →
      (s.dev.ctx m.dst.toNat).site = m.site.toNat → (s.dev.ctx m.dst.toNat).tTx = m.tEcho.toNat →
      s.dev.noDerive (s.dev.ctx m.dst.toNat) = false → NothingWaits s →
    Completes (.acceptReceive m true) s (fun t => (t.dev.ctx m.dst.toNat).state = .opened ∧ (t.dev.ctx m.dst.toNat).peerStream = m.src.toNat ∧
      (t.dev.ctx m.dst.toNat).peerGen = m.gen.toNat ∧ (t.dev.ctx m.dst.toNat).credit = m.credit.toNat ∧
      (t.dev.ctx m.dst.toNat).srtt = s.dev.tai - m.tEcho.toNat ∧ (t.dev.ctx m.dst.toNat).rttvar = (s.dev.tai - m.tEcho.toNat) / 2 ∧ SameMem s t)) ∧
  (∀ (m : AccessionMsg) (p : Nat) (s : State), s.dev.peerOf m.site.toNat = some p → (s.dev.ctx m.dst.toNat).state = .acceding →
      (s.dev.ctx m.dst.toNat).site = m.site.toNat → m.status ≠ 0 → NothingWaits s → (s.dev.ctx m.dst.toNat).tgt = [] →
    Completes (.refuseReceive m true) s (fun t => (t.dev.ctx m.dst.toNat).state = .closed ∧
      (t.dev.ctx m.dst.toNat).status = m.status.toNat ∧ (t.dev.ctx m.dst.toNat).gen = (s.dev.ctx m.dst.toNat).gen ∧ SameMem s t)) ∧
  (∀ (c : Fin 32768) (s : State), (s.dev.ctx c).state = .acceding → NothingWaits s → (s.dev.ctx c).tgt = [] →
      (s.dev.ctx c).waitFor ≤ s.dev.now - (s.dev.ctx c).since →
    Completes (.accessionTimeout c) s (fun t => (t.dev.ctx c).state = .closed ∧ (t.dev.ctx c).status = 0x0B ∧
      (t.dev.ctx c).gen = (s.dev.ctx c).gen ∧ SameMem s t)) ∧
  (∀ (c : Fin 32768) (s : State), (s.dev.ctx c).state ≠ .acceding ∨ s.dev.now - (s.dev.ctx c).since < (s.dev.ctx c).waitFor →
    Completes (.accessionTimeout c) s (fun t => t = s)) ∧
  (∀ (job : Fin 4096) (site : Fin 32) (cls : Fin 16) (v : Fin 4) (h : HeldAccede) (s : State),
      s.dev.heldAccedes.find? (fun h => s.dev.msgJob h.msg == some job.val && msgKey job h.msg == ⟨job, site, cls, if cls.val = 0 then 0 else v⟩) = some h →
      h.wait ≤ s.dev.now - h.since → s.dev.f R.TENANT.PLACE_MODE (s.dev.f R.JOB.TENANT job) = 0 → s.dev.ctxOf ⟨job, site, cls, if cls.val = 0 then 0 else v⟩ = none →
    Completes (.accedeHoldExpiry job site cls v) s (fun t => t.dev.heldAccedes = s.dev.heldAccedes.filter (fun x => x != h) ∧
      lastAccession t.dev = some (h.msg.site.toNat, 0xB, 0x03, h.msg.src.toNat) ∧ t.dev.ctxs = s.dev.ctxs ∧ SameMem s t ∧ SameWords s t [])) ∧
  (∀ (m : AccessionMsg) (p : Nat) (s : State), s.dev.peerOf m.site.toNat = some p → (s.dev.ctx m.dst.toNat).state = .acceding →
      (s.dev.ctx m.dst.toNat).site = m.site.toNat → (s.dev.ctx m.dst.toNat).tTx = m.tEcho.toNat →
      s.dev.noDerive (s.dev.ctx m.dst.toNat) = true → NothingWaits s → (s.dev.ctx m.dst.toNat).tgt = [] →
    Completes (.acceptReceive m true) s (fun t => (t.dev.ctx m.dst.toNat).state = .closed ∧ (t.dev.ctx m.dst.toNat).status = 0x0D ∧
      (t.dev.ctx m.dst.toNat).gen = (s.dev.ctx m.dst.toNat).gen ∧ SameMem s t))

/-- STREAM_CLOSE, IDLE_CLOSE and DEACCEDE drain a context; ABORT, the end of draining and the end of a fenced quarter's context close it (R156, R162,
R163, R188, Table 6.1, Table 6.2, notes/assumptions/20.md, notes/assumptions/30.md, notes/assumptions/32.md, notes/assumptions/34.md,
notes/assumptions/99.md). The model's choices: log entry 30 (STATUS 0x0F stays in the context that ABORT closes), 32 (what the peer left unfinished
does not count), 34 (a context of a fenced quarter without unreceipted segments closes), 99 (a DEACCEDE with DST_STREAM 0x7FFF), 20 (earlier nothing
changes). -/
def Obligations.ContextsDrainAndClose : Prop :=
  (∀ (w : Word) (s : State), s.dev.f R.SYS_BOOT.STATE = 4 → s.dev.f R.STREAM_CMD0.GO = 0 → cmdIs w 2 = true →
      (s.dev.ctx (bitsOf w R.STREAM_CMD0.STREAM.lo R.STREAM_CMD0.STREAM.w)).state = .opened →
    Completes (.streamClose w) s (fun t =>
      let c := bitsOf w R.STREAM_CMD0.STREAM.lo R.STREAM_CMD0.STREAM.w
      t.dev.ctx c = { s.dev.ctx c with state := .draining } ∧ t.dev.f R.STREAM_CMD_RES.STATUS = 0 ∧ t.dev.f R.STREAM_CMD_RES.STREAM = c ∧
      t.dev.f R.STREAM_CMD0.GO = 0 ∧ { t.dev with words := s.dev.words, ctxs := s.dev.ctxs } = s.dev ∧ SameMem s t ∧
      SameWords s t [R.STREAM_CMD0.GO.key 0, R.STREAM_CMD_RES.STATUS.key 0])) ∧
  (∀ (w : Word) (s : State), s.dev.f R.SYS_BOOT.STATE = 4 → s.dev.f R.STREAM_CMD0.GO = 0 → cmdIs w 3 = true → NothingWaits s →
      (s.dev.ctx (bitsOf w R.STREAM_CMD0.STREAM.lo R.STREAM_CMD0.STREAM.w)).state ≠ .closed →
      (s.dev.ctx (bitsOf w R.STREAM_CMD0.STREAM.lo R.STREAM_CMD0.STREAM.w)).tgt = [] →
    Completes (.streamAbort w) s (fun t =>
      let c := bitsOf w R.STREAM_CMD0.STREAM.lo R.STREAM_CMD0.STREAM.w
      (t.dev.ctx c).state = .closed ∧ (t.dev.ctx c).gen = (s.dev.ctx c).gen ∧ (t.dev.ctx c).status = 0x0F ∧ (t.dev.ctx c).log = [] ∧
      (t.dev.ctx c).txBufs = [] ∧ (t.dev.ctx c).rxBufs = [] ∧ t.dev.f R.STREAM_CMD_RES.STATUS = 0 ∧ t.dev.f R.STREAM_CMD_RES.STREAM = c ∧
      t.dev.f R.STREAM_CMD0.GO = 0 ∧ SameMem s t)) ∧
  (∀ (m : AccessionMsg) (p c : Nat) (s : State), s.dev.peerOf m.site.toNat = some p → s.dev.namedCtx m = c → (s.dev.ctx c).named m = true →
      (s.dev.ctx c).state = .opened ∨ (s.dev.ctx c).state = .draining → m.status ≠ 0x0F →
    Completes (.deaccedeReceive m true) s (fun t => t.dev.ctx c = { s.dev.ctx c with state := .draining, deRcvd := true } ∧
      { t.dev with words := s.dev.words, ctxs := s.dev.ctxs, peers := s.dev.peers } = s.dev ∧ SameMem s t ∧
      SameWords s t [R.HEALTH_PEER.STATE.key p])) ∧
  (∀ (m : AccessionMsg) (p c : Nat) (s : State), s.dev.peerOf m.site.toNat = some p → s.dev.namedCtx m = c → (s.dev.ctx c).named m = true →
      (s.dev.ctx c).state = .opened ∨ (s.dev.ctx c).state = .draining → m.status = 0x0F → NothingWaits s → (s.dev.ctx c).tgt = [] →
    Completes (.deaccedeReceive m true) s (fun t => (t.dev.ctx c).state = .closed ∧ (t.dev.ctx c).gen = (s.dev.ctx c).gen ∧
      lastAccession t.dev = some (m.site.toNat, 0xD, 0, m.src.toNat) ∧ SameMem s t)) ∧
  (∀ (m : AccessionMsg) (p : Nat) (s : State), s.dev.peerOf m.site.toNat = some p → m.status = 0x0F →
      (s.dev.ctx (s.dev.namedCtx m)).named m = false →
    Completes (.deaccedeReceive m true) s (fun t =>
      t.dev.heldAccedes = s.dev.heldAccedes.filter (fun h => !(h.msg.site == m.site && h.msg.src == m.src && h.msg.gen == m.gen)) ∧
      { t.dev with words := s.dev.words, heldAccedes := s.dev.heldAccedes, peers := s.dev.peers } = s.dev ∧ SameMem s t ∧
      SameWords s t [R.HEALTH_PEER.STATE.key p])) ∧
  (∀ (m : AccessionMsg) (p : Nat) (s : State), s.dev.peerOf m.site.toNat = some p → (s.dev.ctx m.dst.toNat).named m = true →
      (s.dev.ctx m.dst.toNat).state = .draining → (s.dev.ctx m.dst.toNat).deSent = true → NothingWaits s →
    Completes (.deaccedeAckReceive m true) s (fun t => (t.dev.ctx m.dst.toNat).state = .closed ∧
      (t.dev.ctx m.dst.toNat).gen = (s.dev.ctx m.dst.toNat).gen ∧ (t.dev.ctx m.dst.toNat).status = (s.dev.ctx m.dst.toNat).status ∧ SameMem s t)) ∧
  (∀ (c : Fin 32768) (s : State), (s.dev.ctx c).state = .opened → s.dev.f R.STREAM_DFLT.IDLE_CLOSE ≠ 0 → s.dev.ops = [] →
      (s.dev.ctx c).sendq = [] → (s.dev.ctx c).tgt = [] → s.dev.f R.STREAM_DFLT.IDLE_CLOSE * 1000000 ≤ s.dev.now - (s.dev.ctx c).lastUse →
    Completes (.idleClose c) s (fun t => t.dev.ctx c = { s.dev.ctx c with state := .draining } ∧
      { t.dev with ctxs := s.dev.ctxs } = s.dev ∧ SameMem s t)) ∧
  (∀ (c : Fin 32768) (s : State), (s.dev.ctx c).state = .draining → s.dev.drained c = true → (s.dev.ctx c).deRcvd = false →
      (s.dev.ctx c).deSent = false →
    Completes (.drainComplete c) s (fun t => t.dev.ctx c = { s.dev.ctx c with deSent := true } ∧
      lastAccession t.dev = some ((s.dev.ctx c).site, 0xC, 0, (s.dev.ctx c).peerStream % 2 ^ 15) ∧ SameMem s t ∧ SameWords s t [])) ∧
  (∀ (c : Fin 32768) (s : State), (s.dev.ctx c).state = .draining → s.dev.drained c = true → (s.dev.ctx c).deRcvd = true → NothingWaits s →
    Completes (.drainComplete c) s (fun t => (t.dev.ctx c).state = .closed ∧ (t.dev.ctx c).gen = (s.dev.ctx c).gen ∧
      lastAccession t.dev = some ((s.dev.ctx c).site, 0xD, 0, (s.dev.ctx c).peerStream % 2 ^ 15) ∧ SameMem s t)) ∧
  (∀ (c : Fin 32768) (s : State), (s.dev.ctx c).fenceWait = true → (s.dev.ctx c).sendq = [] → (s.dev.ctx c).tgt = [] → (s.dev.ctx c).cls = 0 →
      (s.dev.ctx c).waitFor ≤ s.dev.now - (s.dev.ctx c).since → NothingWaits s →
    Completes (.quarterContextEnd c) s (fun t => (t.dev.ctx c).state = .closed ∧ (t.dev.ctx c).gen = (s.dev.ctx c).gen ∧
      (t.dev.ctx c).status = (if (s.dev.ctx c).log.any (fun e => !e.receipted) then 0x0C else (s.dev.ctx c).status) ∧ SameMem s t)) ∧
  (∀ (c : Fin 32768) (s : State), (s.dev.ctx c).fenceWait = false ∨ s.dev.now - (s.dev.ctx c).since < (s.dev.ctx c).waitFor →
    Completes (.quarterContextEnd c) s (fun t => t = s))

/-- A receipt is sent when due; one that is accepted moves SND_UNA and the credit; a bad tag or a stale Catalogue phase counts; a timeout resends
(R168, R169, R170, R172, R174, R218, R319, Table 6.5, notes/assumptions/20.md). The model's choices: log entry 20 (before the timer has run nothing
changes), 29 (round-trip samples in whole ns). -/
def Obligations.ReceiptsMoveTheSendingWindow : Prop :=
  (∀ (c : Fin 32768) (s : State), (s.dev.ctx c).state = .opened ∨ (s.dev.ctx c).state = .draining → (s.dev.ctx c).arrived ≠ 0 →
      max (s.dev.f R.STREAM_TIMER.RCPT_INT) 1 * 1000 ≤ s.dev.now - (s.dev.ctx c).lastRcpt →
      (s.dev.streamKey (s.dev.ctx c) false (epochOf (s.dev.ctx c).rcvCum)).isSome = true →
    Completes (.receiptTimer c) s (fun t => (t.dev.ctx c).arrived = 0 ∧ (t.dev.ctx c).rseqOut = (s.dev.ctx c).rseqOut + 1 ∧
      (t.dev.ctx c).lastRcpt = s.dev.now ∧ (t.dev.ctx c).lastCum = (s.dev.ctx c).rcvCum ∧ (t.dev.ctx c).rcvCum = (s.dev.ctx c).rcvCum ∧
      t.dev.ctlQ.length = s.dev.ctlQ.length + 1 ∧ SameMem s t)) ∧
  (∀ (r : Receipt) (ok : Bool) (s : State), s.dev.f R.STREAM_CTL.ENABLE = 1 → s.dev.cepOk r.cep = false →
    Completes (.receiptReceive r ok) s (fun t =>
      t.dev.f R.CAT_ERR.CEP_STALE = min (s.dev.f R.CAT_ERR.CEP_STALE + 1) (2 ^ R.CAT_ERR.CEP_STALE.w - 1) ∧
      SameMem s t ∧ SameUnits s t ∧ SameWords s t [R.CAT_ERR.CEP_STALE.key 0])) ∧
  (∀ (r : Receipt) (s : State), s.dev.f R.STREAM_CTL.ENABLE = 1 → s.dev.cepOk r.cep = true →
      (s.dev.ctx r.dst.toNat).state = .opened ∨ (s.dev.ctx r.dst.toNat).state = .draining → (s.dev.ctx r.dst.toNat).gen = r.gen.toNat →
    Completes (.receiptReceive r false) s (fun t =>
      t.dev.f R.VT_CNT2.RCPT_AUTH = min (s.dev.f R.VT_CNT2.RCPT_AUTH + 1) (2 ^ R.VT_CNT2.RCPT_AUTH.w - 1) ∧
      SameMem s t ∧ SameUnits s t ∧ SameWords s t [R.VT_CNT2.RCPT_AUTH.key 0])) ∧
  (∀ (r : Receipt) (p : Nat) (s : State), s.dev.f R.STREAM_CTL.ENABLE = 1 → s.dev.cepOk r.cep = true →
      (s.dev.ctx r.dst.toNat).state = .opened ∨ (s.dev.ctx r.dst.toNat).state = .draining → (s.dev.ctx r.dst.toNat).gen = r.gen.toNat →
      s.dev.peerOf (s.dev.ctx r.dst.toNat).site = some p →
      (s.dev.ctx r.dst.toNat).rseqIn.all (fun old => decide (0 < diff32 r.rseq.toNat old)) = true →
      ((s.dev.ctx r.dst.toNat).sndUna : Int) ≤ wholeSeq (s.dev.ctx r.dst.toNat).sndUna r.cum.toNat →
      wholeSeq (s.dev.ctx r.dst.toNat).sndUna r.cum.toNat ≤ ((s.dev.ctx r.dst.toNat).sndNxt : Int) →
      (∀ e ∈ (s.dev.ctx r.dst.toNat).log, e.attempts < 8) →
    Completes (.receiptReceive r true) s (fun t =>
      ((t.dev.ctx r.dst.toNat).sndUna : Int) = wholeSeq (s.dev.ctx r.dst.toNat).sndUna r.cum.toNat ∧
      (t.dev.ctx r.dst.toNat).credit = r.credit.toNat ∧ (t.dev.ctx r.dst.toNat).rseqIn = some r.rseq.toNat ∧
      (t.dev.ctx r.dst.toNat).state = (s.dev.ctx r.dst.toNat).state ∧ (t.dev.ctx r.dst.toNat).sndNxt = (s.dev.ctx r.dst.toNat).sndNxt ∧
      (∀ e ∈ (t.dev.ctx r.dst.toNat).log, wholeSeq (s.dev.ctx r.dst.toNat).sndUna r.cum.toNat ≤ (e.seq : Int)) ∧ SameMem s t)) ∧
  (∀ (c : Fin 32768) (t0 run : Nat) (s : State), (s.dev.ctx c).timer = some (t0, run) → run ≤ s.dev.now - t0 →
      (∀ e ∈ (s.dev.ctx c).log, e.attempts < 8) →
    Completes (.retransmissionTimeout c) s (fun t =>
      t.dev.f R.STREAM_STAT_TIMEOUT.TIMEOUT (s.dev.ctx c).home = min (s.dev.f R.STREAM_STAT_TIMEOUT.TIMEOUT (s.dev.ctx c).home + 1) (2 ^ 64 - 1) ∧
      (t.dev.ctx c).backoff = min ((s.dev.ctx c).backoff + 1) 7 ∧ (t.dev.ctx c).timer = some (s.dev.now,
        min (s.dev.rto (s.dev.ctx c) * 2 ^ min ((s.dev.ctx c).backoff + 1) 7) (s.dev.f R.STREAM_TIMER.RTO_MAX * 1000000)) ∧
      ((s.dev.ctx c).log.find? (fun e => !e.receipted && decide (0 < e.attempts) && decide (s.dev.rto (s.dev.ctx c) ≤ s.dev.since e.lastSend))).all
        (fun e => (t.dev.ctx c).log.any (fun g => g.seq == e.seq && g.resend)) = true ∧
      { t.dev with words := s.dev.words, ctxs := s.dev.ctxs, wfq := s.dev.wfq } = s.dev ∧ SameMem s t ∧
      SameWords s t [R.STREAM_STAT_TIMEOUT.TIMEOUT.key (s.dev.ctx c).home])) ∧
  (∀ (c : Fin 32768) (t0 run : Nat) (s : State), (s.dev.ctx c).timer = none ∨ ((s.dev.ctx c).timer = some (t0, run) ∧ s.dev.now - t0 < run) →
    Completes (.retransmissionTimeout c) s (fun t => t = s))

/-- A failed stack stops or moves the logs on it; resilvering ends; pools are enabled after their checks and take back only buffers on loan (R179,
R180, R181, R183, R184, R185, R374, Table 6.6, notes/assumptions/14.md, notes/assumptions/100.md, notes/assumptions/20.md). The model's choices: log
entry 14 (every page of a stack but SPARE may be used), 100 (copying runs at RESILVER_BW), 20 (before the copy is whole nothing changes). -/
def Obligations.StacksAndPoolsServeContexts : Prop :=
  (∀ (k : Fin 8) (s : State), s.dev.wingPresent (k.val / 2) = true → s.dev.f R.ANNEX_STK.FAILED k = 0 →
      s.dev.f R.ANNEX_STK.FAILED (if k.val % 2 = 0 then k.val + 1 else k.val - 1) = 0 → s.dev.deltasOut = [] → s.dev.deltasIn = [] → s.dev.ctxs = [] →
    Completes (.stackFailure k) s (fun t => t.dev.f R.ANNEX_STK.FAILED k = 1 ∧ SameMem s t ∧
      SameWords s t [R.ANNEX_STK.FAILED.key k, R.HEALTH_ALM_DROP.OVERFLOW.key 0] ∧
      { t.dev with words := s.dev.words, alarms := s.dev.alarms, overflow := s.dev.overflow } = s.dev)) ∧
  (∀ (k : Fin 8) (c : Nat) (x : Ctx) (s : State), s.dev.wingPresent (k.val / 2) = true → s.dev.f R.ANNEX_STK.FAILED k = 0 →
      s.dev.f R.ANNEX_STK.FAILED (if k.val % 2 = 0 then k.val + 1 else k.val - 1) = 0 → s.dev.deltasOut = [] → s.dev.deltasIn = [] →
      s.dev.ctxs = [(c, x)] → x.reserved = true → s.dev.wingEnabled x.home = true → x.copyA = k → x.copyB = k →
      s.dev.resilver = [] →
    Completes (.stackFailure k) s (fun t => t.dev.f R.ANNEX_STK.FAILED k = 1 ∧
      t.dev.ctx c = { x with noLog := true, stackWait := some k.val, since := s.dev.now, waitFor := s.dev.rto x } ∧ SameMem s t)) ∧
  (∀ (k : Fin 8) (c : Nat) (x : Ctx) (s : State), s.dev.wingPresent (k.val / 2) = true → s.dev.f R.ANNEX_STK.FAILED k = 0 →
      s.dev.f R.ANNEX_STK.FAILED (if k.val % 2 = 0 then k.val + 1 else k.val - 1) = 0 → s.dev.deltasOut = [] → s.dev.deltasIn = [] →
      s.dev.ctxs = [(c, x)] → x.reserved = true → s.dev.wingEnabled x.home = true → x.copyA = k → x.copyB ≠ k → x.copyB < 8 → s.dev.resilver = [] →
    Completes (.stackFailure k) s (fun t => t.dev.f R.ANNEX_STK.FAILED k = 1 ∧ t.dev.f R.ANNEX_RSLV.FAILED = k ∧
      t.dev.f R.ANNEX_RSLV.SURV = x.copyB ∧ (t.dev.ctx c).copyA = x.copyB ∧ (t.dev.ctx c).log = x.log ∧
      (t.dev.f R.ANNEX_RSLV.STATE = 1 ∨ t.dev.f R.ANNEX_RSLV.STATE = 3) ∧
      (t.dev.f R.ANNEX_RSLV.STATE = 1 → t.dev.resilver =
        [⟨c, s.dev.now, s.dev.resilverRate, s.dev.now + ceilDiv x.logUsed s.dev.resilverRate⟩]) ∧ SameMem s t)) ∧
  (∀ (c : Fin 32768) (k : Nat) (s : State), (s.dev.ctx c).stackWait = some k → (∀ e ∈ (s.dev.ctx c).log, e.receipted = true) →
      (s.dev.ctx c).waitFor ≤ s.dev.now - (s.dev.ctx c).since →
      s.dev.f R.ANNEX_STK.FAILED (if k % 2 = 0 then k + 1 else k - 1) = 0 → 2 ≤ s.dev.stackFree (if k % 2 = 0 then k + 1 else k - 1) →
    Completes (.annexRelocate c) s (fun t =>
      let o := if k % 2 = 0 then k + 1 else k - 1
      let n := min (s.dev.ctx c).pages (s.dev.stackFree o)
      t.dev.ctx c = { s.dev.ctx c with copyA := o, copyB := o, stack := o % 2, logPages := n, noLog := false, stackWait := none } ∧
      SameMem s t ∧ SameWords s t [])) ∧
  (∀ (c : Fin 32768) (k : Nat) (s : State), (s.dev.ctx c).stackWait = some k → (s.dev.ctx c).log.any (fun e => !e.receipted) = true →
      (s.dev.ctx c).waitFor ≤ s.dev.now - (s.dev.ctx c).since → NothingWaits s → (s.dev.ctx c).tgt = [] → (s.dev.ctx c).state = .opened →
    Completes (.annexRelocate c) s (fun t => (t.dev.ctx c).state = .closed ∧ (t.dev.ctx c).status = 0x0C ∧
      (t.dev.ctx c).gen = (s.dev.ctx c).gen ∧ SameMem s t)) ∧
  (∀ (c : Fin 32768) (r : Resilver) (s : State), s.dev.resilver = [r] → r.ctx = c → s.dev.resilverRest r = 0 →
    Completes (.resilverComplete c) s (fun t => t.dev.resilver = [] ∧ t.dev.f R.ANNEX_RSLV.STATE = 2 ∧ t.dev.resilverLeft = 0 ∧
      { t.dev with words := s.dev.words, resilver := s.dev.resilver } = s.dev ∧ SameMem s t ∧ SameWords s t [R.ANNEX_RSLV.STATE.key 0])) ∧
  (∀ (c : Fin 32768) (s : State), (∀ r ∈ s.dev.resilver, r.ctx = c → s.dev.resilverRest r ≠ 0) →
    Completes (.resilverComplete c) s (fun t => t = s)) ∧
  (∀ (p : Fin 64) (ptr : BitVec 40) (s : State),
      (let size := s.dev.f R.BPM_POOL_CFG.SIZE p * 64;
       let base := s.dev.f R.BPM_POOL_BASE.BASE p;
       ptr.toNat < base ∨ size = 0 ∨ (ptr.toNat - base) % size ≠ 0 ∨ s.dev.f R.BPM_POOL_CFG.COUNT p ≤ (ptr.toNat - base) / size) →
    Completes (.bufferReturn p ptr) s (fun t =>
      t.dev.f R.BPM_ERR.BAD_PTR = min (s.dev.f R.BPM_ERR.BAD_PTR + 1) 65535 ∧ t.dev.bpmBits = s.dev.bpmBits ∧ t.dev.ctxs = s.dev.ctxs ∧
      SameMem s t ∧ SameWords s t [R.BPM_ERR.BAD_PTR.key 0, R.HEALTH_ALM_DROP.OVERFLOW.key 0])) ∧
  (∀ (p : Fin 64) (i : Nat) (ptr : BitVec 40) (s : State), 0 < s.dev.f R.BPM_POOL_CFG.SIZE p → i < s.dev.f R.BPM_POOL_CFG.COUNT p →
      ptr.toNat = s.dev.f R.BPM_POOL_BASE.BASE p + i * (s.dev.f R.BPM_POOL_CFG.SIZE p * 64) → i ∉ s.dev.lent p →
    Completes (.bufferReturn p ptr) s (fun t =>
      t.dev.f R.BPM_ERR.DOUBLE = min (s.dev.f R.BPM_ERR.DOUBLE + 1) 65535 ∧ t.dev.bpmBits = s.dev.bpmBits ∧ t.dev.ctxs = s.dev.ctxs ∧
      SameMem s t ∧ SameWords s t [R.BPM_ERR.DOUBLE.key 0, R.HEALTH_ALM_DROP.OVERFLOW.key 0])) ∧
  (∀ (p : Fin 64) (i : Nat) (ptr : BitVec 40) (s : State), 0 < s.dev.f R.BPM_POOL_CFG.SIZE p → i < s.dev.f R.BPM_POOL_CFG.COUNT p →
      ptr.toNat = s.dev.f R.BPM_POOL_BASE.BASE p + i * (s.dev.f R.BPM_POOL_CFG.SIZE p * 64) → i ∈ s.dev.lent p →
    Completes (.bufferReturn p ptr) s (fun t => t.dev.lent p = (s.dev.lent p).filter (fun j => j != i) ∧
      t.dev.f R.BPM_ERR.DOUBLE = s.dev.f R.BPM_ERR.DOUBLE ∧ t.dev.f R.BPM_ERR.BAD_PTR = s.dev.f R.BPM_ERR.BAD_PTR ∧ SameMem s t)) ∧
  (∀ (p : Fin 64) (w : Word) (s : State), s.dev.f R.SYS_BOOT.STATE = 4 → s.dev.f R.BPM_POOL_CFG.EN p = 0 → s.dev.poolIdle p = true → bitsOf w 0 1 = 1 →
    Completes (.poolEnable p .full w) s (fun t =>
      let d := s.dev.writeReg (R.BPM_POOL_CFG.EN.key p) true .full w R.BPM_ERR.BUSY
      t.dev.f R.BPM_POOL_CFG.SIZE p = bitsOf w 8 11 ∧ t.dev.f R.BPM_POOL_CFG.COUNT p = bitsOf w 20 20 ∧ t.dev.f R.BPM_POOL_CFG.LOC p = bitsOf w 1 3 ∧
      (if d.poolOk p then t.dev.f R.BPM_POOL_CFG.EN p = 1 ∧ t.dev.f R.BPM_POOL_STAT.FREE p = d.poolFree p ∧ t.dev.f R.BPM_POOL_STAT.LOW p = d.poolFree p
       else t.dev.f R.BPM_POOL_CFG.EN p = 0 ∧ t.dev.f R.BPM_ERR.MISMATCH = 1) ∧ SameMem s t ∧ SameUnits s t ∧
      SameWords s t [R.BPM_POOL_CFG.EN.key p, R.BPM_POOL_STAT.FREE.key p, R.BPM_ERR.MISMATCH.key 0])) ∧
  (∀ (p : Fin 64) (s : State), s.dev.f R.SYS_BOOT.STATE = 4 →
    Completes (.bpmPoolStatRead p) s (fun t => t.dev.f R.BPM_POOL_STAT.LOW p = s.dev.f R.BPM_POOL_STAT.FREE p ∧
      SameUnitsBut [.readData (s.dev.word (R.BPM_POOL_STAT.FREE.key p))] s t ∧ SameMem s t ∧ SameWords s t [R.BPM_POOL_STAT.FREE.key p]))

/-- TOUR_CTL enables an engine after the check of its provenance buffer; TOUR_PROV_IDX moves RD forward; tour sets are read, written and published
(R11, R16, R99, R101, R103, R104, R105, R106, Table 3.7, Table 4.1, R12, notes/assumptions/86.md). The model's choices: log entry 86 (a boundary in
the tick of the write takes the shadow as it was before it). -/
def Obligations.TourSetsAndEnginesAreEnabledAfterTheirChecks : Prop :=
  (∀ (v : Fin 4) (w : Word) (s : State), s.dev.f R.SYS_BOOT.STATE = 4 → s.dev.wingPresent v = true → s.dev.f R.TOUR_CTL.ENABLE v = 0 → s.dev.blkHeld 1 v = false →
      s.dev.colls = [] → bitsOf w 0 1 = 1 →
    Completes (.tourCtlWrite v .full w) s (fun t =>
      let size := s.dev.f R.TOUR_PROV_BASE.SIZE_LOG v
      let base := s.dev.f R.TOUR_PROV_BASE.ADDR v
      let bad := bitsOf w 4 2 ≠ 0 ∧ (size < 10 ∨ 20 < size ∨ base % 32 ≠ 0 ∨ s.dev.outsideHbm ((base : Int), ((base + 32 * 2 ^ size - 1 : Nat) : Int)) = true)
      t.dev.f R.TOUR_CTL.ENABLE v = (if bad then 0 else 1) ∧ t.dev.f R.TOUR_CTL.PROV_MODE v = bitsOf w 4 2 ∧
      t.dev.f R.TOUR_CTL.FENCE_THR v = bitsOf w 8 8 ∧ (bad → t.dev.f R.TOUR_ERR.MISMATCH v = 1) ∧ SameMem s t ∧
      t.dev.shadow v = s.dev.shadow v ∧ { t.dev with words := s.dev.words, shadowAt := s.dev.shadowAt } = s.dev ∧
      SameWords s t [R.TOUR_CTL.ENABLE.key v, R.TOUR_ERR.MISMATCH.key v])) ∧
  (∀ (v : Fin 4) (w : Word) (s : State), s.dev.f R.SYS_BOOT.STATE = 4 → s.dev.wingPresent v = true → s.dev.f R.TOUR_CTL.ENABLE v = 1 → bitsOf w 0 1 = 0 →
    Completes (.tourCtlWrite v .full w) s (fun t => t.dev.f R.TOUR_CTL.ENABLE v = 0 ∧ t.dev.colls.map (·.id) = s.dev.colls.map (·.id) ∧
      { t.dev with words := s.dev.words, colls := s.dev.colls, shadowAt := s.dev.shadowAt } = s.dev ∧ SameMem s t ∧
      SameWords s t [R.TOUR_CTL.ENABLE.key v, R.TOUR_ERR.BUSY.key v])) ∧
  (∀ (v : Fin 4) (w : Word) (s : State), s.dev.wingPresent v = false →
    Completes (.tourCtlWrite v .full w) s (fun t => t = s) ∧ Completes (.tourProvIdxWrite v .full w) s (fun t => t = s)) ∧
  (∀ (v : Fin 4) (w : Word) (s : State), s.dev.f R.SYS_BOOT.STATE = 4 → s.dev.wingPresent v = true →
    Completes (.tourProvIdxWrite v .full w) s (fun t =>
      let old := s.dev.f R.TOUR_PROV_IDX.RD v
      let new := bitsOf w 32 32
      t.dev.f R.TOUR_PROV_IDX.RD v =
        (if (new + 2 ^ 32 - old) % 2 ^ 32 ≤ (s.dev.f R.TOUR_PROV_IDX.WR v + 2 ^ 32 - old) % 2 ^ 32 then new else old) ∧
      t.dev.f R.TOUR_PROV_IDX.WR v = s.dev.f R.TOUR_PROV_IDX.WR v ∧ SameMem s t ∧ SameUnits s t ∧ SameWords s t [R.TOUR_PROV_IDX.RD.key v])) ∧
  (∀ (a : Access) (s : State), s.dev.f R.SYS_BOOT.STATE = 4 → 5 ≤ s.dev.f R.TOUR_TS_SEL.WORD →
    Completes (.tourTsDataAccess a) s (fun t => t.dev.f R.TOUR_TS_ERR.RANGE = 1 ∧ SameMem s t ∧
      SameUnitsBut (match a with | .read => [.readData 0] | .write _ _ => []) s t ∧ SameWords s t [R.TOUR_TS_ERR.RANGE.key 0])) ∧
  (∀ (s : State), s.dev.f R.SYS_BOOT.STATE = 4 → s.dev.f R.TOUR_TS_SEL.WORD < 5 →
    Completes (.tourTsDataAccess .read) s (fun t =>
      SameUnitsBut [.readData (s.dev.tsWord (s.dev.f R.TOUR_TS_SEL.INDEX) (s.dev.f R.TOUR_TS_SEL.WORD))] s t ∧ SameMem s t ∧
      SameWords s t [R.TOUR_TS_SEL.WORD.key 0])) ∧
  (∀ (w : Word) (s : State), s.dev.f R.SYS_BOOT.STATE = 4 → s.dev.f R.TOUR_TS_SEL.WORD = 0 →
      s.dev.f R.TOURSET.VALID (s.dev.f R.TOUR_TS_SEL.INDEX) = 0 → s.dev.tsBusy (s.dev.f R.TOUR_TS_SEL.INDEX) = false → bitsOf w 0 1 = 1 →
    Completes (.tourTsDataAccess (.write .full w)) s (fun t =>
      let i := s.dev.f R.TOUR_TS_SEL.INDEX
      let d := s.dev.writeReg (R.TOURSET.VALID.key i) true .full w R.TOUR_TS_ERR.BUSY
      t.dev.f R.TOURSET.N_LOG i = bitsOf w 1 3 ∧ t.dev.f R.TOURSET.RINGS i = bitsOf w 4 4 ∧ t.dev.f R.TOURSET.WINGS i = bitsOf w 8 3 ∧
      t.dev.f R.TOURSET.LOCAL i = bitsOf w 14 6 ∧ t.dev.f R.TOURSET.TENANT i = bitsOf w 48 10 ∧
      (if d.tsOk i then t.dev.f R.TOURSET.VALID i = 1 ∧ t.dev.f R.TOURSET.PRINT i = d.tsPrint i
       else t.dev.f R.TOURSET.VALID i = 0 ∧ t.dev.f R.TOUR_TS_ERR.MISMATCH = 1) ∧ SameMem s t ∧ SameUnits s t ∧
      SameWords s t [R.TOURSET.VALID.key i, R.TOURSET.PRINT.key i, R.TOUR_TS_ERR.MISMATCH.key 0, R.TOUR_TS_SEL.WORD.key 0]))

/-- Admission orders the held descriptors and forms COLL_PRINT or refuses; a start at START or its refusal; COLL_END and an expired wait end a
collective (R95, R107, R108, R110, R116, R117, R123, notes/assumptions/39.md, notes/assumptions/85.md, notes/assumptions/86.md). The model's choices:
log entry 39 (COLL_END ends a collective whatever its COLL_PRINT), 85 (PROV_MODE takes force at COLLECTIVE_START), 86 (the tick of the write), 98 (how
long a notice counts as one of a collective that is over), 111 (wings fenced before the admission). -/
def Obligations.CollectivesAreAdmittedAndStarted : Prop :=
  (∀ (id : BitVec 32) (x : Coll) (s : State), s.dev.coll id.toNat = some x → x.admitted = false → x.ended = none → x.nlocal ≤ x.members.length →
      s.dev.f R.TOUR_COLL.ACTIVE < 256 →
      (x.kind = 3 → x.rootSite = s.dev.site → x.members.any (fun k => k.rank == x.root) = true) →
      s.dev.pinnedLacks { x with moved := s.dev.fencedMoves x.wings } = false →
      (x.start = 0 ∧ s.dev.itinMode ≠ 0) ∨ (x.start ≠ 0 ∧ 0 ≤ diff40 x.start s.dev.ns40) →
    Completes (.collectiveAdmit id) s (fun t => ∃ y, t.dev.coll id.toNat = some y ∧ (y.admitted = true ∧ y.started = x.started ∧ y.ended = none ∧
      (y.members.map (·.rank)).Pairwise (· ≤ ·) ∧ y.members.length = x.members.length ∧ y.print = x.formPrint x.print ∧
      y.moved = s.dev.fencedMoves x.wings ∧
      y.seed = s.dev.f R.TENANT.SEED x.tenant ∧ (s.dev.raceWins = [] → y.pieces = x.pieces ∧ y.events = x.events)) ∧ SameMem s t)) ∧
  (∀ (id : BitVec 32) (x : Coll) (s : State), s.dev.coll id.toNat = some x → x.admitted = false → x.ended = none → x.nlocal ≤ x.members.length →
      s.dev.f R.TOUR_COLL.ACTIVE < 256 →
      (x.kind = 3 → x.rootSite = s.dev.site → x.members.any (fun k => k.rank == x.root) = true) →
      s.dev.pinnedLacks { x with moved := s.dev.fencedMoves x.wings } = false →
      (x.start = 0 ∧ s.dev.itinMode = 0) ∨ (x.start ≠ 0 ∧ -s.dev.grace ≤ diff40 x.start s.dev.ns40 ∧ diff40 x.start s.dev.ns40 < 0) →
      x.started = false → x.pieces = [] → s.dev.raceWins = [] → s.dev.enabledWings.length = x.wings →
    Completes (.collectiveAdmit id) s (fun t => ∃ y, t.dev.coll id.toNat = some y ∧ (y.admitted = true ∧ y.started = true ∧ y.ended = none ∧
      y.print = x.formPrint x.print ∧ y.raceK = s.dev.f R.TOURSET.RACE_K x.ts) ∧
      (∀ w < x.wings, x.start ≠ 0 → w < 4 → t.dev.f R.VAR_LATE.VALUE w = min (s.dev.f R.VAR_LATE.VALUE w + 1) (2 ^ 64 - 1)) ∧ SameMem s t)) ∧
  (∀ (id : BitVec 32) (x : Coll) (s : State), s.dev.coll id.toNat = some x → x.admitted = false → x.ended = none → x.nlocal ≤ x.members.length →
      256 ≤ s.dev.f R.TOUR_COLL.ACTIVE → x.pieces.any (·.poison) = false →
    Completes (.collectiveAdmit id) s (fun t => ∃ y, t.dev.coll id.toNat = some y ∧ (y.ended = some 0x05 ∧ y.pieces = []) ∧ SameMem s t)) ∧
  (∀ (id : BitVec 32) (x : Coll) (s : State), s.dev.coll id.toNat = some x → x.admitted = false → x.ended = none → x.nlocal ≤ x.members.length →
      s.dev.f R.TOUR_COLL.ACTIVE < 256 → x.pieces.any (·.poison) = false →
      (x.kind = 3 ∧ x.rootSite = s.dev.site ∧ x.members.any (fun k => k.rank == x.root) = false) ∨
        s.dev.pinnedLacks { x with moved := s.dev.fencedMoves x.wings } = true →
    Completes (.collectiveAdmit id) s (fun t => ∃ y, t.dev.coll id.toNat = some y ∧ (y.ended = some 0x03 ∧ y.pieces = []) ∧ SameMem s t)) ∧
  (∀ (id : BitVec 32) (x : Coll) (s : State), s.dev.coll id.toNat = some x → x.admitted = false → x.ended = none → x.nlocal ≤ x.members.length →
      s.dev.f R.TOUR_COLL.ACTIVE < 256 →
      (x.kind = 3 → x.rootSite = s.dev.site → x.members.any (fun k => k.rank == x.root) = true) →
      s.dev.pinnedLacks { x with moved := s.dev.fencedMoves x.wings } = false →
      x.start ≠ 0 → diff40 x.start s.dev.ns40 < -s.dev.grace → x.pieces.any (·.poison) = false →
    Completes (.collectiveAdmit id) s (fun t => ∃ y, t.dev.coll id.toNat = some y ∧ (y.ended = some 0x0E ∧ y.pieces = []) ∧ SameMem s t)) ∧
  (∀ (id : BitVec 32) (x : Coll) (s : State), s.dev.coll id.toNat = some x → x.admitted = true → x.started = false → x.ended = none →
      x.start ≠ 0 → diff40 x.start s.dev.ns40 ≤ 0 → s.dev.enabledWings.length = x.wings → x.pieces = [] →
    Completes (.collectiveStart id) s (fun t => t.dev.coll id.toNat = some { x with
        started := true, raceK := s.dev.f R.TOURSET.RACE_K x.ts, raceLag := s.dev.f R.TOURSET.RACE_LAG x.ts } ∧
      (∀ w, w < s.dev.provMode.length → t.dev.provMode.getD w 0 =
        if (List.range x.wings).any (fun i => x.movedTo i == w) = true ∧ s.dev.f R.TOUR_CTL.ENABLE w = 1 then s.dev.shadow w
        else s.dev.provMode.getD w 0) ∧
      { t.dev with colls := s.dev.colls, provMode := s.dev.provMode } = s.dev ∧ SameMem s t)) ∧
  (∀ (id : BitVec 32) (x : Coll) (s : State), s.dev.coll id.toNat = some x → x.admitted = true → x.started = false → x.ended = none →
      x.start ≠ 0 → diff40 x.start s.dev.ns40 ≤ 0 → s.dev.enabledWings.length ≠ x.wings → x.pieces.any (·.poison) = false →
    Completes (.collectiveStart id) s (fun t => ∃ y, t.dev.coll id.toNat = some y ∧ (y.ended = some 0x01 ∧ y.pieces = []) ∧ SameMem s t)) ∧
  (∀ (m : ServiceMsg) (x : Coll) (p : Nat) (s : State), s.dev.identOk m.site.toNat m.gwId.toNat = true → s.dev.peerOf m.site.toNat = some p →
      m.dlen.toNat ≤ 208 → s.dev.coll m.id.toNat = some x → x.ended = none → s.dev.collOld m.id.toNat m.key.toNat = false → x.pieces.any (·.poison) = false →
    Completes (.collEndReceive m true) s (fun t => ∃ y, t.dev.coll m.id.toNat = some y ∧ (y.ended = some m.status.toNat ∧ y.pieces = []) ∧ SameMem s t)) ∧
  (∀ (m : ServiceMsg) (x : Coll) (s : State), s.dev.coll m.id.toNat = some x → x.ended = none → s.dev.collOld m.id.toNat m.key.toNat = true →
    Completes (.collEndReceive m true) s (fun t => t.dev.colls = s.dev.colls ∧ t.dev.ops = s.dev.ops ∧ SameMem s t)) ∧
  (∀ (m : ServiceMsg) (x : Coll) (old : Nat) (s : State), s.dev.coll m.id.toNat = some x → x.ended = some old →
      failRank old ≤ failRank m.status.toNat →
    Completes (.collEndReceive m true) s (fun t => t.dev.coll m.id.toNat = some x ∧ SameMem s t)) ∧
  (∀ (m : ServiceMsg) (x : Coll) (p old : Nat) (s : State), s.dev.identOk m.site.toNat m.gwId.toNat = true → s.dev.peerOf m.site.toNat = some p →
      m.dlen.toNat ≤ 208 → s.dev.coll m.id.toNat = some x → x.ended = some old → old ≠ 0 → old ≠ 0x10 →
      failRank m.status.toNat < failRank old → (∀ k ∈ x.members, (s.dev.getOp k.ring k.index).isSome = true) →
    Completes (.collEndReceive m true) s (fun t => t.dev.coll m.id.toNat = some { x with ended := some m.status.toNat, spoil := x.spoil ++ x.undefDest (x.posOfSite s.dev.site) m.status.toNat } ∧
      (∀ k ∈ x.members, ∃ o, t.dev.getOp k.ring k.index = some o ∧ o.verdict = ⟨m.status.toNat, 0⟩) ∧ SameMem s t)) ∧
  (∀ (id : BitVec 32) (x : Coll) (s : State), s.dev.coll id.toNat = some x → x.ended = none → x.moved ≠ [] →
      x.movedFor ≤ s.dev.now - x.movedAt → x.pieces.any (·.poison) = false →
      s.dev.f R.TENANT.PLACE_MODE x.tenant = 0 → s.dev.tourWait.any (fun e => e.2.2.2.2.coll == x.id) = true →
    Completes (.pinnedChunkWaitExpiry id) s (fun t => ∃ y, t.dev.coll id.toNat = some y ∧ (y.ended = some 0x0F ∧ y.pieces = []) ∧
      t.dev.tourWait.all (fun e => e.2.2.2.2.coll != x.id) = true ∧ SameMem s t))

/-- PARTIAL_COMBINE adds the operand and passes the piece on, or writes the final values; COLLECTIVE_COMPLETE writes the record; RACE_COPY sends a
copy (R75, R90, R93, R99, R113, R119, R120, R65, notes/assumptions/40.md). The model's choices: log entry 40 (a piece is combined whole in one
command). -/
def Obligations.PiecesAreCombinedWrittenAndCompleted : Prop :=
  (∀ (id : BitVec 32) (j : Nat) (p : Fin 32) (x : Coll) (us : List Nat) (c : Nat) (s : State), s.dev.coll id.toNat = some x → x.started = true →
      x.ended = none → s.dev.engineOn x j = true → (x.piece j p).red.whole = true → (x.piece j p).red.poison = false → (x.piece j p).poison = false →
      (x.piece j p).operand = some us → (x.piece j p).reduced = false → x.redIdx j p (x.posOfSite s.dev.site) + 1 < x.n →
      s.dev.provMode.getD (x.wingOf j) 0 = 0 → 24 ≤ s.dev.f R.TOUR_LANES.WORKING (x.wingOf j) →
      s.dev.ctxOf ⟨x.job, x.nextSite j (x.posOfSite s.dev.site), x.ringOf j + 1, x.wingOf j⟩ = some c → (s.dev.ctx c).state = .opened →
    Completes (.partialCombine id j p []) s (fun t =>
      let k := x.redIdx j p (x.posOfSite s.dev.site)
      let r := combineList x.pf x.redop (x.ctx k) (x.pieceFirst j p) (x.piece j p).red.units us
      (∃ y, t.dev.coll id.toNat = some y ∧ ((y.piece j p).reduced = true ∧ (y.piece j p).operand = none ∧ (y.piece j p).red = Arrival.empty ∧
        (y.piece j p).gat = (x.piece j p).gat)) ∧
      (t.dev.ctx c).sendq.map (·.raw) = (s.dev.ctx c).sendq.map (·.raw) ++ [ofUnits (codedFmt (partialCode x.fmt x.wide)).bytes r.codes] ∧
      (t.dev.ctx c).sendq.length = (s.dev.ctx c).sendq.length + 1 ∧ SameMem s t)) ∧
  (∀ (id : BitVec 32) (j : Nat) (p : Fin 32) (x : Coll) (k : Member) (s : State), s.dev.coll id.toNat = some x → x.started = true →
      x.ended = none → s.dev.engineOn x j = true → (x.piece j p).red.whole = false → (x.piece j p).gat.whole = true → (x.piece j p).final = false →
      (x.piece j p).gat.poison = false → x.gatIdx j p (x.posOfSite s.dev.site) + 1 = x.n → x.members = [k] → s.dev.rangesCross x k = false → s.dev.f R.WINDOW.LOC k.dstWin = 1 →
      s.dev.f R.WINDOW.ADDR k.dstWin + (k.dstOff + x.pieceOff j p) < 2 ^ 64 →
    Completes (.partialCombine id j p []) s (fun t =>
      let bytes := ofUnits (unitBytes x.fmt) (x.finalUnits (x.piece j p).gat.units)
      let key := s.dev.winKey k.dstWin (k.dstOff + x.pieceOff j p)
      (∃ y, t.dev.coll id.toNat = some y ∧ ((y.piece j p).final = true ∧ (y.piece j p).gat = Arrival.empty ∧ y.owed = x.owed)) ∧
      memRead t.mem key bytes.length = bytes ∧ SameMemBut s t key bytes.length ∧ t.dev.ctxs = s.dev.ctxs)) ∧
  (∀ (id : BitVec 32) (x : Coll) (k : Member) (o : Op) (s : State), s.dev.colls = [x] → x.id = id.toNat → x.started = true → x.ended = none → x.owed = 0 →
      x.allDone (x.posOfSite s.dev.site) = true → s.dev.collOut x.id = false → x.pieces.any (·.poison) = false → x.events = 0 → x.bind = none →
      x.refs = [] → x.members = [k] → s.dev.ops = [o] → o.ring = k.ring → o.index = k.index → o.ctx = none → o.bind = none → o.dwin = 0 →
      s.dev.f R.CQ_CTL.LOC (s.dev.f R.SQ_CTL.CQ k.ring) = 0 → k.ring < 4096 →
    Completes (.collectiveComplete id) s (fun t => t.dev.ops = [] ∧ t.dev.colls = [] ∧
      t.dev.f R.CQ_STATE.TAIL (s.dev.f R.SQ_CTL.CQ k.ring) = (s.dev.f R.CQ_STATE.TAIL (s.dev.f R.SQ_CTL.CQ k.ring) + 1) % 2 ^ 32 ∧
      t.dev.f R.TOUR_COLL.ACTIVE = 0)) ∧
  (∀ (c : Fin 32768) (seq : BitVec 32) (m : Fin 128) (g : LogEnt) (k : Coll) (i : Nat) (s : State),
      (s.dev.ctx c).log.find? (fun g => g.seq % 2 ^ 32 == seq.toNat && g.seg.typ == 3 && g.attempts == 0 && !g.raced) = some g →
      s.dev.coll (segColl g.seg) = some k → k.ended = none → (s.dev.ctx c).lastSeg k.id (segPiece g.seg).1 (segPiece g.seg).2 (segStep g.seg) = some i →
      i - g.seg.segidx.toNat < k.raceK → k.raceLag * 1000 ≤ s.dev.now - g.cutAt →
      (let all := (s.dev.ringCarriers (s.dev.ctx c)).filter (fun a => a != g.carrier);
       let other := all.filter (fun a => carrierEngine a != carrierEngine g.carrier);
       let from_ := if other.isEmpty then all else other;
       m.val ∈ from_ ∧ ∀ a ∈ from_, s.dev.carLoad m ≤ s.dev.carLoad a) →
    Completes (.raceCopy c seq m) s (fun t =>
      (t.dev.ctx c).log = (s.dev.ctx c).log.map (fun e => if e.seq = g.seq then { e with raced := true } else e) ∧
      (t.dev.lineOf m).txq = (s.dev.lineOf m).txq ++ [(true, segBytes g.seg)] ∧ t.dev.out = s.dev.out ++ [.segment m true g.seg] ∧
      (t.dev.ctx c).sndNxt = (s.dev.ctx c).sndNxt ∧ SameMem s t ∧ SameWords s t []))

/-- A segment is cut onto a carrier with the next number; an arriving one is counted, held or answers its operation; a block is checked and delivered
(R32, R118, R137, R138, R164, R165, R167, R168, R218, R319, notes/assumptions/130.md, notes/assumptions/107.md). The model's choices: log entry 107
(which carrier is chosen), 27 (the corners of receipt and of the CRC), 116 (which loan a segment stood in), 20 (a carrier not scheduled for the
context changes nothing), 130 (a segment for a fenced home wing), 131 (STALE of a CLOSED context). -/
def Obligations.SegmentsAreCutReceivedAndDecoded : Prop :=
  (∀ (c : Fin 32768) (m : Fin 128) (it : SendItem) (rest : List SendItem) (key : List Byte) (s : State), (s.dev.ctx c).sendq = it :: rest → it.kind = 2 →
      it.plain = true → it.bare = false → it.raw = [] → it.left = 0 → 0 < it.bytes.length → it.bytes.length ≤ 16384 →
      s.dev.mayCut (s.dev.ctx c) (64 + it.bytes.length) = true → s.dev.chosen m (s.dev.ctx c) = true →
      (s.dev.sched m).txPark = false → s.dev.pendingPark m 0 = none →
      s.dev.streamKey (s.dev.ctx c) true (epochOf (s.dev.ctx c).sndNxt) = some key →
      ((s.dev.ctx c).log.filter (fun e => e.attempts == 0)).length < (s.dev.ctx c).txBufs.length → (s.dev.ctx c).tgt = [] →
    Completes (.segmentCut c m) s (fun t => (t.dev.ctx c).sndNxt = (s.dev.ctx c).sndNxt + 1 ∧ (t.dev.ctx c).sendq = rest ∧
      (t.dev.ctx c).log.map (fun e => (e.seq, e.size, e.carrier, e.attempts)) =
        (s.dev.ctx c).log.map (fun e => (e.seq, e.size, e.carrier, e.attempts)) ++ [((s.dev.ctx c).sndNxt, 64 + it.bytes.length, m.val, 0)] ∧
      (t.dev.ctx c).timer = (if (s.dev.ctx c).timer.isNone then some (s.dev.now, s.dev.rtoRun (s.dev.ctx c)) else (s.dev.ctx c).timer) ∧ (t.dev.ctx c).sndUna = (s.dev.ctx c).sndUna ∧ { t.dev with ctxs := s.dev.ctxs, wfq := s.dev.wfq } = s.dev ∧ SameMem s t)) ∧
  (∀ (c : Fin 32768) (m : Fin 128) (it : SendItem) (rest : List SendItem) (s : State), (s.dev.ctx c).sendq = it :: rest → it.hopeful = true →
      s.dev.mayCut (s.dev.ctx c) 64 = true → s.dev.chosen m (s.dev.ctx c) = true →
      s.dev.streamKey (s.dev.ctx c) true (epochOf (s.dev.ctx c).sndNxt) = none → s.dev.ctxSealed (s.dev.ctx c) = false →
    Completes (.segmentCut c m) s (fun t => SameMem s t ∧
      if (s.dev.ctx c).stalledAt = some (epochOf (s.dev.ctx c).sndNxt) then t = s
      else t.dev.f R.VT_CNT2.STALL = min (s.dev.f R.VT_CNT2.STALL + 1) (2 ^ 32 - 1) ∧
        t.dev.ctx c = { s.dev.ctx c with stalledAt := some (epochOf (s.dev.ctx c).sndNxt) } ∧
        { t.dev with words := s.dev.words, ctxs := s.dev.ctxs } = s.dev ∧ SameWords s t [R.VT_CNT2.STALL.key 0])) ∧
  (∀ (c : Fin 32768) (m : Fin 128) (it : SendItem) (rest : List SendItem) (s : State), (s.dev.ctx c).sendq = it :: rest → it.hopeful = true →
      s.dev.mayCut (s.dev.ctx c) 64 = true → s.dev.mayCarry m (s.dev.ctx c) = false → s.dev.scheduledFor m (s.dev.ctx c) = true →
      (s.dev.sched m).txPark = true →
    Completes (.segmentCut c m) s (fun t => t.dev.kwOf m = { s.dev.kwOf m with wakeReq := true } ∧ { t.dev with kw := s.dev.kw } = s.dev ∧
      SameMem s t)) ∧
  (∀ (c : Fin 32768) (m : Fin 128) (s : State), s.dev.mayCarry m (s.dev.ctx c) = false → s.dev.scheduledFor m (s.dev.ctx c) = false →
    Completes (.segmentCut c m) s (fun t => t = s)) ∧
  (∀ (m : Fin 128) (g : Segment) (race ok : Bool) (s : State), s.dev.f R.STREAM_CTL.ENABLE = 1 → s.dev.cepOk g.cep = false →
    Completes (.segmentReceive m g race ok) s (fun t => t.dev.f R.CAT_ERR.CEP_STALE = min (s.dev.f R.CAT_ERR.CEP_STALE + 1) (2 ^ R.CAT_ERR.CEP_STALE.w - 1) ∧
      SameMem s t ∧ SameUnits s t ∧ SameWords s t [R.CAT_ERR.CEP_STALE.key 0])) ∧
  (∀ (m : Fin 128) (g : Segment) (race ok : Bool) (s : State), s.dev.f R.STREAM_CTL.ENABLE = 1 → s.dev.cepOk g.cep = true →
      ((s.dev.ctx g.dst.toNat).state ≠ .opened ∧ (s.dev.ctx g.dst.toNat).state ≠ .draining) ∨ (s.dev.ctx g.dst.toNat).gen ≠ g.gen.toNat →
    Completes (.segmentReceive m g race ok) s (fun t =>
      let w := if (s.dev.ctx g.dst.toNat).state = .closed then m.val / 32 else (s.dev.ctx g.dst.toNat).home
      t.dev.f R.STREAM_STAT_STALE.STALE w = min (s.dev.f R.STREAM_STAT_STALE.STALE w + 1) (2 ^ 64 - 1) ∧
      SameMem s t ∧ SameUnits s t ∧ SameWords s t [R.STREAM_STAT_STALE.STALE.key w])) ∧
  (∀ (m : Fin 128) (g : Segment) (race ok : Bool) (s : State), s.dev.f R.STREAM_CTL.ENABLE = 1 → s.dev.cepOk g.cep = true →
      (s.dev.ctx g.dst.toNat).state = .opened ∨ (s.dev.ctx g.dst.toNat).state = .draining → (s.dev.ctx g.dst.toNat).gen = g.gen.toNat →
      s.dev.wingEnabled (s.dev.ctx g.dst.toNat).home = true →
      wholeSeq (s.dev.ctx g.dst.toNat).rcvCum g.seq.toNat < ((s.dev.ctx g.dst.toNat).rcvCum : Int) ∨
        (∃ seq : Nat, wholeSeq (s.dev.ctx g.dst.toNat).rcvCum g.seq.toNat = (seq : Int) ∧
          (seq ∈ (s.dev.ctx g.dst.toNat).rcvd ∨ (s.dev.ctx g.dst.toNat).held.any (fun h => h.seq == seq) = true)) →
    Completes (.segmentReceive m g race ok) s (fun t =>
      t.dev.f R.STREAM_STAT_DUP.DUP (s.dev.ctx g.dst.toNat).home = min (s.dev.f R.STREAM_STAT_DUP.DUP (s.dev.ctx g.dst.toNat).home + 1) (2 ^ 64 - 1) ∧
      (t.dev.ctx g.dst.toNat).rcvCum = (s.dev.ctx g.dst.toNat).rcvCum ∧ (t.dev.ctx g.dst.toNat).held = (s.dev.ctx g.dst.toNat).held ∧ SameMem s t)) ∧
  (∀ (m : Fin 128) (g : Segment) (race ok : Bool) (seq : Nat) (s : State), s.dev.f R.STREAM_CTL.ENABLE = 1 → s.dev.cepOk g.cep = true →
      (s.dev.ctx g.dst.toNat).state = .opened ∨ (s.dev.ctx g.dst.toNat).state = .draining → (s.dev.ctx g.dst.toNat).gen = g.gen.toNat →
      s.dev.wingEnabled (s.dev.ctx g.dst.toNat).home = true →
      wholeSeq (s.dev.ctx g.dst.toNat).rcvCum g.seq.toNat = (seq : Int) → (s.dev.ctx g.dst.toNat).rcvCum ≤ seq →
      seq ∉ (s.dev.ctx g.dst.toNat).rcvd → (s.dev.ctx g.dst.toNat).held.any (fun h => h.seq == seq) = false →
      (s.dev.ctx g.dst.toNat).granted ≤ seq ∨ (s.dev.ctx g.dst.toNat).rcvCum + 2 ^ 20 ≤ seq →
    Completes (.segmentReceive m g race ok) s (fun t =>
      t.dev.f R.STREAM_STAT_OUT_WIN.OUT_WIN (s.dev.ctx g.dst.toNat).home =
        min (s.dev.f R.STREAM_STAT_OUT_WIN.OUT_WIN (s.dev.ctx g.dst.toNat).home + 1) (2 ^ 64 - 1) ∧
      (t.dev.ctx g.dst.toNat).rcvCum = (s.dev.ctx g.dst.toNat).rcvCum ∧ (t.dev.ctx g.dst.toNat).held = (s.dev.ctx g.dst.toNat).held ∧ SameMem s t)) ∧
  (∀ (m : Fin 128) (g : Segment) (race ok : Bool) (seq : Nat) (s : State), InWindow s g seq → (∀ k, openHalf s g = some k → k.epoch ≠ epochOf seq ∨ k.wrap ≠ none) →
    Completes (.segmentReceive m g race ok) s (fun t => t.dev.f R.VT_CNT.NOKEY = min (s.dev.f R.VT_CNT.NOKEY + 1) (2 ^ R.VT_CNT.NOKEY.w - 1) ∧
      (t.dev.ctx g.dst.toNat).rcvCum = (s.dev.ctx g.dst.toNat).rcvCum ∧ (t.dev.ctx g.dst.toNat).held = (s.dev.ctx g.dst.toNat).held ∧ SameMem s t)) ∧
  (∀ (m : Fin 128) (g : Segment) (race : Bool) (k : HalfKey) (seq : Nat) (s : State), InWindow s g seq → openHalf s g = some k →
      k.epoch = epochOf seq → k.wrap = none → (s.dev.ctx g.dst.toNat).rxBufs ≠ [] →
      ((s.dev.ctx g.dst.toNat).authFails.filter (fun a => decide (s.dev.now ≤ a + 10 ^ 9))).length < 2 →
    Completes (.segmentReceive m g race false) s (fun t =>
      let x := s.dev.ctx g.dst.toNat
      t.dev.f R.VT_CNT.AUTH_FAIL = min (s.dev.f R.VT_CNT.AUTH_FAIL + 1) (2 ^ R.VT_CNT.AUTH_FAIL.w - 1) ∧
      (t.dev.ctx g.dst.toNat).rcvCum = x.rcvCum ∧ (t.dev.ctx g.dst.toNat).held = x.held ∧ (t.dev.ctx g.dst.toNat).state = x.state ∧
      ∃ b ∈ x.rxBufs, memRead t.mem (s.dev.bufKey x.rxPool b) (s.dev.f R.BPM_POOL_CFG.SIZE x.rxPool * 64) =
          zeros (s.dev.f R.BPM_POOL_CFG.SIZE x.rxPool * 64) ∧
        SameMemBut s t (s.dev.bufKey x.rxPool b) (s.dev.f R.BPM_POOL_CFG.SIZE x.rxPool * 64))) ∧
  (∀ (m : Fin 128) (g : Segment) (k : HalfKey) (seq : Nat) (s : State), InWindow s g seq → openHalf s g = some k → k.epoch = epochOf seq → k.wrap = none → g.typ = 3 →
      s.dev.tourMeets g = 0 → s.dev.readyBlocks = 0 →
    Completes (.segmentReceive m g false true) s (fun t =>
      (t.dev.ctx g.dst.toNat).held = (s.dev.ctx g.dst.toNat).held ++ [⟨seq, g, slice (Config.gcmOpen k.key
        (gcmIv false (s.dev.ctx g.dst.toNat).site s.dev.site seq) (segHeader g) g.payload) 0 g.payload.length, false, s.dev.segSeen⟩] ∧ t.dev.segSeen = s.dev.segSeen + 1 ∧
      (t.dev.ctx g.dst.toNat).rcvCum = (s.dev.ctx g.dst.toNat).rcvCum ∧ SameMem s t)) ∧
  (∀ (m : Fin 128) (g : Segment) (k : HalfKey) (o : Op) (seq : Nat) (s : State), InWindow s g seq → openHalf s g = some k → k.epoch = epochOf seq → k.wrap = none →
      g.typ = 2 → g.opcode ≠ 2 → ofBE (slice g.tail 4 1) = 0 → s.dev.opOf g.dst.toNat g.opn.toNat = some o → s.dev.readyBlocks = 0 →
    Completes (.segmentReceive m g false true) s (fun t => ∃ p, t.dev.getOp o.ring o.index = some p ∧ (p.stage = .done ∧
      p.value = ofBE (slice (slice (Config.gcmOpen k.key (gcmIv false (s.dev.ctx g.dst.toNat).site s.dev.site seq) (segHeader g) g.payload)
        0 g.payload.length) 0 8)) ∧ SameMem s t)) ∧
  (∀ (c : Fin 32768) (h : HeldSeg) (s : State), (s.dev.ctx c).state = .opened → (s.dev.ctx c).held = [h] → (s.dev.ctx c).rx = [] → h.seg.segidx = 0 → h.seg.typ = 2 →
      (s.dev.opOf c h.seg.opn.toNat).isSome = true → (heldBytes [h] 0 16).all (fun b => decide ((blkHead b).size = h.plain.length)) = true →
      20 ≤ h.plain.length → blockCrcOk h.plain = false → s.dev.readyBlocks = 0 →
    Completes (.blockDecode c (segKey h.seg) 0 []) s (fun t => t.dev.f R.CODEC_ERR.CRC = 1 ∧ (t.dev.ctx c).held = [] ∧
      (t.dev.ctx c).rcvCum = (s.dev.ctx c).rcvCum ∧ ((t.dev.ctx c).item (segKey h.seg)).fails = [0] ∧ SameMem s t)) ∧
  (∀ (c : Fin 32768) (h : HeldSeg) (o : Op) (us : List Nat) (s : State), (s.dev.ctx c).state = .opened → (s.dev.ctx c).held = [h] → h.seg.segidx = 0 → h.seg.typ = 2 →
      (s.dev.ctx c).rx = [⟨segKey h.seg, [], [], some h.plain.length, [], 0, 0, [], false, 0, [], none, []⟩] → s.dev.readyBlocks = 0 →
      s.dev.opOf c h.seg.opn.toNat = some o → s.dev.getOp o.ring o.index = some o → (blkHead h.plain).size = h.plain.length → blockCrcOk h.plain = true →
      (blkHead h.plain).mode = 1 → headOk (blkHead h.plain) 0xF = true → decodeRaw (blkHead h.plain) h.plain = some us → us.length = o.d.len →
      us.length ≤ blockUnits 0xF → s.dev.f R.WINDOW.LOC o.lwin = 1 → s.dev.f R.WINDOW.ADDR o.lwin + o.d.loff < 2 ^ 64 →
    Completes (.blockDecode c (segKey h.seg) 0 []) s (fun t =>
      (∃ p, t.dev.getOp o.ring o.index = some p ∧ (p.got = o.got + us.length)) ∧
      memRead t.mem (s.dev.winKey o.lwin o.d.loff) us.length = us.map (fun v => BitVec.ofNat 8 v) ∧
      SameMemBut s t (s.dev.winKey o.lwin o.d.loff) us.length ∧ (t.dev.ctx c).held = [])) ∧
  (∀ (m : Fin 128) (g : Segment) (race ok : Bool) (s : State), s.dev.cepOk g.cep = true →
      (s.dev.ctx g.dst.toNat).state = .opened ∨ (s.dev.ctx g.dst.toNat).state = .draining → (s.dev.ctx g.dst.toNat).gen = g.gen.toNat →
      s.dev.wingEnabled (s.dev.ctx g.dst.toNat).home = false →
    Completes (.segmentReceive m g race ok) s (fun t => t = s))

/-- Reads and writes of a codec slot, staging of its active table, and the build of an image from its histogram (R11, R15, R16, R139, R142, R145, R10,
notes/assumptions/42.md). The model's choices: log entry 42 (how the built image is chosen), 112 (a write while a build runs). -/
def Obligations.CodecSlotsAreReadAndTablesStagedAndBuilt : Prop :=
  (∀ (n : Nat) (s : State), s.dev.f R.SYS_BOOT.STATE = 4 → s.dev.f R.CODEC_SLOT_SEL.INDEX = n → s.dev.f R.CODEC_SLOT_SEL.WORD = 0 →
      s.dev.f R.CODEC_SLOT_SEL.AUTOINC = 0 →
    Completes (.codecSlotDataAccess .read) s (fun t => SameMem s t ∧ SameWords s t [] ∧ SameUnitsBut [.readData (setBits (s.dev.word (R.SLOT.VALID.key n)) 63 1
      (if s.dev.f R.SLOT.REF0 n = 0 ∧ s.dev.f R.SLOT.REF1 n = 0 then 1 else 0))] s t)) ∧
  (∀ (s : State), s.dev.f R.SYS_BOOT.STATE = 4 → s.dev.f R.CODEC_SLOT_SEL.WORD = 3 → s.dev.f R.CODEC_SLOT_SEL.AUTOINC = 1 →
    Completes (.codecSlotDataAccess .read) s (fun t => t.dev.f R.CODEC_SLOT_SEL.WORD = 0 ∧
      t.dev.f R.CODEC_SLOT_SEL.INDEX = (s.dev.f R.CODEC_SLOT_SEL.INDEX + 1) % 8192 ∧ SameMem s t ∧ SameWords s t [R.CODEC_SLOT_SEL.INDEX.key 0] ∧
      SameUnitsBut [.readData (s.dev.word (R.SLOT.HCOUNT.key (s.dev.f R.CODEC_SLOT_SEL.INDEX)))] s t)) ∧
  (∀ (n : Nat) (v : Word) (s : State), s.dev.f R.SYS_BOOT.STATE = 4 → s.dev.f R.CODEC_SLOT_SEL.INDEX = n → s.dev.f R.CODEC_SLOT_SEL.WORD = 1 →
      s.dev.f R.CODEC_SLOT_SEL.AUTOINC = 0 → s.dev.f R.SLOT.VALID n = 0 → s.dev.f R.SLOT.REF0 n = 0 → s.dev.f R.SLOT.REF1 n = 0 →
    Completes (.codecSlotDataAccess (.write .full v)) s (fun t => t.dev.f R.SLOT.TID n = v.toNat % 2 ^ 32 ∧ SameMem s t ∧ SameUnits s t ∧
      SameWords s t [R.SLOT.TID.key n])) ∧
  (∀ (n : Nat) (v : Word) (s : State), s.dev.f R.SYS_BOOT.STATE = 4 → s.dev.f R.CODEC_SLOT_SEL.INDEX = n → s.dev.f R.CODEC_SLOT_SEL.WORD = 1 →
      s.dev.f R.CODEC_SLOT_SEL.AUTOINC = 0 → s.dev.f R.SLOT.VALID n = 1 → s.dev.f R.SLOT.TID n ≠ v.toNat % 2 ^ 32 →
    Completes (.codecSlotDataAccess (.write .full v)) s (fun t => t.dev.f R.CODEC_ERR.BUSY = 1 ∧ SameMem s t ∧ SameUnits s t ∧
      SameWords s t [R.CODEC_ERR.BUSY.key 0])) ∧
  (∀ (n : Nat) (v : Word) (s : State), s.dev.f R.SYS_BOOT.STATE = 4 → s.dev.f R.CODEC_STAGE.GO = 0 → wrote .full v R.CODEC_STAGE.GO = 1 →
      wrote .full v R.CODEC_STAGE.SLOT = n → s.dev.installed n (s.dev.f R.SLOT.ACTIVE n) = false →
    Completes (.codecStage .full v) s (fun t => t.dev.f R.CODEC_STAGE.FAIL = 1 ∧ t.dev.f R.CODEC_STAGE.GO = 0 ∧ t.dev.f R.CODEC_STAGE.SLOT = n ∧
      SameMem s t ∧ SameUnits s t ∧ SameWords s t [R.CODEC_STAGE.SLOT.key 0])) ∧
  (∀ (n : Nat) (w : Fin 4) (v : Word) (s : State), s.dev.f R.SYS_BOOT.STATE = 4 → s.dev.f R.CODEC_STAGE.GO = 0 → wrote .full v R.CODEC_STAGE.GO = 1 →
      wrote .full v R.CODEC_STAGE.SLOT = n → wrote .full v R.CODEC_STAGE.WINGS = 2 ^ w.val → s.dev.wingEnabled w = true →
      s.dev.installed n (s.dev.f R.SLOT.ACTIVE n) = true →
      s.dev.staged.any (fun e => e.wing == w.val && e.slot == n && e.ver == s.dev.f R.SLOT.ACTIVE n) = false →
      (s.dev.staged.filter (fun e => e.wing == w.val)).length < 512 →
    Completes (.codecStage .full v) s (fun t => t.dev.f R.CODEC_STAGE.FAIL = 0 ∧ t.dev.f R.CODEC_STAGE.GO = 1 ∧
      t.dev.staged = s.dev.staged ++ [⟨w, n, s.dev.f R.SLOT.ACTIVE n, false, false⟩] ∧ t.dev.stageReq = [(n, s.dev.f R.SLOT.ACTIVE n, w.val)] ∧
      SameMem s t ∧ SameWords s t [R.CODEC_STAGE.SLOT.key 0])) ∧
  (∀ (n : Fin 8192) (ver : Fin 2) (w : Fin 4) (s : State), s.dev.stageReq = [(n.val, ver.val, w.val)] →
      s.dev.staged.any (fun e => e.wing == w.val && e.slot == n.val && e.ver == ver.val && !e.ready) = true →
    Completes (.stagingComplete n ver w) s (fun t => t.dev.isStaged w n ver = true ∧ t.dev.f R.CODEC_STAGE.GO = 0 ∧ t.dev.stageReq = [] ∧
      t.dev.staged.length = s.dev.staged.length ∧ SameMem s t ∧ SameWords s t [R.CODEC_STAGE.GO.key 0] ∧
      { t.dev with words := s.dev.words, staged := s.dev.staged, stageReq := s.dev.stageReq } = s.dev)) ∧
  (∀ (v : Word) (s : State), s.dev.f R.SYS_BOOT.STATE = 4 → s.dev.f R.CODEC_BUILD.GO = 0 → wrote .full v R.CODEC_BUILD.GO = 1 →
    Completes (.codecBuild .full v) s (fun t => t.dev.f R.CODEC_BUILD.GO = 1 ∧ t.dev.f R.CODEC_BUILD.SLOT = v.toNat % 8192 ∧
      t.dev.f R.CODEC_BUILD.EMPTY = s.dev.f R.CODEC_BUILD.EMPTY ∧ SameMem s t ∧ SameUnits s t ∧ SameWords s t [R.CODEC_BUILD.GO.key 0])) ∧
  (∀ (n : Nat) (s : State), s.dev.f R.CODEC_BUILD.GO = 1 → s.dev.f R.CUR_STATE.ALIVE = 1 → s.dev.f R.CODEC_BUILD.SLOT = n →
      tabGet (fun _ => []) s.dev.hists n = [] →
    Completes .codecBuildDone s (fun t => t.dev.f R.CODEC_BUILD.GO = 0 ∧ t.dev.f R.CODEC_BUILD.EMPTY = 1 ∧ t.dev.f R.SLOT.HCOUNT n = 0 ∧ SameMem s t ∧
      SameWords s t [R.CODEC_BUILD.GO.key 0, R.SLOT.HCOUNT.key n])) ∧
  (∀ (n : Nat) (s : State), s.dev.f R.CODEC_BUILD.GO = 1 → s.dev.f R.CUR_STATE.ALIVE = 1 → s.dev.f R.CODEC_BUILD.SLOT = n →
      s.dev.f R.SLOT.FORMAT n < 5 → (List.range 256).any (fun i => decide (0 < countOf (tabGet (fun _ => []) s.dev.hists n) i)) = true →
    Completes .codecBuildDone s (fun t => t.dev.f R.CODEC_BUILD.GO = 0 ∧ t.dev.f R.CODEC_BUILD.EMPTY = 0 ∧ t.dev.f R.SLOT.HCOUNT n = 0 ∧
      tabGet (fun _ => []) t.dev.hists n = [] ∧
      (∃ img, s.dev.buildImage n = some img ∧ (memRead t.mem (memKey 0 (s.dev.f R.CODEC_BUILD_ADDR.ADDR)) img.length = img ∧ img.length = 1040)) ∧
      SameMemBut s t (memKey 0 (s.dev.f R.CODEC_BUILD_ADDR.ADDR)) 1040 ∧ SameWords s t [R.CODEC_BUILD.GO.key 0, R.SLOT.HCOUNT.key n]))

/-- A committed image is installed when its version is free and becomes active at ACTIVATE, at once where that is 0 or past (R146, R148,
notes/assumptions/43.md, notes/assumptions/20.md). The model's choices: log entry 43 (the pace and the checks of a publish), 20 (before ACTIVATE
nothing changes). -/
def Obligations.CodecVersionsAreInstalledAndActivated : Prop :=
  (∀ (n : Fin 8192) (p : PubX) (s : State), s.dev.pubOf n = some p → p.own = false → p.ver < 2 → p.decided = 1 → p.installed = false →
      s.dev.f (refFld p.ver) n = 0 → p.act = 0 →
    Completes (.codecInstall n) s (fun t => t.dev.slotImg n p.ver = p.img ∧ t.dev.installed n p.ver = true ∧ t.dev.f R.SLOT.ACTIVE n = p.ver ∧
      t.dev.f R.SLOT.PEND n = 0 ∧ t.dev.pub p.site p.txn = none ∧ t.dev.isStaged 0 n p.ver = false ∧ SameMem s t ∧
      SameWords s t [R.SLOT.ACTIVE.key n, R.CODEC_STAGE.GO.key 0])) ∧
  (∀ (n : Fin 8192) (p : PubX) (s : State), s.dev.pubOf n = some p → p.own = false → p.ver < 2 → p.decided = 1 → p.installed = false →
      s.dev.f (refFld p.ver) n = 0 → p.act ≠ 0 → 0 ≤ diff40 p.act s.dev.ns40 →
    Completes (.codecInstall n) s (fun t => t.dev.slotImg n p.ver = p.img ∧ t.dev.installed n p.ver = true ∧ t.dev.f R.SLOT.ACTIVE n = s.dev.f R.SLOT.ACTIVE n ∧
      t.dev.f R.SLOT.PEND n = s.dev.f R.SLOT.PEND n ∧ t.dev.pubOf n = some { p with installed := true } ∧ SameMem s t ∧
      SameWords s t [R.SLOT.ACTIVE.key n, R.CODEC_STAGE.GO.key 0])) ∧
  (∀ (n : Fin 8192) (p : PubX) (s : State), s.dev.pubOf n = some p → p.own = false → p.ver < 2 → p.decided = 1 → p.installed = false →
      s.dev.f (refFld p.ver) n = 0 → p.act ≠ 0 → diff40 p.act s.dev.ns40 < 0 →
    Completes (.codecInstall n) s (fun t => t.dev.slotImg n p.ver = p.img ∧ t.dev.f R.SLOT.ACTIVE n = p.ver ∧ t.dev.f R.SLOT.PEND n = 0 ∧
      t.dev.f R.CODEC_LATE_ACT.LATE_ACT = min (s.dev.f R.CODEC_LATE_ACT.LATE_ACT + 1) (2 ^ 32 - 1) ∧ SameMem s t ∧
      SameWords s t [R.SLOT.ACTIVE.key n, R.CODEC_LATE_ACT.LATE_ACT.key 0, R.CODEC_STAGE.GO.key 0])) ∧
  (∀ (n : Fin 8192) (p : PubX) (s : State), s.dev.pubOf n = some p → s.dev.f (refFld p.ver) n ≠ 0 → Completes (.codecInstall n) s (fun t => t = s)) ∧
  (∀ (n : Fin 8192) (p : PubX) (s : State), s.dev.pubOf n = some p → p.own = false → p.ver < 2 → p.installed = true → p.decided = 1 → s.dev.f R.SLOT.PEND n = 1 →
      p.act = 0 ∨ diff40 p.act s.dev.ns40 ≤ 0 →
    Completes (.codecActivate n) s (fun t => t.dev.f R.SLOT.ACTIVE n = p.ver ∧ t.dev.f R.SLOT.PEND n = 0 ∧ t.dev.pub p.site p.txn = none ∧
      SameMem s t ∧ SameWords s t [R.SLOT.ACTIVE.key n] ∧ t.dev.codecImg = s.dev.codecImg)) ∧
  (∀ (n : Fin 8192) (p : PubX) (s : State), s.dev.pubOf n = some p → p.act ≠ 0 → 0 < diff40 p.act s.dev.ns40 → Completes (.codecActivate n) s (fun t => t = s))

/-- PUB_ and DELTA_RELEASE messages of a peer: what is held, what is answered, when an own publish commits, aborts or ends (R44, R147, R148, R150,
R274, notes/assumptions/43.md, notes/assumptions/109.md). The model's choices: log entry 43 (the pace and the checks of a publish), 109 (how a release
names its snapshot). -/
def Obligations.PublishAndReleaseMessagesAreServed : Prop :=
  (∀ (m : ServiceMsg) (x : Nat) (s : State), s.dev.identOk m.site.toNat m.gwId.toNat = true → s.dev.peerOf m.site.toNat = some x →
      m.dlen.toNat = 208 → m.nfrag = 5 → m.frag.toNat < 5 →
      s.dev.reserves.any (fun r => r.site == m.site.toNat && r.txn == m.txn.toNat) = false →
    Completes (.pubReserveReceive m true) s (fun t =>
      t.dev.reserves = s.dev.reserves ++ [⟨m.txn.toNat, m.site.toNat, [(m.frag.toNat, slice m.data 0 208)], s.dev.now⟩] ∧
      t.dev.pubs = s.dev.pubs ∧ t.dev.ctlQ = s.dev.ctlQ ∧ SameMem s t)) ∧
  (∀ (m : ServiceMsg) (x t0 : Nat) (frs : List (Nat × List Byte)) (s : State), s.dev.identOk m.site.toNat m.gwId.toNat = true →
      s.dev.peerOf m.site.toNat = some x → m.dlen.toNat = 208 → m.nfrag = 5 → m.frag.toNat < 5 →
      s.dev.reserves = [⟨m.txn.toNat, m.site.toNat, frs, t0⟩] → frs.length = 4 → frs.any (fun e => e.1 == m.frag.toNat) = false →
      (s.dev.listed 1).any (fun j => s.dev.on R.JOB.VALID j && s.dev.f R.JOB.JOB_ID j == m.id.toNat) = false →
    Completes (.pubReserveReceive m true) s (fun t => t.dev.reserves = [] ∧ t.dev.pubs = s.dev.pubs ∧
      t.dev.ctlQ = s.dev.ctlQ ++ [(m.site.toNat, .service 3
        { m with site := BitVec.ofNat 5 s.dev.site, status := 0xFF, t := 0, frag := 0, nfrag := 1, dlen := 0, gwId := s.dev.gwId, data := [] })] ∧ SameMem s t)) ∧
  (∀ (m : ServiceMsg) (x : Nat) (p : PubX) (s : State), s.dev.identOk m.site.toNat m.gwId.toNat = true → s.dev.peerOf m.site.toNat = some x →
      m.dlen.toNat ≤ 208 → s.dev.pubs = [p] → p.site = s.dev.site → p.txn = m.txn.toNat → p.own = true → p.decided = 0 → p.peers = [m.site.toNat] →
      p.answers = [] → p.acks = [] → m.status = 0 →
    Completes (.pubAnswerReceive m true) s (fun t => t.dev.pubs = [{ p with answers := [(m.site.toNat, 0)], decided := 1 }] ∧
      t.dev.ops = s.dev.ops ∧ SameMem s t)) ∧
  (∀ (m : ServiceMsg) (x n i : Nat) (p : PubX) (o : Op) (s : State), s.dev.identOk m.site.toNat m.gwId.toNat = true → s.dev.peerOf m.site.toNat = some x →
      m.dlen.toNat ≤ 208 → s.dev.pubs = [p] → p.site = s.dev.site → p.txn = m.txn.toNat → p.own = true → p.decided = 0 → p.peers = [m.site.toNat] →
      p.answers = [] → m.status ≠ 0 → m.status ≠ 0xFF → p.op = some (n, i) → s.dev.getOp n i = some o → o.stage ≠ .done →
    Completes (.pubAnswerReceive m true) s (fun t => t.dev.pubs = [{ p with answers := [(m.site.toNat, m.status.toNat)], decided := 2 }] ∧
      t.dev.f R.SLOT.PEND p.slot = 0 ∧ (∃ q, t.dev.getOp n i = some q ∧ (q.stage = .done ∧ q.verdict.status = m.status.toNat)) ∧ SameMem s t)) ∧
  (∀ (m : ServiceMsg) (x : Nat) (p : PubX) (s : State), s.dev.identOk m.site.toNat m.gwId.toNat = true → s.dev.peerOf m.site.toNat = some x →
      m.dlen.toNat ≤ 208 → s.dev.pubs = [p] → p.site = m.site.toNat → p.txn = m.txn.toNat → p.own = false →
    Completes (.pubCommitReceive m true) s (fun t => t.dev.pubs = [{ p with decided := 1 }] ∧
      t.dev.ctlQ = s.dev.ctlQ ++ [(m.site.toNat, .service 6 { m with site := BitVec.ofNat 5 s.dev.site, gwId := s.dev.gwId, status := 0 })] ∧ SameMem s t)) ∧
  (∀ (m : ServiceMsg) (x : Nat) (p : PubX) (s : State), s.dev.identOk m.site.toNat m.gwId.toNat = true → s.dev.peerOf m.site.toNat = some x →
      m.dlen.toNat ≤ 208 → s.dev.pubs = [p] → p.site = m.site.toNat → p.txn = m.txn.toNat → p.own = false → p.decided = 0 →
    Completes (.pubAbortReceive m true) s (fun t => t.dev.pubs = [] ∧ t.dev.f R.SLOT.PEND p.slot = 0 ∧
      t.dev.ctlQ = s.dev.ctlQ ++ [(m.site.toNat, .service 6 { m with site := BitVec.ofNat 5 s.dev.site, gwId := s.dev.gwId, status := 0 })] ∧ SameMem s t)) ∧
  (∀ (m : ServiceMsg) (x n i : Nat) (p : PubX) (o : Op) (s : State), s.dev.identOk m.site.toNat m.gwId.toNat = true → s.dev.peerOf m.site.toNat = some x →
      m.dlen.toNat ≤ 208 → s.dev.pubs = [p] → p.site = s.dev.site → p.txn = m.txn.toNat → p.own = true → p.decided = 1 → p.peers = [m.site.toNat] →
      p.acks = [] → p.lost = false → p.op = some (n, i) → s.dev.getOp n i = some o → o.stage ≠ .done → o.events = 0 →
    Completes (.pubCommitAckReceive m true) s (fun t => (∃ q, t.dev.getOp n i = some q ∧ (q.stage = .done ∧ q.verdict.status = 0)) ∧ SameMem s t)) ∧
  (∀ (txn : BitVec 32) (s : State), Completes (.reserveDiscard txn) s (fun t =>
      (∀ r, r ∈ t.dev.reserves ↔ r ∈ s.dev.reserves ∧ ¬ (r.txn = txn.toNat ∧ 100000000 ≤ s.dev.now - r.since)) ∧
      { t.dev with reserves := s.dev.reserves } = s.dev ∧ SameMem s t)) ∧
  (∀ (m : ServiceMsg) (x : Nat) (y : DeltaIn) (s : State), s.dev.identOk m.site.toNat m.gwId.toNat = true → s.dev.peerOf m.site.toNat = some x →
      m.dlen.toNat ≤ 208 → s.dev.deltasIn = [y] → y.site = m.site.toNat → y.jobId = m.id.toNat → y.rank = m.key.toNat % 2 ^ 22 →
      y.win = ofBE (slice m.data 0 2) → y.off = ofBE (slice m.data 2 5) →
    Completes (.deltaReleaseReceive m true) s (fun t => t.dev.deltasIn = [] ∧
      t.dev.ctlQ = s.dev.ctlQ ++ [(m.site.toNat, .service 8 { m with site := BitVec.ofNat 5 s.dev.site, gwId := s.dev.gwId })] ∧ SameMem s t)) ∧
  (∀ (m q : ServiceMsg) (x : Nat) (s : State), s.dev.identOk m.site.toNat m.gwId.toNat = true → s.dev.peerOf m.site.toNat = some x →
      m.dlen.toNat ≤ 208 → s.dev.anchorQ = [(m.site.toNat, .service 7 q)] → q.id = m.id → q.key = m.key → q.data = slice m.data 0 8 →
      s.dev.ops.all (fun o => !(o.waits && o.d.opcode == 7 && o.site == m.site.toNat)) = true →
    Completes (.deltaReleaseAckReceive m true) s (fun t => t.dev.anchorQ = [] ∧ t.dev.deltasIn = s.dev.deltasIn ∧ SameMem s t)) ∧
  (∀ (m : ServiceMsg) (s : State), Completes (.pubReserveReceive m false) s (fun t => t = s) ∧ Completes (.pubAnswerReceive m false) s (fun t => t = s) ∧
    Completes (.pubCommitReceive m false) s (fun t => t = s) ∧ Completes (.pubAbortReceive m false) s (fun t => t = s) ∧
    Completes (.pubCommitAckReceive m false) s (fun t => t = s) ∧ Completes (.deltaReleaseReceive m false) s (fun t => t = s) ∧
    Completes (.deltaReleaseAckReceive m false) s (fun t => t = s))

/-- An entry of each action, due within LATE_GRACE, moves NEXT and EXECUTED on and has its effect; a late, conflicting or barred one is skipped; no
other runs (R225, R226, R227, R228, R229, R231, R233, R235, R240, R253, notes/assumptions/85.md, notes/assumptions/96.md). The model's choices: log
entry 50 (the corners of the timetable), 85 (PHASE_START is where PROV_MODE takes force), 86 (the tick of the write), 96 (a cancelled PARK counts as
executed and not in VAR_SKIP), 20 (another entry than the next one changes nothing), 128 (only entries carried out count to 32). -/
def Obligations.ItineraryEntriesTakeEffectAtTheirSlot : Prop :=
  (∀ (w : Fin 4) (e : ItinEntry) (s : State), EntryRuns s w e → e.action = 0 →
    Completes (.itineraryNop w) s (fun t => EntryCounted s t w ∧ SameMem s t ∧ { t.dev with words := s.dev.words, itinRuns := s.dev.itinRuns } = s.dev ∧
      t.dev.f R.VAR_LATE.VALUE w = (if diff40 e.slot s.dev.ns40 < 0 then min (s.dev.f R.VAR_LATE.VALUE w + 1) (2 ^ 64 - 1) else s.dev.f R.VAR_LATE.VALUE w) ∧
      SameWords s t [R.ITIN_STAT_NEXT.NEXT.key w, R.ITIN_STAT_EXECUTED.EXECUTED.key w, R.VAR_LATE.VALUE.key w])) ∧
  (∀ (w : Fin 4) (e : ItinEntry) (s : State), EntryRuns s w e → e.action = 1 → isAnchor (entryCarrier w e) = false →
    Completes (.retune w) s (fun t =>
      let m := entryCarrier w e
      let ends := s.dev.afterSlot e (if e.arg / 2 ^ 16 % 256 = 0 then s.dev.guardUs else e.arg / 2 ^ 16 % 256)
      EntryCounted s t w ∧ t.dev.sched m = { s.dev.sched m with
        tx := if e.arg.testBit 7 then some (e.arg % 128) else (s.dev.sched m).tx,
        lo := if e.arg.testBit 15 then some (e.arg / 2 ^ 8 % 128) else (s.dev.sched m).lo } ∧
      (s.dev.carOn m = true → e.arg.testBit 7 = true → (t.dev.kwOf m).txGuard = true ∧ (t.dev.kwOf m).txGuardEnd = ends) ∧
      (s.dev.carOn m = true → e.arg.testBit 15 = true → (t.dev.kwOf m).rxGuard = true ∧ (t.dev.kwOf m).rxGuardEnd = ends) ∧ SameMem s t)) ∧
  (∀ (w : Fin 4) (e : ItinEntry) (s : State), EntryRuns s w e → e.action = 2 → isAnchor (entryCarrier w e) = false → e.arg.testBit 26 = false →
    Completes (.windowOpen w) s (fun t => EntryCounted s t w ∧
      t.dev.sched (entryCarrier w e) = { s.dev.sched (entryCarrier w e) with mask := (s.dev.sched (entryCarrier w e)).mask ||| e.arg % 512 } ∧
      SameMem s t ∧ { t.dev with words := s.dev.words, scheds := s.dev.scheds, itinRuns := s.dev.itinRuns } = s.dev)) ∧
  (∀ (w : Fin 4) (e : ItinEntry) (s : State), EntryRuns s w e → e.action = 2 → isAnchor (entryCarrier w e) = false → e.arg.testBit 26 = true →
      (s.dev.sched (entryCarrier w e)).pins.any (fun p => p.1 == e.arg / 2 ^ 16 % 1024) = false →
    Completes (.windowOpen w) s (fun t => EntryCounted s t w ∧ SameMem s t ∧
      (t.dev.sched (entryCarrier w e)).pins = (s.dev.sched (entryCarrier w e)).pins ++ [(e.arg / 2 ^ 16 % 1024, e.arg % 512)] ∧
      (t.dev.sched (entryCarrier w e)).mask = (s.dev.sched (entryCarrier w e)).mask)) ∧
  (∀ (w : Fin 4) (e : ItinEntry) (s : State), EntryRuns s w e → e.action = 3 → isAnchor (entryCarrier w e) = false → e.arg.testBit 26 = false →
    Completes (.windowClose w) s (fun t => EntryCounted s t w ∧
      t.dev.sched (entryCarrier w e) = { s.dev.sched (entryCarrier w e) with mask := (s.dev.sched (entryCarrier w e)).mask &&& (511 - e.arg % 512) } ∧
      SameMem s t ∧ { t.dev with words := s.dev.words, scheds := s.dev.scheds, itinRuns := s.dev.itinRuns } = s.dev)) ∧
  (∀ (w : Fin 4) (e : ItinEntry) (s : State), EntryRuns s w e → e.action = 4 →
    Completes (.park w) s (fun t =>
      let m := entryCarrier w e
      let tx := e.arg.testBit 0 && !cancelled s.dev.parkTx m (parkC e)
      let rx := e.arg.testBit 1 && !cancelled s.dev.parkRx m (parkC e)
      EntryCounted s t w ∧ t.dev.sched m = { s.dev.sched m with
        txPark := (s.dev.sched m).txPark || tx, rxPark := (s.dev.sched m).rxPark || rx,
        rxParkC := if rx then some (parkC e) else (s.dev.sched m).rxParkC } ∧
      t.dev.f R.ITIN_STAT_PARKS.PARKS w = min (s.dev.f R.ITIN_STAT_PARKS.PARKS w + b2n (tx && !(s.dev.sched m).txPark) +
        b2n (rx && !(s.dev.sched m).rxPark)) (2 ^ 64 - 1) ∧
      t.dev.f R.VAR_SKIP.VALUE w = s.dev.f R.VAR_SKIP.VALUE w ∧ SameMem s t)) ∧
  (∀ (w : Fin 4) (e : ItinEntry) (s : State), EntryRuns s w e → e.action = 5 →
    Completes (.wake w) s (fun t =>
      let m := entryCarrier w e
      EntryCounted s t w ∧ t.dev.sched m = { s.dev.sched m with
        txPark := (s.dev.sched m).txPark && !e.arg.testBit 0, rxPark := (s.dev.sched m).rxPark && !e.arg.testBit 1 } ∧
      t.dev.f R.ITIN_STAT_WAKES.WAKES w = min (s.dev.f R.ITIN_STAT_WAKES.WAKES w + b2n (e.arg.testBit 0 && (s.dev.sched m).txPark) +
        b2n (e.arg.testBit 1 && (s.dev.sched m).rxPark)) (2 ^ 64 - 1) ∧ SameMem s t)) ∧
  (∀ (w : Fin 4) (e : ItinEntry) (s : State), EntryRuns s w e → e.action = 7 → s.dev.f R.KW_CTL.FF_EN = 1 →
      e.arg / 2 ^ 32 % 4 < (s.dev.kwOf (entryCarrier w e)).heaters.length →
    Completes (.heaterFf w) s (fun t => EntryCounted s t w ∧ (t.dev.heater (entryCarrier w e) (e.arg / 2 ^ 32 % 4)).pulse =
      some (s.dev.heaterBaseNow (entryCarrier w e) (e.arg / 2 ^ 32 % 4) + signed 16 e.arg) ∧
      (t.dev.heater (entryCarrier w e) (e.arg / 2 ^ 32 % 4)).pulseEnd = s.dev.afterSlot e (max 1 (e.arg / 2 ^ 16 % 2 ^ 16)) ∧ t.dev.scheds = s.dev.scheds ∧ SameMem s t)) ∧
  (∀ (w : Fin 4) (e : ItinEntry) (s : State), EntryRuns s w e → e.action = 7 → s.dev.f R.KW_CTL.FF_EN = 0 →
    Completes (.heaterFf w) s (fun t => EntryCounted s t w ∧ (∀ m k, t.dev.heater m k = s.dev.heater m k) ∧ SameMem s t ∧
      { t.dev with words := s.dev.words, kw := s.dev.kw, itinRuns := s.dev.itinRuns } = s.dev ∧
      SameWords s t [R.ITIN_STAT_NEXT.NEXT.key w, R.ITIN_STAT_EXECUTED.EXECUTED.key w, R.VAR_LATE.VALUE.key w])) ∧
  (∀ (w : Fin 4) (e : ItinEntry) (s : State), EntryRuns s w e → e.action = 6 → s.dev.itinMode = 1 → w.val < s.dev.provMode.length →
      s.dev.colls.any (fun x => x.start == 0 && x.phase == e.arg % 65536) = false →
      s.dev.f R.ITIN_STAT_EXECUTED.EXECUTED w < 2 ^ 64 - 1 →
    Completes (.phaseStart w) s (fun t => EntryCounted s t w ∧
      t.dev.provMode.getD w 0 = (if s.dev.f R.TOUR_CTL.ENABLE w = 1 then s.dev.shadow w else s.dev.provMode.getD w 0) ∧ SameMem s t ∧ { t.dev with words := s.dev.words, provMode := s.dev.provMode, itinRuns := s.dev.itinRuns } = s.dev)) ∧
  (∀ (w : Fin 4) (e : ItinEntry) (s : State), s.dev.dueEntry w = some e → e.action = 0 → diff40 e.slot s.dev.ns40 < -s.dev.grace →
    Completes (.itineraryNop w) s (fun t => t.dev.f R.ITIN_STAT_NEXT.NEXT w = (s.dev.f R.ITIN_STAT_NEXT.NEXT w + 1) % 2 ^ 15 ∧
      t.dev.f R.ITIN_ERR.PAST = min (s.dev.f R.ITIN_ERR.PAST + 1) (2 ^ 32 - 1) ∧
      t.dev.f R.VAR_SKIP.VALUE w = min (s.dev.f R.VAR_SKIP.VALUE w + 1) (2 ^ 64 - 1) ∧ SameMem s t ∧ SameUnits s t ∧
      SameWords s t [R.ITIN_STAT_NEXT.NEXT.key w, R.ITIN_ERR.PAST.key 0, R.VAR_SKIP.VALUE.key w])) ∧
  (∀ (w : Fin 4) (c : Instr) (a : Nat) (e : ItinEntry) (s : State), (c, a) ∈ itinCommands w → s.dev.dueEntry w = some e → e.action = a →
      s.dev.conflict (entryCarrier w e) e = false → diff40 e.slot s.dev.ns40 < -s.dev.grace →
    Completes c s (fun t => let m := entryCarrier w e
      t.dev.f R.ITIN_STAT_NEXT.NEXT w = (s.dev.f R.ITIN_STAT_NEXT.NEXT w + 1) % 2 ^ 15 ∧
      t.dev.f R.ITIN_ERR.PAST = min (s.dev.f R.ITIN_ERR.PAST + 1) (2 ^ 32 - 1) ∧
      t.dev.f R.VAR_SKIP.VALUE w = min (s.dev.f R.VAR_SKIP.VALUE w + 1) (2 ^ 64 - 1) ∧
      t.dev.sched m = (if isAnchor m = true then s.dev.sched m else (s.dev.sched m).after (s.dev.parkLeft m e)) ∧
      { t.dev with words := s.dev.words, scheds := s.dev.scheds } = s.dev ∧ SameMem s t)) ∧
  (∀ (w : Fin 4) (c : Instr) (a : Nat) (e : ItinEntry) (s : State), (c, a) ∈ itinCommands w → s.dev.dueEntry w = some e → e.action = a →
      s.dev.conflict (entryCarrier w e) e = false → -s.dev.grace ≤ diff40 e.slot s.dev.ns40 → a ≠ 6 → s.dev.carOut (entryCarrier w e) = true →
    Completes c s (fun t => let m := entryCarrier w e
      t.dev.f R.ITIN_STAT_NEXT.NEXT w = (s.dev.f R.ITIN_STAT_NEXT.NEXT w + 1) % 2 ^ 15 ∧
      t.dev.f R.VAR_SKIP.VALUE w = min (s.dev.f R.VAR_SKIP.VALUE w + 1) (2 ^ 64 - 1) ∧
      t.dev.sched m = (if isAnchor m = true then s.dev.sched m else (s.dev.sched m).after (s.dev.parkLeft m e)) ∧
      { t.dev with words := s.dev.words, scheds := s.dev.scheds } = s.dev ∧ SameMem s t)) ∧
  (∀ (w : Fin 4) (c : Instr) (a : Nat) (e : ItinEntry) (s : State), (c, a) ∈ itinCommands w → s.dev.dueEntry w = some e → e.action = a →
      s.dev.conflict (entryCarrier w e) e = true →
    Completes c s (fun t => t.dev.f R.ITIN_STAT_NEXT.NEXT w = (s.dev.f R.ITIN_STAT_NEXT.NEXT w + 1) % 2 ^ 15 ∧ t.dev.f R.ITIN_ERR.CONFLICT = 1 ∧
      t.dev.f R.VAR_SKIP.VALUE w = min (s.dev.f R.VAR_SKIP.VALUE w + 1) (2 ^ 64 - 1) ∧ SameMem s t ∧ SameUnits s t ∧
      SameWords s t [R.ITIN_STAT_NEXT.NEXT.key w, R.ITIN_ERR.CONFLICT.key 0, R.VAR_SKIP.VALUE.key w])) ∧
  (∀ (w : Fin 4) (c : Instr) (a : Nat) (s : State), (c, a) ∈ itinCommands w → (∀ e, s.dev.dueEntry w = some e → e.action ≠ a) →
    Completes c s (fun t => t = s)) ∧
  (∀ (w : Fin 4) (c : Instr) (a : Nat) (s : State), (c, a) ∈ itinCommands w → 32 ≤ s.dev.launched w → Completes c s (fun t => t = s))

/-- Wake requests and slots, PARK_CANCEL, and the return of a carrier to its group (R229, R234, R235, Table 8.6, notes/assumptions/50.md,
notes/assumptions/114.md, notes/assumptions/20.md). The model's choices: log entry 50 (wakes, parks and returns), 114 (the guard of a carrier that
rejoins on another colour), 20 (at another time nothing changes). -/
def Obligations.WakesReturnsAndCancelsAreServed : Prop :=
  (∀ (m : Fin 128) (s : State), s.dev.f R.SYS_BOOT.STATE = 4 → s.dev.wingPresent (carrierWing m) = true → isAnchor m = false → (s.dev.sched m).txPark = true →
    Completes (.wakeRequest m) s (fun t => t.dev.kwOf m = { s.dev.kwOf m with wakeReq := true } ∧ { t.dev with kw := s.dev.kw } = s.dev ∧ SameMem s t)) ∧
  (∀ (m : Fin 128) (e : ItinEntry) (s : State), s.dev.f R.SYS_BOOT.STATE = 4 → s.dev.wingPresent (carrierWing m) = true → isAnchor m = false →
      (s.dev.sched m).txPark = false → s.dev.pendingPark m 0 = some e → cancelled s.dev.parkTx m (parkC e) = false → 10000 < diff40 (parkC e) s.dev.ns40 →
    Completes (.wakeRequest m) s (fun t => t.dev.parkTx = s.dev.parkTx ++ [⟨m, parkC e, s.dev.taiOf e.slot⟩] ∧
      t.dev.f R.ITIN_STAT_CANCELLED.CANCELLED (carrierWing m) = min (s.dev.f R.ITIN_STAT_CANCELLED.CANCELLED (carrierWing m) + 1) (2 ^ 64 - 1) ∧
      SameMem s t ∧ SameWords s t [R.ITIN_STAT_CANCELLED.CANCELLED.key (carrierWing m)])) ∧
  (∀ (m : Fin 128) (e : ItinEntry) (s : State), s.dev.f R.SYS_BOOT.STATE = 4 → s.dev.wingPresent (carrierWing m) = true → isAnchor m = false →
      (s.dev.sched m).txPark = false → s.dev.pendingPark m 0 = some e → cancelled s.dev.parkTx m (parkC e) = false → diff40 (parkC e) s.dev.ns40 ≤ 10000 →
    Completes (.wakeRequest m) s (fun t => t.dev.kwOf m = { s.dev.kwOf m with wakeReq := true } ∧ { t.dev with kw := s.dev.kw } = s.dev ∧ SameMem s t)) ∧
  (∀ (m : Fin 128) (s : State), isAnchor m = true → s.dev.wakeSlotNow 0 = true →
    Completes (.wakeSlot m) s (fun t => t.dev.kwOf m = { s.dev.kwOf m with wakeSend := true } ∧ { t.dev with kw := s.dev.kw } = s.dev ∧ SameMem s t)) ∧
  (∀ (m : Fin 128) (s : State), isAnchor m = true → s.dev.wakeSlotNow 0 = false → Completes (.wakeSlot m) s (fun t => t = s)) ∧
  (∀ (m : Fin 128) (s : State), isAnchor m = false → s.dev.wakeSlotNow 0 = true → (s.dev.kwOf m).wakeReq = true → (s.dev.sched m).txPark = true → (s.dev.sched m).rxPark = false →
    Completes (.wakeSlot m) s (fun t => t.dev.sched m = { s.dev.sched m with txPark := false } ∧
      t.dev.f R.ITIN_STAT_WAKES.WAKES (carrierWing m) = min (s.dev.f R.ITIN_STAT_WAKES.WAKES (carrierWing m) + 1) (2 ^ 64 - 1) ∧ SameMem s t)) ∧
  (∀ (m : Fin 128) (s : State), (s.dev.kwOf m).wakeCheck = true → s.dev.now < (s.dev.kwOf m).rxGuardEnd + 1000 →
    Completes (.wakeCheckExpiry m) s (fun t => t = s)) ∧
  (∀ (m : Fin 128) (s : State), (s.dev.kwOf m).wakeCheck = true → (s.dev.kwOf m).rxGuardEnd + 1000 ≤ s.dev.now →
    Completes (.wakeCheckExpiry m) s (fun t => t.dev.sched m = { s.dev.sched m with rxPark := true } ∧ (t.dev.kwOf m).wakeCheck = false ∧
      (t.dev.kwOf m).loFine = false ∧ t.dev.f R.KW_CAR_STATE.RX_LOCK m = 0 ∧ SameMem s t)) ∧
  (∀ (g : PlanMsg) (x m : Nat) (e : ItinEntry) (s : State), FromPeer s g.site.toNat g.gwId.toNat x → s.dev.loOn g.plane.toNat g.colour.toNat = some m →
      cancelled s.dev.parkRx m g.t.toNat = false → (s.dev.parksAhead m 1).find? (fun e => parkC e == g.t.toNat) = some e →
      0 < diff40 e.slot s.dev.ns40 →
    Completes (.parkCancelReceive g true) s (fun t => t.dev.parkRx = s.dev.parkRx ++ [⟨m, g.t.toNat, e.slot⟩] ∧
      t.dev.f R.ITIN_STAT_CANCELLED.CANCELLED (carrierWing m) = min (s.dev.f R.ITIN_STAT_CANCELLED.CANCELLED (carrierWing m) + 1) (2 ^ 64 - 1) ∧ SameMem s t)) ∧
  (∀ (g : PlanMsg) (x m : Nat) (s : State), FromPeer s g.site.toNat g.gwId.toNat x → s.dev.loOn g.plane.toNat g.colour.toNat = some m →
      cancelled s.dev.parkRx m g.t.toNat = false → (s.dev.parksAhead m 1).find? (fun e => parkC e == g.t.toNat) = none →
      (s.dev.sched m).rxParkC = some g.t.toNat →
    Completes (.parkCancelReceive g true) s (fun t => t.dev.f R.ITIN_ERR.CANCEL_LATE = 1 ∧ t.dev.parkRx = s.dev.parkRx ∧ SameMem s t ∧
      SameWords s t [R.ITIN_ERR.CANCEL_LATE.key 0, R.HEALTH_PEER.STATE.key x])) ∧
  (∀ (g : PlanMsg) (x m : Nat) (s : State), FromPeer s g.site.toNat g.gwId.toNat x → s.dev.loOn g.plane.toNat g.colour.toNat = some m →
      cancelled s.dev.parkRx m g.t.toNat = false → (s.dev.parksAhead m 1).find? (fun e => parkC e == g.t.toNat) = none →
      (s.dev.sched m).rxParkC ≠ some g.t.toNat →
    Completes (.parkCancelReceive g true) s (fun t => t.dev.parkRx = s.dev.parkRx ∧ SameMem s t ∧ SameWords s t [R.HEALTH_PEER.STATE.key x])) ∧
  (∀ (m : Fin 128) (site : Nat) (s : State), s.dev.f R.CUR_STATE.ALIVE = 1 → s.dev.rxMay m = true → (s.dev.kwOf m).rxOut = true → s.dev.rxSite m = some site →
      s.dev.returnsTx = [] →
    Completes (.relockAttempt m true) s (fun t => t.dev.f R.KW_CAR_STATE.RX_LOCK m = 1 ∧ t.dev.f R.KW_CAR_STATE.LO_COL m = (((s.dev.sched m).lo).getD 0) % 128 ∧
      t.dev.f R.LINE_CAR_STAT.LOS m = 0 ∧ t.dev.returnsTx = [⟨m, site, (((s.dev.sched m).lo).getD 0) % 128, s.dev.returnTime, false⟩] ∧
      (t.dev.kwOf m).rxOut = true ∧ SameMem s t)) ∧
  (∀ (m : Fin 128) (s : State), Completes (.relockAttempt m false) s (fun t => t = s)) ∧
  (∀ (g : PlanMsg) (x m : Nat) (s : State), FromPeer s g.site.toNat g.gwId.toNat x → s.dev.txOn g.plane.toNat g.colour.toNat = some m →
      s.dev.returnsRx.any (fun r => r.m == m) = false →
    Completes (.returnReceive g true) s (fun t => let acc := decide (10000 < diff40 g.t.toNat s.dev.ns40)
      t.dev.returnsRx = s.dev.returnsRx ++ [⟨m, g.t.toNat, acc, false⟩] ∧
      t.dev.ctlQ = s.dev.ctlQ ++ [(g.site.toNat, .plan 5 (s.dev.planMsg g.plane.toNat 0 0 g.t.toNat g.colour.toNat acc 0))] ∧ SameMem s t)) ∧
  (∀ (g : PlanMsg) (x : Nat) (r : ReturnTx) (s : State), FromPeer s g.site.toNat g.gwId.toNat x → s.dev.returnsTx = [r] → r.site = g.site.toNat →
      r.colour = g.colour.toNat → r.t = g.t.toNat → r.acked = false → carrierEngine r.m = g.plane.toNat →
    Completes (.returnAckReceive g true) s (fun t =>
      t.dev.returnsTx = { r with acked := true } :: (if g.accept then [] else [{ r with t := s.dev.returnTime }]) ∧ t.dev.kw = s.dev.kw ∧ SameMem s t)) ∧
  (∀ (m : Fin 128) (r : ReturnTx) (s : State), s.dev.returnsTx = [r] → r.m = m.val → diff40 r.t s.dev.ns40 ≤ 0 → s.dev.returnsRx = [] →
      (s.dev.kwOf m).rxJoined = false → (s.dev.kwOf m).txJoined = false →
    Completes (.carrierRejoin m) s (fun t => t.dev.returnsTx = (if r.acked then [] else [r]) ∧ (t.dev.kwOf m).rxOut = false ∧
      (s.dev.rxMay m = true → t.dev.f R.KW_CAR_STATE.LO_COL m = (((s.dev.sched m).lo).getD 0) % 128) ∧
      (t.dev.kwOf m).txOut = (s.dev.kwOf m).txOut ∧ SameMem s t)) ∧
  (∀ (m : Fin 128) (r : ReturnRx) (s : State), s.dev.returnsTx = [] → s.dev.returnsRx = [r] → r.m = m.val → r.accept = true → r.rejoined = false → diff40 r.t s.dev.ns40 ≤ 0 →
      (s.dev.kwOf m).rxJoined = false → (s.dev.kwOf m).txJoined = false →
    Completes (.carrierRejoin m) s (fun t => t.dev.returnsRx = [{ r with rejoined := true }] ∧ (t.dev.kwOf m).txOut = false ∧
      (s.dev.txMay m = true → t.dev.f R.KW_CAR_STATE.TX_COL m = (s.dev.wantTx m).getD 0 % 128) ∧ (t.dev.kwOf m).rxOut = (s.dev.kwOf m).rxOut ∧
      t.dev.f R.LINE_CAR_STAT.RMT_OUT m = 0 ∧ SameMem s t)) ∧
  (∀ (g : PlanMsg) (x m : Nat) (r : ReturnRx) (s : State), FromPeer s g.site.toNat g.gwId.toNat x → s.dev.txOn g.plane.toNat g.colour.toNat = some m →
      s.dev.returnsRx = [r] → r.m = m → r.t = g.t.toNat →
    Completes (.returnReceive g true) s (fun t => t.dev.returnsRx = [r] ∧
      t.dev.ctlQ = s.dev.ctlQ ++ [(g.site.toNat, .plan 5 (s.dev.planMsg g.plane.toNat 0 0 g.t.toNat g.colour.toNat r.accept 0))] ∧ SameMem s t))

/-- Pending Catalogue versions and pages: READY, CANCEL, the commit point, activation, and reads of their images (R15, R16, R218, R221, R222, R223,
R237, R238, R239, R240, R241, notes/assumptions/49.md). The model's choices: log entry 49 (HOLDING is set from the commit point), 86 (the tick of the
write), 108 (one visit per ANCHOR_VISIT), 20 (before its time an activation changes nothing). -/
def Obligations.PlansAreAnnouncedCommittedAndActivated : Prop :=
  (∀ (g : PlanMsg) (x : Nat) (c : List Byte) (s : State), FromPeer s g.site.toNat g.gwId.toNat x → g.kind = 1 → s.dev.catPending = some c →
      catPlan c = g.id.toNat →
    Completes (.announceReceive g true) s (fun t =>
      (if orderPrint c ≠ g.orderPrint.toNat then t.dev.f R.CAT_ERR.ORDER = 1 ∧ t.dev.f R.CAT_READY.READY = s.dev.f R.CAT_READY.READY
       else if s.dev.f R.CAT_STATE.ACT_AT = g.t.toNat then t.dev.f R.CAT_READY.READY = s.dev.f R.CAT_READY.READY ||| 2 ^ g.site.toNat
       else t.dev.f R.CAT_READY.READY = s.dev.f R.CAT_READY.READY) ∧
      SameMem s t ∧ SameWords s t [R.CAT_ERR.ORDER.key 0, R.CAT_READY.READY.key 0, R.HEALTH_PEER.STATE.key x])) ∧
  (∀ (g : PlanMsg) (x : Nat) (s : State), FromPeer s g.site.toNat g.gwId.toNat x → g.kind = 2 → s.dev.f R.ITIN_STATE.PEND = 1 →
      s.dev.f R.ITIN_ID.PEND_ID = g.id.toNat → s.dev.f R.ITIN_STATE.ACT_AT = g.t.toNat →
    Completes (.announceReceive g true) s (fun t => t.dev.f R.ITIN_READY.READY = s.dev.f R.ITIN_READY.READY ||| 2 ^ g.site.toNat ∧
      SameMem s t ∧ SameWords s t [R.ITIN_READY.READY.key 0, R.HEALTH_PEER.STATE.key x])) ∧
  (∀ (g : PlanMsg) (x : Nat) (s : State), FromPeer s g.site.toNat g.gwId.toNat x → g.kind = 1 → s.dev.f R.CAT_STATE.PEND = 1 →
      s.dev.f R.CAT_ID.PEND_PLAN = g.id.toNat → s.dev.f R.CAT_STATE.ACT_AT = g.t.toNat →
    Completes (.cancelReceive g true) s (fun t =>
      (if s.dev.catCommitted = true then t.dev.f R.CAT_ERR.CANCEL_LATE = 1 ∧ t.dev.f R.CAT_STATE.PEND = 1
       else t.dev.f R.CAT_STATE.PEND = 0 ∧ t.dev.f R.CAT_ID.PEND_PLAN = 0 ∧ t.dev.f R.CAT_READY.READY = 0 ∧
        t.dev.catVer (1 - s.dev.f R.CAT_STATE.ACTIVE) = []) ∧
      t.dev.cat = s.dev.cat ∧ SameMem s t)) ∧
  (∀ (g : PlanMsg) (x : Nat) (s : State), FromPeer s g.site.toNat g.gwId.toNat x → g.kind = 2 → s.dev.f R.ITIN_STATE.PEND = 1 →
      s.dev.f R.ITIN_ID.PEND_ID = g.id.toNat → s.dev.f R.ITIN_STATE.ACT_AT = g.t.toNat →
    Completes (.cancelReceive g true) s (fun t =>
      (if s.dev.pageCommitted = true then t.dev.f R.ITIN_ERR.CANCEL_LATE = 1 ∧ t.dev.f R.ITIN_STATE.PEND = 1
       else t.dev.f R.ITIN_STATE.PEND = 0 ∧ t.dev.f R.ITIN_ID.PEND_ID = 0 ∧ t.dev.f R.ITIN_READY.READY = 0 ∧ t.dev.page (1 - s.dev.f R.ITIN_STATE.ACTIVE) = []) ∧
      t.dev.activePage = s.dev.activePage ∧ SameMem s t)) ∧
  (∀ (s : State), s.dev.catCommitted = true →
    Completes (.commitPoint .catalogue) s (fun t => t.dev.f R.CAT_STATE.COMMITTED = 1 ∧ t.dev.f R.CAT_STATE.HOLDING = 1 ∧ t.dev.f R.CAT_STATE.PEND = 1 ∧
      SameMem s t ∧ SameUnits s t ∧ SameWords s t [R.CAT_STATE.COMMITTED.key 0])) ∧
  (∀ (s : State), s.dev.pageCommitted = true →
    Completes (.commitPoint .page) s (fun t => t.dev.f R.ITIN_STATE.COMMITTED = 1 ∧ t.dev.f R.ITIN_STATE.PEND = 1 ∧
      SameMem s t ∧ SameUnits s t ∧ SameWords s t [R.ITIN_STATE.COMMITTED.key 0])) ∧
  (∀ (s : State), (s.dev.catCommitted = false → Completes (.commitPoint .catalogue) s (fun t => t = s)) ∧
    (s.dev.pageCommitted = false → Completes (.commitPoint .page) s (fun t => t = s))) ∧
  (∀ (w : Fin 4) (s : State), s.dev.f R.ITIN_STATE.PEND = 1 → s.dev.hasCome (s.dev.f R.ITIN_STATE.ACT_AT) = true →
    Completes .pageActivate s (fun t => let page := s.dev.page (1 - s.dev.f R.ITIN_STATE.ACTIVE)
      t.dev.f R.ITIN_STATE.ACTIVE = 1 - s.dev.f R.ITIN_STATE.ACTIVE ∧ t.dev.activePage = page ∧ t.dev.f R.ITIN_STATE.PEND = 0 ∧
      t.dev.f R.ITIN_STATE.COMMITTED = 0 ∧ t.dev.f R.ITIN_ID.ACTIVE_ID = s.dev.f R.ITIN_ID.PEND_ID ∧ t.dev.f R.ITIN_ID.PEND_ID = 0 ∧
      t.dev.f R.ITIN_READY.READY = 0 ∧ t.dev.f R.ITIN_STAT_NEXT.NEXT w = 0 ∧ t.dev.f R.ITIN_STAT_DROPPED.DROPPED w =
        min (s.dev.f R.ITIN_STAT_DROPPED.DROPPED w + (pageCount s.dev.activePage w - s.dev.f R.ITIN_STAT_NEXT.NEXT w)) (2 ^ 64 - 1) ∧
      (if s.dev.cat = [] ∨ pagePlan page ≠ catPlan s.dev.cat then t.dev.f R.ITIN_ERR.PLAN = 1 else t.dev.f R.ITIN_ERR.PLAN = s.dev.f R.ITIN_ERR.PLAN) ∧
      t.dev.itinMode = (if s.dev.f R.ITIN_CTL.ENABLE = 1 then s.dev.shadow 4 else s.dev.itinMode) ∧ t.dev.cancelTx = s.dev.cancelTx ∧ SameMem s t)) ∧
  (∀ (s : State), (s.dev.hasCome (s.dev.f R.ITIN_STATE.ACT_AT) = false → Completes .pageActivate s (fun t => t = s)) ∧
    (s.dev.hasCome (s.dev.f R.CAT_STATE.ACT_AT) = false → Completes .catalogueActivate s (fun t => t = s))) ∧
  (∀ (s : State), s.dev.f R.CAT_STATE.PEND = 1 → s.dev.hasCome (s.dev.f R.CAT_STATE.ACT_AT) = true →
    Completes .catalogueActivate s (fun t => t.dev.f R.CAT_STATE.ACTIVE = 1 - s.dev.f R.CAT_STATE.ACTIVE ∧ t.dev.cat = s.dev.catVer (1 - s.dev.f R.CAT_STATE.ACTIVE) ∧
      t.dev.f R.CAT_STATE.PEND = 0 ∧ t.dev.f R.CAT_STATE.COMMITTED = 0 ∧ t.dev.f R.CAT_STATE.HOLDING = 1 ∧
      t.dev.f R.CAT_ID.ACTIVE_PLAN = s.dev.f R.CAT_ID.PEND_PLAN ∧ t.dev.f R.CAT_ID.PEND_PLAN = 0 ∧ t.dev.f R.CAT_READY.READY = 0 ∧
      t.dev.catHeld = s.dev.now ∧ t.dev.catHold = s.dev.f R.CAT_CTL.HOLD ∧ SameMem s t)) ∧
  (∀ (s : State), s.dev.f R.SYS_BOOT.STATE = 4 → s.dev.f R.ITIN_STATE.PEND = 1 →
    Completes .itinCancel s (fun t => (if s.dev.pageCommitted = true then t.dev.f R.ITIN_ERR.BUSY = 1 ∧ t.dev.f R.ITIN_STATE.PEND = 1
      else t.dev.f R.ITIN_STATE.PEND = 0 ∧ t.dev.cancelTx = s.dev.cancelTx ++ [⟨.page, s.dev.f R.ITIN_ID.PEND_ID, s.dev.f R.ITIN_STATE.ACT_AT, 0,
        s.dev.taiOf (s.dev.f R.ITIN_STATE.ACT_AT)⟩]) ∧
      t.dev.activePage = s.dev.activePage ∧ SameMem s t)) ∧
  (∀ (s : State), s.dev.f R.SYS_BOOT.STATE = 4 → s.dev.f R.CAT_STATE.PEND = 1 →
    Completes .catCancel s (fun t => (if s.dev.catCommitted = true then t.dev.f R.CAT_ERR.BUSY = 1 ∧ t.dev.f R.CAT_STATE.PEND = 1
      else t.dev.f R.CAT_STATE.PEND = 0 ∧ t.dev.cancelTx = s.dev.cancelTx ++ [⟨.catalogue, s.dev.f R.CAT_ID.PEND_PLAN, s.dev.f R.CAT_STATE.ACT_AT,
        orderPrint (s.dev.catVer (1 - s.dev.f R.CAT_STATE.ACTIVE)), s.dev.taiOf (s.dev.f R.CAT_STATE.ACT_AT)⟩]) ∧ t.dev.cat = s.dev.cat ∧ SameMem s t)) ∧
  (∀ (s : State), s.dev.catCommitted = false → s.dev.catHold * 1000000 ≤ s.dev.now - s.dev.catHeld →
    Completes .cepHoldEnd s (fun t => t.dev.f R.CAT_STATE.HOLDING = 0 ∧ SameMem s t ∧ SameUnits s t ∧ SameWords s t [R.CAT_STATE.HOLDING.key 0])) ∧
  (∀ (s : State), s.dev.now - s.dev.catHeld < s.dev.catHold * 1000000 → Completes .cepHoldEnd s (fun t => t = s)) ∧
  (∀ (s : State), s.dev.f R.SYS_BOOT.STATE = 4 → s.dev.f R.ITIN_PAGE_SEL.AUTOINC = 0 →
    Completes .itinPageDataRead s (fun t => let page := s.dev.page (s.dev.f R.ITIN_PAGE_SEL.PAGE); let i := s.dev.f R.ITIN_PAGE_SEL.WORD
      (if 8 * i + 8 ≤ page.length then SameWords s t [] ∧ SameUnitsBut [.readData (BitVec.ofNat 64 (leAt page (8 * i) 8))] s t
       else t.dev.f R.ITIN_ERR.RANGE = 1 ∧ SameUnitsBut [.readData 0] s t) ∧ SameMem s t)) ∧
  (∀ (s : State), s.dev.f R.SYS_BOOT.STATE = 4 → s.dev.f R.CAT_SEL.AUTOINC = 1 → 8 * s.dev.f R.CAT_SEL.WORD + 8 ≤ (s.dev.catVer (s.dev.f R.CAT_SEL.VERSION)).length →
    Completes .catDataRead s (fun t => t.dev.f R.CAT_SEL.WORD = (s.dev.f R.CAT_SEL.WORD + 1) % 2 ^ 13 ∧
      SameUnitsBut [.readData (BitVec.ofNat 64 (leAt (s.dev.catVer (s.dev.f R.CAT_SEL.VERSION)) (8 * s.dev.f R.CAT_SEL.WORD) 8))] s t ∧
      SameWords s t [R.CAT_SEL.WORD.key 0] ∧ SameMem s t)) ∧
  (∀ (e : Fin 8) (site p : Nat) (s : State), s.dev.f R.CAT_CTL.ENABLE = 1 → s.dev.carOn (16 * e.val) = true → s.dev.faOk e = true →
      (s.dev.kwOf (16 * e.val)).visitAt ≠ some (s.dev.tai / 20000) → s.dev.anchorSite e = some site → s.dev.peerOf site = some p →
    Completes (.anchorVisit e) s (fun t => (t.dev.lineOf (16 * e.val)).timeQ = [(p, 1), (p, 2), (p, 3)] ∧ SameMem s t)) ∧
  (∀ (e : Fin 8) (s : State), s.dev.f R.CAT_CTL.ENABLE = 0 ∨ (s.dev.kwOf (16 * e.val)).visitAt = some (s.dev.tai / 20000) →
    Completes (.anchorVisit e) s (fun t => t = s))

/-- Fine lock, relock, cold acquisition and loss of lock of the two sides of a carrier; the ends of pulses and guards (R229, R231, R248, R249, R253,
R263, R276, R277, R281, R283, R284, notes/assumptions/50.md). The model's choices: log entry 50 (when the own pulse is entered), 51 (the steps of a
heater loop), 105 (when an anchor takes up its window), 108 (a laser outside LOCK_RANGE), 20 (otherwise nothing changes). -/
def Obligations.LocksOfCarriersAreGainedAndLost : Prop :=
  (∀ (m : Fin 128) (s : State), s.dev.leadNow (carrierEngine m) = s.dev → s.dev.listen m = s.dev → s.dev.rxMay m = true → s.dev.thermalOk m 1 = true →
    Completes (.fineLock m true) s (fun t => t.dev.kwOf m = { s.dev.kwOf m with loFine := true } ∧ { t.dev with kw := s.dev.kw } = s.dev ∧ SameMem s t)) ∧
  (∀ (m : Fin 128) (s : State), s.dev.leadNow (carrierEngine m) = s.dev → s.dev.listen m = s.dev → s.dev.thermalOk m 0 = false → s.dev.thermalOk m 1 = false →
    Completes (.fineLock m false) s (fun t => t = s) ∧ Completes (.fineLock m true) s (fun t => t = s)) ∧
  (∀ (m : Fin 128) (s : State), s.dev.leadNow (carrierEngine m) = s.dev → s.dev.listen m = s.dev → s.dev.txMay m = true → s.dev.f R.KW_CAR_STATE.TX_LOCK m = 0 → s.dev.thermalOk m 0 = true →
      (s.dev.kwOf m).txJoined = false →
    Completes (.fineLock m false) s (fun t => t.dev.f R.KW_CAR_STATE.TX_LOCK m = 1 ∧ (t.dev.kwOf m).txLit = true ∧ (t.dev.lineOf m).txMfas = 0 ∧
      t.dev.f R.KW_CAR_CNT.LATE_LOCK m = (if (s.dev.kwOf m).lockDue = true ∧ (s.dev.kwOf m).txGuardEnd < s.dev.now ∧ isAnchor m = false
        then min (s.dev.f R.KW_CAR_CNT.LATE_LOCK m + 1) 65535 else s.dev.f R.KW_CAR_CNT.LATE_LOCK m) ∧ (t.dev.kwOf m).lockDue = false ∧ SameMem s t)) ∧
  (∀ (m : Fin 128) (s : State), s.dev.listen m = s.dev → s.dev.rxMay m = true → (s.dev.kwOf m).loFine = true → s.dev.pathUsable m = true →
      (s.dev.kwOf m).needCold = false →
    Completes (.receiverRelock m true) s (fun t => t.dev.f R.KW_CAR_STATE.RX_LOCK m = 1 ∧ t.dev.f R.LINE_CAR_STAT.LOS m = 0 ∧ (t.dev.kwOf m).cold = false ∧
      t.dev.f R.LINE_CAR_STAT.ALIGN m = 0 ∧ SameMem s t)) ∧
  (∀ (m : Fin 128) (s : State), s.dev.listen m = s.dev → s.dev.rxMay m = true → (s.dev.kwOf m).loFine = true →
    Completes (.receiverRelock m false) s (fun t => t.dev.kwOf m = { s.dev.kwOf m with cold := true } ∧ { t.dev with kw := s.dev.kw } = s.dev ∧ SameMem s t)) ∧
  (∀ (m : Fin 128) (s : State), s.dev.listen m = s.dev → s.dev.rxMay m = true → (s.dev.kwOf m).loFine = true →
      s.dev.pathUsable m = false ∨ (s.dev.kwOf m).needCold = true →
    Completes (.receiverRelock m true) s (fun t => t.dev.kwOf m = { s.dev.kwOf m with cold := true } ∧ { t.dev with kw := s.dev.kw } = s.dev ∧ SameMem s t)) ∧
  (∀ (m : Fin 128) (s : State), s.dev.listen m = s.dev → (s.dev.kwOf m).cold = true → s.dev.rxMay m = true →
    Completes (.coldAcquisition m) s (fun t => t.dev.f R.KW_CAR_STATE.RX_LOCK m = 1 ∧ t.dev.f R.LINE_CAR_STAT.LOS m = 0 ∧ (t.dev.kwOf m).cold = false ∧ (t.dev.kwOf m).needCold = false ∧
      t.dev.f R.KW_CAR_CNT.COLD m = min (s.dev.f R.KW_CAR_CNT.COLD m + 1) 65535 ∧ SameMem s t)) ∧
  (∀ (m : Fin 128) (s : State), s.dev.listen m = s.dev → s.dev.rxMay m = true → (s.dev.kwOf m).rxGuard = true →
    Completes (.receiverLockLoss m) s (fun t => t.dev.f R.KW_CAR_STATE.RX_LOCK m = 0 ∧ SameMem s t ∧ SameUnits s t ∧ SameWords s t [R.KW_CAR_STATE.RX_LOCK.key m])) ∧
  (∀ (m : Fin 128) (s : State), s.dev.rxMay m = true → (s.dev.kwOf m).rxGuard = false → isAnchor m = false → (s.dev.kwOf m).rxJoined = true →
    Completes (.receiverLockLoss m) s (fun t => t.dev.f R.KW_CAR_STATE.RX_LOCK m = 0 ∧ t.dev.f R.LINE_CAR_STAT.LOS m = 1 ∧ (t.dev.pmOf m).defect = true ∧
      (t.dev.kwOf m).rxJoined = false ∧ (t.dev.kwOf m).rxOut = true ∧ t.dev.f R.LINE_CAR_STAT.RX_IN m = 0 ∧
      t.dev.returnsTx = s.dev.returnsTx.filter (fun r => r.m != m.val) ∧ SameMem s t)) ∧
  (∀ (m : Fin 128) (s : State), s.dev.f R.KW_CAR_STATE.TX_LOCK m = 1 → (s.dev.kwOf m).txJoined = false →
    Completes (.transmitterLockLoss m) s (fun t => t.dev.f R.KW_CAR_STATE.TX_LOCK m = 0 ∧ t.dev.kwOf m = { s.dev.kwOf m with txLit := false } ∧ SameMem s t ∧
      { t.dev with words := s.dev.words, kw := s.dev.kw } = s.dev ∧ SameWords s t [R.KW_CAR_STATE.TX_LOCK.key m])) ∧
  (∀ (m : Fin 128) (s : State), s.dev.f R.KW_CAR_STATE.TX_LOCK m = 1 → (s.dev.kwOf m).txJoined = true →
    Completes (.transmitterLockLoss m) s (fun t => t.dev.f R.KW_CAR_STATE.TX_LOCK m = 0 ∧ (t.dev.kwOf m).txLit = false ∧ (t.dev.kwOf m).txOut = true ∧
      (t.dev.kwOf m).txJoined = false ∧ t.dev.f R.LINE_CAR_STAT.TX_IN m = 0 ∧ SameMem s t)) ∧
  (∀ (m : Fin 128) (h : Fin 4) (p : Int) (s : State), s.dev.leadNow (carrierEngine m) = s.dev → (s.dev.heater m h).pulse = some p →
      (s.dev.heater m h).pulseEnd ≤ s.dev.now →
    Completes (.heaterPulseEnd m h) s (fun t => (t.dev.heater m h).pulse = none ∧ (t.dev.heater m h).base = s.dev.heaterBaseNow m h ∧
      (t.dev.heater m h).frozen = (s.dev.heater m h).froze s.dev.now (s.dev.kwOf m).piAt ∧
      t.dev.scheds = s.dev.scheds ∧ SameMem s t)) ∧
  (∀ (m : Fin 128) (h : Fin 4) (s : State), s.dev.leadNow (carrierEngine m) = s.dev → s.dev.now < (s.dev.heater m h).pulseEnd →
    Completes (.heaterPulseEnd m h) s (fun t => t = s)) ∧
  (∀ (m : Fin 128) (s : State), Completes (.guardEnd m) s (fun t =>
      (t.dev.kwOf m).txGuard = ((s.dev.kwOf m).txGuard && decide (s.dev.now < (s.dev.kwOf m).txGuardEnd)) ∧
      (t.dev.kwOf m).rxGuard = ((s.dev.kwOf m).rxGuard && decide (s.dev.now < (s.dev.kwOf m).rxGuardEnd)) ∧
      (t.dev.kwOf m).wakeSend = ((s.dev.kwOf m).wakeSend &&
        (isAnchor m || !(s.dev.kwOf m).txGuard || decide (s.dev.now < (s.dev.kwOf m).txGuardEnd))) ∧
      t.dev.scheds = s.dev.scheds ∧ SameMem s t)) ∧
  (∀ (m : Fin 128) (s : State), s.dev.rxMay m = true → (s.dev.kwOf m).rxGuard = true → (s.dev.kwOf m).rxGuardEnd ≤ s.dev.now →
      s.dev.f R.KW_CAR_STATE.RX_LOCK m = 0 → s.dev.f R.LINE_CAR_STAT.ALIGN m = 0 →
    Completes (.guardEnd m) s (fun t => t.dev.f R.LINE_CAR_STAT.LOS m = 1 ∧ t.dev.f R.LINE_CAR_STAT.LOF m = 1 ∧ SameMem s t)) ∧
  (∀ (m : Fin 128) (s : State), s.dev.f R.SYS_BOOT.STATE = 4 → Completes (.pathClear m) s (fun t =>
      (∀ k, k < 128 → t.dev.path m k = { s.dev.path m k with valid := false }) ∧
      (∀ n k, n ≠ m.val → k < 128 → t.dev.path n k = s.dev.path n k) ∧ { t.dev with paths := s.dev.paths } = s.dev ∧ SameMem s t)) ∧
  (∀ (s : State), s.dev.f R.SYS_BOOT.STATE = 4 → Completes .pathClearAll s (fun t =>
      (∀ m k, t.dev.path m k = { s.dev.path m k with valid := false }) ∧ { t.dev with paths := s.dev.paths } = s.dev ∧ SameMem s t)) ∧
  (∀ (m : Fin 128) (v : Monitors) (s : State), s.dev.engOk (carrierEngine m) = true → s.dev.rxMay m = true → s.dev.f R.KW_CAR_STATE.RX_LOCK m = 1 →
    Completes (.monitorSample m v) s (fun t => t.dev.f R.KW_ENG_STAT.TEMP (carrierEngine m) = v.temp.toNat ∧
      t.dev.f R.KW_ENG_STAT.RX_TOTAL (carrierEngine m) = v.rxTotal.toNat ∧ t.dev.f R.KW_CAR_OPT.RX_POW m = v.rxPow.toNat ∧
      t.dev.f R.KW_CAR_PATH.CD m = v.cd.toNat ∧ t.dev.f R.KW_CAR_QUAL.QMARG m = v.qmarg.toNat ∧
      t.dev.path m (s.dev.f R.KW_CAR_STATE.LO_COL m) = ⟨true, s.dev.now, v.cd.toNat, v.fofs.toNat, v.dgd.toNat, v.seed0.toNat, v.seed1.toNat⟩ ∧ SameMem s t)) ∧
  (∀ (m : Fin 128) (v : Monitors) (s : State), s.dev.engOk (carrierEngine m) = false → Completes (.monitorSample m v) s (fun t => t = s)) ∧
  (∀ (m : Fin 128) (s : State), s.dev.listen m = s.dev → s.dev.rxMay m = false → Completes (.coldAcquisition m) s (fun t => t = s))

/-- Connectors, fibres, temperatures, path reports, and writes of a carrier's configuration (R242, R243, R250, R260, R261, R262, Table 9.8,
notes/assumptions/108.md). The model's choices: log entry 108 (the corners of the thermal model), 20 (what a reading outside its condition does). -/
def Obligations.ConnectorsFibresAndEnginesAreWatched : Prop :=
  (∀ (f : Fin 2) (s : State), Completes (.connectorChange f true) s (fun t => t.dev.f R.KW_FA.PRESENT = s.dev.f R.KW_FA.PRESENT ||| 2 ^ f.val ∧
      t.dev.faSettled = s.dev.faSettled.set f false ∧ { t.dev with words := s.dev.words, faSettled := s.dev.faSettled } = s.dev ∧
      SameWords s t [R.KW_FA.PRESENT.key 0] ∧ SameMem s t)) ∧
  (∀ (f : Fin 2) (s : State), Completes (.connectorChange f false) s (fun t => t.dev.f R.KW_FA.PRESENT = s.dev.f R.KW_FA.PRESENT &&& (3 - 2 ^ f.val) ∧
      (List.range 64).all (fun i => t.dev.f R.KW_CAR_STATE.TX_LOCK (64 * f + i) == 0 && !(t.dev.kwOf (64 * f + i)).txLit) = true ∧
      t.dev.scheds = s.dev.scheds ∧ SameMem s t)) ∧
  (∀ (f : Fin 2) (s : State), (s.dev.f R.KW_FA.PRESENT).testBit f = true →
    Completes (.connectorSettle f) s (fun t => t.dev.faSettled = s.dev.faSettled.set f true ∧ t.dev.f R.KW_FA.PRESENT = s.dev.f R.KW_FA.PRESENT ∧
      t.dev.scheds = s.dev.scheds ∧ SameMem s t)) ∧
  (∀ (e : Fin 8) (p : BitVec 16) (s : State), s.dev.wingPresent (e.val / 2) = true → p.toInt < s.dev.sf R.KW_ENG_CFG.LOS_THR e →
    Completes (.fibreLos e p) s (fun t => t.dev.f R.KW_ENG_STAT.RX_TOTAL e = p.toNat ∧ t.dev.f R.KW_FA.FIBRE_LOS = s.dev.f R.KW_FA.FIBRE_LOS ||| 2 ^ e.val ∧
      (List.range 16).all (fun i => t.dev.f R.LINE_CAR_STAT.LOS (16 * e + i) == 1 || (s.dev.rxLive (16 * e + i)).isNone) = true ∧
      (List.range 16).all (fun i => !(t.dev.kwOf (16 * e + i)).txJoined && !(t.dev.kwOf (16 * e + i)).rxJoined) = true ∧ SameMem s t)) ∧
  (∀ (e : Fin 8) (p : BitVec 16) (s : State), s.dev.wingPresent (e.val / 2) = true → s.dev.sf R.KW_ENG_CFG.LOS_THR e ≤ p.toInt →
    Completes (.fibreLos e p) s (fun t => t.dev.f R.KW_ENG_STAT.RX_TOTAL e = p.toNat ∧
      t.dev.f R.KW_FA.FIBRE_LOS = s.dev.f R.KW_FA.FIBRE_LOS &&& (255 - 2 ^ e.val) ∧ SameMem s t ∧ SameUnits s t ∧
      SameWords s t [R.KW_ENG_STAT.RX_TOTAL.key e, R.KW_FA.FIBRE_LOS.key 0])) ∧
  (∀ (e : Fin 8) (c : BitVec 16) (s : State), s.dev.wingPresent (e.val / 2) = true →
    Completes (.picTempDeviation e c) s (fun t => let off := ((c.toNat : Int) - (s.dev.f R.KW_ENG_CFG.T_SET e : Nat)).natAbs
      t.dev.f R.KW_ENG_STAT.TEMP e = c.toNat ∧ SameMem s t ∧
      (if off ≤ 200 then t.dev.engDark = s.dev.engDark.filter (fun k => k != e.val) ∧ SameWords s t [R.KW_ENG_STAT.TEMP.key e]
       else t.dev.f R.KW_ERR.TEMP = 1 ∧ (if off ≤ 500 then t.dev.engDark = s.dev.engDark ∧ t.dev.kw = s.dev.kw
         else t.dev.engDark = s.dev.engDark ++ [e.val] ∧ (List.range 16).all (fun i => t.dev.f R.KW_CAR_STATE.TX_LOCK (16 * e + i) == 0) = true)))) ∧
  (∀ (r : PathReport) (p : Nat) (s : State), FromPeer s r.site.toNat r.gwId.toNat p →
    Completes (.pathReportReceive r true) s (fun t => t.dev.f R.KW_PEER.PEER_CD p = r.cd.toNat ∧ t.dev.cdReports.contains p = true ∧ SameMem s t ∧
      SameWords s t [R.KW_PEER.PEER_CD.key p, R.HEALTH_PEER.STATE.key p])) ∧
  (∀ (r : PathReport) (s : State), s.dev.identOk r.site.toNat r.gwId.toNat = false →
    Completes (.pathReportReceive r true) s (fun t => t.dev.f R.CAT_CNT.IDENT = min (s.dev.f R.CAT_CNT.IDENT + 1) (2 ^ R.CAT_CNT.IDENT.w - 1) ∧
      SameMem s t ∧ SameUnits s t ∧ SameWords s t [R.CAT_CNT.IDENT.key 0])) ∧
  (∀ (m : Fin 128) (v : Word) (s : State), s.dev.f R.SYS_BOOT.STATE = 4 → s.dev.wingPresent (carrierWing m) = true →
      s.dev.blkHeld 4 (carrierEngine m) = false → s.dev.f R.KW_CAR_CFG.EN m = 0 → (s.dev.kwOf m).txLit = false → wrote .full v R.KW_CAR_CFG.EN = 1 →
      wrote .full v R.KW_CAR_CFG.MODE < 3 → (wrote .full v R.KW_CAR_CFG.FEC = 1 → wrote .full v R.KW_CAR_CFG.MODE = 0) →
      isAnchor m = true ∨ s.dev.f R.KW_CAR_CFG.EN (16 * carrierEngine m) = 1 →
    Completes (.carrierCfgWrite m .full v) s (fun t => t.dev.f R.KW_CAR_CFG.EN m = 1 ∧ t.dev.f R.KW_CAR_CFG.MODE m = wrote .full v R.KW_CAR_CFG.MODE ∧
      t.dev.f R.KW_CAR_CFG.TX_PWR m = unsigned 16 (max (-600) (min 400 (signed 16 (wrote .full v R.KW_CAR_CFG.TX_PWR)))) ∧
      (t.dev.kwOf m).needCold = true ∧ t.dev.scheds = s.dev.scheds ∧ SameMem s t)) ∧
  (∀ (m : Fin 128) (v : Word) (s : State), s.dev.f R.SYS_BOOT.STATE = 4 → s.dev.wingPresent (carrierWing m) = true →
      s.dev.blkHeld 4 (carrierEngine m) = false → s.dev.f R.KW_CAR_CFG.EN m = 0 → (s.dev.kwOf m).txLit = false → wrote .full v R.KW_CAR_CFG.EN = 1 →
      wrote .full v R.KW_CAR_CFG.MODE = 3 ∨ (wrote .full v R.KW_CAR_CFG.FEC = 1 ∧ wrote .full v R.KW_CAR_CFG.MODE ≠ 0) ∨
        isAnchor m = false ∧ s.dev.f R.KW_CAR_CFG.EN (16 * carrierEngine m) = 0 →
    Completes (.carrierCfgWrite m .full v) s (fun t => t.dev.f R.KW_CAR_CFG.EN m = 0 ∧ t.dev.f R.KW_ERR.MISMATCH = 1 ∧ SameMem s t ∧ SameUnits s t ∧
      SameWords s t [R.KW_CAR_CFG.EN.key m, R.KW_ERR.MISMATCH.key 0])) ∧
  (∀ (m : Fin 128) (v : Word) (s : State), s.dev.f R.SYS_BOOT.STATE = 4 → s.dev.wingPresent (carrierWing m) = true → s.dev.f R.KW_CAR_CFG.EN m = 1 →
      isAnchor m = false → wrote .full v R.KW_CAR_CFG.EN = 0 →
    Completes (.carrierCfgWrite m .full v) s (fun t => t.dev.f R.KW_CAR_CFG.EN m = 0 ∧ t.dev.f R.KW_CAR_STATE.TX_LOCK m = 0 ∧
      t.dev.f R.KW_CAR_STATE.RX_LOCK m = 0 ∧ (t.dev.kwOf m).txLit = false ∧ (t.dev.kwOf m).loFine = false ∧ SameMem s t))

/-- Frames of a carrier go out in order, are aligned to and counted; CARRIER_OUT removes a side; a second ends the tallies (R219, R263, R265, R269,
R275, R277, R283, R287, R289, Table 10.5, notes/assumptions/55.md). The model's choices: log entry 52 (the order of bits), 53 (a broken control
message), 55 (a second closes at PM_SECOND), 105 (when an anchor takes up its window), 20 (a frame of a dark carrier changes nothing). -/
def Obligations.FramesAreSentReceivedAndCounted : Prop :=
  (∀ (m : Fin 128) (fill : Int) (s : State), (s.dev.kwOf m).txLit = true →
    Completes (.frameTransmit m fill) s (fun t => (t.dev.lineOf m).txMfas = ((s.dev.lineOf m).txMfas + 1) % 256 ∧
      t.dev.out.length = s.dev.out.length + 2 ∧
      (t.dev.out.drop s.dev.out.length).any (fun o => match o with
        | .frame k f => k == m.val && f.mfas == BitVec.ofNat 8 (s.dev.lineOf m).txMfas && f.colour == BitVec.ofNat 7 (s.dev.f R.KW_CAR_STATE.TX_COL m) &&
          f.plane == BitVec.ofNat 3 (carrierEngine m) && f.index == BitVec.ofNat 4 m && f.wake == (s.dev.kwOf m).wakeSend && f.anchor == isAnchor m
        | _ => false) = true ∧ SameMem s t)) ∧
  (∀ (m : Fin 128) (fill : Int) (s : State), (s.dev.kwOf m).txLit = false → Completes (.frameTransmit m fill) s (fun t => t = s)) ∧
  (∀ (m : Fin 128) (f : Frame) (bad : List BadWord) (s : State), s.dev.listen m = s.dev → s.dev.rxWorks m = true → s.dev.f R.LINE_CAR_STAT.ALIGN m = 0 → fasOk f = true →
      (s.dev.lineOf m).sawFas = false →
    Completes (.frameReceive m f bad) s (fun t => (t.dev.lineOf m).sawFas = true ∧ t.dev.f R.LINE_CAR_STAT.ALIGN m = 0 ∧ SameMem s t)) ∧
  (∀ (m : Fin 128) (f : Frame) (bad : List BadWord) (s : State), s.dev.listen m = s.dev → s.dev.rxWorks m = true → s.dev.f R.LINE_CAR_STAT.ALIGN m = 0 → fasOk f = true →
      (s.dev.lineOf m).sawFas = true →
    Completes (.frameReceive m f bad) s (fun t => t.dev.f R.LINE_CAR_STAT.ALIGN m = 1 ∧ t.dev.f R.LINE_CAR_STAT.LOF m = 0 ∧
      (t.dev.lineOf m).rxMfas = some f.mfas.toNat ∧ t.dev.f R.LINE_CAR_RXID.SITE m = f.site.toNat ∧ SameMem s t)) ∧
  (∀ (m : Fin 128) (f : Frame) (bad : List BadWord) (s : State), s.dev.listen m = s.dev → s.dev.rxWorks m = true → s.dev.f R.LINE_CAR_STAT.ALIGN m = 1 → fasOk f = false →
      (s.dev.lineOf m).misses + 1 < s.dev.oofK m →
    Completes (.frameReceive m f bad) s (fun t => (t.dev.lineOf m).misses = (s.dev.lineOf m).misses + 1 ∧ t.dev.f R.LINE_CAR_STAT.ALIGN m = 1 ∧ SameMem s t)) ∧
  (∀ (m : Fin 128) (f : Frame) (bad : List BadWord) (s : State), s.dev.listen m = s.dev → s.dev.rxWorks m = true → s.dev.f R.LINE_CAR_STAT.ALIGN m = 1 → fasOk f = false →
      s.dev.oofK m ≤ (s.dev.lineOf m).misses + 1 → (s.dev.kwOf m).rxGuard = false →
    Completes (.frameReceive m f bad) s (fun t => t.dev.f R.LINE_CAR_STAT.ALIGN m = 0 ∧ t.dev.f R.LINE_CAR_STAT.LOF m = 1 ∧
      t.dev.f R.LINE_CAR_CNT.OOF m = min (s.dev.f R.LINE_CAR_CNT.OOF m + 1) 65535 ∧ (t.dev.lineOf m).rxMfas = none ∧ SameMem s t)) ∧
  (∀ (m : Fin 128) (f : Frame) (bad : List BadWord) (s : State), s.dev.listen m = s.dev → s.dev.rxWorks m = true → s.dev.f R.LINE_CAR_STAT.ALIGN m = 1 → fasOk f = true →
      (s.dev.kwOf m).rxGuard = false → s.dev.frameMatches m f = false →
    Completes (.frameReceive m f bad) s (fun t => t.dev.f R.CAT_CNT.MISPLAN = min (s.dev.f R.CAT_CNT.MISPLAN + 1) (2 ^ R.CAT_CNT.MISPLAN.w - 1) ∧
      (t.dev.lineOf m).rxMfas = some f.mfas.toNat ∧ (t.dev.lineOf m).misses = 0 ∧ (t.dev.pmOf m).frames = (s.dev.pmOf m).frames + 1 ∧
      t.dev.f R.LINE_CAR_STAT.ALIGN m = 1 ∧ SameMem s t)) ∧
  (∀ (m : Fin 128) (f : Frame) (bad : List BadWord) (s : State), s.dev.listen m = s.dev → s.dev.rxWorks m = true → s.dev.f R.LINE_CAR_STAT.ALIGN m = 1 →
      fasOk f = true → isAnchor m = false → (s.dev.kwOf m).rxOut = true →
    Completes (.frameReceive m f bad) s (fun t => t.dev.out.all (fun o => match o with
        | .segmentIn k _ _ => k != m.val || s.dev.out.contains o
        | .controlIn k _ => k != m.val || s.dev.out.contains o
        | _ => true) = true ∧
      (t.dev.lineOf m).segBuf = [] ∧ (t.dev.lineOf m).ctlBuf = [] ∧ (t.dev.lineOf m).rxMfas = some f.mfas.toNat ∧ SameMem s t)) ∧
  (∀ (m : Fin 128) (f : Frame) (bad : List BadWord) (s : State), s.dev.listen m = s.dev → s.dev.rxWorks m = false → Completes (.frameReceive m f bad) s (fun t => t = s)) ∧
  (∀ (g : CarrierOutMsg) (m p : Nat) (s : State), FromPeer s g.site.toNat g.gwId.toNat p → s.dev.litOn g.plane.toNat g.colour.toNat = some m →
      s.dev.txReach m = some g.site.toNat →
    Completes (.carrierOutReceive g true) s (fun t => t.dev.f R.LINE_CAR_STAT.RMT_OUT m = 1 ∧ (t.dev.kwOf m).txOut = true ∧ (t.dev.kwOf m).txJoined = false ∧
      t.dev.f R.LINE_CAR_STAT.TX_IN m = 0 ∧ SameMem s t)) ∧
  (∀ (e : Fin 384) (s : State), s.dev.f R.LINE_CTL.ENABLE = 0 →
    Completes (.pmSecond e) s (fun t => t.dev.pmOf e = ((s.dev.pmFlush e).pmOf e).clearSecond (s.dev.defectNow e) (s.dev.liveNow e) ∧ { t.dev with pm := s.dev.pm } = s.dev ∧ SameMem s t)) ∧
  (∀ (e : Fin 384) (s : State), s.dev.f R.LINE_CTL.ENABLE = 1 → (s.dev.pmOf e).cur15.valid = true →
      (s.dev.pmOf e).cur15.start = start15 (s.dev.tai / 1000000000 - 1) →
    Completes (.pmSecond e) s (fun t => (t.dev.pmOf e).frames = 0 ∧ (t.dev.pmOf e).bip = 0 ∧ (t.dev.pmOf e).samples = 0 ∧ (t.dev.pmOf e).defect = s.dev.defectNow e ∧
      (t.dev.pmOf e).live = s.dev.liveNow e ∧
      (t.dev.pmOf e).cur15.elapsed = (s.dev.pmOf e).cur15.elapsed + 1 ∧ (t.dev.pmOf e).cur15.bip = (s.dev.pmOf e).cur15.bip + (s.dev.pmOf e).bip ∧
      (t.dev.pmOf e).cur15.start = (s.dev.pmOf e).cur15.start ∧ SameMem s t))

/-- SEAL messages are reassembled; each check that fails ends the session in FAILED, and a session that passes ends SEALED (R303, R304, R305, R306,
R307, R308, R324, Table 11.7, notes/assumptions/58.md, notes/assumptions/20.md). The model's choices: log entry 58 (a second sealing that fails), 20
(before its time a timeout or a retry changes nothing), 5 (the ciphers are opaque). -/
def Obligations.PeersAreSealedOrFailed : Prop :=
  (∀ (p : Fin 4096) (g : SealMsg) (at_ : Nat × Nat) (s : State), s.dev.sealPeerAt p = some at_ → s.dev.f R.VT_STAT.SEC = 1 → g.flen = 248 → g.frag = 0 → 1 < g.nfrag.toNat →
      s.dev.sealRx.any (fun r => r.is p 1) = false →
    Completes (.initReceive p g) s (fun t => t.dev.sealRx = s.dev.sealRx ++ [⟨p, 1, g.session.toNat, g.nfrag.toNat, s.dev.now, [(0, slice g.body 0 248)]⟩] ∧
      { t.dev with sealRx := s.dev.sealRx } = s.dev ∧ SameMem s t)) ∧
  (∀ (p : Fin 4096) (g : SealMsg) (at_ : Nat × Nat) (body : List Byte) (s : State), s.dev.sealPeerAt p = some at_ → s.dev.f R.VT_STAT.SEC = 1 →
      (s.dev.sealFeed p 1 g).2 = some body → s.dev.sealOf p = none → g.chainOk = false →
    Completes (.initReceive p g) s (fun t => t.dev.f R.VT_PEER.STATE p = 3 ∧ t.dev.f R.VT_PEER.REASON p = 1 ∧
      t.dev.f R.VT_PEER.FAILS p = min (s.dev.f R.VT_PEER.FAILS p + 1) 65535 ∧ t.dev.sealOf p = none ∧ t.dev.ctlKeys = s.dev.ctlKeys ∧ SameMem s t ∧
      SameWords s t [R.VT_PEER.STATE.key p])) ∧
  (∀ (p : Fin 4096) (g : SealMsg) (site gw : Nat) (body : List Byte) (s : State), s.dev.sealPeerAt p = some (site, gw) → s.dev.f R.VT_STAT.SEC = 1 →
      (s.dev.sealFeed p 1 g).2 = some body → s.dev.sealOf p = none → s.dev.helloCheck gw g body = 0 → s.dev.credOurs = true → s.dev.f R.VT_STAT.TRNG_OK = 1 →
    Completes (.initReceive p g) s (fun t => (∃ x, t.dev.sealOf p = some x ∧ (x.ours = false ∧ x.session = g.session.toNat ∧ x.bodyI = body ∧
        x.restricted = (s.dev.f R.VT_STAT.DBG == 1))) ∧
      t.dev.f R.VT_PEER.STATE p = (if s.dev.f R.VT_PEER.STATE p = 2 then 2 else 1) ∧ t.dev.ctlKeys = s.dev.ctlKeys ∧ SameMem s t ∧
      SameWords s t [R.VT_PEER.STATE.key p])) ∧
  (∀ (p : Fin 4096) (g : SealMsg) (site gw : Nat) (x : SealX) (body : List Byte) (s : State), s.dev.sealPeerAt p = some (site, gw) → s.dev.f R.VT_STAT.SEC = 1 →
      s.dev.sealOf p = some x → x.ours = true → x.session = g.session.toNat → (s.dev.sealFeed p 2 g).2 = some body → s.dev.helloCheck gw g body = 0 →
      s.dev.attCheck (slice body (attPos body) 136) (slice x.bodyI 8 32) = true → g.sigOk = true → s.dev.f R.VT_STAT.TRNG_OK = 1 →
    Completes (.replyReceive p g) s (fun t => (∃ y, t.dev.sealOf p = some y ∧ (y.ours = true ∧ y.session = x.session ∧ y.bodyR = body ∧ y.bodyI = x.bodyI ∧
        y.svn = leAt (slice body (attPos body) 136) 3 1)) ∧ t.dev.ctlQ.length = s.dev.ctlQ.length + 2 ∧ SameMem s t ∧ SameWords s t [])) ∧
  (∀ (p : Fin 4096) (g : SealMsg) (site gw : Nat) (x : SealX) (body : List Byte) (s : State), s.dev.sealPeerAt p = some (site, gw) → s.dev.f R.VT_STAT.SEC = 1 →
      s.dev.sealOf p = some x → x.ours = true → x.session = g.session.toNat → (s.dev.sealFeed p 2 g).2 = some body → s.dev.helloCheck gw g body = 0 →
      s.dev.attCheck (slice body (attPos body) 136) (slice x.bodyI 8 32) = false →
    Completes (.replyReceive p g) s (fun t => t.dev.f R.VT_PEER.STATE p = 3 ∧ t.dev.f R.VT_PEER.REASON p = 4 ∧ t.dev.sealOf p = none ∧ SameMem s t ∧
      SameWords s t [R.VT_PEER.STATE.key p])) ∧
  (∀ (p : Fin 4096) (g : SealMsg) (at_ : Nat × Nat) (x : SealX) (body : List Byte) (s : State), s.dev.sealPeerAt p = some at_ → s.dev.f R.VT_STAT.SEC = 1 →
      s.dev.sealOf p = some x → x.ours = false → x.session = g.session.toNat → (s.dev.sealFeed p 3 g).2 = some body → g.chainOk = true →
      s.dev.attCheck (slice body 8 136) (slice x.bodyR 8 32) = true → s.dev.f R.VT_STAT.TRNG_OK = 1 →
    Completes (.finishReceive p g) s (fun t => t.dev.sealOf p = none ∧ SameMem s t ∧
      (if g.sigOk = true ∧ g.macOk = true then t.dev.f R.VT_PEER.STATE p = 2 ∧ t.dev.f R.VT_PEER.REASON p = 0 ∧ t.dev.f R.VT_PEER.PEER_SVN p = leAt body 11 1 ∧
        (t.dev.f R.VT_PEER.RESTRICTED p = 1 ↔ x.restricted = true ∨ leAt body 10 1 = 1) ∧ t.dev.ctlKeys.any (fun e => e.1 == p.val) = true
       else t.dev.f R.VT_PEER.STATE p = 3 ∧ t.dev.f R.VT_PEER.REASON p = 6 ∧ t.dev.ctlKeys = s.dev.ctlKeys))) ∧
  (∀ (p : Fin 4096) (g : SealMsg) (at_ : Nat × Nat) (x : SealX) (body : List Byte) (s : State), s.dev.sealPeerAt p = some at_ → s.dev.f R.VT_STAT.SEC = 1 →
      s.dev.sealOf p = some x → x.ours = true → x.session = g.session.toNat → x.keys ≠ [] → (s.dev.sealFeed p 4 g).2 = some body →
      s.dev.f R.VT_STAT.TRNG_OK = 1 →
    Completes (.doneReceive p g) s (fun t => t.dev.sealOf p = none ∧ SameMem s t ∧
      (if g.macOk = true then t.dev.f R.VT_PEER.STATE p = 2 ∧ t.dev.f R.VT_PEER.REASON p = 0 ∧ t.dev.f R.VT_PEER.PEER_SVN p = x.svn % 256 ∧
        t.dev.ctlKeys.any (fun e => e.1 == p.val) = true
       else t.dev.f R.VT_PEER.STATE p = 3 ∧ t.dev.f R.VT_PEER.REASON p = 6 ∧ t.dev.ctlKeys = s.dev.ctlKeys))) ∧
  (∀ (p : Fin 4096) (g : SealMsg) (at_ : Nat × Nat) (x : SealX) (body : List Byte) (s : State), s.dev.sealPeerAt p = some at_ → s.dev.f R.VT_STAT.SEC = 1 →
      s.dev.sealOf p = some x → x.session = g.session.toNat → (s.dev.sealFeed p 5 g).2 = some body →
    Completes (.alertReceive p g) s (fun t => t.dev.f R.VT_PEER.STATE p = 3 ∧ t.dev.f R.VT_PEER.REASON p = leAt body 8 1 ∧ t.dev.sealOf p = none ∧
      t.dev.ctlQ = s.dev.ctlQ ∧ SameMem s t ∧ SameWords s t [R.VT_PEER.STATE.key p])) ∧
  (∀ (p : Fin 4096) (k : Fin 8) (s : State), Completes (.sealReassemblyTimeout p k) s (fun t =>
      (∀ r, r ∈ t.dev.sealRx ↔ r ∈ s.dev.sealRx ∧ ¬ (r.is p k = true ∧ r.since + 100000000 ≤ s.dev.now)) ∧ { t.dev with sealRx := s.dev.sealRx } = s.dev ∧ SameMem s t)) ∧
  (∀ (p : Fin 4096) (at_ : Nat × Nat) (s : State), s.dev.f R.VT_PEER.STATE p = 3 → s.dev.f R.VT_STAT.SEC = 1 → s.dev.sealPeerAt p = some at_ →
      s.dev.credOurs = true → s.dev.f R.VT_STAT.TRNG_OK = 1 →
      (s.dev.sealWait p).2 ≤ s.dev.now - (s.dev.sealWait p).1 →
    Completes (.sealRetry p) s (fun t => (∃ x, t.dev.sealOf p = some x ∧ (x.ours = true ∧ x.keys = [] ∧ x.restricted = false)) ∧ t.dev.f R.VT_PEER.STATE p = 1 ∧
      t.dev.sealWait p = (s.dev.now, max (s.dev.f R.VT_CTL.SEAL_RETRY) 1 * 1000000) ∧ SameMem s t ∧ SameWords s t [R.VT_PEER.STATE.key p])) ∧
  (∀ (p : Fin 4096) (s : State), s.dev.f R.VT_PEER.STATE p = 2 ∨
      s.dev.now - (s.dev.sealWait p).1 < (s.dev.sealWait p).2 →
    Completes (.sealRetry p) s (fun t => t = s)) ∧
  (∀ (a : BitVec 16) (at_ : Nat × Nat) (s : State), s.dev.f R.SYS_BOOT.STATE = 4 → s.dev.f R.VT_STAT.SEC = 1 → s.dev.sealPeerAt a.toNat = some at_ →
      s.dev.credOurs = true → s.dev.f R.VT_PEER.STATE a.toNat = 0 →
    Completes (.sealPeer a) s (fun t => t.dev.f R.VT_CMD.ARG = a.toNat ∧ t.dev.f R.VT_CMD.OP = 5 ∧ SameMem s t ∧
      (if s.dev.f R.VT_STAT.TRNG_OK = 1 then t.dev.f R.VT_CMD_RES.STATUS = 0 ∧ t.dev.f R.VT_PEER.STATE a.toNat = 1 ∧
        (∃ x, t.dev.sealOf a.toNat = some x ∧ (x.ours = true)) ∧ t.dev.sealAt = s.dev.sealAt
       else t.dev.f R.VT_CMD_RES.STATUS = 0x0D ∧ t.dev.f R.VT_PEER.STATE a.toNat = 3 ∧
          t.dev.sealWait a.toNat = (s.dev.now, max (s.dev.f R.VT_CTL.SEAL_RETRY) 1 * 1000000)))) ∧
  (∀ (p : Fin 4096) (g : SealMsg) (at_ : Nat × Nat) (x : SealX) (body : List Byte) (s : State), s.dev.sealPeerAt p = some at_ → s.dev.f R.VT_STAT.SEC = 1 →
      s.dev.sealOf p = some x → x.ours = true → x.session = g.session.toNat → x.keys ≠ [] → (s.dev.sealFeed p 4 g).2 = some body → g.macOk = true →
      s.dev.f R.VT_STAT.TRNG_OK = 0 →
    Completes (.doneReceive p g) s (fun t => t.dev.sealOf p = none ∧ t.dev.ctlKeys = s.dev.ctlKeys ∧
      t.dev.f R.VT_PEER.STATE p = (if s.dev.f R.VT_PEER.STATE p = 2 then 2 else 3) ∧ SameMem s t))

/-- The VT_CMD operations but SEAL_PEER: what each needs, what it leaves in VT_STAT, VT_BUF and the keys, and its STATUS (R296, R297, R300, R301,
R302, R308, R326, R349, Table 11.12, notes/assumptions/56.md, notes/assumptions/104.md). The model's choices: log entry 56 (which refusal code where
no rule names it), 104 (OPKEY_PROGRAM and the corners of Vitrine), 59 (LIVE and level 3 outside SECURE), 5 (the ciphers and the TRNG are opaque). -/
def Obligations.VtCommandsAreExecuted : Prop :=
  (∀ (s : State), s.dev.f R.SYS_BOOT.STATE = 4 → s.dev.f R.VT_STAT.SEC = 1 →
    Completes .commitSvn s (fun t => t.dev.f R.VT_STAT.SVN_MIN = max (s.dev.f R.VT_STAT.SVN_MIN) (s.dev.f R.VT_STAT.SVN_RUN) ∧ t.dev.f R.VT_CMD.OP = 1 ∧
      t.dev.f R.VT_CMD_RES.STATUS = 0 ∧ t.dev.f R.VT_CMD_RES.LEN = 0 ∧ SameMem s t ∧ SameUnits s t ∧
      SameWords s t [R.VT_STAT.SEC.key 0, R.VT_CMD.OP.key 0, R.VT_CMD_RES.STATUS.key 0])) ∧
  (∀ (s : State), s.dev.f R.SYS_BOOT.STATE = 4 → s.dev.f R.VT_STAT.SEC ≠ 1 →
    Completes .commitSvn s (fun t => t.dev.f R.VT_CMD_RES.STATUS ∈ [0x12, 0x03, 0x01] ∧ SameMem s t ∧
      SameWords s t [R.VT_CMD.OP.key 0, R.VT_CMD_RES.STATUS.key 0])) ∧
  (∀ (i : Fin 6) (s : State), s.dev.f R.SYS_BOOT.STATE = 4 → s.dev.f R.VT_STAT.SEC = 1 → s.dev.f R.VT_STAT.OPKEY_SET = 0 →
    Completes .opkeyProgram s (fun t => t.dev.f R.VT_STAT.OPKEY_SET = 1 ∧ t.dev.f R.VT_OPKEY.OPKEY i = s.dev.f R.VT_BUF.BUF i ∧
      t.dev.f R.VT_CMD_RES.STATUS = 0 ∧ SameMem s t ∧ SameUnits s t)) ∧
  (∀ (i : Fin 6) (s : State), s.dev.f R.SYS_BOOT.STATE = 4 → s.dev.f R.VT_STAT.OPKEY_SET = 1 →
    Completes .opkeyProgram s (fun t => t.dev.f R.VT_CMD_RES.STATUS ∈ [0x12, 0x03, 0x01] ∧ t.dev.f R.VT_OPKEY.OPKEY i = s.dev.f R.VT_OPKEY.OPKEY i ∧ SameMem s t)) ∧
  (∀ (s : State), s.dev.f R.SYS_BOOT.STATE = 4 → s.dev.f R.VT_STAT.SEC = 1 → s.dev.vtBytes 112 8 = slice Config.serial 0 8 →
      tbSec s.dev.tb < ofBE (s.dev.vtBytes 120 8) → s.dev.keyMatches = true →
    Completes (.credInstall true true) s (fun t => t.dev.cred = s.dev.vtBytes 104 128 ∧ t.dev.f R.VT_STAT.CRED_OK = 1 ∧ t.dev.f R.VT_CMD_RES.STATUS = 0 ∧
      SameMem s t ∧ { t.dev with words := s.dev.words, cred := s.dev.cred } = s.dev)) ∧
  (∀ (key sig : Bool) (s : State), s.dev.f R.SYS_BOOT.STATE = 4 → s.dev.keyMatches = false ∨ key = false ∨ sig = false →
    Completes (.credInstall key sig) s (fun t => t.dev.f R.VT_CMD_RES.STATUS ∈ [0x12, 0x03, 0x01] ∧ t.dev.cred = s.dev.cred ∧
      t.dev.f R.VT_STAT.CRED_OK = s.dev.f R.VT_STAT.CRED_OK ∧ SameMem s t)) ∧
  (∀ (s : State), s.dev.f R.SYS_BOOT.STATE = 4 → s.dev.f R.VT_STAT.SEC = 1 →
    Completes .attest s (fun t => t.dev.f R.VT_CMD_RES.STATUS = 0 ∧ t.dev.f R.VT_CMD_RES.LEN = min (232 + s.dev.chain.length) 4096 ∧
      t.dev.vtBytes 0 5 = [1, 1, BitVec.ofNat 8 (s.dev.f R.VT_STAT.DBG), BitVec.ofNat 8 (s.dev.f R.VT_STAT.SVN_RUN), BitVec.ofNat 8 (s.dev.f R.VT_STAT.SVN_MIN)] ∧
      t.dev.vtBytes 8 32 = s.dev.vtBytes 0 32 ∧ t.dev.trngCtr = s.dev.trngCtr + 1 ∧ SameMem s t)) ∧
  (∀ (s : State), s.dev.f R.SYS_BOOT.STATE = 4 → s.dev.f R.VT_STAT.SEC = 1 ∨ s.dev.f R.VT_STAT.SEC = 2 →
    Completes .dbgChallenge s (fun t => t.dev.dbgNonce = slice (Config.trng s.dev.trngCtr 32) 0 32 ∧ t.dev.vtBytes 0 32 = t.dev.dbgNonce ∧
      t.dev.f R.VT_CMD_RES.STATUS = 0 ∧ t.dev.f R.VT_CMD_RES.LEN = 32 ∧ t.dev.trngCtr = s.dev.trngCtr + 1 ∧ SameMem s t)) ∧
  (∀ (s : State), s.dev.f R.SYS_BOOT.STATE = 4 → s.dev.f R.VT_STAT.SEC = 1 → s.dev.f R.VT_STAT.DBG = 0 → s.dev.sealedTenant = false → s.dev.tokenOk = true →
    Completes (.dbgUnlock true) s (fun t => t.dev.f R.VT_STAT.DBG = 1 ∧ t.dev.f R.VT_CMD_RES.STATUS = 0 ∧ t.dev.dbgNonce = [] ∧
      t.dev.ctlKeys.all (fun e => e.2.2.2.isEmpty) = true ∧ t.dev.ctlKeys.length = s.dev.ctlKeys.length ∧ t.dev.seals.all (fun e => e.2.restricted) = true ∧
      t.dev.halves = s.dev.halves ∧ SameMem s t)) ∧
  (∀ (s : State), s.dev.f R.SYS_BOOT.STATE = 4 → s.dev.f R.VT_STAT.SEC = 1 → s.dev.f R.VT_STAT.DBG = 0 → s.dev.sealedTenant = false →
    Completes (.dbgUnlock false) s (fun t => t.dev.f R.VT_STAT.DBG = 0 ∧ t.dev.f R.VT_CMD_RES.STATUS ∈ [0x12, 0x03, 0x01] ∧ t.dev.dbgNonce = [] ∧
      t.dev.f R.VT_SENSE.LIVE = s.dev.f R.VT_SENSE.LIVE ||| 2 ^ 15 ∧ t.dev.ctlKeys = s.dev.ctlKeys ∧ SameMem s t)) ∧
  (∀ (s : State), s.dev.f R.SYS_BOOT.STATE = 4 → s.dev.f R.VT_STAT.SEC = 1 → s.dev.f R.VT_STAT.DBG = 0 → s.dev.sealedTenant = true →
    Completes (.dbgUnlock true) s (fun t => t.dev.f R.VT_STAT.DBG = 0 ∧ t.dev.f R.VT_CMD_RES.STATUS = 0x12 ∧ SameMem s t ∧ SameUnits s t)) ∧
  (∀ (s : State), s.dev.f R.SYS_BOOT.STATE = 4 → s.dev.f R.VT_STAT.DBG = 1 →
    Completes .dbgLock s (fun t => t.dev.f R.VT_STAT.DBG = 0 ∧ t.dev.f R.VT_CMD_RES.STATUS = 0 ∧ t.dev.f R.VT_CMD.OP = 8 ∧ SameMem s t ∧ SameUnits s t ∧
      SameWords s t [R.VT_STAT.SEC.key 0, R.VT_CMD.OP.key 0, R.VT_CMD_RES.STATUS.key 0])) ∧
  (∀ (s : State), s.dev.f R.SYS_BOOT.STATE = 4 → s.dev.f R.SYS_PWR.STATE = 3 →
    Completes .rehash s (fun t => t.dev.f R.VT_CMD_RES.STATUS = 0 ∧ t.dev.trngCtr = s.dev.trngCtr + 3 ∧ t.dev.hashKeys.length = 3 ∧
      t.dev.hashKeys.getD 0 0 = ofBE (Config.trng s.dev.trngCtr 32) ∧ t.dev.deltasOut = [] ∧ t.dev.hists = [] ∧ t.dev.halves = s.dev.halves ∧ SameMem s t)) ∧
  (∀ (s : State), s.dev.f R.SYS_BOOT.STATE = 4 → s.dev.f R.SYS_PWR.STATE ≠ 3 →
    Completes .rehash s (fun t => t.dev.f R.VT_CMD_RES.STATUS = 0x12 ∧ SameMem s t ∧ SameUnits s t ∧
      SameWords s t [R.VT_CMD.OP.key 0, R.VT_CMD_RES.STATUS.key 0])) ∧
  (∀ (s : State), s.dev.f R.SYS_BOOT.STATE = 4 → s.dev.f R.VT_STAT.SEC = 1 → s.dev.vtBytes 0 8 = slice Config.serial 0 8 →
    Completes (.rma true) s (fun t => t.dev.f R.VT_STAT.SEC = 3 ∧ t.dev.f R.VT_STAT.DBG = 2 ∧ t.dev.f R.VT_CMD_RES.STATUS = 0 ∧ t.dev.halves = [] ∧
      t.dev.ctlKeys = [] ∧ t.dev.keks = [] ∧ t.dev.storageKey = [] ∧ t.dev.seals = [] ∧ SameMem s t)) ∧
  (∀ (s : State), s.dev.f R.SYS_BOOT.STATE = 4 →
    Completes (.rma false) s (fun t => t.dev.f R.VT_CMD_RES.STATUS ∈ [0x12, 0x03, 0x01] ∧ t.dev.f R.VT_STAT.SEC = s.dev.f R.VT_STAT.SEC ∧
      t.dev.halves = s.dev.halves ∧ SameMem s t)) ∧
  (∀ (s : State), s.dev.f R.SYS_BOOT.STATE = 4 →
    Completes (.selftest true) s (fun t => t.dev.f R.VT_STAT.SELFTEST = 1 ∧ t.dev.f R.VT_CMD_RES.STATUS = 0 ∧
      t.dev.f R.VT_SENSE.LIVE = s.dev.f R.VT_SENSE.LIVE &&& (2 ^ 16 - 1 - 2 ^ 7) ∧ SameMem s t ∧ SameUnits s t)) ∧
  (∀ (s : State), s.dev.f R.SYS_BOOT.STATE = 4 →
    Completes (.selftest false) s (fun t => t.dev.f R.VT_STAT.SELFTEST = 0 ∧ t.dev.f R.VT_CMD_RES.STATUS ∈ [0x12, 0x03, 0x01] ∧ t.dev.halves = [] ∧
      t.dev.ctlKeys = [] ∧ t.dev.keks = [] ∧ t.dev.f R.VT_STAT.L3_CAUSE = 7 ∧ SameMem s t))

/-- LOAD, LOAD_WRAPPED, CLEAR and SET_KEK: the checks of a commit, the half-key or KEK it leaves, its STATUS; a tenant's pair range (R309, R310, R312,
R313, R314, R316, R322, notes/assumptions/57.md, notes/assumptions/5.md). The model's choices: log entry 57 (the phase of a SET_KEK is not asked for,
a KEY_CONFLICT without a context), 5 (the ciphers are opaque). -/
def Obligations.KeyLoadsFillAndClearHalves : Prop :=
  (∀ (f : Fin 256) (ch : Fin 16) (r : LoadRecord) (ok : Bool) (c : Instr) (kek : Bool) (s : State),
      (c, kek) ∈ [(.load f ch r, false), (.loadWrapped f ch r ok, false), (.clear f ch r, false), (.setKek f ch r, true)] →
      s.dev.f R.SYS_BOOT.STATE = 4 → r.reserved = true ∨ (kek = false ∧ r.slot.toNat % 2 ≠ r.epoch.toNat % 2) →
    Completes c s (fun t => LoadEnds s t f ch 1 ∧
      { t.dev with loadRes := s.dev.loadRes, loadRecs := s.dev.loadRecs } = s.dev ∧ SameMem s t)) ∧
  (∀ (f : Fin 256) (ch : Fin 16) (r : LoadRecord) (ok : Bool) (c : Instr) (kek : Bool) (s : State),
      (c, kek) ∈ [(.load f ch r, false), (.loadWrapped f ch r ok, false), (.clear f ch r, false), (.setKek f ch r, true)] →
      s.dev.f R.SYS_BOOT.STATE = 4 → s.dev.loadCheck f r kek = 0x03 →
    Completes c s (fun t => LoadEnds s t f ch 3 ∧
      t.dev.f R.VT_SENSE.LIVE = s.dev.f R.VT_SENSE.LIVE ||| 2 ^ 14 ∧ t.dev.halves = s.dev.halves ∧ t.dev.binds = s.dev.binds ∧
      t.dev.keks = s.dev.keks ∧ SameMem s t)) ∧
  (∀ (f : Fin 256) (ch : Fin 16) (r : LoadRecord) (s : State), s.dev.f R.SYS_BOOT.STATE = 4 → s.dev.loadCheck f r false = 0 → s.dev.f R.VT_STAT.SEC ≠ 2 →
      s.dev.f R.VT_CTL.PLAIN_OK = 1 → s.dev.bound (r.slot.toNat / 2) = none → s.dev.loadClash r = none →
      s.dev.f R.SYS_PWR.STATE ≤ 1 →
    Completes (.load f ch r) s (fun t => LoadEnds s t f ch 0 ∧
      t.dev.half (halfIx (r.slot.toNat / 2) r.slot.toNat r.half.toNat) = some ⟨nearEpoch 0 r.epoch.toNat, slice r.key 0 32, none⟩ ∧
      t.dev.bound (r.slot.toNat / 2) = some ⟨r.job.toNat, r.site.toNat, r.cls.toNat, if r.cls.toNat = 0 then 0 else r.wing.toNat, none⟩ ∧
      { t.dev with loadRes := s.dev.loadRes, loadRecs := s.dev.loadRecs, halves := s.dev.halves, binds := s.dev.binds } = s.dev ∧ SameMem s t)) ∧
  (∀ (f : Fin 256) (ch : Fin 16) (r : LoadRecord) (s : State), s.dev.f R.SYS_BOOT.STATE = 4 → s.dev.loadCheck f r false = 0 → s.dev.f R.VT_STAT.SEC ≠ 2 →
      s.dev.f R.VT_CTL.PLAIN_OK = 1 → s.dev.bound (r.slot.toNat / 2) = none → s.dev.loadClash r = none → 2 ≤ s.dev.f R.SYS_PWR.STATE →
    Completes (.load f ch r) s (fun t => let i := halfIx (r.slot.toNat / 2) r.slot.toNat r.half.toNat
      let iv := slice (Config.trng s.dev.trngCtr 12) 0 12
      let box := Config.gcmSeal s.dev.storageKey iv (wrapAad i (nearEpoch 0 r.epoch.toNat)) (slice r.key 0 32)
      LoadEnds s t f ch 0 ∧ t.dev.half i = some ⟨nearEpoch 0 r.epoch.toNat, box.1, some (iv, box.2)⟩ ∧ t.dev.trngCtr = s.dev.trngCtr + 1 ∧ SameMem s t ∧
      SameWords s t [])) ∧
  (∀ (f : Fin 256) (ch : Fin 16) (r : LoadRecord) (old : Nat) (s : State), s.dev.f R.SYS_BOOT.STATE = 4 → s.dev.loadCheck f r false = 0 →
      s.dev.f R.VT_STAT.SEC ≠ 2 → s.dev.f R.VT_CTL.PLAIN_OK = 1 → s.dev.bound (r.slot.toNat / 2) = none → s.dev.loadClash r = some old →
      s.dev.pairCtx old = none →
    Completes (.load f ch r) s (fun t => LoadEnds s t f ch 0x13 ∧ t.dev.f R.VT_ERR.CONFLICT = 1 ∧
      t.dev.half (halfIx (r.slot.toNat / 2) r.slot.toNat r.half.toNat) = none ∧ t.dev.binds = s.dev.binds ∧ t.dev.ctxs = s.dev.ctxs ∧ SameMem s t)) ∧
  (∀ (f : Fin 256) (ch : Fin 16) (r : LoadRecord) (s : State), s.dev.f R.SYS_BOOT.STATE = 4 → s.dev.loadCheck f r false = 0 → s.dev.f R.VT_STAT.SEC ≠ 2 →
      s.dev.f R.VT_CTL.PLAIN_OK = 0 →
    Completes (.load f ch r) s (fun t => LoadEnds s t f ch 3 ∧
      { t.dev with loadRes := s.dev.loadRes, loadRecs := s.dev.loadRecs } = s.dev ∧ SameMem s t)) ∧
  (∀ (f : Fin 256) (ch : Fin 16) (r : LoadRecord) (kek : List Byte) (s : State), s.dev.f R.SYS_BOOT.STATE = 4 → s.dev.loadCheck f r false = 0 →
      s.dev.f R.VT_STAT.SEC ≠ 2 → s.dev.f R.VT_STAT.TRNG_OK = 1 → s.dev.keks.find? (fun e => e.1 == r.tenant.toNat) = some (r.tenant.toNat, kek) →
      s.dev.bound (r.slot.toNat / 2) = none → s.dev.loadClash r = none → s.dev.f R.SYS_PWR.STATE ≤ 1 →
    Completes (.loadWrapped f ch r true) s (fun t => LoadEnds s t f ch 0 ∧
      t.dev.half (halfIx (r.slot.toNat / 2) r.slot.toNat r.half.toNat) = some ⟨nearEpoch 0 r.epoch.toNat,
        slice (Config.gcmOpen kek (slice r.nonce 0 12) (loadAad 2 r) (slice r.key 0 32)) 0 32, none⟩ ∧
      { t.dev with loadRes := s.dev.loadRes, loadRecs := s.dev.loadRecs, halves := s.dev.halves, binds := s.dev.binds } = s.dev ∧ SameMem s t)) ∧
  (∀ (f : Fin 256) (ch : Fin 16) (r : LoadRecord) (s : State), s.dev.f R.SYS_BOOT.STATE = 4 → s.dev.loadCheck f r false = 0 → s.dev.f R.VT_STAT.SEC ≠ 2 →
      s.dev.f R.VT_STAT.TRNG_OK = 1 →
    Completes (.loadWrapped f ch r false) s (fun t => LoadEnds s t f ch 6 ∧
      { t.dev with loadRes := s.dev.loadRes, loadRecs := s.dev.loadRecs } = s.dev ∧ SameMem s t)) ∧
  (∀ (f : Fin 256) (ch : Fin 16) (r : LoadRecord) (s : State), s.dev.f R.SYS_BOOT.STATE = 4 → s.dev.loadCheck f r false = 0 → s.dev.f R.VT_STAT.SEC ≠ 2 →
      s.dev.pairCtx (r.slot.toNat / 2) = none →
    Completes (.clear f ch r) s (fun t => LoadEnds s t f ch 0 ∧
      t.dev.half (halfIx (r.slot.toNat / 2) r.slot.toNat r.half.toNat) = none ∧
      { t.dev with loadRes := s.dev.loadRes, loadRecs := s.dev.loadRecs, halves := s.dev.halves } = s.dev ∧ SameMem s t)) ∧
  (∀ (f : Fin 256) (ch : Fin 16) (r : LoadRecord) (s : State), s.dev.f R.SYS_BOOT.STATE = 4 → s.dev.loadCheck f r true = 0 → s.dev.f R.VT_STAT.SEC ≠ 2 →
      s.dev.f R.VT_STAT.TRNG_OK = 1 →
    Completes (.setKek f ch r) s (fun t => LoadEnds s t f ch 0 ∧
      t.dev.keks.find? (fun e => e.1 == r.tenant.toNat) = some (r.tenant.toNat, Config.hkdfExpand (Config.hmac384 (Config.sha384 loadPub)
        (Config.ecdh Config.loadKey (slice r.key 0 97))) (ascii "LK-KEK" ++ beBytes 2 r.tenant.toNat) 32) ∧
      { t.dev with loadRes := s.dev.loadRes, loadRecs := s.dev.loadRecs, keks := s.dev.keks } = s.dev ∧ SameMem s t)) ∧
  (∀ (f : Fin 256) (ch : Fin 16) (r : LoadRecord) (s : State), s.dev.f R.SYS_BOOT.STATE = 4 → s.dev.loadCheck f r true = 0 → s.dev.f R.VT_STAT.SEC ≠ 2 →
      s.dev.f R.VT_STAT.TRNG_OK = 0 →
    Completes (.setKek f ch r) s (fun t => LoadEnds s t f ch 0x0D ∧
      { t.dev with loadRes := s.dev.loadRes, loadRecs := s.dev.loadRecs } = s.dev ∧ SameMem s t)) ∧
  (∀ (n : Fin 1024) (v : Word) (s : State), s.dev.f R.SYS_BOOT.STATE = 4 → s.dev.f R.TENANT.ENABLE n = 0 → s.dev.tenantIdle n = true →
      s.dev.pairsClash n (wrote .full v R.VTTEN.PAIR_BASE) (wrote .full v R.VTTEN.PAIR_COUNT) = false →
    Completes (.vtTenWrite n .full v) s (fun t => t.dev.f R.VTTEN.PAIR_BASE n = wrote .full v R.VTTEN.PAIR_BASE ∧
      t.dev.f R.VTTEN.PAIR_COUNT n = wrote .full v R.VTTEN.PAIR_COUNT ∧ SameMem s t ∧ SameUnits s t ∧ SameWords s t [R.VTTEN.PAIR_BASE.key n])) ∧
  (∀ (n : Fin 1024) (v : Word) (s : State), s.dev.f R.SYS_BOOT.STATE = 4 → s.dev.f R.TENANT.ENABLE n = 0 → s.dev.tenantIdle n = true →
      s.dev.pairsClash n (wrote .full v R.VTTEN.PAIR_BASE) (wrote .full v R.VTTEN.PAIR_COUNT) = true →
    Completes (.vtTenWrite n .full v) s (fun t => t.dev.f R.VT_ERR.MISMATCH = 1 ∧ SameMem s t ∧ SameUnits s t ∧ SameWords s t [R.VT_ERR.MISMATCH.key 0])) ∧
  (∀ (n : Fin 1024) (v : Word) (s : State), s.dev.f R.SYS_BOOT.STATE = 4 → s.dev.f R.TENANT.ENABLE n = 1 →
      wrote .full v R.VTTEN.PAIR_COUNT ≠ s.dev.f R.VTTEN.PAIR_COUNT n →
    Completes (.vtTenWrite n .full v) s (fun t => t.dev.f R.VT_ERR.BUSY = 1 ∧ SameMem s t ∧ SameUnits s t ∧ SameWords s t [R.VT_ERR.BUSY.key 0]))

/-- A tripped sensor acts by its level; a gate is granted, deferred or refused; the loss of a cluster's power zeroises its keys (R324, R325, R326,
R327, Table 11.10, Table 13.8, notes/assumptions/59.md, notes/assumptions/86.md, notes/assumptions/20.md). The model's choices: log entry 59 (how long
LIVE stands, level 3 outside SECURE), 86 (the tick of a write of PROFILE), 20 (a GATE_DEFER_END before the 10 ms changes nothing). -/
def Obligations.SensorsAndPowerGatesActOnClusters : Prop :=
  (∀ (i : Fin 16) (k : Fin 40) (ir : JtagInstr) (s : State), i.val < 8 →
    Completes (.tamperSensorTrip i ⟨k, ir⟩) s (fun t => t.dev.f R.VT_SENSE.LIVE = s.dev.f R.VT_SENSE.LIVE ||| 2 ^ i.val ∧ t.dev.halves = [] ∧ t.dev.ctlKeys = [] ∧
      t.dev.keks = [] ∧ t.dev.storageKey = [] ∧ t.dev.seals = [] ∧ t.dev.f R.VT_STAT.L3_CAUSE = i ∧
      t.dev.f R.VT_STAT.L3_COUNT = min (s.dev.f R.VT_STAT.L3_COUNT + 1) 255 ∧
      t.dev.f R.VT_STAT.SEC = (if s.dev.f R.VT_STAT.SEC = 1 then 2 else s.dev.f R.VT_STAT.SEC) ∧ SameMem s t)) ∧
  (∀ (k : Fin 40) (ir : JtagInstr) (s : State), Completes (.tamperSensorTrip 8 ⟨k, ir⟩) s (fun t => t.dev.f R.VT_SENSE.LIVE = s.dev.f R.VT_SENSE.LIVE ||| 2 ^ 8 ∧
      t.dev.f R.VT_STAT.TRNG_OK = 0 ∧ t.dev.halves = s.dev.halves ∧ SameMem s t ∧ SameWords s t [R.VT_SENSE.LIVE.key 0, R.VT_STAT.TRNG_OK.key 0,
        R.HEALTH_ALM_DROP.OVERFLOW.key 0])) ∧
  (∀ (i : Fin 16) (k : Fin 40) (ir : JtagInstr) (s : State), 9 ≤ i.val → i.val < 13 →
    Completes (.tamperSensorTrip i ⟨k, ir⟩) s (fun t => t.dev.f R.VT_SENSE.LIVE = s.dev.f R.VT_SENSE.LIVE ||| 2 ^ i.val ∧ t.dev.clusterFence.contains k.val = true ∧
      t.dev.f R.VT_STAT.SEC = s.dev.f R.VT_STAT.SEC ∧ t.dev.f R.VT_STAT.L3_COUNT = s.dev.f R.VT_STAT.L3_COUNT ∧ t.dev.halves = s.dev.halves ∧
      t.dev.ctlKeys = s.dev.ctlKeys ∧ t.dev.keks = s.dev.keks ∧ t.dev.storageKey = s.dev.storageKey ∧ SameMem s t)) ∧
  (∀ (i : Fin 16) (k : Fin 40) (ir : JtagInstr) (s : State), 13 ≤ i.val → ¬ (i.val = 13 ∧ s.dev.jtagDecode ir = ir) →
    Completes (.tamperSensorTrip i ⟨k, ir⟩) s (fun t => t.dev.f R.VT_SENSE.LIVE = s.dev.f R.VT_SENSE.LIVE ||| 2 ^ i.val ∧ t.dev.halves = s.dev.halves ∧
      t.dev.clusterFence = s.dev.clusterFence ∧ t.dev.ctxs = s.dev.ctxs ∧ SameMem s t ∧
      SameWords s t [R.VT_SENSE.LIVE.key 0, R.HEALTH_ALM_DROP.OVERFLOW.key 0])) ∧
  (∀ (k : Fin 40) (ir : JtagInstr) (s : State), s.dev.f R.VT_STAT.DBG ≠ 0 ∨ ir = .bypass ∨ ir = .idcode ∨ ir = .sample →
    Completes (.tamperSensorTrip 13 ⟨k, ir⟩) s (fun t => t = s)) ∧
  (∀ (s : State), s.dev.ctxs = [] → s.dev.halves = [] → Completes .trngRecovery s (fun t => t.dev.f R.VT_STAT.TRNG_OK = 1 ∧
      t.dev.f R.VT_SENSE.LIVE = s.dev.f R.VT_SENSE.LIVE &&& (2 ^ 16 - 1 - 2 ^ 8) ∧ SameMem s t ∧ SameUnits s t ∧
      SameWords s t [R.VT_STAT.TRNG_OK.key 0, R.VT_SENSE.LIVE.key 0])) ∧
  (∀ (n : Fin 128) (s : State), s.dev.f R.SYS_BOOT.STATE = 4 → s.dev.gateReq = none → s.dev.gateTarget n = true → s.dev.gateReady n = true →
      n.val < 40 → s.dev.clusterCtxs n = [] →
    Completes (.powerGate n) s (fun t => t.dev.f R.VT_PWR_RES.GATED = s.dev.f R.VT_PWR_RES.GATED ||| 2 ^ n.val ∧ t.dev.f R.VT_PWR_RES.STATUS = 0 ∧
      t.dev.f R.VT_PWR_REQ.GO = 0 ∧ t.dev.f R.VT_PWR_REQ.TARGET = n ∧ t.dev.f R.SYS_PWR.STATE = (if s.dev.f R.SYS_PWR.STATE = 0 then 1 else s.dev.f R.SYS_PWR.STATE) ∧
      t.dev.gateReq = none ∧ t.dev.profile = (if s.dev.f R.SYS_PWR.STATE = 0 then s.dev.shadow 5 else s.dev.profile) ∧ SameMem s t ∧
      { t.dev with words := s.dev.words, profile := s.dev.profile, rails := s.dev.rails, throttled := s.dev.throttled } = s.dev ∧
      SameWords s t [R.VT_PWR_RES.GATED.key 0, R.VT_PWR_REQ.GO.key 0, R.SYS_PWR.STATE.key 0, R.SYS_PWR_ERR.THROTTLED.key 0])) ∧
  (∀ (n : Fin 128) (s : State), s.dev.f R.SYS_BOOT.STATE = 4 → s.dev.gateReq = none → s.dev.gateTarget n = true → s.dev.gateReady n = true → 40 ≤ n.val →
    Completes (.powerGate n) s (fun t => t.dev.f R.VT_PWR_RES.GATED = s.dev.f R.VT_PWR_RES.GATED ||| (2 ^ 10 - 1) * 2 ^ (10 * (n.val - 64)) ∧
      t.dev.f R.VT_PWR_RES.STATUS = 0 ∧ t.dev.f R.VT_PWR_REQ.GO = 0 ∧ t.dev.gateReq = none ∧ SameMem s t ∧
      { t.dev with words := s.dev.words, profile := s.dev.profile, rails := s.dev.rails, throttled := s.dev.throttled } = s.dev)) ∧
  (∀ (n : Fin 128) (s : State), s.dev.f R.SYS_BOOT.STATE = 4 → s.dev.gateReq = none → s.dev.gateTarget n = true → s.dev.gateReady n = false →
    Completes (.powerGate n) s (fun t => t.dev.f R.VT_PWR_REQ.GO = 1 ∧ t.dev.gateReq = some n.val ∧ t.dev.gateAt = s.dev.now ∧
      t.dev.f R.VT_PWR_RES.GATED = s.dev.f R.VT_PWR_RES.GATED ∧ SameMem s t ∧ SameWords s t [R.VT_PWR_REQ.GO.key 0])) ∧
  (∀ (n : Fin 128) (s : State), s.dev.f R.SYS_BOOT.STATE = 4 → s.dev.gateReq = none → s.dev.gateTarget n = false →
    Completes (.powerGate n) s (fun t => t.dev.f R.VT_PWR_RES.STATUS = 0x12 ∧ t.dev.f R.VT_PWR_REQ.GO = 0 ∧
      t.dev.f R.VT_PWR_RES.GATED = s.dev.f R.VT_PWR_RES.GATED ∧ SameMem s t)) ∧
  (∀ (n : Fin 128) (s : State), s.dev.f R.SYS_BOOT.STATE = 4 → s.dev.gateReq = none → s.dev.gateTarget n = true →
    Completes (.powerUngate n) s (fun t => t.dev.f R.VT_PWR_RES.GATED = s.dev.f R.VT_PWR_RES.GATED &&& (2 ^ 40 - 1 - gateBits n) ∧
      t.dev.f R.VT_PWR_RES.STATUS = 0 ∧ t.dev.f R.VT_PWR_REQ.ACTION = 1 ∧ SameMem s t ∧ SameUnits s t)) ∧
  (∀ (n : Nat) (s : State), s.dev.gateReq = some n → s.dev.gateReady n = false → s.dev.now - s.dev.gateAt < 10000000 →
    Completes .gateDeferEnd s (fun t => t = s)) ∧
  (∀ (n : Nat) (s : State), s.dev.gateReq = some n → s.dev.gateReady n = true → 40 ≤ n →
    Completes .gateDeferEnd s (fun t => t.dev.f R.VT_PWR_RES.GATED = s.dev.f R.VT_PWR_RES.GATED ||| (2 ^ 10 - 1) * 2 ^ (10 * (n - 64)) % 2 ^ 40 ∧
      t.dev.f R.VT_PWR_RES.STATUS = 0 ∧ t.dev.f R.VT_PWR_REQ.GO = 0 ∧ t.dev.gateReq = none ∧
      t.dev.f R.SYS_PWR.STATE = (if s.dev.f R.SYS_PWR.STATE = 0 then 1 else s.dev.f R.SYS_PWR.STATE) ∧ SameMem s t ∧
      { t.dev with words := s.dev.words, gateReq := s.dev.gateReq, profile := s.dev.profile, rails := s.dev.rails, throttled := s.dev.throttled } = s.dev)) ∧
  (∀ (n : Nat) (s : State), s.dev.gateReq = some n → s.dev.gateReady n = false → 10000000 ≤ s.dev.now - s.dev.gateAt →
    Completes .gateDeferEnd s (fun t => t.dev.f R.VT_PWR_RES.STATUS = 0x12 ∧ t.dev.f R.VT_PWR_REQ.GO = 0 ∧ t.dev.gateReq = none ∧
      t.dev.f R.VT_PWR_RES.GATED = s.dev.f R.VT_PWR_RES.GATED ∧ SameMem s t ∧ SameWords s t [R.VT_PWR_RES.STATUS.key 0, R.VT_PWR_REQ.GO.key 0])) ∧
  (∀ (s : State), s.dev.gateReq = none → Completes .gateDeferEnd s (fun t => t = s)) ∧
  (∀ (k : Fin 40) (c : Nat) (x : Ctx) (i : Fin 4) (s : State), s.dev.ctxs = [(c, x)] → x.reserved = true → x.cluster = k.val → s.dev.fenced (k.val / 10) = false →
      x.state = .opened → NothingWaits s →
    Completes (.clusterPowerLoss k) s (fun t => t.dev.half (4 * x.pair + i) = none ∧ ((t.dev.ctx c).state = .failed ∨ (t.dev.ctx c).state = .closed) ∧ SameMem s t)) ∧
  (∀ (k : Fin 40) (s : State), s.dev.clusterCtxs k = [] → Completes (.clusterPowerLoss k) s (fun t => t = s)) ∧
  (∀ (n : Nat) (s : State), s.dev.gateReq = some n → s.dev.gateReady n = true → n < 40 → s.dev.clusterCtxs n = [] →
    Completes .gateDeferEnd s (fun t => t.dev.f R.VT_PWR_RES.GATED = s.dev.f R.VT_PWR_RES.GATED ||| 2 ^ n ∧ t.dev.f R.VT_PWR_RES.STATUS = 0 ∧
      t.dev.f R.VT_PWR_REQ.GO = 0 ∧ t.dev.gateReq = none ∧
      t.dev.f R.SYS_PWR.STATE = (if s.dev.f R.SYS_PWR.STATE = 0 then 1 else s.dev.f R.SYS_PWR.STATE) ∧ SameMem s t ∧
      { t.dev with words := s.dev.words, gateReq := s.dev.gateReq, profile := s.dev.profile, rails := s.dev.rails, throttled := s.dev.throttled } = s.dev)) ∧
  (∀ (n : Nat) (s : State), s.dev.gateReq = some n → s.dev.gateReady n = true → n < 40 → s.dev.clusterRoom n = false →
    Completes .gateDeferEnd s (fun t => t.dev.f R.VT_PWR_RES.STATUS = 0x12 ∧ t.dev.f R.VT_PWR_REQ.GO = 0 ∧ t.dev.gateReq = none ∧
      t.dev.f R.VT_PWR_RES.GATED = s.dev.f R.VT_PWR_RES.GATED ∧ { t.dev with words := s.dev.words, gateReq := s.dev.gateReq } = s.dev ∧
      SameMem s t ∧ SameWords s t [R.VT_PWR_RES.STATUS.key 0, R.VT_PWR_REQ.GO.key 0]))

/-- What each LRM packet and a PCIe completion do to the request, ring, limiter or collective they are for; retries, ports, limiters (R55, R331, R332,
R333, R334, R337, R338, R339, Tables 12.2 to 12.4, notes/assumptions/74.md, notes/assumptions/20.md). The model's choices: log entry 74 (packets that
match no request, a completion of another length), 75 (at what rate a limiter starts), 20 (before its time a retry or a raise changes nothing, as on a
port that is down). -/
def Obligations.MemoryAnswersReachTheirRequests : Prop :=
  (∀ (p : Fin 128) (m : LrmPacket) (faults : List BeatFault) (q : Req) (s : State), LrmArrives s p m 2 → (lrmParse m.raw).ce = false → s.dev.reqFor (lrmParse m.raw) false = some q →
      gathered q.addr q.len (q.parts ++ [((lrmParse m.raw).addr, (lrmParse m.raw).payload)]) = none →
    Completes (.lrmReadResp p ⟨m, faults⟩) s (fun t => t.dev.reqs = s.dev.reqs.map (fun r =>
        if r.tag = q.tag then { r with parts := q.parts ++ [((lrmParse m.raw).addr, (lrmParse m.raw).payload)] } else r) ∧
      { t.dev with words := s.dev.words, reqs := s.dev.reqs } = s.dev ∧ SameMem s t ∧ SameWords s t [R.FTEN.GREEN.key (lrmParse m.raw).tenant])) ∧
  (∀ (p : Fin 128) (m : LrmPacket) (faults : List BeatFault) (q : Req) (n : Fin 4096) (a k : Nat) (data : List Byte) (s : State), LrmArrives s p m 2 → (lrmParse m.raw).ce = false →
      s.dev.reqFor (lrmParse m.raw) false = some q → q.use = .fetch n → (s.dev.ring n).reading = some (a, k) →
      gathered q.addr q.len (q.parts ++ [((lrmParse m.raw).addr, (lrmParse m.raw).payload)]) = some data →
    Completes (.lrmReadResp p ⟨m, faults⟩) s (fun t => (t.dev.ring n).reading = none ∧ (t.dev.ring n).fetched = (s.dev.ring n).fetched ++
        (List.range k).map (fun i => (idxAdd (s.dev.f R.SQ_STATE.HEAD n) i, descOf (slice data (64 * i) 64))) ∧
      t.dev.f R.SQ_STATE.HEAD n = idxAdd (s.dev.f R.SQ_STATE.HEAD n) k ∧ t.dev.reqs.any (fun r => r.tag == q.tag) = false ∧ SameMem s t)) ∧
  (∀ (p : Fin 128) (m : LrmPacket) (id : Nat) (y : Coll) (q : Req) (s : State), LrmArrives s p m 4 → s.dev.reqFor (lrmParse m.raw) true = some q →
      q.use = .collWrite id → s.dev.coll id = some y → s.dev.recovery = none →
    Completes (.lrmWriteAck p m) s (fun t => t.dev.coll id = some { y with owed := y.owed - 1 } ∧ t.dev.reqs = s.dev.reqs.filter (fun r => r.tag != q.tag) ∧
      { t.dev with words := s.dev.words, reqs := s.dev.reqs, colls := s.dev.colls } = s.dev ∧ SameMem s t ∧
      SameWords s t [R.FTEN.GREEN.key (lrmParse m.raw).tenant])) ∧
  (∀ (p : Fin 128) (m : LrmPacket) (q : Req) (c : Nat) (s : State), LrmArrives s p m 4 → s.dev.reqFor (lrmParse m.raw) true = some q → q.use = .record c →
      s.dev.recovery = none →
    Completes (.lrmWriteAck p m) s (fun t => t.dev.reqs = s.dev.reqs.filter (fun r => r.tag != q.tag) ∧
      (∀ i, i < q.data.length → memGet t.mem (memKey (nodeSpace false q.node) q.addr + i) = q.data.getD i 0) ∧
      SameMemBut s t (memKey (nodeSpace false q.node) q.addr) q.data.length ∧
      { t.dev with words := s.dev.words, reqs := s.dev.reqs } = s.dev ∧ SameWords s t [R.FTEN.GREEN.key (lrmParse m.raw).tenant])) ∧
  (∀ (p : Fin 128) (m : LrmPacket) (s : State), LrmArrives s p m 4 → s.dev.reqFor (lrmParse m.raw) true = none →
    Completes (.lrmWriteAck p m) s (fun t => t.dev.f R.FAB_ERR.DUP_RESP = min (s.dev.f R.FAB_ERR.DUP_RESP + 1) (2 ^ 32 - 1) ∧ SameMem s t ∧ SameUnits s t ∧
      SameWords s t [R.FAB_ERR.DUP_RESP.key 0, R.FTEN.GREEN.key (lrmParse m.raw).tenant])) ∧
  (∀ (p : Fin 128) (m : LrmPacket) (q : Req) (c : Nat) (s : State), LrmArrives s p m 7 → s.dev.reqFor (lrmParse m.raw) false = none →
      s.dev.reqFor (lrmParse m.raw) true = some q → q.use = .record c → s.dev.recovery = none →
    Completes (.lrmNak p m) s (fun t => t.dev.f R.CQ_ERR.WRITE c = 1 ∧ t.dev.reqs = s.dev.reqs.filter (fun r => r.tag != q.tag) ∧
      { t.dev with words := s.dev.words, reqs := s.dev.reqs } = s.dev ∧ SameMem s t ∧
      SameWords s t [R.CQ_ERR.WRITE.key c, R.FTEN.GREEN.key (lrmParse m.raw).tenant])) ∧
  (∀ (p : Fin 128) (m : LrmPacket) (i : Nat) (x : Limiter) (s : State), LrmArrives s p m 6 →
      s.dev.limiterOf (lrmParse m.raw).tenant (lrmParse m.raw).ep true = some (i, x) → max (s.dev.f R.FAB_ECN.CNP_INT) 1 * 1000 ≤ s.dev.now - x.cut →
    Completes (.lrmCnp p m) s (fun t => t.dev.f R.FAB_PORT_CNT2.CNP_RX (p.val / 4) = min (s.dev.f R.FAB_PORT_CNT2.CNP_RX (p.val / 4) + 1) (2 ^ 32 - 1) ∧
      t.dev.limiters.find? (fun e => e.1 == i) = some (i, { x with
        rate := max (10 * max (s.dev.f R.FAB_ECN.RMIN) 1) (x.rate * (256 - s.dev.f R.FAB_ECN.DEC) / 256), cut := s.dev.now, raised := s.dev.now }) ∧ SameMem s t ∧
      SameWords s t [R.FAB_PORT_CNT2.CNP_RX.key (p.val / 4), R.FTEN.GREEN.key (lrmParse m.raw).tenant])) ∧
  (∀ (p : Fin 128) (m : LrmPacket) (n : Fin 4096) (s : State), LrmArrives s p m 5 → (lrmParse m.raw).addr / 2 ^ 63 = 0 →
      (lrmParse m.raw).addr / 2 ^ 48 % 2 ^ 13 = n.val → s.dev.f R.SQ_CTL.TENANT n = (lrmParse m.raw).tenant → s.dev.f R.SQ_CTL.LOC n = 1 →
      s.dev.f R.SQ_BIND.SRC n = (lrmParse m.raw).ep → s.dev.f R.SQ_CTL.ENABLE n = 1 → (s.dev.ring n).tear = 0 →
    Completes (.lrmDoorbell p m) s (fun t =>
      let index := (lrmParse m.raw).addr % 2 ^ 32
      let head := s.dev.f R.SQ_STATE.HEAD n
      let tail := s.dev.f R.SQ_STATE.TAIL n
      let gap := (index + 2 ^ 32 - head) % 2 ^ 32
      let ok := (tail + 2 ^ 32 - head) % 2 ^ 32 ≤ gap ∧ gap ≤ 2 ^ s.dev.f R.SQ_CTL.SIZE_LOG n
      t.dev.f R.SQ_STATE.TAIL n = (if ok then index else tail) ∧ t.dev.f R.SQ_STATE.HEAD n = head ∧
      t.dev.f R.SQ_ERR.DB_RANGE n = (if ok then s.dev.f R.SQ_ERR.DB_RANGE n else 1) ∧ SameMem s t ∧
      SameWords s t [R.SQ_STATE.TAIL.key n, R.SQ_ERR.DB_RANGE.key n, R.FTEN.GREEN.key (lrmParse m.raw).tenant])) ∧
  (∀ (p : Fin 128) (m : LrmPacket) (n : Fin 4096) (s : State), LrmArrives s p m 5 → (lrmParse m.raw).addr / 2 ^ 63 = 0 →
      (lrmParse m.raw).addr / 2 ^ 48 % 2 ^ 13 = n.val → s.dev.f R.SQ_CTL.TENANT n ≠ (lrmParse m.raw).tenant →
    Completes (.lrmDoorbell p m) s (fun t => t.dev.f R.RING_GERR.DB_DROP = min (s.dev.f R.RING_GERR.DB_DROP + 1) (2 ^ 32 - 1) ∧ SameMem s t ∧
      SameUnits s t ∧ SameWords s t [R.RING_GERR.DB_DROP.key 0, R.FTEN.GREEN.key (lrmParse m.raw).tenant])) ∧
  (∀ (p : Fin 128) (m : LrmPacket) (s : State), s.dev.f R.FAB_CTL.ENABLE = 1 → s.dev.lportUp p = true → s.dev.f R.FAB_HS.EN = 0 → s.dev.lrmOk m.raw = false →
    Completes (.lrmCnp p m) s (fun t => t.dev.f R.FAB_PORT_CNT.RX_DROP (p.val / 4) = min (s.dev.f R.FAB_PORT_CNT.RX_DROP (p.val / 4) + 1) (2 ^ 32 - 1) ∧
      SameMem s t ∧ SameUnits s t ∧ SameWords s t [R.FAB_PORT_CNT.RX_DROP.key (p.val / 4)])) ∧
  (∀ (p : Fin 128) (m : LrmPacket) (faults : List BeatFault) (s : State), s.dev.lportUp p = false → Completes (.lrmReadResp p ⟨m, faults⟩) s (fun t => t = s) ∧
    Completes (.lrmWriteAck p m) s (fun t => t = s) ∧ Completes (.lrmDoorbell p m) s (fun t => t = s) ∧ Completes (.lrmNak p m) s (fun t => t = s)) ∧
  (∀ (tag : BitVec 32) (q : Req) (s : State), s.dev.reqs = [q] → q.tag = tag.toNat → q.host = false → 0 < q.attempts → q.attempts < 8 →
      q.rto ≤ s.dev.now - q.sentAt →
    Completes (.lrmRetryTimeout tag) s (fun t => t.dev.reqs = [{ q with attempts := q.attempts + 1, parts := [], sentAt := s.dev.now, rto := s.dev.lrmRto }] ∧ SameMem s t)) ∧
  (∀ (tag : BitVec 32) (q : Req) (c : Nat) (s : State), s.dev.reqs = [q] → q.tag = tag.toNat → q.host = false → 8 ≤ q.attempts → q.use = .record c → s.dev.recovery = none →
      q.rto ≤ s.dev.now - q.sentAt →
    Completes (.lrmRetryTimeout tag) s (fun t => t.dev.reqs = [] ∧ t.dev.f R.CQ_ERR.WRITE c = 1 ∧ SameMem s t ∧ SameWords s t [R.CQ_ERR.WRITE.key c])) ∧
  (∀ (tag : BitVec 32) (q : Req) (s : State), s.dev.reqs = [q] → s.dev.now - q.sentAt < q.rto →
    Completes (.lrmRetryTimeout tag) s (fun t => t = s)) ∧
  (∀ (p : Fin 128) (s : State), s.dev.lportExists p = true →
    Completes (.portStateChange p true) s (fun t => t.dev.f R.FAB_PORT_STAT.UP (p.val / 4) = s.dev.f R.FAB_PORT_STAT.UP (p.val / 4) ||| 2 ^ (p.val % 4) ∧
      t.dev.lportUp p = true ∧ SameMem s t ∧ SameUnits s t ∧ SameWords s t [R.FAB_PORT_STAT.UP.key (p.val / 4)])) ∧
  (∀ (p : Fin 128) (s : State), s.dev.lportUp p = true →
    Completes (.portStateChange p false) s (fun t => t.dev.lportUp p = false ∧ t.dev.portQueue p = [] ∧ t.dev.ptpQueue p = [] ∧ t.dev.reqs = s.dev.reqs ∧ SameMem s t)) ∧
  (∀ (i : Fin 16384) (x : Limiter) (p : Nat) (s : State), s.dev.limiters = [(i.val, x)] → s.dev.egressPort x.ep x.tenant = some p →
      max (s.dev.f R.FAB_ECN.RAI_INT) 1 * 1000 ≤ s.dev.now - x.raised →
    Completes (.rateIncrease i) s (fun t => t.dev.limiters = (if s.dev.portRate p ≤ x.rate + s.dev.f R.FAB_ECN.RAI then []
        else [(i.val, { x with rate := x.rate + s.dev.f R.FAB_ECN.RAI, raised := s.dev.now })]) ∧
      { t.dev with limiters := s.dev.limiters } = s.dev ∧ SameMem s t)) ∧
  (∀ (i : Fin 16384) (x : Limiter) (s : State), s.dev.limiters = [(i.val, x)] → s.dev.now - x.raised < max (s.dev.f R.FAB_ECN.RAI_INT) 1 * 1000 →
    Completes (.rateIncrease i) s (fun t => t = s)) ∧
  (∀ (tag : BitVec 32) (data : List Byte) (faults : List BeatFault) (q : Req) (n : Fin 4096) (a k : Nat) (s : State),
      s.dev.reqs.find? (fun r => r.tag == tag.toNat && r.host && !r.write) = some q → data.length = q.len → q.use = .fetch n →
      (s.dev.ring n).reading = some (a, k) →
    Completes (.pcieReadCompletion tag ⟨data, faults⟩) s (fun t => (t.dev.ring n).reading = none ∧ (t.dev.ring n).fetched = (s.dev.ring n).fetched ++
        (List.range k).map (fun i => (idxAdd (s.dev.f R.SQ_STATE.HEAD n) i, descOf (slice data (64 * i) 64))) ∧
      t.dev.f R.SQ_STATE.HEAD n = idxAdd (s.dev.f R.SQ_STATE.HEAD n) k ∧ t.dev.reqs = s.dev.reqs.filter (fun r => r.tag != q.tag) ∧ SameMem s t ∧
      SameWords s t [R.SQ_STATE.HEAD.key n])) ∧
  (∀ (tag : BitVec 32) (data : List Byte) (faults : List BeatFault) (s : State), s.dev.reqs.any (fun r => r.tag == tag.toNat && r.host && !r.write) = false →
    Completes (.pcieReadCompletion tag ⟨data, faults⟩) s (fun t => t = s))

/-- A selection sends a port's packet or a carrier's segment; queue samples; the package ring; the check of HBM skew (R340, R341, R342, R345, R347,
R348, R351, Table 12.5, notes/assumptions/71.md, notes/assumptions/72.md, notes/assumptions/73.md, notes/assumptions/119.md). The model's choices: log
entry 71 (tags of the line), 72 (the age of a queue, the count after an alarm), 73 and 119 (a cycle of the ring, how a flit moves), 47 (the datagram
of a PTP message), 20 (a flit not yet there). -/
def Obligations.QueuesFlitsAndSkewAreServed : Prop :=
  (∀ (n : Fin 256) (q : LrmOut) (s : State), n.val < 128 → s.dev.f R.FAB_CTL.ENABLE = 1 → s.dev.lportUp n = true → s.dev.f R.FAB_PORT_CFG.EN (n.val / 4) = 1 →
      s.dev.portQueue n = [q] → s.dev.ptpQueue n = [] → (∀ r ∈ s.dev.reqs, 0 < r.attempts) → s.dev.limiterOf q.tenant q.ep (q.typ == 3) = none → s.dev.f R.FAB_HS.EN = 0 →
    Completes (.schedulingSelection n) s (fun t => t.dev.portQueue n = [] ∧ t.dev.out = s.dev.out ++ [.lrm n (s.dev.lrmFrame q)] ∧ SameMem s t ∧
      SameWords s t [])) ∧
  (∀ (n : Fin 256) (c : Nat) (x : Ctx) (g : LogEnt) (s : State), 128 ≤ n.val → s.dev.lineQueues (n.val - 128) = [(c, x, g)] → s.dev.ctx c = x → x.log = [g] →
      (∀ e ∈ s.dev.ctxs, e.1 ≠ c → e.2.log = []) →
      g.attempts = 0 → s.dev.mayCarry (n.val - 128) x = true → s.dev.marginAdmits (n.val - 128) x = true → (s.dev.kwOf (n.val - 128)).txGuard = false →
    Completes (.schedulingSelection n) s (fun t =>
      (t.dev.lineOf (n.val - 128)).txq = (s.dev.lineOf (n.val - 128)).txq ++ [(false, segBytes g.seg)] ∧
      t.dev.out = s.dev.out ++ [.segment (n.val - 128) false g.seg] ∧
      (t.dev.ctx c).log = [{ g with attempts := 1, lastSend := s.dev.now, carrier := n.val - 128, resend := false }] ∧
      (t.dev.ctx c).sndNxt = x.sndNxt ∧ SameMem s t ∧ SameWords s t [])) ∧
  (∀ (p : Fin 128) (q : LrmOut) (s : State), s.dev.portQ = [(p.val, [q])] → s.dev.ctxs = [] → s.dev.listed 11 = [] → q.tenant < 1024 →
    Completes .queueSample s (fun t =>
      let i := 1024 * p.val + q.tenant
      let len := min (s.dev.lrmLen q) (2 ^ 32 - 1)
      let wait := min (s.dev.now - q.at_) (2 ^ 32 - 1)
      t.dev.f R.FABQS.LAST0 i = len ∧ t.dev.f R.FABQS.MAX0 i = max len (s.dev.f R.FABQS.MAX0 i) ∧ t.dev.f R.FABQS.LAST1 i = wait ∧
      t.dev.f R.FABQS.MAX1 i = max wait (s.dev.f R.FABQS.MAX1 i) ∧ SameMem s t ∧ SameUnits s t ∧
      SameWords s t [R.FABQS.LAST0.key i, R.FABQS.LAST1.key i])) ∧
  (∀ (i : Nat) (s : State), s.dev.f R.SYS_BOOT.STATE = 4 → s.dev.f R.FAB_QS_SEL.QUEUE = i → s.dev.f R.FAB_QS_SEL.WORD = 1 →
    Completes .fabQsDataRead s (fun t => t.dev.f R.FABQS.MAX1 i = 0 ∧ t.dev.f R.FABQS.LAST1 i = s.dev.f R.FABQS.LAST1 i ∧ SameMem s t ∧
      SameUnitsBut [.readData (BitVec.ofNat 64 (s.dev.f R.FABQS.LAST1 i + 2 ^ 32 * s.dev.f R.FABQS.MAX1 i))] s t ∧ SameWords s t [R.FABQS.MAX1.key i])) ∧
  (∀ (a b : Fin 8) (vc : Fin 3) (s : State), s.dev.stopServes a = true → s.dev.stopServes b = true → a ≠ b → s.dev.ringWait = [] →
      s.dev.flitPasses a (Machine.ringUp a b) = false →
    Completes (.flitInject a (some (vc, b))) s (fun t =>
      (if 2 ≤ s.dev.ringFree a vc (Machine.ringUp a b) then t.dev.ringFlits = s.dev.ringFlits ++ [s.dev.newFlit vc b a] ∧ t.dev.ringWait = [] ∧
        t.dev.out = s.dev.out ++ [.flit a vc (Machine.ringUp a b)] ∧ t.dev.f R.SYS_PRING.INJ a = min (s.dev.f R.SYS_PRING.INJ a + 1) (2 ^ 32 - 1)
       else t.dev.ringFlits = s.dev.ringFlits ∧ t.dev.ringWait = [(a.val, vc.val, b.val)] ∧
        t.dev.f R.SYS_PRING.STALL a = min (s.dev.f R.SYS_PRING.STALL a + 1) (2 ^ 32 - 1)) ∧
      SameMem s t ∧ SameWords s t [R.SYS_PRING.INJ.key a])) ∧
  (∀ (a : Fin 8) (x : RingFlit) (full : Bool) (vc : Fin 3) (s : State), s.dev.stopServes a = true → s.dev.ringFlits = [x] → x.dst = a.val → x.vc = vc.val → s.dev.flitThere x = true →
    Completes (.flitArrive a vc x.up full) s (fun t => t.dev.ringFlits = (if full then [{ x with at_ := a, since := s.dev.now, way := 8 }] else []) ∧
      t.dev.f R.SYS_PRING_DEFLECT.DEFLECT a = (if full then min (s.dev.f R.SYS_PRING_DEFLECT.DEFLECT a + 1) (2 ^ 32 - 1) else s.dev.f R.SYS_PRING_DEFLECT.DEFLECT a) ∧
      SameMem s t ∧ SameWords s t [R.SYS_PRING_DEFLECT.DEFLECT.key a])) ∧
  (∀ (k : Fin 8) (l : List Nat) (n : Fin 1024) (s : State), s.dev.f R.CUR_STATE.ALIVE = 1 → s.dev.wingPresent (k.val / 2) = true → l.length = 32 → l.sum ≠ 0 →
      s.dev.f R.SYS_HBMREG.SKEW_THR * l.sum ≤ l.getD (busiest l) 0 * 32 * 16 →
    Completes (.skewCheck k l n) s (fun t =>
      (if countOf s.dev.skewRuns k + 1 < max (s.dev.f R.SYS_HBMREG.SKEW_MS) 1 then countOf t.dev.skewRuns k = countOf s.dev.skewRuns k + 1 ∧ SameWords s t []
       else countOf t.dev.skewRuns k = 0 ∧ t.dev.f R.SYS_HBM_SKEW.EVENTS k = min (s.dev.f R.SYS_HBM_SKEW.EVENTS k + 1) (2 ^ 32 - 1) ∧
        t.dev.f R.SYS_HBM_SKEW.HOT_CH k = busiest l ∧ t.dev.f R.SYS_HBM_SKEW.HOT_TEN k = n) ∧ SameMem s t)) ∧
  (∀ (k : Fin 8) (l : List Nat) (n : Fin 1024) (s : State), s.dev.f R.CUR_STATE.ALIVE = 1 → s.dev.wingPresent (k.val / 2) = true → l.length = 32 →
      l.getD (busiest l) 0 * 32 * 16 < s.dev.f R.SYS_HBMREG.SKEW_THR * l.sum →
    Completes (.skewCheck k l n) s (fun t => countOf t.dev.skewRuns k = 0 ∧ { t.dev with skewRuns := s.dev.skewRuns } = s.dev ∧ SameMem s t)) ∧
  (∀ (n : Fin 256) (x : PtpOut) (s : State), n.val < 128 → s.dev.lportUp n = true → s.dev.ptpQueue n = [x] → s.dev.f R.FAB_HS.EN = 0 →
      x.due = .whole →
    Completes (.schedulingSelection n) s (fun t => t.dev.ptpQueue n = [] ∧ t.dev.portQueue n = s.dev.portQueue n ∧ t.dev.reqs = s.dev.reqs ∧
      (∃ u, t.dev.out = s.dev.out ++ [.ptp n { x.m with udp := u }] ∧ u.isSome = x.udp) ∧ SameMem s t ∧ SameWords s t [])) ∧
  (∀ (a b : Fin 8) (vc : Fin 3) (s : State), s.dev.stopServes a = true → s.dev.stopServes b = true → a ≠ b → s.dev.ringWait = [] →
      s.dev.flitPasses a (Machine.ringUp a b) = true →
    Completes (.flitInject a (some (vc, b))) s (fun t => t.dev.ringFlits = s.dev.ringFlits ∧ t.dev.ringWait = [(a.val, vc.val, b.val)] ∧
      t.dev.f R.SYS_PRING.STALL a = min (s.dev.f R.SYS_PRING.STALL a + 1) (2 ^ 32 - 1) ∧
      t.dev.f R.SYS_PRING.INJ a = s.dev.f R.SYS_PRING.INJ a ∧ SameMem s t ∧ SameWords s t [R.SYS_PRING.INJ.key a])) ∧
  (∀ (a : Fin 8) (x : RingFlit) (full : Bool) (vc : Fin 3) (s : State), s.dev.ringFlits = [x] → s.dev.flitThere x = false →
    Completes (.flitArrive a vc x.up full) s (fun t => t = s))

/-- A doorbell moves TAIL; the ring selected reads descriptors against reserved slots; a failed read or SQ_ABORT starts the teardown; ABORTED records
follow (R55, R56, R57, R58, R59, R61, R63, notes/assumptions/22.md, notes/assumptions/8.md, notes/assumptions/93.md, notes/assumptions/20.md). The
model's choices: log entry 22 (ENABLE is 0 from SQ_ABORT on), 8 (which ring is selected, one read of consecutive descriptors), 93 (SQ_ABORT in a
teardown), 20 (with nothing to do a command changes nothing). -/
def Obligations.RingsTakeDoorbellsFetchAndTearDown : Prop :=
  (∀ (f : Fin 256) (n : Fin 4096) (index : BitVec 32) (s : State), s.dev.f R.SYS_BOOT.STATE = 4 → s.dev.f R.SQ_CTL.LOC n = 0 →
      s.dev.f R.SQ_BIND.SRC n = f → s.dev.f R.SQ_CTL.ENABLE n = 1 → (s.dev.ring n).tear = 0 →
      (s.dev.f R.SQ_STATE.TAIL n + 2 ^ 32 - s.dev.f R.SQ_STATE.HEAD n) % 2 ^ 32 ≤ (index.toNat + 2 ^ 32 - s.dev.f R.SQ_STATE.HEAD n) % 2 ^ 32 →
      (index.toNat + 2 ^ 32 - s.dev.f R.SQ_STATE.HEAD n) % 2 ^ 32 ≤ 2 ^ s.dev.f R.SQ_CTL.SIZE_LOG n →
    Completes (.ringDoorbell f n ⟨0, 8⟩ index) s (fun t => t.dev.f R.SQ_STATE.TAIL n = index.toNat ∧
      t.dev.f R.SQ_STATE.HEAD n = s.dev.f R.SQ_STATE.HEAD n ∧ SameMem s t ∧ SameUnits s t ∧ SameWords s t [R.SQ_STATE.TAIL.key n])) ∧
  (∀ (n : Nat) (s : State), s.dev.ringList.filter s.dev.canFetch = [n] → s.dev.f R.SQ_CTL.LOC n = 0 →
    Completes .descriptorFetch s (fun t => let k := s.dev.fetchCount n
      0 < k ∧ k ≤ max (s.dev.f R.RING_GCTL.BURST) 1 ∧ (t.dev.ring n).reading = some (s.dev.nextTag, k) ∧ t.dev.nextTag = (s.dev.nextTag + 1) % 2 ^ 32 ∧
      t.dev.f R.CQ_CREDIT.RESERVED (s.dev.f R.SQ_CTL.CQ n) = min (s.dev.f R.CQ_CREDIT.RESERVED (s.dev.f R.SQ_CTL.CQ n) + k) (2 ^ 32 - 1) ∧
      t.dev.out = s.dev.out ++ [.hostRead s.dev.nextTag (s.dev.f R.SQ_BIND.SRC n)
        ((s.dev.f R.SQ_BASE.ADDR n + 64 * (s.dev.f R.SQ_STATE.HEAD n % 2 ^ s.dev.f R.SQ_CTL.SIZE_LOG n)) % 2 ^ 64) (64 * k)] ∧
      SameMem s t ∧ SameWords s t [R.CQ_CREDIT.RESERVED.key (s.dev.f R.SQ_CTL.CQ n)])) ∧
  (∀ (s : State), s.dev.ringList.filter s.dev.canFetch = [] → Completes .descriptorFetch s (fun t => t = s)) ∧
  (∀ (n : Fin 4096) (tag k : Nat) (s : State), (s.dev.ring n).reading = some (tag, k) → (s.dev.ring n).tear = 0 →
      s.dev.f R.SQ_STATE.TAIL n ≠ s.dev.f R.SQ_STATE.HEAD n →
    Completes (.fetchFailed n) s (fun t => t.dev.f R.SQ_ERR.FETCH n = 1 ∧ t.dev.f R.SQ_CTL.ENABLE n = 0 ∧ (t.dev.ring n).reading = none ∧
      (t.dev.ring n).tear = 2 ∧ t.dev.f R.CQ_CREDIT.RESERVED (s.dev.f R.SQ_CTL.CQ n) = s.dev.f R.CQ_CREDIT.RESERVED (s.dev.f R.SQ_CTL.CQ n) - k ∧
      t.dev.reqs = s.dev.reqs.filter (fun r => r.tag != tag) ∧ SameMem s t ∧
      SameWords s t [R.SQ_ERR.FETCH.key n, R.SQ_CTL.ENABLE.key n, R.CQ_CREDIT.RESERVED.key (s.dev.f R.SQ_CTL.CQ n)])) ∧
  (∀ (n : Fin 4096) (s : State), (s.dev.ring n).reading = none → Completes (.fetchFailed n) s (fun t => t = s)) ∧
  (∀ (n : Fin 4096) (s : State), s.dev.f R.SYS_BOOT.STATE = 4 → (s.dev.ring n).tear = 0 → (s.dev.ring n).reading = none →
      (s.dev.ring n).fetched = [] → s.dev.opsOf n = [] →
    Completes (.sqAbort n) s (fun t => t.dev.f R.SQ_CTL.ENABLE n = 0 ∧ t.dev.ops = s.dev.ops ∧
      (if s.dev.f R.SQ_STATE.TAIL n = s.dev.f R.SQ_STATE.HEAD n then t.dev.f R.SQ_ABORT.ABORT n = 0 ∧ (t.dev.ring n).tear = 0
       else t.dev.f R.SQ_ABORT.ABORT n = 1 ∧ (t.dev.ring n).tear = 1) ∧
      SameMem s t ∧ SameWords s t [R.SQ_CTL.ENABLE.key n, R.SQ_ABORT.ABORT.key n])) ∧
  (∀ (n : Fin 4096) (s : State), s.dev.f R.SYS_BOOT.STATE = 4 → (s.dev.ring n).tear = 1 → Completes (.sqAbort n) s (fun t => t = s)) ∧
  (∀ (n : Fin 4096) (s : State), (s.dev.ring n).tear ≠ 0 → s.dev.f R.SQ_STATE.TAIL n ≠ s.dev.f R.SQ_STATE.HEAD n →
      s.dev.cqCredit (s.dev.f R.SQ_CTL.CQ n) ≠ 0 → s.dev.f R.SQ_CTL.LOC n = 0 → s.dev.f R.CQ_CTL.LOC (s.dev.f R.SQ_CTL.CQ n) = 0 →
    Completes (.abortRecordWrite n true true) s (fun t =>
      let q := s.dev.f R.SQ_CTL.CQ n
      let i := s.dev.f R.CQ_STATE.TAIL q
      let at_ := memKey (hostSpace (s.dev.f R.CQ_BIND.DST q)) ((s.dev.f R.CQ_BASE.ADDR q + 32 * (i % 2 ^ s.dev.f R.CQ_CTL.SIZE_LOG q)) % 2 ^ 64)
      memGet t.mem (at_ + 2) = 0x0F ∧ memGet t.mem (at_ + 3) = (if (s.dev.ring n).tear = 1 then 0x40 else 0x41) ∧
      memGet t.mem (at_ + 8) = BitVec.ofNat 8 n ∧ SameMemBut s t at_ 32 ∧
      t.dev.f R.SQ_STATE.HEAD n = (s.dev.f R.SQ_STATE.HEAD n + 1) % 2 ^ 32 ∧ t.dev.f R.CQ_STATE.TAIL q = (i + 1) % 2 ^ 32))

/-- A peer without contact is suspected and, at its deadline, lost; VOUCH puts the deadline off, CONDEMN loses it at once; a NOTE renews or ends its
lease (R307, R381, R382, R383, R384, R385, notes/assumptions/69.md, notes/assumptions/20.md). The model's choices: log entry 69 (VOUCH of a LOST peer,
a NOTE from outside the plan, the time source of a lost peer), 20 (before its time a suspicion or an expiry changes nothing). -/
def Obligations.PeersAreSuspectedVouchedAndLost : Prop :=
  (∀ (p : Fin 4096) (s : State), s.dev.f R.HEALTH_PEER.STATE p = 0 → s.dev.f R.TIME_CTL.AUTO = 0 →
      s.dev.now < (s.dev.peer p).deadline → max (s.dev.f R.HEALTH_LEASE.SUSPECT_MS) 1 * 1000000 ≤ s.dev.now - (s.dev.peer p).last →
    Completes (.peerSuspect p) s (fun t => t.dev.f R.HEALTH_PEER.STATE p = 1 ∧ t.dev.peers = s.dev.peers ∧ t.dev.ctxs = s.dev.ctxs ∧ SameMem s t)) ∧
  (∀ (p : Fin 4096) (s : State), s.dev.f R.HEALTH_PEER.STATE p ≠ 0 ∨ (s.dev.peer p).deadline ≤ s.dev.now ∨
      s.dev.now - (s.dev.peer p).last < max (s.dev.f R.HEALTH_LEASE.SUSPECT_MS) 1 * 1000000 →
    Completes (.peerSuspect p) s (fun t => t = s)) ∧
  (∀ (p : Fin 4096) (s : State), s.dev.f R.HEALTH_PEER.STATE p ≤ 1 → (s.dev.peer p).deadline ≤ s.dev.now → s.dev.f R.TIME_CTL.AUTO = 0 →
      s.dev.ctxs = [] → s.dev.colls = [] → s.dev.pubs = [] → s.dev.deltasIn = [] →
    Completes (.peerLeaseExpiry p) s (fun t => t.dev.f R.HEALTH_PEER.STATE p = 2 ∧
      t.dev.f R.HEALTH_PEER.LOSSES p = min (s.dev.f R.HEALTH_PEER.LOSSES p + 1) (2 ^ R.HEALTH_PEER.LOSSES.w - 1) ∧
      (t.dev.peer p).lostBit = true ∧ (t.dev.peer p).vouched = 0 ∧ t.dev.f R.VT_PEER.STATE p = 0 ∧
      t.dev.ctlKeys.any (fun e => e.1 == p.val) = false ∧ t.dev.seals.any (fun e => e.1 == p.val) = false ∧ SameMem s t)) ∧
  (∀ (p : Fin 4096) (c : Nat) (x : Ctx) (s : State), s.dev.f R.HEALTH_PEER.STATE p ≤ 1 → (s.dev.peer p).deadline ≤ s.dev.now →
      s.dev.f R.TIME_CTL.AUTO = 0 → s.dev.ctxs = [(c, x)] → x.state = .opened → s.dev.siteOf p = some x.site → NothingWaits s → s.dev.pubs = [] →
      s.dev.deltasIn = [] →
    Completes (.peerLeaseExpiry p) s (fun t => t.dev.f R.HEALTH_PEER.STATE p = 2 ∧
      ((t.dev.ctx c).state = .failed ∨ (t.dev.ctx c).state = .closed) ∧ SameMem s t)) ∧
  (∀ (p : Fin 4096) (s : State), 2 ≤ s.dev.f R.HEALTH_PEER.STATE p ∨ s.dev.now < (s.dev.peer p).deadline →
    Completes (.peerLeaseExpiry p) s (fun t => t = s)) ∧
  (∀ (p : Fin 4096) (ext : BitVec 16) (s : State), s.dev.f R.SYS_BOOT.STATE = 4 → s.dev.f R.HEALTH_PEER.STATE p ≤ 1 →
      s.dev.now < (s.dev.peer p).deadline →
    Completes (.vouch p ext) s (fun t => let dl := max (s.dev.peer p).deadline (s.dev.now + ext.toNat * 1000000)
      t.dev.f R.HEALTH_PEER_RES.STATUS = 0 ∧ t.dev.peer p = { s.dev.peer p with deadline := dl, vouched := dl } ∧
      { t.dev with words := s.dev.words, peers := s.dev.peers } = s.dev ∧ SameMem s t ∧
      SameWords s t [R.HEALTH_PEER_CMD.PEER.key 0, R.HEALTH_PEER_RES.STATUS.key 0])) ∧
  (∀ (p : Fin 4096) (ext : BitVec 16) (s : State), s.dev.f R.SYS_BOOT.STATE = 4 → 2 ≤ s.dev.f R.HEALTH_PEER.STATE p →
    Completes (.vouch p ext) s (fun t => t.dev.f R.HEALTH_PEER_RES.STATUS = (if s.dev.f R.HEALTH_PEER.STATE p = 2 then 0x12 else 0x01) ∧
      SameMem s t ∧ SameUnits s t ∧ SameWords s t [R.HEALTH_PEER_CMD.PEER.key 0, R.HEALTH_PEER_RES.STATUS.key 0])) ∧
  (∀ (p : Fin 4096) (s : State), s.dev.f R.SYS_BOOT.STATE = 4 → s.dev.f R.HEALTH_PEER.STATE p ≤ 1 → s.dev.f R.TIME_CTL.AUTO = 0 →
      s.dev.ctxs = [] → s.dev.colls = [] → s.dev.pubs = [] → s.dev.deltasIn = [] →
    Completes (.condemn p) s (fun t => t.dev.f R.HEALTH_PEER_RES.STATUS = 0 ∧ t.dev.f R.HEALTH_PEER.STATE p = 2 ∧
      t.dev.f R.HEALTH_PEER.LOSSES p = min (s.dev.f R.HEALTH_PEER.LOSSES p + 1) (2 ^ R.HEALTH_PEER.LOSSES.w - 1) ∧
      (t.dev.peer p).lostBit = true ∧ t.dev.f R.VT_PEER.STATE p = 0 ∧ SameMem s t)) ∧
  (∀ (p : Fin 4096) (s : State), s.dev.f R.SYS_BOOT.STATE = 4 → 2 ≤ s.dev.f R.HEALTH_PEER.STATE p →
    Completes (.condemn p) s (fun t => t.dev.f R.HEALTH_PEER_RES.STATUS = (if s.dev.f R.HEALTH_PEER.STATE p = 2 then 0 else 0x01) ∧
      SameMem s t ∧ SameUnits s t ∧ SameWords s t [R.HEALTH_PEER_CMD.PEER.key 0, R.HEALTH_PEER_RES.STATUS.key 0])) ∧
  (∀ (m : NoteMsg) (p : Nat) (s : State), FromPeer s m.site.toNat m.gwId.toNat p → s.dev.f R.HEALTH_PEER.STATE p ≤ 1 → m.suspect = 0 →
      m.lost.toNat.testBit s.dev.site = false →
    Completes (.noteReceive m true) s (fun t => t.dev.f R.HEALTH_PEER.STATE p = 0 ∧ (t.dev.peer p).last = s.dev.now ∧
      (t.dev.peer p).deadline = max (s.dev.now + s.dev.lease) (s.dev.peer p).vouched ∧
      { t.dev with words := s.dev.words, peers := s.dev.peers } = s.dev ∧ SameMem s t ∧ SameWords s t [R.HEALTH_PEER.STATE.key p])) ∧
  (∀ (m : NoteMsg) (p : Nat) (s : State), FromPeer s m.site.toNat m.gwId.toNat p → s.dev.f R.HEALTH_PEER.STATE p ≤ 1 →
      m.suspect.toNat = 2 ^ s.dev.site → m.lost.toNat.testBit s.dev.site = false →
    Completes (.noteReceive m true) s (fun t =>
      t.dev.f R.HEALTH_ERR.SUSPECTED_BY = min (s.dev.f R.HEALTH_ERR.SUSPECTED_BY + 1) (2 ^ R.HEALTH_ERR.SUSPECTED_BY.w - 1) ∧
      t.dev.f R.HEALTH_PEER.STATE p = 0 ∧ SameMem s t ∧ SameWords s t [R.HEALTH_PEER.STATE.key p, R.HEALTH_ERR.SUSPECTED_BY.key 0])) ∧
  (∀ (m : NoteMsg) (p : Nat) (s : State), FromPeer s m.site.toNat m.gwId.toNat p → s.dev.f R.HEALTH_PEER.STATE p ≤ 1 → m.suspect = 0 →
      m.lost.toNat.testBit s.dev.site = true → s.dev.f R.TIME_CTL.AUTO = 0 → s.dev.ctxs = [] → s.dev.colls = [] → s.dev.pubs = [] →
      s.dev.deltasIn = [] →
    Completes (.noteReceive m true) s (fun t => t.dev.f R.HEALTH_PEER.STATE p = 2 ∧ (t.dev.peer p).lostBit = false ∧
      t.dev.f R.VT_PEER.STATE p = 0 ∧ SameMem s t)) ∧
  (∀ (m : NoteMsg) (s : State), Completes (.noteReceive m false) s (fun t => t = s)) ∧
  (∀ (m : NoteMsg) (s : State), s.dev.identOk m.site.toNat m.gwId.toNat = false →
    Completes (.noteReceive m true) s (fun t => t.dev.f R.CAT_CNT.IDENT = min (s.dev.f R.CAT_CNT.IDENT + 1) (2 ^ R.CAT_CNT.IDENT.w - 1) ∧
      SameMem s t ∧ SameUnits s t ∧ SameWords s t [R.CAT_CNT.IDENT.key 0])) ∧
  (∀ (p : Fin 4096) (ext : BitVec 16) (s : State), s.dev.f R.SYS_BOOT.STATE = 4 → s.dev.f R.HEALTH_PEER.STATE p ≤ 1 →
      (s.dev.peer p).deadline ≤ s.dev.now → s.dev.f R.TIME_CTL.AUTO = 0 → s.dev.ctxs = [] → s.dev.colls = [] → s.dev.pubs = [] →
      s.dev.deltasIn = [] →
    Completes (.vouch p ext) s (fun t => t.dev.f R.HEALTH_PEER_RES.STATUS = 0x12 ∧ t.dev.f R.HEALTH_PEER.STATE p = 2 ∧
      t.dev.f R.HEALTH_PEER.LOSSES p = min (s.dev.f R.HEALTH_PEER.LOSSES p + 1) (2 ^ R.HEALTH_PEER.LOSSES.w - 1) ∧
      (t.dev.peer p).lostBit = true ∧ (t.dev.peer p).vouched = 0 ∧ t.dev.f R.VT_PEER.STATE p = 0 ∧ SameMem s t))

/-- An alarm window closes into the ring of records, or is dropped; margins are sampled, fitted and read; a faulty wing is fenced and a faulty EIC
goes dark (R373, R374, R377, R380, R386, R387, notes/assumptions/68.md, notes/assumptions/70.md, notes/assumptions/125.md, notes/assumptions/20.md).
The model's choices: log entry 68 (SEQ counts every closed record, MIN after a read), 70 (a fit needs all its means), 125 (how a mean is rounded), 20
(before its time or outside its condition nothing changes). -/
def Obligations.AlarmsMarginsAndFaultsAreServed : Prop :=
  (∀ (w : AlarmWin) (s : State), s.dev.alarms = [w] → 1000 * max w.coal 1 ≤ s.dev.now - w.firstTick → s.dev.f R.HEALTH_CTL.ENABLE = 1 →
      idxSub (s.dev.f R.HEALTH_ALM_IDX.WR) (s.dev.f R.HEALTH_ALM_IDX.RD) ≠ 2 ^ s.dev.f R.HEALTH_ALM_BASE.SIZE_LOG →
    Completes (.alarmWindowClose w.key) s (fun t =>
      let wr := s.dev.f R.HEALTH_ALM_IDX.WR
      let at_ := memKey 0 (s.dev.f R.HEALTH_ALM_BASE.ADDR + 32 * (wr % 2 ^ s.dev.f R.HEALTH_ALM_BASE.SIZE_LOG))
      t.dev.alarms = [] ∧ t.dev.f R.HEALTH_ALM_IDX.WR = (wr + 1) % 2 ^ 32 ∧ t.dev.alarmSeq = (s.dev.alarmSeq + 1) % 2 ^ 24 ∧
      (s.dev.msix.masked.contains (0, s.dev.f R.HEALTH_CTL.VECTOR) = false → t.dev.out.contains (.msix 0 (s.dev.f R.HEALTH_CTL.VECTOR)) = true) ∧
      (s.dev.msix.masked.contains (0, s.dev.f R.HEALTH_CTL.VECTOR) = true → t.dev.msix.pend.contains (0, s.dev.f R.HEALTH_CTL.VECTOR) = true) ∧
      (∀ a, memGet t.mem a = if at_ ≤ a ∧ a < at_ + 32 then (s.dev.alarmRecord w).getD (a - at_) 0 else memGet s.mem a) ∧
      SameWords s t [R.HEALTH_ALM_IDX.WR.key 0])) ∧
  (∀ (w : AlarmWin) (s : State), s.dev.alarms = [w] → 1000 * max w.coal 1 ≤ s.dev.now - w.firstTick →
      s.dev.f R.HEALTH_CTL.ENABLE = 0 ∨
        idxSub (s.dev.f R.HEALTH_ALM_IDX.WR) (s.dev.f R.HEALTH_ALM_IDX.RD) = 2 ^ s.dev.f R.HEALTH_ALM_BASE.SIZE_LOG →
    Completes (.alarmWindowClose w.key) s (fun t => t.dev.alarms = [] ∧ t.dev.alarmSeq = (s.dev.alarmSeq + 1) % 2 ^ 24 ∧
      t.dev.f R.HEALTH_ALM_DROP.DROP = min (s.dev.f R.HEALTH_ALM_DROP.DROP + 1) (2 ^ R.HEALTH_ALM_DROP.DROP.w - 1) ∧ SameMem s t ∧
      SameWords s t [R.HEALTH_ALM_DROP.DROP.key 0])) ∧
  (∀ (w : AlarmWin) (s : State), s.dev.alarms = [w] → s.dev.now - w.firstTick < 1000 * max w.coal 1 →
    Completes (.alarmWindowClose w.key) s (fun t => t = s)) ∧
  (∀ (k : Fin 4) (u : Fin 128) (v : BitVec 16) (s : State), s.dev.f R.CUR_STATE.ALIVE = 1 → s.dev.marginUnit k u = true → k ≠ 2 →
    Completes (.marginSample k u v) s (fun t => let i := 128 * k.val + u.val
      t.dev.sf R.MARGIN.CUR i = v.toInt ∧
      t.dev.sf R.MARGIN.MIN i = (if (s.dev.marginX i).fresh then min (s.dev.sf R.MARGIN.MIN i) v.toInt else v.toInt) ∧
      (v.toInt < s.dev.sf R.HEALTH_CONS.POOR k → t.dev.f R.MARGIN.STATE i = 2) ∧
      (s.dev.sf R.HEALTH_CONS.POOR k ≤ v.toInt → s.dev.sf R.HEALTH_CONS.WARN k + (s.dev.f R.HEALTH_CONS.HYST k : Nat) < v.toInt →
        t.dev.f R.MARGIN.STATE i = 0) ∧
      (t.dev.marginX i).sum = (s.dev.marginX i).sum + v.toInt ∧ (t.dev.marginX i).count = (s.dev.marginX i).count + 1 ∧
      SameMem s t ∧ SameWords s t [R.MARGIN.CUR.key i, R.HEALTH_ALM_DROP.OVERFLOW.key 0])) ∧
  (∀ (u : Fin 128) (v : BitVec 16) (s : State), s.dev.f R.CUR_STATE.ALIVE = 1 → s.dev.marginUnit 2 u = true → s.dev.f R.KW_CAR_STATE.RX_LOCK u = 1 →
    Completes (.marginSample 2 u v) s (fun t => t.dev.sf R.MARGIN.CUR (256 + u.val) = s.dev.sf R.KW_CAR_QUAL.QMARG u ∧ SameMem s t ∧
      SameWords s t [R.MARGIN.CUR.key (256 + u.val), R.HEALTH_ALM_DROP.OVERFLOW.key 0])) ∧
  (∀ (k : Fin 4) (u : Fin 128) (mean : Int) (s : State), s.dev.f R.CUR_STATE.ALIVE = 1 → s.dev.marginUnit k u = true → k ≠ 1 →
      (s.dev.marginX (128 * k.val + u.val)).isMean mean = true → (s.dev.marginX (128 * k.val + u.val)).means.length + 1 < max (s.dev.f R.HEALTH_CONS_TREND.TREND_S k) 60 →
    Completes (.trendFit k u mean) s (fun t => let i := 128 * k.val + u.val
      t.dev.f R.MARGIN.TTP i = 0xFFFFFF ∧ (t.dev.marginX i).means = mean :: (s.dev.marginX i).means ∧ (t.dev.marginX i).raised = false ∧
      (t.dev.marginX i).sum = 0 ∧ (t.dev.marginX i).count = 0 ∧ SameMem s t ∧ SameWords s t [R.MARGIN.TTP.key i])) ∧
  (∀ (s : State), s.dev.f R.SYS_BOOT.STATE = 4 → s.dev.marginUnit (s.dev.f R.HEALTH_MSEL.KIND) (s.dev.f R.HEALTH_MSEL.UNIT) = true →
    Completes .healthMdataRead s (fun t => let i := 128 * s.dev.f R.HEALTH_MSEL.KIND + s.dev.f R.HEALTH_MSEL.UNIT
      t.dev.out = s.dev.out ++ [.readData (s.dev.word (R.MARGIN.CUR.key i))] ∧ t.dev.f R.MARGIN.MIN i = 0 ∧ (t.dev.marginX i).fresh = false ∧
      t.dev.f R.MARGIN.CUR i = s.dev.f R.MARGIN.CUR i ∧ SameMem s t ∧ SameWords s t [R.MARGIN.CUR.key i])) ∧
  (∀ (s : State), s.dev.f R.SYS_BOOT.STATE = 4 → s.dev.f R.HEALTH_MSEL.KIND ≤ 1 → 7 ≤ s.dev.f R.HEALTH_MSEL.UNIT →
    Completes .healthMdataRead s (fun t => t.dev.f R.HEALTH_ERR.RANGE = 1 ∧ SameUnitsBut [.readData 0] s t ∧ SameMem s t ∧
      SameWords s t [R.HEALTH_ERR.RANGE.key 0])) ∧
  (∀ (w : Fin 4) (s : State), s.dev.f R.SYS_BOOT.STATE = 4 → s.dev.fenced w = false → s.dev.wingPresent w = true →
    Completes (.wingFault w) s (fun t => t.dev.f R.HEALTH_FENCE.FENCED = s.dev.f R.HEALTH_FENCE.FENCED ||| 2 ^ w.val ∧ t.dev.f (causeFld w) = 7 ∧
      (List.range 32).all (fun i => t.dev.f R.KW_CAR_STATE.TX_LOCK (32 * w.val + i) == 0) = true ∧ SameMem s t)) ∧
  (∀ (w : Fin 4) (s : State), s.dev.fenced w = true ∨ s.dev.wingPresent w = false → Completes (.wingFault w) s (fun t => t = s)) ∧
  (∀ (e : Fin 8) (s : State), s.dev.f R.SYS_BOOT.STATE = 4 → s.dev.wingEnabled (e.val / 2) = true → s.dev.engDark.contains (8 + e.val) = false →
    Completes (.eicFault e) s (fun t => t.dev.engDark = s.dev.engDark ++ [8 + e.val] ∧
      (List.range 16).all (fun i => t.dev.f R.KW_CAR_STATE.TX_LOCK (16 * e.val + i) == 0 && !(t.dev.kwOf (16 * e.val + i)).txJoined &&
        !(t.dev.kwOf (16 * e.val + i)).rxJoined) = true ∧ SameMem s t)) ∧
  (∀ (e : Fin 8) (s : State), s.dev.engDark.contains (8 + e.val) = true → Completes (.eicFault e) s (fun t => t = s)) ∧
  (∀ (k : Fin 4) (u : Fin 128) (mean : Int) (s : State), (s.dev.marginX (128 * k.val + u.val)).isMean mean = false →
    Completes (.trendFit k u mean) s (fun t => t = s))
end

