-- ==== Sys2Proof/Laws/Boundaries.lean ====
section
/-! SUPPORT. What a boundary event makes of an E-class field (R12), and which seconds PPS_OUT has pulsed (R192, R210). -/

namespace Sys2Proof.Laws

open Sys2Proof.Machine

/-- A field not written in this tick takes its shadow as the register holds it. -/
theorem shadow_of_no_write {d : Dev} {c : Nat} (h : ∀ e ∈ d.shadowAt, e.1 = c → e.2.1 ≠ d.now) :
    d.shadow c = d.f (epochFld c).1 (epochFld c).2 := by
  have h0 : d.shadowAt.find? (fun e => e.1 == c && e.2.1 == d.now) = none := by
    rw [List.find?_eq_none]
    intro e he
    by_cases hc : e.1 = c
    · simp [hc, h e he hc]
    · simp [hc]
  simp [Dev.shadow, h0]

/-- Joining a second keeps every run in order: its first second is not past its last. -/
theorem addRun_ordered {k : Nat} {l : List (Nat × Nat)} (hl : ∀ r ∈ l, r.1 ≤ r.2) : ∀ r ∈ addRun k l, r.1 ≤ r.2 := by
  unfold addRun
  cases h : l.find? (fun r => r.2 + 1 == k) with
  | none => simpa using fun a b hab => hl (a, b) hab
  | some x =>
    have hx := hl x (List.mem_of_find?_eq_some h)
    have he : x.2 + 1 = k := by simpa using List.find?_some h
    intro r hr
    rcases List.mem_cons.1 hr with rfl | hr
    · exact Nat.le_of_lt_succ (by simp; omega)
    · exact hl r (List.mem_filter.1 hr).1

/-- A second that has joined the runs counts as pulsed. -/
theorem ppsPulsed_of_addRun {d : Dev} {k : Nat} {l : List (Nat × Nat)} (hl : ∀ r ∈ l, r.1 ≤ r.2) (hd : d.ppsDone = addRun k l) :
    d.ppsPulsed k = true := by
  unfold Dev.ppsPulsed
  rw [hd]
  unfold addRun
  cases h : l.find? (fun r => r.2 + 1 == k) with
  | none => simp
  | some x =>
    have hx := hl x (List.mem_of_find?_eq_some h)
    have he : x.2 + 1 = k := by simpa using List.find?_some h
    have : x.1 ≤ k := by omega
    simp [this]

end Sys2Proof.Laws
end

