-- ==== Sys2Proof/Laws/Egress.lean ====
section
/-! SUPPORT. Laws of the egress of LRM packets (R330): which port an endpoint and a tenant get. -/

namespace Sys2Proof.Laws

open Sys2Proof.Machine

/-- An egress set of one port takes every packet, whatever the keyed hash is (R330): H mod 1 is 0. -/
theorem egressPort_of_egress_single {d : Dev} {p : Nat} (h : d.egress = [p]) (ep t : Nat) : d.egressPort ep t = some p := by
  simp [Dev.egressPort, h, Nat.mod_one]

/-- While no port is in the egress set, no packet leaves (R330). -/
theorem egressPort_of_egress_nil {d : Dev} (h : d.egress = []) (ep t : Nat) : d.egressPort ep t = none := by
  simp [Dev.egressPort, h]

end Sys2Proof.Laws
end

