-- ==== Sys2Proof/Laws/Tables.lean ====
section
/-! SUPPORT. Laws of the sparse tables: a read after a write, and the canonical form, which every operation keeps. -/

namespace Sys2Proof.Laws

open Sys2Proof.Machine

section Tables

variable {α : Type} (dflt : Nat → α)

theorem tabGet_tabIns_same (k : Nat) (v : α) (m : List (Nat × α)) : tabGet dflt (tabIns k v m) k = v := by
  induction m with
  | nil => simp [tabIns, tabGet]
  | cons p t ih =>
    obtain ⟨j, u⟩ := p
    unfold tabIns
    split
    · simp [tabGet]
    · split
      · simp [tabGet]
      · simp_all [tabGet]

theorem tabGet_tabIns_other {k k' : Nat} (h : k' ≠ k) (v : α) (m : List (Nat × α)) :
    tabGet dflt (tabIns k v m) k' = tabGet dflt m k' := by
  induction m with
  | nil => simp [tabIns, tabGet, h]
  | cons p t ih =>
    obtain ⟨j, u⟩ := p
    unfold tabIns
    split
    · simp [tabGet, h]
    · split
      · next _ hj => subst hj; simp [tabGet, h]
      · simp [tabGet, ih]

theorem tabGet_tabDel_same (k : Nat) (m : List (Nat × α)) : tabGet dflt (tabDel k m) k = dflt k := by
  induction m with
  | nil => rfl
  | cons p t ih =>
    obtain ⟨j, u⟩ := p
    by_cases h : j = k
    · simpa [tabDel, h] using ih
    · have hk : k ≠ j := fun e => h e.symm
      simpa [tabDel, h, tabGet, hk] using ih

theorem tabGet_tabDel_other {k k' : Nat} (h : k' ≠ k) (m : List (Nat × α)) :
    tabGet dflt (tabDel k m) k' = tabGet dflt m k' := by
  induction m with
  | nil => rfl
  | cons p t ih =>
    obtain ⟨j, u⟩ := p
    by_cases hj : j = k
    · have : k' ≠ j := fun e => h (e.trans hj)
      simpa [tabDel, hj, tabGet, h] using ih
    · by_cases hk : k' = j
      · simp [tabDel, hj, tabGet, hk]
      · simpa [tabDel, hj, tabGet, hk] using ih

/-- Reading back the key just written. -/
theorem tabGet_tabPut_same [DecidableEq α] (k : Nat) (v : α) (m : List (Nat × α)) : tabGet dflt (tabPut dflt k v m) k = v := by
  unfold tabPut
  split
  · next h => rw [tabGet_tabDel_same, h]
  · exact tabGet_tabIns_same dflt k v m

/-- Reading another key. -/
theorem tabGet_tabPut_other [DecidableEq α] {k k' : Nat} (h : k' ≠ k) (v : α) (m : List (Nat × α)) :
    tabGet dflt (tabPut dflt k v m) k' = tabGet dflt m k' := by
  unfold tabPut
  split
  · exact tabGet_tabDel_other dflt h m
  · exact tabGet_tabIns_other dflt h v m

theorem tabGet_tabPut [DecidableEq α] (k k' : Nat) (v : α) (m : List (Nat × α)) :
    tabGet dflt (tabPut dflt k v m) k' = if k' = k then v else tabGet dflt m k' := by
  split
  · next h => rw [h, tabGet_tabPut_same]
  · next h => exact tabGet_tabPut_other dflt h v m

theorem tabWf_nil : tabWf dflt [] := ⟨List.Pairwise.nil, fun _ h => absurd h List.not_mem_nil⟩

/-- Keeping only some entries keeps the canonical form. -/
theorem tabWf_filter {m : List (Nat × α)} (p : Nat × α → Bool) (h : tabWf dflt m) : tabWf dflt (m.filter p) :=
  ⟨h.1.filter p, fun q hq => h.2 q (List.mem_of_mem_filter hq)⟩

theorem tabWf_tabDel {m : List (Nat × α)} (k : Nat) (h : tabWf dflt m) : tabWf dflt (tabDel k m) := tabWf_filter dflt _ h

/-- The keys of a table after an insertion. -/
theorem mem_tabIns {k : Nat} {v : α} {m : List (Nat × α)} {q : Nat × α} (h : q ∈ tabIns k v m) : q = (k, v) ∨ q ∈ m := by
  induction m with
  | nil => simpa [tabIns] using h
  | cons p t ih =>
    obtain ⟨j, u⟩ := p
    unfold tabIns at h
    split at h
    · simpa using h
    · split at h
      · simp only [List.mem_cons] at h ⊢; tauto
      · simp only [List.mem_cons] at h ⊢
        rcases h with h | h
        · exact .inr (.inl h)
        · rcases ih h with h | h
          · exact .inl h
          · exact .inr (.inr h)

theorem tabWf_tabIns {m : List (Nat × α)} {k : Nat} {v : α} (hv : v ≠ dflt k) (h : tabWf dflt m) : tabWf dflt (tabIns k v m) := by
  induction m with
  | nil => exact ⟨List.pairwise_singleton _ _, fun q hq => by rw [List.mem_singleton.mp hq]; exact hv⟩
  | cons p t ih =>
    obtain ⟨j, u⟩ := p
    obtain ⟨hp, hd⟩ := h
    rw [List.pairwise_cons] at hp
    have ht : tabWf dflt t := ⟨hp.2, fun q hq => hd q (List.mem_cons_of_mem _ hq)⟩
    unfold tabIns
    split
    · next hk =>
      refine ⟨?_, ?_⟩
      · rw [List.pairwise_cons]
        refine ⟨fun q hq => ?_, by rw [List.pairwise_cons]; exact hp⟩
        rcases List.mem_cons.mp hq with rfl | hq
        · exact hk
        · exact hk.trans (hp.1 q hq)
      · intro q hq
        rcases List.mem_cons.mp hq with rfl | hq
        · exact hv
        · exact hd q hq
    · split
      · next _ hk =>
        subst hk
        refine ⟨?_, ?_⟩
        · rw [List.pairwise_cons]; exact hp
        · intro q hq
          rcases List.mem_cons.mp hq with rfl | hq
          · exact hv
          · exact hd q (List.mem_cons_of_mem _ hq)
      · next h1 h2 =>
        have ih' := ih ht
        refine ⟨?_, ?_⟩
        · rw [List.pairwise_cons]
          refine ⟨fun q hq => ?_, ih'.1⟩
          rcases mem_tabIns hq with rfl | hq
          · exact lt_of_le_of_ne (not_lt.mp h1) (fun e => h2 e.symm)
          · exact hp.1 q hq
        · intro q hq
          rcases List.mem_cons.mp hq with rfl | hq
          · exact hd _ List.mem_cons_self
          · exact ih'.2 q hq

/-- A write keeps the canonical form. -/
theorem tabWf_tabPut [DecidableEq α] {m : List (Nat × α)} (k : Nat) (v : α) (h : tabWf dflt m) : tabWf dflt (tabPut dflt k v m) := by
  unfold tabPut
  split
  · exact tabWf_tabDel dflt k h
  · next hv => exact tabWf_tabIns dflt hv h

end Tables

/-! ### Memory -/

theorem memGet_memPut (m : List Host.Cell) (a a' : Nat) (b : Byte) : memGet (memPut m a b) a' = if a' = a then b else memGet m a' :=
  tabGet_tabPut memDefault a a' b m

/-- A byte outside those written reads as before. -/
theorem memGet_memWrite_outside (l : List Byte) (m : List Host.Cell) (a a' : Nat) (h : a' < a ∨ a + l.length ≤ a') :
    memGet (memWrite m a l) a' = memGet m a' := by
  induction l generalizing m a with
  | nil => rfl
  | cons b t ih =>
    simp only [List.length_cons] at h
    rw [memWrite, ih _ _ (by omega), memGet_memPut, if_neg (by omega)]

/-- A byte just written reads back. -/
theorem memGet_memWrite_inside (l : List Byte) (m : List Host.Cell) (a i : Nat) (h : i < l.length) :
    memGet (memWrite m a l) (a + i) = l[i] := by
  induction l generalizing m a i with
  | nil => simp at h
  | cons b t ih =>
    rw [memWrite]
    cases i with
    | zero => rw [memGet_memWrite_outside t _ _ _ (by omega), memGet_memPut]; simp
    | succ i =>
      have := ih (memPut m a b) (a + 1) i (by simpa using h)
      simpa [Nat.add_assoc, Nat.add_comm 1 i] using this

theorem memWf_nil : memWf [] := tabWf_nil memDefault

theorem memWf_memPut {m : List Host.Cell} (a : Nat) (b : Byte) (h : memWf m) : memWf (memPut m a b) := tabWf_tabPut memDefault a b h

/-- Every store keeps the canonical form of memory. -/
theorem memWf_memWrite {m : List Host.Cell} (a : Nat) (l : List Byte) (h : memWf m) : memWf (memWrite m a l) := by
  induction l generalizing m a with
  | nil => exact h
  | cons b t ih => exact ih (a + 1) (memWf_memPut a b h)

theorem memWf_filter {m : List Host.Cell} (p : Host.Cell → Bool) (h : memWf m) : memWf (m.filter p) := tabWf_filter memDefault p h

end Sys2Proof.Laws
end

