-- ==== Sys2Proof/Laws/Fields.lean ====
section
/-! SUPPORT. Laws of words and of register fields: a field read after a field write, bit by bit, word by word. -/

namespace Sys2Proof.Laws

open Sys2Proof.Machine

/-- A field bit by bit. -/
theorem testBit_bitsOf (w : Word) (lo n i : Nat) : (bitsOf w lo n).testBit i = (decide (i < n) && w.getLsbD (lo + i)) := by
  unfold bitsOf
  rw [Nat.testBit_mod_two_pow, Nat.testBit_div_two_pow, BitVec.getLsbD]
  congr 2; omega

theorem bitsOf_lt (w : Word) (lo n : Nat) : bitsOf w lo n < 2 ^ n := Nat.mod_lt _ (Nat.two_pow_pos n)

/-- A word after a field write, bit by bit. -/
theorem getLsbD_setBits (w : Word) (lo n v i : Nat) (hi : i < 64) :
    (setBits w lo n v).getLsbD i = if lo ≤ i ∧ i < lo + n then v.testBit (i - lo) else w.getLsbD i := by
  unfold setBits
  simp only [BitVec.getLsbD_or, BitVec.getLsbD_and, BitVec.getLsbD_not, BitVec.getLsbD_shiftLeft, BitVec.getLsbD_ofNat,
    Nat.testBit_two_pow_sub_one, Nat.testBit_mod_two_pow, hi, decide_true, Bool.true_and]
  by_cases h1 : i < lo
  · simp [h1, not_le.mpr h1]
  · have h1' := not_lt.mp h1
    have h2 : i - lo < 64 := by omega
    by_cases h3 : i - lo < n
    · have : i < lo + n := by omega
      simp [h1, h2, h3, h1', this]
    · have : ¬ i < lo + n := by omega
      simp [h1, h3, this]

/-- A field reads what was written to it. -/
theorem bitsOf_setBits_same (w : Word) (lo n v : Nat) (h : lo + n ≤ 64) : bitsOf (setBits w lo n v) lo n = v % 2 ^ n := by
  apply Nat.eq_of_testBit_eq
  intro i
  rw [testBit_bitsOf, Nat.testBit_mod_two_pow]
  by_cases hi : i < n
  · rw [getLsbD_setBits _ _ _ _ _ (by omega), if_pos (by omega)]
    simp [hi]
  · simp [hi]

/-- A field apart from the one written keeps its value. -/
theorem bitsOf_setBits_apart (w : Word) (lo n v lo' n' : Nat) (h : lo + n ≤ lo' ∨ lo' + n' ≤ lo) :
    bitsOf (setBits w lo n v) lo' n' = bitsOf w lo' n' := by
  apply Nat.eq_of_testBit_eq
  intro i
  rw [testBit_bitsOf, testBit_bitsOf]
  by_cases hi : i < n'
  · by_cases hj : lo' + i < 64
    · rw [getLsbD_setBits _ _ _ _ _ hj, if_neg (by omega)]
    · rw [BitVec.getLsbD_of_ge _ _ (by omega), BitVec.getLsbD_of_ge _ _ (by omega)]
  · simp [hi]

/-! ### Registers of the gateway -/

variable (d : Dev) (x y : Fld)

/-- A word after a write of a word. -/
theorem word_setWord (k k' : Nat) (w : Word) : (d.setWord k w).word k' = if k' = k then w else d.word k' :=
  tabGet_tabPut resetWord k k' w d.words

@[simp] theorem word_setWord_same (k : Nat) (w : Word) : (d.setWord k w).word k = w := by rw [word_setWord, if_pos rfl]

theorem word_setWord_other {k k' : Nat} (h : k' ≠ k) (w : Word) : (d.setWord k w).word k' = d.word k' := by
  rw [word_setWord, if_neg h]

/-- A word other than the one a field write touches keeps its value. -/
theorem word_set_other (i v : Nat) {k : Nat} (h : k ≠ x.key i) : (d.set x i v).word k = d.word k := word_setWord_other d h _

/-- A field reads what was written to it, cut to its width. -/
theorem f_set_same (i v : Nat) (h : x.lo + x.w ≤ 64) : (d.set x i v).f x i = v % 2 ^ x.w := by
  simp only [Dev.f, Dev.set, word_setWord_same]
  exact bitsOf_setBits_same _ _ _ _ h

/-- A field in another word, or apart in the same word, keeps its value. -/
theorem f_set_apart (i j v : Nat) (h : y.key j ≠ x.key i ∨ x.lo + x.w ≤ y.lo ∨ y.lo + y.w ≤ x.lo) :
    (d.set x i v).f y j = d.f y j := by
  unfold Dev.f Dev.set
  rw [word_setWord]
  split
  · next e =>
    rw [e]
    exact bitsOf_setBits_apart _ _ _ _ _ _ (h.resolve_left (fun hn => hn e))
  · rfl

/-- A counter that saturates, after it counted. -/
theorem f_bump_same (i n : Nat) (h : x.lo + x.w ≤ 64) : (d.bump x i n).f x i = min (d.f x i + n) (2 ^ x.w - 1) := by
  unfold Dev.bump
  rw [f_set_same d x i _ h, Nat.mod_eq_of_lt]
  have := Nat.two_pow_pos x.w
  omega

theorem f_bump_apart (i j n : Nat) (h : y.key j ≠ x.key i ∨ x.lo + x.w ≤ y.lo ∨ y.lo + y.w ≤ x.lo) :
    (d.bump x i n).f y j = d.f y j := f_set_apart d x y i j _ h

theorem word_bump_other (i n : Nat) {k : Nat} (h : k ≠ x.key i) : (d.bump x i n).word k = d.word k := word_set_other d x i _ h

theorem f_lt (i : Nat) : d.f x i < 2 ^ x.w := bitsOf_lt _ _ _

/-- A write of a word keeps the canonical form of the registers. -/
theorem wordsWf_setWord (k : Nat) (w : Word) (h : tabWf resetWord d.words) : tabWf resetWord (d.setWord k w).words :=
  tabWf_tabPut resetWord k w h

theorem wordsWf_set (i v : Nat) (h : tabWf resetWord d.words) : tabWf resetWord (d.set x i v).words :=
  wordsWf_setWord d _ _ h

theorem wordsWf_bump (i n : Nat) (h : tabWf resetWord d.words) : tabWf resetWord (d.bump x i n).words := wordsWf_set d x i _ h

/-- Fields depend on the words alone. -/
theorem f_congr {d d' : Dev} (h : d.words = d'.words) (i : Nat) : d.f x i = d'.f x i := by unfold Dev.f Dev.word; rw [h]

/-! ### What a register write gives each field (R9, R10, R11, R402) -/

/-- Writes that leave a field's word alone change nothing in it: the classes that take no write. -/
theorem writeField_ro (dis : Bool) (l : Lanes) (old new : Word) (acc : Word × Bool) (g : LField) (h : g.kind = .ro) :
    writeField dis l old new acc g = acc := by
  unfold writeField; rw [h]

/-- One field of a write changes no bit outside that field. -/
theorem writeField_apart (dis : Bool) (l : Lanes) (old new : Word) (acc : Word × Bool) (g : LField) (lo n : Nat)
    (h : g.lo + g.w ≤ lo ∨ lo + n ≤ g.lo) : bitsOf (writeField dis l old new acc g).1 lo n = bitsOf acc.1 lo n := by
  unfold writeField
  cases g.kind <;> simp only
  · exact bitsOf_setBits_apart _ _ _ _ _ _ h
  · split
    · rfl
    · split
      · exact bitsOf_setBits_apart _ _ _ _ _ _ h
      · rfl
  · exact bitsOf_setBits_apart _ _ _ _ _ _ h
  · exact bitsOf_setBits_apart _ _ _ _ _ _ h
  · split
    · exact bitsOf_setBits_apart _ _ _ _ _ _ h
    · rfl

end Sys2Proof.Laws
end

