-- ==== Sys2Proof/Laws/State.lean ====
section
/-! SUPPORT. What each update of the state leaves of each field: one lemma per field and update, all true by unfolding. -/

namespace Sys2Proof.Laws

open Sys2Proof.Machine

/-! ### The machine -/

section Machine

variable (s : State) (f : Dev → Dev) (g : Dev → List Host.Cell → Dev × List Host.Cell) (l : List Instr)

@[simp] theorem onDev_pending : (s.onDev f).pending = s.pending := rfl
@[simp] theorem onDev_mem : (s.onDev f).mem = s.mem := rfl
@[simp] theorem onDev_dev : (s.onDev f).dev = f s.dev := rfl
@[simp] theorem onBoth_pending : (s.onBoth g).pending = s.pending := rfl
@[simp] theorem onBoth_mem : (s.onBoth g).mem = (g s.dev s.mem).2 := rfl
@[simp] theorem onBoth_dev : (s.onBoth g).dev = (g s.dev s.mem).1 := rfl
@[simp] theorem withPending_pending : (s.withPending l).pending = l := rfl
@[simp] theorem withPending_mem : (s.withPending l).mem = s.mem := rfl
@[simp] theorem withPending_dev : (s.withPending l).dev = s.dev := rfl

end Machine

/-! ### The gateway -/

section Gateway

variable (d : Dev)

/-! setWord changes words alone -/

@[simp] theorem setWord_now (k : Nat) (w : Word) : (d.setWord k w).now = d.now := rfl
@[simp] theorem setWord_freeCtr (k : Nat) (w : Word) : (d.setWord k w).freeCtr = d.freeCtr := rfl
@[simp] theorem setWord_provMode (k : Nat) (w : Word) : (d.setWord k w).provMode = d.provMode := rfl
@[simp] theorem setWord_itinMode (k : Nat) (w : Word) : (d.setWord k w).itinMode = d.itinMode := rfl
@[simp] theorem setWord_profile (k : Nat) (w : Word) : (d.setWord k w).profile = d.profile := rfl
@[simp] theorem setWord_shadowAt (k : Nat) (w : Word) : (d.setWord k w).shadowAt = d.shadowAt := rfl
@[simp] theorem setWord_tb (k : Nat) (w : Word) : (d.setWord k w).tb = d.tb := rfl
@[simp] theorem setWord_out (k : Nat) (w : Word) : (d.setWord k w).out = d.out := rfl
@[simp] theorem setWord_ctlQ (k : Nat) (w : Word) : (d.setWord k w).ctlQ = d.ctlQ := rfl
@[simp] theorem setWord_anchorQ (k : Nat) (w : Word) : (d.setWord k w).anchorQ = d.anchorQ := rfl
@[simp] theorem setWord_rings (k : Nat) (w : Word) : (d.setWord k w).rings = d.rings := rfl
@[simp] theorem setWord_cqs (k : Nat) (w : Word) : (d.setWord k w).cqs = d.cqs := rfl
@[simp] theorem setWord_msix (k : Nat) (w : Word) : (d.setWord k w).msix = d.msix := rfl
@[simp] theorem setWord_wrr (k : Nat) (w : Word) : (d.setWord k w).wrr = d.wrr := rfl
@[simp] theorem setWord_ops (k : Nat) (w : Word) : (d.setWord k w).ops = d.ops := rfl
@[simp] theorem setWord_atomics (k : Nat) (w : Word) : (d.setWord k w).atomics = d.atomics := rfl
@[simp] theorem setWord_reqs (k : Nat) (w : Word) : (d.setWord k w).reqs = d.reqs := rfl
@[simp] theorem setWord_segSeen (k : Nat) (w : Word) : (d.setWord k w).segSeen = d.segSeen := rfl
@[simp] theorem setWord_nextTag (k : Nat) (w : Word) : (d.setWord k w).nextTag = d.nextTag := rfl
@[simp] theorem setWord_couriers (k : Nat) (w : Word) : (d.setWord k w).couriers = d.couriers := rfl
@[simp] theorem setWord_portQ (k : Nat) (w : Word) : (d.setWord k w).portQ = d.portQ := rfl
@[simp] theorem setWord_ptpQ (k : Nat) (w : Word) : (d.setWord k w).ptpQ = d.ptpQ := rfl
@[simp] theorem setWord_wfq (k : Nat) (w : Word) : (d.setWord k w).wfq = d.wfq := rfl
@[simp] theorem setWord_meters (k : Nat) (w : Word) : (d.setWord k w).meters = d.meters := rfl
@[simp] theorem setWord_limiters (k : Nat) (w : Word) : (d.setWord k w).limiters = d.limiters := rfl
@[simp] theorem setWord_hsSeen (k : Nat) (w : Word) : (d.setWord k w).hsSeen = d.hsSeen := rfl
@[simp] theorem setWord_colls (k : Nat) (w : Word) : (d.setWord k w).colls = d.colls := rfl
@[simp] theorem setWord_laneHits (k : Nat) (w : Word) : (d.setWord k w).laneHits = d.laneHits := rfl
@[simp] theorem setWord_deadColls (k : Nat) (w : Word) : (d.setWord k w).deadColls = d.deadColls := rfl
@[simp] theorem setWord_collEnds (k : Nat) (w : Word) : (d.setWord k w).collEnds = d.collEnds := rfl
@[simp] theorem setWord_raceWins (k : Nat) (w : Word) : (d.setWord k w).raceWins = d.raceWins := rfl
@[simp] theorem setWord_earlyRefs (k : Nat) (w : Word) : (d.setWord k w).earlyRefs = d.earlyRefs := rfl
@[simp] theorem setWord_endNotices (k : Nat) (w : Word) : (d.setWord k w).endNotices = d.endNotices := rfl
@[simp] theorem setWord_codecImg (k : Nat) (w : Word) : (d.setWord k w).codecImg = d.codecImg := rfl
@[simp] theorem setWord_hists (k : Nat) (w : Word) : (d.setWord k w).hists = d.hists := rfl
@[simp] theorem setWord_histPend (k : Nat) (w : Word) : (d.setWord k w).histPend = d.histPend := rfl
@[simp] theorem setWord_pubs (k : Nat) (w : Word) : (d.setWord k w).pubs = d.pubs := rfl
@[simp] theorem setWord_reserves (k : Nat) (w : Word) : (d.setWord k w).reserves = d.reserves := rfl
@[simp] theorem setWord_pubTxn (k : Nat) (w : Word) : (d.setWord k w).pubTxn = d.pubTxn := rfl
@[simp] theorem setWord_staged (k : Nat) (w : Word) : (d.setWord k w).staged = d.staged := rfl
@[simp] theorem setWord_stageReq (k : Nat) (w : Word) : (d.setWord k w).stageReq = d.stageReq := rfl
@[simp] theorem setWord_deltasOut (k : Nat) (w : Word) : (d.setWord k w).deltasOut = d.deltasOut := rfl
@[simp] theorem setWord_deltasIn (k : Nat) (w : Word) : (d.setWord k w).deltasIn = d.deltasIn := rfl
@[simp] theorem setWord_ctxs (k : Nat) (w : Word) : (d.setWord k w).ctxs = d.ctxs := rfl
@[simp] theorem setWord_heldAccedes (k : Nat) (w : Word) : (d.setWord k w).heldAccedes = d.heldAccedes := rfl
@[simp] theorem setWord_bpmBits (k : Nat) (w : Word) : (d.setWord k w).bpmBits = d.bpmBits := rfl
@[simp] theorem setWord_annexUsed (k : Nat) (w : Word) : (d.setWord k w).annexUsed = d.annexUsed := rfl
@[simp] theorem setWord_annexHeld (k : Nat) (w : Word) : (d.setWord k w).annexHeld = d.annexHeld := rfl
@[simp] theorem setWord_hashKeys (k : Nat) (w : Word) : (d.setWord k w).hashKeys = d.hashKeys := rfl
@[simp] theorem setWord_resilver (k : Nat) (w : Word) : (d.setWord k w).resilver = d.resilver := rfl
@[simp] theorem setWord_tourWait (k : Nat) (w : Word) : (d.setWord k w).tourWait = d.tourWait := rfl
@[simp] theorem setWord_tbRem (k : Nat) (w : Word) : (d.setWord k w).tbRem = d.tbRem := rfl
@[simp] theorem setWord_slew (k : Nat) (w : Word) : (d.setWord k w).slew = d.slew := rfl
@[simp] theorem setWord_servos (k : Nat) (w : Word) : (d.setWord k w).servos = d.servos := rfl
@[simp] theorem setWord_slaves (k : Nat) (w : Word) : (d.setWord k w).slaves = d.slaves := rfl
@[simp] theorem setWord_marks (k : Nat) (w : Word) : (d.setWord k w).marks = d.marks := rfl
@[simp] theorem setWord_linkDelay (k : Nat) (w : Word) : (d.setWord k w).linkDelay = d.linkDelay := rfl
@[simp] theorem setWord_ptpSeq (k : Nat) (w : Word) : (d.setWord k w).ptpSeq = d.ptpSeq := rfl
@[simp] theorem setWord_ptpCount (k : Nat) (w : Word) : (d.setWord k w).ptpCount = d.ptpCount := rfl
@[simp] theorem setWord_ppsDone (k : Nat) (w : Word) : (d.setWord k w).ppsDone = d.ppsDone := rfl
@[simp] theorem setWord_ppsEdge (k : Nat) (w : Word) : (d.setWord k w).ppsEdge = d.ppsEdge := rfl
@[simp] theorem setWord_refLost (k : Nat) (w : Word) : (d.setWord k w).refLost = d.refLost := rfl
@[simp] theorem setWord_cdReports (k : Nat) (w : Word) : (d.setWord k w).cdReports = d.cdReports := rfl
@[simp] theorem setWord_heard (k : Nat) (w : Word) : (d.setWord k w).heard = d.heard := rfl
@[simp] theorem setWord_cats (k : Nat) (w : Word) : (d.setWord k w).cats = d.cats := rfl
@[simp] theorem setWord_pages (k : Nat) (w : Word) : (d.setWord k w).pages = d.pages := rfl
@[simp] theorem setWord_catHeld (k : Nat) (w : Word) : (d.setWord k w).catHeld = d.catHeld := rfl
@[simp] theorem setWord_rotaDone (k : Nat) (w : Word) : (d.setWord k w).rotaDone = d.rotaDone := rfl
@[simp] theorem setWord_catHold (k : Nat) (w : Word) : (d.setWord k w).catHold = d.catHold := rfl
@[simp] theorem setWord_scheds (k : Nat) (w : Word) : (d.setWord k w).scheds = d.scheds := rfl
@[simp] theorem setWord_returnsTx (k : Nat) (w : Word) : (d.setWord k w).returnsTx = d.returnsTx := rfl
@[simp] theorem setWord_returnsRx (k : Nat) (w : Word) : (d.setWord k w).returnsRx = d.returnsRx := rfl
@[simp] theorem setWord_itinRuns (k : Nat) (w : Word) : (d.setWord k w).itinRuns = d.itinRuns := rfl
@[simp] theorem setWord_parkTx (k : Nat) (w : Word) : (d.setWord k w).parkTx = d.parkTx := rfl
@[simp] theorem setWord_parkRx (k : Nat) (w : Word) : (d.setWord k w).parkRx = d.parkRx := rfl
@[simp] theorem setWord_cancelTx (k : Nat) (w : Word) : (d.setWord k w).cancelTx = d.cancelTx := rfl
@[simp] theorem setWord_dMean (k : Nat) (w : Word) : (d.setWord k w).dMean = d.dMean := rfl
@[simp] theorem setWord_kw (k : Nat) (w : Word) : (d.setWord k w).kw = d.kw := rfl
@[simp] theorem setWord_paths (k : Nat) (w : Word) : (d.setWord k w).paths = d.paths := rfl
@[simp] theorem setWord_faSettled (k : Nat) (w : Word) : (d.setWord k w).faSettled = d.faSettled := rfl
@[simp] theorem setWord_engDark (k : Nat) (w : Word) : (d.setWord k w).engDark = d.engDark := rfl
@[simp] theorem setWord_lines (k : Nat) (w : Word) : (d.setWord k w).lines = d.lines := rfl
@[simp] theorem setWord_beiCnt (k : Nat) (w : Word) : (d.setWord k w).beiCnt = d.beiCnt := rfl
@[simp] theorem setWord_pm (k : Nat) (w : Word) : (d.setWord k w).pm = d.pm := rfl
@[simp] theorem setWord_ctlKeys (k : Nat) (w : Word) : (d.setWord k w).ctlKeys = d.ctlKeys := rfl
@[simp] theorem setWord_halves (k : Nat) (w : Word) : (d.setWord k w).halves = d.halves := rfl
@[simp] theorem setWord_binds (k : Nat) (w : Word) : (d.setWord k w).binds = d.binds := rfl
@[simp] theorem setWord_keks (k : Nat) (w : Word) : (d.setWord k w).keks = d.keks := rfl
@[simp] theorem setWord_quarTimes (k : Nat) (w : Word) : (d.setWord k w).quarTimes = d.quarTimes := rfl
@[simp] theorem setWord_seals (k : Nat) (w : Word) : (d.setWord k w).seals = d.seals := rfl
@[simp] theorem setWord_sealRx (k : Nat) (w : Word) : (d.setWord k w).sealRx = d.sealRx := rfl
@[simp] theorem setWord_sealAt (k : Nat) (w : Word) : (d.setWord k w).sealAt = d.sealAt := rfl
@[simp] theorem setWord_cred (k : Nat) (w : Word) : (d.setWord k w).cred = d.cred := rfl
@[simp] theorem setWord_dbgNonce (k : Nat) (w : Word) : (d.setWord k w).dbgNonce = d.dbgNonce := rfl
@[simp] theorem setWord_trngCtr (k : Nat) (w : Word) : (d.setWord k w).trngCtr = d.trngCtr := rfl
@[simp] theorem setWord_storageKey (k : Nat) (w : Word) : (d.setWord k w).storageKey = d.storageKey := rfl
@[simp] theorem setWord_meas (k : Nat) (w : Word) : (d.setWord k w).meas = d.meas := rfl
@[simp] theorem setWord_loadRes (k : Nat) (w : Word) : (d.setWord k w).loadRes = d.loadRes := rfl
@[simp] theorem setWord_loadRecs (k : Nat) (w : Word) : (d.setWord k w).loadRecs = d.loadRecs := rfl
@[simp] theorem setWord_clusterFence (k : Nat) (w : Word) : (d.setWord k w).clusterFence = d.clusterFence := rfl
@[simp] theorem setWord_gateReq (k : Nat) (w : Word) : (d.setWord k w).gateReq = d.gateReq := rfl
@[simp] theorem setWord_gateAt (k : Nat) (w : Word) : (d.setWord k w).gateAt = d.gateAt := rfl
@[simp] theorem setWord_ringFlits (k : Nat) (w : Word) : (d.setWord k w).ringFlits = d.ringFlits := rfl
@[simp] theorem setWord_ringWait (k : Nat) (w : Word) : (d.setWord k w).ringWait = d.ringWait := rfl
@[simp] theorem setWord_ringTurn (k : Nat) (w : Word) : (d.setWord k w).ringTurn = d.ringTurn := rfl
@[simp] theorem setWord_skewRuns (k : Nat) (w : Word) : (d.setWord k w).skewRuns = d.skewRuns := rfl
@[simp] theorem setWord_pcieUp (k : Nat) (w : Word) : (d.setWord k w).pcieUp = d.pcieUp := rfl
@[simp] theorem setWord_bars (k : Nat) (w : Word) : (d.setWord k w).bars = d.bars := rfl
@[simp] theorem setWord_released (k : Nat) (w : Word) : (d.setWord k w).released = d.released := rfl
@[simp] theorem setWord_rstAt (k : Nat) (w : Word) : (d.setWord k w).rstAt = d.rstAt := rfl
@[simp] theorem setWord_railsBad (k : Nat) (w : Word) : (d.setWord k w).railsBad = d.railsBad := rfl
@[simp] theorem setWord_loadingAt (k : Nat) (w : Word) : (d.setWord k w).loadingAt = d.loadingAt := rfl
@[simp] theorem setWord_inReset (k : Nat) (w : Word) : (d.setWord k w).inReset = d.inReset := rfl
@[simp] theorem setWord_partOk (k : Nat) (w : Word) : (d.setWord k w).partOk = d.partOk := rfl
@[simp] theorem setWord_enHeld (k : Nat) (w : Word) : (d.setWord k w).enHeld = d.enHeld := rfl
@[simp] theorem setWord_throttled (k : Nat) (w : Word) : (d.setWord k w).throttled = d.throttled := rfl
@[simp] theorem setWord_thermN (k : Nat) (w : Word) : (d.setWord k w).thermN = d.thermN := rfl
@[simp] theorem setWord_alertN (k : Nat) (w : Word) : (d.setWord k w).alertN = d.alertN := rfl
@[simp] theorem setWord_mailbox (k : Nat) (w : Word) : (d.setWord k w).mailbox = d.mailbox := rfl
@[simp] theorem setWord_slotBad (k : Nat) (w : Word) : (d.setWord k w).slotBad = d.slotBad := rfl
@[simp] theorem setWord_alarms (k : Nat) (w : Word) : (d.setWord k w).alarms = d.alarms := rfl
@[simp] theorem setWord_overflow (k : Nat) (w : Word) : (d.setWord k w).overflow = d.overflow := rfl
@[simp] theorem setWord_alarmSeq (k : Nat) (w : Word) : (d.setWord k w).alarmSeq = d.alarmSeq := rfl
@[simp] theorem setWord_fwLog (k : Nat) (w : Word) : (d.setWord k w).fwLog = d.fwLog := rfl
@[simp] theorem setWord_peers (k : Nat) (w : Word) : (d.setWord k w).peers = d.peers := rfl
@[simp] theorem setWord_recovery (k : Nat) (w : Word) : (d.setWord k w).recovery = d.recovery := rfl
@[simp] theorem setWord_margins (k : Nat) (w : Word) : (d.setWord k w).margins = d.margins := rfl
@[simp] theorem setWord_rails (k : Nat) (w : Word) : (d.setWord k w).rails = d.rails := rfl
@[simp] theorem setWord_railNak (k : Nat) (w : Word) : (d.setWord k w).railNak = d.railNak := rfl

/-! set changes words alone -/

@[simp] theorem set_now (x : Fld) (i v : Nat) : (d.set x i v).now = d.now := rfl
@[simp] theorem set_freeCtr (x : Fld) (i v : Nat) : (d.set x i v).freeCtr = d.freeCtr := rfl
@[simp] theorem set_provMode (x : Fld) (i v : Nat) : (d.set x i v).provMode = d.provMode := rfl
@[simp] theorem set_itinMode (x : Fld) (i v : Nat) : (d.set x i v).itinMode = d.itinMode := rfl
@[simp] theorem set_profile (x : Fld) (i v : Nat) : (d.set x i v).profile = d.profile := rfl
@[simp] theorem set_shadowAt (x : Fld) (i v : Nat) : (d.set x i v).shadowAt = d.shadowAt := rfl
@[simp] theorem set_tb (x : Fld) (i v : Nat) : (d.set x i v).tb = d.tb := rfl
@[simp] theorem set_out (x : Fld) (i v : Nat) : (d.set x i v).out = d.out := rfl
@[simp] theorem set_ctlQ (x : Fld) (i v : Nat) : (d.set x i v).ctlQ = d.ctlQ := rfl
@[simp] theorem set_anchorQ (x : Fld) (i v : Nat) : (d.set x i v).anchorQ = d.anchorQ := rfl
@[simp] theorem set_rings (x : Fld) (i v : Nat) : (d.set x i v).rings = d.rings := rfl
@[simp] theorem set_cqs (x : Fld) (i v : Nat) : (d.set x i v).cqs = d.cqs := rfl
@[simp] theorem set_msix (x : Fld) (i v : Nat) : (d.set x i v).msix = d.msix := rfl
@[simp] theorem set_wrr (x : Fld) (i v : Nat) : (d.set x i v).wrr = d.wrr := rfl
@[simp] theorem set_ops (x : Fld) (i v : Nat) : (d.set x i v).ops = d.ops := rfl
@[simp] theorem set_atomics (x : Fld) (i v : Nat) : (d.set x i v).atomics = d.atomics := rfl
@[simp] theorem set_reqs (x : Fld) (i v : Nat) : (d.set x i v).reqs = d.reqs := rfl
@[simp] theorem set_segSeen (x : Fld) (i v : Nat) : (d.set x i v).segSeen = d.segSeen := rfl
@[simp] theorem set_nextTag (x : Fld) (i v : Nat) : (d.set x i v).nextTag = d.nextTag := rfl
@[simp] theorem set_couriers (x : Fld) (i v : Nat) : (d.set x i v).couriers = d.couriers := rfl
@[simp] theorem set_portQ (x : Fld) (i v : Nat) : (d.set x i v).portQ = d.portQ := rfl
@[simp] theorem set_ptpQ (x : Fld) (i v : Nat) : (d.set x i v).ptpQ = d.ptpQ := rfl
@[simp] theorem set_wfq (x : Fld) (i v : Nat) : (d.set x i v).wfq = d.wfq := rfl
@[simp] theorem set_meters (x : Fld) (i v : Nat) : (d.set x i v).meters = d.meters := rfl
@[simp] theorem set_limiters (x : Fld) (i v : Nat) : (d.set x i v).limiters = d.limiters := rfl
@[simp] theorem set_hsSeen (x : Fld) (i v : Nat) : (d.set x i v).hsSeen = d.hsSeen := rfl
@[simp] theorem set_colls (x : Fld) (i v : Nat) : (d.set x i v).colls = d.colls := rfl
@[simp] theorem set_laneHits (x : Fld) (i v : Nat) : (d.set x i v).laneHits = d.laneHits := rfl
@[simp] theorem set_deadColls (x : Fld) (i v : Nat) : (d.set x i v).deadColls = d.deadColls := rfl
@[simp] theorem set_collEnds (x : Fld) (i v : Nat) : (d.set x i v).collEnds = d.collEnds := rfl
@[simp] theorem set_raceWins (x : Fld) (i v : Nat) : (d.set x i v).raceWins = d.raceWins := rfl
@[simp] theorem set_earlyRefs (x : Fld) (i v : Nat) : (d.set x i v).earlyRefs = d.earlyRefs := rfl
@[simp] theorem set_endNotices (x : Fld) (i v : Nat) : (d.set x i v).endNotices = d.endNotices := rfl
@[simp] theorem set_codecImg (x : Fld) (i v : Nat) : (d.set x i v).codecImg = d.codecImg := rfl
@[simp] theorem set_hists (x : Fld) (i v : Nat) : (d.set x i v).hists = d.hists := rfl
@[simp] theorem set_histPend (x : Fld) (i v : Nat) : (d.set x i v).histPend = d.histPend := rfl
@[simp] theorem set_pubs (x : Fld) (i v : Nat) : (d.set x i v).pubs = d.pubs := rfl
@[simp] theorem set_reserves (x : Fld) (i v : Nat) : (d.set x i v).reserves = d.reserves := rfl
@[simp] theorem set_pubTxn (x : Fld) (i v : Nat) : (d.set x i v).pubTxn = d.pubTxn := rfl
@[simp] theorem set_staged (x : Fld) (i v : Nat) : (d.set x i v).staged = d.staged := rfl
@[simp] theorem set_stageReq (x : Fld) (i v : Nat) : (d.set x i v).stageReq = d.stageReq := rfl
@[simp] theorem set_deltasOut (x : Fld) (i v : Nat) : (d.set x i v).deltasOut = d.deltasOut := rfl
@[simp] theorem set_deltasIn (x : Fld) (i v : Nat) : (d.set x i v).deltasIn = d.deltasIn := rfl
@[simp] theorem set_ctxs (x : Fld) (i v : Nat) : (d.set x i v).ctxs = d.ctxs := rfl
@[simp] theorem set_heldAccedes (x : Fld) (i v : Nat) : (d.set x i v).heldAccedes = d.heldAccedes := rfl
@[simp] theorem set_bpmBits (x : Fld) (i v : Nat) : (d.set x i v).bpmBits = d.bpmBits := rfl
@[simp] theorem set_annexUsed (x : Fld) (i v : Nat) : (d.set x i v).annexUsed = d.annexUsed := rfl
@[simp] theorem set_annexHeld (x : Fld) (i v : Nat) : (d.set x i v).annexHeld = d.annexHeld := rfl
@[simp] theorem set_hashKeys (x : Fld) (i v : Nat) : (d.set x i v).hashKeys = d.hashKeys := rfl
@[simp] theorem set_resilver (x : Fld) (i v : Nat) : (d.set x i v).resilver = d.resilver := rfl
@[simp] theorem set_tourWait (x : Fld) (i v : Nat) : (d.set x i v).tourWait = d.tourWait := rfl
@[simp] theorem set_tbRem (x : Fld) (i v : Nat) : (d.set x i v).tbRem = d.tbRem := rfl
@[simp] theorem set_slew (x : Fld) (i v : Nat) : (d.set x i v).slew = d.slew := rfl
@[simp] theorem set_servos (x : Fld) (i v : Nat) : (d.set x i v).servos = d.servos := rfl
@[simp] theorem set_slaves (x : Fld) (i v : Nat) : (d.set x i v).slaves = d.slaves := rfl
@[simp] theorem set_marks (x : Fld) (i v : Nat) : (d.set x i v).marks = d.marks := rfl
@[simp] theorem set_linkDelay (x : Fld) (i v : Nat) : (d.set x i v).linkDelay = d.linkDelay := rfl
@[simp] theorem set_ptpSeq (x : Fld) (i v : Nat) : (d.set x i v).ptpSeq = d.ptpSeq := rfl
@[simp] theorem set_ptpCount (x : Fld) (i v : Nat) : (d.set x i v).ptpCount = d.ptpCount := rfl
@[simp] theorem set_ppsDone (x : Fld) (i v : Nat) : (d.set x i v).ppsDone = d.ppsDone := rfl
@[simp] theorem set_ppsEdge (x : Fld) (i v : Nat) : (d.set x i v).ppsEdge = d.ppsEdge := rfl
@[simp] theorem set_refLost (x : Fld) (i v : Nat) : (d.set x i v).refLost = d.refLost := rfl
@[simp] theorem set_cdReports (x : Fld) (i v : Nat) : (d.set x i v).cdReports = d.cdReports := rfl
@[simp] theorem set_heard (x : Fld) (i v : Nat) : (d.set x i v).heard = d.heard := rfl
@[simp] theorem set_cats (x : Fld) (i v : Nat) : (d.set x i v).cats = d.cats := rfl
@[simp] theorem set_pages (x : Fld) (i v : Nat) : (d.set x i v).pages = d.pages := rfl
@[simp] theorem set_catHeld (x : Fld) (i v : Nat) : (d.set x i v).catHeld = d.catHeld := rfl
@[simp] theorem set_rotaDone (x : Fld) (i v : Nat) : (d.set x i v).rotaDone = d.rotaDone := rfl
@[simp] theorem set_catHold (x : Fld) (i v : Nat) : (d.set x i v).catHold = d.catHold := rfl
@[simp] theorem set_scheds (x : Fld) (i v : Nat) : (d.set x i v).scheds = d.scheds := rfl
@[simp] theorem set_returnsTx (x : Fld) (i v : Nat) : (d.set x i v).returnsTx = d.returnsTx := rfl
@[simp] theorem set_returnsRx (x : Fld) (i v : Nat) : (d.set x i v).returnsRx = d.returnsRx := rfl
@[simp] theorem set_itinRuns (x : Fld) (i v : Nat) : (d.set x i v).itinRuns = d.itinRuns := rfl
@[simp] theorem set_parkTx (x : Fld) (i v : Nat) : (d.set x i v).parkTx = d.parkTx := rfl
@[simp] theorem set_parkRx (x : Fld) (i v : Nat) : (d.set x i v).parkRx = d.parkRx := rfl
@[simp] theorem set_cancelTx (x : Fld) (i v : Nat) : (d.set x i v).cancelTx = d.cancelTx := rfl
@[simp] theorem set_dMean (x : Fld) (i v : Nat) : (d.set x i v).dMean = d.dMean := rfl
@[simp] theorem set_kw (x : Fld) (i v : Nat) : (d.set x i v).kw = d.kw := rfl
@[simp] theorem set_paths (x : Fld) (i v : Nat) : (d.set x i v).paths = d.paths := rfl
@[simp] theorem set_faSettled (x : Fld) (i v : Nat) : (d.set x i v).faSettled = d.faSettled := rfl
@[simp] theorem set_engDark (x : Fld) (i v : Nat) : (d.set x i v).engDark = d.engDark := rfl
@[simp] theorem set_lines (x : Fld) (i v : Nat) : (d.set x i v).lines = d.lines := rfl
@[simp] theorem set_beiCnt (x : Fld) (i v : Nat) : (d.set x i v).beiCnt = d.beiCnt := rfl
@[simp] theorem set_pm (x : Fld) (i v : Nat) : (d.set x i v).pm = d.pm := rfl
@[simp] theorem set_ctlKeys (x : Fld) (i v : Nat) : (d.set x i v).ctlKeys = d.ctlKeys := rfl
@[simp] theorem set_halves (x : Fld) (i v : Nat) : (d.set x i v).halves = d.halves := rfl
@[simp] theorem set_binds (x : Fld) (i v : Nat) : (d.set x i v).binds = d.binds := rfl
@[simp] theorem set_keks (x : Fld) (i v : Nat) : (d.set x i v).keks = d.keks := rfl
@[simp] theorem set_quarTimes (x : Fld) (i v : Nat) : (d.set x i v).quarTimes = d.quarTimes := rfl
@[simp] theorem set_seals (x : Fld) (i v : Nat) : (d.set x i v).seals = d.seals := rfl
@[simp] theorem set_sealRx (x : Fld) (i v : Nat) : (d.set x i v).sealRx = d.sealRx := rfl
@[simp] theorem set_sealAt (x : Fld) (i v : Nat) : (d.set x i v).sealAt = d.sealAt := rfl
@[simp] theorem set_cred (x : Fld) (i v : Nat) : (d.set x i v).cred = d.cred := rfl
@[simp] theorem set_dbgNonce (x : Fld) (i v : Nat) : (d.set x i v).dbgNonce = d.dbgNonce := rfl
@[simp] theorem set_trngCtr (x : Fld) (i v : Nat) : (d.set x i v).trngCtr = d.trngCtr := rfl
@[simp] theorem set_storageKey (x : Fld) (i v : Nat) : (d.set x i v).storageKey = d.storageKey := rfl
@[simp] theorem set_meas (x : Fld) (i v : Nat) : (d.set x i v).meas = d.meas := rfl
@[simp] theorem set_loadRes (x : Fld) (i v : Nat) : (d.set x i v).loadRes = d.loadRes := rfl
@[simp] theorem set_loadRecs (x : Fld) (i v : Nat) : (d.set x i v).loadRecs = d.loadRecs := rfl
@[simp] theorem set_clusterFence (x : Fld) (i v : Nat) : (d.set x i v).clusterFence = d.clusterFence := rfl
@[simp] theorem set_gateReq (x : Fld) (i v : Nat) : (d.set x i v).gateReq = d.gateReq := rfl
@[simp] theorem set_gateAt (x : Fld) (i v : Nat) : (d.set x i v).gateAt = d.gateAt := rfl
@[simp] theorem set_ringFlits (x : Fld) (i v : Nat) : (d.set x i v).ringFlits = d.ringFlits := rfl
@[simp] theorem set_ringWait (x : Fld) (i v : Nat) : (d.set x i v).ringWait = d.ringWait := rfl
@[simp] theorem set_ringTurn (x : Fld) (i v : Nat) : (d.set x i v).ringTurn = d.ringTurn := rfl
@[simp] theorem set_skewRuns (x : Fld) (i v : Nat) : (d.set x i v).skewRuns = d.skewRuns := rfl
@[simp] theorem set_pcieUp (x : Fld) (i v : Nat) : (d.set x i v).pcieUp = d.pcieUp := rfl
@[simp] theorem set_bars (x : Fld) (i v : Nat) : (d.set x i v).bars = d.bars := rfl
@[simp] theorem set_released (x : Fld) (i v : Nat) : (d.set x i v).released = d.released := rfl
@[simp] theorem set_rstAt (x : Fld) (i v : Nat) : (d.set x i v).rstAt = d.rstAt := rfl
@[simp] theorem set_railsBad (x : Fld) (i v : Nat) : (d.set x i v).railsBad = d.railsBad := rfl
@[simp] theorem set_loadingAt (x : Fld) (i v : Nat) : (d.set x i v).loadingAt = d.loadingAt := rfl
@[simp] theorem set_inReset (x : Fld) (i v : Nat) : (d.set x i v).inReset = d.inReset := rfl
@[simp] theorem set_partOk (x : Fld) (i v : Nat) : (d.set x i v).partOk = d.partOk := rfl
@[simp] theorem set_enHeld (x : Fld) (i v : Nat) : (d.set x i v).enHeld = d.enHeld := rfl
@[simp] theorem set_throttled (x : Fld) (i v : Nat) : (d.set x i v).throttled = d.throttled := rfl
@[simp] theorem set_thermN (x : Fld) (i v : Nat) : (d.set x i v).thermN = d.thermN := rfl
@[simp] theorem set_alertN (x : Fld) (i v : Nat) : (d.set x i v).alertN = d.alertN := rfl
@[simp] theorem set_mailbox (x : Fld) (i v : Nat) : (d.set x i v).mailbox = d.mailbox := rfl
@[simp] theorem set_slotBad (x : Fld) (i v : Nat) : (d.set x i v).slotBad = d.slotBad := rfl
@[simp] theorem set_alarms (x : Fld) (i v : Nat) : (d.set x i v).alarms = d.alarms := rfl
@[simp] theorem set_overflow (x : Fld) (i v : Nat) : (d.set x i v).overflow = d.overflow := rfl
@[simp] theorem set_alarmSeq (x : Fld) (i v : Nat) : (d.set x i v).alarmSeq = d.alarmSeq := rfl
@[simp] theorem set_fwLog (x : Fld) (i v : Nat) : (d.set x i v).fwLog = d.fwLog := rfl
@[simp] theorem set_peers (x : Fld) (i v : Nat) : (d.set x i v).peers = d.peers := rfl
@[simp] theorem set_recovery (x : Fld) (i v : Nat) : (d.set x i v).recovery = d.recovery := rfl
@[simp] theorem set_margins (x : Fld) (i v : Nat) : (d.set x i v).margins = d.margins := rfl
@[simp] theorem set_rails (x : Fld) (i v : Nat) : (d.set x i v).rails = d.rails := rfl
@[simp] theorem set_railNak (x : Fld) (i v : Nat) : (d.set x i v).railNak = d.railNak := rfl

/-! bump changes words alone -/

@[simp] theorem bump_now (x : Fld) (i n : Nat) : (d.bump x i n).now = d.now := rfl
@[simp] theorem bump_freeCtr (x : Fld) (i n : Nat) : (d.bump x i n).freeCtr = d.freeCtr := rfl
@[simp] theorem bump_provMode (x : Fld) (i n : Nat) : (d.bump x i n).provMode = d.provMode := rfl
@[simp] theorem bump_itinMode (x : Fld) (i n : Nat) : (d.bump x i n).itinMode = d.itinMode := rfl
@[simp] theorem bump_profile (x : Fld) (i n : Nat) : (d.bump x i n).profile = d.profile := rfl
@[simp] theorem bump_shadowAt (x : Fld) (i n : Nat) : (d.bump x i n).shadowAt = d.shadowAt := rfl
@[simp] theorem bump_tb (x : Fld) (i n : Nat) : (d.bump x i n).tb = d.tb := rfl
@[simp] theorem bump_out (x : Fld) (i n : Nat) : (d.bump x i n).out = d.out := rfl
@[simp] theorem bump_ctlQ (x : Fld) (i n : Nat) : (d.bump x i n).ctlQ = d.ctlQ := rfl
@[simp] theorem bump_anchorQ (x : Fld) (i n : Nat) : (d.bump x i n).anchorQ = d.anchorQ := rfl
@[simp] theorem bump_rings (x : Fld) (i n : Nat) : (d.bump x i n).rings = d.rings := rfl
@[simp] theorem bump_cqs (x : Fld) (i n : Nat) : (d.bump x i n).cqs = d.cqs := rfl
@[simp] theorem bump_msix (x : Fld) (i n : Nat) : (d.bump x i n).msix = d.msix := rfl
@[simp] theorem bump_wrr (x : Fld) (i n : Nat) : (d.bump x i n).wrr = d.wrr := rfl
@[simp] theorem bump_ops (x : Fld) (i n : Nat) : (d.bump x i n).ops = d.ops := rfl
@[simp] theorem bump_atomics (x : Fld) (i n : Nat) : (d.bump x i n).atomics = d.atomics := rfl
@[simp] theorem bump_reqs (x : Fld) (i n : Nat) : (d.bump x i n).reqs = d.reqs := rfl
@[simp] theorem bump_segSeen (x : Fld) (i n : Nat) : (d.bump x i n).segSeen = d.segSeen := rfl
@[simp] theorem bump_nextTag (x : Fld) (i n : Nat) : (d.bump x i n).nextTag = d.nextTag := rfl
@[simp] theorem bump_couriers (x : Fld) (i n : Nat) : (d.bump x i n).couriers = d.couriers := rfl
@[simp] theorem bump_portQ (x : Fld) (i n : Nat) : (d.bump x i n).portQ = d.portQ := rfl
@[simp] theorem bump_ptpQ (x : Fld) (i n : Nat) : (d.bump x i n).ptpQ = d.ptpQ := rfl
@[simp] theorem bump_wfq (x : Fld) (i n : Nat) : (d.bump x i n).wfq = d.wfq := rfl
@[simp] theorem bump_meters (x : Fld) (i n : Nat) : (d.bump x i n).meters = d.meters := rfl
@[simp] theorem bump_limiters (x : Fld) (i n : Nat) : (d.bump x i n).limiters = d.limiters := rfl
@[simp] theorem bump_hsSeen (x : Fld) (i n : Nat) : (d.bump x i n).hsSeen = d.hsSeen := rfl
@[simp] theorem bump_colls (x : Fld) (i n : Nat) : (d.bump x i n).colls = d.colls := rfl
@[simp] theorem bump_laneHits (x : Fld) (i n : Nat) : (d.bump x i n).laneHits = d.laneHits := rfl
@[simp] theorem bump_deadColls (x : Fld) (i n : Nat) : (d.bump x i n).deadColls = d.deadColls := rfl
@[simp] theorem bump_collEnds (x : Fld) (i n : Nat) : (d.bump x i n).collEnds = d.collEnds := rfl
@[simp] theorem bump_raceWins (x : Fld) (i n : Nat) : (d.bump x i n).raceWins = d.raceWins := rfl
@[simp] theorem bump_earlyRefs (x : Fld) (i n : Nat) : (d.bump x i n).earlyRefs = d.earlyRefs := rfl
@[simp] theorem bump_endNotices (x : Fld) (i n : Nat) : (d.bump x i n).endNotices = d.endNotices := rfl
@[simp] theorem bump_codecImg (x : Fld) (i n : Nat) : (d.bump x i n).codecImg = d.codecImg := rfl
@[simp] theorem bump_hists (x : Fld) (i n : Nat) : (d.bump x i n).hists = d.hists := rfl
@[simp] theorem bump_histPend (x : Fld) (i n : Nat) : (d.bump x i n).histPend = d.histPend := rfl
@[simp] theorem bump_pubs (x : Fld) (i n : Nat) : (d.bump x i n).pubs = d.pubs := rfl
@[simp] theorem bump_reserves (x : Fld) (i n : Nat) : (d.bump x i n).reserves = d.reserves := rfl
@[simp] theorem bump_pubTxn (x : Fld) (i n : Nat) : (d.bump x i n).pubTxn = d.pubTxn := rfl
@[simp] theorem bump_staged (x : Fld) (i n : Nat) : (d.bump x i n).staged = d.staged := rfl
@[simp] theorem bump_stageReq (x : Fld) (i n : Nat) : (d.bump x i n).stageReq = d.stageReq := rfl
@[simp] theorem bump_deltasOut (x : Fld) (i n : Nat) : (d.bump x i n).deltasOut = d.deltasOut := rfl
@[simp] theorem bump_deltasIn (x : Fld) (i n : Nat) : (d.bump x i n).deltasIn = d.deltasIn := rfl
@[simp] theorem bump_ctxs (x : Fld) (i n : Nat) : (d.bump x i n).ctxs = d.ctxs := rfl
@[simp] theorem bump_heldAccedes (x : Fld) (i n : Nat) : (d.bump x i n).heldAccedes = d.heldAccedes := rfl
@[simp] theorem bump_bpmBits (x : Fld) (i n : Nat) : (d.bump x i n).bpmBits = d.bpmBits := rfl
@[simp] theorem bump_annexUsed (x : Fld) (i n : Nat) : (d.bump x i n).annexUsed = d.annexUsed := rfl
@[simp] theorem bump_annexHeld (x : Fld) (i n : Nat) : (d.bump x i n).annexHeld = d.annexHeld := rfl
@[simp] theorem bump_hashKeys (x : Fld) (i n : Nat) : (d.bump x i n).hashKeys = d.hashKeys := rfl
@[simp] theorem bump_resilver (x : Fld) (i n : Nat) : (d.bump x i n).resilver = d.resilver := rfl
@[simp] theorem bump_tourWait (x : Fld) (i n : Nat) : (d.bump x i n).tourWait = d.tourWait := rfl
@[simp] theorem bump_tbRem (x : Fld) (i n : Nat) : (d.bump x i n).tbRem = d.tbRem := rfl
@[simp] theorem bump_slew (x : Fld) (i n : Nat) : (d.bump x i n).slew = d.slew := rfl
@[simp] theorem bump_servos (x : Fld) (i n : Nat) : (d.bump x i n).servos = d.servos := rfl
@[simp] theorem bump_slaves (x : Fld) (i n : Nat) : (d.bump x i n).slaves = d.slaves := rfl
@[simp] theorem bump_marks (x : Fld) (i n : Nat) : (d.bump x i n).marks = d.marks := rfl
@[simp] theorem bump_linkDelay (x : Fld) (i n : Nat) : (d.bump x i n).linkDelay = d.linkDelay := rfl
@[simp] theorem bump_ptpSeq (x : Fld) (i n : Nat) : (d.bump x i n).ptpSeq = d.ptpSeq := rfl
@[simp] theorem bump_ptpCount (x : Fld) (i n : Nat) : (d.bump x i n).ptpCount = d.ptpCount := rfl
@[simp] theorem bump_ppsDone (x : Fld) (i n : Nat) : (d.bump x i n).ppsDone = d.ppsDone := rfl
@[simp] theorem bump_ppsEdge (x : Fld) (i n : Nat) : (d.bump x i n).ppsEdge = d.ppsEdge := rfl
@[simp] theorem bump_refLost (x : Fld) (i n : Nat) : (d.bump x i n).refLost = d.refLost := rfl
@[simp] theorem bump_cdReports (x : Fld) (i n : Nat) : (d.bump x i n).cdReports = d.cdReports := rfl
@[simp] theorem bump_heard (x : Fld) (i n : Nat) : (d.bump x i n).heard = d.heard := rfl
@[simp] theorem bump_cats (x : Fld) (i n : Nat) : (d.bump x i n).cats = d.cats := rfl
@[simp] theorem bump_pages (x : Fld) (i n : Nat) : (d.bump x i n).pages = d.pages := rfl
@[simp] theorem bump_catHeld (x : Fld) (i n : Nat) : (d.bump x i n).catHeld = d.catHeld := rfl
@[simp] theorem bump_rotaDone (x : Fld) (i n : Nat) : (d.bump x i n).rotaDone = d.rotaDone := rfl
@[simp] theorem bump_catHold (x : Fld) (i n : Nat) : (d.bump x i n).catHold = d.catHold := rfl
@[simp] theorem bump_scheds (x : Fld) (i n : Nat) : (d.bump x i n).scheds = d.scheds := rfl
@[simp] theorem bump_returnsTx (x : Fld) (i n : Nat) : (d.bump x i n).returnsTx = d.returnsTx := rfl
@[simp] theorem bump_returnsRx (x : Fld) (i n : Nat) : (d.bump x i n).returnsRx = d.returnsRx := rfl
@[simp] theorem bump_itinRuns (x : Fld) (i n : Nat) : (d.bump x i n).itinRuns = d.itinRuns := rfl
@[simp] theorem bump_parkTx (x : Fld) (i n : Nat) : (d.bump x i n).parkTx = d.parkTx := rfl
@[simp] theorem bump_parkRx (x : Fld) (i n : Nat) : (d.bump x i n).parkRx = d.parkRx := rfl
@[simp] theorem bump_cancelTx (x : Fld) (i n : Nat) : (d.bump x i n).cancelTx = d.cancelTx := rfl
@[simp] theorem bump_dMean (x : Fld) (i n : Nat) : (d.bump x i n).dMean = d.dMean := rfl
@[simp] theorem bump_kw (x : Fld) (i n : Nat) : (d.bump x i n).kw = d.kw := rfl
@[simp] theorem bump_paths (x : Fld) (i n : Nat) : (d.bump x i n).paths = d.paths := rfl
@[simp] theorem bump_faSettled (x : Fld) (i n : Nat) : (d.bump x i n).faSettled = d.faSettled := rfl
@[simp] theorem bump_engDark (x : Fld) (i n : Nat) : (d.bump x i n).engDark = d.engDark := rfl
@[simp] theorem bump_lines (x : Fld) (i n : Nat) : (d.bump x i n).lines = d.lines := rfl
@[simp] theorem bump_beiCnt (x : Fld) (i n : Nat) : (d.bump x i n).beiCnt = d.beiCnt := rfl
@[simp] theorem bump_pm (x : Fld) (i n : Nat) : (d.bump x i n).pm = d.pm := rfl
@[simp] theorem bump_ctlKeys (x : Fld) (i n : Nat) : (d.bump x i n).ctlKeys = d.ctlKeys := rfl
@[simp] theorem bump_halves (x : Fld) (i n : Nat) : (d.bump x i n).halves = d.halves := rfl
@[simp] theorem bump_binds (x : Fld) (i n : Nat) : (d.bump x i n).binds = d.binds := rfl
@[simp] theorem bump_keks (x : Fld) (i n : Nat) : (d.bump x i n).keks = d.keks := rfl
@[simp] theorem bump_quarTimes (x : Fld) (i n : Nat) : (d.bump x i n).quarTimes = d.quarTimes := rfl
@[simp] theorem bump_seals (x : Fld) (i n : Nat) : (d.bump x i n).seals = d.seals := rfl
@[simp] theorem bump_sealRx (x : Fld) (i n : Nat) : (d.bump x i n).sealRx = d.sealRx := rfl
@[simp] theorem bump_sealAt (x : Fld) (i n : Nat) : (d.bump x i n).sealAt = d.sealAt := rfl
@[simp] theorem bump_cred (x : Fld) (i n : Nat) : (d.bump x i n).cred = d.cred := rfl
@[simp] theorem bump_dbgNonce (x : Fld) (i n : Nat) : (d.bump x i n).dbgNonce = d.dbgNonce := rfl
@[simp] theorem bump_trngCtr (x : Fld) (i n : Nat) : (d.bump x i n).trngCtr = d.trngCtr := rfl
@[simp] theorem bump_storageKey (x : Fld) (i n : Nat) : (d.bump x i n).storageKey = d.storageKey := rfl
@[simp] theorem bump_meas (x : Fld) (i n : Nat) : (d.bump x i n).meas = d.meas := rfl
@[simp] theorem bump_loadRes (x : Fld) (i n : Nat) : (d.bump x i n).loadRes = d.loadRes := rfl
@[simp] theorem bump_loadRecs (x : Fld) (i n : Nat) : (d.bump x i n).loadRecs = d.loadRecs := rfl
@[simp] theorem bump_clusterFence (x : Fld) (i n : Nat) : (d.bump x i n).clusterFence = d.clusterFence := rfl
@[simp] theorem bump_gateReq (x : Fld) (i n : Nat) : (d.bump x i n).gateReq = d.gateReq := rfl
@[simp] theorem bump_gateAt (x : Fld) (i n : Nat) : (d.bump x i n).gateAt = d.gateAt := rfl
@[simp] theorem bump_ringFlits (x : Fld) (i n : Nat) : (d.bump x i n).ringFlits = d.ringFlits := rfl
@[simp] theorem bump_ringWait (x : Fld) (i n : Nat) : (d.bump x i n).ringWait = d.ringWait := rfl
@[simp] theorem bump_ringTurn (x : Fld) (i n : Nat) : (d.bump x i n).ringTurn = d.ringTurn := rfl
@[simp] theorem bump_skewRuns (x : Fld) (i n : Nat) : (d.bump x i n).skewRuns = d.skewRuns := rfl
@[simp] theorem bump_pcieUp (x : Fld) (i n : Nat) : (d.bump x i n).pcieUp = d.pcieUp := rfl
@[simp] theorem bump_bars (x : Fld) (i n : Nat) : (d.bump x i n).bars = d.bars := rfl
@[simp] theorem bump_released (x : Fld) (i n : Nat) : (d.bump x i n).released = d.released := rfl
@[simp] theorem bump_rstAt (x : Fld) (i n : Nat) : (d.bump x i n).rstAt = d.rstAt := rfl
@[simp] theorem bump_railsBad (x : Fld) (i n : Nat) : (d.bump x i n).railsBad = d.railsBad := rfl
@[simp] theorem bump_loadingAt (x : Fld) (i n : Nat) : (d.bump x i n).loadingAt = d.loadingAt := rfl
@[simp] theorem bump_inReset (x : Fld) (i n : Nat) : (d.bump x i n).inReset = d.inReset := rfl
@[simp] theorem bump_partOk (x : Fld) (i n : Nat) : (d.bump x i n).partOk = d.partOk := rfl
@[simp] theorem bump_enHeld (x : Fld) (i n : Nat) : (d.bump x i n).enHeld = d.enHeld := rfl
@[simp] theorem bump_throttled (x : Fld) (i n : Nat) : (d.bump x i n).throttled = d.throttled := rfl
@[simp] theorem bump_thermN (x : Fld) (i n : Nat) : (d.bump x i n).thermN = d.thermN := rfl
@[simp] theorem bump_alertN (x : Fld) (i n : Nat) : (d.bump x i n).alertN = d.alertN := rfl
@[simp] theorem bump_mailbox (x : Fld) (i n : Nat) : (d.bump x i n).mailbox = d.mailbox := rfl
@[simp] theorem bump_slotBad (x : Fld) (i n : Nat) : (d.bump x i n).slotBad = d.slotBad := rfl
@[simp] theorem bump_alarms (x : Fld) (i n : Nat) : (d.bump x i n).alarms = d.alarms := rfl
@[simp] theorem bump_overflow (x : Fld) (i n : Nat) : (d.bump x i n).overflow = d.overflow := rfl
@[simp] theorem bump_alarmSeq (x : Fld) (i n : Nat) : (d.bump x i n).alarmSeq = d.alarmSeq := rfl
@[simp] theorem bump_fwLog (x : Fld) (i n : Nat) : (d.bump x i n).fwLog = d.fwLog := rfl
@[simp] theorem bump_peers (x : Fld) (i n : Nat) : (d.bump x i n).peers = d.peers := rfl
@[simp] theorem bump_recovery (x : Fld) (i n : Nat) : (d.bump x i n).recovery = d.recovery := rfl
@[simp] theorem bump_margins (x : Fld) (i n : Nat) : (d.bump x i n).margins = d.margins := rfl
@[simp] theorem bump_rails (x : Fld) (i n : Nat) : (d.bump x i n).rails = d.rails := rfl
@[simp] theorem bump_railNak (x : Fld) (i n : Nat) : (d.bump x i n).railNak = d.railNak := rfl

/-! emit changes out alone -/

@[simp] theorem emit_words (o : Out) : (d.emit o).words = d.words := rfl
@[simp] theorem emit_now (o : Out) : (d.emit o).now = d.now := rfl
@[simp] theorem emit_freeCtr (o : Out) : (d.emit o).freeCtr = d.freeCtr := rfl
@[simp] theorem emit_provMode (o : Out) : (d.emit o).provMode = d.provMode := rfl
@[simp] theorem emit_itinMode (o : Out) : (d.emit o).itinMode = d.itinMode := rfl
@[simp] theorem emit_profile (o : Out) : (d.emit o).profile = d.profile := rfl
@[simp] theorem emit_shadowAt (o : Out) : (d.emit o).shadowAt = d.shadowAt := rfl
@[simp] theorem emit_tb (o : Out) : (d.emit o).tb = d.tb := rfl
@[simp] theorem emit_ctlQ (o : Out) : (d.emit o).ctlQ = d.ctlQ := rfl
@[simp] theorem emit_anchorQ (o : Out) : (d.emit o).anchorQ = d.anchorQ := rfl
@[simp] theorem emit_rings (o : Out) : (d.emit o).rings = d.rings := rfl
@[simp] theorem emit_cqs (o : Out) : (d.emit o).cqs = d.cqs := rfl
@[simp] theorem emit_msix (o : Out) : (d.emit o).msix = d.msix := rfl
@[simp] theorem emit_wrr (o : Out) : (d.emit o).wrr = d.wrr := rfl
@[simp] theorem emit_ops (o : Out) : (d.emit o).ops = d.ops := rfl
@[simp] theorem emit_atomics (o : Out) : (d.emit o).atomics = d.atomics := rfl
@[simp] theorem emit_reqs (o : Out) : (d.emit o).reqs = d.reqs := rfl
@[simp] theorem emit_segSeen (o : Out) : (d.emit o).segSeen = d.segSeen := rfl
@[simp] theorem emit_nextTag (o : Out) : (d.emit o).nextTag = d.nextTag := rfl
@[simp] theorem emit_couriers (o : Out) : (d.emit o).couriers = d.couriers := rfl
@[simp] theorem emit_portQ (o : Out) : (d.emit o).portQ = d.portQ := rfl
@[simp] theorem emit_ptpQ (o : Out) : (d.emit o).ptpQ = d.ptpQ := rfl
@[simp] theorem emit_wfq (o : Out) : (d.emit o).wfq = d.wfq := rfl
@[simp] theorem emit_meters (o : Out) : (d.emit o).meters = d.meters := rfl
@[simp] theorem emit_limiters (o : Out) : (d.emit o).limiters = d.limiters := rfl
@[simp] theorem emit_hsSeen (o : Out) : (d.emit o).hsSeen = d.hsSeen := rfl
@[simp] theorem emit_colls (o : Out) : (d.emit o).colls = d.colls := rfl
@[simp] theorem emit_laneHits (o : Out) : (d.emit o).laneHits = d.laneHits := rfl
@[simp] theorem emit_deadColls (o : Out) : (d.emit o).deadColls = d.deadColls := rfl
@[simp] theorem emit_collEnds (o : Out) : (d.emit o).collEnds = d.collEnds := rfl
@[simp] theorem emit_raceWins (o : Out) : (d.emit o).raceWins = d.raceWins := rfl
@[simp] theorem emit_earlyRefs (o : Out) : (d.emit o).earlyRefs = d.earlyRefs := rfl
@[simp] theorem emit_endNotices (o : Out) : (d.emit o).endNotices = d.endNotices := rfl
@[simp] theorem emit_codecImg (o : Out) : (d.emit o).codecImg = d.codecImg := rfl
@[simp] theorem emit_hists (o : Out) : (d.emit o).hists = d.hists := rfl
@[simp] theorem emit_histPend (o : Out) : (d.emit o).histPend = d.histPend := rfl
@[simp] theorem emit_pubs (o : Out) : (d.emit o).pubs = d.pubs := rfl
@[simp] theorem emit_reserves (o : Out) : (d.emit o).reserves = d.reserves := rfl
@[simp] theorem emit_pubTxn (o : Out) : (d.emit o).pubTxn = d.pubTxn := rfl
@[simp] theorem emit_staged (o : Out) : (d.emit o).staged = d.staged := rfl
@[simp] theorem emit_stageReq (o : Out) : (d.emit o).stageReq = d.stageReq := rfl
@[simp] theorem emit_deltasOut (o : Out) : (d.emit o).deltasOut = d.deltasOut := rfl
@[simp] theorem emit_deltasIn (o : Out) : (d.emit o).deltasIn = d.deltasIn := rfl
@[simp] theorem emit_ctxs (o : Out) : (d.emit o).ctxs = d.ctxs := rfl
@[simp] theorem emit_heldAccedes (o : Out) : (d.emit o).heldAccedes = d.heldAccedes := rfl
@[simp] theorem emit_bpmBits (o : Out) : (d.emit o).bpmBits = d.bpmBits := rfl
@[simp] theorem emit_annexUsed (o : Out) : (d.emit o).annexUsed = d.annexUsed := rfl
@[simp] theorem emit_annexHeld (o : Out) : (d.emit o).annexHeld = d.annexHeld := rfl
@[simp] theorem emit_hashKeys (o : Out) : (d.emit o).hashKeys = d.hashKeys := rfl
@[simp] theorem emit_resilver (o : Out) : (d.emit o).resilver = d.resilver := rfl
@[simp] theorem emit_tourWait (o : Out) : (d.emit o).tourWait = d.tourWait := rfl
@[simp] theorem emit_tbRem (o : Out) : (d.emit o).tbRem = d.tbRem := rfl
@[simp] theorem emit_slew (o : Out) : (d.emit o).slew = d.slew := rfl
@[simp] theorem emit_servos (o : Out) : (d.emit o).servos = d.servos := rfl
@[simp] theorem emit_slaves (o : Out) : (d.emit o).slaves = d.slaves := rfl
@[simp] theorem emit_marks (o : Out) : (d.emit o).marks = d.marks := rfl
@[simp] theorem emit_linkDelay (o : Out) : (d.emit o).linkDelay = d.linkDelay := rfl
@[simp] theorem emit_ptpSeq (o : Out) : (d.emit o).ptpSeq = d.ptpSeq := rfl
@[simp] theorem emit_ptpCount (o : Out) : (d.emit o).ptpCount = d.ptpCount := rfl
@[simp] theorem emit_ppsDone (o : Out) : (d.emit o).ppsDone = d.ppsDone := rfl
@[simp] theorem emit_ppsEdge (o : Out) : (d.emit o).ppsEdge = d.ppsEdge := rfl
@[simp] theorem emit_refLost (o : Out) : (d.emit o).refLost = d.refLost := rfl
@[simp] theorem emit_cdReports (o : Out) : (d.emit o).cdReports = d.cdReports := rfl
@[simp] theorem emit_heard (o : Out) : (d.emit o).heard = d.heard := rfl
@[simp] theorem emit_cats (o : Out) : (d.emit o).cats = d.cats := rfl
@[simp] theorem emit_pages (o : Out) : (d.emit o).pages = d.pages := rfl
@[simp] theorem emit_catHeld (o : Out) : (d.emit o).catHeld = d.catHeld := rfl
@[simp] theorem emit_rotaDone (o : Out) : (d.emit o).rotaDone = d.rotaDone := rfl
@[simp] theorem emit_catHold (o : Out) : (d.emit o).catHold = d.catHold := rfl
@[simp] theorem emit_scheds (o : Out) : (d.emit o).scheds = d.scheds := rfl
@[simp] theorem emit_returnsTx (o : Out) : (d.emit o).returnsTx = d.returnsTx := rfl
@[simp] theorem emit_returnsRx (o : Out) : (d.emit o).returnsRx = d.returnsRx := rfl
@[simp] theorem emit_itinRuns (o : Out) : (d.emit o).itinRuns = d.itinRuns := rfl
@[simp] theorem emit_parkTx (o : Out) : (d.emit o).parkTx = d.parkTx := rfl
@[simp] theorem emit_parkRx (o : Out) : (d.emit o).parkRx = d.parkRx := rfl
@[simp] theorem emit_cancelTx (o : Out) : (d.emit o).cancelTx = d.cancelTx := rfl
@[simp] theorem emit_dMean (o : Out) : (d.emit o).dMean = d.dMean := rfl
@[simp] theorem emit_kw (o : Out) : (d.emit o).kw = d.kw := rfl
@[simp] theorem emit_paths (o : Out) : (d.emit o).paths = d.paths := rfl
@[simp] theorem emit_faSettled (o : Out) : (d.emit o).faSettled = d.faSettled := rfl
@[simp] theorem emit_engDark (o : Out) : (d.emit o).engDark = d.engDark := rfl
@[simp] theorem emit_lines (o : Out) : (d.emit o).lines = d.lines := rfl
@[simp] theorem emit_beiCnt (o : Out) : (d.emit o).beiCnt = d.beiCnt := rfl
@[simp] theorem emit_pm (o : Out) : (d.emit o).pm = d.pm := rfl
@[simp] theorem emit_ctlKeys (o : Out) : (d.emit o).ctlKeys = d.ctlKeys := rfl
@[simp] theorem emit_halves (o : Out) : (d.emit o).halves = d.halves := rfl
@[simp] theorem emit_binds (o : Out) : (d.emit o).binds = d.binds := rfl
@[simp] theorem emit_keks (o : Out) : (d.emit o).keks = d.keks := rfl
@[simp] theorem emit_quarTimes (o : Out) : (d.emit o).quarTimes = d.quarTimes := rfl
@[simp] theorem emit_seals (o : Out) : (d.emit o).seals = d.seals := rfl
@[simp] theorem emit_sealRx (o : Out) : (d.emit o).sealRx = d.sealRx := rfl
@[simp] theorem emit_sealAt (o : Out) : (d.emit o).sealAt = d.sealAt := rfl
@[simp] theorem emit_cred (o : Out) : (d.emit o).cred = d.cred := rfl
@[simp] theorem emit_dbgNonce (o : Out) : (d.emit o).dbgNonce = d.dbgNonce := rfl
@[simp] theorem emit_trngCtr (o : Out) : (d.emit o).trngCtr = d.trngCtr := rfl
@[simp] theorem emit_storageKey (o : Out) : (d.emit o).storageKey = d.storageKey := rfl
@[simp] theorem emit_meas (o : Out) : (d.emit o).meas = d.meas := rfl
@[simp] theorem emit_loadRes (o : Out) : (d.emit o).loadRes = d.loadRes := rfl
@[simp] theorem emit_loadRecs (o : Out) : (d.emit o).loadRecs = d.loadRecs := rfl
@[simp] theorem emit_clusterFence (o : Out) : (d.emit o).clusterFence = d.clusterFence := rfl
@[simp] theorem emit_gateReq (o : Out) : (d.emit o).gateReq = d.gateReq := rfl
@[simp] theorem emit_gateAt (o : Out) : (d.emit o).gateAt = d.gateAt := rfl
@[simp] theorem emit_ringFlits (o : Out) : (d.emit o).ringFlits = d.ringFlits := rfl
@[simp] theorem emit_ringWait (o : Out) : (d.emit o).ringWait = d.ringWait := rfl
@[simp] theorem emit_ringTurn (o : Out) : (d.emit o).ringTurn = d.ringTurn := rfl
@[simp] theorem emit_skewRuns (o : Out) : (d.emit o).skewRuns = d.skewRuns := rfl
@[simp] theorem emit_pcieUp (o : Out) : (d.emit o).pcieUp = d.pcieUp := rfl
@[simp] theorem emit_bars (o : Out) : (d.emit o).bars = d.bars := rfl
@[simp] theorem emit_released (o : Out) : (d.emit o).released = d.released := rfl
@[simp] theorem emit_rstAt (o : Out) : (d.emit o).rstAt = d.rstAt := rfl
@[simp] theorem emit_railsBad (o : Out) : (d.emit o).railsBad = d.railsBad := rfl
@[simp] theorem emit_loadingAt (o : Out) : (d.emit o).loadingAt = d.loadingAt := rfl
@[simp] theorem emit_inReset (o : Out) : (d.emit o).inReset = d.inReset := rfl
@[simp] theorem emit_partOk (o : Out) : (d.emit o).partOk = d.partOk := rfl
@[simp] theorem emit_enHeld (o : Out) : (d.emit o).enHeld = d.enHeld := rfl
@[simp] theorem emit_throttled (o : Out) : (d.emit o).throttled = d.throttled := rfl
@[simp] theorem emit_thermN (o : Out) : (d.emit o).thermN = d.thermN := rfl
@[simp] theorem emit_alertN (o : Out) : (d.emit o).alertN = d.alertN := rfl
@[simp] theorem emit_mailbox (o : Out) : (d.emit o).mailbox = d.mailbox := rfl
@[simp] theorem emit_slotBad (o : Out) : (d.emit o).slotBad = d.slotBad := rfl
@[simp] theorem emit_alarms (o : Out) : (d.emit o).alarms = d.alarms := rfl
@[simp] theorem emit_overflow (o : Out) : (d.emit o).overflow = d.overflow := rfl
@[simp] theorem emit_alarmSeq (o : Out) : (d.emit o).alarmSeq = d.alarmSeq := rfl
@[simp] theorem emit_fwLog (o : Out) : (d.emit o).fwLog = d.fwLog := rfl
@[simp] theorem emit_peers (o : Out) : (d.emit o).peers = d.peers := rfl
@[simp] theorem emit_recovery (o : Out) : (d.emit o).recovery = d.recovery := rfl
@[simp] theorem emit_margins (o : Out) : (d.emit o).margins = d.margins := rfl
@[simp] theorem emit_rails (o : Out) : (d.emit o).rails = d.rails := rfl
@[simp] theorem emit_railNak (o : Out) : (d.emit o).railNak = d.railNak := rfl
@[simp] theorem emit_f (o : Out) (z : Fld) (j : Nat) : (d.emit o).f z j = d.f z j := rfl
@[simp] theorem emit_on (o : Out) (z : Fld) (j : Nat) : (d.emit o).on z j = d.on z j := rfl
@[simp] theorem emit_word (o : Out) (k' : Nat) : (d.emit o).word k' = d.word k' := rfl

/-! setCtx changes ctxs alone -/

@[simp] theorem setCtx_words (c : Nat) (y : Ctx) : (d.setCtx c y).words = d.words := rfl
@[simp] theorem setCtx_now (c : Nat) (y : Ctx) : (d.setCtx c y).now = d.now := rfl
@[simp] theorem setCtx_freeCtr (c : Nat) (y : Ctx) : (d.setCtx c y).freeCtr = d.freeCtr := rfl
@[simp] theorem setCtx_provMode (c : Nat) (y : Ctx) : (d.setCtx c y).provMode = d.provMode := rfl
@[simp] theorem setCtx_itinMode (c : Nat) (y : Ctx) : (d.setCtx c y).itinMode = d.itinMode := rfl
@[simp] theorem setCtx_profile (c : Nat) (y : Ctx) : (d.setCtx c y).profile = d.profile := rfl
@[simp] theorem setCtx_shadowAt (c : Nat) (y : Ctx) : (d.setCtx c y).shadowAt = d.shadowAt := rfl
@[simp] theorem setCtx_tb (c : Nat) (y : Ctx) : (d.setCtx c y).tb = d.tb := rfl
@[simp] theorem setCtx_out (c : Nat) (y : Ctx) : (d.setCtx c y).out = d.out := rfl
@[simp] theorem setCtx_ctlQ (c : Nat) (y : Ctx) : (d.setCtx c y).ctlQ = d.ctlQ := rfl
@[simp] theorem setCtx_anchorQ (c : Nat) (y : Ctx) : (d.setCtx c y).anchorQ = d.anchorQ := rfl
@[simp] theorem setCtx_rings (c : Nat) (y : Ctx) : (d.setCtx c y).rings = d.rings := rfl
@[simp] theorem setCtx_cqs (c : Nat) (y : Ctx) : (d.setCtx c y).cqs = d.cqs := rfl
@[simp] theorem setCtx_msix (c : Nat) (y : Ctx) : (d.setCtx c y).msix = d.msix := rfl
@[simp] theorem setCtx_wrr (c : Nat) (y : Ctx) : (d.setCtx c y).wrr = d.wrr := rfl
@[simp] theorem setCtx_ops (c : Nat) (y : Ctx) : (d.setCtx c y).ops = d.ops := rfl
@[simp] theorem setCtx_atomics (c : Nat) (y : Ctx) : (d.setCtx c y).atomics = d.atomics := rfl
@[simp] theorem setCtx_reqs (c : Nat) (y : Ctx) : (d.setCtx c y).reqs = d.reqs := rfl
@[simp] theorem setCtx_segSeen (c : Nat) (y : Ctx) : (d.setCtx c y).segSeen = d.segSeen := rfl
@[simp] theorem setCtx_nextTag (c : Nat) (y : Ctx) : (d.setCtx c y).nextTag = d.nextTag := rfl
@[simp] theorem setCtx_couriers (c : Nat) (y : Ctx) : (d.setCtx c y).couriers = d.couriers := rfl
@[simp] theorem setCtx_portQ (c : Nat) (y : Ctx) : (d.setCtx c y).portQ = d.portQ := rfl
@[simp] theorem setCtx_ptpQ (c : Nat) (y : Ctx) : (d.setCtx c y).ptpQ = d.ptpQ := rfl
@[simp] theorem setCtx_wfq (c : Nat) (y : Ctx) : (d.setCtx c y).wfq = d.wfq := rfl
@[simp] theorem setCtx_meters (c : Nat) (y : Ctx) : (d.setCtx c y).meters = d.meters := rfl
@[simp] theorem setCtx_limiters (c : Nat) (y : Ctx) : (d.setCtx c y).limiters = d.limiters := rfl
@[simp] theorem setCtx_hsSeen (c : Nat) (y : Ctx) : (d.setCtx c y).hsSeen = d.hsSeen := rfl
@[simp] theorem setCtx_colls (c : Nat) (y : Ctx) : (d.setCtx c y).colls = d.colls := rfl
@[simp] theorem setCtx_laneHits (c : Nat) (y : Ctx) : (d.setCtx c y).laneHits = d.laneHits := rfl
@[simp] theorem setCtx_deadColls (c : Nat) (y : Ctx) : (d.setCtx c y).deadColls = d.deadColls := rfl
@[simp] theorem setCtx_collEnds (c : Nat) (y : Ctx) : (d.setCtx c y).collEnds = d.collEnds := rfl
@[simp] theorem setCtx_raceWins (c : Nat) (y : Ctx) : (d.setCtx c y).raceWins = d.raceWins := rfl
@[simp] theorem setCtx_earlyRefs (c : Nat) (y : Ctx) : (d.setCtx c y).earlyRefs = d.earlyRefs := rfl
@[simp] theorem setCtx_endNotices (c : Nat) (y : Ctx) : (d.setCtx c y).endNotices = d.endNotices := rfl
@[simp] theorem setCtx_codecImg (c : Nat) (y : Ctx) : (d.setCtx c y).codecImg = d.codecImg := rfl
@[simp] theorem setCtx_hists (c : Nat) (y : Ctx) : (d.setCtx c y).hists = d.hists := rfl
@[simp] theorem setCtx_histPend (c : Nat) (y : Ctx) : (d.setCtx c y).histPend = d.histPend := rfl
@[simp] theorem setCtx_pubs (c : Nat) (y : Ctx) : (d.setCtx c y).pubs = d.pubs := rfl
@[simp] theorem setCtx_reserves (c : Nat) (y : Ctx) : (d.setCtx c y).reserves = d.reserves := rfl
@[simp] theorem setCtx_pubTxn (c : Nat) (y : Ctx) : (d.setCtx c y).pubTxn = d.pubTxn := rfl
@[simp] theorem setCtx_staged (c : Nat) (y : Ctx) : (d.setCtx c y).staged = d.staged := rfl
@[simp] theorem setCtx_stageReq (c : Nat) (y : Ctx) : (d.setCtx c y).stageReq = d.stageReq := rfl
@[simp] theorem setCtx_deltasOut (c : Nat) (y : Ctx) : (d.setCtx c y).deltasOut = d.deltasOut := rfl
@[simp] theorem setCtx_deltasIn (c : Nat) (y : Ctx) : (d.setCtx c y).deltasIn = d.deltasIn := rfl
@[simp] theorem setCtx_heldAccedes (c : Nat) (y : Ctx) : (d.setCtx c y).heldAccedes = d.heldAccedes := rfl
@[simp] theorem setCtx_bpmBits (c : Nat) (y : Ctx) : (d.setCtx c y).bpmBits = d.bpmBits := rfl
@[simp] theorem setCtx_annexUsed (c : Nat) (y : Ctx) : (d.setCtx c y).annexUsed = d.annexUsed := rfl
@[simp] theorem setCtx_annexHeld (c : Nat) (y : Ctx) : (d.setCtx c y).annexHeld = d.annexHeld := rfl
@[simp] theorem setCtx_hashKeys (c : Nat) (y : Ctx) : (d.setCtx c y).hashKeys = d.hashKeys := rfl
@[simp] theorem setCtx_resilver (c : Nat) (y : Ctx) : (d.setCtx c y).resilver = d.resilver := rfl
@[simp] theorem setCtx_tourWait (c : Nat) (y : Ctx) : (d.setCtx c y).tourWait = d.tourWait := rfl
@[simp] theorem setCtx_tbRem (c : Nat) (y : Ctx) : (d.setCtx c y).tbRem = d.tbRem := rfl
@[simp] theorem setCtx_slew (c : Nat) (y : Ctx) : (d.setCtx c y).slew = d.slew := rfl
@[simp] theorem setCtx_servos (c : Nat) (y : Ctx) : (d.setCtx c y).servos = d.servos := rfl
@[simp] theorem setCtx_slaves (c : Nat) (y : Ctx) : (d.setCtx c y).slaves = d.slaves := rfl
@[simp] theorem setCtx_marks (c : Nat) (y : Ctx) : (d.setCtx c y).marks = d.marks := rfl
@[simp] theorem setCtx_linkDelay (c : Nat) (y : Ctx) : (d.setCtx c y).linkDelay = d.linkDelay := rfl
@[simp] theorem setCtx_ptpSeq (c : Nat) (y : Ctx) : (d.setCtx c y).ptpSeq = d.ptpSeq := rfl
@[simp] theorem setCtx_ptpCount (c : Nat) (y : Ctx) : (d.setCtx c y).ptpCount = d.ptpCount := rfl
@[simp] theorem setCtx_ppsDone (c : Nat) (y : Ctx) : (d.setCtx c y).ppsDone = d.ppsDone := rfl
@[simp] theorem setCtx_ppsEdge (c : Nat) (y : Ctx) : (d.setCtx c y).ppsEdge = d.ppsEdge := rfl
@[simp] theorem setCtx_refLost (c : Nat) (y : Ctx) : (d.setCtx c y).refLost = d.refLost := rfl
@[simp] theorem setCtx_cdReports (c : Nat) (y : Ctx) : (d.setCtx c y).cdReports = d.cdReports := rfl
@[simp] theorem setCtx_heard (c : Nat) (y : Ctx) : (d.setCtx c y).heard = d.heard := rfl
@[simp] theorem setCtx_cats (c : Nat) (y : Ctx) : (d.setCtx c y).cats = d.cats := rfl
@[simp] theorem setCtx_pages (c : Nat) (y : Ctx) : (d.setCtx c y).pages = d.pages := rfl
@[simp] theorem setCtx_catHeld (c : Nat) (y : Ctx) : (d.setCtx c y).catHeld = d.catHeld := rfl
@[simp] theorem setCtx_rotaDone (c : Nat) (y : Ctx) : (d.setCtx c y).rotaDone = d.rotaDone := rfl
@[simp] theorem setCtx_catHold (c : Nat) (y : Ctx) : (d.setCtx c y).catHold = d.catHold := rfl
@[simp] theorem setCtx_scheds (c : Nat) (y : Ctx) : (d.setCtx c y).scheds = d.scheds := rfl
@[simp] theorem setCtx_returnsTx (c : Nat) (y : Ctx) : (d.setCtx c y).returnsTx = d.returnsTx := rfl
@[simp] theorem setCtx_returnsRx (c : Nat) (y : Ctx) : (d.setCtx c y).returnsRx = d.returnsRx := rfl
@[simp] theorem setCtx_itinRuns (c : Nat) (y : Ctx) : (d.setCtx c y).itinRuns = d.itinRuns := rfl
@[simp] theorem setCtx_parkTx (c : Nat) (y : Ctx) : (d.setCtx c y).parkTx = d.parkTx := rfl
@[simp] theorem setCtx_parkRx (c : Nat) (y : Ctx) : (d.setCtx c y).parkRx = d.parkRx := rfl
@[simp] theorem setCtx_cancelTx (c : Nat) (y : Ctx) : (d.setCtx c y).cancelTx = d.cancelTx := rfl
@[simp] theorem setCtx_dMean (c : Nat) (y : Ctx) : (d.setCtx c y).dMean = d.dMean := rfl
@[simp] theorem setCtx_kw (c : Nat) (y : Ctx) : (d.setCtx c y).kw = d.kw := rfl
@[simp] theorem setCtx_paths (c : Nat) (y : Ctx) : (d.setCtx c y).paths = d.paths := rfl
@[simp] theorem setCtx_faSettled (c : Nat) (y : Ctx) : (d.setCtx c y).faSettled = d.faSettled := rfl
@[simp] theorem setCtx_engDark (c : Nat) (y : Ctx) : (d.setCtx c y).engDark = d.engDark := rfl
@[simp] theorem setCtx_lines (c : Nat) (y : Ctx) : (d.setCtx c y).lines = d.lines := rfl
@[simp] theorem setCtx_beiCnt (c : Nat) (y : Ctx) : (d.setCtx c y).beiCnt = d.beiCnt := rfl
@[simp] theorem setCtx_pm (c : Nat) (y : Ctx) : (d.setCtx c y).pm = d.pm := rfl
@[simp] theorem setCtx_ctlKeys (c : Nat) (y : Ctx) : (d.setCtx c y).ctlKeys = d.ctlKeys := rfl
@[simp] theorem setCtx_halves (c : Nat) (y : Ctx) : (d.setCtx c y).halves = d.halves := rfl
@[simp] theorem setCtx_binds (c : Nat) (y : Ctx) : (d.setCtx c y).binds = d.binds := rfl
@[simp] theorem setCtx_keks (c : Nat) (y : Ctx) : (d.setCtx c y).keks = d.keks := rfl
@[simp] theorem setCtx_quarTimes (c : Nat) (y : Ctx) : (d.setCtx c y).quarTimes = d.quarTimes := rfl
@[simp] theorem setCtx_seals (c : Nat) (y : Ctx) : (d.setCtx c y).seals = d.seals := rfl
@[simp] theorem setCtx_sealRx (c : Nat) (y : Ctx) : (d.setCtx c y).sealRx = d.sealRx := rfl
@[simp] theorem setCtx_sealAt (c : Nat) (y : Ctx) : (d.setCtx c y).sealAt = d.sealAt := rfl
@[simp] theorem setCtx_cred (c : Nat) (y : Ctx) : (d.setCtx c y).cred = d.cred := rfl
@[simp] theorem setCtx_dbgNonce (c : Nat) (y : Ctx) : (d.setCtx c y).dbgNonce = d.dbgNonce := rfl
@[simp] theorem setCtx_trngCtr (c : Nat) (y : Ctx) : (d.setCtx c y).trngCtr = d.trngCtr := rfl
@[simp] theorem setCtx_storageKey (c : Nat) (y : Ctx) : (d.setCtx c y).storageKey = d.storageKey := rfl
@[simp] theorem setCtx_meas (c : Nat) (y : Ctx) : (d.setCtx c y).meas = d.meas := rfl
@[simp] theorem setCtx_loadRes (c : Nat) (y : Ctx) : (d.setCtx c y).loadRes = d.loadRes := rfl
@[simp] theorem setCtx_loadRecs (c : Nat) (y : Ctx) : (d.setCtx c y).loadRecs = d.loadRecs := rfl
@[simp] theorem setCtx_clusterFence (c : Nat) (y : Ctx) : (d.setCtx c y).clusterFence = d.clusterFence := rfl
@[simp] theorem setCtx_gateReq (c : Nat) (y : Ctx) : (d.setCtx c y).gateReq = d.gateReq := rfl
@[simp] theorem setCtx_gateAt (c : Nat) (y : Ctx) : (d.setCtx c y).gateAt = d.gateAt := rfl
@[simp] theorem setCtx_ringFlits (c : Nat) (y : Ctx) : (d.setCtx c y).ringFlits = d.ringFlits := rfl
@[simp] theorem setCtx_ringWait (c : Nat) (y : Ctx) : (d.setCtx c y).ringWait = d.ringWait := rfl
@[simp] theorem setCtx_ringTurn (c : Nat) (y : Ctx) : (d.setCtx c y).ringTurn = d.ringTurn := rfl
@[simp] theorem setCtx_skewRuns (c : Nat) (y : Ctx) : (d.setCtx c y).skewRuns = d.skewRuns := rfl
@[simp] theorem setCtx_pcieUp (c : Nat) (y : Ctx) : (d.setCtx c y).pcieUp = d.pcieUp := rfl
@[simp] theorem setCtx_bars (c : Nat) (y : Ctx) : (d.setCtx c y).bars = d.bars := rfl
@[simp] theorem setCtx_released (c : Nat) (y : Ctx) : (d.setCtx c y).released = d.released := rfl
@[simp] theorem setCtx_rstAt (c : Nat) (y : Ctx) : (d.setCtx c y).rstAt = d.rstAt := rfl
@[simp] theorem setCtx_railsBad (c : Nat) (y : Ctx) : (d.setCtx c y).railsBad = d.railsBad := rfl
@[simp] theorem setCtx_loadingAt (c : Nat) (y : Ctx) : (d.setCtx c y).loadingAt = d.loadingAt := rfl
@[simp] theorem setCtx_inReset (c : Nat) (y : Ctx) : (d.setCtx c y).inReset = d.inReset := rfl
@[simp] theorem setCtx_partOk (c : Nat) (y : Ctx) : (d.setCtx c y).partOk = d.partOk := rfl
@[simp] theorem setCtx_enHeld (c : Nat) (y : Ctx) : (d.setCtx c y).enHeld = d.enHeld := rfl
@[simp] theorem setCtx_throttled (c : Nat) (y : Ctx) : (d.setCtx c y).throttled = d.throttled := rfl
@[simp] theorem setCtx_thermN (c : Nat) (y : Ctx) : (d.setCtx c y).thermN = d.thermN := rfl
@[simp] theorem setCtx_alertN (c : Nat) (y : Ctx) : (d.setCtx c y).alertN = d.alertN := rfl
@[simp] theorem setCtx_mailbox (c : Nat) (y : Ctx) : (d.setCtx c y).mailbox = d.mailbox := rfl
@[simp] theorem setCtx_slotBad (c : Nat) (y : Ctx) : (d.setCtx c y).slotBad = d.slotBad := rfl
@[simp] theorem setCtx_alarms (c : Nat) (y : Ctx) : (d.setCtx c y).alarms = d.alarms := rfl
@[simp] theorem setCtx_overflow (c : Nat) (y : Ctx) : (d.setCtx c y).overflow = d.overflow := rfl
@[simp] theorem setCtx_alarmSeq (c : Nat) (y : Ctx) : (d.setCtx c y).alarmSeq = d.alarmSeq := rfl
@[simp] theorem setCtx_fwLog (c : Nat) (y : Ctx) : (d.setCtx c y).fwLog = d.fwLog := rfl
@[simp] theorem setCtx_peers (c : Nat) (y : Ctx) : (d.setCtx c y).peers = d.peers := rfl
@[simp] theorem setCtx_recovery (c : Nat) (y : Ctx) : (d.setCtx c y).recovery = d.recovery := rfl
@[simp] theorem setCtx_margins (c : Nat) (y : Ctx) : (d.setCtx c y).margins = d.margins := rfl
@[simp] theorem setCtx_rails (c : Nat) (y : Ctx) : (d.setCtx c y).rails = d.rails := rfl
@[simp] theorem setCtx_railNak (c : Nat) (y : Ctx) : (d.setCtx c y).railNak = d.railNak := rfl
@[simp] theorem setCtx_f (c : Nat) (y : Ctx) (z : Fld) (j : Nat) : (d.setCtx c y).f z j = d.f z j := rfl
@[simp] theorem setCtx_on (c : Nat) (y : Ctx) (z : Fld) (j : Nat) : (d.setCtx c y).on z j = d.on z j := rfl
@[simp] theorem setCtx_word (c : Nat) (y : Ctx) (k' : Nat) : (d.setCtx c y).word k' = d.word k' := rfl

/-! setRing changes rings alone -/

@[simp] theorem setRing_words (n : Nat) (y : RingX) : (d.setRing n y).words = d.words := rfl
@[simp] theorem setRing_now (n : Nat) (y : RingX) : (d.setRing n y).now = d.now := rfl
@[simp] theorem setRing_freeCtr (n : Nat) (y : RingX) : (d.setRing n y).freeCtr = d.freeCtr := rfl
@[simp] theorem setRing_provMode (n : Nat) (y : RingX) : (d.setRing n y).provMode = d.provMode := rfl
@[simp] theorem setRing_itinMode (n : Nat) (y : RingX) : (d.setRing n y).itinMode = d.itinMode := rfl
@[simp] theorem setRing_profile (n : Nat) (y : RingX) : (d.setRing n y).profile = d.profile := rfl
@[simp] theorem setRing_shadowAt (n : Nat) (y : RingX) : (d.setRing n y).shadowAt = d.shadowAt := rfl
@[simp] theorem setRing_tb (n : Nat) (y : RingX) : (d.setRing n y).tb = d.tb := rfl
@[simp] theorem setRing_out (n : Nat) (y : RingX) : (d.setRing n y).out = d.out := rfl
@[simp] theorem setRing_ctlQ (n : Nat) (y : RingX) : (d.setRing n y).ctlQ = d.ctlQ := rfl
@[simp] theorem setRing_anchorQ (n : Nat) (y : RingX) : (d.setRing n y).anchorQ = d.anchorQ := rfl
@[simp] theorem setRing_cqs (n : Nat) (y : RingX) : (d.setRing n y).cqs = d.cqs := rfl
@[simp] theorem setRing_msix (n : Nat) (y : RingX) : (d.setRing n y).msix = d.msix := rfl
@[simp] theorem setRing_wrr (n : Nat) (y : RingX) : (d.setRing n y).wrr = d.wrr := rfl
@[simp] theorem setRing_ops (n : Nat) (y : RingX) : (d.setRing n y).ops = d.ops := rfl
@[simp] theorem setRing_atomics (n : Nat) (y : RingX) : (d.setRing n y).atomics = d.atomics := rfl
@[simp] theorem setRing_reqs (n : Nat) (y : RingX) : (d.setRing n y).reqs = d.reqs := rfl
@[simp] theorem setRing_segSeen (n : Nat) (y : RingX) : (d.setRing n y).segSeen = d.segSeen := rfl
@[simp] theorem setRing_nextTag (n : Nat) (y : RingX) : (d.setRing n y).nextTag = d.nextTag := rfl
@[simp] theorem setRing_couriers (n : Nat) (y : RingX) : (d.setRing n y).couriers = d.couriers := rfl
@[simp] theorem setRing_portQ (n : Nat) (y : RingX) : (d.setRing n y).portQ = d.portQ := rfl
@[simp] theorem setRing_ptpQ (n : Nat) (y : RingX) : (d.setRing n y).ptpQ = d.ptpQ := rfl
@[simp] theorem setRing_wfq (n : Nat) (y : RingX) : (d.setRing n y).wfq = d.wfq := rfl
@[simp] theorem setRing_meters (n : Nat) (y : RingX) : (d.setRing n y).meters = d.meters := rfl
@[simp] theorem setRing_limiters (n : Nat) (y : RingX) : (d.setRing n y).limiters = d.limiters := rfl
@[simp] theorem setRing_hsSeen (n : Nat) (y : RingX) : (d.setRing n y).hsSeen = d.hsSeen := rfl
@[simp] theorem setRing_colls (n : Nat) (y : RingX) : (d.setRing n y).colls = d.colls := rfl
@[simp] theorem setRing_laneHits (n : Nat) (y : RingX) : (d.setRing n y).laneHits = d.laneHits := rfl
@[simp] theorem setRing_deadColls (n : Nat) (y : RingX) : (d.setRing n y).deadColls = d.deadColls := rfl
@[simp] theorem setRing_collEnds (n : Nat) (y : RingX) : (d.setRing n y).collEnds = d.collEnds := rfl
@[simp] theorem setRing_raceWins (n : Nat) (y : RingX) : (d.setRing n y).raceWins = d.raceWins := rfl
@[simp] theorem setRing_earlyRefs (n : Nat) (y : RingX) : (d.setRing n y).earlyRefs = d.earlyRefs := rfl
@[simp] theorem setRing_endNotices (n : Nat) (y : RingX) : (d.setRing n y).endNotices = d.endNotices := rfl
@[simp] theorem setRing_codecImg (n : Nat) (y : RingX) : (d.setRing n y).codecImg = d.codecImg := rfl
@[simp] theorem setRing_hists (n : Nat) (y : RingX) : (d.setRing n y).hists = d.hists := rfl
@[simp] theorem setRing_histPend (n : Nat) (y : RingX) : (d.setRing n y).histPend = d.histPend := rfl
@[simp] theorem setRing_pubs (n : Nat) (y : RingX) : (d.setRing n y).pubs = d.pubs := rfl
@[simp] theorem setRing_reserves (n : Nat) (y : RingX) : (d.setRing n y).reserves = d.reserves := rfl
@[simp] theorem setRing_pubTxn (n : Nat) (y : RingX) : (d.setRing n y).pubTxn = d.pubTxn := rfl
@[simp] theorem setRing_staged (n : Nat) (y : RingX) : (d.setRing n y).staged = d.staged := rfl
@[simp] theorem setRing_stageReq (n : Nat) (y : RingX) : (d.setRing n y).stageReq = d.stageReq := rfl
@[simp] theorem setRing_deltasOut (n : Nat) (y : RingX) : (d.setRing n y).deltasOut = d.deltasOut := rfl
@[simp] theorem setRing_deltasIn (n : Nat) (y : RingX) : (d.setRing n y).deltasIn = d.deltasIn := rfl
@[simp] theorem setRing_ctxs (n : Nat) (y : RingX) : (d.setRing n y).ctxs = d.ctxs := rfl
@[simp] theorem setRing_heldAccedes (n : Nat) (y : RingX) : (d.setRing n y).heldAccedes = d.heldAccedes := rfl
@[simp] theorem setRing_bpmBits (n : Nat) (y : RingX) : (d.setRing n y).bpmBits = d.bpmBits := rfl
@[simp] theorem setRing_annexUsed (n : Nat) (y : RingX) : (d.setRing n y).annexUsed = d.annexUsed := rfl
@[simp] theorem setRing_annexHeld (n : Nat) (y : RingX) : (d.setRing n y).annexHeld = d.annexHeld := rfl
@[simp] theorem setRing_hashKeys (n : Nat) (y : RingX) : (d.setRing n y).hashKeys = d.hashKeys := rfl
@[simp] theorem setRing_resilver (n : Nat) (y : RingX) : (d.setRing n y).resilver = d.resilver := rfl
@[simp] theorem setRing_tourWait (n : Nat) (y : RingX) : (d.setRing n y).tourWait = d.tourWait := rfl
@[simp] theorem setRing_tbRem (n : Nat) (y : RingX) : (d.setRing n y).tbRem = d.tbRem := rfl
@[simp] theorem setRing_slew (n : Nat) (y : RingX) : (d.setRing n y).slew = d.slew := rfl
@[simp] theorem setRing_servos (n : Nat) (y : RingX) : (d.setRing n y).servos = d.servos := rfl
@[simp] theorem setRing_slaves (n : Nat) (y : RingX) : (d.setRing n y).slaves = d.slaves := rfl
@[simp] theorem setRing_marks (n : Nat) (y : RingX) : (d.setRing n y).marks = d.marks := rfl
@[simp] theorem setRing_linkDelay (n : Nat) (y : RingX) : (d.setRing n y).linkDelay = d.linkDelay := rfl
@[simp] theorem setRing_ptpSeq (n : Nat) (y : RingX) : (d.setRing n y).ptpSeq = d.ptpSeq := rfl
@[simp] theorem setRing_ptpCount (n : Nat) (y : RingX) : (d.setRing n y).ptpCount = d.ptpCount := rfl
@[simp] theorem setRing_ppsDone (n : Nat) (y : RingX) : (d.setRing n y).ppsDone = d.ppsDone := rfl
@[simp] theorem setRing_ppsEdge (n : Nat) (y : RingX) : (d.setRing n y).ppsEdge = d.ppsEdge := rfl
@[simp] theorem setRing_refLost (n : Nat) (y : RingX) : (d.setRing n y).refLost = d.refLost := rfl
@[simp] theorem setRing_cdReports (n : Nat) (y : RingX) : (d.setRing n y).cdReports = d.cdReports := rfl
@[simp] theorem setRing_heard (n : Nat) (y : RingX) : (d.setRing n y).heard = d.heard := rfl
@[simp] theorem setRing_cats (n : Nat) (y : RingX) : (d.setRing n y).cats = d.cats := rfl
@[simp] theorem setRing_pages (n : Nat) (y : RingX) : (d.setRing n y).pages = d.pages := rfl
@[simp] theorem setRing_catHeld (n : Nat) (y : RingX) : (d.setRing n y).catHeld = d.catHeld := rfl
@[simp] theorem setRing_rotaDone (n : Nat) (y : RingX) : (d.setRing n y).rotaDone = d.rotaDone := rfl
@[simp] theorem setRing_catHold (n : Nat) (y : RingX) : (d.setRing n y).catHold = d.catHold := rfl
@[simp] theorem setRing_scheds (n : Nat) (y : RingX) : (d.setRing n y).scheds = d.scheds := rfl
@[simp] theorem setRing_returnsTx (n : Nat) (y : RingX) : (d.setRing n y).returnsTx = d.returnsTx := rfl
@[simp] theorem setRing_returnsRx (n : Nat) (y : RingX) : (d.setRing n y).returnsRx = d.returnsRx := rfl
@[simp] theorem setRing_itinRuns (n : Nat) (y : RingX) : (d.setRing n y).itinRuns = d.itinRuns := rfl
@[simp] theorem setRing_parkTx (n : Nat) (y : RingX) : (d.setRing n y).parkTx = d.parkTx := rfl
@[simp] theorem setRing_parkRx (n : Nat) (y : RingX) : (d.setRing n y).parkRx = d.parkRx := rfl
@[simp] theorem setRing_cancelTx (n : Nat) (y : RingX) : (d.setRing n y).cancelTx = d.cancelTx := rfl
@[simp] theorem setRing_dMean (n : Nat) (y : RingX) : (d.setRing n y).dMean = d.dMean := rfl
@[simp] theorem setRing_kw (n : Nat) (y : RingX) : (d.setRing n y).kw = d.kw := rfl
@[simp] theorem setRing_paths (n : Nat) (y : RingX) : (d.setRing n y).paths = d.paths := rfl
@[simp] theorem setRing_faSettled (n : Nat) (y : RingX) : (d.setRing n y).faSettled = d.faSettled := rfl
@[simp] theorem setRing_engDark (n : Nat) (y : RingX) : (d.setRing n y).engDark = d.engDark := rfl
@[simp] theorem setRing_lines (n : Nat) (y : RingX) : (d.setRing n y).lines = d.lines := rfl
@[simp] theorem setRing_beiCnt (n : Nat) (y : RingX) : (d.setRing n y).beiCnt = d.beiCnt := rfl
@[simp] theorem setRing_pm (n : Nat) (y : RingX) : (d.setRing n y).pm = d.pm := rfl
@[simp] theorem setRing_ctlKeys (n : Nat) (y : RingX) : (d.setRing n y).ctlKeys = d.ctlKeys := rfl
@[simp] theorem setRing_halves (n : Nat) (y : RingX) : (d.setRing n y).halves = d.halves := rfl
@[simp] theorem setRing_binds (n : Nat) (y : RingX) : (d.setRing n y).binds = d.binds := rfl
@[simp] theorem setRing_keks (n : Nat) (y : RingX) : (d.setRing n y).keks = d.keks := rfl
@[simp] theorem setRing_quarTimes (n : Nat) (y : RingX) : (d.setRing n y).quarTimes = d.quarTimes := rfl
@[simp] theorem setRing_seals (n : Nat) (y : RingX) : (d.setRing n y).seals = d.seals := rfl
@[simp] theorem setRing_sealRx (n : Nat) (y : RingX) : (d.setRing n y).sealRx = d.sealRx := rfl
@[simp] theorem setRing_sealAt (n : Nat) (y : RingX) : (d.setRing n y).sealAt = d.sealAt := rfl
@[simp] theorem setRing_cred (n : Nat) (y : RingX) : (d.setRing n y).cred = d.cred := rfl
@[simp] theorem setRing_dbgNonce (n : Nat) (y : RingX) : (d.setRing n y).dbgNonce = d.dbgNonce := rfl
@[simp] theorem setRing_trngCtr (n : Nat) (y : RingX) : (d.setRing n y).trngCtr = d.trngCtr := rfl
@[simp] theorem setRing_storageKey (n : Nat) (y : RingX) : (d.setRing n y).storageKey = d.storageKey := rfl
@[simp] theorem setRing_meas (n : Nat) (y : RingX) : (d.setRing n y).meas = d.meas := rfl
@[simp] theorem setRing_loadRes (n : Nat) (y : RingX) : (d.setRing n y).loadRes = d.loadRes := rfl
@[simp] theorem setRing_loadRecs (n : Nat) (y : RingX) : (d.setRing n y).loadRecs = d.loadRecs := rfl
@[simp] theorem setRing_clusterFence (n : Nat) (y : RingX) : (d.setRing n y).clusterFence = d.clusterFence := rfl
@[simp] theorem setRing_gateReq (n : Nat) (y : RingX) : (d.setRing n y).gateReq = d.gateReq := rfl
@[simp] theorem setRing_gateAt (n : Nat) (y : RingX) : (d.setRing n y).gateAt = d.gateAt := rfl
@[simp] theorem setRing_ringFlits (n : Nat) (y : RingX) : (d.setRing n y).ringFlits = d.ringFlits := rfl
@[simp] theorem setRing_ringWait (n : Nat) (y : RingX) : (d.setRing n y).ringWait = d.ringWait := rfl
@[simp] theorem setRing_ringTurn (n : Nat) (y : RingX) : (d.setRing n y).ringTurn = d.ringTurn := rfl
@[simp] theorem setRing_skewRuns (n : Nat) (y : RingX) : (d.setRing n y).skewRuns = d.skewRuns := rfl
@[simp] theorem setRing_pcieUp (n : Nat) (y : RingX) : (d.setRing n y).pcieUp = d.pcieUp := rfl
@[simp] theorem setRing_bars (n : Nat) (y : RingX) : (d.setRing n y).bars = d.bars := rfl
@[simp] theorem setRing_released (n : Nat) (y : RingX) : (d.setRing n y).released = d.released := rfl
@[simp] theorem setRing_rstAt (n : Nat) (y : RingX) : (d.setRing n y).rstAt = d.rstAt := rfl
@[simp] theorem setRing_railsBad (n : Nat) (y : RingX) : (d.setRing n y).railsBad = d.railsBad := rfl
@[simp] theorem setRing_loadingAt (n : Nat) (y : RingX) : (d.setRing n y).loadingAt = d.loadingAt := rfl
@[simp] theorem setRing_inReset (n : Nat) (y : RingX) : (d.setRing n y).inReset = d.inReset := rfl
@[simp] theorem setRing_partOk (n : Nat) (y : RingX) : (d.setRing n y).partOk = d.partOk := rfl
@[simp] theorem setRing_enHeld (n : Nat) (y : RingX) : (d.setRing n y).enHeld = d.enHeld := rfl
@[simp] theorem setRing_throttled (n : Nat) (y : RingX) : (d.setRing n y).throttled = d.throttled := rfl
@[simp] theorem setRing_thermN (n : Nat) (y : RingX) : (d.setRing n y).thermN = d.thermN := rfl
@[simp] theorem setRing_alertN (n : Nat) (y : RingX) : (d.setRing n y).alertN = d.alertN := rfl
@[simp] theorem setRing_mailbox (n : Nat) (y : RingX) : (d.setRing n y).mailbox = d.mailbox := rfl
@[simp] theorem setRing_slotBad (n : Nat) (y : RingX) : (d.setRing n y).slotBad = d.slotBad := rfl
@[simp] theorem setRing_alarms (n : Nat) (y : RingX) : (d.setRing n y).alarms = d.alarms := rfl
@[simp] theorem setRing_overflow (n : Nat) (y : RingX) : (d.setRing n y).overflow = d.overflow := rfl
@[simp] theorem setRing_alarmSeq (n : Nat) (y : RingX) : (d.setRing n y).alarmSeq = d.alarmSeq := rfl
@[simp] theorem setRing_fwLog (n : Nat) (y : RingX) : (d.setRing n y).fwLog = d.fwLog := rfl
@[simp] theorem setRing_peers (n : Nat) (y : RingX) : (d.setRing n y).peers = d.peers := rfl
@[simp] theorem setRing_recovery (n : Nat) (y : RingX) : (d.setRing n y).recovery = d.recovery := rfl
@[simp] theorem setRing_margins (n : Nat) (y : RingX) : (d.setRing n y).margins = d.margins := rfl
@[simp] theorem setRing_rails (n : Nat) (y : RingX) : (d.setRing n y).rails = d.rails := rfl
@[simp] theorem setRing_railNak (n : Nat) (y : RingX) : (d.setRing n y).railNak = d.railNak := rfl
@[simp] theorem setRing_f (n : Nat) (y : RingX) (z : Fld) (j : Nat) : (d.setRing n y).f z j = d.f z j := rfl
@[simp] theorem setRing_on (n : Nat) (y : RingX) (z : Fld) (j : Nat) : (d.setRing n y).on z j = d.on z j := rfl
@[simp] theorem setRing_word (n : Nat) (y : RingX) (k' : Nat) : (d.setRing n y).word k' = d.word k' := rfl

/-! setCq changes cqs alone -/

@[simp] theorem setCq_words (q : Nat) (y : CqX) : (d.setCq q y).words = d.words := rfl
@[simp] theorem setCq_now (q : Nat) (y : CqX) : (d.setCq q y).now = d.now := rfl
@[simp] theorem setCq_freeCtr (q : Nat) (y : CqX) : (d.setCq q y).freeCtr = d.freeCtr := rfl
@[simp] theorem setCq_provMode (q : Nat) (y : CqX) : (d.setCq q y).provMode = d.provMode := rfl
@[simp] theorem setCq_itinMode (q : Nat) (y : CqX) : (d.setCq q y).itinMode = d.itinMode := rfl
@[simp] theorem setCq_profile (q : Nat) (y : CqX) : (d.setCq q y).profile = d.profile := rfl
@[simp] theorem setCq_shadowAt (q : Nat) (y : CqX) : (d.setCq q y).shadowAt = d.shadowAt := rfl
@[simp] theorem setCq_tb (q : Nat) (y : CqX) : (d.setCq q y).tb = d.tb := rfl
@[simp] theorem setCq_out (q : Nat) (y : CqX) : (d.setCq q y).out = d.out := rfl
@[simp] theorem setCq_ctlQ (q : Nat) (y : CqX) : (d.setCq q y).ctlQ = d.ctlQ := rfl
@[simp] theorem setCq_anchorQ (q : Nat) (y : CqX) : (d.setCq q y).anchorQ = d.anchorQ := rfl
@[simp] theorem setCq_rings (q : Nat) (y : CqX) : (d.setCq q y).rings = d.rings := rfl
@[simp] theorem setCq_msix (q : Nat) (y : CqX) : (d.setCq q y).msix = d.msix := rfl
@[simp] theorem setCq_wrr (q : Nat) (y : CqX) : (d.setCq q y).wrr = d.wrr := rfl
@[simp] theorem setCq_ops (q : Nat) (y : CqX) : (d.setCq q y).ops = d.ops := rfl
@[simp] theorem setCq_atomics (q : Nat) (y : CqX) : (d.setCq q y).atomics = d.atomics := rfl
@[simp] theorem setCq_reqs (q : Nat) (y : CqX) : (d.setCq q y).reqs = d.reqs := rfl
@[simp] theorem setCq_segSeen (q : Nat) (y : CqX) : (d.setCq q y).segSeen = d.segSeen := rfl
@[simp] theorem setCq_nextTag (q : Nat) (y : CqX) : (d.setCq q y).nextTag = d.nextTag := rfl
@[simp] theorem setCq_couriers (q : Nat) (y : CqX) : (d.setCq q y).couriers = d.couriers := rfl
@[simp] theorem setCq_portQ (q : Nat) (y : CqX) : (d.setCq q y).portQ = d.portQ := rfl
@[simp] theorem setCq_ptpQ (q : Nat) (y : CqX) : (d.setCq q y).ptpQ = d.ptpQ := rfl
@[simp] theorem setCq_wfq (q : Nat) (y : CqX) : (d.setCq q y).wfq = d.wfq := rfl
@[simp] theorem setCq_meters (q : Nat) (y : CqX) : (d.setCq q y).meters = d.meters := rfl
@[simp] theorem setCq_limiters (q : Nat) (y : CqX) : (d.setCq q y).limiters = d.limiters := rfl
@[simp] theorem setCq_hsSeen (q : Nat) (y : CqX) : (d.setCq q y).hsSeen = d.hsSeen := rfl
@[simp] theorem setCq_colls (q : Nat) (y : CqX) : (d.setCq q y).colls = d.colls := rfl
@[simp] theorem setCq_laneHits (q : Nat) (y : CqX) : (d.setCq q y).laneHits = d.laneHits := rfl
@[simp] theorem setCq_deadColls (q : Nat) (y : CqX) : (d.setCq q y).deadColls = d.deadColls := rfl
@[simp] theorem setCq_collEnds (q : Nat) (y : CqX) : (d.setCq q y).collEnds = d.collEnds := rfl
@[simp] theorem setCq_raceWins (q : Nat) (y : CqX) : (d.setCq q y).raceWins = d.raceWins := rfl
@[simp] theorem setCq_earlyRefs (q : Nat) (y : CqX) : (d.setCq q y).earlyRefs = d.earlyRefs := rfl
@[simp] theorem setCq_endNotices (q : Nat) (y : CqX) : (d.setCq q y).endNotices = d.endNotices := rfl
@[simp] theorem setCq_codecImg (q : Nat) (y : CqX) : (d.setCq q y).codecImg = d.codecImg := rfl
@[simp] theorem setCq_hists (q : Nat) (y : CqX) : (d.setCq q y).hists = d.hists := rfl
@[simp] theorem setCq_histPend (q : Nat) (y : CqX) : (d.setCq q y).histPend = d.histPend := rfl
@[simp] theorem setCq_pubs (q : Nat) (y : CqX) : (d.setCq q y).pubs = d.pubs := rfl
@[simp] theorem setCq_reserves (q : Nat) (y : CqX) : (d.setCq q y).reserves = d.reserves := rfl
@[simp] theorem setCq_pubTxn (q : Nat) (y : CqX) : (d.setCq q y).pubTxn = d.pubTxn := rfl
@[simp] theorem setCq_staged (q : Nat) (y : CqX) : (d.setCq q y).staged = d.staged := rfl
@[simp] theorem setCq_stageReq (q : Nat) (y : CqX) : (d.setCq q y).stageReq = d.stageReq := rfl
@[simp] theorem setCq_deltasOut (q : Nat) (y : CqX) : (d.setCq q y).deltasOut = d.deltasOut := rfl
@[simp] theorem setCq_deltasIn (q : Nat) (y : CqX) : (d.setCq q y).deltasIn = d.deltasIn := rfl
@[simp] theorem setCq_ctxs (q : Nat) (y : CqX) : (d.setCq q y).ctxs = d.ctxs := rfl
@[simp] theorem setCq_heldAccedes (q : Nat) (y : CqX) : (d.setCq q y).heldAccedes = d.heldAccedes := rfl
@[simp] theorem setCq_bpmBits (q : Nat) (y : CqX) : (d.setCq q y).bpmBits = d.bpmBits := rfl
@[simp] theorem setCq_annexUsed (q : Nat) (y : CqX) : (d.setCq q y).annexUsed = d.annexUsed := rfl
@[simp] theorem setCq_annexHeld (q : Nat) (y : CqX) : (d.setCq q y).annexHeld = d.annexHeld := rfl
@[simp] theorem setCq_hashKeys (q : Nat) (y : CqX) : (d.setCq q y).hashKeys = d.hashKeys := rfl
@[simp] theorem setCq_resilver (q : Nat) (y : CqX) : (d.setCq q y).resilver = d.resilver := rfl
@[simp] theorem setCq_tourWait (q : Nat) (y : CqX) : (d.setCq q y).tourWait = d.tourWait := rfl
@[simp] theorem setCq_tbRem (q : Nat) (y : CqX) : (d.setCq q y).tbRem = d.tbRem := rfl
@[simp] theorem setCq_slew (q : Nat) (y : CqX) : (d.setCq q y).slew = d.slew := rfl
@[simp] theorem setCq_servos (q : Nat) (y : CqX) : (d.setCq q y).servos = d.servos := rfl
@[simp] theorem setCq_slaves (q : Nat) (y : CqX) : (d.setCq q y).slaves = d.slaves := rfl
@[simp] theorem setCq_marks (q : Nat) (y : CqX) : (d.setCq q y).marks = d.marks := rfl
@[simp] theorem setCq_linkDelay (q : Nat) (y : CqX) : (d.setCq q y).linkDelay = d.linkDelay := rfl
@[simp] theorem setCq_ptpSeq (q : Nat) (y : CqX) : (d.setCq q y).ptpSeq = d.ptpSeq := rfl
@[simp] theorem setCq_ptpCount (q : Nat) (y : CqX) : (d.setCq q y).ptpCount = d.ptpCount := rfl
@[simp] theorem setCq_ppsDone (q : Nat) (y : CqX) : (d.setCq q y).ppsDone = d.ppsDone := rfl
@[simp] theorem setCq_ppsEdge (q : Nat) (y : CqX) : (d.setCq q y).ppsEdge = d.ppsEdge := rfl
@[simp] theorem setCq_refLost (q : Nat) (y : CqX) : (d.setCq q y).refLost = d.refLost := rfl
@[simp] theorem setCq_cdReports (q : Nat) (y : CqX) : (d.setCq q y).cdReports = d.cdReports := rfl
@[simp] theorem setCq_heard (q : Nat) (y : CqX) : (d.setCq q y).heard = d.heard := rfl
@[simp] theorem setCq_cats (q : Nat) (y : CqX) : (d.setCq q y).cats = d.cats := rfl
@[simp] theorem setCq_pages (q : Nat) (y : CqX) : (d.setCq q y).pages = d.pages := rfl
@[simp] theorem setCq_catHeld (q : Nat) (y : CqX) : (d.setCq q y).catHeld = d.catHeld := rfl
@[simp] theorem setCq_rotaDone (q : Nat) (y : CqX) : (d.setCq q y).rotaDone = d.rotaDone := rfl
@[simp] theorem setCq_catHold (q : Nat) (y : CqX) : (d.setCq q y).catHold = d.catHold := rfl
@[simp] theorem setCq_scheds (q : Nat) (y : CqX) : (d.setCq q y).scheds = d.scheds := rfl
@[simp] theorem setCq_returnsTx (q : Nat) (y : CqX) : (d.setCq q y).returnsTx = d.returnsTx := rfl
@[simp] theorem setCq_returnsRx (q : Nat) (y : CqX) : (d.setCq q y).returnsRx = d.returnsRx := rfl
@[simp] theorem setCq_itinRuns (q : Nat) (y : CqX) : (d.setCq q y).itinRuns = d.itinRuns := rfl
@[simp] theorem setCq_parkTx (q : Nat) (y : CqX) : (d.setCq q y).parkTx = d.parkTx := rfl
@[simp] theorem setCq_parkRx (q : Nat) (y : CqX) : (d.setCq q y).parkRx = d.parkRx := rfl
@[simp] theorem setCq_cancelTx (q : Nat) (y : CqX) : (d.setCq q y).cancelTx = d.cancelTx := rfl
@[simp] theorem setCq_dMean (q : Nat) (y : CqX) : (d.setCq q y).dMean = d.dMean := rfl
@[simp] theorem setCq_kw (q : Nat) (y : CqX) : (d.setCq q y).kw = d.kw := rfl
@[simp] theorem setCq_paths (q : Nat) (y : CqX) : (d.setCq q y).paths = d.paths := rfl
@[simp] theorem setCq_faSettled (q : Nat) (y : CqX) : (d.setCq q y).faSettled = d.faSettled := rfl
@[simp] theorem setCq_engDark (q : Nat) (y : CqX) : (d.setCq q y).engDark = d.engDark := rfl
@[simp] theorem setCq_lines (q : Nat) (y : CqX) : (d.setCq q y).lines = d.lines := rfl
@[simp] theorem setCq_beiCnt (q : Nat) (y : CqX) : (d.setCq q y).beiCnt = d.beiCnt := rfl
@[simp] theorem setCq_pm (q : Nat) (y : CqX) : (d.setCq q y).pm = d.pm := rfl
@[simp] theorem setCq_ctlKeys (q : Nat) (y : CqX) : (d.setCq q y).ctlKeys = d.ctlKeys := rfl
@[simp] theorem setCq_halves (q : Nat) (y : CqX) : (d.setCq q y).halves = d.halves := rfl
@[simp] theorem setCq_binds (q : Nat) (y : CqX) : (d.setCq q y).binds = d.binds := rfl
@[simp] theorem setCq_keks (q : Nat) (y : CqX) : (d.setCq q y).keks = d.keks := rfl
@[simp] theorem setCq_quarTimes (q : Nat) (y : CqX) : (d.setCq q y).quarTimes = d.quarTimes := rfl
@[simp] theorem setCq_seals (q : Nat) (y : CqX) : (d.setCq q y).seals = d.seals := rfl
@[simp] theorem setCq_sealRx (q : Nat) (y : CqX) : (d.setCq q y).sealRx = d.sealRx := rfl
@[simp] theorem setCq_sealAt (q : Nat) (y : CqX) : (d.setCq q y).sealAt = d.sealAt := rfl
@[simp] theorem setCq_cred (q : Nat) (y : CqX) : (d.setCq q y).cred = d.cred := rfl
@[simp] theorem setCq_dbgNonce (q : Nat) (y : CqX) : (d.setCq q y).dbgNonce = d.dbgNonce := rfl
@[simp] theorem setCq_trngCtr (q : Nat) (y : CqX) : (d.setCq q y).trngCtr = d.trngCtr := rfl
@[simp] theorem setCq_storageKey (q : Nat) (y : CqX) : (d.setCq q y).storageKey = d.storageKey := rfl
@[simp] theorem setCq_meas (q : Nat) (y : CqX) : (d.setCq q y).meas = d.meas := rfl
@[simp] theorem setCq_loadRes (q : Nat) (y : CqX) : (d.setCq q y).loadRes = d.loadRes := rfl
@[simp] theorem setCq_loadRecs (q : Nat) (y : CqX) : (d.setCq q y).loadRecs = d.loadRecs := rfl
@[simp] theorem setCq_clusterFence (q : Nat) (y : CqX) : (d.setCq q y).clusterFence = d.clusterFence := rfl
@[simp] theorem setCq_gateReq (q : Nat) (y : CqX) : (d.setCq q y).gateReq = d.gateReq := rfl
@[simp] theorem setCq_gateAt (q : Nat) (y : CqX) : (d.setCq q y).gateAt = d.gateAt := rfl
@[simp] theorem setCq_ringFlits (q : Nat) (y : CqX) : (d.setCq q y).ringFlits = d.ringFlits := rfl
@[simp] theorem setCq_ringWait (q : Nat) (y : CqX) : (d.setCq q y).ringWait = d.ringWait := rfl
@[simp] theorem setCq_ringTurn (q : Nat) (y : CqX) : (d.setCq q y).ringTurn = d.ringTurn := rfl
@[simp] theorem setCq_skewRuns (q : Nat) (y : CqX) : (d.setCq q y).skewRuns = d.skewRuns := rfl
@[simp] theorem setCq_pcieUp (q : Nat) (y : CqX) : (d.setCq q y).pcieUp = d.pcieUp := rfl
@[simp] theorem setCq_bars (q : Nat) (y : CqX) : (d.setCq q y).bars = d.bars := rfl
@[simp] theorem setCq_released (q : Nat) (y : CqX) : (d.setCq q y).released = d.released := rfl
@[simp] theorem setCq_rstAt (q : Nat) (y : CqX) : (d.setCq q y).rstAt = d.rstAt := rfl
@[simp] theorem setCq_railsBad (q : Nat) (y : CqX) : (d.setCq q y).railsBad = d.railsBad := rfl
@[simp] theorem setCq_loadingAt (q : Nat) (y : CqX) : (d.setCq q y).loadingAt = d.loadingAt := rfl
@[simp] theorem setCq_inReset (q : Nat) (y : CqX) : (d.setCq q y).inReset = d.inReset := rfl
@[simp] theorem setCq_partOk (q : Nat) (y : CqX) : (d.setCq q y).partOk = d.partOk := rfl
@[simp] theorem setCq_enHeld (q : Nat) (y : CqX) : (d.setCq q y).enHeld = d.enHeld := rfl
@[simp] theorem setCq_throttled (q : Nat) (y : CqX) : (d.setCq q y).throttled = d.throttled := rfl
@[simp] theorem setCq_thermN (q : Nat) (y : CqX) : (d.setCq q y).thermN = d.thermN := rfl
@[simp] theorem setCq_alertN (q : Nat) (y : CqX) : (d.setCq q y).alertN = d.alertN := rfl
@[simp] theorem setCq_mailbox (q : Nat) (y : CqX) : (d.setCq q y).mailbox = d.mailbox := rfl
@[simp] theorem setCq_slotBad (q : Nat) (y : CqX) : (d.setCq q y).slotBad = d.slotBad := rfl
@[simp] theorem setCq_alarms (q : Nat) (y : CqX) : (d.setCq q y).alarms = d.alarms := rfl
@[simp] theorem setCq_overflow (q : Nat) (y : CqX) : (d.setCq q y).overflow = d.overflow := rfl
@[simp] theorem setCq_alarmSeq (q : Nat) (y : CqX) : (d.setCq q y).alarmSeq = d.alarmSeq := rfl
@[simp] theorem setCq_fwLog (q : Nat) (y : CqX) : (d.setCq q y).fwLog = d.fwLog := rfl
@[simp] theorem setCq_peers (q : Nat) (y : CqX) : (d.setCq q y).peers = d.peers := rfl
@[simp] theorem setCq_recovery (q : Nat) (y : CqX) : (d.setCq q y).recovery = d.recovery := rfl
@[simp] theorem setCq_margins (q : Nat) (y : CqX) : (d.setCq q y).margins = d.margins := rfl
@[simp] theorem setCq_rails (q : Nat) (y : CqX) : (d.setCq q y).rails = d.rails := rfl
@[simp] theorem setCq_railNak (q : Nat) (y : CqX) : (d.setCq q y).railNak = d.railNak := rfl
@[simp] theorem setCq_f (q : Nat) (y : CqX) (z : Fld) (j : Nat) : (d.setCq q y).f z j = d.f z j := rfl
@[simp] theorem setCq_on (q : Nat) (y : CqX) (z : Fld) (j : Nat) : (d.setCq q y).on z j = d.on z j := rfl
@[simp] theorem setCq_word (q : Nat) (y : CqX) (k' : Nat) : (d.setCq q y).word k' = d.word k' := rfl

/-! usedFree changes freeCtr alone -/

@[simp] theorem usedFree_words : (d.usedFree).words = d.words := rfl
@[simp] theorem usedFree_now : (d.usedFree).now = d.now := rfl
@[simp] theorem usedFree_provMode : (d.usedFree).provMode = d.provMode := rfl
@[simp] theorem usedFree_itinMode : (d.usedFree).itinMode = d.itinMode := rfl
@[simp] theorem usedFree_profile : (d.usedFree).profile = d.profile := rfl
@[simp] theorem usedFree_shadowAt : (d.usedFree).shadowAt = d.shadowAt := rfl
@[simp] theorem usedFree_tb : (d.usedFree).tb = d.tb := rfl
@[simp] theorem usedFree_out : (d.usedFree).out = d.out := rfl
@[simp] theorem usedFree_ctlQ : (d.usedFree).ctlQ = d.ctlQ := rfl
@[simp] theorem usedFree_anchorQ : (d.usedFree).anchorQ = d.anchorQ := rfl
@[simp] theorem usedFree_rings : (d.usedFree).rings = d.rings := rfl
@[simp] theorem usedFree_cqs : (d.usedFree).cqs = d.cqs := rfl
@[simp] theorem usedFree_msix : (d.usedFree).msix = d.msix := rfl
@[simp] theorem usedFree_wrr : (d.usedFree).wrr = d.wrr := rfl
@[simp] theorem usedFree_ops : (d.usedFree).ops = d.ops := rfl
@[simp] theorem usedFree_atomics : (d.usedFree).atomics = d.atomics := rfl
@[simp] theorem usedFree_reqs : (d.usedFree).reqs = d.reqs := rfl
@[simp] theorem usedFree_segSeen : (d.usedFree).segSeen = d.segSeen := rfl
@[simp] theorem usedFree_nextTag : (d.usedFree).nextTag = d.nextTag := rfl
@[simp] theorem usedFree_couriers : (d.usedFree).couriers = d.couriers := rfl
@[simp] theorem usedFree_portQ : (d.usedFree).portQ = d.portQ := rfl
@[simp] theorem usedFree_ptpQ : (d.usedFree).ptpQ = d.ptpQ := rfl
@[simp] theorem usedFree_wfq : (d.usedFree).wfq = d.wfq := rfl
@[simp] theorem usedFree_meters : (d.usedFree).meters = d.meters := rfl
@[simp] theorem usedFree_limiters : (d.usedFree).limiters = d.limiters := rfl
@[simp] theorem usedFree_hsSeen : (d.usedFree).hsSeen = d.hsSeen := rfl
@[simp] theorem usedFree_colls : (d.usedFree).colls = d.colls := rfl
@[simp] theorem usedFree_laneHits : (d.usedFree).laneHits = d.laneHits := rfl
@[simp] theorem usedFree_deadColls : (d.usedFree).deadColls = d.deadColls := rfl
@[simp] theorem usedFree_collEnds : (d.usedFree).collEnds = d.collEnds := rfl
@[simp] theorem usedFree_raceWins : (d.usedFree).raceWins = d.raceWins := rfl
@[simp] theorem usedFree_earlyRefs : (d.usedFree).earlyRefs = d.earlyRefs := rfl
@[simp] theorem usedFree_endNotices : (d.usedFree).endNotices = d.endNotices := rfl
@[simp] theorem usedFree_codecImg : (d.usedFree).codecImg = d.codecImg := rfl
@[simp] theorem usedFree_hists : (d.usedFree).hists = d.hists := rfl
@[simp] theorem usedFree_histPend : (d.usedFree).histPend = d.histPend := rfl
@[simp] theorem usedFree_pubs : (d.usedFree).pubs = d.pubs := rfl
@[simp] theorem usedFree_reserves : (d.usedFree).reserves = d.reserves := rfl
@[simp] theorem usedFree_pubTxn : (d.usedFree).pubTxn = d.pubTxn := rfl
@[simp] theorem usedFree_staged : (d.usedFree).staged = d.staged := rfl
@[simp] theorem usedFree_stageReq : (d.usedFree).stageReq = d.stageReq := rfl
@[simp] theorem usedFree_deltasOut : (d.usedFree).deltasOut = d.deltasOut := rfl
@[simp] theorem usedFree_deltasIn : (d.usedFree).deltasIn = d.deltasIn := rfl
@[simp] theorem usedFree_ctxs : (d.usedFree).ctxs = d.ctxs := rfl
@[simp] theorem usedFree_heldAccedes : (d.usedFree).heldAccedes = d.heldAccedes := rfl
@[simp] theorem usedFree_bpmBits : (d.usedFree).bpmBits = d.bpmBits := rfl
@[simp] theorem usedFree_annexUsed : (d.usedFree).annexUsed = d.annexUsed := rfl
@[simp] theorem usedFree_annexHeld : (d.usedFree).annexHeld = d.annexHeld := rfl
@[simp] theorem usedFree_hashKeys : (d.usedFree).hashKeys = d.hashKeys := rfl
@[simp] theorem usedFree_resilver : (d.usedFree).resilver = d.resilver := rfl
@[simp] theorem usedFree_tourWait : (d.usedFree).tourWait = d.tourWait := rfl
@[simp] theorem usedFree_tbRem : (d.usedFree).tbRem = d.tbRem := rfl
@[simp] theorem usedFree_slew : (d.usedFree).slew = d.slew := rfl
@[simp] theorem usedFree_servos : (d.usedFree).servos = d.servos := rfl
@[simp] theorem usedFree_slaves : (d.usedFree).slaves = d.slaves := rfl
@[simp] theorem usedFree_marks : (d.usedFree).marks = d.marks := rfl
@[simp] theorem usedFree_linkDelay : (d.usedFree).linkDelay = d.linkDelay := rfl
@[simp] theorem usedFree_ptpSeq : (d.usedFree).ptpSeq = d.ptpSeq := rfl
@[simp] theorem usedFree_ptpCount : (d.usedFree).ptpCount = d.ptpCount := rfl
@[simp] theorem usedFree_ppsDone : (d.usedFree).ppsDone = d.ppsDone := rfl
@[simp] theorem usedFree_ppsEdge : (d.usedFree).ppsEdge = d.ppsEdge := rfl
@[simp] theorem usedFree_refLost : (d.usedFree).refLost = d.refLost := rfl
@[simp] theorem usedFree_cdReports : (d.usedFree).cdReports = d.cdReports := rfl
@[simp] theorem usedFree_heard : (d.usedFree).heard = d.heard := rfl
@[simp] theorem usedFree_cats : (d.usedFree).cats = d.cats := rfl
@[simp] theorem usedFree_pages : (d.usedFree).pages = d.pages := rfl
@[simp] theorem usedFree_catHeld : (d.usedFree).catHeld = d.catHeld := rfl
@[simp] theorem usedFree_rotaDone : (d.usedFree).rotaDone = d.rotaDone := rfl
@[simp] theorem usedFree_catHold : (d.usedFree).catHold = d.catHold := rfl
@[simp] theorem usedFree_scheds : (d.usedFree).scheds = d.scheds := rfl
@[simp] theorem usedFree_returnsTx : (d.usedFree).returnsTx = d.returnsTx := rfl
@[simp] theorem usedFree_returnsRx : (d.usedFree).returnsRx = d.returnsRx := rfl
@[simp] theorem usedFree_itinRuns : (d.usedFree).itinRuns = d.itinRuns := rfl
@[simp] theorem usedFree_parkTx : (d.usedFree).parkTx = d.parkTx := rfl
@[simp] theorem usedFree_parkRx : (d.usedFree).parkRx = d.parkRx := rfl
@[simp] theorem usedFree_cancelTx : (d.usedFree).cancelTx = d.cancelTx := rfl
@[simp] theorem usedFree_dMean : (d.usedFree).dMean = d.dMean := rfl
@[simp] theorem usedFree_kw : (d.usedFree).kw = d.kw := rfl
@[simp] theorem usedFree_paths : (d.usedFree).paths = d.paths := rfl
@[simp] theorem usedFree_faSettled : (d.usedFree).faSettled = d.faSettled := rfl
@[simp] theorem usedFree_engDark : (d.usedFree).engDark = d.engDark := rfl
@[simp] theorem usedFree_lines : (d.usedFree).lines = d.lines := rfl
@[simp] theorem usedFree_beiCnt : (d.usedFree).beiCnt = d.beiCnt := rfl
@[simp] theorem usedFree_pm : (d.usedFree).pm = d.pm := rfl
@[simp] theorem usedFree_ctlKeys : (d.usedFree).ctlKeys = d.ctlKeys := rfl
@[simp] theorem usedFree_halves : (d.usedFree).halves = d.halves := rfl
@[simp] theorem usedFree_binds : (d.usedFree).binds = d.binds := rfl
@[simp] theorem usedFree_keks : (d.usedFree).keks = d.keks := rfl
@[simp] theorem usedFree_quarTimes : (d.usedFree).quarTimes = d.quarTimes := rfl
@[simp] theorem usedFree_seals : (d.usedFree).seals = d.seals := rfl
@[simp] theorem usedFree_sealRx : (d.usedFree).sealRx = d.sealRx := rfl
@[simp] theorem usedFree_sealAt : (d.usedFree).sealAt = d.sealAt := rfl
@[simp] theorem usedFree_cred : (d.usedFree).cred = d.cred := rfl
@[simp] theorem usedFree_dbgNonce : (d.usedFree).dbgNonce = d.dbgNonce := rfl
@[simp] theorem usedFree_trngCtr : (d.usedFree).trngCtr = d.trngCtr := rfl
@[simp] theorem usedFree_storageKey : (d.usedFree).storageKey = d.storageKey := rfl
@[simp] theorem usedFree_meas : (d.usedFree).meas = d.meas := rfl
@[simp] theorem usedFree_loadRes : (d.usedFree).loadRes = d.loadRes := rfl
@[simp] theorem usedFree_loadRecs : (d.usedFree).loadRecs = d.loadRecs := rfl
@[simp] theorem usedFree_clusterFence : (d.usedFree).clusterFence = d.clusterFence := rfl
@[simp] theorem usedFree_gateReq : (d.usedFree).gateReq = d.gateReq := rfl
@[simp] theorem usedFree_gateAt : (d.usedFree).gateAt = d.gateAt := rfl
@[simp] theorem usedFree_ringFlits : (d.usedFree).ringFlits = d.ringFlits := rfl
@[simp] theorem usedFree_ringWait : (d.usedFree).ringWait = d.ringWait := rfl
@[simp] theorem usedFree_ringTurn : (d.usedFree).ringTurn = d.ringTurn := rfl
@[simp] theorem usedFree_skewRuns : (d.usedFree).skewRuns = d.skewRuns := rfl
@[simp] theorem usedFree_pcieUp : (d.usedFree).pcieUp = d.pcieUp := rfl
@[simp] theorem usedFree_bars : (d.usedFree).bars = d.bars := rfl
@[simp] theorem usedFree_released : (d.usedFree).released = d.released := rfl
@[simp] theorem usedFree_rstAt : (d.usedFree).rstAt = d.rstAt := rfl
@[simp] theorem usedFree_railsBad : (d.usedFree).railsBad = d.railsBad := rfl
@[simp] theorem usedFree_loadingAt : (d.usedFree).loadingAt = d.loadingAt := rfl
@[simp] theorem usedFree_inReset : (d.usedFree).inReset = d.inReset := rfl
@[simp] theorem usedFree_partOk : (d.usedFree).partOk = d.partOk := rfl
@[simp] theorem usedFree_enHeld : (d.usedFree).enHeld = d.enHeld := rfl
@[simp] theorem usedFree_throttled : (d.usedFree).throttled = d.throttled := rfl
@[simp] theorem usedFree_thermN : (d.usedFree).thermN = d.thermN := rfl
@[simp] theorem usedFree_alertN : (d.usedFree).alertN = d.alertN := rfl
@[simp] theorem usedFree_mailbox : (d.usedFree).mailbox = d.mailbox := rfl
@[simp] theorem usedFree_slotBad : (d.usedFree).slotBad = d.slotBad := rfl
@[simp] theorem usedFree_alarms : (d.usedFree).alarms = d.alarms := rfl
@[simp] theorem usedFree_overflow : (d.usedFree).overflow = d.overflow := rfl
@[simp] theorem usedFree_alarmSeq : (d.usedFree).alarmSeq = d.alarmSeq := rfl
@[simp] theorem usedFree_fwLog : (d.usedFree).fwLog = d.fwLog := rfl
@[simp] theorem usedFree_peers : (d.usedFree).peers = d.peers := rfl
@[simp] theorem usedFree_recovery : (d.usedFree).recovery = d.recovery := rfl
@[simp] theorem usedFree_margins : (d.usedFree).margins = d.margins := rfl
@[simp] theorem usedFree_rails : (d.usedFree).rails = d.rails := rfl
@[simp] theorem usedFree_railNak : (d.usedFree).railNak = d.railNak := rfl
@[simp] theorem usedFree_f (z : Fld) (j : Nat) : (d.usedFree).f z j = d.f z j := rfl
@[simp] theorem usedFree_on (z : Fld) (j : Nat) : (d.usedFree).on z j = d.on z j := rfl
@[simp] theorem usedFree_word (k' : Nat) : (d.usedFree).word k' = d.word k' := rfl

@[simp] theorem emit_out (o : Out) : (d.emit o).out = d.out ++ [o] := rfl
@[simp] theorem usedFree_freeCtr : d.usedFree.freeCtr = d.freeCtr + 1 := rfl

end Gateway

end Sys2Proof.Laws
end

