-- ==== Sys2Proof/Laws/Frames.lean ====
section
/-! SUPPORT. What is left unchanged: memory under a change of the gateway alone, register words under writes elsewhere, and the states
that the shared forms of a meaning answer. -/

namespace Sys2Proof.Laws

open Sys2Proof.Machine

theorem sameMem_refl (s : State) : SameMem s s := fun _ => rfl

/-- A change of the gateway alone touches no memory. -/
theorem sameMem_onDev (s : State) (f : Dev → Dev) : SameMem s (s.onDev f) := fun a => by rw [onDev_mem]

theorem sameMem_of_eq {s t : State} (h : t.mem = s.mem) : SameMem s t := fun a => by rw [h]

theorem sameWords_refl (s : State) (l : List Nat) : SameWords s s l := fun _ _ => rfl

/-- A field write touches its own word alone. -/
theorem sameWords_set (s : State) (x : Fld) (i v : Nat) {l : List Nat} (h : x.key i ∈ l) :
    SameWords s (s.onDev (fun d => d.set x i v)) l := by
  intro k hk
  rw [onDev_dev]
  exact word_set_other _ _ _ _ (fun e => hk (e ▸ h))

/-- Words after one change, then after a further field write. -/
theorem word_frame_set {d e : Dev} {l : List Nat} (h : ∀ k, k ∉ l → e.word k = d.word k) (x : Fld) (i v : Nat) (hx : x.key i ∈ l) :
    ∀ k, k ∉ l → (e.set x i v).word k = d.word k := by
  intro k hk
  have hne : k ≠ x.key i := fun he => hk (he ▸ hx)
  rw [word_set_other e x i v hne, h k hk]

/-- A timebase that did not move overtakes nothing (R239). -/
theorem overtaken_same (d e : Dev) (h : d.tb = e.tb) : d.overtaken e.ns40 = d := by
  have hn : d.ns40 = e.ns40 := by unfold Dev.ns40 Dev.tai; rw [h]
  have hp : ∀ a, passed a e.ns40 d.ns40 = false := by
    intro a
    rw [hn]
    unfold passed
    rw [Bool.and_eq_false_iff]
    simp only [decide_eq_false_iff_not]
    omega
  unfold Dev.overtaken
  simp only [hp, Bool.and_false, Bool.false_and, if_false, Bool.false_eq_true]

end Sys2Proof.Laws
end

