-- ==== Sys2Proof/Laws/Layout.lean ====
section
/-! SUPPORT. The register table has one row per key: finding the row of any instance of a register. -/

namespace Sys2Proof.Laws

open Sys2Proof.Machine

/-- A register of one instance stands between the instances of another. -/
def between (r q : LReg) : Bool := q.stride == 0 && decide (r.base < q.base) && (q.base - r.base) % r.stride != 0

/-- The keys of two rows never meet: they lie apart, or interleave at the same pitch. -/
def apart (r q : LReg) : Bool :=
  decide (r.base + r.stride * (r.count - 1) < q.base) || decide (q.base + q.stride * (q.count - 1) < r.base) ||
    (r.stride == q.stride && decide (r.base < q.base + r.stride) && decide (q.base < r.base + r.stride) && r.base != q.base) ||
    between r q || between q r

/-- Every row has an instance, and a row of one instance has pitch 0. -/
def rowOk (r : LReg) : Bool := decide (0 < r.count) && (r.stride != 0 || r.count == 1)

/-- No two rows of the register table meet. -/
theorem layout_apart : layout.Pairwise (fun r q => apart r q = true) := by decide +kernel

theorem layout_rowOk : ∀ r ∈ layout, rowOk r = true := by decide +kernel

theorem index_some {r : LReg} {key i : Nat} (h : r.index key = some i) (hr : rowOk r = true) :
    key = r.base + r.stride * i ∧ i < r.count := by
  unfold LReg.index at h
  simp only [rowOk, Bool.and_eq_true, decide_eq_true_eq, Bool.or_eq_true, bne_iff_ne, ne_eq, beq_iff_eq] at hr
  split at h
  · cases h
  · split at h
    · split at h
      · cases h; omega
      · cases h
    · split at h
      · next h1 h2 h3 =>
        cases h
        refine ⟨?_, h3.2⟩
        have := Nat.div_add_mod (key - r.base) r.stride
        omega
      · cases h

theorem index_of {r : LReg} {i : Nat} (hs : r.stride ≠ 0) (hi : i < r.count) : r.index (r.base + r.stride * i) = some i := by
  unfold LReg.index
  have h1 : ¬ r.base + r.stride * i < r.base := by omega
  have h2 : r.base + r.stride * i - r.base = r.stride * i := by omega
  rw [if_neg h1, if_neg hs, h2, Nat.mul_mod_right, Nat.mul_div_cancel_left _ (Nat.pos_of_ne_zero hs), if_pos ⟨rfl, hi⟩]

/-- A key is in one row only. -/
theorem apart_index {r q : LReg} {key i j : Nat} (h : apart r q = true) (hr : rowOk r = true) (hq : rowOk q = true)
    (h1 : r.index key = some i) (h2 : q.index key = some j) : False := by
  obtain ⟨e1, l1⟩ := index_some h1 hr
  obtain ⟨e2, l2⟩ := index_some h2 hq
  have m1 : r.stride * i ≤ r.stride * (r.count - 1) := Nat.mul_le_mul_left _ (by omega)
  have m2 : q.stride * j ≤ q.stride * (q.count - 1) := Nat.mul_le_mul_left _ (by omega)
  simp only [apart, Bool.or_eq_true, decide_eq_true_eq, Bool.and_eq_true, beq_iff_eq, bne_iff_ne, ne_eq] at h
  have btw : ∀ {r q : LReg} {i j : Nat}, between r q = true → r.base + r.stride * i = q.base + q.stride * j → False := by
    intro r q i j hb e
    simp only [between, Bool.and_eq_true, beq_iff_eq, decide_eq_true_eq, bne_iff_ne, ne_eq] at hb
    obtain ⟨⟨hs, hl⟩, hm⟩ := hb
    rw [hs, Nat.zero_mul, Nat.add_zero] at e
    exact hm (by rw [show q.base - r.base = r.stride * i by omega, Nat.mul_mod_right])
  rcases h with (((h | h) | ⟨⟨⟨hs, ha⟩, hb⟩, hc⟩) | h) | h
  · omega
  · omega
  · rw [← hs] at e2
    rcases Nat.lt_trichotomy i j with hij | hij | hij
    · have : r.stride * i + r.stride ≤ r.stride * j := by
        have := Nat.mul_le_mul_left r.stride (show i + 1 ≤ j from hij); rw [Nat.mul_add, Nat.mul_one] at this; exact this
      omega
    · subst hij; omega
    · have : r.stride * j + r.stride ≤ r.stride * i := by
        have := Nat.mul_le_mul_left r.stride (show j + 1 ≤ i from hij); rw [Nat.mul_add, Nat.mul_one] at this; exact this
      omega
  · exact btw h (e1.symm.trans e2)
  · exact btw h (e2.symm.trans e1)

theorem findReg_of {l : List LReg} (hp : l.Pairwise (fun r q => apart r q = true)) (hr : ∀ r ∈ l, rowOk r = true) {r : LReg}
    {key i : Nat} (hm : r ∈ l) (h : r.index key = some i) : findReg l key = some (r, i) := by
  induction l with
  | nil => exact absurd hm List.not_mem_nil
  | cons q t ih =>
    rw [List.pairwise_cons] at hp
    unfold findReg
    rcases List.mem_cons.mp hm with rfl | hm
    · rw [h]
    · cases hq : q.index key with
      | none => exact ih hp.2 (fun x hx => hr x (List.mem_cons_of_mem _ hx)) hm
      | some j => exact (apart_index (hp.1 r hm) (hr q List.mem_cons_self) (hr r (List.mem_cons_of_mem _ hm)) hq h).elim

/-- The row of instance `i` of a register that has several. -/
theorem findReg_instance {r : LReg} {i : Nat} (hm : r ∈ layout) (hs : r.stride ≠ 0) (hi : i < r.count) :
    findReg layout (r.base + r.stride * i) = some (r, i) :=
  findReg_of layout_apart layout_rowOk hm (index_of hs hi)

end Sys2Proof.Laws
end

