-- ==== Sys2Proof/Laws/Units.lean ====
section
/-! SUPPORT. Laws of the units beside the registers: what a unit's part of the state reads after a write of it, and what the shared
operations that put such parts in order leave alone. -/

namespace Sys2Proof.Laws

open Sys2Proof.Machine

/-! ### A read after a write -/

section Units

variable (d : Dev) (i j : Nat)

@[simp] theorem ring_setRing (x : RingX) : (d.setRing i x).ring j = if j = i then x else d.ring j := tabGet_tabPut _ _ _ _ _
@[simp] theorem cq_setCq (x : CqX) : (d.setCq i x).cq j = if j = i then x else d.cq j := tabGet_tabPut _ _ _ _ _
@[simp] theorem courier_setCourier (x : CourierX) : (d.setCourier i x).courier j = if j = i then x else d.courier j := tabGet_tabPut _ _ _ _ _
@[simp] theorem ctx_setCtx (x : Ctx) : (d.setCtx i x).ctx j = if j = i then x else d.ctx j := tabGet_tabPut _ _ _ _ _
@[simp] theorem peer_setPeer (x : PeerX) : (d.setPeer i x).peer j = if j = i then x else d.peer j := tabGet_tabPut _ _ _ _ _
@[simp] theorem half_setHalf (x : Option HalfKey) : (d.setHalf i x).half j = if j = i then x else d.half j := tabGet_tabPut _ _ _ _ _
@[simp] theorem bound_setBound (x : Option PairBind) : (d.setBound i x).bound j = if j = i then x else d.bound j := tabGet_tabPut _ _ _ _ _
@[simp] theorem lent_setLent (x : List Nat) : (d.setLent i x).lent j = if j = i then x else d.lent j := tabGet_tabPut _ _ _ _ _
@[simp] theorem sched_setSched (x : Sched) : (d.setSched i x).sched j = if j = i then x else d.sched j := tabGet_tabPut _ _ _ _ _
@[simp] theorem mark_setMark (x : MarkX) : (d.setMark i x).mark j = if j = i then x else d.mark j := tabGet_tabPut _ _ _ _ _
@[simp] theorem servoOf_setServo (x : ServoX) : (d.setServo i x).servoOf j = if j = i then x else d.servoOf j := tabGet_tabPut _ _ _ _ _
@[simp] theorem slaveOf_setSlave (x : SlaveX) : (d.setSlave i x).slaveOf j = if j = i then x else d.slaveOf j := tabGet_tabPut _ _ _ _ _
@[simp] theorem marginX_setMarginX (x : MarginX) : (d.setMarginX i x).marginX j = if j = i then x else d.marginX j := tabGet_tabPut _ _ _ _ _
@[simp] theorem kwOf_setKw (x : KwX) : (d.setKw i x).kwOf j = if j = i then x else d.kwOf j := tabGet_tabPut _ _ _ _ _
@[simp] theorem lineOf_setLine (x : LineX) : (d.setLine i x).lineOf j = if j = i then x else d.lineOf j := tabGet_tabPut _ _ _ _ _
@[simp] theorem pmOf_setPm (x : PmX) : (d.setPm i x).pmOf j = if j = i then x else d.pmOf j := tabGet_tabPut _ _ _ _ _
@[simp] theorem wfqOf_setWfq (x : WfqX) : (d.setWfq i x).wfqOf j = if j = i then x else d.wfqOf j := tabGet_tabPut _ _ _ _ _
@[simp] theorem portQueue_setPortQueue (x : List LrmOut) : (d.setPortQueue i x).portQueue j = if j = i then x else d.portQueue j := tabGet_tabPut _ _ _ _ _
@[simp] theorem ptpQueue_setPtpQueue (x : List PtpOut) : (d.setPtpQueue i x).ptpQueue j = if j = i then x else d.ptpQueue j := tabGet_tabPut _ _ _ _ _

/-- A count just set reads back, and the others stay. -/
@[simp] theorem countOf_setCount (t : List (Nat × Nat)) (v : Nat) : countOf (setCount t i v) j = if j = i then v else countOf t j :=
  tabGet_tabPut _ _ _ _ _

/-- An image just put reads back, and the other version stays. -/
@[simp] theorem at_put_same (x : Images) (v : Nat) (img : List Byte) : (x.put v img).at_ v = img := by
  by_cases h : v = 0 <;> simp [Images.put, Images.at_, h]
theorem at_put_other (x : Images) (v w : Nat) (img : List Byte) (h : v = 0 ↔ w ≠ 0) : (x.put v img).at_ w = x.at_ w := by
  by_cases hw : w = 0 <;> simp_all [Images.put, Images.at_]

/-! ### Words under a change of a unit -/

@[simp] theorem word_setRing (x : RingX) : (d.setRing i x).word j = d.word j := rfl
@[simp] theorem word_setCq (x : CqX) : (d.setCq i x).word j = d.word j := rfl
@[simp] theorem word_setCourier (x : CourierX) : (d.setCourier i x).word j = d.word j := rfl
@[simp] theorem word_setCtx (x : Ctx) : (d.setCtx i x).word j = d.word j := rfl
@[simp] theorem word_setPeer (x : PeerX) : (d.setPeer i x).word j = d.word j := rfl
@[simp] theorem word_setHalf (x : Option HalfKey) : (d.setHalf i x).word j = d.word j := rfl
@[simp] theorem word_setBound (x : Option PairBind) : (d.setBound i x).word j = d.word j := rfl
@[simp] theorem word_setLent (x : List Nat) : (d.setLent i x).word j = d.word j := rfl
@[simp] theorem word_setSched (x : Sched) : (d.setSched i x).word j = d.word j := rfl
@[simp] theorem word_setMark (x : MarkX) : (d.setMark i x).word j = d.word j := rfl
@[simp] theorem word_setServo (x : ServoX) : (d.setServo i x).word j = d.word j := rfl
@[simp] theorem word_setSlave (x : SlaveX) : (d.setSlave i x).word j = d.word j := rfl
@[simp] theorem word_setMarginX (x : MarginX) : (d.setMarginX i x).word j = d.word j := rfl
@[simp] theorem word_setKw (x : KwX) : (d.setKw i x).word j = d.word j := rfl
@[simp] theorem word_setLine (x : LineX) : (d.setLine i x).word j = d.word j := rfl
@[simp] theorem word_setPm (x : PmX) : (d.setPm i x).word j = d.word j := rfl
@[simp] theorem word_setWfq (x : WfqX) : (d.setWfq i x).word j = d.word j := rfl
@[simp] theorem word_setPortQueue (x : List LrmOut) : (d.setPortQueue i x).word j = d.word j := rfl
@[simp] theorem word_setPtpQueue (x : List PtpOut) : (d.setPtpQueue i x).word j = d.word j := rfl

end Units

/-! ### Shared operations -/

section Shared

variable (d : Dev)

/-- What a message of a vector can do: a masked one becomes pending, any other leaves on the port; nothing else changes (R66). -/
theorem sendMsix_cases (f v : Nat) :
    ((f, v) ∈ d.msix.masked ∧ ∃ l, (f, v) ∈ l ∧ d.sendMsix f v = { d with msix := { d.msix with pend := l } }) ∨
      ((f, v) ∉ d.msix.masked ∧ d.sendMsix f v = d.emit (.msix f v)) := by
  by_cases h : (f, v) ∈ d.msix.masked
  · refine .inl ⟨h, ?_⟩
    by_cases hp : (f, v) ∈ d.msix.pend
    · exact ⟨d.msix.pend, hp, by simp [Dev.sendMsix, h, hp]⟩
    · exact ⟨d.msix.pend ++ [(f, v)], by simp, by simp [Dev.sendMsix, h, hp]⟩
  · exact .inr ⟨h, by simp [Dev.sendMsix, h]⟩
@[simp] theorem sendMsix_words (f v : Nat) : (d.sendMsix f v).words = d.words := by
  rcases sendMsix_cases d f v with ⟨_, l, _, h⟩ | ⟨_, h⟩ <;> simp [h, Dev.emit]
@[simp] theorem word_sendMsix (f v k : Nat) : (d.sendMsix f v).word k = d.word k := by simp [Dev.word]

/-- Spoiling a destination takes free values and writes memory; the gateway is otherwise as before (R32). -/
theorem spoilDest_words (l : List (Nat × Nat × Nat)) (m : List Host.Cell) : (spoilDest l d m).1.words = d.words := by
  suffices h : ∀ (a : Dev × List Host.Cell), a.1.words = d.words → (spoilDest l a.1 a.2).1.words = d.words from h (d, m) rfl
  induction l with
  | nil => exact fun a h => h
  | cons r t ih =>
    intro a h
    by_cases hr : r.2.2 = 0
    · simpa [spoilDest, hr] using ih a h
    · have := ih (a.1.usedFree, memWrite a.2 (a.1.winKey r.1 r.2.1) ((List.range r.2.2).map (Config.freeByte a.1.freeCtr))) h
      simpa [spoilDest, hr] using this

/-- Settling the line selectors changes their tags alone (R341). -/
theorem lineSettle_words : d.lineSettle.words = d.words := rfl
theorem lineSettle_ctxs : d.lineSettle.ctxs = d.ctxs := rfl
theorem lineSettle_ptpQ : d.lineSettle.ptpQ = d.ptpQ := rfl
theorem lineSettle_portQ : d.lineSettle.portQ = d.portQ := rfl

/-- A selector of a port keeps its tags when the line selectors settle (R341). -/
theorem mem_lineSettle {e : Nat × WfqX} (he : lineSelector e.1 = false) (h : e ∈ d.wfq) : e ∈ d.lineSettle.wfq := by
  simp only [Dev.lineSettle, List.mem_filterMap]
  exact ⟨e, h, by simp [he]⟩

/-- Nothing is swept while no recovery is measured (R376). -/
theorem recoverSweep_none (h : d.recovery = none) : d.recoverSweep = d := by simp [Dev.recoverSweep, h]

/-- Nothing is swept while every watched request is outstanding (R376). -/
theorem recoverSweep_all {r : Recovery} (h : d.recovery = some r) (hr : r.reqs.all (fun t => d.reqs.any (fun (q : Req) => q.tag == t)) = true) :
    d.recoverSweep = d := by
  simp [Dev.recoverSweep, h]
  intro x hx hn
  rw [List.all_eq_true] at hr
  have := hr x hx
  rw [List.any_eq_true] at this
  obtain ⟨q, hq, he⟩ := this
  exact absurd (by simpa using he) (hn q hq)

/-- A meter never holds more than CBS and PBS let it (R338). -/
theorem meterNow_le (t : Nat) : (d.meterNow t).tc ≤ (d.meterFull t).tc ∧ (d.meterNow t).tp ≤ (d.meterFull t).tp := by
  unfold Dev.meterNow
  split
  · exact ⟨le_refl _, le_refl _⟩
  · exact ⟨min_le_left _ _, min_le_left _ _⟩

end Shared

end Sys2Proof.Laws
end

