-- ==== Sys2Proof/Machine/Bars.lean ====
section
/-! DEFINITION. The base address registers of the PCIe functions (R400), the masks of MSI-X (R66) and the accesses to BAR4 (R313, R401). The table of
steps has no row for an access to configuration space, to a mask or to a RECORD, so these are functions that no command runs (log entry 77): a commit is the command of its OP. -/

namespace Sys2Proof.Machine

open Sys2Proof

/-! ### Base address registers (R400) -/

/-- The size of a BAR of function f, where it implements it: the physical function is function 0. -/
def barSize (f i : Nat) : Option Nat :=
  match i with
  | 0 => if f = 0 then some (2 ^ 26) else none
  | 2 => some (2 ^ 24)
  | 4 => some (2 ^ 16)
  | _ => none

/-- The 64 bits of the register pair of BAR i: the address on a boundary of its size, and in the low bits the type, 64-bit and
non-prefetchable (R400; the code of the type is PRESUMED, log entry 115); 0 where the function does not implement it, or configuration
requests are not answered yet (R359). -/
def Dev.barReg (d : Dev) (f i : Nat) : Nat :=
  match barSize f i with
  | none => 0
  | some n => if d.pcieUp then countOf d.bars (8 * f + i) / n * n + 4 else 0

/-- A 32-bit read of the register at number i of function f: the even one holds the low half of BAR i, the odd one the high half of the BAR
before. -/
def readBarReg (f i : Nat) (s : State) : Nat := if i % 2 = 0 then s.dev.barReg f i % 2 ^ 32 else s.dev.barReg f (i - 1) / 2 ^ 32

/-- A 32-bit write of the register at number i of function f; bits below the size stay 0. -/
def writeBarReg (f i : Nat) (v : BitVec 32) (s : State) : State :=
  let b := i / 2 * 2
  let k := 8 * f + b
  let old := countOf s.dev.bars k
  let new := if i % 2 = 0 then old / 2 ^ 32 * 2 ^ 32 + v.toNat else old % 2 ^ 32 + 2 ^ 32 * v.toNat
  match barSize f b with
  | none => s
  | some n => if s.dev.pcieUp then s.onDev (fun d => { d with bars := setCount d.bars k (new / n * n) }) else s

/-! ### MSI-X masks (R66) -/

/-- Software masks or unmasks vector v of function f; the message that a mask held back goes out when the mask is taken away, as the pending
bits of PCIe have it (log entry 127). -/
def maskMsix (f v : Nat) (masked : Bool) (s : State) : State :=
  s.onDev (fun d =>
    let rest := d.msix.masked.filter (· != (f, v))
    if masked then { d with msix := { d.msix with masked := rest ++ [(f, v)] } }
    else
      let d1 : Dev := { d with msix := ⟨rest, d.msix.pend.filter (· != (f, v))⟩ }
      if d.msix.pend.contains (f, v) then d1.emit (.msix f v) else d1)

/-! ### BAR4 (R313, R401) -/

/-- The RECORD of a channel: 256 bytes. -/
def Dev.loadBytes (d : Dev) (f ch : Nat) : List Byte := slice (tabGet (fun _ => []) d.loadRecs (16 * f + ch)) 0 256

/-- The fields of a RECORD (Table 11.9); a bit of its first 16 bytes that no field takes is reserved. -/
def recordOf (b : List Byte) : LoadRecord :=
  let u := leAt b 0 8
  let w := leAt b 8 8
  { half := BitVec.ofNat 1 (u / 2 ^ 4), tenant := BitVec.ofNat 10 (u / 2 ^ 16), slot := BitVec.ofNat 16 (u / 2 ^ 32),
    job := BitVec.ofNat 12 w, site := BitVec.ofNat 5 (w / 2 ^ 12), cls := BitVec.ofNat 4 (w / 2 ^ 20), wing := BitVec.ofNat 2 (w / 2 ^ 24),
    epoch := BitVec.ofNat 32 (w / 2 ^ 32),
    reserved := u / 2 ^ 5 % 2 ^ 11 != 0 || u / 2 ^ 26 % 2 ^ 6 != 0 || u / 2 ^ 48 != 0 || w / 2 ^ 17 % 2 ^ 3 != 0 || w / 2 ^ 26 % 2 ^ 6 != 0,
    key := slice b 0x10 97, tag := slice b 0x30 16, nonce := slice b 0x40 12 }

/-- COMMIT: the command of the RECORD's OP; an OP outside 1 to 4 is BAD_DESCRIPTOR (R313 step 1). `tagOk` says that the tag of a LOAD_WRAPPED
verifies. -/
def loadCommit (f : Fin 256) (ch : Fin 16) (tagOk : Bool) (s : State) : State :=
  let b := s.dev.loadBytes f ch
  let r := recordOf b
  match leAt b 0 1 % 16 with
  | 1 => s.afterRes (execLoad f ch r s)
  | 2 => s.afterRes (execLoadWrapped f ch r tagOk s)
  | 3 => s.afterRes (execClear f ch r s)
  | 4 => s.afterRes (execSetKek f ch r s)
  | _ => s.onDev (fun d => if d.ready then d.loadRefuse f ch 0x01 else d)

/-- A write of `size` bytes at a BAR4 offset of function f (R359, R401): aligned 32 or 64 bits of a RECORD, or of COMMIT; nothing else has an
effect. -/
def writeBar4 (f : Fin 256) (off size : Nat) (v : Word) (tagOk : Bool) (s : State) : State :=
  let ch : Fin 16 := Fin.ofNat 16 (off / 4096)
  let o := off % 4096
  if !s.dev.ready || decide (65536 ≤ off) || !(size == 4 || size == 8) || off % size != 0 then s
  else if o < 0x100 then
    let old := s.dev.loadBytes f ch
    s.onDev (fun d => { d with
      loadRecs := tabIns (16 * f + ch) (old.take o ++ leBytes size v.toNat ++ old.drop (o + size)) (d.loadRecs.filter (fun e => e.1 != 16 * f + ch)) })
  else if o = 0xFF8 ∧ v.toNat % 2 = 1 then loadCommit f ch tagOk s
  else s

/-- RESULT of a channel: SEQ, STATUS, DONE. -/
def Dev.loadResult (d : Dev) (f ch : Nat) : Nat :=
  match d.loadRes.find? (fun e => e.1 == 16 * f + ch) with
  | some e => e.2.1 + 2 ^ 16 * e.2.2 + 2 ^ 31
  | none => 0

/-- A read of BAR4: an aligned 64-bit read of RESULT; any other returns 0 (R401). -/
def readBar4 (f off size : Nat) (s : State) : Word :=
  if s.dev.ready && decide (off < 65536) && size == 8 && off % 4096 == 0xFF8 then BitVec.ofNat 64 (s.dev.loadResult f (off / 4096)) else 0

end Sys2Proof.Machine
end

