-- ==== Sys2Proof/Tests/Slice0.lean ====
section
/-! SUPPORT. Tests: the checks of well-formedness, states that meet the hypotheses of the statements, and worked values. -/

namespace Sys2Proof.Tests

open Sys2Proof.Machine

set_option maxRecDepth 100000

/-- The state right after power-on with the listed fields written (place, instance, value). -/
def mk (l : List (Fld × Nat × Nat)) : State := State.reset.onDev (fun d => l.foldl (fun (a : Dev) e => a.set e.1 e.2.1 e.2.2) d)

/-- A state in which boot has reached READY, with further fields written. -/
def mkReady (l : List (Fld × Nat × Nat)) : State := mk ((R.SYS_BOOT.STATE, 0, 4) :: l)

/-! IdleStepIsOneTick -/

theorem meets_idle : State.reset.pending = [] ∧ State.reset.dev.yBase = 0 ∧ State.reset.dev.slewNow = 0 ∧ State.reset.dev.tbRem = 0 := by decide

/-! StepKeepsMemoryCanonical -/

theorem meets_memWf : memWf State.reset.mem ∧ ∃ t, step State.reset = .next t := ⟨by decide, _, rfl⟩

/-! StepKeepsRegistersCanonical -/

theorem meets_wordsWf : tabWf resetWord State.reset.dev.words ∧ ∃ t, step State.reset = .next t := ⟨by decide, _, rfl⟩

/-! RegisterWritesThatHaveNoEffect -/

theorem meets_write_misaligned : ¬ ((8 : Nat) = 8 ∧ 4 % 8 = 0) ∧ ¬ ((8 : Nat) = 4 ∧ 4 % 4 = 0) ∧
    ¬ ((2 : Nat) = 8 ∧ 0 % 8 = 0) ∧ ¬ ((2 : Nat) = 4 ∧ 0 % 4 = 0) := by decide
theorem meets_write_before_ready : State.reset.dev.f R.SYS_BOOT.STATE ≠ 4 ∧ earlyKey 0x700000 = false ∧ 0x700000 % 8 = 0 := by decide

/-! RegisterWriteTakesEachFieldByItsClass -/

theorem meets_write_ready : (mkReady []).dev.f R.SYS_BOOT.STATE = 4 ∧ (mkReady []).dev.f R.HEALTH_CTL.ENABLE = 0 := by decide
theorem meets_write_ready_enabled : (mkReady [(R.HEALTH_CTL.ENABLE, 0, 1)]).dev.f R.SYS_BOOT.STATE = 4 ∧
    (mkReady [(R.HEALTH_CTL.ENABLE, 0, 1)]).dev.f R.HEALTH_CTL.ENABLE = 1 := by decide

/-! HalfWordWriteKeepsTheOtherHalf -/

theorem meets_fields_no_counter : ∀ g ∈ ([⟨0, 16, .live, 10⟩, ⟨16, 16, .static, 0⟩] : List LField), g.kind ≠ .cnt := by decide

/-! WriteKeepsReadOnlyAndReservedBits -/

theorem meets_reserved_bits : (findReg layout 0x800000).all (fun p => p.1.fields.all (fun g => g.kind = .ro || g.lo + g.w ≤ 63)) = true ∧
    (findReg layout 0x800000).isSome = true := by decide

/-! TableAccessFollowsTheSelector -/

theorem meets_table_access : let s := mkReady [(R.GLOBAL_TBL_SEL.TABLE, 0, 3), (R.GLOBAL_TBL_SEL.INDEX, 0, 2 ^ 22 - 1)]
    s.dev.f R.SYS_BOOT.STATE = 4 ∧ s.dev.f R.GLOBAL_TBL_SEL.TABLE = 3 ∧ s.dev.f R.GLOBAL_TBL_SEL.WORD = 0 := by decide
theorem meets_table_meter_read : let s := mkReady [(R.GLOBAL_TBL_SEL.TABLE, 0, 4), (R.GLOBAL_TBL_SEL.WORD, 0, 3), (R.GLOBAL_TBL_SEL.INDEX, 0, 65535)]
    s.dev.f R.SYS_BOOT.STATE = 4 ∧ s.dev.f R.GLOBAL_TBL_SEL.TABLE = 4 ∧ s.dev.f R.GLOBAL_TBL_SEL.WORD = 3 ∧ s.dev.f R.GLOBAL_TBL_SEL.INDEX < 65536 := by decide
theorem meets_job_write : let s := mkReady [(R.GLOBAL_TBL_SEL.TABLE, 0, 1), (R.GLOBAL_TBL_SEL.INDEX, 0, 4095)]
    s.dev.f R.SYS_BOOT.STATE = 4 ∧ s.dev.f R.GLOBAL_TBL_SEL.TABLE = 1 ∧ s.dev.f R.GLOBAL_TBL_SEL.WORD = 0 ∧ s.dev.f R.GLOBAL_TBL_SEL.INDEX < 4096 ∧
      s.dev.f R.JOB.VALID (s.dev.f R.GLOBAL_TBL_SEL.INDEX) = 0 ∧ s.dev.jobIdle (s.dev.f R.GLOBAL_TBL_SEL.INDEX) = true ∧
      (1 : Word).getLsbD 0 = true ∧ bitsOf 1 11 23 = 0 := by decide

/-! TableAccessOutOfRangeHasNoEffect -/

theorem meets_table_out_of_range : ∀ t ∈ [(0, 1024, 0), (0, 0, 4), (1, 4096, 0), (2, 262144, 0), (2, 0, 1), (3, 0, 1), (4, 65536, 3), (5, 16384, 1), (6, 0, 0)],
    let s := mkReady [(R.GLOBAL_TBL_SEL.TABLE, 0, t.1), (R.GLOBAL_TBL_SEL.INDEX, 0, t.2.1), (R.GLOBAL_TBL_SEL.WORD, 0, t.2.2)]
    s.dev.f R.SYS_BOOT.STATE = 4 ∧ (s.dev.f R.GLOBAL_TBL_SEL.TABLE, s.dev.f R.GLOBAL_TBL_SEL.INDEX) = (t.1, t.2.1 % 2 ^ 22) := by decide

/-! DoorbellsMoveTheirIndex -/

/-- Ring 3 and queue 5 of function 0, enabled with 64 slots; TAIL of the queue at 2. -/
def ringUp : State := mkReady [(R.SQ_CTL.ENABLE, 3, 1), (R.SQ_CTL.SIZE_LOG, 3, 6), (R.SQ_CTL.CQ, 3, 5), (R.CQ_CTL.ENABLE, 5, 1),
  (R.CQ_CTL.SIZE_LOG, 5, 6), (R.CQ_STATE.TAIL, 5, 2)]
theorem meets_ring_doorbell : ringUp.dev.f R.SYS_BOOT.STATE = 4 ∧ ringUp.dev.f R.SQ_CTL.LOC 3 = 0 ∧ ringUp.dev.f R.SQ_BIND.SRC 3 = (0 : Fin 256) ∧
    ringUp.dev.f R.SQ_CTL.ENABLE 3 = 1 ∧ (ringUp.dev.ring 3).tear = 0 := by decide
theorem meets_queue_doorbell : ringUp.dev.f R.CQ_CTL.LOC 5 = 0 ∧ ringUp.dev.f R.CQ_BIND.DST 5 = (0 : Fin 256) ∧ ringUp.dev.f R.CQ_CTL.ENABLE 5 = 1 := by decide

/-! DoorbellsToNoQueueAreDropped -/

theorem meets_doorbell_no_match : ringUp.dev.f R.SQ_BIND.SRC 3 ≠ (1 : Fin 256) ∧ ringUp.dev.f R.CQ_BIND.DST 5 ≠ (1 : Fin 256) ∧
    ringUp.dev.f R.SQ_CTL.ENABLE 4 = 0 ∧ (ringUp.dev.ring 4).tear = 0 ∧ ringUp.dev.f R.CQ_CTL.ENABLE 6 = 0 := by decide
theorem meets_doorbell_teardown : let s := ringUp.onDev (fun d => d.setRing 3 { d.ring 3 with tear := 1 })
    s.dev.f R.SYS_BOOT.STATE = 4 ∧ s.dev.f R.SQ_CTL.LOC 3 = 0 ∧ s.dev.f R.SQ_BIND.SRC 3 = (0 : Fin 256) ∧ (s.dev.ring 3).tear ≠ 0 := by decide

/-! QueuesRearmAndFire -/

theorem meets_queue_in_range : (2 + 2 ^ 32 - ringUp.dev.f R.CQ_STATE.HEAD 5) % 2 ^ 32 ≤
    (ringUp.dev.f R.CQ_STATE.TAIL 5 + 2 ^ 32 - ringUp.dev.f R.CQ_STATE.HEAD 5) % 2 ^ 32 := by decide
theorem meets_coalescing_timer : let s := (mkReady []).onDev (fun d => { d.setCq 5 { armed := true, p := 2, timer := some (7, 20) } with now := 20007 })
    (s.dev.cq 5).timer = some (7, 20) ∧ 20 ≠ 0 ∧ 1000 * 20 ≤ s.dev.now - 7 ∧ s.dev.f R.CQ_CTL.LOC 5 = 0 := by decide
theorem meets_coalescing_timer_early : let s := (mkReady []).onDev (fun d => { d.setCq 5 { armed := true, p := 2, timer := some (7, 20) } with now := 20006 })
    (s.dev.cq 5).timer = some (7, 20) ∧ s.dev.now - 7 < 1000 * 20 := by decide

/-! DescriptorsAreFetchedOrGivenUp -/

theorem meets_fetch : (mkReady [(R.GLOBAL_CTL.TEN_EN, 0, 1), (R.SQ_CTL.ENABLE, 3, 1), (R.SQ_CTL.SIZE_LOG, 3, 6), (R.SQ_CTL.CQ, 3, 5),
    (R.CQ_CTL.SIZE_LOG, 5, 6), (R.SQ_STATE.TAIL, 3, 1)]).dev.selectRing = some 3 := by decide
theorem meets_fetch_failed : ((ringUp.onDev (fun d => d.setRing 3 { d.ring 3 with reading := some (0, 1) })).dev.ring 3).reading = some (0, 1) := by decide
theorem meets_sq_abort : ringUp.dev.f R.SYS_BOOT.STATE = 4 ∧ (ringUp.dev.ring 3).tear ≠ 1 := by decide
theorem meets_abort_record : let s := (mkReady [(R.SQ_CTL.CQ, 3, 5), (R.CQ_CTL.SIZE_LOG, 5, 6), (R.SQ_STATE.TAIL, 3, 1)]).onDev (fun d => d.setRing 3 { d.ring 3 with tear := 1 })
    (s.dev.ring 3).tear ≠ 0 ∧ s.dev.f R.SQ_STATE.TAIL 3 ≠ s.dev.f R.SQ_STATE.HEAD 3 ∧ s.dev.cqCredit (s.dev.f R.SQ_CTL.CQ 3) ≠ 0 := by decide

/-! RingsAndQueuesAreEnabledAfterTheirChecks -/

theorem meets_sq_ctl : (mkReady []).dev.f R.SYS_BOOT.STATE = 4 ∧ (mkReady []).dev.f R.SQ_CTL.ENABLE 3 = 0 ∧ (mkReady []).dev.ringIdle 3 = true ∧
    (mkReady []).dev.f R.CQ_CTL.ENABLE 3 = 0 ∧ (mkReady []).dev.cqIdle 3 = true ∧ (1#64).getLsbD 0 = true := by decide
theorem meets_sq_ctl_enabled : ringUp.dev.f R.SYS_BOOT.STATE = 4 ∧ ringUp.dev.f R.SQ_CTL.ENABLE 3 = 1 := by decide

/-! CompletionRecordsAreWritten -/

/-- Operation 0 of ring 3, a NOP of tag 7, done with OK. -/
def opDone : State := (mkReady [(R.SQ_CTL.CQ, 3, 5), (R.CQ_CTL.SIZE_LOG, 5, 6)]).onDev (fun d =>
  { d with ops := [{ newOp 3 0 (descOf (leBytes 8 (7 * 2 ^ 32))) with stage := .done }] })
theorem meets_completion_record : ∃ o, opDone.dev.getOp 3 (0#32).toNat = some o ∧ o.stage = .done ∧
    opDone.dev.colls.any (fun c => c.ended.isNone && c.members.any (fun k => k.ring == 3 && k.index == (0#32).toNat)) = false ∧
    opDone.dev.f R.CQ_CTL.LOC (opDone.dev.f R.SQ_CTL.CQ 3) = 0 := ⟨_, rfl, by decide, by decide, by decide⟩
/-- The worked example of R66: word 0 of a record with OPCODE 1, STATUS 1, DETAIL 3, USER_TAG 0xA3 and PHASE 1. -/
theorem test_record_word : leAt (recBytes {
    source := 0, opcode := 1, status := 1, detail := 3, userTag := 0xA3, sq := 17, sqHead := 66, value := 0,
    index := 63, events := 0, window := 0, irq := false } 1) 0 8 = 0x000000A303010101 := by decide

/-! StartedDescriptorsAreCheckedOrHeld -/

/-- A descriptor of the opcode, kind and rank given: 64 bytes from offset 0 to offset 0, ordinals 0. -/
def desc (op kind rank : Nat) (w5 w7 : Nat := 0) : Desc :=
  { w0 := BitVec.ofNat 64 op, w1 := BitVec.ofNat 64 (rank + kind * 2 ^ 34), w2 := 64, w3 := 0, w4 := 0, w5 := BitVec.ofNat 64 w5, w6 := 0,
    w7 := BitVec.ofNat 64 w7 }
/-- The same state with descriptor x, of index 9, at the front of ring 3. -/
def front (x : Desc) (s : State) : State := s.onDev (fun d => d.setRing 3 { d.ring 3 with fetched := [(9, x)] })
/-- An operation of a FENCE of scope "all" waits on ring 3. -/
def fenceWaits (s : State) : State := s.onDev (fun d => { d with ops := [{ newOp 3 8 (desc 0x106 0 0) with stage := .waiting }] })
theorem meets_started_descriptor : ∀ e ∈ startCommands 3, let x := desc e.2.1 (e.2.2.getD 0) 0; let s := front x (mkReady [])
    (s.dev.ring 3).fetched = [(9, x)] ∧ x.opcode = e.2.1 ∧ e.2.2.all (fun k => x.kind = k) ∧ s.dev.getOp 3 9 = none ∧
      fenceHeld (s.dev.opsOf 3) x = false ∧ s.dev.submitCheck 3 x s.mem = some ⟨0x03, 0x00⟩ := by decide
theorem meets_held_descriptor : let x := desc 1 0 0; let s := front x (fenceWaits (mkReady []))
    (s.dev.ring 3).fetched = [(9, x)] ∧ x.opcode = 1 ∧ s.dev.getOp 3 9 = none ∧ fenceHeld (s.dev.opsOf 3) x = true := by decide

/-! RemoteOperationsJoinTheirContext -/

/-- A state in which operations of ring 3 (job 1, tenant 0, ranks 0 here and 1 at site 1) pass their checks, with context 4 OPEN
toward site 1. -/
def opReady : State := (mkReady [(R.TENANT.ENABLE, 0, 1), (R.JOB.VALID, 1, 1), (R.JOB.RANKS, 1, 2), (R.JOB.ORDS, 1, 1), (R.SQ_BIND.JOB, 3, 1),
    (R.REGISTRAR.VALID, 0, 1), (R.REGISTRAR.VALID, 1, 1), (R.REGISTRAR.SITE, 1, 1), (R.LAYOUT.LEN, 64, 4096), (R.LAYOUT.RIGHTS, 64, 31),
    (R.WINDOW.VALID, 0, 1), (R.WINDOW.JOB, 0, 1), (R.WINDOW.RIGHTS, 0, 31), (R.WINDOW.LEN, 0, 4096), (R.TENANT.DELTA_COUNT, 0, 4),
    (R.DELTA.STATE, 0, 2), (R.DELTA.JOB, 0, 1), (R.DELTA.RANK, 0, 1), (R.DELTA.LEN, 0, 64)]).onDev (fun d =>
  ({ d with deltasOut := [{
      slot := 0, tenant := 0, rord := 0, lord := 0, roff := 0, loff := 0, rank := 0, win := 0, site := 1,
      snap := List.replicate 64 0, stack := 0, mirror := false, fresh := false }] } : Dev).setCtx 4
    { Ctx.empty with state := .opened, job := 1, cls := 0, site := 1 })
theorem meets_remote_operation : ∀ op ∈ [1, 2, 3, 4, 5], let x := desc op 0 1; let s := front x opReady
    (s.dev.ring 3).fetched = [(9, x)] ∧ x.opcode = op ∧ s.dev.getOp 3 9 = none ∧ fenceHeld (s.dev.opsOf 3) x = false ∧
      s.dev.submitCheck 3 x s.mem = none ∧ s.dev.f R.REGISTRAR.SITE (s.dev.f R.JOB.REG_BASE (s.dev.f R.SQ_BIND.JOB 3) + x.rank) ≠ s.dev.site ∧
      s.dev.ctxOf ⟨s.dev.f R.SQ_BIND.JOB 3, 1, 0, 0⟩ = some 4 ∧ (s.dev.ctx 4).state = .opened ∧ (s.dev.opsOn 4).length < 65536 ∧
      s.dev.waiters ⟨s.dev.f R.SQ_BIND.JOB 3, 1, 0, 0⟩ = [] := by decide

/-! LocalOperationsRunAtOnce -/

theorem meets_local_operation : ∀ op ∈ [1, 2, 3, 4, 5], let x := desc op 0 0; let s := front x opReady
    (s.dev.ring 3).fetched = [(9, x)] ∧ x.opcode = op ∧ s.dev.getOp 3 9 = none ∧ fenceHeld (s.dev.opsOf 3) x = false ∧
      s.dev.submitCheck 3 x s.mem = none ∧ s.dev.f R.REGISTRAR.SITE (s.dev.f R.JOB.REG_BASE (s.dev.f R.SQ_BIND.JOB 3) + x.rank) = s.dev.site := by decide

/-! NopsFencesAndDeltasAreAdmitted -/

theorem meets_nop_fence : ∀ op ∈ [0, 6], let x := desc op 0 1; let s := front x opReady
    (s.dev.ring 3).fetched = [(9, x)] ∧ x.opcode = op ∧ s.dev.getOp 3 9 = none ∧ fenceHeld (s.dev.opsOf 3) x = false ∧
      s.dev.submitCheck 3 x s.mem = none := by decide
theorem meets_delta_put : let x := desc 7 0 1; let s := front x opReady
    (s.dev.ring 3).fetched = [(9, x)] ∧ x.opcode = 7 ∧ s.dev.getOp 3 9 = none ∧ fenceHeld (s.dev.opsOf 3) x = false ∧
      s.dev.submitCheck 3 x s.mem = none ∧ s.dev.f R.REGISTRAR.SITE (s.dev.f R.JOB.REG_BASE (s.dev.f R.SQ_BIND.JOB 3) + x.rank) ≠ s.dev.site ∧
      s.dev.ctxOf ⟨s.dev.f R.SQ_BIND.JOB 3, 1, 0, 0⟩ = some 4 ∧ (s.dev.ctx 4).state = .opened ∧ (s.dev.opsOn 4).length < 65536 ∧
      s.dev.waiters ⟨s.dev.f R.SQ_BIND.JOB 3, 1, 0, 0⟩ = [] ∧
      s.dev.deltasOut.any (fun y => y.slot == s.dev.f R.TENANT.DELTA_BASE 0 + x.dslot && (y.lost || y.fresh)) = false ∧
      s.dev.f R.DELTA.STATE (s.dev.f R.TENANT.DELTA_BASE 0 + x.dslot) = 2 := by decide
/-- The same with slot 0 EMPTY; the tenant may take so many pages. -/
def deltaEmpty (pages : Nat) : State := opReady.onDev (fun d => { (d.set R.DELTA.STATE 0 0).set R.TENANT.ANNEX_PAGES 0 pages with deltasOut := [] })
theorem meets_delta_first : ∀ n ∈ [0, 1], let x := desc 7 0 1; let s := front x (deltaEmpty n)
    (s.dev.ring 3).fetched = [(9, x)] ∧ x.opcode = 7 ∧ s.dev.getOp 3 9 = none ∧ fenceHeld (s.dev.opsOf 3) x = false ∧
      s.dev.submitCheck 3 x s.mem = none ∧ s.dev.f R.REGISTRAR.SITE (s.dev.f R.JOB.REG_BASE (s.dev.f R.SQ_BIND.JOB 3) + x.rank) ≠ s.dev.site ∧
      s.dev.ctxOf ⟨s.dev.f R.SQ_BIND.JOB 3, 1, 0, 0⟩ = some 4 ∧ (s.dev.ctx 4).state = .opened ∧ (s.dev.opsOn 4).length < 65536 ∧
      s.dev.waiters ⟨s.dev.f R.SQ_BIND.JOB 3, 1, 0, 0⟩ = [] ∧ s.dev.deltasOut.any (fun y => y.slot == s.dev.f R.TENANT.DELTA_BASE 0 + x.dslot) = false ∧
      s.dev.anchorQ.any (fun e => e.1 == 1) = false ∧ s.dev.f R.TENANT.PLACE_MODE = 0 ∧ s.dev.f R.STREAM_DFLT.MIRROR = 0 ∧
      s.dev.f R.DELTA.STATE (s.dev.f R.TENANT.DELTA_BASE 0 + x.dslot) = 0 ∧
      decide (ceilDiv x.len 65536 ≤ s.dev.annexLeft 0 ∧ ceilDiv x.len 65536 ≤ s.dev.stackFree 0) = (n == 1) := by decide
theorem meets_fence_release : let s := fenceWaits (mkReady []); let f : Op := { newOp 3 8 (desc 0x106 0 0) with stage := .waiting }
    (s.dev.opsOf 3).find? (·.fencing) = some f ∧ s.dev.getOp 3 f.index = some f ∧
      (s.dev.opsBefore 3 f.index).any (fun o => o.d.opcode == 6 || fenceCovers f.d o.d) = false := by decide

/-! CollectivesAndPublishesAreAdmitted -/

/-- A COLLECTIVE descriptor of the kind given for tour set 0 (own rank 0, root rank 0). -/
def collDesc (kind : Nat) : Desc := { desc 0x10 kind 0 with w6 := 5 }
theorem meets_collective : ∀ k ∈ [0, 1, 2, 3], let x := collDesc k
    let s := front x (opReady.onDev (fun d => (d.set R.TOURSET.VALID 0 1)))
    (s.dev.ring 3).fetched = [(9, x)] ∧ x.opcode = 0x10 ∧ x.kind = k ∧ s.dev.getOp 3 9 = none ∧ fenceHeld (s.dev.opsOf 3) x = false ∧
      s.dev.submitCheck 3 x s.mem = none := by decide
/-- The four bytes of a checksum read back. -/
theorem ofLE_check (v : BitVec 32) : ofLE (leBytes 4 v.toNat) = v.toNat := by
  have h := v.isLt
  simp only [leBytes, List.range, List.range.loop, List.map, ofLE, BitVec.toNat_ofNat]
  omega
/-- Memory that holds the bytes of a list from an address. -/
def cells (a : Nat) : List Byte → List Host.Cell
  | [] => []
  | b :: t => (a, b) :: cells (a + 1) t
theorem memGet_cells (l : List Byte) (a i : Nat) (h : i < l.length) : memGet (cells a l) (a + i) = l[i] := by
  induction l generalizing a i with
  | nil => simp at h
  | cons b t ih =>
    cases i with
    | zero => simp [cells, memGet, tabGet]
    | succ i =>
      have := ih (a + 1) i (by simpa using h)
      have hne : a + (i + 1) ≠ a := by omega
      simp only [cells, memGet, tabGet, if_neg hne]
      simpa [memGet, Nat.add_assoc, Nat.add_comm 1 i] using this
theorem memRead_cells (l : List Byte) (a : Nat) : memRead (cells a l) a l.length = l := by
  apply List.ext_getElem
  · simp [memRead]
  · intro i h1 h2
    simp [memRead, memGet_cells l a i h2]
/-- A TABLE_PUBLISH of the kind given and `len` bytes, ACTIVATE 1,000 ns, slot 1. -/
def pubDesc (kind len : Nat) : Desc := { desc 0x20 kind 0 (1 + 1000 * 2 ^ 24) with w2 := BitVec.ofNat 64 len }
/-- `opReady` with an image in window 0 and slot 1 of the codec valid, further changed by g. -/
def pubReady (kind len : Nat) (img : List Byte) (g : Dev → Dev := id) : State :=
  { front (pubDesc kind len) (opReady.onDev (fun d => g { d.set R.SLOT.VALID 1 1 with cats := ⟨List.replicate 16 0, []⟩ })) with
    mem := cells (memKey (epSpace 0) 0) img }
theorem pubImage_ready (kind len : Nat) (img : List Byte) (g : Dev → Dev) (h : img.length = len) (hl : (pubDesc kind len).len = len)
    (hk : (pubReady kind len [] g).dev.winKey ((pubReady kind len [] g).dev.xlatWin 3 ((pubReady kind len [] g).dev.f R.SQ_BIND.RANK 3)
      (pubDesc kind len).lord) (pubDesc kind len).loff = memKey (epSpace 0) 0) :
    (pubReady kind len img g).dev.pubImage 3 (pubDesc kind len) (pubReady kind len img g).mem = img := by
  unfold Dev.pubImage
  have hd : (pubReady kind len img g).dev = (pubReady kind len [] g).dev := rfl
  rw [hd, hk, hl, ← h]
  exact memRead_cells img _
theorem submitCheck_of_rest (d : Dev) (n : Nat) (x : Desc) (m : List Host.Cell) (h1 : d.fieldCheck n x = none) (h2 : d.xlatChecks n x = none)
    (h3 : d.ownWins n x = none) (h4 : d.remoteCheck n x = none) : d.submitCheck n x m = d.pubChecks n x m := by
  simp [Dev.submitCheck, h1, h2, h3, h4]
theorem pubChecks_catalogue (d : Dev) (n : Nat) (x : Desc) (m : List Host.Cell) (h : x.opcode = 0x20) (hk : x.kind = 1) :
    d.pubChecks n x m = d.catCheck (d.pubImage n x m) x.pubSlot x.activate := by
  simp [Dev.pubChecks, h, hk]
/-- What holds of `pubReady` whatever the image: the descriptor stands in front, and the checks that read no image pass. -/
def PubFront (kind len : Nat) (d : Dev) : Prop :=
  (d.ring 3).fetched = [(9, pubDesc kind len)] ∧ (pubDesc kind len).opcode = 0x20 ∧ (pubDesc kind len).kind = kind ∧ d.getOp 3 9 = none ∧
    fenceHeld (d.opsOf 3) (pubDesc kind len) = false ∧ d.pub d.site d.pubTxn = none ∧ d.fieldCheck 3 (pubDesc kind len) = none ∧
    d.xlatChecks 3 (pubDesc kind len) = none ∧ d.ownWins 3 (pubDesc kind len) = none ∧ d.remoteCheck 3 (pubDesc kind len) = none
theorem pubReady_dev (kind len : Nat) (img : List Byte) (g : Dev → Dev) : (pubReady kind len img g).dev = (pubReady kind len [] g).dev := rfl
/-- A codec table image of FORMAT 0 whose CHECK holds v: one symbol has the whole count. -/
def codecImage (v : BitVec 32) : List Byte := List.replicate 12 0 ++ (leBytes 4 v.toNat ++ ([0, 8] ++ List.replicate 1022 0))
theorem codecImage_checked (v : BitVec 32) (hv : crc32c (List.replicate 12 0 ++ ([0, 8] ++ List.replicate 1022 0)) = v) :
    imgOk (codecImage v) = true := by
  have e1 : slice (codecImage v) 0 12 = List.replicate 12 0 := rfl
  have e2 : slice (codecImage v) 0x10 1024 = [0, 8] ++ List.replicate 1022 0 := rfl
  have e3 : imgFreq (codecImage v) 0 = toUnits 2 ([0, 8] ++ List.replicate 510 0) := rfl
  have e4 : imgFreq (codecImage v) 1 = toUnits 2 (List.replicate 512 0) := rfl
  have e5 : imgCheck (codecImage v) = v.toNat := ofLE_check v
  have e6 : leAt (codecImage v) 8 4 = 0 := by rw [leAt, show slice (codecImage v) 8 4 = [0, 0, 0, 0] from rfl]; rfl
  have e7 : imgFmt (codecImage v) = 0 := rfl
  have e8 : (codecImage v).length = 1040 := rfl
  unfold imgOk imgCrc
  rw [e1, e2, e3, e4, e5, e6, e7, e8, hv]
  have f1 : freqOk (alphaA 0) (toUnits 2 ([0, 8] ++ List.replicate 510 0)) = true := by decide
  have f2 : (toUnits 2 (List.replicate 512 0)).all (· == 0) = true := by decide
  have f3 : unitSymsB 0 ≠ 1 := by decide
  rw [f1, f2, if_neg f3]
  simp only [beq_self_eq_true, Bool.and_true]
  decide
theorem codecImage_ok : ∃ img, img.length = 1040 ∧ imgOk img = true ∧ imgJob img = 0 ∧ imgTid img = 0 ∧ imgFmt img = 0 :=
  ⟨_, rfl, codecImage_checked _ rfl, rfl, rfl, rfl⟩
/-- A checksummed image: four bytes, CHECK, the rest (R130 and Tables 8.2, 8.3 put CHECK apart from what it covers). -/
def checked (a r : List Byte) (v : BitVec 32) : List Byte := a ++ (leBytes 4 v.toNat ++ r)
/-- The bytes of a Catalogue image of two sites behind CHECK. -/
def catRest : List Byte := [1, 0, 1, 0, 0, 0, 0, 0, 1] ++ List.replicate 47 0 ++ [255, 255, 0, 0] ++ List.replicate 60 255 ++
  List.replicate 2048 0 ++ [1] ++ List.replicate 7 0
/-- A plan of two sites whose other site, peer 0, is LOST. -/
def peerGone (d : Dev) : Dev := { d.set R.HEALTH_PEER.STATE 0 2 with cats := ⟨checked [0, 0, 0, 0] catRest 0, []⟩ }
theorem publish_codec (g : Dev → Dev) (hf : PubFront 0 1040 (pubReady 0 1040 [] g).dev)
    (hk : (pubReady 0 1040 [] g).dev.winKey ((pubReady 0 1040 [] g).dev.xlatWin 3 ((pubReady 0 1040 [] g).dev.f R.SQ_BIND.RANK 3)
      (pubDesc 0 1040).lord) (pubDesc 0 1040).loff = memKey (epSpace 0) 0)
    (hs : ∀ img, imgOk img = true → imgJob img = 0 → imgTid img = 0 → imgFmt img = 0 →
      (pubReady 0 1040 [] g).dev.codecCheck (pubDesc 0 1040).pubSlot (pubDesc 0 1040).activate img = none) : ∃ img, let x := pubDesc 0 1040; let s := pubReady 0 1040 img g
    (s.dev.ring 3).fetched = [(9, x)] ∧ x.opcode = 0x20 ∧ x.kind = 0 ∧ s.dev.getOp 3 9 = none ∧ fenceHeld (s.dev.opsOf 3) x = false ∧
      s.dev.submitCheck 3 x s.mem = none ∧ s.dev.pub s.dev.site s.dev.pubTxn = none := by
  obtain ⟨img, hl, hv, j1, j2, j3⟩ := codecImage_ok
  obtain ⟨b1, b2, b3, b4, b5, b6, b7, b8, b9, b10⟩ := hf
  have hi := pubImage_ready 0 1040 img g hl (by decide) hk
  refine ⟨img, ?_⟩
  simp only [pubReady_dev 0 1040 img g] at hi ⊢
  refine ⟨b1, b2, b3, b4, b5, ?_, b6⟩
  rw [submitCheck_of_rest _ _ _ _ b7 b8 b9 b10]
  unfold Dev.pubChecks
  rw [hi, if_neg (by rw [b2]; decide), b3]
  exact hs img hv j1 j2 j3
theorem meets_publish_codec : ∃ img, let x := pubDesc 0 1040; let s := pubReady 0 1040 img
    ((s.dev.ring 3).fetched = [(9, x)] ∧ x.opcode = 0x20 ∧ x.kind = 0 ∧ s.dev.getOp 3 9 = none ∧ fenceHeld (s.dev.opsOf 3) x = false ∧
      s.dev.submitCheck 3 x s.mem = none ∧ s.dev.pub s.dev.site s.dev.pubTxn = none) ∧
      (∀ site, site < s.dev.sites → (s.dev.peerOf site).all (fun p => s.dev.f R.HEALTH_PEER.STATE p != 2) = true) := by
  obtain ⟨img, h⟩ := publish_codec id (by unfold PubFront; decide) (by decide)
    (by intro img hv j1 j2 j3; simp only [Dev.codecCheck, Dev.slotFits, hv, j1, j2, j3]; decide)
  refine ⟨img, h, ?_⟩
  simp only [pubReady_dev 0 1040 img id]
  decide
theorem meets_publish_codec_lost : ∃ img, let x := pubDesc 0 1040; let s := pubReady 0 1040 img peerGone
    ((s.dev.ring 3).fetched = [(9, x)] ∧ x.opcode = 0x20 ∧ x.kind = 0 ∧ s.dev.getOp 3 9 = none ∧ fenceHeld (s.dev.opsOf 3) x = false ∧
      s.dev.submitCheck 3 x s.mem = none ∧ s.dev.pub s.dev.site s.dev.pubTxn = none) ∧
      1 ≠ s.dev.site ∧ s.dev.peerOf 1 = some 0 ∧ s.dev.f R.HEALTH_PEER.STATE 0 = 2 := by
  obtain ⟨img, h⟩ := publish_codec peerGone (by unfold PubFront; decide) (by decide)
    (by intro img hv j1 j2 j3; simp only [Dev.codecCheck, Dev.slotFits, hv, j1, j2, j3]; decide)
  refine ⟨img, h, ?_⟩
  simp only [pubReady_dev 0 1040 img peerGone]
  decide
theorem checked_ok (a r : List Byte) (ha : a.length = 4) : imageCheckOk (checked a r (crc32c (a ++ r))) = true := by
  have h1 : (checked a r (crc32c (a ++ r))).take 4 = a := by rw [checked, ← ha, List.take_left]
  have h2 : (checked a r (crc32c (a ++ r))).drop 8 = r := by
    rw [checked, ← List.append_assoc, show 8 = (a ++ leBytes 4 (crc32c (a ++ r)).toNat).length by simp [ha, leBytes], List.drop_left]
  have h3 : leAt (checked a r (crc32c (a ++ r))) 4 4 = (crc32c (a ++ r)).toNat := by
    rw [← ofLE_check, leAt, slice, checked, show (4 : Nat) = a.length from ha.symm, List.drop_left, ha]
    simp [leBytes]
  rw [imageCheckOk, h1, h2, h3, beq_self_eq_true]
theorem checked_length (a r : List Byte) (v : BitVec 32) : (checked a r v).length = a.length + (4 + r.length) := by
  simp only [checked, List.length_append, leBytes, List.length_map, List.length_range]
theorem leAt_checked (a r : List Byte) (ha : a.length = 4) (v w : BitVec 32) (o n : Nat) (h : 8 ≤ o) :
    leAt (checked a r v) o n = leAt (checked a r w) o n := by
  have e : ∀ u : BitVec 32, (checked a r u).drop o = r.drop (o - 8) := by
    intro u
    rw [checked, ← List.append_assoc, List.drop_append, List.drop_eq_nil_of_le (by simp [ha, leBytes]; omega)]
    simp [ha, leBytes]
  rw [leAt, leAt, slice, slice, e, e]
theorem ofLE_zeros (n : Nat) : ofLE (List.replicate n 0) = 0 := by
  induction n with
  | zero => rfl
  | succ n ih => rw [List.replicate_succ, ofLE, ih]; rfl
/-- A field that lies within a run of zero bytes reads 0. -/
theorem leAt_zeros (a b : List Byte) (z o n : Nat) (h : a.length ≤ o) (h2 : o + n ≤ a.length + z) :
    leAt (a ++ (List.replicate z 0 ++ b)) o n = 0 := by
  have e : slice (a ++ (List.replicate z 0 ++ b)) o n = List.replicate n 0 := by
    rw [slice, List.drop_append, List.drop_eq_nil_of_le h, List.nil_append, List.drop_append, List.drop_replicate, List.take_append,
      List.take_replicate, List.length_replicate, show min n (z - (o - a.length)) = n by omega,
      show n - (z - (o - a.length)) = 0 by omega, List.take_zero, List.append_nil]
    simp
  rw [leAt, e]
  exact ofLE_zeros n
theorem catRest_length : catRest.length = 2176 := by
  simp only [catRest, List.length_append, List.length_replicate, List.length_cons, List.length_nil]
theorem catImage_split : checked [0, 0, 0, 0] catRest 0 = ([0, 0, 0, 0] ++ (leBytes 4 (0 : BitVec 32).toNat ++ ([1, 0, 1, 0, 0, 0, 0, 0, 1] ++
    (List.replicate 47 0 ++ ([255, 255, 0, 0] ++ List.replicate 60 255))))) ++ (List.replicate 2048 0 ++ ([1] ++ List.replicate 7 0)) := by
  simp only [checked, catRest, List.append_assoc]
theorem front_catalogue : PubFront 1 2184 (pubReady 1 2184 []).dev := by unfold PubFront; decide
theorem meets_publish_catalogue : ∃ img, let x := pubDesc 1 2184; let s := pubReady 1 2184 img
    (s.dev.ring 3).fetched = [(9, x)] ∧ x.opcode = 0x20 ∧ x.kind = 1 ∧ s.dev.getOp 3 9 = none ∧ fenceHeld (s.dev.opsOf 3) x = false ∧
      s.dev.submitCheck 3 x s.mem = none := by
  obtain ⟨b1, b2, b3, b4, b5, b6, b7, b8, b9, b10⟩ := front_catalogue
  have ok := checked_ok [0, 0, 0, 0] catRest rfl
  have key := leAt_checked [0, 0, 0, 0] catRest rfl (crc32c ([0, 0, 0, 0] ++ catRest)) 0
  have hl : (checked [0, 0, 0, 0] catRest (crc32c ([0, 0, 0, 0] ++ catRest))).length = 2184 := by
    rw [checked_length, catRest_length]; rfl
  generalize checked [0, 0, 0, 0] catRest (crc32c ([0, 0, 0, 0] ++ catRest)) = img at ok key hl
  have hi := pubImage_ready 1 2184 img id hl (by decide) (by decide)
  refine ⟨img, ?_⟩
  simp only [pubReady_dev 1 2184 img id] at hi ⊢
  refine ⟨b1, b2, b3, b4, b5, ?_⟩
  rw [submitCheck_of_rest _ _ _ _ b7 b8 b9 b10]
  rw [pubChecks_catalogue _ _ _ _ b2 b3, hi]
  obtain ⟨img0, h0⟩ : ∃ img0, img0 = checked [0, 0, 0, 0] catRest 0 := ⟨_, rfl⟩
  rw [← h0] at key
  unfold Dev.catCheck Dev.catValid
  simp (disch := omega) only [ok, hl, catN, catNLog, catTopo, catOwn, catPeers, catOrder, catP2p, catSiteMap,
    catPeerValid, catPeerRail, catPeer, key, Bool.true_and]
  subst h0
  decide +kernel
/-- The bytes of an Itinerary page without entries, for plan 0, behind CHECK. -/
def pageRest : List Byte := List.replicate 24 0
theorem front_page : PubFront 2 32 (pubReady 2 32 []).dev := by unfold PubFront; decide
theorem meets_publish_page : ∃ img, let x := pubDesc 2 32; let s := pubReady 2 32 img
    (s.dev.ring 3).fetched = [(9, x)] ∧ x.opcode = 0x20 ∧ x.kind = 2 ∧ s.dev.getOp 3 9 = none ∧ fenceHeld (s.dev.opsOf 3) x = false ∧
      s.dev.submitCheck 3 x s.mem = none := by
  obtain ⟨b1, b2, b3, b4, b5, b6, b7, b8, b9, b10⟩ := front_page
  have ok := checked_ok [5, 0, 0, 0] pageRest rfl
  have key := leAt_checked [5, 0, 0, 0] pageRest rfl (crc32c ([5, 0, 0, 0] ++ pageRest)) 0
  have hl : (checked [5, 0, 0, 0] pageRest (crc32c ([5, 0, 0, 0] ++ pageRest))).length = 32 := rfl
  generalize checked [5, 0, 0, 0] pageRest (crc32c ([5, 0, 0, 0] ++ pageRest)) = img at ok key hl
  have hi := pubImage_ready 2 32 img id hl (by decide) (by decide)
  refine ⟨img, ?_⟩
  simp only [pubReady_dev 2 32 img id] at hi ⊢
  refine ⟨b1, b2, b3, b4, b5, ?_⟩
  rw [submitCheck_of_rest _ _ _ _ b7 b8 b9 b10]
  unfold Dev.pubChecks
  rw [hi, if_neg (by rw [b2]; decide), b3]
  obtain ⟨img0, h0⟩ : ∃ img0, img0 = checked [5, 0, 0, 0] pageRest 0 := ⟨_, rfl⟩
  rw [← h0] at key
  have z0 : pageCount img 0 = 0 := by rw [pageCount, key _ _ (by omega), h0]; decide
  have z1 : pageCount img 1 = 0 := by rw [pageCount, key _ _ (by omega), h0]; decide
  have z2 : pageCount img 2 = 0 := by rw [pageCount, key _ _ (by omega), h0]; decide
  have z3 : pageCount img 3 = 0 := by rw [pageCount, key _ _ (by omega), h0]; decide
  simp (disch := omega) only [Dev.pageCheck, Dev.pageValid, ok, hl, show List.range 4 = [0, 1, 2, 3] from rfl, List.map_cons, List.map_nil,
    List.all_cons, List.all_nil, z0, z1, z2, z3, pagePlan, key, pageSection, List.range_zero]
  subst h0
  decide +kernel

/-! ResetsReturnToTheResetState -/

theorem meets_rail_fault : (700 * 100 < 85 * (railLimits false .aon).1 ∨ (railLimits false .aon).2.2.2 < 700) ∨
    ((railLimits false .aon).2.2.2 < 951) := by decide
theorem meets_reset_n : ((mkReady []).onDev (fun d => { d with inReset := false })).dev.inReset = false := by decide


/-! BootGoesThroughItsStates -/

/-- An image header that passes R299. -/
def goodImage : ImageHeader := ⟨3, 64, [1], true, true⟩
theorem meets_boot_goes_through_its_states_1 :
    let s : State := State.reset.onDev (fun d => { d with now := 20000000 })
    s.dev.inReset = true ∧
    s.dev.railsBad = [] ∧
    20000000 ≤ s.dev.now - s.dev.rstAt := by decide
theorem meets_boot_goes_through_its_states_2 :
    let s : State := State.reset.onDev (fun d => { d with now := 20000000, railsBad := [.fio] })
    (s.dev.inReset = false ∨ s.dev.railsBad ≠ [] ∨ s.dev.now - s.dev.rstAt < 20000000) := by decide
theorem meets_boot_goes_through_its_states_3 :
    let s : State := mk [(R.SYS_BOOT.STATE, 0, 1), (R.SYS_STRAP.CFG_USED, 0, 1)]
    s.dev.f R.SYS_BOOT.STATE = 1 ∧
    s.dev.f R.SYS_STRAP.CFG_USED = 1 := by decide
theorem meets_boot_goes_through_its_states_4 :
    let s : State := mk [(R.SYS_BOOT.STATE, 0, 1)]
    s.dev.f R.SYS_BOOT.STATE = 1 := by decide
theorem meets_boot_goes_through_its_states_5 :
    let s : State := mk [(R.SYS_BOOT.STATE, 0, 1)]
    s.dev.f R.SYS_BOOT.STATE = 1 := by decide
theorem meets_boot_goes_through_its_states_6 :
    let s : State := (mk [(R.SYS_BOOT.STATE, 0, 1)]).onDev (fun d => { d with inReset := false, now := 99999999 })
    (s.dev.inReset = true ∨ s.dev.now - s.dev.released < 100000000) := by decide
theorem meets_boot_goes_through_its_states_7 :
    let s : State := (mk [(R.SYS_BOOT.STATE, 0, 1)]).onDev (fun d => { d with inReset := false, now := 100000000 })
    s.dev.inReset = false ∧
    100000000 ≤ s.dev.now - s.dev.released := by decide
theorem meets_boot_goes_through_its_states_8 :
    let h : ImageHeader := goodImage
    let s : State := mk [(R.SYS_BOOT.STATE, 0, 2)]
    s.dev.f R.SYS_BOOT.STATE = 2 ∧
    s.dev.f R.SYS_STRAP.BOOT_EFF ≠ 1 ∧
    s.dev.partGood h = true ∧
    s.dev.slotBad.contains (s.dev.f R.SYS_BOOT.IMAGE) = false ∧
    s.dev.partOk = false := by decide
theorem meets_boot_goes_through_its_states_9 :
    let h : ImageHeader := goodImage
    let s : State := (mk [(R.SYS_BOOT.STATE, 0, 2)]).onDev (fun d => { d with partOk := true })
    s.dev.f R.SYS_BOOT.STATE = 2 ∧
    s.dev.f R.SYS_STRAP.BOOT_EFF ≠ 1 ∧
    s.dev.partGood h = true ∧
    s.dev.slotBad.contains (s.dev.f R.SYS_BOOT.IMAGE) = false ∧
    s.dev.partOk = true := by decide
theorem meets_boot_goes_through_its_states_10 :
    let h : ImageHeader := goodImage
    let s : State := (mk [(R.SYS_BOOT.STATE, 0, 2)]).onDev (fun d => { d with slotBad := [0] })
    s.dev.f R.SYS_BOOT.STATE = 2 ∧
    s.dev.f R.SYS_STRAP.BOOT_EFF = 0 ∧
    s.dev.f R.SYS_BOOT.IMAGE = 0 ∧
    (s.dev.partGood h = false ∨ 0 ∈ s.dev.slotBad) ∧
    s.dev.partOk = false := by decide
theorem meets_boot_goes_through_its_states_11 :
    let vit : ImageHeader := goodImage
    let cur : ImageHeader := { goodImage with svn := 64 }
    let s : State := (mk [(R.SYS_BOOT.STATE, 0, 2), (R.SYS_STRAP.BOOT_EFF, 0, 1), (R.CUR_DL_LEN.LEN, 0, 2 ^ 24)]).onDev (fun d => { d with pcieUp := true })
    s.dev.pcieUp = true ∧
    s.dev.f R.SYS_BOOT.STATE = 2 ∧
    s.dev.f R.SYS_STRAP.BOOT_EFF = 1 ∧
    (s.dev.f R.CUR_DL_LEN.GO = 1 ∨ s.dev.dlOk = true) ∧
    s.dev.partGood vit = true ∧
    s.dev.partGood cur = true := by decide
theorem meets_boot_goes_through_its_states_12 :
    let s : State := (mk [(R.SYS_BOOT.STATE, 0, 2), (R.SYS_STRAP.BOOT_EFF, 0, 1), (R.CUR_DL_LEN.LEN, 0, 2 ^ 24 + 1)]).onDev (fun d => { d with pcieUp := true })
    s.dev.pcieUp = true ∧
    s.dev.f R.SYS_BOOT.STATE = 2 ∧
    s.dev.f R.SYS_STRAP.BOOT_EFF = 1 ∧
    s.dev.f R.CUR_DL_LEN.GO = 0 ∧
    s.dev.dlOk = false := by decide
theorem meets_boot_goes_through_its_states_13 :
    let s : State := (mk [(R.SYS_BOOT.STATE, 0, 2), (R.SYS_STRAP.BOOT_EFF, 0, 1)]).onDev (fun d => { d with now := 60000000000 })
    s.dev.f R.SYS_BOOT.STATE = 2 ∧
    s.dev.f R.SYS_STRAP.BOOT_EFF = 1 ∧
    s.dev.f R.CUR_DL_LEN.GO = 0 ∧
    60000000000 ≤ s.dev.now - s.dev.loadingAt := by decide
theorem meets_boot_goes_through_its_states_14 :
    let s : State := mk [(R.SYS_BOOT.STATE, 0, 3)]
    s.dev.f R.SYS_BOOT.STATE = 3 ∧
    s.dev.enabledWings ≠ [] := by decide

/-! PowerTemperatureAndClocksAct -/

theorem meets_power_temperature_and_clocks_act_1 :
    let t : Fin 4 := 1
    let s : State := mkReady []
    s.dev.f R.SYS_BOOT.STATE = 4 ∧
    s.dev.f R.SYS_PWR.MOVING = 0 ∧
    s.dev.gateReq = none ∧
    moveListed (s.dev.f R.SYS_PWR.STATE) t = true ∧
    (s.dev.f R.SYS_PWR.STATE ≤ 1 ∧ 2 ≤ t.val → s.dev.pwrDrained = true) := by decide
theorem meets_power_temperature_and_clocks_act_2 :
    let t : Fin 4 := 1
    let s : State := mkReady [(R.SYS_PWR.STATE, 0, 1)]
    s.dev.f R.SYS_BOOT.STATE = 4 ∧
    (s.dev.f R.SYS_PWR.MOVING = 1 ∨ s.dev.gateReq ≠ none ∨ moveListed (s.dev.f R.SYS_PWR.STATE) t = false) := by decide
theorem meets_power_temperature_and_clocks_act_3 :
    let t : Fin 4 := 3
    let s : State := mkReady [(R.TOUR_CTL.ENABLE, 0, 1)]
    s.dev.f R.SYS_BOOT.STATE = 4 ∧
    s.dev.f R.SYS_PWR.MOVING = 0 ∧
    s.dev.gateReq = none ∧
    moveListed (s.dev.f R.SYS_PWR.STATE) t = true ∧
    s.dev.f R.SYS_PWR.STATE ≤ 1 ∧
    2 ≤ t.val ∧
    s.dev.pwrDrained = false := by decide
theorem meets_power_temperature_and_clocks_act_4 :
    let s : State := mkReady [(R.SYS_PWR.STATE, 0, 1), (R.SYS_PWR.MOVING, 0, 1), (R.VT_PWR_RES.GATED, 0, 5)]
    s.dev.f R.SYS_PWR.MOVING = 1 ∧
    s.dev.f R.SYS_PWR.STATE ≤ 1 ∧
    s.dev.f R.SYS_PWR.TARGET ≤ 1 := by decide
theorem meets_power_temperature_and_clocks_act_5 :
    let s : State := { mkReady [(R.SYS_PWR.STATE, 0, 2), (R.SYS_PWR.MOVING, 0, 1), (R.SYS_PWR.TARGET, 0, 3)] with mem := [(memKey 0 64, 1), (memKey 1 64, 2), (memKey 4 64, 2), (memKey 6 64, 2)] }
    s.dev.f R.SYS_PWR.MOVING = 1 ∧
    s.dev.f R.SYS_PWR.STATE = 2 ∧
    s.dev.f R.SYS_PWR.TARGET = 3 := by decide
theorem meets_power_temperature_and_clocks_act_6 :
    let q : Fin 4 := 2
    let temp : BitVec 16 := 1050
    let s : State := mkReady []
    s.dev.wingPresent q = true ∧
    s.dev.fenced q = false ∧
    s.dev.profile ≠ 1 ∧
    s.dev.throttleC ≤ temp.toInt := by decide
theorem meets_power_temperature_and_clocks_act_7 :
    let q : Fin 4 := 2
    let temp : BitVec 16 := 1049
    let s : State := mkReady []
    s.dev.wingPresent q = true ∧
    temp.toInt < s.dev.throttleC := by decide
theorem meets_power_temperature_and_clocks_act_8 :
    let s : State := (mkReady []).onDev (fun d => { d with thermN := true, throttled := [2] })
    s.dev.thermN = true ∧
    (∀ q : Fin 4, s.dev.wingPresent q = true → s.dev.sf (tempFld q) < s.dev.throttleC) := by decide
theorem meets_power_temperature_and_clocks_act_9 :
    let q : Fin 4 := 1
    let s : State := (mkReady [(R.SYS_PWR.MOVING, 0, 1)]).onDev (fun d => { d with throttled := [2, 1] })
    s.dev.wingPresent q = true := by decide
theorem meets_power_temperature_and_clocks_act_10 :
    let dom : Fin 25 := 24
    let s : State := mkReady [(R.SYS_CLK_STAT.LOCK, 0, 2 ^ 25 - 1)]
    dom ≠ 22 ∧
    dom ≠ 23 ∧
    (s.dev.f R.SYS_CLK_STAT.LOCK).testBit dom = true ∧
    domainQuarter dom = none := by decide
theorem meets_power_temperature_and_clocks_act_11 :
    let rail : Rail := .wing 2
    let mv : Nat := 660
    let q : Nat := 2
    let s : State := (mkReady []).onDev (fun d => { d with inReset := false })
    s.dev.f R.SYS_BOOT.STATE = 4 ∧
    s.dev.inReset = false ∧
    s.dev.railsBad.contains rail = false ∧
    railQuarter rail = some q ∧
    85 * (railLimits (s.dev.profile == 1) rail).1 ≤ mv * 100 ∧
    mv ≤ (railLimits (s.dev.profile == 1) rail).2.2.2 ∧
    (mv * 100 < (railLimits (s.dev.profile == 1) rail).2.1 ∨ (railLimits (s.dev.profile == 1) rail).2.2.1 < mv * 100) := by decide
theorem meets_power_temperature_and_clocks_act_12 :
    let mv : Nat := 700
    let s : State := (mkReady []).onDev (fun d => { d with inReset := false })
    s.dev.inReset = false ∧
    s.dev.railsBad.contains .vit = false ∧
    85 * (railLimits (s.dev.profile == 1) .vit).1 ≤ mv * 100 ∧
    mv ≤ (railLimits (s.dev.profile == 1) .vit).2.2.2 ∧
    (mv * 100 < (railLimits (s.dev.profile == 1) .vit).2.1 ∨ (railLimits (s.dev.profile == 1) .vit).2.2.1 < mv * 100) := by decide
theorem meets_power_temperature_and_clocks_act_13 :
    let rail : Rail := .hbm 1
    let mv : Nat := 1060
    let s : State := mkReady []
    s.dev.railsBad.contains rail = false ∧
    85 * (railLimits (s.dev.profile == 1) rail).1 ≤ mv * 100 ∧
    mv ≤ (railLimits (s.dev.profile == 1) rail).2.2.2 ∧
    (railLimits (s.dev.profile == 1) rail).2.1 ≤ mv * 100 ∧
    mv * 100 ≤ (railLimits (s.dev.profile == 1) rail).2.2.1 := by decide
theorem meets_power_temperature_and_clocks_act_14 :
    let rail : Rail := .fio
    let mv : Nat := (railLimits false .fio).1
    let s : State := (mkReady []).onDev (fun d => { d with railsBad := [.fio] })
    s.dev.railsBad.contains rail = true ∧
    85 * (railLimits (s.dev.profile == 1) rail).1 ≤ mv * 100 ∧
    mv ≤ (railLimits (s.dev.profile == 1) rail).2.2.2 := by decide

/-! BlockResetsAndMailbox -/

theorem meets_block_resets_and_mailbox_1 :
    let c : Instr × Nat × Bool × Bool := (.codecStagingReset 2, 2, true, true)
    let unit : Fin 256 := 2
    let s : State := mkReady []
    c ∈ [(.tourEngineReset unit, 1, s.dev.wingPresent unit, s.dev.tourIdle unit), (.codecStagingReset unit, 2, s.dev.wingPresent unit, s.dev.staged.all (fun e => e.wing != unit || !s.dev.pinned e)), (.cipherClusterReset unit, 3, decide (unit.val < 40) && s.dev.wingPresent (unit / 10), (s.dev.clusterCtxs unit).isEmpty), (.kwaveEngineReset unit, 4, decide (unit.val < 8) && s.dev.wingPresent (unit / 2), s.dev.engIdle unit), (.fabricPortReset unit, 5, decide (unit.val < 32), s.dev.fportIdle unit), (.courierChannelReset unit, 6, decide (unit.val < 12), s.dev.f R.CR_STAT.STATE unit != 1 && !s.dev.on R.CR_CTL.ARM unit)] ∧
    s.dev.barOpen (R.SYS_BLK_RST.GO.key 0) = true ∧
    s.dev.f R.SYS_BLK_RST.GO = 0 := by decide
theorem meets_block_resets_and_mailbox_2 :
    let unit : Fin 256 := 3
    let s : State := mkReady [(R.TOUR_LANES.FENCED, 3, 5), (R.TOUR_LANES.WORKING, 3, 30)]
    s.dev.barOpen (R.SYS_BLK_RST.GO.key 0) = true ∧
    s.dev.f R.SYS_BLK_RST.GO = 0 ∧
    s.dev.wingPresent unit = true ∧
    s.dev.tourIdle unit = true := by decide
theorem meets_block_resets_and_mailbox_3 :
    let unit : Fin 256 := 3
    let s : State := mkReady []
    s.dev.barOpen (R.SYS_BLK_RST.GO.key 0) = true ∧
    s.dev.f R.SYS_BLK_RST.GO = 0 ∧
    s.dev.wingPresent unit = true ∧
    s.dev.staged.all (fun e => e.wing != unit || !s.dev.pinned e) = true := by decide
theorem meets_block_resets_and_mailbox_4 :
    let unit : Fin 256 := 39
    let s : State := (mkReady []).onDev (fun d => { d with clusterFence := [39, 2] })
    s.dev.barOpen (R.SYS_BLK_RST.GO.key 0) = true ∧
    s.dev.f R.SYS_BLK_RST.GO = 0 ∧
    unit.val < 40 ∧
    s.dev.wingPresent (unit / 10) = true ∧
    (s.dev.clusterCtxs unit).isEmpty = true := by decide
theorem meets_block_resets_and_mailbox_5 :
    let unit : Fin 256 := 7
    let s : State := mkReady [(R.KW_CAR_CNT.COLD, 127, 3)]
    s.dev.barOpen (R.SYS_BLK_RST.GO.key 0) = true ∧
    s.dev.f R.SYS_BLK_RST.GO = 0 ∧
    unit.val < 8 ∧
    s.dev.wingPresent (unit / 2) = true ∧
    s.dev.engIdle unit = true := by decide
theorem meets_block_resets_and_mailbox_6 :
    let unit : Fin 256 := 31
    let s : State := mkReady [(R.FAB_PORT_STAT.UP, 31, 15)]
    s.dev.barOpen (R.SYS_BLK_RST.GO.key 0) = true ∧
    s.dev.f R.SYS_BLK_RST.GO = 0 ∧
    unit.val < 32 ∧
    s.dev.fportIdle unit = true := by decide
theorem meets_block_resets_and_mailbox_7 :
    let unit : Fin 256 := 11
    let s : State := mkReady [(R.CR_STAT.STATE, 11, 2), (R.CR_PROG.DONE, 11, 9)]
    s.dev.barOpen (R.SYS_BLK_RST.GO.key 0) = true ∧
    s.dev.f R.SYS_BLK_RST.GO = 0 ∧
    unit.val < 12 ∧
    s.dev.f R.CR_STAT.STATE unit ≠ 1 ∧
    s.dev.f R.CR_CTL.ARM unit = 0 := by decide
theorem meets_block_resets_and_mailbox_9 :
    let arg : BitVec 32 := 1
    let vit : ImageHeader := goodImage
    let cur : ImageHeader := goodImage
    let good : Bool := true
    let c : Instr × Nat × Nat := (.calRead 1, 3, 1)
    let s : State := mkReady []
    c ∈ [(.version, 1, 0), (.flashWrite arg vit cur good, 2, arg.toNat), (.calRead arg, 3, arg.toNat), (.logRead arg, 4, arg.toNat)] ∧
    s.dev.f R.SYS_BOOT.STATE = 4 ∧
    s.dev.f R.CUR_MBX_CMD.GO = 0 := by decide
theorem meets_block_resets_and_mailbox_10 :
    let arg : BitVec 32 := 1
    let vit : ImageHeader := goodImage
    let cur : ImageHeader := goodImage
    let good : Bool := true
    let c : Instr := .version
    let s : State := (mk []).onDev (fun d => { d with pcieUp := true })
    c ∈ [.version, .flashWrite arg vit cur good, .calRead arg, .logRead arg] ∧
    s.dev.barOpen (R.CUR_MBX_CMD.GO.key 0) = true ∧
    s.dev.f R.SYS_BOOT.STATE ≠ 4 ∧
    s.dev.f R.CUR_MBX_CMD.GO = 0 := by decide
theorem meets_block_resets_and_mailbox_11 :
    let s : State := mkReady [(R.CUR_STATE.ALIVE, 0, 1), (R.CUR_DL_LEN.LEN, 0, 2 ^ 24)]
    s.dev.f R.SYS_BOOT.STATE = 4 ∧
    s.dev.f R.CUR_MBX_CMD.GO = 0 := by decide
theorem meets_block_resets_and_mailbox_12 :
    let r : MbxRun := ⟨2, 1, 0, 0, []⟩
    let s : State := (mkReady [(R.CUR_STATE.ALIVE, 0, 1), (R.CUR_MBX_CMD.GO, 0, 1)]).onDev (fun d => { d with mailbox := some ⟨2, 1, 0, 0, []⟩, now := 10000000000 })
    s.dev.f R.CUR_STATE.ALIVE = 1 ∧
    s.dev.mailbox = some r ∧
    s.dev.now - r.at_ ≤ (if r.op = 2 then 10000000000 else 10000000) := by decide
theorem meets_block_resets_and_mailbox_13 :
    let r : MbxRun := ⟨1, 0, 0, 0, [1, 2, 3]⟩
    let s : State := (mkReady [(R.CUR_STATE.ALIVE, 0, 1), (R.CUR_MBX_CMD.GO, 0, 1)]).onDev (fun d => { d with mailbox := some ⟨1, 0, 0, 0, [1, 2, 3]⟩, now := 10000001 })
    s.dev.mailbox = some r ∧
    (if r.op = 2 then 10000000000 else 10000000) < s.dev.now - r.at_ := by decide
theorem meets_block_resets_and_mailbox_14 :
    let s : State := mkReady [(R.CUR_STATE.ALIVE, 0, 1), (R.CUR_STATE.HEARTBEAT, 0, 2 ^ 32 - 1)]
    s.dev.f R.CUR_STATE.ALIVE = 1 := by decide
theorem meets_block_resets_and_mailbox_15 :
    let s : State := mkReady [(R.CUR_STATE.ALIVE, 0, 1)]
    s.dev.f R.CUR_STATE.ALIVE = 1 := by decide

/-! TimebaseIsAdjustedAndSteered -/

theorem meets_timebase_is_adjusted_and_steered_1 :
    let s : State := (mkReady []).onDev (fun d => { d with tb := 2 ^ 48 * 1000000000 * 65536 - 10, slew := 3 })
    s.dev.f R.SYS_BOOT.STATE = 4 ∧
    (s.dev.domState (s.dev.f R.TIME_CTL.STEER) = 0 ∨ s.dev.domState (s.dev.f R.TIME_CTL.STEER) = 3 ∨ s.dev.f R.TIME_DOM_CFG.EN (s.dev.f R.TIME_CTL.STEER) = 0) ∧
    s.dev.f R.CAT_STATE.PEND = 0 ∧
    s.dev.f R.ITIN_STATE.PEND = 0 := by decide
theorem meets_timebase_is_adjusted_and_steered_2 :
    let s : State := mkReady [(R.TIME_DOM_CFG.EN, 0, 1), (R.TIME_DOM_STAT.STATE, 0, 3)]
    s.dev.f R.SYS_BOOT.STATE = 4 ∧
    (s.dev.domState (s.dev.f R.TIME_CTL.STEER) = 0 ∨ s.dev.domState (s.dev.f R.TIME_CTL.STEER) = 3 ∨ s.dev.f R.TIME_DOM_CFG.EN (s.dev.f R.TIME_CTL.STEER) = 0) := by decide
theorem meets_timebase_is_adjusted_and_steered_3 :
    let ofs : BitVec 48 := 65536000000000
    let s : State := mkReady [(R.TIME_SET.SEC, 0, 2 ^ 48 - 1)]
    s.dev.f R.SYS_BOOT.STATE = 4 ∧
    (s.dev.domState (s.dev.f R.TIME_CTL.STEER) = 0 ∨ s.dev.domState (s.dev.f R.TIME_CTL.STEER) = 3 ∨ s.dev.f R.TIME_DOM_CFG.EN (s.dev.f R.TIME_CTL.STEER) = 0) ∧
    s.dev.f R.CAT_STATE.PEND = 0 ∧
    s.dev.f R.ITIN_STATE.PEND = 0 ∧
    ofs.toNat ≤ 65536 * 1000000000 ∧
    s.dev.tb < 2 ^ 48 * 1000000000 * 65536 := by decide
theorem meets_timebase_is_adjusted_and_steered_4 :
    let ofs : BitVec 48 := 5
    let c : Instr := .timeAdjSet 5
    let s : State := mkReady [(R.TIME_DOM_CFG.EN, 0, 1), (R.TIME_DOM_STAT.STATE, 0, 2)]
    c ∈ [.timeAdjStep ofs, .timeAdjSlew ofs, .timeAdjSet ofs] ∧
    s.dev.f R.SYS_BOOT.STATE = 4 ∧
    s.dev.domState (s.dev.f R.TIME_CTL.STEER) ≠ 0 ∧
    s.dev.domState (s.dev.f R.TIME_CTL.STEER) ≠ 3 ∧
    s.dev.f R.TIME_DOM_CFG.EN (s.dev.f R.TIME_CTL.STEER) = 1 := by decide
theorem meets_timebase_is_adjusted_and_steered_5 :
    let i : Fin 2 := 1
    let s : State := mkReady []
    s.dev.f R.SYS_BOOT.STATE = 4 ∧
    s.dev.f R.TIME_DOM_CFG.EN i = 0 := by decide
theorem meets_timebase_is_adjusted_and_steered_6 :
    let i : Fin 2 := 0
    let s : State := mkReady [(R.TIME_DOM_CFG.EN, 0, 1)]
    s.dev.f R.SYS_BOOT.STATE = 4 ∧
    s.dev.f R.TIME_DOM_CFG.EN i = 1 ∧
    s.dev.f R.TIME_CTL.STEER = i := by decide
theorem meets_timebase_is_adjusted_and_steered_7 :
    let i : Fin 2 := 1
    let s : State := mkReady [(R.TIME_DOM_CFG.EN, 1, 1), (R.TIME_DOM_STAT.STATE, 1, 2), (R.TIME_DOM_STAT.OFFSET, 1, 20000), (R.TIME_CTL.ENABLE, 0, 1)]
    s.dev.f R.SYS_BOOT.STATE = 4 ∧
    s.dev.f R.TIME_DOM_CFG.EN i = 1 ∧
    s.dev.f R.TIME_CTL.STEER ≠ i ∧
    s.dev.f R.CAT_STATE.PEND = 0 ∧
    s.dev.f R.ITIN_STATE.PEND = 0 := by decide
theorem meets_timebase_is_adjusted_and_steered_8 :
    let i : Fin 2 := 1
    let w : Word := 0x5C05
    let s : State := mkReady []
    s.dev.f R.SYS_BOOT.STATE = 4 ∧
    s.dev.f R.TIME_DOM_CFG.EN i = 0 ∧
    s.dev.f R.TIME_DOM_CFG.EN (1 - i.val) = 0 ∧
    s.dev.domState i ≠ 2 ∧
    bitsOf w 0 1 = 1 ∧
    bitsOf w 10 2 ≠ 1 := by decide

/-! ServosFollowTheirSamplesAndSources -/

/-- A one-step Sync of domain 4. -/
def ptpSync : PtpMsg :=
  { typ := 0, domain := 4, twoStep := false, seq := 7, src := 1, req := 0, corr := 65536, sec := 1, ns := 5, clockClass := 6, utcOfs := 37,
    leap := 0, rxTime := 100, udp := none }
/-- TIME enabled, domain 0 a PTP slave on logical port 5 of domain number 4, fabric port 1 up. -/
def timeUp : State := mkReady [(R.TIME_CTL.ENABLE, 0, 1), (R.TIME_DOM_CFG.EN, 0, 1), (R.TIME_DOM_CFG.DOMAIN, 0, 4),
  (R.TIME_DOM_CFG.SRC_TYPE, 0, 1), (R.TIME_DOM_CFG.SRC, 0, 5), (R.FAB_PORT_CFG.EN, 1, 1), (R.FAB_PORT_CFG.MODE, 1, 2), (R.FAB_PORT_STAT.UP, 1, 15)]
/-- TIME enabled, domain i a PTP slave in the state given with its servo, thresholds of 1 ns. -/
def servoIn (i st : Nat) (x : ServoX) : State := (mkReady [(R.TIME_CTL.ENABLE, 0, 1), (R.TIME_CTL.AUTO, 0, 0), (R.TIME_DOM_CFG.EN, i, 1), (R.TIME_DOM_CFG.SRC_TYPE, i, 1),
  (R.TIME_DOM_STAT.STATE, i, st), (R.TIME_DOM_SERVO.LOCK_THR, i, 1), (R.TIME_DOM_SERVO.UNLOCK_THR, i, 1)]).onDev (fun d => d.setServo i x)
/-- Ports 1 and 2 relay every domain; 700 units of 2^-16 ns have passed. -/
def timeRelay : State := timeUp.onDev (fun d =>
  { ((((d.set R.TIME_TC.EN 0 1).set R.TIME_TC.PORTS 0 0xF).set R.TIME_TC.DOM_HI 0 255).set R.FAB_PORT_STAT.UP 2 15) with tb := 700 })
theorem meets_servos_follow_their_samples_and_sources_1 :
    let i : Fin 2 := 1
    let s : State := mkReady [(R.TIME_CTL.ENABLE, 0, 1), (R.TIME_DOM_CFG.EN, 1, 1), (R.TIME_DOM_CFG.SRC_TYPE, 1, 1), (R.TIME_DOM_STAT.STATE, 1, 1), (R.TIME_DOM_SERVO.KP, 1, 300), (R.TIME_DOM_SERVO.KI, 1, 30)]
    s.dev.f R.TIME_CTL.ENABLE = 1 ∧
    s.dev.f R.TIME_DOM_CFG.EN i = 1 ∧
    s.dev.f R.TIME_DOM_CFG.SRC_TYPE i ≠ 3 ∧
    s.dev.f R.TIME_DOM_STAT.STATE i = 1 := by decide
theorem meets_servos_follow_their_samples_and_sources_2 :
    let i : Fin 2 := 0
    let o : Int := 65536001
    let s : State := mkReady [(R.TIME_CTL.ENABLE, 0, 1), (R.TIME_DOM_CFG.EN, 0, 1), (R.TIME_DOM_CFG.SRC_TYPE, 0, 0)]
    s.dev.f R.TIME_CTL.ENABLE = 1 ∧
    s.dev.f R.TIME_DOM_CFG.EN i = 1 ∧
    s.dev.f R.TIME_DOM_CFG.SRC_TYPE i ≠ 3 ∧
    s.dev.f R.TIME_DOM_STAT.STATE i = 0 ∧
    s.dev.f R.TIME_CTL.STEER = i ∧
    65536000 < o.natAbs ∧
    s.dev.f R.CAT_STATE.PEND = 0 ∧
    s.dev.f R.ITIN_STATE.PEND = 0 := by decide
theorem meets_servos_follow_their_samples_and_sources_3 :
    let i : Fin 2 := 1
    let s : State := mkReady [(R.TIME_CTL.ENABLE, 0, 1), (R.TIME_CTL.AUTO, 0, 0), (R.TIME_DOM_CFG.EN, 1, 1), (R.TIME_DOM_CFG.SRC_TYPE, 1, 1), (R.TIME_DOM_STAT.STATE, 1, 2)]
    s.dev.f R.TIME_CTL.ENABLE = 1 ∧
    s.dev.f R.TIME_DOM_CFG.EN i = 1 ∧
    s.dev.f R.TIME_DOM_CFG.SRC_TYPE i ≠ 3 ∧
    s.dev.f R.TIME_CTL.AUTO = 0 ∧
    (s.dev.f R.TIME_DOM_STAT.STATE i = 1 ∨ s.dev.f R.TIME_DOM_STAT.STATE i = 2) := by decide
theorem meets_servos_follow_their_samples_and_sources_4 :
    let i : Fin 2 := 0
    let s : State := (mkReady [(R.TIME_DOM_STAT.STATE, 0, 3), (R.TIME_DOM_TE.TRUST, 0, 1)]).onDev (fun d => d.setServo 0 { ServoX.zero with teEntry := 2 ^ 31 })
    s.dev.domState i = 3 ∧
    s.dev.domTrust i = false := by decide
theorem meets_servos_follow_their_samples_and_sources_5 :
    let i : Fin 2 := 0
    let o : Int := 65536000
    let s : State := servoIn 0 0 ServoX.zero
    s.dev.f R.TIME_CTL.ENABLE = 1 ∧
    s.dev.f R.TIME_DOM_CFG.EN i = 1 ∧
    s.dev.f R.TIME_DOM_CFG.SRC_TYPE i ≠ 3 ∧
    s.dev.f R.TIME_DOM_STAT.STATE i = 0 ∧
    (s.dev.f R.TIME_CTL.STEER ≠ i ∨ o.natAbs ≤ 65536000) := by decide
theorem meets_servos_follow_their_samples_and_sources_6 :
    let i : Fin 2 := 1
    let o : Int := 65535
    let s : State := servoIn 1 3 { ServoX.zero with good := 15 }
    s.dev.f R.TIME_CTL.ENABLE = 1 ∧
    s.dev.f R.TIME_DOM_CFG.EN i = 1 ∧
    s.dev.f R.TIME_DOM_CFG.SRC_TYPE i ≠ 3 ∧
    (s.dev.f R.TIME_DOM_STAT.STATE i = 1 ∨ s.dev.f R.TIME_DOM_STAT.STATE i = 3) ∧
    o.natAbs < 65536 * s.dev.f R.TIME_DOM_SERVO.LOCK_THR i := by decide
theorem meets_servos_follow_their_samples_and_sources_7 :
    let i : Fin 2 := 1
    let o : Int := -65536
    let s : State := servoIn 1 1 { ServoX.zero with good := 15 }
    s.dev.f R.TIME_CTL.ENABLE = 1 ∧
    s.dev.f R.TIME_DOM_CFG.EN i = 1 ∧
    s.dev.f R.TIME_DOM_CFG.SRC_TYPE i ≠ 3 ∧
    (s.dev.f R.TIME_DOM_STAT.STATE i = 1 ∨ s.dev.f R.TIME_DOM_STAT.STATE i = 3) ∧
    65536 * s.dev.f R.TIME_DOM_SERVO.LOCK_THR i ≤ o.natAbs := by decide
theorem meets_servos_follow_their_samples_and_sources_8 :
    let i : Fin 2 := 1
    let s : State := servoIn 1 2 { ServoX.zero with bad := 3 }
    s.dev.f R.TIME_CTL.ENABLE = 1 ∧
    s.dev.f R.TIME_DOM_CFG.EN i = 1 ∧
    s.dev.f R.TIME_DOM_CFG.SRC_TYPE i ≠ 3 ∧
    s.dev.f R.TIME_CTL.AUTO = 0 ∧
    s.dev.f R.TIME_DOM_STAT.STATE i = 2 := by decide
theorem meets_servos_follow_their_samples_and_sources_9 :
    let i : Fin 2 := 1
    let s : State := mkReady [(R.TIME_CTL.ENABLE, 0, 1)]
    (s.dev.f R.TIME_CTL.ENABLE = 0 ∨ s.dev.f R.TIME_DOM_CFG.EN i = 0 ∨ s.dev.f R.TIME_DOM_CFG.SRC_TYPE i = 3) := by decide

/-! PtpMessagesAreTakenSentAndRelayed -/

theorem meets_ptp_messages_are_taken_sent_and_relayed_1 :
    let p : Fin 128 := 5
    let m : PtpMsg := { ptpSync with typ := 0xC }
    let s : State := timeUp
    s.dev.f R.TIME_CTL.ENABLE = 1 ∧
    s.dev.lportUp p = true ∧
    s.dev.f R.FAB_HS.EN = 0 ∧
    (zeroSum m = true ∨ m.typ = 0xC ∨ m.typ = 0xD) := by decide
theorem meets_ptp_messages_are_taken_sent_and_relayed_2 :
    let p : Fin 128 := 5
    let m : PtpMsg := ptpSync
    let s : State := timeUp
    s.dev.f R.TIME_CTL.ENABLE = 1 ∧
    s.dev.lportUp p = true ∧
    zeroSum m = false ∧
    s.dev.f R.FAB_HS.EN = 0 ∧
    m.typ = 0 ∧
    m.twoStep = false ∧
    s.dev.f R.TIME_DOM_CFG.EN 0 = 1 ∧
    s.dev.f R.TIME_DOM_CFG.EN 1 = 0 ∧
    s.dev.f R.TIME_DOM_CFG.DOMAIN 0 = m.domain.toNat ∧
    s.dev.isSlave 0 p = true ∧
    (s.dev.slaveOf 0).mpd = none := by decide
theorem meets_ptp_messages_are_taken_sent_and_relayed_3 :
    let i : Fin 2 := 0
    let s : State := timeUp.onDev (fun d => d.set R.TIME_DOM_MASTER_LO.MASTER_LO 0 0x60)
    s.dev.f R.TIME_CTL.ENABLE = 1 ∧
    s.dev.f R.TIME_DOM_CFG.EN i = 1 := by decide
theorem meets_ptp_messages_are_taken_sent_and_relayed_4 :
    let p : Fin 128 := 5
    let m : PtpMsg := { ptpSync with domain := 9 }
    let residence : Nat := 600
    let s : State := timeRelay
    s.dev.f R.TIME_CTL.ENABLE = 1 ∧
    s.dev.f R.TIME_TC.EN = 1 ∧
    (s.dev.f R.TIME_TC.PORTS).testBit (p / 4) = true ∧
    s.dev.lportUp p = true ∧
    s.dev.f R.TIME_TC.DOM_LO ≤ m.domain.toNat ∧
    m.domain.toNat ≤ s.dev.f R.TIME_TC.DOM_HI ∧
    s.dev.tracked m.domain.toNat = false ∧
    (m.rxTime + residence) % tbMod = s.dev.tb ∧
    s.dev.f R.FAB_HS.EN = 0 ∧
    m.udp = none ∧
    m.typ.toNat < 4 := by decide
theorem meets_ptp_messages_are_taken_sent_and_relayed_5 :
    let p : Fin 128 := 5
    let m : PtpMsg := { ptpSync with domain := 9, udp := some ⟨54, 44, 0x1234, 0⟩ }
    let residence : Nat := 600
    let u : Udp := ⟨54, 44, 0x1234, 0⟩
    let s : State := timeRelay
    s.dev.f R.TIME_CTL.ENABLE = 1 ∧
    s.dev.f R.TIME_TC.EN = 1 ∧
    (s.dev.f R.TIME_TC.PORTS).testBit (p / 4) = true ∧
    s.dev.lportUp p = true ∧
    s.dev.f R.TIME_TC.DOM_LO ≤ m.domain.toNat ∧
    m.domain.toNat ≤ s.dev.f R.TIME_TC.DOM_HI ∧
    s.dev.tracked m.domain.toNat = false ∧
    (m.rxTime + residence) % tbMod = s.dev.tb ∧
    s.dev.f R.FAB_HS.EN = 0 ∧
    m.udp = some u ∧
    u.cksum ≠ 0 ∧
    m.typ.toNat < 4 := by decide
theorem meets_ptp_messages_are_taken_sent_and_relayed_6 :
    let m : PtpMsg := ptpSync
    let residence : Nat := 601
    let s : State := timeRelay
    (m.rxTime + residence) % tbMod ≠ s.dev.tb := by decide

/-! MarksAndEchoesMeasureThePath -/

/-- The anchor of engine 0 is locked and aligned. -/
def anchorHears : State := mkReady [(R.GLOBAL_ID.WING_MASK, 0, 1), (R.KW_CTL.ENABLE, 0, 1), (R.KW_ENG_CFG.EN, 0, 1), (R.KW_CAR_STATE.RX_LOCK, 0, 1),
  (R.LINE_CAR_STAT.ALIGN, 0, 1)]
theorem meets_marks_and_echoes_measure_the_path_1 :
    let e : Fin 8 := 7
    let s : State := mkReady []
    s.dev.anchorUp e = false := by decide
theorem meets_marks_and_echoes_measure_the_path_2 :
    let e : Fin 8 := 0
    let s : State := anchorHears
    s.dev.anchorUp e = true := by decide
theorem meets_marks_and_echoes_measure_the_path_3 :
    let e : Fin 8 := 0
    let p : Fin 4096 := 7
    let m : TimeEcho := { seq := 4, diff := 6553600 }
    let dIn : Int := 6553600
    let s : State := anchorHears.onDev (fun d => d.setMark 7 { MarkX.zero with dIn := some 6553600 })
    (s.dev.mark p).dIn = some dIn ∧
    m.seq ≠ 0xFFFF ∧
    s.dev.anchorUp e = true ∧
    s.dev.f R.TIME_DOM_CFG.EN 0 = 0 ∧
    s.dev.f R.TIME_DOM_CFG.EN 1 = 0 := by decide

/-! TimePinsAndReferencesAct -/

theorem meets_time_pins_and_references_act_1 :
    let bytes : List Byte := [1, 2, 3]
    let s : State := mkReady [(R.TIME_CTL.ENABLE, 0, 1), (R.TIME_TOD.IN_EN, 0, 1)]
    s.dev.f R.TIME_CTL.ENABLE = 1 ∧
    s.dev.f R.TIME_TOD.IN_EN = 1 ∧
    todSeconds bytes = none := by decide
theorem meets_time_pins_and_references_act_2 :
    let bytes : List Byte := todFrame (ascii "LKTOD,5,37,0,2")
    let k : Nat := 5
    let e : Nat := 327680000000000
    let s : State := (mkReady [(R.TIME_CTL.ENABLE, 0, 1), (R.TIME_TOD.IN_EN, 0, 1), (R.TIME_DOM_CFG.EN, 0, 1), (R.TIME_DOM_CFG.SRC_TYPE, 0, 2), (R.TIME_DOM_STAT.STATE, 0, 1)]).onDev (fun d => { d with ppsEdge := some 327680000000000, tb := 328335360000000 })
    s.dev.f R.TIME_CTL.ENABLE = 1 ∧
    s.dev.f R.TIME_TOD.IN_EN = 1 ∧
    todSeconds bytes = some k ∧
    s.dev.ppsEdge = some e ∧
    e + 10000000 * 65536 ≤ s.dev.tb ∧
    s.dev.tb ≤ e + 900000000 * 65536 ∧
    s.dev.usesPins 0 = true ∧
    s.dev.usesPins 1 = false ∧
    s.dev.f R.TIME_DOM_STAT.STATE 0 = 1 := by decide
theorem meets_time_pins_and_references_act_3 :
    let s : State := (mkReady [(R.TIME_CTL.ENABLE, 0, 1), (R.TIME_PPS.OUT_EN, 0, 1)]).onDev (fun d => { d with tb := 327680000000000 })
    s.dev.f R.TIME_CTL.ENABLE = 1 ∧
    s.dev.f R.TIME_PPS.OUT_EN = 1 ∧
    s.dev.ppsPulsed s.dev.ppsSecond = false := by decide
theorem meets_time_pins_and_references_act_4 :
    let s : State := (mkReady [(R.TIME_CTL.ENABLE, 0, 1), (R.TIME_PPS.OUT_EN, 0, 1)]).onDev (fun d => { d with tb := 327680000000000, ppsDone := [(3, 5)] })
    s.dev.ppsPulsed s.dev.ppsSecond = true := by decide
theorem meets_time_pins_and_references_act_5 :
    let s : State := mkReady [(R.TIME_CTL.ENABLE, 0, 1), (R.TIME_TOD.OUT_EN, 0, 1)]
    s.dev.f R.TIME_CTL.ENABLE = 1 ∧
    s.dev.f R.TIME_TOD.OUT_EN = 1 := by decide
theorem meets_time_pins_and_references_act_6 :
    let s : State := mkReady [(R.TIME_CTL.ENABLE, 0, 1), (R.TIME_PPS.IN_EN, 0, 1)]
    s.dev.f R.TIME_CTL.ENABLE = 1 ∧
    s.dev.f R.TIME_PPS.IN_EN = 1 := by decide
theorem meets_time_pins_and_references_act_7 :
    let e : Nat := 5
    let s : State := (mkReady [(R.TIME_CTL.ENABLE, 0, 1), (R.TIME_DOM_CFG.EN, 1, 1), (R.TIME_DOM_CFG.SRC_TYPE, 1, 2)]).onDev (fun d => { d with ppsEdge := some 5, tb := 900000000 * 65536 + 6 })
    s.dev.f R.TIME_CTL.ENABLE = 1 ∧
    s.dev.ppsEdge = some e ∧
    e + 900000000 * 65536 < s.dev.tb ∧
    (s.dev.usesPins 0 = true ∨ s.dev.usesPins 1 = true) := by decide
theorem meets_time_pins_and_references_act_8 :
    let s : State := mkReady [(R.TIME_CTL.ENABLE, 0, 1), (R.TIME_PPS.IN_EN, 0, 1)]
    s.dev.f R.TIME_CTL.ENABLE = 1 ∧
    s.dev.f R.TIME_PPS.IN_EN = 1 := by decide
theorem meets_time_pins_and_references_act_9 :
    let s : State := mkReady [(R.TIME_TOD.LEAP, 0, 1), (R.TIME_TOD.UTC_OFS, 0, 127)]
    (s.dev.f R.TIME_TOD.LEAP = 1 ∨ s.dev.f R.TIME_TOD.LEAP = 2) := by decide
theorem meets_time_pins_and_references_act_10 :
    let s : State := mkReady [(R.SYS_STRAP.CLK_EFF, 0, 3)]
    s.dev.f R.SYS_STRAP.CLK_EFF ≠ 0 := by decide
theorem meets_time_pins_and_references_act_11 :
    let s : State := (mkReady []).onDev (fun d => { d with tb := 327680000065537 })
    s.dev.f R.SYS_BOOT.STATE = 4 ∧
    s.dev.tb < 2 ^ 48 * 1000000000 * 65536 := by decide

/-! AtomicsApplyAtTheirTarget -/

/-- A request of ring 3, index 9, at offset 16 of window 2. -/
def atomReq (subop : Nat) : AtomReq :=
  { stream := none, ring := 3, index := 9, isSignal := false, subop := subop, a := 2 ^ 64 - 5, b := 77, win := 2, off := 16, srcRank := 0, at_ := 0 }
/-- It waits at the units; window 2 lies in host memory of function 1, and holds 261 there. -/
def atomWaits (r : AtomReq) : State :=
  { (mkReady [(R.WINDOW.LOC, 2, 1), (R.WINDOW.EP, 2, 1), (R.WINDOW.ADDR, 2, 4096)]).onDev (fun d =>
      { d with atomics := [r], ops := [newOp 3 9 (desc 4 0 0)] }) with
    mem := [(memKey (hostSpace 1) 4112, 5), (memKey (hostSpace 1) 4113, 1)] }
theorem meets_atomics_apply_at_their_target_1 :
    let c : Instr × Nat := (.fmin64, 3)
    let r : AtomReq := atomReq 3
    let s : State := atomWaits (atomReq 3)
    c ∈ [(.fadd64, 0), (.cas64, 1), (.swap64, 2), (.fmin64, 3), (.fmax64, 4)] ∧
    s.dev.atomics.find? (fun r => !r.isSignal) = some r ∧
    r.subop = c.2 ∧
    s.dev.atomPasses r (fun q => q.isSignal && s.dev.signalMay q) = false := by decide
theorem meets_atomics_apply_at_their_target_2 :
    let c : Instr × Nat := (.swap64, 2)
    let r : AtomReq := atomReq 2
    let o : Op := newOp 3 9 (desc 4 0 0)
    let s : State := atomWaits (atomReq 2)
    c ∈ [(.fadd64, 0), (.cas64, 1), (.swap64, 2), (.fmin64, 3), (.fmax64, 4)] ∧
    s.dev.atomics.find? (fun r => !r.isSignal) = some r ∧
    r.subop = c.2 ∧
    r.stream = none ∧
    s.dev.f R.WINDOW.LOC r.win = 1 ∧
    s.dev.atomPasses r (fun q => q.isSignal && s.dev.signalMay q) = false ∧
    s.dev.getOp r.ring r.index = some o ∧
    o.stage ≠ .done := by decide
theorem meets_atomics_apply_at_their_target_3 :
    let r : AtomReq := { atomReq 0 with isSignal := true }
    let s : State := atomWaits { atomReq 0 with isSignal := true }
    s.dev.atomics.find? (fun r => r.isSignal && s.dev.signalMay r) = some r ∧
    s.dev.f R.WINDOW.NOTIFY_EN r.win = 0 ∧
    s.dev.atomPasses r (fun q => !q.isSignal) = false := by decide
theorem meets_atomics_apply_at_their_target_4 :
    let r : AtomReq := { atomReq 0 with isSignal := true }
    let s : State := (atomWaits { atomReq 0 with isSignal := true }).onDev (fun d => (d.set R.WINDOW.NOTIFY_EN 2 1).set R.WINDOW.NOTIFY_CQ 2 7)
    s.dev.atomics.find? (fun r => r.isSignal && s.dev.signalMay r) = some r ∧
    s.dev.f R.WINDOW.NOTIFY_EN r.win = 1 ∧
    s.dev.atomPasses r (fun q => !q.isSignal) = false ∧
    s.dev.f R.CQ_CTL.ENABLE (s.dev.f R.WINDOW.NOTIFY_CQ r.win) = 0 := by decide
theorem meets_atomics_apply_at_their_target_5 :
    let c : Instr × Nat := (.fmin64, 3)
    let r : AtomReq := { atomReq 3 with index := 10 }
    let s : State := (atomWaits (atomReq 3)).onDev (fun d => { d with atomics := [{ atomReq 0 with isSignal := true }, { atomReq 3 with index := 10 }] })
    c ∈ [(.fadd64, 0), (.cas64, 1), (.swap64, 2), (.fmin64, 3), (.fmax64, 4)] ∧
    s.dev.atomics.find? (fun r => !r.isSignal) = some r ∧
    s.dev.atomPasses r (fun q => q.isSignal && s.dev.signalMay q) = true := by decide
theorem meets_atomics_apply_at_their_target_6 :
    let r : AtomReq := { atomReq 0 with isSignal := true }
    let s : State := (atomWaits (atomReq 3)).onDev (fun d => { d with atomics := [{ atomReq 3 with index := 10 }, { atomReq 0 with isSignal := true }] })
    s.dev.atomics.find? (fun r => r.isSignal && s.dev.signalMay r) = some r ∧
    s.dev.atomPasses r (fun q => !q.isSignal) = true := by decide

/-! CourierChannelsRunTheirTransfers -/

/-- Channel 3 with a shadow set of n bytes from host address 256 to 512, no record. -/
def courierSet (n arm : Nat) : State := mkReady [(R.CR_SRC.SRC, 3, 256), (R.CR_DST.DST, 3, 512), (R.CR_CNT.ACNT, 3, n), (R.CR_CNT.BCNT, 3, 1),
  (R.CR_CNT.CCNT, 3, 1), (R.CR_ATTR.SRC_SPACE, 3, 0), (R.CR_ATTR.DST_SPACE, 3, 0), (R.CR_CTL.ARM, 3, arm)]
/-- That set loaded and running. -/
def courierRuns (n arm : Nat) : State :=
  { (courierSet n arm).onDev (fun d => (d.setCourier 3 (d.shadowSet 3)).set R.CR_STAT.STATE 3 1) with
    mem := [(memKey (hostSpace 0) 256, 9), (memKey (hostSpace 0) 258, 7)] }
/-- The channel of that set loaded with REC_EN = 1: one slot of its queue, 2, is reserved. -/
def courierRecords : State := (courierRuns 4 0).onDev (fun d =>
  ((((d.set R.CR_CQ.CQ 3 2).set R.CQ_CTL.SIZE_LOG 2 6).set R.CQ_BASE.ADDR 2 8192).set R.CQ_CREDIT.RESERVED 2 1).setCourier 3 { d.shadowSet 3 with recEn := true })
theorem meets_courier_channels_run_their_transfers_1 :
    let c : Fin 16 := 3
    let s : State := mkReady [(R.CR_STAT.STATE, 3, 1)]
    s.dev.f R.SYS_BOOT.STATE = 4 ∧
    (s.dev.f R.CR_STAT.STATE c = 1 ∨ s.dev.blkHeld 6 c = true) := by decide
theorem meets_courier_channels_run_their_transfers_2 :
    let c : Fin 16 := 3
    let s : State := courierSet 4 0
    s.dev.f R.SYS_BOOT.STATE = 4 ∧
    s.dev.f R.CR_STAT.STATE c ≠ 1 ∧
    s.dev.blkHeld 6 c = false ∧
    s.dev.f R.CR_ATTR.REC_EN c = 0 := by decide
theorem meets_courier_channels_run_their_transfers_3 :
    let c : Fin 16 := 3
    let s : State := mkReady []
    s.dev.f R.SYS_BOOT.STATE = 4 ∧
    s.dev.blkHeld 6 c = false := by decide
theorem meets_courier_channels_run_their_transfers_4 :
    let c : Fin 16 := 3
    let s : State := mkReady [(R.CR_STAT.STATE, 3, 2), (R.CR_CTL.ARM, 3, 1)]
    s.dev.f R.SYS_BOOT.STATE = 4 ∧
    s.dev.f R.CR_STAT.STATE c ≠ 1 := by decide
theorem meets_courier_channels_run_their_transfers_5 :
    let c : Fin 16 := 3
    let s : State := courierRuns 4 1
    s.dev.f R.SYS_BOOT.STATE = 4 ∧
    s.dev.f R.CR_STAT.STATE c = 1 ∧
    (s.dev.courier c).waiting = false ∧
    (s.dev.courier c).recEn = false := by decide
theorem meets_courier_channels_run_their_transfers_6 :
    let c : Fin 16 := 3
    let s : State := courierRuns 4 0
    s.dev.f R.CR_STAT.STATE c = 1 ∧
    (s.dev.courier c).waiting = false ∧
    (s.dev.courier c).recEn = false ∧
    s.dev.f R.CR_CTL.ARM c = 0 := by decide
theorem meets_courier_channels_run_their_transfers_7 :
    let c : Fin 16 := 3
    let s : State := courierRuns 4 1
    s.dev.f R.CR_STAT.STATE c = 1 ∧
    (s.dev.courier c).waiting = false ∧
    (s.dev.courier c).recEn = false ∧
    s.dev.f R.CR_CTL.ARM c = 1 ∧
    s.dev.f R.CR_ATTR.REC_EN c = 0 ∧
    s.dev.courierCheck (s.dev.shadowSet c) = none := by decide
theorem meets_courier_channels_run_their_transfers_8 :
    let c : Fin 16 := 3
    let s : State := courierRuns 4 1
    s.dev.f R.CR_STAT.STATE c = 1 ∧
    (s.dev.courier c).waiting = false ∧
    (s.dev.courier c).recEn = false := by decide
theorem meets_courier_channels_run_their_transfers_9 :
    let c : Fin 16 := 3
    let s : State := (courierSet 4 0).onDev (fun d => (d.set R.CR_ATTR.REC_EN 3 1).set R.CQ_CREDIT.RESERVED 0 1)
    s.dev.f R.SYS_BOOT.STATE = 4 ∧
    s.dev.f R.CR_STAT.STATE c ≠ 1 ∧
    s.dev.blkHeld 6 c = false ∧
    s.dev.f R.CR_ATTR.REC_EN c = 1 ∧
    s.dev.cqCredit (s.dev.f R.CR_CQ.CQ c) = 0 := by decide
theorem meets_courier_channels_run_their_transfers_10 :
    let c : Fin 16 := 3
    let s : State := (courierSet 4 0).onDev (fun d => ((d.set R.CR_ATTR.REC_EN 3 1).set R.CR_CQ.CQ 3 2).set R.CQ_CTL.SIZE_LOG 2 6)
    s.dev.f R.SYS_BOOT.STATE = 4 ∧
    s.dev.f R.CR_STAT.STATE c ≠ 1 ∧
    s.dev.blkHeld 6 c = false ∧
    s.dev.f R.CR_ATTR.REC_EN c = 1 ∧
    s.dev.cqCredit (s.dev.f R.CR_CQ.CQ c) ≠ 0 ∧
    s.dev.courierCheck (s.dev.shadowSet c) = none := by decide
theorem meets_courier_channels_run_their_transfers_11 :
    let c : Fin 16 := 3
    let n : Nat := 2
    let ok : Bool := true
    let e : Instr × Verdict × Nat × List (Nat × Nat) := (.courierMemoryError 3 2 true, ⟨0x0F, 0x30⟩, 2, (courierRecords.dev.courier 3).moves.take 2)
    let s : State := courierRecords
    e ∈ [(.courierTransferEnd c ok, ⟨0, 0⟩, 0, (s.dev.courier c).moves), (.courierAbort c n ok, ⟨0x0F, 0x40⟩, 0, (s.dev.courier c).moves.take (4096 * n)), (.courierMemoryError c n ok, ⟨0x0F, 0x30⟩, 2, (s.dev.courier c).moves.take n)] ∧
    s.dev.f R.SYS_BOOT.STATE = 4 ∧
    s.dev.f R.CR_STAT.STATE c = 1 ∧
    (s.dev.courier c).waiting = false ∧
    (s.dev.courier c).recEn = true ∧
    s.dev.f R.CR_CTL.ARM c = 0 ∧
    s.dev.f R.CQ_CTL.LOC (s.dev.f R.CR_CQ.CQ c) = 0 := by decide

/-! ContextsOpenByAccession -/

/-- STREAM_CMD0 with GO, the OP given, job 1, site 1, class 0, pools 0 and 1, stream 4. -/
def openWord (op : Nat) : Word :=
  setBits (setBits (setBits (setBits (setBits (setBits (setBits (0 : Word) R.STREAM_CMD0.GO.lo R.STREAM_CMD0.GO.w 1) R.STREAM_CMD0.OP.lo R.STREAM_CMD0.OP.w op)
    R.STREAM_CMD0.JOB.lo R.STREAM_CMD0.JOB.w 1) R.STREAM_CMD0.SITE.lo R.STREAM_CMD0.SITE.w 1)
    R.STREAM_CMD0.RX_POOL.lo R.STREAM_CMD0.RX_POOL.w 1) R.STREAM_CMD0.STREAM.lo R.STREAM_CMD0.STREAM.w 4) R.STREAM_CMD0.STACK.lo R.STREAM_CMD0.STACK.w 0
/-- Job 1 of the HOST_KEYED, PINNED tenant 0 may open context 0 toward site 1: pools, Annex pages and both half-keys of pair 0 are there. -/
def openSetup : State := (mkReady [(R.STREAM_CTL.ENABLE, 0, 1), (R.TENANT.ENABLE, 0, 1), (R.TENANT.MAX_STREAMS, 0, 4), (R.TENANT.ANNEX_PAGES, 0, 8),
  (R.JOB.VALID, 1, 1), (R.BPM_CTL.ENABLE, 0, 1), (R.BPM_POOL_CFG.EN, 0, 1), (R.BPM_POOL_CFG.SIZE, 0, 257), (R.BPM_POOL_CFG.COUNT, 0, 8),
  (R.BPM_POOL_CFG.EN, 1, 1), (R.BPM_POOL_CFG.SIZE, 1, 257), (R.BPM_POOL_CFG.COUNT, 1, 8), (R.BPMQ.LIMIT, 0, 1000), (R.STREAM_CMD1.PAGES, 0, 2),
  (R.VTTEN.PAIR_COUNT, 0, 4)]).onDev (fun d =>
    (((d.setHalf 0 (some ⟨0, [1], none⟩)).setHalf 1 (some ⟨0, [2], none⟩)).setBound 0 (some ⟨1, 1, 0, 0, none⟩)))
/-- An accession message of site 1, stream 9, generation 3, to stream 4 of job 1's JOB_ID 77. -/
def accMsg (status : Nat) : AccessionMsg :=
  { sealed := false, gen := 3, cls := 0, wing := 2, src := 9, dst := 4, jobId := 77, site := 1, rail := 0, status := BitVec.ofNat 8 status, credit := 5, tTx := 900,
    tEcho := 500 }
/-- A Catalogue of two sites is active, this site 0; job 1 has JOB_ID 77. -/
def peerUp : State := (mkReady [(R.JOB.VALID, 1, 1), (R.JOB.JOB_ID, 1, 77)]).onDev (fun d =>
  { d with cats := ⟨checked [0, 0, 0, 0] catRest 0, []⟩, tb := 65536 * 1500 })
/-- Context 4 accedes toward site 1, its ACCEDE sent at 500 ns, and a STREAM_CMD waits for it. -/
def accedes : State := peerUp.onDev (fun d => d.setCtx 4 { Ctx.empty with state := .acceding, job := 1, site := 1, gen := 255, tTx := 500, cmd := true })
theorem meets_contexts_open_by_accession_1 :
    let w : Word := openWord 1
    let s : State := openSetup
    s.dev.f R.SYS_BOOT.STATE = 4 ∧
    s.dev.f R.STREAM_CMD0.GO = 0 ∧
    cmdIs w 1 = true ∧
    (let d := ((s.dev.writeFields (R.STREAM_CMD0.GO.key 0) true .full w).1).set R.STREAM_CMD0.GO 0 1; let r := d.openAsked; d.f R.JOB.VALID r.key.job = 1 ∧ r.key.site ≠ d.site ∧ d.ctxOf r.key = none ∧ d.heldAccedes = [] ∧ (d.reserve r).1 = 0) := by decide
theorem meets_contexts_open_by_accession_2 :
    let w : Word := openWord 1
    let c : Fin 32768 := 6
    let s : State := openSetup.onDev (fun d => d.setCtx 6 { Ctx.empty with state := .opened, job := 1, site := 1, cls := 0 })
    s.dev.f R.SYS_BOOT.STATE = 4 ∧
    s.dev.f R.STREAM_CMD0.GO = 0 ∧
    cmdIs w 1 = true ∧
    (let d := ((s.dev.writeFields (R.STREAM_CMD0.GO.key 0) true .full w).1).set R.STREAM_CMD0.GO 0 1; let r := d.openAsked; d.f R.JOB.VALID r.key.job = 1 ∧ r.key.site ≠ d.site ∧ d.ctxOf r.key = some c.val ∧ (d.ctx c).state = .opened) := by decide
theorem meets_contexts_open_by_accession_3 :
    let w : Word := openWord 1
    let s : State := openSetup.onDev (fun d => d.set R.TENANT.ENABLE 0 0)
    s.dev.f R.SYS_BOOT.STATE = 4 ∧
    s.dev.f R.STREAM_CMD0.GO = 0 ∧
    cmdIs w 1 = true ∧
    (let d := ((s.dev.writeFields (R.STREAM_CMD0.GO.key 0) true .full w).1).set R.STREAM_CMD0.GO 0 1; let r := d.openAsked; d.f R.JOB.VALID r.key.job = 1 ∧ r.key.site ≠ d.site ∧ d.ctxOf r.key = none ∧ d.heldAccedes = [] ∧ d.openChecks r ≠ 0) := by decide
theorem meets_contexts_open_by_accession_4 :
    let m : AccessionMsg := accMsg 0
    let c : Instr := .refuseReceive (accMsg 0) false
    c ∈ [.accedeReceive m false, .acceptReceive m false, .refuseReceive m false, .deaccedeReceive m false, .deaccedeAckReceive m false] := by decide
theorem meets_contexts_open_by_accession_5 :
    let m : AccessionMsg := accMsg 0
    let p : Nat := 0
    let job : Nat := 1
    let c : Nat := 4
    let s : State := accedes
    s.dev.peerOf m.site.toNat = some p ∧
    (s.dev.contact p).msgJob m = some job ∧
    (s.dev.contact p).ctxOf (msgKey job m) = some c ∧
    (s.dev.ctx c).state = .acceding ∧
    (s.dev.contact p).ctxSealed (s.dev.ctx c) = m.sealed ∧
    s.dev.noDerive (s.dev.ctx c) = false ∧
    NothingWaits s ∧
    c < 32768 := by decide
theorem meets_contexts_open_by_accession_6 :
    let m : AccessionMsg := accMsg 0
    let p : Nat := 0
    let s : State := accedes
    s.dev.peerOf m.site.toNat = some p ∧
    (s.dev.ctx m.dst.toNat).state = .acceding ∧
    (s.dev.ctx m.dst.toNat).site = m.site.toNat ∧
    (s.dev.ctx m.dst.toNat).tTx = m.tEcho.toNat ∧
    s.dev.noDerive (s.dev.ctx m.dst.toNat) = false ∧
    NothingWaits s := by decide
theorem meets_contexts_open_by_accession_7 :
    let m : AccessionMsg := accMsg 3
    let p : Nat := 0
    let s : State := accedes
    s.dev.peerOf m.site.toNat = some p ∧
    (s.dev.ctx m.dst.toNat).state = .acceding ∧
    (s.dev.ctx m.dst.toNat).site = m.site.toNat ∧
    m.status ≠ 0 ∧
    NothingWaits s ∧
    (s.dev.ctx m.dst.toNat).tgt = [] := by decide
theorem meets_contexts_open_by_accession_8 :
    let c : Fin 32768 := 4
    let s : State := accedes.onDev (fun d => (d.onCtx 4 (fun x => { x with waitFor := 500 })).onCtx 4 (fun x => x)) |>.onDev (fun d => { d with now := 500 })
    (s.dev.ctx c).state = .acceding ∧
    NothingWaits s ∧
    (s.dev.ctx c).tgt = [] ∧
    (s.dev.ctx c).waitFor ≤ s.dev.now - (s.dev.ctx c).since := by decide
theorem meets_contexts_open_by_accession_9 :
    let c : Fin 32768 := 4
    let s : State := (accedes.onDev (fun d => d.onCtx 4 (fun x => { x with waitFor := 500 }))).onDev (fun d => { d with now := 499 })
    ((s.dev.ctx c).state ≠ .acceding ∨ s.dev.now - (s.dev.ctx c).since < (s.dev.ctx c).waitFor) := by decide
theorem meets_contexts_open_by_accession_10 :
    let job : Fin 4096 := 1
    let site : Fin 32 := 1
    let cls : Fin 16 := 0
    let v : Fin 4 := 0
    let h : HeldAccede := { msg := accMsg 0, since := 0, wait := 700 }
    let s : State := peerUp.onDev (fun d => { d with heldAccedes := [{ msg := accMsg 0, since := 0, wait := 700 }], now := 700 })
    s.dev.heldAccedes.find? (fun h => s.dev.msgJob h.msg == some job.val && msgKey job h.msg == ⟨job, site, cls, if cls.val = 0 then 0 else v⟩) = some h ∧
    h.wait ≤ s.dev.now - h.since ∧
    s.dev.f R.TENANT.PLACE_MODE (s.dev.f R.JOB.TENANT job) = 0 ∧
    s.dev.ctxOf ⟨job, site, cls, if cls.val = 0 then 0 else v⟩ = none := by decide
theorem meets_contexts_open_by_accession_11 :
    let m : AccessionMsg := accMsg 0
    let p : Nat := 0
    let s : State := (accedes.onDev (fun d => d.set R.TENANT.SEC_MODE 0 1)).onDev (fun d => d.set R.VT_STAT.TRNG_OK 0 0)
    s.dev.peerOf m.site.toNat = some p ∧
    (s.dev.ctx m.dst.toNat).state = .acceding ∧
    (s.dev.ctx m.dst.toNat).site = m.site.toNat ∧
    (s.dev.ctx m.dst.toNat).tTx = m.tEcho.toNat ∧
    s.dev.noDerive (s.dev.ctx m.dst.toNat) = true ∧
    NothingWaits s ∧
    (s.dev.ctx m.dst.toNat).tgt = [] := by decide

/-! ContextsDrainAndClose -/

/-- Context 4 is OPEN toward stream 9, generation 3, of site 1. -/
def isOpen : State := peerUp.onDev (fun d => d.setCtx 4 { Ctx.empty with
  state := .opened, job := 1, site := 1, gen := 255, peerStream := 9, peerGen := 3, lastUse := 10, sndNxt := 8, sndUna := 7, status := 0 })
/-- A request segment with sequence number n, sent once at tick 0, not receipted. -/
def sentSeg (n : Nat) : LogEnt :=
  { seq := n, size := 128, attempts := 1, cutAt := 0, lastSend := 0, carrier := 1, raced := false, receipted := false, resend := false,
    seg := { ver := 0, typ := 1, kph := false, cep := false, first := true, last := true, poison := false, gen := 3, cls := 0, wing := 0, dst := 9,
             seq := BitVec.ofNat 32 n, opn := 0, segidx := 0, blkOff := 0, opcode := 1, tail := [], payload := [], tag := [] } }
theorem meets_contexts_drain_and_close_1 :
    let w : Word := openWord 2
    let s : State := isOpen
    s.dev.f R.SYS_BOOT.STATE = 4 ∧
    s.dev.f R.STREAM_CMD0.GO = 0 ∧
    cmdIs w 2 = true ∧
    (s.dev.ctx (bitsOf w R.STREAM_CMD0.STREAM.lo R.STREAM_CMD0.STREAM.w)).state = .opened := by decide
theorem meets_contexts_drain_and_close_2 :
    let w : Word := openWord 3
    let s : State := isOpen
    s.dev.f R.SYS_BOOT.STATE = 4 ∧
    s.dev.f R.STREAM_CMD0.GO = 0 ∧
    cmdIs w 3 = true ∧
    NothingWaits s ∧
    (s.dev.ctx (bitsOf w R.STREAM_CMD0.STREAM.lo R.STREAM_CMD0.STREAM.w)).state ≠ .closed ∧
    (s.dev.ctx (bitsOf w R.STREAM_CMD0.STREAM.lo R.STREAM_CMD0.STREAM.w)).tgt = [] := by decide
theorem meets_contexts_drain_and_close_3 :
    let m : AccessionMsg := { accMsg 0 with dst := 0x7FFF }
    let p : Nat := 0
    let c : Nat := 4
    let s : State := isOpen
    s.dev.peerOf m.site.toNat = some p ∧
    s.dev.namedCtx m = c ∧
    (s.dev.ctx c).named m = true ∧
    ((s.dev.ctx c).state = .opened ∨ (s.dev.ctx c).state = .draining) ∧
    m.status ≠ 0x0F := by decide
theorem meets_contexts_drain_and_close_4 :
    let m : AccessionMsg := { accMsg 0x0F with dst := 0x7FFF }
    let p : Nat := 0
    let c : Nat := 4
    let s : State := isOpen
    s.dev.peerOf m.site.toNat = some p ∧
    s.dev.namedCtx m = c ∧
    (s.dev.ctx c).named m = true ∧
    ((s.dev.ctx c).state = .opened ∨ (s.dev.ctx c).state = .draining) ∧
    m.status = 0x0F ∧
    NothingWaits s ∧
    (s.dev.ctx c).tgt = [] := by decide
theorem meets_contexts_drain_and_close_5 :
    let m : AccessionMsg := { accMsg 0x0F with dst := 0x7FFF }
    let p : Nat := 0
    let s : State := peerUp.onDev (fun d => { d with heldAccedes := [{ msg := accMsg 0, since := 0, wait := 700 }], now := 700 })
    s.dev.peerOf m.site.toNat = some p ∧
    m.status = 0x0F ∧
    (s.dev.ctx (s.dev.namedCtx m)).named m = false := by decide
theorem meets_contexts_drain_and_close_6 :
    let m : AccessionMsg := accMsg 0
    let p : Nat := 0
    let s : State := isOpen.onDev (fun d => d.onCtx 4 (fun x => { x with state := .draining, deSent := true }))
    s.dev.peerOf m.site.toNat = some p ∧
    (s.dev.ctx m.dst.toNat).named m = true ∧
    (s.dev.ctx m.dst.toNat).state = .draining ∧
    (s.dev.ctx m.dst.toNat).deSent = true ∧
    NothingWaits s := by decide
theorem meets_contexts_drain_and_close_7 :
    let c : Fin 32768 := 4
    let s : State := isOpen.onDev (fun d => { d.set R.STREAM_DFLT.IDLE_CLOSE 0 1 with now := 1000010 })
    (s.dev.ctx c).state = .opened ∧
    s.dev.f R.STREAM_DFLT.IDLE_CLOSE ≠ 0 ∧
    s.dev.ops = [] ∧
    (s.dev.ctx c).sendq = [] ∧
    (s.dev.ctx c).tgt = [] ∧
    s.dev.f R.STREAM_DFLT.IDLE_CLOSE * 1000000 ≤ s.dev.now - (s.dev.ctx c).lastUse := by decide
theorem meets_contexts_drain_and_close_8 :
    let c : Fin 32768 := 4
    let s : State := isOpen.onDev (fun d => d.onCtx 4 (fun x => { x with state := .draining }))
    (s.dev.ctx c).state = .draining ∧
    s.dev.drained c = true ∧
    (s.dev.ctx c).deRcvd = false ∧
    (s.dev.ctx c).deSent = false := by decide
theorem meets_contexts_drain_and_close_9 :
    let c : Fin 32768 := 4
    let s : State := isOpen.onDev (fun d => d.onCtx 4 (fun x => { x with state := .draining, deRcvd := true }))
    (s.dev.ctx c).state = .draining ∧
    s.dev.drained c = true ∧
    (s.dev.ctx c).deRcvd = true ∧
    NothingWaits s := by decide
theorem meets_contexts_drain_and_close_10 :
    let c : Fin 32768 := 4
    let s : State := (isOpen.onDev (fun d => d.onCtx 4 (fun x => { x with fenceWait := true, waitFor := 600 }))).onDev (fun d => { d with now := 600 })
    (s.dev.ctx c).fenceWait = true ∧
    (s.dev.ctx c).sendq = [] ∧
    (s.dev.ctx c).tgt = [] ∧
    (s.dev.ctx c).cls = 0 ∧
    (s.dev.ctx c).waitFor ≤ s.dev.now - (s.dev.ctx c).since ∧
    NothingWaits s := by decide
theorem meets_contexts_drain_and_close_11 :
    let c : Fin 32768 := 4
    let s : State := (isOpen.onDev (fun d => d.onCtx 4 (fun x => { x with fenceWait := true, waitFor := 600 }))).onDev (fun d => { d with now := 599 })
    ((s.dev.ctx c).fenceWait = false ∨ s.dev.now - (s.dev.ctx c).since < (s.dev.ctx c).waitFor) := by decide

/-! ReceiptsMoveTheSendingWindow -/

/-- Context 4 is OPEN with key pair 0; segment 7 is sent and not receipted, two segments have arrived, the timer runs from tick 100. -/
def rcptReady : State := (isOpen.onDev (fun d => d.onCtx 4 (fun x => { x with
    arrived := 2, rcvCum := 2, log := [sentSeg 7], timer := some (100, 900), rseqIn := some 3, site := 1 }))).onDev (fun d =>
  { (((d.set R.STREAM_CTL.ENABLE 0 1).setHalf 0 (some ⟨0, [1], none⟩)).setHalf 1 (some ⟨0, [2], none⟩)) with now := 10 ^ 9 })
/-- A receipt for context 4 with CUM n, RSEQ 4, credit 6. -/
def rcpt (n : Nat) : Receipt :=
  { kph := false, cep := false, gen := 255, reason := 0, dst := 4, cum := BitVec.ofNat 32 n, high := 7, base := BitVec.ofNat 32 n, nseq := 0, rseq := 4,
    credit := 6, sack := 0 }
theorem meets_receipts_move_the_sending_window_1 :
    let c : Fin 32768 := 4
    let s : State := rcptReady
    ((s.dev.ctx c).state = .opened ∨ (s.dev.ctx c).state = .draining) ∧
    (s.dev.ctx c).arrived ≠ 0 ∧
    max (s.dev.f R.STREAM_TIMER.RCPT_INT) 1 * 1000 ≤ s.dev.now - (s.dev.ctx c).lastRcpt ∧
    (s.dev.streamKey (s.dev.ctx c) false (epochOf (s.dev.ctx c).rcvCum)).isSome = true := by decide
theorem meets_receipts_move_the_sending_window_2 :
    let r : Receipt := { rcpt 8 with cep := true }
    let s : State := rcptReady
    s.dev.f R.STREAM_CTL.ENABLE = 1 ∧
    s.dev.cepOk r.cep = false := by decide
theorem meets_receipts_move_the_sending_window_3 :
    let r : Receipt := rcpt 8
    let s : State := rcptReady
    s.dev.f R.STREAM_CTL.ENABLE = 1 ∧
    s.dev.cepOk r.cep = true ∧
    ((s.dev.ctx r.dst.toNat).state = .opened ∨ (s.dev.ctx r.dst.toNat).state = .draining) ∧
    (s.dev.ctx r.dst.toNat).gen = r.gen.toNat := by decide
theorem meets_receipts_move_the_sending_window_4 :
    let r : Receipt := rcpt 8
    let p : Nat := 0
    let s : State := rcptReady
    s.dev.f R.STREAM_CTL.ENABLE = 1 ∧
    s.dev.cepOk r.cep = true ∧
    ((s.dev.ctx r.dst.toNat).state = .opened ∨ (s.dev.ctx r.dst.toNat).state = .draining) ∧
    (s.dev.ctx r.dst.toNat).gen = r.gen.toNat ∧
    s.dev.peerOf (s.dev.ctx r.dst.toNat).site = some p ∧
    (s.dev.ctx r.dst.toNat).rseqIn.all (fun old => decide (0 < diff32 r.rseq.toNat old)) = true ∧
    ((s.dev.ctx r.dst.toNat).sndUna : Int) ≤ wholeSeq (s.dev.ctx r.dst.toNat).sndUna r.cum.toNat ∧
    wholeSeq (s.dev.ctx r.dst.toNat).sndUna r.cum.toNat ≤ ((s.dev.ctx r.dst.toNat).sndNxt : Int) ∧
    (∀ e ∈ (s.dev.ctx r.dst.toNat).log, e.attempts < 8) := by decide
theorem meets_receipts_move_the_sending_window_5 :
    let c : Fin 32768 := 4
    let t0 : Nat := 100
    let run : Nat := 900
    let s : State := rcptReady.onDev (fun d => { d with now := 1000 })
    (s.dev.ctx c).timer = some (t0, run) ∧
    run ≤ s.dev.now - t0 ∧
    (∀ e ∈ (s.dev.ctx c).log, e.attempts < 8) := by decide
theorem meets_receipts_move_the_sending_window_6 :
    let c : Fin 32768 := 4
    let t0 : Nat := 100
    let run : Nat := 900
    let s : State := rcptReady.onDev (fun d => { d with now := 999 })
    ((s.dev.ctx c).timer = none ∨ ((s.dev.ctx c).timer = some (t0, run) ∧ s.dev.now - t0 < run)) := by decide

/-! StacksAndPoolsServeContexts -/

/-- A context of job 1 homed on wing 2 with the copies of its log on the stacks given. -/
def onStacks (a b : Nat) : Ctx :=
  { Ctx.empty with state := .opened, job := 1, site := 1, gen := 9, home := 2, copyA := a, copyB := b, reserved := true, pages := 4, logPages := 4, mirror := a != b }
/-- That context alone, as context 4. -/
def stacked (a b : Nat) : State := peerUp.onDev (fun d => { d with ctxs := [(4, onStacks a b)] })
/-- Pool 1 in HBM: 8 buffers of 16,448 bytes, buffer 3 on loan. -/
def lentPool : State := (mkReady [(R.BPM_POOL_CFG.EN, 1, 1), (R.BPM_POOL_CFG.LOC, 1, 4), (R.BPM_POOL_CFG.SIZE, 1, 257), (R.BPM_POOL_CFG.COUNT, 1, 8),
  (R.BPM_POOL_STAT.FREE, 1, 7), (R.BPM_POOL_STAT.LOW, 1, 2)]).onDev (fun d => d.setLent 1 [3])
theorem meets_stacks_and_pools_serve_contexts_1 :
    let k : Fin 8 := 5
    let s : State := mkReady []
    s.dev.wingPresent (k.val / 2) = true ∧
    s.dev.f R.ANNEX_STK.FAILED k = 0 ∧
    s.dev.f R.ANNEX_STK.FAILED (if k.val % 2 = 0 then k.val + 1 else k.val - 1) = 0 ∧
    s.dev.deltasOut = [] ∧
    s.dev.deltasIn = [] ∧
    s.dev.ctxs = [] := by decide
theorem meets_stacks_and_pools_serve_contexts_2 :
    let k : Fin 8 := 4
    let c : Nat := 4
    let x : Ctx := onStacks 4 4
    let s : State := stacked 4 4
    s.dev.wingPresent (k.val / 2) = true ∧
    s.dev.f R.ANNEX_STK.FAILED k = 0 ∧
    s.dev.f R.ANNEX_STK.FAILED (if k.val % 2 = 0 then k.val + 1 else k.val - 1) = 0 ∧
    s.dev.deltasOut = [] ∧
    s.dev.deltasIn = [] ∧
    s.dev.ctxs = [(c, x)] ∧
    x.reserved = true ∧
    s.dev.wingEnabled x.home = true ∧
    x.copyA = k ∧
    x.copyB = k ∧
    s.dev.resilver = [] := by decide
theorem meets_stacks_and_pools_serve_contexts_3 :
    let k : Fin 8 := 4
    let c : Nat := 4
    let x : Ctx := onStacks 4 5
    let s : State := stacked 4 5
    s.dev.wingPresent (k.val / 2) = true ∧
    s.dev.f R.ANNEX_STK.FAILED k = 0 ∧
    s.dev.f R.ANNEX_STK.FAILED (if k.val % 2 = 0 then k.val + 1 else k.val - 1) = 0 ∧
    s.dev.deltasOut = [] ∧
    s.dev.deltasIn = [] ∧
    s.dev.ctxs = [(c, x)] ∧
    x.reserved = true ∧
    s.dev.wingEnabled x.home = true ∧
    x.copyA = k ∧
    x.copyB ≠ k ∧
    x.copyB < 8 ∧
    s.dev.resilver = [] := by decide
theorem meets_stacks_and_pools_serve_contexts_4 :
    let c : Fin 32768 := 4
    let k : Nat := 4
    let s : State := ((stacked 4 4).onDev (fun d => d.onCtx 4 (fun x => { x with stackWait := some 4 }))).onDev (fun d => { d with now := d.rto (d.ctx 4) })
    (s.dev.ctx c).stackWait = some k ∧
    (∀ e ∈ (s.dev.ctx c).log, e.receipted = true) ∧
    (s.dev.ctx c).waitFor ≤ s.dev.now - (s.dev.ctx c).since ∧
    s.dev.f R.ANNEX_STK.FAILED (if k % 2 = 0 then k + 1 else k - 1) = 0 ∧
    2 ≤ s.dev.stackFree (if k % 2 = 0 then k + 1 else k - 1) := by decide
theorem meets_stacks_and_pools_serve_contexts_5 :
    let c : Fin 32768 := 4
    let k : Nat := 4
    let s : State := ((stacked 4 4).onDev (fun d => d.onCtx 4 (fun x => { x with stackWait := some 4, log := [sentSeg 7] }))).onDev (fun d => { d with now := d.rto (d.ctx 4) })
    (s.dev.ctx c).stackWait = some k ∧
    (s.dev.ctx c).log.any (fun e => !e.receipted) = true ∧
    (s.dev.ctx c).waitFor ≤ s.dev.now - (s.dev.ctx c).since ∧
    NothingWaits s ∧
    (s.dev.ctx c).tgt = [] ∧
    (s.dev.ctx c).state = .opened := by decide
theorem meets_stacks_and_pools_serve_contexts_6 :
    let c : Fin 32768 := 4
    let r : Resilver := ⟨4, 9, 5, 100⟩
    let s : State := (mkReady []).onDev (fun d => { d with resilver := [⟨4, 9, 5, 100⟩], now := 100 })
    s.dev.resilver = [r] ∧
    r.ctx = c ∧
    s.dev.resilverRest r = 0 := by decide
theorem meets_stacks_and_pools_serve_contexts_7 :
    let c : Fin 32768 := 4
    let s : State := ((stacked 4 4).onDev (fun d => d.onCtx 4 (fun x => { x with log := [sentSeg 7] }))).onDev (fun d => { d with resilver := [⟨4, 9, 5, 100⟩], now := 90 })
    (∀ r ∈ s.dev.resilver, r.ctx = c → s.dev.resilverRest r ≠ 0) := by decide
theorem meets_stacks_and_pools_serve_contexts_8 :
    let p : Fin 64 := 1
    let ptr : BitVec 40 := 131584
    let s : State := lentPool
    (let size := s.dev.f R.BPM_POOL_CFG.SIZE p * 64; let base := s.dev.f R.BPM_POOL_BASE.BASE p; ptr.toNat < base ∨ size = 0 ∨ (ptr.toNat - base) % size ≠ 0 ∨ s.dev.f R.BPM_POOL_CFG.COUNT p ≤ (ptr.toNat - base) / size) := by decide
theorem meets_stacks_and_pools_serve_contexts_9 :
    let p : Fin 64 := 1
    let i : Nat := 2
    let ptr : BitVec 40 := 32896
    let s : State := lentPool
    0 < s.dev.f R.BPM_POOL_CFG.SIZE p ∧
    i < s.dev.f R.BPM_POOL_CFG.COUNT p ∧
    ptr.toNat = s.dev.f R.BPM_POOL_BASE.BASE p + i * (s.dev.f R.BPM_POOL_CFG.SIZE p * 64) ∧
    i ∉ s.dev.lent p := by decide
theorem meets_stacks_and_pools_serve_contexts_10 :
    let p : Fin 64 := 1
    let i : Nat := 3
    let ptr : BitVec 40 := 49344
    let s : State := lentPool
    0 < s.dev.f R.BPM_POOL_CFG.SIZE p ∧
    i < s.dev.f R.BPM_POOL_CFG.COUNT p ∧
    ptr.toNat = s.dev.f R.BPM_POOL_BASE.BASE p + i * (s.dev.f R.BPM_POOL_CFG.SIZE p * 64) ∧
    i ∈ s.dev.lent p := by decide
theorem meets_stacks_and_pools_serve_contexts_11 :
    let p : Fin 64 := 1
    let w : Word := 1 + 257 * 256 + 8 * 2 ^ 20
    let s : State := mkReady []
    s.dev.f R.SYS_BOOT.STATE = 4 ∧
    s.dev.f R.BPM_POOL_CFG.EN p = 0 ∧
    s.dev.poolIdle p = true ∧
    bitsOf w 0 1 = 1 := by decide
theorem meets_stacks_and_pools_serve_contexts_12 :
    let s : State := lentPool
    s.dev.f R.SYS_BOOT.STATE = 4 := by decide

/-! TourSetsAndEnginesAreEnabledAfterTheirChecks -/

theorem meets_tour_sets_and_engines_are_enabled_after_their_checks_1 :
    let v : Fin 4 := 2
    let w : Word := 1
    let s : State := mkReady []
    s.dev.f R.SYS_BOOT.STATE = 4 ∧
    s.dev.wingPresent v = true ∧
    s.dev.f R.TOUR_CTL.ENABLE v = 0 ∧
    s.dev.blkHeld 1 v = false ∧
    s.dev.colls = [] ∧
    bitsOf w 0 1 = 1 := by decide
theorem meets_tour_sets_and_engines_are_enabled_after_their_checks_2 :
    let v : Fin 4 := 2
    let w : Word := 0
    let s : State := mkReady [(R.TOUR_CTL.ENABLE, 2, 1)]
    s.dev.f R.SYS_BOOT.STATE = 4 ∧
    s.dev.wingPresent v = true ∧
    s.dev.f R.TOUR_CTL.ENABLE v = 1 ∧
    bitsOf w 0 1 = 0 := by decide
theorem meets_tour_sets_and_engines_are_enabled_after_their_checks_3 :
    let v : Fin 4 := 3
    let s : State := mkReady [(R.GLOBAL_ID.WING_MASK, 0, 7)]
    s.dev.wingPresent v = false := by decide
theorem meets_tour_sets_and_engines_are_enabled_after_their_checks_4 :
    let v : Fin 4 := 2
    let s : State := mkReady [(R.TOUR_PROV_IDX.WR, 2, 5), (R.TOUR_PROV_IDX.RD, 2, 4)]
    s.dev.f R.SYS_BOOT.STATE = 4 ∧
    s.dev.wingPresent v = true := by decide
theorem meets_tour_sets_and_engines_are_enabled_after_their_checks_5 :
    let s : State := mkReady [(R.TOUR_TS_SEL.WORD, 0, 5)]
    s.dev.f R.SYS_BOOT.STATE = 4 ∧
    5 ≤ s.dev.f R.TOUR_TS_SEL.WORD := by decide
theorem meets_tour_sets_and_engines_are_enabled_after_their_checks_6 :
    let s : State := mkReady [(R.TOUR_TS_SEL.INDEX, 0, 1023), (R.TOUR_TS_SEL.WORD, 0, 4), (R.TOUR_TS_SEL.AUTOINC, 0, 1)]
    s.dev.f R.SYS_BOOT.STATE = 4 ∧
    s.dev.f R.TOUR_TS_SEL.WORD < 5 := by decide
theorem meets_tour_sets_and_engines_are_enabled_after_their_checks_7 :
    let w : Word := 0x4113
    let s : State := mkReady [(R.TOUR_TS_SEL.INDEX, 0, 7), (R.TOURSET.STRIDE, 7, 1), (R.TOURSET.ORDER_A, 7, 32)]
    s.dev.f R.SYS_BOOT.STATE = 4 ∧
    s.dev.f R.TOUR_TS_SEL.WORD = 0 ∧
    s.dev.f R.TOURSET.VALID (s.dev.f R.TOUR_TS_SEL.INDEX) = 0 ∧
    s.dev.tsBusy (s.dev.f R.TOUR_TS_SEL.INDEX) = false ∧
    bitsOf w 0 1 = 1 := by decide

/-! CollectivesAreAdmittedAndStarted -/

/-- A held descriptor of a rank: ring 3, source in window 0 at 0, destination in window 0 at 1024. -/
def member (rank : Nat) : Member := { ring := 3, index := 9, rank := rank, srcWin := 0, srcOff := 0, dstWin := 0, dstOff := 1024 }
/-- An ALL_REDUCE of 128 binary32 elements over four sites, SUM, one ring; this gateway is the first in the order. -/
def tourColl : Coll :=
  { id := 42, tenant := 0, job := 1, ts := 5, nlog := 2, rings := 1, wings := 4, wide := 0, nlocal := 1, phase := 0, order := [0, 1, 2, 3], strides := [1],
    raceK := 0, raceLag := 0, print := 77, kind := 0, fmt := 2, redop := 0, sr := false, len := 512, chunkLog := 0, root := 0, rootSite := 0, start := 0,
    seed := 0, members := [member 0], admitted := true, started := false, begun := [], bind := none, pieces := [], cursor := 0, reader := 0, buf := [],
    acc := none, reading := false, owed := 0, moved := [], ended := none, events := 0, refs := [] }
/-- That collective alone, its tenant PLACED. -/
def withColl (x : Coll) : State := peerUp.onDev (fun d => { d.set R.TENANT.PLACE_MODE 0 1 with colls := [x] })
/-- COLL_END of it from site 1, whose GW_ID the Catalogue names. -/
def collEnd : ServiceMsg :=
  { site := 1, status := 0x0B, id := 42, key := 77, t := 0, v := false, slot := 0, frag := 0, nfrag := 1, dlen := 0, gwId := 0, txn := 0, data := [] }
theorem meets_collectives_are_admitted_and_started_1 :
    let id : BitVec 32 := 42
    let x : Coll := { tourColl with members := [member 3, member 1], nlocal := 2, admitted := false, start := 5000 }
    let s : State := withColl { tourColl with members := [member 3, member 1], nlocal := 2, admitted := false, start := 5000 }
    s.dev.coll id.toNat = some x ∧
    x.admitted = false ∧
    x.ended = none ∧
    x.nlocal ≤ x.members.length ∧
    s.dev.f R.TOUR_COLL.ACTIVE < 256 ∧
    (x.kind = 3 → x.rootSite = s.dev.site → x.members.any (fun k => k.rank == x.root) = true) ∧
    s.dev.pinnedLacks { x with moved := s.dev.fencedMoves x.wings } = false ∧
    ((x.start = 0 ∧ s.dev.itinMode ≠ 0) ∨ (x.start ≠ 0 ∧ 0 ≤ diff40 x.start s.dev.ns40)) := by decide
theorem meets_collectives_are_admitted_and_started_2 :
    let id : BitVec 32 := 42
    let x : Coll := { tourColl with admitted := false, start := 1400 }
    let s : State := (withColl { tourColl with admitted := false, start := 1400 }).onDev (fun d => d.set R.ITIN_CTL.LATE_GRACE 0 100)
    s.dev.coll id.toNat = some x ∧
    x.admitted = false ∧
    x.ended = none ∧
    x.nlocal ≤ x.members.length ∧
    s.dev.f R.TOUR_COLL.ACTIVE < 256 ∧
    (x.kind = 3 → x.rootSite = s.dev.site → x.members.any (fun k => k.rank == x.root) = true) ∧
    s.dev.pinnedLacks { x with moved := s.dev.fencedMoves x.wings } = false ∧
    ((x.start = 0 ∧ s.dev.itinMode = 0) ∨ (x.start ≠ 0 ∧ -s.dev.grace ≤ diff40 x.start s.dev.ns40 ∧ diff40 x.start s.dev.ns40 < 0)) ∧
    x.started = false ∧
    x.pieces = [] ∧
    s.dev.raceWins = [] ∧
    s.dev.enabledWings.length = x.wings := by decide
theorem meets_collectives_are_admitted_and_started_3 :
    let id : BitVec 32 := 42
    let x : Coll := { tourColl with admitted := false }
    let s : State := (withColl { tourColl with admitted := false }).onDev (fun d => d.set R.TOUR_COLL.ACTIVE 0 256)
    s.dev.coll id.toNat = some x ∧
    x.admitted = false ∧
    x.ended = none ∧
    x.nlocal ≤ x.members.length ∧
    256 ≤ s.dev.f R.TOUR_COLL.ACTIVE ∧
    x.pieces.any (·.poison) = false := by decide
theorem meets_collectives_are_admitted_and_started_4 :
    let id : BitVec 32 := 42
    let x : Coll := { tourColl with admitted := false, kind := 3, root := 9 }
    let s : State := withColl { tourColl with admitted := false, kind := 3, root := 9 }
    s.dev.coll id.toNat = some x ∧
    x.admitted = false ∧
    x.ended = none ∧
    x.nlocal ≤ x.members.length ∧
    s.dev.f R.TOUR_COLL.ACTIVE < 256 ∧
    x.pieces.any (·.poison) = false ∧
    ((x.kind = 3 ∧ x.rootSite = s.dev.site ∧ x.members.any (fun k => k.rank == x.root) = false) ∨ s.dev.pinnedLacks { x with moved := s.dev.fencedMoves x.wings } = true) := by decide
theorem meets_collectives_are_admitted_and_started_5 :
    let id : BitVec 32 := 42
    let x : Coll := { tourColl with admitted := false, start := 2 ^ 39 + 9000 }
    let s : State := withColl { tourColl with admitted := false, start := 2 ^ 39 + 9000 }
    s.dev.coll id.toNat = some x ∧
    x.admitted = false ∧
    x.ended = none ∧
    x.nlocal ≤ x.members.length ∧
    s.dev.f R.TOUR_COLL.ACTIVE < 256 ∧
    (x.kind = 3 → x.rootSite = s.dev.site → x.members.any (fun k => k.rank == x.root) = true) ∧
    s.dev.pinnedLacks { x with moved := s.dev.fencedMoves x.wings } = false ∧
    x.start ≠ 0 ∧
    diff40 x.start s.dev.ns40 < -s.dev.grace ∧
    x.pieces.any (·.poison) = false := by decide
theorem meets_collectives_are_admitted_and_started_6 :
    let id : BitVec 32 := 42
    let x : Coll := { tourColl with wings := 4, start := 1500 }
    let s : State := withColl { tourColl with wings := 4, start := 1500 }
    s.dev.coll id.toNat = some x ∧
    x.admitted = true ∧
    x.started = false ∧
    x.ended = none ∧
    x.start ≠ 0 ∧
    diff40 x.start s.dev.ns40 ≤ 0 ∧
    s.dev.enabledWings.length = x.wings ∧
    x.pieces = [] := by decide
theorem meets_collectives_are_admitted_and_started_7 :
    let id : BitVec 32 := 42
    let x : Coll := { tourColl with wings := 3, start := 1400 }
    let s : State := withColl { tourColl with wings := 3, start := 1400 }
    s.dev.coll id.toNat = some x ∧
    x.admitted = true ∧
    x.started = false ∧
    x.ended = none ∧
    x.start ≠ 0 ∧
    diff40 x.start s.dev.ns40 ≤ 0 ∧
    s.dev.enabledWings.length ≠ x.wings ∧
    x.pieces.any (·.poison) = false := by decide
theorem meets_collectives_are_admitted_and_started_8 :
    let m : ServiceMsg := collEnd
    let x : Coll := tourColl
    let p : Nat := 0
    let s : State := withColl tourColl
    s.dev.identOk m.site.toNat m.gwId.toNat = true ∧
    s.dev.peerOf m.site.toNat = some p ∧
    m.dlen.toNat ≤ 208 ∧
    s.dev.coll m.id.toNat = some x ∧
    x.ended = none ∧
    s.dev.collOld m.id.toNat m.key.toNat = false ∧
    x.pieces.any (·.poison) = false := by decide
theorem meets_collectives_are_admitted_and_started_9 :
    let m : ServiceMsg := collEnd
    let x : Coll := tourColl
    let s : State := (withColl tourColl).onDev (fun d => { d with collEnds := [(42, 77, 5)], now := 6 })
    s.dev.coll m.id.toNat = some x ∧
    x.ended = none ∧
    s.dev.collOld m.id.toNat m.key.toNat = true := by decide
theorem meets_collectives_are_admitted_and_started_10 :
    let m : ServiceMsg := collEnd
    let x : Coll := { tourColl with ended := some 0x0B }
    let old : Nat := 0x0B
    let s : State := withColl { tourColl with ended := some 0x0B }
    s.dev.coll m.id.toNat = some x ∧
    x.ended = some old ∧
    failRank old ≤ failRank m.status.toNat := by decide
theorem meets_collectives_are_admitted_and_started_11 :
    let m : ServiceMsg := collEnd
    let x : Coll := { tourColl with ended := some 0x0C }
    let p : Nat := 0
    let old : Nat := 0x0C
    let s : State := (withColl { tourColl with ended := some 0x0C }).onDev (fun d => { d with ops := [newOp 3 9 (collDesc 0)] })
    s.dev.identOk m.site.toNat m.gwId.toNat = true ∧
    s.dev.peerOf m.site.toNat = some p ∧
    m.dlen.toNat ≤ 208 ∧
    s.dev.coll m.id.toNat = some x ∧
    x.ended = some old ∧
    old ≠ 0 ∧
    old ≠ 0x10 ∧
    failRank m.status.toNat < failRank old ∧
    (∀ k ∈ x.members, (s.dev.getOp k.ring k.index).isSome = true) := by decide
theorem meets_collectives_are_admitted_and_started_12 :
    let id : BitVec 32 := 42
    let x : Coll := { tourColl with moved := [(0, 1)] }
    let s : State := (withColl { tourColl with moved := [(0, 1)] }).onDev (fun d => { d.set R.TENANT.PLACE_MODE 0 0 with now := d.lease, tourWait := [(1, 1, 1, 1, tourColl.item 0 0 0 [] false)] })
    s.dev.coll id.toNat = some x ∧
    x.ended = none ∧
    x.moved ≠ [] ∧
    x.movedFor ≤ s.dev.now - x.movedAt ∧
    x.pieces.any (·.poison) = false ∧
    s.dev.f R.TENANT.PLACE_MODE x.tenant = 0 ∧
    s.dev.tourWait.any (fun e => e.2.2.2.2.coll == x.id) = true := by decide

/-! PiecesAreCombinedWrittenAndCompleted -/

/-- The collective started, one of its pieces whole on its tours (all values 1.0), its operand 1.0 staged. -/
def pieceColl (p : Nat) : Coll :=
  let a : Arrival := ⟨List.replicate 32 0x3F800000, p == 3, false⟩
  { tourColl with started := true, pieces := [{
      chunk := 0, piece := p, operand := some (List.replicate 32 0x3F800000), red := a, gat := { a with whole := p == 2 }, reduced := false, final := false, poison := false, events := 0 }] }
/-- Its engine enabled, context 6 OPEN toward site 1 for its ring, its rank's window in host memory. -/
def pieceState (x : Coll) : State := (withColl x).onDev (fun d =>
  (((d.set R.TOUR_CTL.ENABLE 0 1).set R.WINDOW.LOC 0 1).set R.WINDOW.ADDR 0 4096).setCtx 6 { Ctx.empty with state := .opened, job := 1, site := 1, cls := 1 })
/-- A LAST segment of piece 3 of the collective, cut and still waiting on carrier 1. -/
def tourEnt : LogEnt := { sentSeg 7 with attempts := 0, seg := { (sentSeg 7).seg with typ := 3, tail := tourTail 42 77 0 3 0 0 } }
/-- It waits on context 4; carrier 17 of the wing's other plane is joined toward site 1. -/
def raceState : State := ((withColl { pieceColl 3 with raceK := 1 }).onDev (fun d =>
  d.setCtx 4 { Ctx.empty with state := .opened, job := 1, site := 1, cls := 1, log := [tourEnt] })).onDev (fun d =>
    (d.setSched 17 { Sched.empty with tx := some 1 }).setKw 17 { KwX.empty with txJoined := true })
theorem meets_pieces_are_combined_written_and_completed_1 :
    let id : BitVec 32 := 42
    let j : Nat := 0
    let p : Fin 32 := 3
    let x : Coll := pieceColl 3
    let us : List Nat := List.replicate 32 0x3F800000
    let c : Nat := 6
    let s : State := pieceState (pieceColl 3)
    s.dev.coll id.toNat = some x ∧
    x.started = true ∧
    x.ended = none ∧
    s.dev.engineOn x j = true ∧
    (x.piece j p).red.whole = true ∧
    (x.piece j p).red.poison = false ∧
    (x.piece j p).poison = false ∧
    (x.piece j p).operand = some us ∧
    (x.piece j p).reduced = false ∧
    x.redIdx j p (x.posOfSite s.dev.site) + 1 < x.n ∧
    s.dev.provMode.getD (x.wingOf j) 0 = 0 ∧
    24 ≤ s.dev.f R.TOUR_LANES.WORKING (x.wingOf j) ∧
    s.dev.ctxOf ⟨x.job, x.nextSite j (x.posOfSite s.dev.site), x.ringOf j + 1, x.wingOf j⟩ = some c ∧
    (s.dev.ctx c).state = .opened := by decide
theorem meets_pieces_are_combined_written_and_completed_2 :
    let id : BitVec 32 := 42
    let j : Nat := 0
    let p : Fin 32 := 2
    let x : Coll := pieceColl 2
    let k : Member := member 0
    let s : State := pieceState (pieceColl 2)
    s.dev.coll id.toNat = some x ∧
    x.started = true ∧
    x.ended = none ∧
    s.dev.engineOn x j = true ∧
    (x.piece j p).red.whole = false ∧
    (x.piece j p).gat.whole = true ∧
    (x.piece j p).final = false ∧
    (x.piece j p).gat.poison = false ∧
    x.gatIdx j p (x.posOfSite s.dev.site) + 1 = x.n ∧
    x.members = [k] ∧
    s.dev.rangesCross x k = false ∧
    s.dev.f R.WINDOW.LOC k.dstWin = 1 ∧
    s.dev.f R.WINDOW.ADDR k.dstWin + (k.dstOff + x.pieceOff j p) < 2 ^ 64 := by decide
theorem meets_pieces_are_combined_written_and_completed_3 :
    let id : BitVec 32 := 42
    let x : Coll := { pieceColl 9 with len := 0 }
    let k : Member := member 0
    let o : Op := { newOp 3 9 (collDesc 0) with stage := .running }
    let s : State := (withColl { pieceColl 9 with len := 0 }).onDev (fun d => { d with ops := [{ newOp 3 9 (collDesc 0) with stage := .running }] })
    s.dev.colls = [x] ∧
    x.id = id.toNat ∧
    x.started = true ∧
    x.ended = none ∧
    x.owed = 0 ∧
    x.allDone (x.posOfSite s.dev.site) = true ∧
    s.dev.collOut x.id = false ∧
    x.pieces.any (·.poison) = false ∧
    x.events = 0 ∧
    x.bind = none ∧
    x.refs = [] ∧
    x.members = [k] ∧
    s.dev.ops = [o] ∧
    o.ring = k.ring ∧
    o.index = k.index ∧
    o.ctx = none ∧
    o.bind = none ∧
    o.dwin = 0 ∧
    s.dev.f R.CQ_CTL.LOC (s.dev.f R.SQ_CTL.CQ k.ring) = 0 ∧
    k.ring < 4096 := by decide
theorem meets_pieces_are_combined_written_and_completed_4 :
    let c : Fin 32768 := 4
    let seq : BitVec 32 := 7
    let m : Fin 128 := 17
    let g : LogEnt := tourEnt
    let k : Coll := { pieceColl 3 with raceK := 1 }
    let i : Nat := 0
    let s : State := raceState
    (s.dev.ctx c).log.find? (fun g => g.seq % 2 ^ 32 == seq.toNat && g.seg.typ == 3 && g.attempts == 0 && !g.raced) = some g ∧
    s.dev.coll (segColl g.seg) = some k ∧
    k.ended = none ∧
    (s.dev.ctx c).lastSeg k.id (segPiece g.seg).1 (segPiece g.seg).2 (segStep g.seg) = some i ∧
    i - g.seg.segidx.toNat < k.raceK ∧
    k.raceLag * 1000 ≤ s.dev.now - g.cutAt ∧
    (let all := (s.dev.ringCarriers (s.dev.ctx c)).filter (fun a => a != g.carrier); let other := all.filter (fun a => carrierEngine a != carrierEngine g.carrier); let from_ := if other.isEmpty then all else other; m.val ∈ from_ ∧ ∀ a ∈ from_, s.dev.carLoad m ≤ s.dev.carLoad a) := by decide

/-! SegmentsAreCutReceivedAndDecoded -/

/-- A result of 8 bytes, ready to be cut. -/
def cutItem : SendItem :=
  { kind := 2, op := none, opn := some 3, coll := 0, chunk := 0, piece := 0, step := 0, ring := 0, opcode := 4, tail := zeros 28, fmt := 0xF, tid := 0, bind := none,
    raw := [], left := 0, bytes := zeros 8, sent := 0, starts := [], segidx := 0, poison := false, bare := false, plain := true }
/-- It waits on context 4, which has credit, log pages, a loan and keys; carrier 17 may carry it. -/
def cutState : State := (rcptReady.onDev (fun d => d.onCtx 4 (fun x => { x with
    sendq := [cutItem], winMax := 16, credit := 9, logPages := 2, txBufs := [0], home := 0 }))).onDev (fun d =>
  (d.setSched 17 { Sched.empty with tx := some 1 }).setKw 17 { KwX.empty with txJoined := true })
/-- A segment of a type with number n for context 4, opcode 4. -/
def inSeg (typ n : Nat) : Segment := { (sentSeg n).seg with typ := BitVec.ofNat 4 typ, gen := 255, dst := 4, opcode := 4, payload := zeros 8 }
/-- An operation of ring 3 waits for operation 0 of context 4, which has granted up to number 32. -/
def inState : State := (rcptReady.onDev (fun d => d.onCtx 4 (fun x => { x with granted := 32, arrived := 0 }))).onDev (fun d =>
  { d with ops := [{ newOp 3 9 (desc 4 0 1) with stage := .running, ctx := some 4, opn := some 0 }] })
/-- The GET of 3 bytes into window 2 that context 4 carries as operation 0. -/
def getOp3 : Op := { newOp 3 9 { desc 2 0 1 with w2 := 3 } with stage := .running, ctx := some 4, opn := some 0, lwin := 2 }
/-- A segment with the plaintext given is held on context 4. -/
def heldState (l : List Byte) (get : Bool) : State := (inState.onDev (fun d => d.onCtx 4 (fun x => { x with
    held := [⟨2, if get then { inSeg 2 2 with opcode := 2 } else inSeg 2 2, l, false, 0⟩],
    rx := if get then [{ key := ⟨2, 0, 0, 0, 0, 0⟩, done := [], passed := [], total := some l.length, ready := [], next := 0, elems := 0, fails := [], dead := false, bad := 0, waits := [] }] else [] }))).onDev (fun d =>
  if get then { d.set R.WINDOW.LOC 2 1 with ops := [getOp3] } else d)
theorem meets_segments_are_cut_received_and_decoded_1 :
    let c : Fin 32768 := 4
    let m : Fin 128 := 17
    let it : SendItem := cutItem
    let rest : List SendItem := []
    let key : List Byte := [1]
    let s : State := cutState
    (s.dev.ctx c).sendq = it :: rest ∧
    it.kind = 2 ∧
    it.plain = true ∧
    it.bare = false ∧
    it.raw = [] ∧
    it.left = 0 ∧
    0 < it.bytes.length ∧
    it.bytes.length ≤ 16384 ∧
    s.dev.mayCut (s.dev.ctx c) (64 + it.bytes.length) = true ∧
    s.dev.chosen m (s.dev.ctx c) = true ∧
    (s.dev.sched m).txPark = false ∧
    s.dev.pendingPark m 0 = none ∧
    s.dev.streamKey (s.dev.ctx c) true (epochOf (s.dev.ctx c).sndNxt) = some key ∧
    ((s.dev.ctx c).log.filter (fun e => e.attempts == 0)).length < (s.dev.ctx c).txBufs.length ∧
    (s.dev.ctx c).tgt = [] := by decide
theorem meets_segments_are_cut_received_and_decoded_2 :
    let c : Fin 32768 := 4
    let m : Fin 128 := 17
    let it : SendItem := cutItem
    let rest : List SendItem := []
    let s : State := cutState.onDev (fun d => (d.setHalf 0 none).setHalf 1 none)
    (s.dev.ctx c).sendq = it :: rest ∧
    it.hopeful = true ∧
    s.dev.mayCut (s.dev.ctx c) 64 = true ∧
    s.dev.chosen m (s.dev.ctx c) = true ∧
    s.dev.streamKey (s.dev.ctx c) true (epochOf (s.dev.ctx c).sndNxt) = none ∧
    s.dev.ctxSealed (s.dev.ctx c) = false := by decide
theorem meets_segments_are_cut_received_and_decoded_3 :
    let c : Fin 32768 := 4
    let m : Fin 128 := 17
    let it : SendItem := cutItem
    let rest : List SendItem := []
    let s : State := cutState.onDev (fun d => (d.setSched 17 { Sched.empty with tx := some 1, txPark := true }).setKw 17 KwX.empty)
    (s.dev.ctx c).sendq = it :: rest ∧
    it.hopeful = true ∧
    s.dev.mayCut (s.dev.ctx c) 64 = true ∧
    s.dev.mayCarry m (s.dev.ctx c) = false ∧
    s.dev.scheduledFor m (s.dev.ctx c) = true ∧
    (s.dev.sched m).txPark = true := by decide
theorem meets_segments_are_cut_received_and_decoded_4 :
    let c : Fin 32768 := 4
    let m : Fin 128 := 18
    let s : State := cutState
    s.dev.mayCarry m (s.dev.ctx c) = false ∧
    s.dev.scheduledFor m (s.dev.ctx c) = false := by decide
theorem meets_segments_are_cut_received_and_decoded_5 :
    let g : Segment := { inSeg 2 5 with cep := true }
    let s : State := inState
    s.dev.f R.STREAM_CTL.ENABLE = 1 ∧
    s.dev.cepOk g.cep = false := by decide
theorem meets_segments_are_cut_received_and_decoded_6 :
    let g : Segment := { inSeg 2 5 with dst := 5 }
    let s : State := inState
    s.dev.f R.STREAM_CTL.ENABLE = 1 ∧
    s.dev.cepOk g.cep = true ∧
    (((s.dev.ctx g.dst.toNat).state ≠ .opened ∧ (s.dev.ctx g.dst.toNat).state ≠ .draining) ∨ (s.dev.ctx g.dst.toNat).gen ≠ g.gen.toNat) := by decide
theorem meets_segments_are_cut_received_and_decoded_7 :
    let g : Segment := inSeg 2 3
    let s : State := inState.onDev (fun d => d.onCtx 4 (fun x => { x with rcvd := [3] }))
    s.dev.f R.STREAM_CTL.ENABLE = 1 ∧
    s.dev.cepOk g.cep = true ∧
    ((s.dev.ctx g.dst.toNat).state = .opened ∨ (s.dev.ctx g.dst.toNat).state = .draining) ∧
    (s.dev.ctx g.dst.toNat).gen = g.gen.toNat ∧
    s.dev.wingEnabled (s.dev.ctx g.dst.toNat).home = true ∧
    (wholeSeq (s.dev.ctx g.dst.toNat).rcvCum g.seq.toNat < ((s.dev.ctx g.dst.toNat).rcvCum : Int) ∨ (∃ seq : Nat, wholeSeq (s.dev.ctx g.dst.toNat).rcvCum g.seq.toNat = (seq : Int) ∧ (seq ∈ (s.dev.ctx g.dst.toNat).rcvd ∨ (s.dev.ctx g.dst.toNat).held.any (fun h => h.seq == seq) = true))) :=
  ⟨by decide, by decide, by decide, by decide, by decide, .inr ⟨3, by decide, .inl (by decide)⟩⟩
theorem meets_segments_are_cut_received_and_decoded_8 :
    let g : Segment := inSeg 2 40
    let seq : Nat := 40
    let s : State := inState
    s.dev.f R.STREAM_CTL.ENABLE = 1 ∧
    s.dev.cepOk g.cep = true ∧
    ((s.dev.ctx g.dst.toNat).state = .opened ∨ (s.dev.ctx g.dst.toNat).state = .draining) ∧
    (s.dev.ctx g.dst.toNat).gen = g.gen.toNat ∧
    s.dev.wingEnabled (s.dev.ctx g.dst.toNat).home = true ∧
    wholeSeq (s.dev.ctx g.dst.toNat).rcvCum g.seq.toNat = (seq : Int) ∧
    (s.dev.ctx g.dst.toNat).rcvCum ≤ seq ∧
    seq ∉ (s.dev.ctx g.dst.toNat).rcvd ∧
    (s.dev.ctx g.dst.toNat).held.any (fun h => h.seq == seq) = false ∧
    ((s.dev.ctx g.dst.toNat).granted ≤ seq ∨ (s.dev.ctx g.dst.toNat).rcvCum + 2 ^ 20 ≤ seq) := by decide
theorem meets_segments_are_cut_received_and_decoded_9 :
    let g : Segment := inSeg 2 2
    let seq : Nat := 2
    let s : State := inState.onDev (fun d => (d.setHalf 0 none).setHalf 1 none)
    InWindow s g seq ∧
    (∀ k, openHalf s g = some k → k.epoch ≠ epochOf seq ∨ k.wrap ≠ none) := by decide
theorem meets_segments_are_cut_received_and_decoded_10 :
    let g : Segment := inSeg 2 2
    let k : HalfKey := ⟨0, [2], none⟩
    let seq : Nat := 2
    let s : State := inState.onDev (fun d => (d.onCtx 4 (fun x => { x with rxPool := 1, rxBufs := [5] })).set R.BPM_POOL_CFG.SIZE 1 2)
    InWindow s g seq ∧
    openHalf s g = some k ∧
    k.epoch = epochOf seq ∧
    k.wrap = none ∧
    (s.dev.ctx g.dst.toNat).rxBufs ≠ [] ∧
    ((s.dev.ctx g.dst.toNat).authFails.filter (fun a => decide (s.dev.now ≤ a + 10 ^ 9))).length < 2 := by decide
theorem meets_segments_are_cut_received_and_decoded_11 :
    let g : Segment := inSeg 3 2
    let k : HalfKey := ⟨0, [2], none⟩
    let seq : Nat := 2
    let s : State := inState
    InWindow s g seq ∧
    openHalf s g = some k ∧
    k.epoch = epochOf seq ∧
    k.wrap = none ∧
    g.typ = 3 ∧
    s.dev.tourMeets g = 0 ∧
    s.dev.readyBlocks = 0 := by decide
theorem meets_segments_are_cut_received_and_decoded_12 :
    let g : Segment := inSeg 2 2
    let k : HalfKey := ⟨0, [2], none⟩
    let o : Op := { newOp 3 9 (desc 4 0 1) with stage := .running, ctx := some 4, opn := some 0 }
    let seq : Nat := 2
    let s : State := inState
    InWindow s g seq ∧
    openHalf s g = some k ∧
    k.epoch = epochOf seq ∧
    k.wrap = none ∧
    g.typ = 2 ∧
    g.opcode ≠ 2 ∧
    ofBE (slice g.tail 4 1) = 0 ∧
    s.dev.opOf g.dst.toNat g.opn.toNat = some o ∧
    s.dev.readyBlocks = 0 := by decide
theorem meets_segments_are_cut_received_and_decoded_13 :
    let c : Fin 32768 := 4
    let h : HeldSeg := ⟨2, inSeg 2 2, (rawBlock 0xF 0 [7, 8, 9]).map (fun b => b ^^^ (if b = 9 then 1 else 0)), false, 0⟩
    let s : State := heldState ((rawBlock 0xF 0 [7, 8, 9]).map (fun b => b ^^^ (if b = 9 then 1 else 0))) false
    (s.dev.ctx c).state = .opened ∧
    (s.dev.ctx c).held = [h] ∧
    (s.dev.ctx c).rx = [] ∧
    h.seg.segidx = 0 ∧
    h.seg.typ = 2 ∧
    (s.dev.opOf c h.seg.opn.toNat).isSome = true ∧
    (heldBytes [h] 0 16).all (fun b => decide ((blkHead b).size = h.plain.length)) = true ∧
    20 ≤ h.plain.length ∧
    blockCrcOk h.plain = false ∧
    s.dev.readyBlocks = 0 := by decide
theorem meets_segments_are_cut_received_and_decoded_14 :
    let c : Fin 32768 := 4
    let h : HeldSeg := ⟨2, { inSeg 2 2 with opcode := 2 }, rawBlock 0xF 0 [7, 8, 9], false, 0⟩
    let o : Op := getOp3
    let us : List Nat := [7, 8, 9]
    let s : State := heldState (rawBlock 0xF 0 [7, 8, 9]) true
    (s.dev.ctx c).state = .opened ∧
    (s.dev.ctx c).held = [h] ∧
    h.seg.segidx = 0 ∧
    h.seg.typ = 2 ∧
    (s.dev.ctx c).rx = [⟨segKey h.seg, [], [], some h.plain.length, [], 0, 0, [], false, 0, [], none, []⟩] ∧
    s.dev.readyBlocks = 0 ∧
    s.dev.opOf c h.seg.opn.toNat = some o ∧
    s.dev.getOp o.ring o.index = some o ∧
    (blkHead h.plain).size = h.plain.length ∧
    blockCrcOk h.plain = true ∧
    (blkHead h.plain).mode = 1 ∧
    headOk (blkHead h.plain) 0xF = true ∧
    decodeRaw (blkHead h.plain) h.plain = some us ∧
    us.length = o.d.len ∧
    us.length ≤ blockUnits 0xF ∧
    s.dev.f R.WINDOW.LOC o.lwin = 1 ∧
    s.dev.f R.WINDOW.ADDR o.lwin + o.d.loff < 2 ^ 64 := by decide
theorem meets_segments_are_cut_received_and_decoded_15 :
    let g : Segment := inSeg 2 2
    let s : State := inState.onDev (fun d => d.set R.GLOBAL_ID.WING_MASK 0 0)
    s.dev.cepOk g.cep = true ∧
    ((s.dev.ctx g.dst.toNat).state = .opened ∨ (s.dev.ctx g.dst.toNat).state = .draining) ∧
    (s.dev.ctx g.dst.toNat).gen = g.gen.toNat ∧
    s.dev.wingEnabled (s.dev.ctx g.dst.toNat).home = false := by decide

/-! CodecSlotsAreReadAndTablesStagedAndBuilt -/

theorem meets_codec_slots_are_read_and_tables_staged_and_built_1 :
    let n : Nat := 0
    let s : State := mkReady [(R.SLOT.REF1, 0, 3)]
    s.dev.f R.SYS_BOOT.STATE = 4 ∧
    s.dev.f R.CODEC_SLOT_SEL.INDEX = n ∧
    s.dev.f R.CODEC_SLOT_SEL.WORD = 0 ∧
    s.dev.f R.CODEC_SLOT_SEL.AUTOINC = 0 := by decide
theorem meets_codec_slots_are_read_and_tables_staged_and_built_2 :
    let s : State := mkReady [(R.CODEC_SLOT_SEL.INDEX, 0, 8191), (R.CODEC_SLOT_SEL.WORD, 0, 3), (R.CODEC_SLOT_SEL.AUTOINC, 0, 1)]
    s.dev.f R.SYS_BOOT.STATE = 4 ∧
    s.dev.f R.CODEC_SLOT_SEL.WORD = 3 ∧
    s.dev.f R.CODEC_SLOT_SEL.AUTOINC = 1 := by decide
theorem meets_codec_slots_are_read_and_tables_staged_and_built_3 :
    let n : Nat := 8191
    let s : State := mkReady [(R.CODEC_SLOT_SEL.INDEX, 0, 8191), (R.CODEC_SLOT_SEL.WORD, 0, 1)]
    s.dev.f R.SYS_BOOT.STATE = 4 ∧
    s.dev.f R.CODEC_SLOT_SEL.INDEX = n ∧
    s.dev.f R.CODEC_SLOT_SEL.WORD = 1 ∧
    s.dev.f R.CODEC_SLOT_SEL.AUTOINC = 0 ∧
    s.dev.f R.SLOT.VALID n = 0 ∧
    s.dev.f R.SLOT.REF0 n = 0 ∧
    s.dev.f R.SLOT.REF1 n = 0 := by decide
theorem meets_codec_slots_are_read_and_tables_staged_and_built_4 :
    let n : Nat := 8191
    let v : Word := 0xFF00000000000007
    let s : State := mkReady [(R.CODEC_SLOT_SEL.INDEX, 0, 8191), (R.CODEC_SLOT_SEL.WORD, 0, 1), (R.SLOT.VALID, 8191, 1)]
    s.dev.f R.SYS_BOOT.STATE = 4 ∧
    s.dev.f R.CODEC_SLOT_SEL.INDEX = n ∧
    s.dev.f R.CODEC_SLOT_SEL.WORD = 1 ∧
    s.dev.f R.CODEC_SLOT_SEL.AUTOINC = 0 ∧
    s.dev.f R.SLOT.VALID n = 1 ∧
    s.dev.f R.SLOT.TID n ≠ v.toNat % 2 ^ 32 := by decide
theorem meets_codec_slots_are_read_and_tables_staged_and_built_5 :
    let n : Nat := 8191
    let v : Word := 0x8000FFFF
    let s : State := mkReady []
    s.dev.f R.SYS_BOOT.STATE = 4 ∧
    s.dev.f R.CODEC_STAGE.GO = 0 ∧
    wrote .full v R.CODEC_STAGE.GO = 1 ∧
    wrote .full v R.CODEC_STAGE.SLOT = n ∧
    s.dev.installed n (s.dev.f R.SLOT.ACTIVE n) = false := by decide
theorem meets_codec_slots_are_read_and_tables_staged_and_built_6 :
    let n : Nat := 8191
    let w : Fin 4 := 3
    let v : Word := 0x80089FFF
    let s : State := mkReady [(R.SLOT.OK0, 8191, 1), (R.GLOBAL_ID.WING_MASK, 0, 15)]
    s.dev.f R.SYS_BOOT.STATE = 4 ∧
    s.dev.f R.CODEC_STAGE.GO = 0 ∧
    wrote .full v R.CODEC_STAGE.GO = 1 ∧
    wrote .full v R.CODEC_STAGE.SLOT = n ∧
    wrote .full v R.CODEC_STAGE.WINGS = 2 ^ w.val ∧
    s.dev.wingEnabled w = true ∧
    s.dev.installed n (s.dev.f R.SLOT.ACTIVE n) = true ∧
    s.dev.staged.any (fun e => e.wing == w.val && e.slot == n && e.ver == s.dev.f R.SLOT.ACTIVE n) = false ∧
    (s.dev.staged.filter (fun e => e.wing == w.val)).length < 512 := by decide
theorem meets_codec_slots_are_read_and_tables_staged_and_built_7 :
    let n : Fin 8192 := 8191
    let ver : Fin 2 := 1
    let w : Fin 4 := 3
    let s : State := (mkReady [(R.CODEC_STAGE.GO, 0, 1)]).onDev (fun d => { d with staged := [⟨3, 8191, 1, false, false⟩], stageReq := [(8191, 1, 3)] })
    s.dev.stageReq = [(n.val, ver.val, w.val)] ∧
    s.dev.staged.any (fun e => e.wing == w.val && e.slot == n.val && e.ver == ver.val && !e.ready) = true := by decide
theorem meets_codec_slots_are_read_and_tables_staged_and_built_8 :
    let v : Word := 0x80001FFF
    let s : State := mkReady []
    s.dev.f R.SYS_BOOT.STATE = 4 ∧
    s.dev.f R.CODEC_BUILD.GO = 0 ∧
    wrote .full v R.CODEC_BUILD.GO = 1 := by decide
theorem meets_codec_slots_are_read_and_tables_staged_and_built_9 :
    let n : Nat := 8191
    let s : State := mkReady [(R.CODEC_BUILD.GO, 0, 1), (R.CUR_STATE.ALIVE, 0, 1), (R.CODEC_BUILD.SLOT, 0, 8191), (R.SLOT.HCOUNT, 8191, 7)]
    s.dev.f R.CODEC_BUILD.GO = 1 ∧
    s.dev.f R.CUR_STATE.ALIVE = 1 ∧
    s.dev.f R.CODEC_BUILD.SLOT = n ∧
    tabGet (fun _ => []) s.dev.hists n = [] := by decide
theorem meets_codec_slots_are_read_and_tables_staged_and_built_10 :
    let n : Nat := 3
    let s : State := (mkReady [(R.CODEC_BUILD.GO, 0, 1), (R.CUR_STATE.ALIVE, 0, 1), (R.CODEC_BUILD.SLOT, 0, 3), (R.SLOT.HCOUNT, 3, 7), (R.CODEC_BUILD.EMPTY, 0, 1)]).onDev (fun d => { d with hists := [(3, [(1, 3), (7, 4)])] })
    s.dev.f R.CODEC_BUILD.GO = 1 ∧
    s.dev.f R.CUR_STATE.ALIVE = 1 ∧
    s.dev.f R.CODEC_BUILD.SLOT = n ∧
    s.dev.f R.SLOT.FORMAT n < 5 ∧
    (List.range 256).any (fun i => decide (0 < countOf (tabGet (fun _ => []) s.dev.hists n) i)) = true := by decide

/-! CodecVersionsAreInstalledAndActivated -/

/-- A committed publish of site 1 for slot 8191: version, ACTIVATE. -/
def pubX (ver act : Nat) : PubX :=
  { slot := 8191, ver := ver, img := [1, 2], act := act, jobId := 77, tid := 9, txn := 5, site := 1, op := none, own := false, peers := [], answers := [],
    acks := [], decided := 1, installed := false, frag := [] }
/-- It is held at 1500 ns, PEND set. -/
def pubHeld (p : PubX) : State := peerUp.onDev (fun d => { d.set R.SLOT.PEND p.slot 1 with pubs := [p] })
theorem meets_codec_versions_are_installed_and_activated_1 :
    let n : Fin 8192 := 8191
    let p : PubX := pubX 1 0
    let s : State := pubHeld (pubX 1 0)
    s.dev.pubOf n = some p ∧
    p.own = false ∧
    p.ver < 2 ∧
    p.decided = 1 ∧
    p.installed = false ∧
    s.dev.f (refFld p.ver) n = 0 ∧
    p.act = 0 := by decide
theorem meets_codec_versions_are_installed_and_activated_2 :
    let n : Fin 8192 := 8191
    let p : PubX := pubX 1 1500
    let s : State := pubHeld (pubX 1 1500)
    s.dev.pubOf n = some p ∧
    p.own = false ∧
    p.ver < 2 ∧
    p.decided = 1 ∧
    p.installed = false ∧
    s.dev.f (refFld p.ver) n = 0 ∧
    p.act ≠ 0 ∧
    0 ≤ diff40 p.act s.dev.ns40 := by decide
theorem meets_codec_versions_are_installed_and_activated_3 :
    let n : Fin 8192 := 8191
    let p : PubX := pubX 1 1499
    let s : State := pubHeld (pubX 1 1499)
    s.dev.pubOf n = some p ∧
    p.own = false ∧
    p.ver < 2 ∧
    p.decided = 1 ∧
    p.installed = false ∧
    s.dev.f (refFld p.ver) n = 0 ∧
    p.act ≠ 0 ∧
    diff40 p.act s.dev.ns40 < 0 := by decide
theorem meets_codec_versions_are_installed_and_activated_4 :
    let n : Fin 8192 := 8191
    let p : PubX := pubX 1 1499
    let s : State := (pubHeld (pubX 1 1499)).onDev (fun d => d.set R.SLOT.REF1 8191 1)
    s.dev.pubOf n = some p ∧
    s.dev.f (refFld p.ver) n ≠ 0 := by decide
theorem meets_codec_versions_are_installed_and_activated_5 :
    let n : Fin 8192 := 8191
    let p : PubX := { pubX 1 1500 with installed := true }
    let s : State := pubHeld { pubX 1 1500 with installed := true }
    s.dev.pubOf n = some p ∧
    p.own = false ∧
    p.ver < 2 ∧
    p.installed = true ∧
    p.decided = 1 ∧
    s.dev.f R.SLOT.PEND n = 1 ∧
    (p.act = 0 ∨ diff40 p.act s.dev.ns40 ≤ 0) := by decide
theorem meets_codec_versions_are_installed_and_activated_6 :
    let n : Fin 8192 := 8191
    let p : PubX := { pubX 1 1501 with installed := true }
    let s : State := pubHeld { pubX 1 1501 with installed := true }
    s.dev.pubOf n = some p ∧
    p.act ≠ 0 ∧
    0 < diff40 p.act s.dev.ns40 := by decide

/-! PublishAndReleaseMessagesAreServed -/

/-- A publish message of site 1, whose GW_ID the Catalogue names: transaction 5, job 77, a fragment of five. -/
def resMsg (frag : Nat) : ServiceMsg :=
  { site := 1, status := 0, id := 77, key := 9, t := 0, v := true, slot := 8191, frag := BitVec.ofNat 8 frag, nfrag := 5, dlen := 208, gwId := 0, txn := 5, data := zeros 208 }
/-- An own publish for descriptor 9 of ring 3, with the one peer at site 1. -/
def ownPub (decided : Nat) : PubX := { pubX 1 7 with site := 0, own := true, peers := [1], op := some (3, 9), decided := decided }
/-- It is held, its operation in flight. -/
def pubOps (p : PubX) : State := (pubHeld p).onDev (fun d => { d with ops := [newOp 3 9 (pubDesc 0 1)] })
/-- A snapshot kept for rank 3 of job 77 of site 1. -/
def deltaHeld : DeltaIn := { site := 1, jobId := 77, rank := 3, win := 1, off := 7, tenant := 0, pages := 1, snap := [], stack := 0, mirror := false }
theorem meets_publish_and_release_messages_are_served_1 :
    let m : ServiceMsg := resMsg 4
    let x : Nat := 0
    let s : State := peerUp
    s.dev.identOk m.site.toNat m.gwId.toNat = true ∧
    s.dev.peerOf m.site.toNat = some x ∧
    m.dlen.toNat = 208 ∧
    m.nfrag = 5 ∧
    m.frag.toNat < 5 ∧
    s.dev.reserves.any (fun r => r.site == m.site.toNat && r.txn == m.txn.toNat) = false := by decide
theorem meets_publish_and_release_messages_are_served_2 :
    let m : ServiceMsg := resMsg 4
    let x : Nat := 0
    let t0 : Nat := 0
    let frs : List (Nat × List Byte) := [(0, []), (1, []), (2, []), (3, [])]
    let s : State := peerUp.onDev (fun d => { d.set R.JOB.VALID 1 0 with reserves := [⟨5, 1, [(0, []), (1, []), (2, []), (3, [])], 0⟩] })
    s.dev.identOk m.site.toNat m.gwId.toNat = true ∧
    s.dev.peerOf m.site.toNat = some x ∧
    m.dlen.toNat = 208 ∧
    m.nfrag = 5 ∧
    m.frag.toNat < 5 ∧
    s.dev.reserves = [⟨m.txn.toNat, m.site.toNat, frs, t0⟩] ∧
    frs.length = 4 ∧
    frs.any (fun e => e.1 == m.frag.toNat) = false ∧
    (s.dev.listed 1).any (fun j => s.dev.on R.JOB.VALID j && s.dev.f R.JOB.JOB_ID j == m.id.toNat) = false := by decide
theorem meets_publish_and_release_messages_are_served_3 :
    let m : ServiceMsg := resMsg 0
    let x : Nat := 0
    let p : PubX := ownPub 0
    let s : State := pubHeld (ownPub 0)
    s.dev.identOk m.site.toNat m.gwId.toNat = true ∧
    s.dev.peerOf m.site.toNat = some x ∧
    m.dlen.toNat ≤ 208 ∧
    s.dev.pubs = [p] ∧
    p.site = s.dev.site ∧
    p.txn = m.txn.toNat ∧
    p.own = true ∧
    p.decided = 0 ∧
    p.peers = [m.site.toNat] ∧
    p.answers = [] ∧
    p.acks = [] ∧
    m.status = 0 := by decide
theorem meets_publish_and_release_messages_are_served_4 :
    let m : ServiceMsg := { resMsg 0 with status := 0x12 }
    let x : Nat := 0
    let n : Nat := 3
    let i : Nat := 9
    let p : PubX := ownPub 0
    let o : Op := newOp 3 9 (pubDesc 0 1)
    let s : State := pubOps (ownPub 0)
    s.dev.identOk m.site.toNat m.gwId.toNat = true ∧
    s.dev.peerOf m.site.toNat = some x ∧
    m.dlen.toNat ≤ 208 ∧
    s.dev.pubs = [p] ∧
    p.site = s.dev.site ∧
    p.txn = m.txn.toNat ∧
    p.own = true ∧
    p.decided = 0 ∧
    p.peers = [m.site.toNat] ∧
    p.answers = [] ∧
    m.status ≠ 0 ∧
    m.status ≠ 0xFF ∧
    p.op = some (n, i) ∧
    s.dev.getOp n i = some o ∧
    o.stage ≠ .done := by decide
theorem meets_publish_and_release_messages_are_served_5 :
    let m : ServiceMsg := { resMsg 0 with status := 0x12 }
    let x : Nat := 0
    let p : PubX := { pubX 1 7 with decided := 0 }
    let s : State := pubHeld { pubX 1 7 with decided := 0 }
    s.dev.identOk m.site.toNat m.gwId.toNat = true ∧
    s.dev.peerOf m.site.toNat = some x ∧
    m.dlen.toNat ≤ 208 ∧
    s.dev.pubs = [p] ∧
    p.site = m.site.toNat ∧
    p.txn = m.txn.toNat ∧
    p.own = false := by decide
theorem meets_publish_and_release_messages_are_served_6 :
    let m : ServiceMsg := resMsg 0
    let x : Nat := 0
    let p : PubX := { pubX 1 7 with decided := 0 }
    let s : State := pubHeld { pubX 1 7 with decided := 0 }
    s.dev.identOk m.site.toNat m.gwId.toNat = true ∧
    s.dev.peerOf m.site.toNat = some x ∧
    m.dlen.toNat ≤ 208 ∧
    s.dev.pubs = [p] ∧
    p.site = m.site.toNat ∧
    p.txn = m.txn.toNat ∧
    p.own = false ∧
    p.decided = 0 := by decide
theorem meets_publish_and_release_messages_are_served_7 :
    let m : ServiceMsg := resMsg 0
    let x : Nat := 0
    let n : Nat := 3
    let i : Nat := 9
    let p : PubX := ownPub 1
    let o : Op := newOp 3 9 (pubDesc 0 1)
    let s : State := pubOps (ownPub 1)
    s.dev.identOk m.site.toNat m.gwId.toNat = true ∧
    s.dev.peerOf m.site.toNat = some x ∧
    m.dlen.toNat ≤ 208 ∧
    s.dev.pubs = [p] ∧
    p.site = s.dev.site ∧
    p.txn = m.txn.toNat ∧
    p.own = true ∧
    p.decided = 1 ∧
    p.peers = [m.site.toNat] ∧
    p.acks = [] ∧
    p.lost = false ∧
    p.op = some (n, i) ∧
    s.dev.getOp n i = some o ∧
    o.stage ≠ .done ∧
    o.events = 0 := by decide
theorem meets_publish_and_release_messages_are_served_9 :
    let m : ServiceMsg := { resMsg 0 with data := [0, 1, 0, 0, 0, 0, 7, 0], key := 3 }
    let x : Nat := 0
    let y : DeltaIn := deltaHeld
    let s : State := peerUp.onDev (fun d => { d with deltasIn := [deltaHeld] })
    s.dev.identOk m.site.toNat m.gwId.toNat = true ∧
    s.dev.peerOf m.site.toNat = some x ∧
    m.dlen.toNat ≤ 208 ∧
    s.dev.deltasIn = [y] ∧
    y.site = m.site.toNat ∧
    y.jobId = m.id.toNat ∧
    y.rank = m.key.toNat % 2 ^ 22 ∧
    y.win = ofBE (slice m.data 0 2) ∧
    y.off = ofBE (slice m.data 2 5) := by decide
theorem meets_publish_and_release_messages_are_served_10 :
    let m : ServiceMsg := { resMsg 0 with data := [0, 1, 0, 0, 0, 0, 7, 0], key := 3 }
    let q : ServiceMsg := { resMsg 0 with data := [0, 1, 0, 0, 0, 0, 7, 0], key := 3, gwId := 9 }
    let x : Nat := 0
    let s : State := peerUp.onDev (fun d => { d with anchorQ := [(1, .service 7 { resMsg 0 with data := [0, 1, 0, 0, 0, 0, 7, 0], key := 3, gwId := 9 })] })
    s.dev.identOk m.site.toNat m.gwId.toNat = true ∧
    s.dev.peerOf m.site.toNat = some x ∧
    m.dlen.toNat ≤ 208 ∧
    s.dev.anchorQ = [(m.site.toNat, .service 7 q)] ∧
    q.id = m.id ∧
    q.key = m.key ∧
    q.data = slice m.data 0 8 ∧
    s.dev.ops.all (fun o => !(o.waits && o.d.opcode == 7 && o.site == m.site.toNat)) = true := by decide

/-! ItineraryEntriesTakeEffectAtTheirSlot -/

/-- Wing 0 has one entry on the active page; the timebase stands at 1500 ns, the Catalogue at `peerUp`'s. -/
def entryAt (slot action carrier arg : Nat) (l : List (Fld × Nat × Nat)) : State := peerUp.onDev (fun d =>
  { (l.foldl (fun (a : Dev) e => a.set e.1 e.2.1 e.2.2) ((d.set R.ITIN_CTL.ENABLE 0 1).set R.GLOBAL_ID.WING_MASK 0 15)) with
    pages := ⟨List.replicate 8 0 ++ [1] ++ List.replicate 23 0 ++ leBytes 8 (slot + 2 ^ 40 * action + 2 ^ 44 * carrier) ++ leBytes 8 arg, []⟩ })
theorem meets_itinerary_entries_take_effect_at_their_slot_1 :
    let w : Fin 4 := 0
    let e : ItinEntry := ⟨1500, 0, 3, 0, 0⟩
    let s : State := entryAt 1500 0 3 0 []
    EntryRuns s w e ∧
    e.action = 0 := by decide
theorem meets_itinerary_entries_take_effect_at_their_slot_2 :
    let w : Fin 4 := 0
    let e : ItinEntry := ⟨1500, 1, 3, 0x8985, 0⟩
    let s : State := entryAt 1500 1 3 0x8985 [(R.KW_CTL.ENABLE, 0, 1), (R.KW_ENG_CFG.EN, 0, 1), (R.KW_CAR_CFG.EN, 3, 1)]
    EntryRuns s w e ∧
    e.action = 1 ∧
    isAnchor (entryCarrier w e) = false := by decide
theorem meets_itinerary_entries_take_effect_at_their_slot_3 :
    let w : Fin 4 := 0
    let e : ItinEntry := ⟨1500, 2, 3, 0x101, 0⟩
    let s : State := entryAt 1500 2 3 0x101 []
    EntryRuns s w e ∧
    e.action = 2 ∧
    isAnchor (entryCarrier w e) = false ∧
    e.arg.testBit 26 = false := by decide
theorem meets_itinerary_entries_take_effect_at_their_slot_4 :
    let w : Fin 4 := 0
    let e : ItinEntry := ⟨1500, 2, 3, 0x7FF0101, 0⟩
    let s : State := entryAt 1500 2 3 0x7FF0101 []
    EntryRuns s w e ∧
    e.action = 2 ∧
    isAnchor (entryCarrier w e) = false ∧
    e.arg.testBit 26 = true ∧
    (s.dev.sched (entryCarrier w e)).pins.any (fun p => p.1 == e.arg / 2 ^ 16 % 1024) = false := by decide
theorem meets_itinerary_entries_take_effect_at_their_slot_5 :
    let w : Fin 4 := 0
    let e : ItinEntry := ⟨1500, 3, 3, 0x101, 0⟩
    let s : State := (entryAt 1500 3 3 0x101 []).onDev (fun d => d.setSched 3 { Sched.empty with mask := 0x1F1 })
    EntryRuns s w e ∧
    e.action = 3 ∧
    isAnchor (entryCarrier w e) = false ∧
    e.arg.testBit 26 = false := by decide
theorem meets_itinerary_entries_take_effect_at_their_slot_6 :
    let w : Fin 4 := 0
    let e : ItinEntry := ⟨1500, 4, 3, 0x1003, 0⟩
    let s : State := entryAt 1500 4 3 0x1003 []
    EntryRuns s w e ∧
    e.action = 4 := by decide
theorem meets_itinerary_entries_take_effect_at_their_slot_7 :
    let w : Fin 4 := 0
    let e : ItinEntry := ⟨1500, 5, 3, 3, 0⟩
    let s : State := (entryAt 1500 5 3 3 []).onDev (fun d => d.setSched 3 { Sched.empty with rxPark := true, txPark := true })
    EntryRuns s w e ∧
    e.action = 5 := by decide
theorem meets_itinerary_entries_take_effect_at_their_slot_8 :
    let w : Fin 4 := 0
    let e : ItinEntry := ⟨1500, 7, 3, 0x200008000, 0⟩
    let s : State := entryAt 1500 7 3 0x200008000 [(R.KW_CTL.FF_EN, 0, 1)]
    EntryRuns s w e ∧
    e.action = 7 ∧
    s.dev.f R.KW_CTL.FF_EN = 1 ∧
    e.arg / 2 ^ 32 % 4 < (s.dev.kwOf (entryCarrier w e)).heaters.length := by decide
theorem meets_itinerary_entries_take_effect_at_their_slot_9 :
    let w : Fin 4 := 0
    let e : ItinEntry := ⟨1500, 7, 3, 0x200008000, 0⟩
    let s : State := entryAt 1500 7 3 0x200008000 [(R.KW_CTL.FF_EN, 0, 0)]
    EntryRuns s w e ∧
    e.action = 7 ∧
    s.dev.f R.KW_CTL.FF_EN = 0 := by decide
theorem meets_itinerary_entries_take_effect_at_their_slot_10 :
    let w : Fin 4 := 0
    let e : ItinEntry := ⟨1500, 6, 0, 7, 0⟩
    let s : State := (entryAt 1500 6 0 7 [(R.TOUR_CTL.PROV_MODE, 0, 2)]).onDev (fun d => { d with itinMode := 1 })
    EntryRuns s w e ∧
    e.action = 6 ∧
    s.dev.itinMode = 1 ∧
    w.val < s.dev.provMode.length ∧
    s.dev.colls.any (fun x => x.start == 0 && x.phase == e.arg % 65536) = false ∧
    s.dev.f R.ITIN_STAT_EXECUTED.EXECUTED w < 2 ^ 64 - 1 := by decide
theorem meets_itinerary_entries_take_effect_at_their_slot_11 :
    let w : Fin 4 := 0
    let e : ItinEntry := ⟨0, 0, 3, 0, 0⟩
    let s : State := entryAt 0 0 3 0 [(R.ITIN_CTL.LATE_GRACE, 0, 1499)]
    s.dev.dueEntry w = some e ∧
    e.action = 0 ∧
    diff40 e.slot s.dev.ns40 < -s.dev.grace := by decide
theorem meets_itinerary_entries_take_effect_at_their_slot_12 :
    let w : Fin 4 := 0
    let c : Instr := .park 0
    let a : Nat := 4
    let e : ItinEntry := ⟨0, 4, 3, 0x1003, 0⟩
    let s : State := entryAt 0 4 3 0x1003 [(R.ITIN_CTL.LATE_GRACE, 0, 1499)]
    (c, a) ∈ itinCommands w ∧
    s.dev.dueEntry w = some e ∧
    e.action = a ∧
    s.dev.conflict (entryCarrier w e) e = false ∧
    diff40 e.slot s.dev.ns40 < -s.dev.grace := by decide
theorem meets_itinerary_entries_take_effect_at_their_slot_13 :
    let w : Fin 4 := 0
    let c : Instr := .wake 0
    let a : Nat := 5
    let e : ItinEntry := ⟨1500, 5, 3, 3, 0⟩
    let s : State := (entryAt 1500 5 3 3 []).onDev (fun d => (d.setSched 3 { Sched.empty with rxPark := true }).setKw 3 { KwX.empty with rxOut := true })
    (c, a) ∈ itinCommands w ∧
    s.dev.dueEntry w = some e ∧
    e.action = a ∧
    s.dev.conflict (entryCarrier w e) e = false ∧
    -s.dev.grace ≤ diff40 e.slot s.dev.ns40 ∧
    a ≠ 6 ∧
    s.dev.carOut (entryCarrier w e) = true := by decide
theorem meets_itinerary_entries_take_effect_at_their_slot_14 :
    let w : Fin 4 := 0
    let c : Instr := .retune 0
    let a : Nat := 1
    let e : ItinEntry := ⟨1500, 1, 3, 0x85, 0⟩
    let s : State := (entryAt 1500 1 3 0x85 []).onDev (fun d => d.setSched 4 { Sched.empty with tx := some 5 })
    (c, a) ∈ itinCommands w ∧
    s.dev.dueEntry w = some e ∧
    e.action = a ∧
    s.dev.conflict (entryCarrier w e) e = true := by decide
theorem meets_itinerary_entries_take_effect_at_their_slot_15 :
    let w : Fin 4 := 0
    let c : Instr := .itineraryNop 0
    let a : Nat := 0
    let s : State := entryAt 1500 5 3 2 []
    (c, a) ∈ itinCommands w ∧
    (∀ e, s.dev.dueEntry w = some e → e.action ≠ a) := by decide
theorem meets_itinerary_entries_take_effect_at_their_slot_16 :
    let w : Fin 4 := 2
    let c : Instr := .park 2
    let a : Nat := 4
    let s : State := (entryAt 1500 5 3 2 []).onDev (fun d => { d with itinRuns := [(2, d.now, 32)] })
    (c, a) ∈ itinCommands w ∧
    32 ≤ s.dev.launched w := by decide

/-! WakesReturnsAndCancelsAreServed -/

/-- A plan message of site 1 for plane 0, colour 5. -/
def planM : PlanMsg := { site := 1, plane := 0, kind := 0, id := 0, t := 1484, colour := 5, accept := false, gwId := 0, orderPrint := 0 }
/-- Carrier 3 sends and listens on colour 5; the entry given is the next of wing 0. -/
def loState (slot action arg : Nat) (x : Sched) : State := (entryAt slot action 3 arg []).onDev (fun d => d.setSched 3 { x with tx := some 5, lo := some 5 })
/-- The receive side of carrier 17 is switched on, hears site 1, and is out. -/
def outState : State := (entryAt 1500 0 3 0 [(R.KW_CTL.ENABLE, 0, 1), (R.KW_ENG_CFG.EN, 1, 1), (R.KW_CAR_CFG.EN, 17, 1), (R.CUR_STATE.ALIVE, 0, 1)]).onDev (fun d =>
  (d.setSched 17 { Sched.empty with lo := some 5 }).setKw 17 { KwX.empty with rxOut := true })
theorem meets_wakes_returns_and_cancels_are_served_1 :
    let m : Fin 128 := 127
    let s : State := (entryAt 1500 0 3 0 []).onDev (fun d => d.setSched 127 { Sched.empty with txPark := true })
    s.dev.f R.SYS_BOOT.STATE = 4 ∧
    s.dev.wingPresent (carrierWing m) = true ∧
    isAnchor m = false ∧
    (s.dev.sched m).txPark = true := by decide
theorem meets_wakes_returns_and_cancels_are_served_2 :
    let m : Fin 128 := 3
    let e : ItinEntry := ⟨12501, 4, 3, 0x10001, 0⟩
    let s : State := entryAt 12501 4 3 0x10001 [] |> fun s => s.onDev (fun d => { d with tb := 65536 * 2244 })
    s.dev.f R.SYS_BOOT.STATE = 4 ∧
    s.dev.wingPresent (carrierWing m) = true ∧
    isAnchor m = false ∧
    (s.dev.sched m).txPark = false ∧
    s.dev.pendingPark m 0 = some e ∧
    cancelled s.dev.parkTx m (parkC e) = false ∧
    10000 < diff40 (parkC e) s.dev.ns40 := by decide
theorem meets_wakes_returns_and_cancels_are_served_3 :
    let m : Fin 128 := 3
    let e : ItinEntry := ⟨12501, 4, 3, 0x10001, 0⟩
    let s : State := entryAt 12501 4 3 0x10001 [] |> fun s => s.onDev (fun d => { d with tb := 65536 * 2501 })
    s.dev.f R.SYS_BOOT.STATE = 4 ∧
    s.dev.wingPresent (carrierWing m) = true ∧
    isAnchor m = false ∧
    (s.dev.sched m).txPark = false ∧
    s.dev.pendingPark m 0 = some e ∧
    cancelled s.dev.parkTx m (parkC e) = false ∧
    diff40 (parkC e) s.dev.ns40 ≤ 10000 := by decide
theorem meets_wakes_returns_and_cancels_are_served_4 :
    let m : Fin 128 := 16
    let s : State := mkReady []
    isAnchor m = true ∧
    s.dev.wakeSlotNow 0 = true := by decide
theorem meets_wakes_returns_and_cancels_are_served_5 :
    let m : Fin 128 := 16
    let s : State := peerUp
    isAnchor m = true ∧
    s.dev.wakeSlotNow 0 = false := by decide
theorem meets_wakes_returns_and_cancels_are_served_6 :
    let m : Fin 128 := 3
    let s : State := (entryAt 1500 0 3 0 []).onDev (fun d => { (d.setSched 3 { Sched.empty with txPark := true }).setKw 3 { KwX.empty with wakeReq := true } with tb := 65536 * 100000 })
    isAnchor m = false ∧
    s.dev.wakeSlotNow 0 = true ∧
    (s.dev.kwOf m).wakeReq = true ∧
    (s.dev.sched m).txPark = true ∧
    (s.dev.sched m).rxPark = false := by decide
theorem meets_wakes_returns_and_cancels_are_served_7 :
    let m : Fin 128 := 3
    let s : State := (entryAt 1500 0 3 0 []).onDev (fun d => { d.setKw 3 { KwX.empty with wakeCheck := true, loFine := true, rxJoined := true, rxGuardEnd := 5000 } with now := 5999 })
    (s.dev.kwOf m).wakeCheck = true ∧
    s.dev.now < (s.dev.kwOf m).rxGuardEnd + 1000 := by decide
theorem meets_wakes_returns_and_cancels_are_served_8 :
    let m : Fin 128 := 3
    let s : State := (entryAt 1500 0 3 0 []).onDev (fun d => { d.setKw 3 { KwX.empty with wakeCheck := true, loFine := true, rxJoined := true, rxGuardEnd := 5000 } with now := 6000 })
    (s.dev.kwOf m).wakeCheck = true ∧
    (s.dev.kwOf m).rxGuardEnd + 1000 ≤ s.dev.now := by decide
theorem meets_wakes_returns_and_cancels_are_served_9 :
    let g : PlanMsg := { planM with t := 12245 }
    let x : Nat := 0
    let m : Nat := 3
    let e : ItinEntry := ⟨12501, 4, 3, 0x10002, 0⟩
    let s : State := loState 12501 4 0x10002 Sched.empty
    FromPeer s g.site.toNat g.gwId.toNat x ∧
    s.dev.loOn g.plane.toNat g.colour.toNat = some m ∧
    cancelled s.dev.parkRx m g.t.toNat = false ∧
    (s.dev.parksAhead m 1).find? (fun e => parkC e == g.t.toNat) = some e ∧
    0 < diff40 e.slot s.dev.ns40 := by decide
theorem meets_wakes_returns_and_cancels_are_served_10 :
    let g : PlanMsg := planM
    let x : Nat := 0
    let m : Nat := 3
    let s : State := loState 12501 0 0 { Sched.empty with rxPark := true, rxParkC := some 1484 }
    FromPeer s g.site.toNat g.gwId.toNat x ∧
    s.dev.loOn g.plane.toNat g.colour.toNat = some m ∧
    cancelled s.dev.parkRx m g.t.toNat = false ∧
    (s.dev.parksAhead m 1).find? (fun e => parkC e == g.t.toNat) = none ∧
    (s.dev.sched m).rxParkC = some g.t.toNat := by decide
theorem meets_wakes_returns_and_cancels_are_served_11 :
    let g : PlanMsg := planM
    let x : Nat := 0
    let m : Nat := 3
    let s : State := loState 12501 0 0 { Sched.empty with rxPark := true, rxParkC := some 1485 }
    FromPeer s g.site.toNat g.gwId.toNat x ∧
    s.dev.loOn g.plane.toNat g.colour.toNat = some m ∧
    cancelled s.dev.parkRx m g.t.toNat = false ∧
    (s.dev.parksAhead m 1).find? (fun e => parkC e == g.t.toNat) = none ∧
    (s.dev.sched m).rxParkC ≠ some g.t.toNat := by decide
theorem meets_wakes_returns_and_cancels_are_served_12 :
    let m : Fin 128 := 17
    let site : Nat := 1
    let s : State := outState
    s.dev.f R.CUR_STATE.ALIVE = 1 ∧
    s.dev.rxMay m = true ∧
    (s.dev.kwOf m).rxOut = true ∧
    s.dev.rxSite m = some site ∧
    s.dev.returnsTx = [] := by decide
theorem meets_wakes_returns_and_cancels_are_served_14 :
    let g : PlanMsg := { planM with t := 11501 }
    let x : Nat := 0
    let m : Nat := 3
    let s : State := loState 12501 0 0 Sched.empty
    FromPeer s g.site.toNat g.gwId.toNat x ∧
    s.dev.txOn g.plane.toNat g.colour.toNat = some m ∧
    s.dev.returnsRx.any (fun r => r.m == m) = false := by decide
theorem meets_wakes_returns_and_cancels_are_served_15 :
    let g : PlanMsg := { planM with accept := true }
    let x : Nat := 0
    let r : ReturnTx := ⟨3, 1, 5, 1484, false⟩
    let s : State := peerUp.onDev (fun d => { d with returnsTx := [⟨3, 1, 5, 1484, false⟩] })
    FromPeer s g.site.toNat g.gwId.toNat x ∧
    s.dev.returnsTx = [r] ∧
    r.site = g.site.toNat ∧
    r.colour = g.colour.toNat ∧
    r.t = g.t.toNat ∧
    r.acked = false ∧
    carrierEngine r.m = g.plane.toNat := by decide
theorem meets_wakes_returns_and_cancels_are_served_16 :
    let m : Fin 128 := 3
    let r : ReturnTx := ⟨3, 1, 5, 1484, true⟩
    let s : State := peerUp.onDev (fun d => { d.setKw 3 { KwX.empty with rxOut := true } with returnsTx := [⟨3, 1, 5, 1484, true⟩] })
    s.dev.returnsTx = [r] ∧
    r.m = m.val ∧
    diff40 r.t s.dev.ns40 ≤ 0 ∧
    s.dev.returnsRx = [] ∧
    (s.dev.kwOf m).rxJoined = false ∧
    (s.dev.kwOf m).txJoined = false := by decide
theorem meets_wakes_returns_and_cancels_are_served_17 :
    let m : Fin 128 := 3
    let r : ReturnRx := ⟨3, 1484, true, false⟩
    let s : State := peerUp.onDev (fun d => { (d.set R.LINE_CAR_STAT.RMT_OUT 3 1).setKw 3 { KwX.empty with txOut := true } with returnsRx := [⟨3, 1484, true, false⟩] })
    s.dev.returnsTx = [] ∧
    s.dev.returnsRx = [r] ∧
    r.m = m.val ∧
    r.accept = true ∧
    r.rejoined = false ∧
    diff40 r.t s.dev.ns40 ≤ 0 ∧
    (s.dev.kwOf m).rxJoined = false ∧
    (s.dev.kwOf m).txJoined = false := by decide
theorem meets_wakes_returns_and_cancels_are_served_18 :
    let g : PlanMsg := planM
    let x : Nat := 0
    let m : Nat := 3
    let r : ReturnRx := ⟨3, 1484, true, true⟩
    let s : State := (loState 12501 0 0 Sched.empty).onDev (fun d => { d with returnsRx := [⟨3, 1484, true, true⟩] })
    FromPeer s g.site.toNat g.gwId.toNat x ∧
    s.dev.txOn g.plane.toNat g.colour.toNat = some m ∧
    s.dev.returnsRx = [r] ∧
    r.m = m ∧
    r.t = g.t.toNat := by decide

/-! PlansAreAnnouncedCommittedAndActivated -/

/-- A version is pending, its image empty; further fields as given. -/
def pendCat (l : List (Fld × Nat × Nat)) : State := peerUp.onDev (fun d => l.foldl (fun (a : Dev) e => a.set e.1 e.2.1 e.2.2) (d.set R.CAT_STATE.PEND 0 1))
theorem meets_plans_are_announced_committed_and_activated_1 :
    let g : PlanMsg := { planM with kind := 1 }
    let x : Nat := 0
    let c : List Byte := []
    let s : State := pendCat [(R.CAT_STATE.ACT_AT, 0, 1484)]
    FromPeer s g.site.toNat g.gwId.toNat x ∧
    g.kind = 1 ∧
    s.dev.catPending = some c ∧
    catPlan c = g.id.toNat := by decide
theorem meets_plans_are_announced_committed_and_activated_2 :
    let g : PlanMsg := { planM with kind := 2 }
    let x : Nat := 0
    let s : State := pendCat [(R.ITIN_STATE.PEND, 0, 1), (R.ITIN_STATE.ACT_AT, 0, 1484)]
    FromPeer s g.site.toNat g.gwId.toNat x ∧
    g.kind = 2 ∧
    s.dev.f R.ITIN_STATE.PEND = 1 ∧
    s.dev.f R.ITIN_ID.PEND_ID = g.id.toNat ∧
    s.dev.f R.ITIN_STATE.ACT_AT = g.t.toNat := by decide
theorem meets_plans_are_announced_committed_and_activated_3 :
    let g : PlanMsg := { planM with kind := 1 }
    let x : Nat := 0
    let s : State := pendCat [(R.CAT_STATE.ACT_AT, 0, 1484)]
    FromPeer s g.site.toNat g.gwId.toNat x ∧
    g.kind = 1 ∧
    s.dev.f R.CAT_STATE.PEND = 1 ∧
    s.dev.f R.CAT_ID.PEND_PLAN = g.id.toNat ∧
    s.dev.f R.CAT_STATE.ACT_AT = g.t.toNat := by decide
theorem meets_plans_are_announced_committed_and_activated_4 :
    let g : PlanMsg := { planM with kind := 2 }
    let x : Nat := 0
    let s : State := pendCat [(R.ITIN_STATE.PEND, 0, 1), (R.ITIN_STATE.ACT_AT, 0, 1484)]
    FromPeer s g.site.toNat g.gwId.toNat x ∧
    g.kind = 2 ∧
    s.dev.f R.ITIN_STATE.PEND = 1 ∧
    s.dev.f R.ITIN_ID.PEND_ID = g.id.toNat ∧
    s.dev.f R.ITIN_STATE.ACT_AT = g.t.toNat := by decide
theorem meets_plans_are_announced_committed_and_activated_5 :
    let s : State := pendCat []
    s.dev.catCommitted = true := by decide
theorem meets_plans_are_announced_committed_and_activated_6 :
    let s : State := pendCat [(R.ITIN_STATE.PEND, 0, 1)]
    s.dev.pageCommitted = true := by decide
theorem meets_plans_are_announced_committed_and_activated_8 :
    let s : State := (entryAt 1500 0 3 0 [(R.ITIN_STATE.PEND, 0, 1), (R.ITIN_ID.PEND_ID, 0, 9), (R.ITIN_CTL.MODE, 0, 1)])
    s.dev.f R.ITIN_STATE.PEND = 1 ∧
    s.dev.hasCome (s.dev.f R.ITIN_STATE.ACT_AT) = true := by decide
theorem meets_plans_are_announced_committed_and_activated_10 :
    let s : State := pendCat [(R.CAT_ID.PEND_PLAN, 0, 9)]
    s.dev.f R.CAT_STATE.PEND = 1 ∧
    s.dev.hasCome (s.dev.f R.CAT_STATE.ACT_AT) = true := by decide
theorem meets_plans_are_announced_committed_and_activated_11 :
    let s : State := pendCat [(R.ITIN_STATE.PEND, 0, 1)]
    s.dev.f R.SYS_BOOT.STATE = 4 ∧
    s.dev.f R.ITIN_STATE.PEND = 1 := by decide
theorem meets_plans_are_announced_committed_and_activated_12 :
    let s : State := pendCat []
    s.dev.f R.SYS_BOOT.STATE = 4 ∧
    s.dev.f R.CAT_STATE.PEND = 1 := by decide
theorem meets_plans_are_announced_committed_and_activated_13 :
    let s : State := (mkReady [(R.CAT_STATE.HOLDING, 0, 1)]).onDev (fun d => { d with now := 2000005, catHeld := 5, catHold := 2 })
    s.dev.catCommitted = false ∧
    s.dev.catHold * 1000000 ≤ s.dev.now - s.dev.catHeld := by decide
theorem meets_plans_are_announced_committed_and_activated_14 :
    let s : State := (pendCat [(R.CAT_STATE.HOLDING, 0, 1), (R.CAT_CTL.HOLD, 0, 2)]).onDev (fun d => { d with now := 1000000, catHold := 2 })
    s.dev.now - s.dev.catHeld < s.dev.catHold * 1000000 := by decide
theorem meets_plans_are_announced_committed_and_activated_15 :
    let s : State := entryAt 1500 0 3 0 [(R.ITIN_PAGE_SEL.WORD, 0, 5)]
    s.dev.f R.SYS_BOOT.STATE = 4 ∧
    s.dev.f R.ITIN_PAGE_SEL.AUTOINC = 0 := by decide
theorem meets_plans_are_announced_committed_and_activated_16 :
    let s : State := entryAt 1500 0 3 0 [(R.CAT_SEL.AUTOINC, 0, 1), (R.CAT_SEL.WORD, 0, 1)]
    s.dev.f R.SYS_BOOT.STATE = 4 ∧
    s.dev.f R.CAT_SEL.AUTOINC = 1 ∧
    8 * s.dev.f R.CAT_SEL.WORD + 8 ≤ (s.dev.catVer (s.dev.f R.CAT_SEL.VERSION)).length := by decide
theorem meets_plans_are_announced_committed_and_activated_17 :
    let e : Fin 8 := 0
    let site : Nat := 1
    let p : Nat := 0
    let s : State := (entryAt 1500 0 3 0 [(R.KW_CTL.ENABLE, 0, 1), (R.KW_ENG_CFG.EN, 0, 1), (R.KW_CAR_CFG.EN, 0, 1), (R.CAT_CTL.ENABLE, 0, 1), (R.KW_FA.PRESENT, 0, 3)]).onDev (fun d => { d with faSettled := [true, true] })
    s.dev.f R.CAT_CTL.ENABLE = 1 ∧
    s.dev.carOn (16 * e.val) = true ∧
    s.dev.faOk e = true ∧
    (s.dev.kwOf (16 * e.val)).visitAt ≠ some (s.dev.tai / 20000) ∧
    s.dev.anchorSite e = some site ∧
    s.dev.peerOf site = some p := by decide
theorem meets_plans_are_announced_committed_and_activated_18 :
    let e : Fin 8 := 7
    let s : State := peerUp
    (s.dev.f R.CAT_CTL.ENABLE = 0 ∨ (s.dev.kwOf (16 * e.val)).visitAt = some (s.dev.tai / 20000)) := by decide

/-! LocksOfCarriersAreGainedAndLost -/

/-- Carrier m switched on, scheduled on colour 5 toward site 1, its wing and plane up; its lines as given. -/
def lit (m : Nat) (x : KwX) (l : List (Fld × Nat × Nat)) : State := (entryAt 1500 0 3 0 ([(R.KW_CTL.ENABLE, 0, 1), (R.KW_ENG_CFG.EN, m / 16, 1),
  (R.KW_CAR_CFG.EN, m, 1), (R.KW_FA.PRESENT, 0, 3), (R.CAT_CTL.ENABLE, 0, 1)] ++ l)).onDev (fun d =>
    { (d.setSched m { Sched.empty with tx := some 5, lo := some 5 }).setKw m x with faSettled := [true, true] })
/-- A sample of a carrier's monitors. -/
def monV : Monitors :=
  { txPow := 1, rxPow := 2, loPow := 3, ferr := 4, cd := 5, dgd := 6, osnr := 7, qmarg := 8, biasTx := 9, biasLo := 10, fofs := 11, seed0 := 12, seed1 := 13,
    corrected := 0, coded := 100, loopErr := [], temp := 2500, bulk := 15, rxTotal := 16 }
theorem meets_locks_of_carriers_are_gained_and_lost_1 :
    let m : Fin 128 := 17
    let s : State := lit 17 KwX.empty []
    s.dev.leadNow (carrierEngine m) = s.dev ∧
    s.dev.listen m = s.dev ∧
    s.dev.rxMay m = true ∧
    s.dev.thermalOk m 1 = true := by decide
theorem meets_locks_of_carriers_are_gained_and_lost_2 :
    let m : Fin 128 := 17
    let s : State := lit 17 { KwX.empty with heaters := [{ Heater.zero with base := 4000 }, { Heater.zero with base := 4000 }, Heater.zero, Heater.zero] } [(R.KW_ENG_MODEL.G, 1, 100), (R.KW_ENG_MODEL.LOCK_RANGE, 1, 1)]
    s.dev.leadNow (carrierEngine m) = s.dev ∧
    s.dev.listen m = s.dev ∧
    s.dev.thermalOk m 0 = false ∧
    s.dev.thermalOk m 1 = false := by decide
theorem meets_locks_of_carriers_are_gained_and_lost_3 :
    let m : Fin 128 := 17
    let s : State := lit 17 KwX.empty []
    s.dev.leadNow (carrierEngine m) = s.dev ∧
    s.dev.listen m = s.dev ∧
    s.dev.txMay m = true ∧
    s.dev.f R.KW_CAR_STATE.TX_LOCK m = 0 ∧
    s.dev.thermalOk m 0 = true ∧
    (s.dev.kwOf m).txJoined = false := by decide
theorem meets_locks_of_carriers_are_gained_and_lost_4 :
    let m : Fin 128 := 17
    let s : State := (lit 17 { KwX.empty with loFine := true } []).onDev (fun d => { d with paths := [(128 * 17, ⟨true, 0, 1, 2, 3, 4, 5⟩)] })
    s.dev.listen m = s.dev ∧
    s.dev.rxMay m = true ∧
    (s.dev.kwOf m).loFine = true ∧
    s.dev.pathUsable m = true ∧
    (s.dev.kwOf m).needCold = false := by decide
theorem meets_locks_of_carriers_are_gained_and_lost_5 :
    let m : Fin 128 := 17
    let s : State := lit 17 { KwX.empty with loFine := true } []
    s.dev.listen m = s.dev ∧
    s.dev.rxMay m = true ∧
    (s.dev.kwOf m).loFine = true := by decide
theorem meets_locks_of_carriers_are_gained_and_lost_6 :
    let m : Fin 128 := 17
    let s : State := lit 17 { KwX.empty with loFine := true } []
    s.dev.listen m = s.dev ∧
    s.dev.rxMay m = true ∧
    (s.dev.kwOf m).loFine = true ∧
    (s.dev.pathUsable m = false ∨ (s.dev.kwOf m).needCold = true) := by decide
theorem meets_locks_of_carriers_are_gained_and_lost_7 :
    let m : Fin 128 := 17
    let s : State := lit 17 { KwX.empty with cold := true, rxJoined := true } []
    s.dev.listen m = s.dev ∧
    (s.dev.kwOf m).cold = true ∧
    s.dev.rxMay m = true := by decide
theorem meets_locks_of_carriers_are_gained_and_lost_8 :
    let m : Fin 128 := 17
    let s : State := lit 17 { KwX.empty with rxGuard := true, rxJoined := true } [(R.KW_CAR_STATE.RX_LOCK, 17, 1)]
    s.dev.listen m = s.dev ∧
    s.dev.rxMay m = true ∧
    (s.dev.kwOf m).rxGuard = true := by decide
theorem meets_locks_of_carriers_are_gained_and_lost_9 :
    let m : Fin 128 := 17
    let s : State := lit 17 { KwX.empty with rxJoined := true } [(R.KW_CAR_STATE.RX_LOCK, 17, 1), (R.LINE_CAR_STAT.RX_IN, 17, 1)]
    s.dev.rxMay m = true ∧
    (s.dev.kwOf m).rxGuard = false ∧
    isAnchor m = false ∧
    (s.dev.kwOf m).rxJoined = true := by decide
theorem meets_locks_of_carriers_are_gained_and_lost_10 :
    let m : Fin 128 := 17
    let s : State := lit 17 { KwX.empty with txLit := true } [(R.KW_CAR_STATE.TX_LOCK, 17, 1)]
    s.dev.f R.KW_CAR_STATE.TX_LOCK m = 1 ∧
    (s.dev.kwOf m).txJoined = false := by decide
theorem meets_locks_of_carriers_are_gained_and_lost_11 :
    let m : Fin 128 := 17
    let s : State := lit 17 { KwX.empty with txLit := true, txJoined := true } [(R.KW_CAR_STATE.TX_LOCK, 17, 1), (R.LINE_CAR_STAT.TX_IN, 17, 1)]
    s.dev.f R.KW_CAR_STATE.TX_LOCK m = 1 ∧
    (s.dev.kwOf m).txJoined = true := by decide
theorem meets_locks_of_carriers_are_gained_and_lost_12 :
    let m : Fin 128 := 127
    let h : Fin 4 := 3
    let p : Int := 77
    let s : State := lit 127 { KwX.empty with heaters := [Heater.zero, Heater.zero, Heater.zero, { Heater.zero with pulse := some 77 }] } []
    s.dev.leadNow (carrierEngine m) = s.dev ∧
    (s.dev.heater m h).pulse = some p ∧
    (s.dev.heater m h).pulseEnd ≤ s.dev.now := by decide
theorem meets_locks_of_carriers_are_gained_and_lost_13 :
    let m : Fin 128 := 127
    let h : Fin 4 := 3
    let s : State := lit 127 { KwX.empty with heaters := [Heater.zero, Heater.zero, Heater.zero, { Heater.zero with pulse := some 77, pulseEnd := 1 }] } []
    s.dev.leadNow (carrierEngine m) = s.dev ∧
    s.dev.now < (s.dev.heater m h).pulseEnd := by decide
theorem meets_locks_of_carriers_are_gained_and_lost_15 :
    let m : Fin 128 := 17
    let s : State := lit 17 { KwX.empty with rxGuard := true } []
    s.dev.rxMay m = true ∧
    (s.dev.kwOf m).rxGuard = true ∧
    (s.dev.kwOf m).rxGuardEnd ≤ s.dev.now ∧
    s.dev.f R.KW_CAR_STATE.RX_LOCK m = 0 ∧
    s.dev.f R.LINE_CAR_STAT.ALIGN m = 0 := by decide
theorem meets_locks_of_carriers_are_gained_and_lost_16 :
    let s : State := (lit 127 KwX.empty []).onDev (fun d => { d with paths := [(128 * 17, ⟨true, 0, 1, 2, 3, 4, 5⟩), (128 * 127 + 3, ⟨true, 0, 1, 2, 3, 4, 5⟩)] })
    s.dev.f R.SYS_BOOT.STATE = 4 := by decide
theorem meets_locks_of_carriers_are_gained_and_lost_17 :
    let s : State := (lit 127 KwX.empty []).onDev (fun d => { d with paths := [(128 * 17, ⟨true, 0, 1, 2, 3, 4, 5⟩)] })
    s.dev.f R.SYS_BOOT.STATE = 4 := by decide
theorem meets_locks_of_carriers_are_gained_and_lost_18 :
    let m : Fin 128 := 17
    let s : State := lit 17 KwX.empty [(R.KW_CAR_STATE.RX_LOCK, 17, 1), (R.LINE_CTL.ENABLE, 0, 1)]
    s.dev.engOk (carrierEngine m) = true ∧
    s.dev.rxMay m = true ∧
    s.dev.f R.KW_CAR_STATE.RX_LOCK m = 1 := by decide
theorem meets_locks_of_carriers_are_gained_and_lost_19 :
    let m : Fin 128 := 17
    let s : State := peerUp
    s.dev.engOk (carrierEngine m) = false := by decide
theorem meets_locks_of_carriers_are_gained_and_lost_20 :
    let m : Fin 128 := 17
    let s : State := (lit 17 { KwX.empty with cold := true } []).onDev (fun d => d.setSched 17 { d.sched 17 with rxPark := true })
    s.dev.listen m = s.dev ∧
    s.dev.rxMay m = false := by decide

/-! ConnectorsFibresAndEnginesAreWatched -/

/-- A path report of site 1 on plane 0. -/
def pathR : PathReport := { site := 1, plane := 0, colour := 5, cd := 0xFFFFFFFF, dgd := 1, osnr := 2, qmarg := 3, rxPow := 4, gwId := 0 }
theorem meets_connectors_fibres_and_engines_are_watched_3 :
    let f : Fin 2 := 1
    let s : State := (lit 127 KwX.empty []).onDev (fun d => { d with faSettled := [true, false] })
    (s.dev.f R.KW_FA.PRESENT).testBit f = true := by decide
theorem meets_connectors_fibres_and_engines_are_watched_4 :
    let e : Fin 8 := 7
    let p : BitVec 16 := -3000
    let s : State := lit 127 { KwX.empty with rxJoined := true } [(R.KW_ENG_CFG.LOS_THR, 7, 65536 - 2999)]
    s.dev.wingPresent (e.val / 2) = true ∧
    p.toInt < s.dev.sf R.KW_ENG_CFG.LOS_THR e := by decide
theorem meets_connectors_fibres_and_engines_are_watched_5 :
    let e : Fin 8 := 7
    let p : BitVec 16 := -2999
    let s : State := lit 127 { KwX.empty with rxJoined := true } [(R.KW_ENG_CFG.LOS_THR, 7, 65536 - 2999), (R.KW_FA.FIBRE_LOS, 0, 255)]
    s.dev.wingPresent (e.val / 2) = true ∧
    s.dev.sf R.KW_ENG_CFG.LOS_THR e ≤ p.toInt := by decide
theorem meets_connectors_fibres_and_engines_are_watched_6 :
    let e : Fin 8 := 7
    let s : State := (lit 127 { KwX.empty with rxJoined := true } [(R.KW_ENG_CFG.T_SET, 7, 5000)]).onDev (fun d => { d with engDark := [7] })
    s.dev.wingPresent (e.val / 2) = true := by decide
theorem meets_connectors_fibres_and_engines_are_watched_7 :
    let r : PathReport := pathR
    let p : Nat := 0
    let s : State := peerUp
    FromPeer s r.site.toNat r.gwId.toNat p := by decide
theorem meets_connectors_fibres_and_engines_are_watched_8 :
    let r : PathReport := { pathR with gwId := 7 }
    let s : State := peerUp
    s.dev.identOk r.site.toNat r.gwId.toNat = false := by decide
theorem meets_connectors_fibres_and_engines_are_watched_9 :
    let m : Fin 128 := 127
    let v : Word := 0x90001
    let s : State := lit 112 KwX.empty []
    s.dev.f R.SYS_BOOT.STATE = 4 ∧
    s.dev.wingPresent (carrierWing m) = true ∧
    s.dev.blkHeld 4 (carrierEngine m) = false ∧
    s.dev.f R.KW_CAR_CFG.EN m = 0 ∧
    (s.dev.kwOf m).txLit = false ∧
    wrote .full v R.KW_CAR_CFG.EN = 1 ∧
    wrote .full v R.KW_CAR_CFG.MODE < 3 ∧
    (wrote .full v R.KW_CAR_CFG.FEC = 1 → wrote .full v R.KW_CAR_CFG.MODE = 0) ∧
    (isAnchor m = true ∨ s.dev.f R.KW_CAR_CFG.EN (16 * carrierEngine m) = 1) := by decide
theorem meets_connectors_fibres_and_engines_are_watched_10 :
    let m : Fin 128 := 127
    let v : Word := 0x12C07
    let s : State := lit 112 KwX.empty []
    s.dev.f R.SYS_BOOT.STATE = 4 ∧
    s.dev.wingPresent (carrierWing m) = true ∧
    s.dev.blkHeld 4 (carrierEngine m) = false ∧
    s.dev.f R.KW_CAR_CFG.EN m = 0 ∧
    (s.dev.kwOf m).txLit = false ∧
    wrote .full v R.KW_CAR_CFG.EN = 1 ∧
    (wrote .full v R.KW_CAR_CFG.MODE = 3 ∨ (wrote .full v R.KW_CAR_CFG.FEC = 1 ∧ wrote .full v R.KW_CAR_CFG.MODE ≠ 0) ∨ isAnchor m = false ∧ s.dev.f R.KW_CAR_CFG.EN (16 * carrierEngine m) = 0) := by decide
theorem meets_connectors_fibres_and_engines_are_watched_11 :
    let m : Fin 128 := 127
    let v : Word := 0x12C00
    let s : State := lit 127 { KwX.empty with txLit := true, loFine := true } [(R.KW_CAR_STATE.TX_LOCK, 127, 1), (R.KW_CAR_STATE.RX_LOCK, 127, 1)]
    s.dev.f R.SYS_BOOT.STATE = 4 ∧
    s.dev.wingPresent (carrierWing m) = true ∧
    s.dev.f R.KW_CAR_CFG.EN m = 1 ∧
    isAnchor m = false ∧
    wrote .full v R.KW_CAR_CFG.EN = 0 := by decide

/-! FramesAreSentReceivedAndCounted -/

/-- A frame whose FAS matches, of colour 5 of another site than the plan has. -/
def frm : Frame :=
  { fas := fasPattern, mfas := 9, tti := 0, bip := 0, bei := 0, bdi := false, som := false, cont := false, jc1 := 0, jc2 := 0, jc3 := 0, njo := zeros 8, race := false,
    ptr := 0x3FFF, time := zeros 16, rcc := zeros 8, anchor := false, wake := false, colour := 9, site := 3, plane := 1, index := 1, rail := 0, pjo := zeros 8, data := zeros 8 }
/-- Five seconds have passed; entity 383 has a 15-minute bin and three violations. -/
def binState : State := (mk [(R.LINE_CTL.ENABLE, 0, 1)]).onDev (fun d => { d with tb := 65536 * 5000000000 }.onPm 383 (fun x =>
  { x with bip := 3, frames := 7, cur15 := { PmBin.empty with valid := true, start := start15 4, elapsed := 4 } }))
theorem meets_frames_are_sent_received_and_counted_1 :
    let m : Fin 128 := 16
    let s : State := lit 16 { KwX.empty with txLit := true, wakeSend := true } [(R.KW_CAR_STATE.TX_COL, 16, 9)] |> fun s => s.onDev (fun d => d.onLine 16 (fun y => { y with txMfas := 255 }))
    (s.dev.kwOf m).txLit = true := by decide
theorem meets_frames_are_sent_received_and_counted_2 :
    let m : Fin 128 := 16
    let s : State := peerUp
    (s.dev.kwOf m).txLit = false := by decide
theorem meets_frames_are_sent_received_and_counted_3 :
    let m : Fin 128 := 17
    let f : Frame := frm
    let s : State := lit 17 KwX.empty [(R.KW_CAR_STATE.RX_LOCK, 17, 1)]
    s.dev.listen m = s.dev ∧
    s.dev.rxWorks m = true ∧
    s.dev.f R.LINE_CAR_STAT.ALIGN m = 0 ∧
    fasOk f = true ∧
    (s.dev.lineOf m).sawFas = false := by decide
theorem meets_frames_are_sent_received_and_counted_4 :
    let m : Fin 128 := 17
    let f : Frame := frm
    let s : State := (lit 17 { KwX.empty with rxGuard := true } [(R.KW_CAR_STATE.RX_LOCK, 17, 1), (R.LINE_CAR_STAT.LOF, 17, 1)]).onDev (fun d => d.onLine 17 (fun y => { y with sawFas := true }))
    s.dev.listen m = s.dev ∧
    s.dev.rxWorks m = true ∧
    s.dev.f R.LINE_CAR_STAT.ALIGN m = 0 ∧
    fasOk f = true ∧
    (s.dev.lineOf m).sawFas = true := by decide
theorem meets_frames_are_sent_received_and_counted_5 :
    let m : Fin 128 := 17
    let f : Frame := { frm with fas := 0 }
    let s : State := (lit 17 { KwX.empty with rxGuard := true } [(R.KW_CAR_STATE.RX_LOCK, 17, 1), (R.LINE_CAR_STAT.ALIGN, 17, 1)]).onDev (fun d => d.onLine 17 (fun y => { y with misses := 2 }))
    s.dev.listen m = s.dev ∧
    s.dev.rxWorks m = true ∧
    s.dev.f R.LINE_CAR_STAT.ALIGN m = 1 ∧
    fasOk f = false ∧
    (s.dev.lineOf m).misses + 1 < s.dev.oofK m := by decide
theorem meets_frames_are_sent_received_and_counted_6 :
    let m : Fin 128 := 17
    let f : Frame := { frm with fas := 0 }
    let s : State := (lit 17 KwX.empty [(R.KW_CAR_STATE.RX_LOCK, 17, 1), (R.LINE_CAR_STAT.ALIGN, 17, 1)]).onDev (fun d => d.onLine 17 (fun y => { y with misses := 3 }))
    s.dev.listen m = s.dev ∧
    s.dev.rxWorks m = true ∧
    s.dev.f R.LINE_CAR_STAT.ALIGN m = 1 ∧
    fasOk f = false ∧
    s.dev.oofK m ≤ (s.dev.lineOf m).misses + 1 ∧
    (s.dev.kwOf m).rxGuard = false := by decide
theorem meets_frames_are_sent_received_and_counted_7 :
    let m : Fin 128 := 17
    let f : Frame := frm
    let s : State := (lit 17 KwX.empty [(R.KW_CAR_STATE.RX_LOCK, 17, 1), (R.LINE_CAR_STAT.ALIGN, 17, 1)]).onDev (fun d => d.onLine 17 (fun y => { y with misses := 1 }))
    s.dev.listen m = s.dev ∧
    s.dev.rxWorks m = true ∧
    s.dev.f R.LINE_CAR_STAT.ALIGN m = 1 ∧
    fasOk f = true ∧
    (s.dev.kwOf m).rxGuard = false ∧
    s.dev.frameMatches m f = false := by decide
theorem meets_frames_are_sent_received_and_counted_8 :
    let m : Fin 128 := 17
    let f : Frame := frm
    let s : State := lit 17 { KwX.empty with rxOut := true } [(R.KW_CAR_STATE.RX_LOCK, 17, 1), (R.LINE_CAR_STAT.ALIGN, 17, 1)]
    s.dev.listen m = s.dev ∧
    s.dev.rxWorks m = true ∧
    s.dev.f R.LINE_CAR_STAT.ALIGN m = 1 ∧
    fasOk f = true ∧
    isAnchor m = false ∧
    (s.dev.kwOf m).rxOut = true := by decide
theorem meets_frames_are_sent_received_and_counted_9 :
    let m : Fin 128 := 17
    let s : State := peerUp
    s.dev.listen m = s.dev ∧
    s.dev.rxWorks m = false := by decide
theorem meets_frames_are_sent_received_and_counted_10 :
    let g : CarrierOutMsg := ⟨1, 1, 5, 0⟩
    let m : Nat := 17
    let p : Nat := 0
    let s : State := lit 17 { KwX.empty with txLit := true, txJoined := true } [(R.KW_CAR_STATE.TX_COL, 17, 5), (R.LINE_CAR_STAT.TX_IN, 17, 1)]
    FromPeer s g.site.toNat g.gwId.toNat p ∧
    s.dev.litOn g.plane.toNat g.colour.toNat = some m ∧
    s.dev.txReach m = some g.site.toNat := by decide
theorem meets_frames_are_sent_received_and_counted_11 :
    let s : State := peerUp.onDev (fun d => d.onPm 383 (fun x => { x with frames := 5, bip := 3 }))
    s.dev.f R.LINE_CTL.ENABLE = 0 := by decide
theorem meets_frames_are_sent_received_and_counted_12 :
    let e : Fin 384 := 383
    let s : State := binState
    s.dev.f R.LINE_CTL.ENABLE = 1 ∧
    (s.dev.pmOf e).cur15.valid = true ∧
    (s.dev.pmOf e).cur15.start = start15 (s.dev.tai / 1000000000 - 1) := by decide

/-! PeersAreSealedOrFailed -/

/-- Fragment f of n of a SEAL body, session 7, every check passing. -/
def sealM (f n : Nat) : SealMsg :=
  { frag := BitVec.ofNat 8 f, nfrag := BitVec.ofNat 8 n, session := 7, flen := 248, body := zeros 248, chainOk := true, credOk := true, sigOk := true, macOk := true }
/-- 248 bytes, all 0 but a 1 at o. -/
def attBytes (o : Nat) : List Byte := zeros o ++ [1] ++ zeros (247 - o)
/-- Session 7 with a peer, its keys there. -/
def sealX (ours : Bool) : SealX := { ours := ours, session := 7, priv := [], bodyI := zeros 40, bodyR := zeros 40, bodyF := [], keys := [[1], [2], [3], [4], [5]], restricted := false, svn := 3 }
/-- A plan whose peer 0 is site 1; our credential installed; the TRNG works. -/
def sealState (x : Option SealX) (rx : List SealRx) : State := peerUp.onDev (fun d =>
  { d.set R.VT_STAT.TRNG_OK 0 1 with cred := zeros 128, sealRx := rx, seals := match x with | some y => [(0, y)] | none => [] })
theorem meets_peers_are_sealed_or_failed_1 :
    let p : Fin 4096 := 0
    let g : SealMsg := sealM 0 2
    let at_ : Nat × Nat := (1, 0)
    let s : State := sealState none []
    s.dev.sealPeerAt p = some at_ ∧
    s.dev.f R.VT_STAT.SEC = 1 ∧
    g.flen = 248 ∧
    g.frag = 0 ∧
    1 < g.nfrag.toNat ∧
    s.dev.sealRx.any (fun r => r.is p 1) = false := by decide
theorem meets_peers_are_sealed_or_failed_2 :
    let p : Fin 4096 := 0
    let g : SealMsg := { sealM 0 1 with chainOk := false }
    let at_ : Nat × Nat := (1, 0)
    let body : List Byte := zeros 248
    let s : State := sealState none []
    s.dev.sealPeerAt p = some at_ ∧
    s.dev.f R.VT_STAT.SEC = 1 ∧
    (s.dev.sealFeed p 1 g).2 = some body ∧
    s.dev.sealOf p = none ∧
    g.chainOk = false := by decide
theorem meets_peers_are_sealed_or_failed_3 :
    let p : Fin 4096 := 0
    let g : SealMsg := sealM 0 1
    let site : Nat := 1
    let gw : Nat := 0
    let body : List Byte := zeros 248
    let s : State := sealState none []
    s.dev.sealPeerAt p = some (site, gw) ∧
    s.dev.f R.VT_STAT.SEC = 1 ∧
    (s.dev.sealFeed p 1 g).2 = some body ∧
    s.dev.sealOf p = none ∧
    s.dev.helloCheck gw g body = 0 ∧
    s.dev.credOurs = true ∧
    s.dev.f R.VT_STAT.TRNG_OK = 1 := by decide
theorem meets_peers_are_sealed_or_failed_4 :
    let p : Fin 4096 := 0
    let g : SealMsg := { sealM 1 2 with body := attBytes 33 }
    let site : Nat := 1
    let gw : Nat := 0
    let x : SealX := sealX true
    let body : List Byte := zeros 248 ++ attBytes 33
    let s : State := sealState (some (sealX true)) [⟨0, 2, 7, 2, 0, [(0, zeros 248)]⟩]
    s.dev.sealPeerAt p = some (site, gw) ∧
    s.dev.f R.VT_STAT.SEC = 1 ∧
    s.dev.sealOf p = some x ∧
    x.ours = true ∧
    x.session = g.session.toNat ∧
    (s.dev.sealFeed p 2 g).2 = some body ∧
    s.dev.helloCheck gw g body = 0 ∧
    s.dev.attCheck (slice body (attPos body) 136) (slice x.bodyI 8 32) = true ∧
    g.sigOk = true ∧
    s.dev.f R.VT_STAT.TRNG_OK = 1 := by decide
theorem meets_peers_are_sealed_or_failed_5 :
    let p : Fin 4096 := 0
    let g : SealMsg := { sealM 1 2 with body := zeros 248 }
    let site : Nat := 1
    let gw : Nat := 0
    let x : SealX := sealX true
    let body : List Byte := zeros 496
    let s : State := sealState (some (sealX true)) [⟨0, 2, 7, 2, 0, [(0, zeros 248)]⟩]
    s.dev.sealPeerAt p = some (site, gw) ∧
    s.dev.f R.VT_STAT.SEC = 1 ∧
    s.dev.sealOf p = some x ∧
    x.ours = true ∧
    x.session = g.session.toNat ∧
    (s.dev.sealFeed p 2 g).2 = some body ∧
    s.dev.helloCheck gw g body = 0 ∧
    s.dev.attCheck (slice body (attPos body) 136) (slice x.bodyI 8 32) = false := by decide
theorem meets_peers_are_sealed_or_failed_6 :
    let p : Fin 4096 := 0
    let g : SealMsg := { sealM 0 1 with body := attBytes 9 }
    let at_ : Nat × Nat := (1, 0)
    let x : SealX := sealX false
    let body : List Byte := attBytes 9
    let s : State := sealState (some (sealX false)) []
    s.dev.sealPeerAt p = some at_ ∧
    s.dev.f R.VT_STAT.SEC = 1 ∧
    s.dev.sealOf p = some x ∧
    x.ours = false ∧
    x.session = g.session.toNat ∧
    (s.dev.sealFeed p 3 g).2 = some body ∧
    g.chainOk = true ∧
    s.dev.attCheck (slice body 8 136) (slice x.bodyR 8 32) = true ∧
    s.dev.f R.VT_STAT.TRNG_OK = 1 := by decide
theorem meets_peers_are_sealed_or_failed_7 :
    let p : Fin 4096 := 0
    let g : SealMsg := sealM 0 1
    let at_ : Nat × Nat := (1, 0)
    let x : SealX := sealX true
    let body : List Byte := zeros 248
    let s : State := sealState (some (sealX true)) []
    s.dev.sealPeerAt p = some at_ ∧
    s.dev.f R.VT_STAT.SEC = 1 ∧
    s.dev.sealOf p = some x ∧
    x.ours = true ∧
    x.session = g.session.toNat ∧
    x.keys ≠ [] ∧
    (s.dev.sealFeed p 4 g).2 = some body ∧
    s.dev.f R.VT_STAT.TRNG_OK = 1 := by decide
theorem meets_peers_are_sealed_or_failed_8 :
    let p : Fin 4096 := 0
    let g : SealMsg := { sealM 0 1 with body := attBytes 8 }
    let at_ : Nat × Nat := (1, 0)
    let x : SealX := sealX true
    let body : List Byte := attBytes 8
    let s : State := sealState (some (sealX true)) []
    s.dev.sealPeerAt p = some at_ ∧
    s.dev.f R.VT_STAT.SEC = 1 ∧
    s.dev.sealOf p = some x ∧
    x.session = g.session.toNat ∧
    (s.dev.sealFeed p 5 g).2 = some body := by decide
theorem meets_peers_are_sealed_or_failed_10 :
    let p : Fin 4096 := 0
    let at_ : Nat × Nat := (1, 0)
    let s : State := (sealState none []).onDev (fun d => { d.set R.VT_PEER.STATE 0 3 with sealAt := [(0, 100, 5000000)], now := 5000100 })
    s.dev.f R.VT_PEER.STATE p = 3 ∧
    s.dev.f R.VT_STAT.SEC = 1 ∧
    s.dev.sealPeerAt p = some at_ ∧
    s.dev.credOurs = true ∧
    s.dev.f R.VT_STAT.TRNG_OK = 1 ∧
    (s.dev.sealWait p).2 ≤ s.dev.now - (s.dev.sealWait p).1 := by decide
theorem meets_peers_are_sealed_or_failed_11 :
    let p : Fin 4096 := 4095
    let s : State := (sealState none []).onDev (fun d => { d with sealAt := [(4095, 100, 5000000)], now := 5000099 })
    (s.dev.f R.VT_PEER.STATE p = 2 ∨ s.dev.now - (s.dev.sealWait p).1 < (s.dev.sealWait p).2) := by decide
theorem meets_peers_are_sealed_or_failed_12 :
    let a : BitVec 16 := 0
    let at_ : Nat × Nat := (1, 0)
    let s : State := sealState none []
    s.dev.f R.SYS_BOOT.STATE = 4 ∧
    s.dev.f R.VT_STAT.SEC = 1 ∧
    s.dev.sealPeerAt a.toNat = some at_ ∧
    s.dev.credOurs = true ∧
    s.dev.f R.VT_PEER.STATE a.toNat = 0 := by decide
theorem meets_peers_are_sealed_or_failed_13 :
    let p : Fin 4096 := 0
    let g : SealMsg := sealM 0 1
    let at_ : Nat × Nat := (1, 0)
    let x : SealX := sealX true
    let body : List Byte := zeros 248
    let s : State := (sealState (some (sealX true)) []).onDev (fun d => d.set R.VT_STAT.TRNG_OK 0 0)
    s.dev.sealPeerAt p = some at_ ∧
    s.dev.f R.VT_STAT.SEC = 1 ∧
    s.dev.sealOf p = some x ∧
    x.ours = true ∧
    x.session = g.session.toNat ∧
    x.keys ≠ [] ∧
    (s.dev.sealFeed p 4 g).2 = some body ∧
    g.macOk = true ∧
    s.dev.f R.VT_STAT.TRNG_OK = 0 := by decide

/-! VtCommandsAreExecuted -/

/-- The device's SERIAL in word k of VT_BUF. -/
def withSerial (k : Nat) (s : State) : State := s.onDev (fun d => d.set R.VT_BUF.BUF k (leAt Config.serial 0 8))
/-- A nonce is out and stands at byte 8 of VT_BUF, scope 1 at byte 40; a key and a sealing are held. -/
def tokenState : State := (mkReady [(R.VT_BUF.BUF, 5, 1)]).onDev (fun d =>
  { d with dbgNonce := zeros 32, halves := [(0, some ⟨0, [1], none⟩)], ctlKeys := [(3, [1], [2], [3])], seals := [(4, sealX true)], keks := [(0, [1])] })
theorem f_withSerial (k j : Nat) (y : Fld) (s : State) (h : y.key j ≠ R.VT_BUF.BUF.key k) : (withSerial k s).dev.f y j = s.dev.f y j :=
  Laws.f_set_apart _ _ _ _ _ _ (.inl h)
theorem vtByte_withSerial (k i : Nat) (s : State) (h : i / 8 ≠ k) : (withSerial k s).dev.vtByte i = s.dev.vtByte i := by
  rw [Dev.vtByte, f_withSerial, ← Dev.vtByte]
  simp only [Fld.key]
  omega
theorem bytes_ofLE (l : List Byte) : (List.range l.length).map (fun i => BitVec.ofNat 8 (ofLE l / 2 ^ (8 * i))) = l := by
  induction l with
  | nil => rfl
  | cons b t ih =>
    rw [List.length_cons, List.range_succ_eq_map, List.map_cons, List.map_map]
    congr 1
    · apply BitVec.eq_of_toNat_eq
      simpa [ofLE, Nat.add_mul_mod_self_left] using b.isLt
    · rw [← ih]
      simp only [List.length_map, List.length_range]
      rw [ih]
      conv_rhs => rw [← ih]
      apply List.map_congr_left
      intro i _
      have : ofLE (b :: t) / 2 ^ (8 * (i + 1)) = ofLE t / 2 ^ (8 * i) := by
        rw [show 8 * (i + 1) = 8 + 8 * i by omega, Nat.pow_add, ← Nat.div_div_eq_div_mul]
        congr 1
        have := b.isLt
        simp only [ofLE]
        omega
      simp [this]
theorem ofLE_lt (l : List Byte) : ofLE l < 2 ^ (8 * l.length) := by
  induction l with
  | nil => simp [ofLE]
  | cons b t ih =>
    have := b.isLt
    rw [List.length_cons, show 8 * (t.length + 1) = 8 + 8 * t.length by omega, Nat.pow_add, ofLE]
    omega
theorem length_slice (l : List Byte) (o n : Nat) : (slice l o n).length = n := by
  simp only [slice, List.length_append, List.length_take, List.length_drop, List.length_replicate]
  omega
theorem vtBytes_withSerial (k : Nat) (s : State) : (withSerial k s).dev.vtBytes (8 * k) 8 = slice Config.serial 0 8 := by
  have hl : (slice Config.serial 0 8).length = 8 := length_slice _ _ _
  have hb := bytes_ofLE (slice Config.serial 0 8)
  rw [hl] at hb
  rw [← hb, Dev.vtBytes]
  apply List.map_congr_left
  intro i hi
  have hi8 : i < 8 := by simpa using hi
  have hlt := ofLE_lt (slice Config.serial 0 8)
  rw [hl] at hlt
  have e : (withSerial k s).dev.f R.VT_BUF.BUF k = ofLE (slice Config.serial 0 8) := by
    show (s.dev.set _ _ _).f _ _ = _
    rw [Laws.f_set_same _ _ _ _ (by decide), Nat.mod_eq_of_lt (by exact hlt), leAt]
  rw [Dev.vtByte, show (8 * k + i) / 8 = k by omega, show (8 * k + i) % 8 = i by omega, e]
/-- VT_OPKEY programmed with the digest of the key that stands in VT_BUF. -/
def withOpkey (s : State) : State :=
  let h := fun i => leAt (Config.sha384 (s.dev.vtBytes 0 97)) (8 * i) 8
  s.onDev (fun d => ((((((d.set R.VT_STAT.OPKEY_SET 0 1).set R.VT_OPKEY.OPKEY 0 (h 0)).set R.VT_OPKEY.OPKEY 1 (h 1)).set R.VT_OPKEY.OPKEY 2 (h 2)).set
    R.VT_OPKEY.OPKEY 3 (h 3)).set R.VT_OPKEY.OPKEY 4 (h 4)).set R.VT_OPKEY.OPKEY 5 (h 5))
theorem f_withOpkey (y : Fld) (j : Nat) (s : State) (h0 : y.key j ≠ R.VT_STAT.OPKEY_SET.key 0 ∨ 9 ≤ y.lo ∨ y.lo + y.w ≤ 8)
    (h : ∀ i, i < 6 → y.key j ≠ R.VT_OPKEY.OPKEY.key i) : (withOpkey s).dev.f y j = s.dev.f y j := by
  show (Dev.set _ _ _ _).f _ _ = _
  rw [Laws.f_set_apart _ _ _ _ _ _ (.inl (h 5 (by decide))), Laws.f_set_apart _ _ _ _ _ _ (.inl (h 4 (by decide))),
    Laws.f_set_apart _ _ _ _ _ _ (.inl (h 3 (by decide))), Laws.f_set_apart _ _ _ _ _ _ (.inl (h 2 (by decide))),
    Laws.f_set_apart _ _ _ _ _ _ (.inl (h 1 (by decide))), Laws.f_set_apart _ _ _ _ _ _ (.inl (h 0 (by decide))),
    Laws.f_set_apart _ _ _ _ _ _ h0]
theorem vtBytes_withOpkey (s : State) (o n : Nat) : (withOpkey s).dev.vtBytes o n = s.dev.vtBytes o n := by
  apply List.map_congr_left
  intro i _
  rw [Dev.vtByte, f_withOpkey _ _ _ (.inl (by simp only [Fld.key]; omega)) (by intro i hi; simp only [Fld.key]; omega), ← Dev.vtByte]
theorem keyMatches_withOpkey (s : State) : (withOpkey s).dev.keyMatches = true := by
  have lt : ∀ i, leAt (Config.sha384 (s.dev.vtBytes 0 97)) (8 * i) 8 < 2 ^ 64 := by
    intro i
    have := ofLE_lt (slice (Config.sha384 (s.dev.vtBytes 0 97)) (8 * i) 8)
    rw [length_slice] at this
    exact this
  have set : (withOpkey s).dev.f R.VT_STAT.OPKEY_SET = 1 := by
    show (Dev.set _ _ _ _).f _ _ = _
    repeat rw [Laws.f_set_apart _ _ _ _ _ _ (.inl (by decide))]
    exact Laws.f_set_same _ _ _ _ (by decide)
  have key : ∀ i : Fin 6, (withOpkey s).dev.f R.VT_OPKEY.OPKEY i = leAt (Config.sha384 (s.dev.vtBytes 0 97)) (8 * i) 8 := by
    intro i
    show (Dev.set _ _ _ _).f _ _ = _
    match i with
    | 0 | 1 | 2 | 3 | 4 | 5 =>
      repeat rw [Laws.f_set_apart _ _ _ _ _ _ (.inl (by decide))]
      exact (Laws.f_set_same _ _ _ _ (by decide)).trans (Nat.mod_eq_of_lt (lt _))
  unfold Dev.keyMatches Dev.on
  rw [vtBytes_withOpkey, set]
  simp only [Bool.and_eq_true, List.all_eq_true, List.mem_range, beq_iff_eq]
  exact ⟨rfl, fun i hi => (key ⟨i, hi⟩).symm⟩
/-- A credential that names this device, has not expired and stands behind the operator's key: clause 5. -/
theorem meets_cred_install : let s := withOpkey (withSerial 14 (mkReady [(R.VT_BUF.BUF, 15, 2 ^ 56)]))
    s.dev.f R.SYS_BOOT.STATE = 4 ∧ s.dev.f R.VT_STAT.SEC = 1 ∧ s.dev.vtBytes 112 8 = slice Config.serial 0 8 ∧
    tbSec s.dev.tb < ofBE (s.dev.vtBytes 120 8) ∧ s.dev.keyMatches = true := by
  refine ⟨?_, ?_, ?_, ?_, keyMatches_withOpkey _⟩
  · rw [f_withOpkey _ _ _ (by decide) (by decide), f_withSerial _ _ _ _ (by decide)]; decide
  · rw [f_withOpkey _ _ _ (by decide) (by decide), f_withSerial _ _ _ _ (by decide)]; decide
  · rw [vtBytes_withOpkey]; exact vtBytes_withSerial 14 _
  · have h : (withSerial 14 (mkReady [(R.VT_BUF.BUF, 15, 2 ^ 56)])).dev.vtBytes 120 8 =
        (mkReady [(R.VT_BUF.BUF, 15, 2 ^ 56)]).dev.vtBytes 120 8 := by
      apply List.map_congr_left
      intro i hi
      have : i < 8 := by simpa using hi
      exact vtByte_withSerial 14 _ _ (by omega)
    rw [vtBytes_withOpkey, h]
    decide
/-- A debug token that names this device and the nonce: clauses 9 and 15. -/
theorem meets_token : let s := withSerial 0 tokenState
    s.dev.f R.SYS_BOOT.STATE = 4 ∧ s.dev.f R.VT_STAT.SEC = 1 ∧ s.dev.f R.VT_STAT.DBG = 0 ∧ s.dev.vtBytes 0 8 = slice Config.serial 0 8 ∧ s.dev.tokenOk = true := by
  have hf : ∀ y : Fld, y.key 0 ≠ R.VT_BUF.BUF.key 0 → (withSerial 0 tokenState).dev.f y = tokenState.dev.f y := fun y h => f_withSerial 0 0 y _ h
  have hs := vtBytes_withSerial 0 tokenState
  have hb : ∀ o n, 8 ≤ o → (withSerial 0 tokenState).dev.vtBytes o n = tokenState.dev.vtBytes o n := by
    intro o n h
    apply List.map_congr_left
    intro i _
    exact vtByte_withSerial 0 _ _ (by omega)
  refine ⟨?_, ?_, ?_, hs, ?_⟩
  · rw [hf _ (by decide)]; decide
  · rw [hf _ (by decide)]; decide
  · rw [hf _ (by decide)]; decide
  · rw [Dev.tokenOk, hb 8 32 (by omega), hb 41 7 (by omega), vtByte_withSerial 0 40 _ (by omega)]
    rw [show (withSerial 0 tokenState).dev.vtBytes 0 8 = slice Config.serial 0 8 from hs, beq_self_eq_true]
    decide
theorem meets_token_tenant : (withSerial 0 tokenState).dev.sealedTenant = false := by
  have h : ∀ v, (tokenState.dev.setWord (R.VT_BUF.BUF.key 0) v).sealedTenant = false := by
    intro v
    unfold Dev.setWord tabPut
    split <;> rfl
  exact h _
theorem meets_vt_commands_are_executed_1 :
    let s : State := mkReady [(R.VT_STAT.SVN_RUN, 0, 200), (R.VT_STAT.SVN_MIN, 0, 3)]
    s.dev.f R.SYS_BOOT.STATE = 4 ∧
    s.dev.f R.VT_STAT.SEC = 1 := by decide
theorem meets_vt_commands_are_executed_2 :
    let s : State := mkReady [(R.VT_STAT.SEC, 0, 0)]
    s.dev.f R.SYS_BOOT.STATE = 4 ∧
    s.dev.f R.VT_STAT.SEC ≠ 1 := by decide
theorem meets_vt_commands_are_executed_3 :
    let s : State := mkReady [(R.VT_BUF.BUF, 5, 2 ^ 64 - 1)]
    s.dev.f R.SYS_BOOT.STATE = 4 ∧
    s.dev.f R.VT_STAT.SEC = 1 ∧
    s.dev.f R.VT_STAT.OPKEY_SET = 0 := by decide
theorem meets_vt_commands_are_executed_4 :
    let s : State := mkReady [(R.VT_BUF.BUF, 5, 2 ^ 64 - 1), (R.VT_STAT.OPKEY_SET, 0, 1)]
    s.dev.f R.SYS_BOOT.STATE = 4 ∧
    s.dev.f R.VT_STAT.OPKEY_SET = 1 := by decide
theorem meets_vt_commands_are_executed_6 :
    let key : Bool := true
    let sig : Bool := true
    let s : State := mkReady []
    s.dev.f R.SYS_BOOT.STATE = 4 ∧
    (s.dev.keyMatches = false ∨ key = false ∨ sig = false) := by decide
theorem meets_vt_commands_are_executed_7 :
    let s : State := mkReady [(R.VT_STAT.SVN_RUN, 0, 200), (R.VT_STAT.SVN_MIN, 0, 3), (R.VT_BUF.BUF, 3, 99)]
    s.dev.f R.SYS_BOOT.STATE = 4 ∧
    s.dev.f R.VT_STAT.SEC = 1 := by decide
theorem meets_vt_commands_are_executed_8 :
    let s : State := mkReady [(R.VT_STAT.SEC, 0, 2)]
    s.dev.f R.SYS_BOOT.STATE = 4 ∧
    (s.dev.f R.VT_STAT.SEC = 1 ∨ s.dev.f R.VT_STAT.SEC = 2) := by decide
theorem meets_vt_commands_are_executed_10 :
    let s : State := tokenState
    s.dev.f R.SYS_BOOT.STATE = 4 ∧
    s.dev.f R.VT_STAT.SEC = 1 ∧
    s.dev.f R.VT_STAT.DBG = 0 ∧
    s.dev.sealedTenant = false := by decide
theorem meets_vt_commands_are_executed_11 :
    let s : State := mkReady [(R.TENANT.ENABLE, 1023, 1), (R.TENANT.SEC_MODE, 1023, 1)]
    s.dev.f R.SYS_BOOT.STATE = 4 ∧
    s.dev.f R.VT_STAT.SEC = 1 ∧
    s.dev.f R.VT_STAT.DBG = 0 ∧
    s.dev.sealedTenant = true := by decide
theorem meets_vt_commands_are_executed_12 :
    let s : State := mkReady [(R.VT_STAT.DBG, 0, 1)]
    s.dev.f R.SYS_BOOT.STATE = 4 ∧
    s.dev.f R.VT_STAT.DBG = 1 := by decide
theorem meets_vt_commands_are_executed_13 :
    let s : State := (mkReady [(R.SYS_PWR.STATE, 0, 3)]).onDev (fun d => { d with hists := [(3, [(1, 2)])], halves := [(0, some ⟨0, [1], none⟩)] })
    s.dev.f R.SYS_BOOT.STATE = 4 ∧
    s.dev.f R.SYS_PWR.STATE = 3 := by decide
theorem meets_vt_commands_are_executed_14 :
    let s : State := (mkReady [(R.SYS_PWR.STATE, 0, 1)]).onDev (fun d => { d with hists := [(3, [(1, 2)])] })
    s.dev.f R.SYS_BOOT.STATE = 4 ∧
    s.dev.f R.SYS_PWR.STATE ≠ 3 := by decide
theorem meets_vt_commands_are_executed_16 :
    let s : State := tokenState
    s.dev.f R.SYS_BOOT.STATE = 4 := by decide
theorem meets_vt_commands_are_executed_17 :
    let s : State := mkReady [(R.VT_SENSE.LIVE, 0, 2 ^ 16 - 1)]
    s.dev.f R.SYS_BOOT.STATE = 4 := by decide
theorem meets_vt_commands_are_executed_18 :
    let s : State := tokenState
    s.dev.f R.SYS_BOOT.STATE = 4 := by decide

/-! KeyLoadsFillAndClearHalves -/

/-- A record of tenant 5 for half 1 of slot 16 (pair 8, phase 0), epoch 4. -/
def loadR : LoadRecord :=
  { half := 1, tenant := 5, slot := 16, job := 1, site := 1, cls := 0, wing := 2, epoch := 4, reserved := false, key := zeros 32, tag := zeros 16, nonce := zeros 12 }
/-- Tenant 5 of function 0 has pairs 8 and 9; the TRNG works. -/
def loadState : State := mkReady [(R.VTTEN.PAIR_BASE, 5, 8), (R.VTTEN.PAIR_COUNT, 5, 2), (R.VT_STAT.TRNG_OK, 0, 1)]
theorem meets_key_loads_fill_and_clear_halves_1 :
    let f : Fin 256 := 0
    let ch : Fin 16 := 3
    let r : LoadRecord := { loadR with reserved := true }
    let ok : Bool := true
    let c : Instr := .loadWrapped 0 3 { loadR with reserved := true } true
    let kek : Bool := false
    let s : State := loadState
    (c, kek) ∈ [(.load f ch r, false), (.loadWrapped f ch r ok, false), (.clear f ch r, false), (.setKek f ch r, true)] ∧
    s.dev.f R.SYS_BOOT.STATE = 4 ∧
    (r.reserved = true ∨ (kek = false ∧ r.slot.toNat % 2 ≠ r.epoch.toNat % 2)) := by decide
theorem meets_key_loads_fill_and_clear_halves_2 :
    let f : Fin 256 := 1
    let ch : Fin 16 := 3
    let r : LoadRecord := loadR
    let ok : Bool := true
    let c : Instr := .setKek 1 3 loadR
    let kek : Bool := true
    let s : State := loadState
    (c, kek) ∈ [(.load f ch r, false), (.loadWrapped f ch r ok, false), (.clear f ch r, false), (.setKek f ch r, true)] ∧
    s.dev.f R.SYS_BOOT.STATE = 4 ∧
    s.dev.loadCheck f r kek = 0x03 := by decide
theorem meets_key_loads_fill_and_clear_halves_3 :
    let f : Fin 256 := 0
    let r : LoadRecord := loadR
    let s : State := loadState.onDev (fun d => d.set R.VT_CTL.PLAIN_OK 0 1)
    s.dev.f R.SYS_BOOT.STATE = 4 ∧
    s.dev.loadCheck f r false = 0 ∧
    s.dev.f R.VT_STAT.SEC ≠ 2 ∧
    s.dev.f R.VT_CTL.PLAIN_OK = 1 ∧
    s.dev.bound (r.slot.toNat / 2) = none ∧
    s.dev.loadClash r = none ∧
    s.dev.f R.SYS_PWR.STATE ≤ 1 := by decide
theorem meets_key_loads_fill_and_clear_halves_4 :
    let f : Fin 256 := 0
    let r : LoadRecord := loadR
    let s : State := loadState.onDev (fun d => (d.set R.VT_CTL.PLAIN_OK 0 1).set R.SYS_PWR.STATE 0 2)
    s.dev.f R.SYS_BOOT.STATE = 4 ∧
    s.dev.loadCheck f r false = 0 ∧
    s.dev.f R.VT_STAT.SEC ≠ 2 ∧
    s.dev.f R.VT_CTL.PLAIN_OK = 1 ∧
    s.dev.bound (r.slot.toNat / 2) = none ∧
    s.dev.loadClash r = none ∧
    2 ≤ s.dev.f R.SYS_PWR.STATE := by decide
theorem meets_key_loads_fill_and_clear_halves_5 :
    let f : Fin 256 := 0
    let r : LoadRecord := loadR
    let old : Nat := 9
    let s : State := loadState.onDev (fun d => ((d.set R.VT_CTL.PLAIN_OK 0 1).setBound 9 (some ⟨1, 1, 0, 0, none⟩)).setHalf (halfIx 9 16 1) (some ⟨4, [1], none⟩))
    s.dev.f R.SYS_BOOT.STATE = 4 ∧
    s.dev.loadCheck f r false = 0 ∧
    s.dev.f R.VT_STAT.SEC ≠ 2 ∧
    s.dev.f R.VT_CTL.PLAIN_OK = 1 ∧
    s.dev.bound (r.slot.toNat / 2) = none ∧
    s.dev.loadClash r = some old ∧
    s.dev.pairCtx old = none := by decide
theorem meets_key_loads_fill_and_clear_halves_6 :
    let f : Fin 256 := 0
    let r : LoadRecord := loadR
    let s : State := loadState
    s.dev.f R.SYS_BOOT.STATE = 4 ∧
    s.dev.loadCheck f r false = 0 ∧
    s.dev.f R.VT_STAT.SEC ≠ 2 ∧
    s.dev.f R.VT_CTL.PLAIN_OK = 0 := by decide
theorem meets_key_loads_fill_and_clear_halves_7 :
    let f : Fin 256 := 0
    let r : LoadRecord := loadR
    let kek : List Byte := [9]
    let s : State := loadState.onDev (fun d => { d with keks := [(5, [9])] })
    s.dev.f R.SYS_BOOT.STATE = 4 ∧
    s.dev.loadCheck f r false = 0 ∧
    s.dev.f R.VT_STAT.SEC ≠ 2 ∧
    s.dev.f R.VT_STAT.TRNG_OK = 1 ∧
    s.dev.keks.find? (fun e => e.1 == r.tenant.toNat) = some (r.tenant.toNat, kek) ∧
    s.dev.bound (r.slot.toNat / 2) = none ∧
    s.dev.loadClash r = none ∧
    s.dev.f R.SYS_PWR.STATE ≤ 1 := by decide
theorem meets_key_loads_fill_and_clear_halves_8 :
    let f : Fin 256 := 0
    let r : LoadRecord := loadR
    let s : State := loadState.onDev (fun d => { d with keks := [(5, [9])] })
    s.dev.f R.SYS_BOOT.STATE = 4 ∧
    s.dev.loadCheck f r false = 0 ∧
    s.dev.f R.VT_STAT.SEC ≠ 2 ∧
    s.dev.f R.VT_STAT.TRNG_OK = 1 := by decide
theorem meets_key_loads_fill_and_clear_halves_9 :
    let f : Fin 256 := 0
    let r : LoadRecord := loadR
    let s : State := loadState.onDev (fun d => d.setHalf (halfIx 8 0 1) (some ⟨4, [1], none⟩))
    s.dev.f R.SYS_BOOT.STATE = 4 ∧
    s.dev.loadCheck f r false = 0 ∧
    s.dev.f R.VT_STAT.SEC ≠ 2 ∧
    s.dev.pairCtx (r.slot.toNat / 2) = none := by decide
theorem meets_key_loads_fill_and_clear_halves_10 :
    let f : Fin 256 := 0
    let r : LoadRecord := { loadR with epoch := 1 }
    let s : State := loadState.onDev (fun d => { d with keks := [(5, [9]), (6, [8])] })
    s.dev.f R.SYS_BOOT.STATE = 4 ∧
    s.dev.loadCheck f r true = 0 ∧
    s.dev.f R.VT_STAT.SEC ≠ 2 ∧
    s.dev.f R.VT_STAT.TRNG_OK = 1 := by decide
theorem meets_key_loads_fill_and_clear_halves_11 :
    let f : Fin 256 := 0
    let r : LoadRecord := loadR
    let s : State := loadState.onDev (fun d => d.set R.VT_STAT.TRNG_OK 0 0)
    s.dev.f R.SYS_BOOT.STATE = 4 ∧
    s.dev.loadCheck f r true = 0 ∧
    s.dev.f R.VT_STAT.SEC ≠ 2 ∧
    s.dev.f R.VT_STAT.TRNG_OK = 0 := by decide
theorem meets_key_loads_fill_and_clear_halves_12 :
    let n : Fin 1024 := 1023
    let v : Word := 0x17FFF
    let s : State := loadState
    s.dev.f R.SYS_BOOT.STATE = 4 ∧
    s.dev.f R.TENANT.ENABLE n = 0 ∧
    s.dev.tenantIdle n = true ∧
    s.dev.pairsClash n (wrote .full v R.VTTEN.PAIR_BASE) (wrote .full v R.VTTEN.PAIR_COUNT) = false := by decide
theorem meets_key_loads_fill_and_clear_halves_13 :
    let n : Fin 1024 := 1023
    let v : Word := 0x20007
    let s : State := loadState
    s.dev.f R.SYS_BOOT.STATE = 4 ∧
    s.dev.f R.TENANT.ENABLE n = 0 ∧
    s.dev.tenantIdle n = true ∧
    s.dev.pairsClash n (wrote .full v R.VTTEN.PAIR_BASE) (wrote .full v R.VTTEN.PAIR_COUNT) = true := by decide
theorem meets_key_loads_fill_and_clear_halves_14 :
    let n : Fin 1024 := 5
    let v : Word := 0x00008
    let s : State := loadState.onDev (fun d => d.set R.TENANT.ENABLE 5 1)
    s.dev.f R.SYS_BOOT.STATE = 4 ∧
    s.dev.f R.TENANT.ENABLE n = 1 ∧
    wrote .full v R.VTTEN.PAIR_COUNT ≠ s.dev.f R.VTTEN.PAIR_COUNT n := by decide

/-! SensorsAndPowerGatesActOnClusters -/

/-- A context bound to cluster 9 with something queued. -/
def clusterCtx : Ctx := { Ctx.empty with state := .opened, job := 1, site := 1, cls := 1, pair := 5, cluster := 9, reserved := true, sendq := [cutItem] }
/-- It is context 4; wing 0 is present; a half of its pair holds a key. -/
def busyCluster : State := (mkReady [(R.GLOBAL_ID.WING_MASK, 0, 1)]).onDev (fun d => (d.setCtx 4 clusterCtx).setHalf 23 (some ⟨0, [1], none⟩))
theorem meets_sensors_and_power_gates_act_on_clusters_1 :
    let i : Fin 16 := 7
    i.val < 8 := by decide
theorem meets_sensors_and_power_gates_act_on_clusters_3 :
    let i : Fin 16 := 12
    9 ≤ i.val ∧
    i.val < 13 := by decide
theorem meets_sensors_and_power_gates_act_on_clusters_4 :
    let i : Fin 16 := 13
    let ir : JtagInstr := .other
    let s : State := mkReady []
    13 ≤ i.val ∧
    ¬ (i.val = 13 ∧ s.dev.jtagDecode ir = ir) := by decide
theorem meets_sensors_and_power_gates_act_on_clusters_5 :
    let ir : JtagInstr := .sample
    let s : State := mkReady []
    (s.dev.f R.VT_STAT.DBG ≠ 0 ∨ ir = .bypass ∨ ir = .idcode ∨ ir = .sample) := by decide
theorem meets_sensors_and_power_gates_act_on_clusters_6 :
    let s : State := (mkReady [(R.VT_SENSE.LIVE, 0, 0x8180)])
    s.dev.ctxs = [] ∧
    s.dev.halves = [] := by decide
theorem meets_sensors_and_power_gates_act_on_clusters_7 :
    let n : Fin 128 := 39
    let s : State := mkReady [(R.GLOBAL_ID.WING_MASK, 0, 15), (R.VT_PWR_RES.GATED, 0, 1)]
    s.dev.f R.SYS_BOOT.STATE = 4 ∧
    s.dev.gateReq = none ∧
    s.dev.gateTarget n = true ∧
    s.dev.gateReady n = true ∧
    n.val < 40 ∧
    s.dev.clusterCtxs n = [] := by decide
theorem meets_sensors_and_power_gates_act_on_clusters_8 :
    let n : Fin 128 := 67
    let s : State := mkReady [(R.GLOBAL_ID.WING_MASK, 0, 15), (R.SYS_PWR.STATE, 0, 1)]
    s.dev.f R.SYS_BOOT.STATE = 4 ∧
    s.dev.gateReq = none ∧
    s.dev.gateTarget n = true ∧
    s.dev.gateReady n = true ∧
    40 ≤ n.val := by decide
theorem meets_sensors_and_power_gates_act_on_clusters_9 :
    let n : Fin 128 := 9
    let s : State := busyCluster
    s.dev.f R.SYS_BOOT.STATE = 4 ∧
    s.dev.gateReq = none ∧
    s.dev.gateTarget n = true ∧
    s.dev.gateReady n = false := by decide
theorem meets_sensors_and_power_gates_act_on_clusters_10 :
    let n : Fin 128 := 63
    let s : State := mkReady [(R.GLOBAL_ID.WING_MASK, 0, 15)]
    s.dev.f R.SYS_BOOT.STATE = 4 ∧
    s.dev.gateReq = none ∧
    s.dev.gateTarget n = false := by decide
theorem meets_sensors_and_power_gates_act_on_clusters_11 :
    let n : Fin 128 := 67
    let s : State := mkReady [(R.GLOBAL_ID.WING_MASK, 0, 15), (R.VT_PWR_RES.GATED, 0, 2 ^ 40 - 1)]
    s.dev.f R.SYS_BOOT.STATE = 4 ∧
    s.dev.gateReq = none ∧
    s.dev.gateTarget n = true := by decide
theorem meets_sensors_and_power_gates_act_on_clusters_12 :
    let n : Nat := 9
    let s : State := busyCluster.onDev (fun d => { d with gateReq := some 9, now := 9999999 })
    s.dev.gateReq = some n ∧
    s.dev.gateReady n = false ∧
    s.dev.now - s.dev.gateAt < 10000000 := by decide
theorem meets_sensors_and_power_gates_act_on_clusters_13 :
    let n : Nat := 67
    let s : State := mkReady [(R.VT_PWR_REQ.GO, 0, 1)] |> fun s => s.onDev (fun d => { d with gateReq := some 67 })
    s.dev.gateReq = some n ∧
    s.dev.gateReady n = true ∧
    40 ≤ n := by decide
theorem meets_sensors_and_power_gates_act_on_clusters_14 :
    let n : Nat := 9
    let s : State := busyCluster.onDev (fun d => { d.set R.VT_PWR_REQ.GO 0 1 with gateReq := some 9, now := 10000000 })
    s.dev.gateReq = some n ∧
    s.dev.gateReady n = false ∧
    10000000 ≤ s.dev.now - s.dev.gateAt := by decide
theorem meets_sensors_and_power_gates_act_on_clusters_15 :
    let s : State := mkReady []
    s.dev.gateReq = none := by decide
theorem meets_sensors_and_power_gates_act_on_clusters_16 :
    let k : Fin 40 := 9
    let c : Nat := 4
    let x : Ctx := clusterCtx
    let s : State := busyCluster
    s.dev.ctxs = [(c, x)] ∧
    x.reserved = true ∧
    x.cluster = k.val ∧
    s.dev.fenced (k.val / 10) = false ∧
    x.state = .opened ∧
    NothingWaits s := by decide
theorem meets_sensors_and_power_gates_act_on_clusters_17 :
    let k : Fin 40 := 8
    let s : State := busyCluster
    s.dev.clusterCtxs k = [] := by decide
theorem meets_sensors_and_power_gates_act_on_clusters_18 :
    let n : Nat := 39
    let s : State := (mkReady [(R.GLOBAL_ID.WING_MASK, 0, 15), (R.VT_PWR_REQ.GO, 0, 1)]).onDev (fun d => { d with gateReq := some 39 })
    s.dev.gateReq = some n ∧
    s.dev.gateReady n = true ∧
    n < 40 ∧
    s.dev.clusterCtxs n = [] := by decide
theorem meets_sensors_and_power_gates_act_on_clusters_19 :
    let n : Nat := 9
    let s : State := (mkReady [(R.GLOBAL_ID.WING_MASK, 0, 1), (R.VT_PWR_REQ.GO, 0, 1), (R.VT_PWR_RES.GATED, 0, 0x1FF)]).onDev (fun d => { d.setCtx 4 { clusterCtx with sendq := [] } with gateReq := some 9 })
    s.dev.gateReq = some n ∧
    s.dev.gateReady n = true ∧
    n < 40 ∧
    s.dev.clusterRoom n = false := by decide

/-! MemoryAnswersReachTheirRequests -/

/-- An LRM packet of an endpoint of this fabric to this gateway (prefix 0, endpoint 0), its checksum right. -/
def lrmPkt (typ tenant ep tag addr : Nat) (payload : List Byte) : LrmPacket :=
  let src := zeros 13 ++ beBytes 3 ep
  let body := lrmHeader typ tenant tag addr ++ payload
  let udp0 := beBytes 2 0xC000 ++ beBytes 2 0x4C68 ++ beBytes 2 (8 + body.length)
  let ck := udpChecksum (pseudoHeader src (zeros 16) (udp0 ++ beBytes 2 0 ++ body))
  ⟨zeros 12 ++ [0x86, 0xDD] ++ beBytes 4 (6 * 2 ^ 28) ++ beBytes 2 (8 + body.length) ++ [17, 64] ++ src ++ zeros 16 ++ udp0 ++ beBytes 2 ck ++ body ++ zeros 4⟩
/-- A read of 128 bytes at endpoint 100 for the descriptors of ring 3. -/
def fetchReq : Req :=
  { tag := 7, use := .fetch 3, write := false, host := false, node := 100, addr := 4096, len := 128, data := [], parts := [], tenant := 9, attempts := 1, sentAt := 0 }
/-- Logical port 5 is up, this gateway is endpoint 0; ring 3 reads two descriptors. -/
def portUp (l : List Req) : State := (mk [(R.FAB_CTL.ENABLE, 0, 1), (R.FAB_PORT_STAT.UP, 1, 2), (R.FAB_PORT_CFG.MODE, 1, 1), (R.FAB_SELF.SELF_EP, 0, 0),
  (R.SQ_STATE.HEAD, 3, 2 ^ 32 - 1)]).onDev (fun d => { d.setRing 3 { d.ring 3 with reading := some (0, 2) } with reqs := l })
/-- Ring 3 belongs to tenant 9 and takes doorbells of endpoint 100. -/
def fabRing : State := mk [(R.FAB_CTL.ENABLE, 0, 1), (R.FAB_PORT_STAT.UP, 1, 2), (R.FAB_PORT_CFG.MODE, 1, 1), (R.FAB_SELF.SELF_EP, 0, 0), (R.SQ_CTL.TENANT, 3, 9),
  (R.SQ_CTL.LOC, 3, 1), (R.SQ_BIND.SRC, 3, 100), (R.SQ_CTL.ENABLE, 3, 1), (R.SQ_CTL.SIZE_LOG, 3, 8), (R.SQ_STATE.HEAD, 3, 1), (R.SQ_STATE.TAIL, 3, 1)]
theorem meets_memory_answers_reach_their_requests_1 :
    let p : Fin 128 := 5
    let m : LrmPacket := lrmPkt 2 9 100 7 4160 (zeros 64)
    let q : Req := fetchReq
    let s : State := portUp [fetchReq]
    LrmArrives s p m 2 ∧
    (lrmParse m.raw).ce = false ∧
    s.dev.reqFor (lrmParse m.raw) false = some q ∧
    gathered q.addr q.len (q.parts ++ [((lrmParse m.raw).addr, (lrmParse m.raw).payload)]) = none := by decide
theorem meets_memory_answers_reach_their_requests_2 :
    let p : Fin 128 := 5
    let m : LrmPacket := lrmPkt 2 9 100 7 4096 (zeros 128)
    let q : Req := fetchReq
    let n : Fin 4096 := 3
    let a : Nat := 0
    let k : Nat := 2
    let data : List Byte := zeros 128
    let s : State := portUp [fetchReq]
    LrmArrives s p m 2 ∧
    (lrmParse m.raw).ce = false ∧
    s.dev.reqFor (lrmParse m.raw) false = some q ∧
    q.use = .fetch n ∧
    (s.dev.ring n).reading = some (a, k) ∧
    gathered q.addr q.len (q.parts ++ [((lrmParse m.raw).addr, (lrmParse m.raw).payload)]) = some data := by decide
theorem meets_memory_answers_reach_their_requests_3 :
    let p : Fin 128 := 5
    let m : LrmPacket := lrmPkt 4 9 100 7 0 []
    let id : Nat := 42
    let y : Coll := { tourColl with owed := 3 }
    let q : Req := { fetchReq with write := true, use := .collWrite 42 }
    let s : State := (portUp [{ fetchReq with write := true, use := .collWrite 42 }]).onDev (fun d => { d with colls := [{ tourColl with owed := 3 }] })
    LrmArrives s p m 4 ∧
    s.dev.reqFor (lrmParse m.raw) true = some q ∧
    q.use = .collWrite id ∧
    s.dev.coll id = some y ∧
    s.dev.recovery = none := by decide
theorem meets_memory_answers_reach_their_requests_4 :
    let p : Fin 128 := 5
    let m : LrmPacket := lrmPkt 4 9 100 7 0 []
    let q : Req := { fetchReq with write := true, use := .record 4095, data := [1, 2] }
    let c : Nat := 4095
    let s : State := portUp [{ fetchReq with write := true, use := .record 4095, data := [1, 2] }]
    LrmArrives s p m 4 ∧
    s.dev.reqFor (lrmParse m.raw) true = some q ∧
    q.use = .record c ∧
    s.dev.recovery = none := by decide
theorem meets_memory_answers_reach_their_requests_5 :
    let p : Fin 128 := 5
    let m : LrmPacket := lrmPkt 4 9 100 8 0 []
    let s : State := portUp [{ fetchReq with write := true, use := .collWrite 42 }]
    LrmArrives s p m 4 ∧
    s.dev.reqFor (lrmParse m.raw) true = none := by decide
theorem meets_memory_answers_reach_their_requests_6 :
    let p : Fin 128 := 5
    let m : LrmPacket := lrmPkt 7 9 100 7 0 []
    let q : Req := { fetchReq with write := true, use := .record 4095 }
    let c : Nat := 4095
    let s : State := portUp [{ fetchReq with write := true, use := .record 4095 }]
    LrmArrives s p m 7 ∧
    s.dev.reqFor (lrmParse m.raw) false = none ∧
    s.dev.reqFor (lrmParse m.raw) true = some q ∧
    q.use = .record c ∧
    s.dev.recovery = none := by decide
theorem meets_memory_answers_reach_their_requests_7 :
    let p : Fin 128 := 127
    let m : LrmPacket := lrmPkt 6 9 100 7 0 []
    let i : Nat := 16383
    let x : Limiter := ⟨9, 100, true, 8000, 0, 0, 0⟩
    let s : State := (portUp []).onDev (fun d => { (d.set R.FAB_PORT_STAT.UP 31 15).set R.FAB_PORT_CFG.MODE 31 3 with now := 4000, limiters := [(5, ⟨9, 101, true, 1, 0, 0, 0⟩), (16383, ⟨9, 100, true, 8000, 0, 0, 0⟩)] })
    LrmArrives s p m 6 ∧
    s.dev.limiterOf (lrmParse m.raw).tenant (lrmParse m.raw).ep true = some (i, x) ∧
    max (s.dev.f R.FAB_ECN.CNP_INT) 1 * 1000 ≤ s.dev.now - x.cut := by decide
theorem meets_memory_answers_reach_their_requests_8 :
    let p : Fin 128 := 5
    let m : LrmPacket := lrmPkt 5 9 100 0 (3 * 2 ^ 48 + 2) []
    let n : Fin 4096 := 3
    let s : State := fabRing
    LrmArrives s p m 5 ∧
    (lrmParse m.raw).addr / 2 ^ 63 = 0 ∧
    (lrmParse m.raw).addr / 2 ^ 48 % 2 ^ 13 = n.val ∧
    s.dev.f R.SQ_CTL.TENANT n = (lrmParse m.raw).tenant ∧
    s.dev.f R.SQ_CTL.LOC n = 1 ∧
    s.dev.f R.SQ_BIND.SRC n = (lrmParse m.raw).ep ∧
    s.dev.f R.SQ_CTL.ENABLE n = 1 ∧
    (s.dev.ring n).tear = 0 := by decide
theorem meets_memory_answers_reach_their_requests_9 :
    let p : Fin 128 := 5
    let m : LrmPacket := lrmPkt 5 8 100 0 (3 * 2 ^ 48 + 2) []
    let n : Fin 4096 := 3
    let s : State := fabRing
    LrmArrives s p m 5 ∧
    (lrmParse m.raw).addr / 2 ^ 63 = 0 ∧
    (lrmParse m.raw).addr / 2 ^ 48 % 2 ^ 13 = n.val ∧
    s.dev.f R.SQ_CTL.TENANT n ≠ (lrmParse m.raw).tenant := by decide
theorem meets_memory_answers_reach_their_requests_10 :
    let p : Fin 128 := 5
    let m : LrmPacket := ⟨zeros 82⟩
    let s : State := portUp []
    s.dev.f R.FAB_CTL.ENABLE = 1 ∧
    s.dev.lportUp p = true ∧
    s.dev.f R.FAB_HS.EN = 0 ∧
    s.dev.lrmOk m.raw = false := by decide
theorem meets_memory_answers_reach_their_requests_11 :
    let p : Fin 128 := 6
    let s : State := portUp []
    s.dev.lportUp p = false := by decide
theorem meets_memory_answers_reach_their_requests_12 :
    let tag : BitVec 32 := 7
    let q : Req := { fetchReq with attempts := 7, parts := [(0, [])] }
    let s : State := (portUp [{ fetchReq with attempts := 7, parts := [(0, [])] }]).onDev (fun d => { d with now := max (d.f R.FAB_RETRY.RTO) 1 * 1000 })
    s.dev.reqs = [q] ∧
    q.tag = tag.toNat ∧
    q.host = false ∧
    0 < q.attempts ∧
    q.attempts < 8 ∧
    q.rto ≤ s.dev.now - q.sentAt := by decide
theorem meets_memory_answers_reach_their_requests_13 :
    let tag : BitVec 32 := 7
    let q : Req := { fetchReq with attempts := 8, use := .record 4095 }
    let c : Nat := 4095
    let s : State := (portUp [{ fetchReq with attempts := 8, use := .record 4095 }]).onDev (fun d => { d with now := max (d.f R.FAB_RETRY.RTO) 1 * 1000 })
    s.dev.reqs = [q] ∧
    q.tag = tag.toNat ∧
    q.host = false ∧
    8 ≤ q.attempts ∧
    q.use = .record c ∧
    s.dev.recovery = none ∧
    q.rto ≤ s.dev.now - q.sentAt := by decide
theorem meets_memory_answers_reach_their_requests_14 :
    let q : Req := { fetchReq with rto := 5000 }
    let s : State := (portUp [{ fetchReq with rto := 5000 }]).onDev (fun d => { d with now := 4999 })
    s.dev.reqs = [q] ∧
    s.dev.now - q.sentAt < q.rto := by decide
theorem meets_memory_answers_reach_their_requests_15 :
    let p : Fin 128 := 127
    let s : State := (portUp []).onDev (fun d => d.set R.FAB_PORT_CFG.MODE 31 3)
    s.dev.lportExists p = true := by decide
theorem meets_memory_answers_reach_their_requests_16 :
    let p : Fin 128 := 5
    let s : State := (portUp [fetchReq]).onDev (fun d => d.setPortQueue 5 [⟨3, 9, 100, 7, 0, [], false, 0⟩])
    s.dev.lportUp p = true := by decide
theorem meets_memory_answers_reach_their_requests_17 :
    let i : Fin 16384 := 16383
    let x : Limiter := ⟨9, 100, true, 7900, 0, 0, 0⟩
    let p : Nat := 5
    let s : State := (portUp []).onDev (fun d => { (d.set R.FAB_PORT_CFG.EN 1 1).set R.FAB_PORT_STAT.UP 1 2 with limiters := [(16383, ⟨9, 100, true, 7900, 0, 0, 0⟩)], now := 10 ^ 9 })
    s.dev.limiters = [(i.val, x)] ∧
    s.dev.egressPort x.ep x.tenant = some p ∧
    max (s.dev.f R.FAB_ECN.RAI_INT) 1 * 1000 ≤ s.dev.now - x.raised :=
  ⟨by decide, Sys2Proof.Laws.egressPort_of_egress_single (by decide) _ _, by decide⟩
theorem meets_memory_answers_reach_their_requests_18 :
    let i : Fin 16384 := 16383
    let x : Limiter := ⟨9, 100, true, 7900, 0, 0, 0⟩
    let s : State := (portUp []).onDev (fun d => { d with limiters := [(16383, ⟨9, 100, true, 7900, 0, 0, 0⟩)] })
    s.dev.limiters = [(i.val, x)] ∧
    s.dev.now - x.raised < max (s.dev.f R.FAB_ECN.RAI_INT) 1 * 1000 := by decide
theorem meets_memory_answers_reach_their_requests_19 :
    let tag : BitVec 32 := 7
    let data : List Byte := zeros 128
    let q : Req := { fetchReq with host := true }
    let n : Fin 4096 := 3
    let a : Nat := 0
    let k : Nat := 2
    let s : State := portUp [{ fetchReq with host := true }]
    s.dev.reqs.find? (fun r => r.tag == tag.toNat && r.host && !r.write) = some q ∧
    data.length = q.len ∧
    q.use = .fetch n ∧
    (s.dev.ring n).reading = some (a, k) := by decide
theorem meets_memory_answers_reach_their_requests_20 :
    let tag : BitVec 32 := 7
    let s : State := portUp [fetchReq]
    s.dev.reqs.any (fun r => r.tag == tag.toNat && r.host && !r.write) = false := by decide

/-! QueuesFlitsAndSkewAreServed -/

theorem meets_queues_flits_and_skew_are_served_1 :
    let n : Fin 256 := 5
    let q : LrmOut := ⟨3, 9, 100, 7, 0, [1], false, 0⟩
    let s : State := (portUp []).onDev (fun d => (d.set R.FAB_PORT_CFG.EN 1 1).setPortQueue 5 [⟨3, 9, 100, 7, 0, [1], false, 0⟩])
    n.val < 128 ∧
    s.dev.f R.FAB_CTL.ENABLE = 1 ∧
    s.dev.lportUp n = true ∧
    s.dev.f R.FAB_PORT_CFG.EN (n.val / 4) = 1 ∧
    s.dev.portQueue n = [q] ∧
    s.dev.ptpQueue n = [] ∧
    (∀ r ∈ s.dev.reqs, 0 < r.attempts) ∧
    s.dev.limiterOf q.tenant q.ep (q.typ == 3) = none ∧
    s.dev.f R.FAB_HS.EN = 0 := by decide
theorem meets_queues_flits_and_skew_are_served_2 :
    let n : Fin 256 := 145
    let c : Nat := 4
    let x : Ctx := { cutState.dev.ctx 4 with log := [{ sentSeg 7 with attempts := 0, carrier := 17, receipted := false, resend := false }] }
    let g : LogEnt := { sentSeg 7 with attempts := 0, carrier := 17, receipted := false, resend := false }
    let s : State := cutState.onDev (fun d => { d with ctxs := [(4, { d.ctx 4 with log := [{ sentSeg 7 with attempts := 0, carrier := 17, receipted := false, resend := false }] })] })
    128 ≤ n.val ∧
    s.dev.lineQueues (n.val - 128) = [(c, x, g)] ∧
    s.dev.ctx c = x ∧
    x.log = [g] ∧
    (∀ e ∈ s.dev.ctxs, e.1 ≠ c → e.2.log = []) ∧
    g.attempts = 0 ∧
    s.dev.mayCarry (n.val - 128) x = true ∧
    s.dev.marginAdmits (n.val - 128) x = true ∧
    (s.dev.kwOf (n.val - 128)).txGuard = false := by decide
theorem meets_queues_flits_and_skew_are_served_3 :
    let p : Fin 128 := 127
    let q : LrmOut := ⟨3, 1023, 100, 7, 0, [1], false, 3⟩
    let s : State := (portUp []).onDev (fun d => { d.setPortQueue 127 [⟨3, 1023, 100, 7, 0, [1], false, 3⟩] with now := 100 })
    s.dev.portQ = [(p.val, [q])] ∧
    s.dev.ctxs = [] ∧
    s.dev.listed 11 = [] ∧
    q.tenant < 1024 := by decide
theorem meets_queues_flits_and_skew_are_served_4 :
    let i : Nat := 262143
    let s : State := mkReady [(R.FAB_QS_SEL.QUEUE, 0, 262143), (R.FAB_QS_SEL.WORD, 0, 1), (R.FABQS.LAST1, 262143, 5), (R.FABQS.MAX1, 262143, 9)]
    s.dev.f R.SYS_BOOT.STATE = 4 ∧
    s.dev.f R.FAB_QS_SEL.QUEUE = i ∧
    s.dev.f R.FAB_QS_SEL.WORD = 1 := by decide
theorem meets_queues_flits_and_skew_are_served_5 :
    let a : Fin 8 := 7
    let b : Fin 8 := 3
    let s : State := mk [(R.GLOBAL_ID.WING_MASK, 0, 15)]
    s.dev.stopServes a = true ∧
    s.dev.stopServes b = true ∧
    a ≠ b ∧
    s.dev.ringWait = [] ∧
    s.dev.flitPasses a (Machine.ringUp a b) = false := by decide
theorem meets_queues_flits_and_skew_are_served_6 :
    let a : Fin 8 := 7
    let x : RingFlit := ⟨2, 7, true, 3, 0, 4⟩
    let vc : Fin 3 := 2
    let s : State := (mk [(R.GLOBAL_ID.WING_MASK, 0, 15)]).onDev (fun d => { d with ringFlits := [⟨2, 7, true, 3, 0, 4⟩], now := 4 })
    s.dev.stopServes a = true ∧
    s.dev.ringFlits = [x] ∧
    x.dst = a.val ∧
    x.vc = vc.val ∧
    s.dev.flitThere x = true := by decide
theorem meets_queues_flits_and_skew_are_served_7 :
    let k : Fin 8 := 7
    let l : List Nat := List.replicate 31 0 ++ [9]
    let s : State := mk [(R.GLOBAL_ID.WING_MASK, 0, 15), (R.CUR_STATE.ALIVE, 0, 1)]
    s.dev.f R.CUR_STATE.ALIVE = 1 ∧
    s.dev.wingPresent (k.val / 2) = true ∧
    l.length = 32 ∧
    l.sum ≠ 0 ∧
    s.dev.f R.SYS_HBMREG.SKEW_THR * l.sum ≤ l.getD (busiest l) 0 * 32 * 16 := by decide
theorem meets_queues_flits_and_skew_are_served_8 :
    let k : Fin 8 := 7
    let l : List Nat := List.replicate 32 9
    let s : State := (mk [(R.GLOBAL_ID.WING_MASK, 0, 15), (R.CUR_STATE.ALIVE, 0, 1)]).onDev (fun d => { d with skewRuns := [(7, 7)] })
    s.dev.f R.CUR_STATE.ALIVE = 1 ∧
    s.dev.wingPresent (k.val / 2) = true ∧
    l.length = 32 ∧
    l.getD (busiest l) 0 * 32 * 16 < s.dev.f R.SYS_HBMREG.SKEW_THR * l.sum := by decide
theorem meets_queues_flits_and_skew_are_served_9 :
    let n : Fin 256 := 5
    let x : PtpOut := ⟨ptpSync, true, .whole⟩
    let s : State := (portUp []).onDev (fun d => d.setPtpQueue 5 [⟨ptpSync, true, .whole⟩])
    n.val < 128 ∧
    s.dev.lportUp n = true ∧
    s.dev.ptpQueue n = [x] ∧
    s.dev.f R.FAB_HS.EN = 0 ∧
    x.due = .whole := by decide
theorem meets_queues_flits_and_skew_are_served_10 :
    let a : Fin 8 := 7
    let b : Fin 8 := 1
    let s : State := (mk [(R.GLOBAL_ID.WING_MASK, 0, 15)]).onDev (fun d => { d with ringFlits := [⟨0, 0, true, 6, 0, 2⟩], now := 1 })
    s.dev.stopServes a = true ∧
    s.dev.stopServes b = true ∧
    a ≠ b ∧
    s.dev.ringWait = [] ∧
    s.dev.flitPasses a (Machine.ringUp a b) = true := by decide
theorem meets_queues_flits_and_skew_are_served_11 :
    let x : RingFlit := ⟨2, 7, true, 3, 0, 4⟩
    let s : State := (mk [(R.GLOBAL_ID.WING_MASK, 0, 15)]).onDev (fun d => { d with ringFlits := [⟨2, 7, true, 3, 0, 4⟩], now := 3 })
    s.dev.ringFlits = [x] ∧
    s.dev.flitThere x = false := by decide

/-! RingsTakeDoorbellsFetchAndTearDown -/

/-- Ring n of function 0 with 4 slots in host memory, so many descriptors waiting, its queue 7 with 4 slots; its teardown as given. -/
def ringState (n fill tear : Nat) : State := (mkReady [(R.GLOBAL_CTL.TEN_EN, 0, 1), (R.SQ_CTL.ENABLE, n, 1), (R.SQ_CTL.SIZE_LOG, n, 2), (R.SQ_CTL.CQ, n, 7),
  (R.SQ_BASE.ADDR, n, 4096), (R.SQ_STATE.TAIL, n, fill), (R.CQ_CTL.SIZE_LOG, 7, 2), (R.CQ_CTL.ENABLE, 7, 1), (R.CQ_BASE.ADDR, 7, 8192),
  (R.CQ_CREDIT.RESERVED, 7, 2)]).onDev (fun d => d.setRing n { d.ring n with tear := tear })
theorem meets_rings_take_doorbells_fetch_and_tear_down_1 :
    let f : Fin 256 := 0
    let n : Fin 4096 := 4095
    let index : BitVec 32 := 4
    let s : State := ringState 4095 0 0
    s.dev.f R.SYS_BOOT.STATE = 4 ∧
    s.dev.f R.SQ_CTL.LOC n = 0 ∧
    s.dev.f R.SQ_BIND.SRC n = f ∧
    s.dev.f R.SQ_CTL.ENABLE n = 1 ∧
    (s.dev.ring n).tear = 0 ∧
    (s.dev.f R.SQ_STATE.TAIL n + 2 ^ 32 - s.dev.f R.SQ_STATE.HEAD n) % 2 ^ 32 ≤ (index.toNat + 2 ^ 32 - s.dev.f R.SQ_STATE.HEAD n) % 2 ^ 32 ∧
    (index.toNat + 2 ^ 32 - s.dev.f R.SQ_STATE.HEAD n) % 2 ^ 32 ≤ 2 ^ s.dev.f R.SQ_CTL.SIZE_LOG n := by decide
theorem meets_rings_take_doorbells_fetch_and_tear_down_2 :
    let n : Nat := 4095
    let s : State := ringState 4095 4 0
    s.dev.ringList.filter s.dev.canFetch = [n] ∧
    s.dev.f R.SQ_CTL.LOC n = 0 := by decide
theorem meets_rings_take_doorbells_fetch_and_tear_down_3 :
    let s : State := ringState 4095 0 0
    s.dev.ringList.filter s.dev.canFetch = [] := by decide
theorem meets_rings_take_doorbells_fetch_and_tear_down_4 :
    let n : Fin 4096 := 4095
    let tag : Nat := 7
    let k : Nat := 2
    let s : State := (ringState 4095 4 0).onDev (fun d => { d.setRing 4095 { d.ring 4095 with reading := some (7, 2) } with reqs := [{ fetchReq with use := .fetch 4095, host := true }] })
    (s.dev.ring n).reading = some (tag, k) ∧
    (s.dev.ring n).tear = 0 ∧
    s.dev.f R.SQ_STATE.TAIL n ≠ s.dev.f R.SQ_STATE.HEAD n := by decide
theorem meets_rings_take_doorbells_fetch_and_tear_down_5 :
    let n : Fin 4096 := 4095
    let s : State := ringState 4095 4 0
    (s.dev.ring n).reading = none := by decide
theorem meets_rings_take_doorbells_fetch_and_tear_down_6 :
    let n : Fin 4096 := 4095
    let s : State := ringState 4095 4 0
    s.dev.f R.SYS_BOOT.STATE = 4 ∧
    (s.dev.ring n).tear = 0 ∧
    (s.dev.ring n).reading = none ∧
    (s.dev.ring n).fetched = [] ∧
    s.dev.opsOf n = [] := by decide
theorem meets_rings_take_doorbells_fetch_and_tear_down_7 :
    let n : Fin 4096 := 4095
    let s : State := ringState 4095 4 1
    s.dev.f R.SYS_BOOT.STATE = 4 ∧
    (s.dev.ring n).tear = 1 := by decide
theorem meets_rings_take_doorbells_fetch_and_tear_down_8 :
    let n : Fin 4096 := 4095
    let s : State := ringState 4095 4 2
    (s.dev.ring n).tear ≠ 0 ∧
    s.dev.f R.SQ_STATE.TAIL n ≠ s.dev.f R.SQ_STATE.HEAD n ∧
    s.dev.cqCredit (s.dev.f R.SQ_CTL.CQ n) ≠ 0 ∧
    s.dev.f R.SQ_CTL.LOC n = 0 ∧
    s.dev.f R.CQ_CTL.LOC (s.dev.f R.SQ_CTL.CQ n) = 0 := by decide

/-! PeersAreSuspectedVouchedAndLost -/

/-- Peer 0 of `peerUp` in the state given, its lease to 1,000 ns. -/
def peerOf0 (st : Nat) : State := peerUp.onDev (fun d =>
  { (d.set R.HEALTH_PEER.STATE 0 st).set R.TIME_CTL.AUTO 0 0 with peers := [(0, { d.peer 0 with deadline := 1000 })], ctlKeys := [(0, [1], [2], [3])] })
/-- A context OPEN toward site 1. -/
def onPeer : Ctx := { Ctx.empty with state := .opened, job := 1, site := 1, gen := 9 }
/-- A NOTE of site 1. -/
def noteM (suspect lost : BitVec 32) : NoteMsg := { site := 1, suspect := suspect, lost := lost, gwId := 0 }
theorem meets_peers_are_suspected_vouched_and_lost_1 :
    let p : Fin 4096 := 0
    let s : State := (peerOf0 0).onDev (fun d => { d.setPeer 0 { d.peer 0 with deadline := max (d.f R.HEALTH_LEASE.SUSPECT_MS) 1 * 1000000 + 1 } with now := max (d.f R.HEALTH_LEASE.SUSPECT_MS) 1 * 1000000 })
    s.dev.f R.HEALTH_PEER.STATE p = 0 ∧
    s.dev.f R.TIME_CTL.AUTO = 0 ∧
    s.dev.now < (s.dev.peer p).deadline ∧
    max (s.dev.f R.HEALTH_LEASE.SUSPECT_MS) 1 * 1000000 ≤ s.dev.now - (s.dev.peer p).last := by decide
theorem meets_peers_are_suspected_vouched_and_lost_2 :
    let p : Fin 4096 := 0
    let s : State := (peerOf0 0).onDev (fun d => { d with now := max (d.f R.HEALTH_LEASE.SUSPECT_MS) 1 * 1000000 - 1 })
    (s.dev.f R.HEALTH_PEER.STATE p ≠ 0 ∨ (s.dev.peer p).deadline ≤ s.dev.now ∨ s.dev.now - (s.dev.peer p).last < max (s.dev.f R.HEALTH_LEASE.SUSPECT_MS) 1 * 1000000) := by decide
theorem meets_peers_are_suspected_vouched_and_lost_3 :
    let p : Fin 4096 := 0
    let s : State := (peerOf0 1).onDev (fun d => { d with now := 1000 })
    s.dev.f R.HEALTH_PEER.STATE p ≤ 1 ∧
    (s.dev.peer p).deadline ≤ s.dev.now ∧
    s.dev.f R.TIME_CTL.AUTO = 0 ∧
    s.dev.ctxs = [] ∧
    s.dev.colls = [] ∧
    s.dev.pubs = [] ∧
    s.dev.deltasIn = [] := by decide
theorem meets_peers_are_suspected_vouched_and_lost_4 :
    let p : Fin 4096 := 0
    let c : Nat := 4
    let x : Ctx := onPeer
    let s : State := (peerOf0 1).onDev (fun d => { d with now := 1000, ctxs := [(4, onPeer)] })
    s.dev.f R.HEALTH_PEER.STATE p ≤ 1 ∧
    (s.dev.peer p).deadline ≤ s.dev.now ∧
    s.dev.f R.TIME_CTL.AUTO = 0 ∧
    s.dev.ctxs = [(c, x)] ∧
    x.state = .opened ∧
    s.dev.siteOf p = some x.site ∧
    NothingWaits s ∧
    s.dev.pubs = [] ∧
    s.dev.deltasIn = [] := by decide
theorem meets_peers_are_suspected_vouched_and_lost_5 :
    let p : Fin 4096 := 0
    let s : State := (peerOf0 1).onDev (fun d => { d with now := 999 })
    (2 ≤ s.dev.f R.HEALTH_PEER.STATE p ∨ s.dev.now < (s.dev.peer p).deadline) := by decide
theorem meets_peers_are_suspected_vouched_and_lost_6 :
    let p : Fin 4096 := 0
    let s : State := (peerOf0 1).onDev (fun d => { d with now := 999 })
    s.dev.f R.SYS_BOOT.STATE = 4 ∧
    s.dev.f R.HEALTH_PEER.STATE p ≤ 1 ∧
    s.dev.now < (s.dev.peer p).deadline := by decide
theorem meets_peers_are_suspected_vouched_and_lost_7 :
    let p : Fin 4096 := 0
    let s : State := peerOf0 2
    s.dev.f R.SYS_BOOT.STATE = 4 ∧
    2 ≤ s.dev.f R.HEALTH_PEER.STATE p := by decide
theorem meets_peers_are_suspected_vouched_and_lost_8 :
    let p : Fin 4096 := 0
    let s : State := peerOf0 1
    s.dev.f R.SYS_BOOT.STATE = 4 ∧
    s.dev.f R.HEALTH_PEER.STATE p ≤ 1 ∧
    s.dev.f R.TIME_CTL.AUTO = 0 ∧
    s.dev.ctxs = [] ∧
    s.dev.colls = [] ∧
    s.dev.pubs = [] ∧
    s.dev.deltasIn = [] := by decide
theorem meets_peers_are_suspected_vouched_and_lost_9 :
    let p : Fin 4096 := 0
    let s : State := peerOf0 3
    s.dev.f R.SYS_BOOT.STATE = 4 ∧
    2 ≤ s.dev.f R.HEALTH_PEER.STATE p := by decide
theorem meets_peers_are_suspected_vouched_and_lost_10 :
    let m : NoteMsg := noteM 0 0
    let p : Nat := 0
    let s : State := peerOf0 1
    FromPeer s m.site.toNat m.gwId.toNat p ∧
    s.dev.f R.HEALTH_PEER.STATE p ≤ 1 ∧
    m.suspect = 0 ∧
    m.lost.toNat.testBit s.dev.site = false := by decide
theorem meets_peers_are_suspected_vouched_and_lost_11 :
    let m : NoteMsg := noteM 1 0
    let p : Nat := 0
    let s : State := peerOf0 0
    FromPeer s m.site.toNat m.gwId.toNat p ∧
    s.dev.f R.HEALTH_PEER.STATE p ≤ 1 ∧
    m.suspect.toNat = 2 ^ s.dev.site ∧
    m.lost.toNat.testBit s.dev.site = false := by decide
theorem meets_peers_are_suspected_vouched_and_lost_12 :
    let m : NoteMsg := noteM 0 1
    let p : Nat := 0
    let s : State := peerOf0 1
    FromPeer s m.site.toNat m.gwId.toNat p ∧
    s.dev.f R.HEALTH_PEER.STATE p ≤ 1 ∧
    m.suspect = 0 ∧
    m.lost.toNat.testBit s.dev.site = true ∧
    s.dev.f R.TIME_CTL.AUTO = 0 ∧
    s.dev.ctxs = [] ∧
    s.dev.colls = [] ∧
    s.dev.pubs = [] ∧
    s.dev.deltasIn = [] := by decide
theorem meets_peers_are_suspected_vouched_and_lost_14 :
    let m : NoteMsg := { noteM 0 0 with gwId := 9 }
    let s : State := peerOf0 0
    s.dev.identOk m.site.toNat m.gwId.toNat = false := by decide
theorem meets_peers_are_suspected_vouched_and_lost_15 :
    let p : Fin 4096 := 0
    let s : State := (peerOf0 1).onDev (fun d => { d with now := 1000 })
    s.dev.f R.SYS_BOOT.STATE = 4 ∧
    s.dev.f R.HEALTH_PEER.STATE p ≤ 1 ∧
    (s.dev.peer p).deadline ≤ s.dev.now ∧
    s.dev.f R.TIME_CTL.AUTO = 0 ∧
    s.dev.ctxs = [] ∧
    s.dev.colls = [] ∧
    s.dev.pubs = [] ∧
    s.dev.deltasIn = [] := by decide

/-! AlarmsMarginsAndFaultsAreServed -/

/-- A window of alarm 0x43 with a coalescing time of 5 µs, open since tick 0. -/
def alarmW : AlarmWin := { key := ⟨0, 0, 0x43⟩, level := 2, kind := 0, coal := 5, first := 0, firstTick := 0, lastTick := 0, count := 1, detail := 0, peers := 0 }
/-- It is the only one; 5 µs have passed; the alarm ring of 16 records stands at WR, RD. -/
def alarmState (wr rd : Nat) : State := (mkReady [(R.HEALTH_CTL.ENABLE, 0, 1), (R.HEALTH_ALM_BASE.SIZE_LOG, 0, 4), (R.HEALTH_ALM_BASE.ADDR, 0, 4096),
  (R.HEALTH_ALM_IDX.WR, 0, wr), (R.HEALTH_ALM_IDX.RD, 0, rd)]).onDev (fun d => { d with alarms := [alarmW], now := 5000 })
theorem meets_alarms_margins_and_faults_are_served_1 :
    let w : AlarmWin := alarmW
    let s : State := alarmState 15 15
    s.dev.alarms = [w] ∧
    1000 * max w.coal 1 ≤ s.dev.now - w.firstTick ∧
    s.dev.f R.HEALTH_CTL.ENABLE = 1 ∧
    idxSub (s.dev.f R.HEALTH_ALM_IDX.WR) (s.dev.f R.HEALTH_ALM_IDX.RD) ≠ 2 ^ s.dev.f R.HEALTH_ALM_BASE.SIZE_LOG := by decide
theorem meets_alarms_margins_and_faults_are_served_2 :
    let w : AlarmWin := alarmW
    let s : State := alarmState 16 0
    s.dev.alarms = [w] ∧
    1000 * max w.coal 1 ≤ s.dev.now - w.firstTick ∧
    (s.dev.f R.HEALTH_CTL.ENABLE = 0 ∨ idxSub (s.dev.f R.HEALTH_ALM_IDX.WR) (s.dev.f R.HEALTH_ALM_IDX.RD) = 2 ^ s.dev.f R.HEALTH_ALM_BASE.SIZE_LOG) := by decide
theorem meets_alarms_margins_and_faults_are_served_3 :
    let w : AlarmWin := alarmW
    let s : State := (alarmState 0 0).onDev (fun d => { d with now := 4999 })
    s.dev.alarms = [w] ∧
    s.dev.now - w.firstTick < 1000 * max w.coal 1 := by decide
theorem meets_alarms_margins_and_faults_are_served_4 :
    let k : Fin 4 := 3
    let u : Fin 128 := 7
    let s : State := mkReady [(R.CUR_STATE.ALIVE, 0, 1)]
    s.dev.f R.CUR_STATE.ALIVE = 1 ∧
    s.dev.marginUnit k u = true ∧
    k ≠ 2 := by decide
theorem meets_alarms_margins_and_faults_are_served_5 :
    let u : Fin 128 := 127
    let s : State := mkReady [(R.CUR_STATE.ALIVE, 0, 1), (R.KW_CAR_STATE.RX_LOCK, 127, 1), (R.KW_CAR_QUAL.QMARG, 127, 0xFFFF)]
    s.dev.f R.CUR_STATE.ALIVE = 1 ∧
    s.dev.marginUnit 2 u = true ∧
    s.dev.f R.KW_CAR_STATE.RX_LOCK u = 1 := by decide
theorem meets_alarms_margins_and_faults_are_served_6 :
    let k : Fin 4 := 0
    let u : Fin 128 := 6
    let mean : Int := -5
    let s : State := (mkReady [(R.CUR_STATE.ALIVE, 0, 1)]).onDev (fun d => d.setMarginX 6 ⟨[], true, 0, false, -11, 2⟩)
    s.dev.f R.CUR_STATE.ALIVE = 1 ∧
    s.dev.marginUnit k u = true ∧
    k ≠ 1 ∧
    (s.dev.marginX (128 * k.val + u.val)).isMean mean = true ∧
    (s.dev.marginX (128 * k.val + u.val)).means.length + 1 < max (s.dev.f R.HEALTH_CONS_TREND.TREND_S k) 60 := by decide
theorem meets_alarms_margins_and_faults_are_served_7 :
    let s : State := mkReady [(R.HEALTH_MSEL.KIND, 0, 2), (R.HEALTH_MSEL.UNIT, 0, 127)]
    s.dev.f R.SYS_BOOT.STATE = 4 ∧
    s.dev.marginUnit (s.dev.f R.HEALTH_MSEL.KIND) (s.dev.f R.HEALTH_MSEL.UNIT) = true := by decide
theorem meets_alarms_margins_and_faults_are_served_8 :
    let s : State := mkReady [(R.HEALTH_MSEL.KIND, 0, 1), (R.HEALTH_MSEL.UNIT, 0, 7)]
    s.dev.f R.SYS_BOOT.STATE = 4 ∧
    s.dev.f R.HEALTH_MSEL.KIND ≤ 1 ∧
    7 ≤ s.dev.f R.HEALTH_MSEL.UNIT := by decide
theorem meets_alarms_margins_and_faults_are_served_9 :
    let w : Fin 4 := 3
    let s : State := lit 127 { KwX.empty with txLit := true, txJoined := true } [(R.KW_CAR_STATE.TX_LOCK, 127, 1)]
    s.dev.f R.SYS_BOOT.STATE = 4 ∧
    s.dev.fenced w = false ∧
    s.dev.wingPresent w = true := by decide
theorem meets_alarms_margins_and_faults_are_served_10 :
    let w : Fin 4 := 3
    let s : State := mkReady [(R.GLOBAL_ID.WING_MASK, 0, 7)]
    (s.dev.fenced w = true ∨ s.dev.wingPresent w = false) := by decide
theorem meets_alarms_margins_and_faults_are_served_11 :
    let e : Fin 8 := 7
    let s : State := lit 127 { KwX.empty with txLit := true, txJoined := true } [(R.KW_CAR_STATE.TX_LOCK, 127, 1)]
    s.dev.f R.SYS_BOOT.STATE = 4 ∧
    s.dev.wingEnabled (e.val / 2) = true ∧
    s.dev.engDark.contains (8 + e.val) = false := by decide
theorem meets_alarms_margins_and_faults_are_served_12 :
    let e : Fin 8 := 7
    let s : State := (mkReady []).onDev (fun d => { d with engDark := [15] })
    s.dev.engDark.contains (8 + e.val) = true := by decide
theorem meets_alarms_margins_and_faults_are_served_13 :
    let k : Fin 4 := 0
    let u : Fin 128 := 6
    let mean : Int := -4
    let s : State := (mkReady [(R.CUR_STATE.ALIVE, 0, 1)]).onDev (fun d => d.setMarginX 6 ⟨[], true, 0, false, -11, 2⟩)
    (s.dev.marginX (128 * k.val + u.val)).isMean mean = false := by decide
/-! ### Commands that cannot arrive -/

/-- Two errors of one beat. -/
def twoFaults : List BeatFault := [⟨0, 1, 0, 0, false, 0, 0, 0⟩, ⟨2, 1, 0, 0, false, 0, 0, 0⟩]
theorem test_wf_access : (Instr.registerWrite (2 ^ 26) 8 0).wf = false ∧ (Instr.registerWrite 0 3 0).wf = false ∧
    (Instr.registerWrite 0 4 (2 ^ 32)).wf = false ∧ (Instr.registerWrite 0 4 (2 ^ 32 - 1)).wf = true ∧ (Instr.ringDoorbell 0 0 ⟨0, 3⟩ 0).wf = false ∧
    (Instr.queueDoorbell 0 0 ⟨8, 0⟩ 0).wf = false := by decide
theorem test_wf_faults : (Instr.pcieReadCompletion 0 ⟨[], twoFaults⟩).wf = false ∧ (Instr.pcieReadCompletion 0 ⟨[], twoFaults.take 1⟩).wf = true := by decide
theorem test_wf_item : (Instr.blockDecode 0 ⟨4, 0, 0, 0, 0, 0⟩ 0 []).wf = false := by decide
theorem test_wf_service : (Instr.collEndReceive { collEnd with frag := 1 } true).wf = false ∧ (Instr.collEndReceive { collEnd with dlen := 1 } true).wf = false ∧
    (Instr.collEndReceive collEnd true).wf = true := by decide
theorem test_wf_segment : (Instr.segmentReceive 0 { inSeg 2 2 with tail := zeros 27, tag := zeros 16 } false true).wf = false ∧
    (Instr.segmentReceive 0 { inSeg 2 2 with tail := zeros 28, tag := zeros 15 } false true).wf = false ∧
    (Instr.segmentReceive 0 { inSeg 2 2 with tail := zeros 28, tag := zeros 16 } false true).wf = true := by decide
theorem test_wf_payload : segmentOk { inSeg 2 2 with tail := zeros 28, tag := zeros 16, payload := zeros 16385 } = false := by
  show (_ && decide ((List.replicate 16385 (0 : Byte)).length ≤ 16384) && _) = false
  rw [List.length_replicate]
  decide
theorem test_wf_time : (Instr.ptpMessageReceive 0 { ptpSync with ns := 1000000000 }).wf = false ∧
    (Instr.markReceive 0 0 { seq := 0, sec := 0, ns := 1000000000, frac := 0 } 0).wf = false := by decide
theorem test_wf_monitors : (Instr.monitorSample 0 monV).wf = false ∧ (Instr.monitorSample 0 { monV with loopErr := [0, 0, 0, 0], corrected := 101 }).wf = false ∧
    (Instr.monitorSample 0 { monV with loopErr := [0, 0, 0, 0] }).wf = true := by decide
theorem test_wf_frame : (Instr.frameReceive 0 frm []).wf = false := by decide
theorem test_wf_seal : (Instr.initReceive 0 (sealM 1 1)).wf = false ∧ (Instr.initReceive 0 { sealM 0 1 with flen := 247 }).wf = false ∧
    (Instr.initReceive 0 (sealM 0 1)).wf = true := by decide
theorem test_wf_load : (Instr.load 0 0 { loadR with key := zeros 98 }).wf = false ∧ (Instr.load 0 0 { loadR with tag := zeros 17 }).wf = false ∧
    (Instr.load 0 0 { loadR with nonce := zeros 13 }).wf = false ∧ (Instr.load 0 0 loadR).wf = true := by decide
theorem test_wf_lrm : (Instr.lrmCnp 0 ⟨zeros 63⟩).wf = false ∧ (Instr.lrmCnp 0 ⟨zeros 64⟩).wf = true := by decide
theorem test_wf_lists : (Instr.skewCheck 0 (List.replicate 31 0) 0).wf = false ∧ (Instr.imageCheck .vitrine goodImage).wf = false := by decide

end Sys2Proof.Tests
end

section
/-! The register table keeps its canonical form (R9, R10, R355). One lemma per function of the model that answers a block: the words of what it
answers are canonical where those of its argument are. Only `Dev.setWord` and the resets write the table, so each lemma follows the function's
own shape: `upd` where the table is not touched, `ite` for a choice, `foldl` for a loop, else the lemmas of the functions it calls. -/

namespace Sys2Proof.Laws

open Sys2Proof Sys2Proof.Machine

/-- The register table of a block is in its canonical form. -/
def WordsWf (d : Dev) : Prop := tabWf resetWord d.words

/-- Every next state that a command answers has a canonical register table. -/
def NextWf (r : Res) : Prop := ∀ t, r = .next t → WordsWf t.dev

namespace WordsWf

/-! ### The shapes that the model's functions are made of -/

/-- An update that leaves the register table alone. -/
theorem upd {d e : Dev} (h : WordsWf d) (he : e.words = d.words) : WordsWf e := by unfold WordsWf; rwa [he]

theorem onDev {s : State} {f : Dev → Dev} (h : WordsWf (f s.dev)) : WordsWf (s.onDev f).dev := h
theorem onBoth {s : State} {f : Dev → List Host.Cell → Dev × List Host.Cell} (h : WordsWf (f s.dev s.mem).1) : WordsWf (s.onBoth f).dev := h

section
variable {α β : Type} {c : Prop} [Decidable c]

theorem pair {a : Dev} {b : α} (h : WordsWf a) : WordsWf (a, b).1 := h
theorem pairFst {a : Dev × α} {b : β} (h : WordsWf a.1) : WordsWf (a, b).1.1 := h
theorem pairSnd {a : α} {b : Dev × β} (h : WordsWf b.1) : WordsWf (a, b).2.1 := h

theorem ite {a b : Dev} (ha : WordsWf a) (hb : WordsWf b) : WordsWf (if c then a else b) := by split <;> assumption
theorem iteFst {a b : Dev × α} (ha : WordsWf a.1) (hb : WordsWf b.1) : WordsWf (if c then a else b).1 := by split <;> assumption
theorem iteSndFst {a b : α × Dev × β} (ha : WordsWf a.2.1) (hb : WordsWf b.2.1) : WordsWf (if c then a else b).2.1 := by split <;> assumption
theorem iteDev {a b : State} (ha : WordsWf a.dev) (hb : WordsWf b.dev) : WordsWf (if c then a else b).dev := by split <;> assumption

/-- A choice whose first branch goes on from the second. -/
theorem iteOf {a b : Dev} (hb : WordsWf b) (ha : WordsWf b → WordsWf a) : WordsWf (if c then a else b) := ite (ha hb) hb
theorem iteOfFst {a b : Dev × α} (hb : WordsWf b.1) (ha : WordsWf b.1 → WordsWf a.1) : WordsWf (if c then a else b).1 := iteFst (ha hb) hb
theorem iteOfDev {a b : State} (hb : WordsWf b.dev) (ha : WordsWf b.dev → WordsWf a.dev) : WordsWf (if c then a else b).dev := iteDev (ha hb) hb

/-- A choice whose second branch goes on from the first. -/
theorem iteElse {a b : Dev} (ha : WordsWf a) (hb : WordsWf a → WordsWf b) : WordsWf (if c then a else b) := ite ha (hb ha)
theorem iteElseFst {a b : Dev × α} (ha : WordsWf a.1) (hb : WordsWf a.1 → WordsWf b.1) : WordsWf (if c then a else b).1 := iteFst ha (hb ha)

theorem foldl {d : Dev} {f : Dev → α → Dev} {l : List α} (hf : ∀ {d x}, WordsWf d → WordsWf (f d x)) (h : WordsWf d) :
    WordsWf (l.foldl f d) := by
  induction l generalizing d with
  | nil => exact h
  | cons x t ih => exact ih (hf h)
theorem foldlFst {d : Dev × β} {f : Dev × β → α → Dev × β} {l : List α} (hf : ∀ {d x}, WordsWf d.1 → WordsWf (f d x).1)
    (h : WordsWf d.1) : WordsWf (l.foldl f d).1 := by
  induction l generalizing d with
  | nil => exact h
  | cons x t ih => exact ih (hf h)
end

end WordsWf

namespace NextWf

theorem next {s : State} (h : WordsWf s.dev) : NextWf (.next s) := fun t e => by cases e; exact h
theorem ite {c : Prop} [Decidable c] {a b : Res} (ha : NextWf a) (hb : NextWf b) : NextWf (if c then a else b) := by split <;> assumption

end NextWf

variable {d : Dev} {s : State}

/-! ### Register operations -/

namespace WordsWf

theorem setWord {k w} (hw : WordsWf d) : WordsWf (d.setWord k w) := wordsWf_setWord d k w hw
theorem set {x i v} (hw : WordsWf d) : WordsWf (d.set x i v) := .setWord hw
theorem setS {x i v} (hw : WordsWf d) : WordsWf (d.setS x i v) := .set hw
theorem bump {x i n} (hw : WordsWf d) : WordsWf (d.bump x i n) := .set hw
theorem drop {x i n} (hw : WordsWf d) : WordsWf (d.drop x i n) := .set hw
theorem emit {o} (hw : WordsWf d) : WordsWf (d.emit o) := .upd hw rfl
theorem sendMsix {f v} (hw : WordsWf d) : WordsWf (d.sendMsix f v) := .ite (.ite hw (.upd hw rfl)) (.emit hw)
theorem send {site c} (hw : WordsWf d) : WordsWf (d.send site c) := .upd hw rfl
theorem usedFree (hw : WordsWf d) : WordsWf d.usedFree := .upd hw rfl
theorem setRing {n r} (hw : WordsWf d) : WordsWf (d.setRing n r) := .upd hw rfl
theorem setCq {q r} (hw : WordsWf d) : WordsWf (d.setCq q r) := .upd hw rfl
theorem setCourier {c r} (hw : WordsWf d) : WordsWf (d.setCourier c r) := .upd hw rfl
theorem setCtx {c x} (hw : WordsWf d) : WordsWf (d.setCtx c x) := .upd hw rfl
theorem onCtx {c g} (hw : WordsWf d) : WordsWf (d.onCtx c g) := .setCtx hw
theorem setPeer {p x} (hw : WordsWf d) : WordsWf (d.setPeer p x) := .upd hw rfl
theorem writeFields {key dis l new} (hw : WordsWf d) : WordsWf (d.writeFields key dis l new).1 := by
  unfold Dev.writeFields
  dsimp only
  split; exacts [.pair hw, .pair (.setWord hw)]
theorem writeReg {key dis l new busy i} (hw : WordsWf d) : WordsWf (d.writeReg key dis l new busy i) :=
  .ite (.set (.writeFields hw)) (.writeFields hw)
theorem shadowsFrom {old : Dev} (hw : WordsWf d) : WordsWf (d.shadowsFrom old) := .foldl (fun h' => .ite h' (.upd h' rfl)) hw
theorem phaseBoundary {w} (hw : WordsWf d) : WordsWf (d.phaseBoundary w) := .ite (.upd hw rfl) hw
theorem selNext {auto word index words} (hw : WordsWf d) : WordsWf (d.selNext auto word index words) := .ite (.ite (.set hw) (.set (.set hw))) hw
theorem recoverEnd {r} (hw : WordsWf d) : WordsWf (d.recoverEnd r) :=
  .ite (.upd hw rfl) (.ite (.upd hw rfl) (.iteOf (.set (.set (.upd hw rfl))) .bump))
theorem recoverSweep (hw : WordsWf d) : WordsWf d.recoverSweep := by
  unfold Dev.recoverSweep
  split; exacts [hw, .ite hw (.recoverEnd hw)]
theorem recoverStart {pick reqs} (hw : WordsWf d) : WordsWf (d.recoverStart pick reqs) :=
  .ite (.recoverSweep hw) (.ite (.recoverSweep hw) (.upd (.recoverSweep hw) rfl))
theorem recoverRcpt {c} (hw : WordsWf d) : WordsWf (d.recoverRcpt c) := by
  unfold Dev.recoverRcpt
  split; exacts [hw, (by split; exacts [hw, .ite hw (.recoverEnd hw)])]
theorem recoverReq {tag} (hw : WordsWf d) : WordsWf (d.recoverReq tag) := by
  unfold Dev.recoverReq
  split; exacts [hw, .ite (.recoverEnd hw) hw]
theorem recoverGone {c} (hw : WordsWf d) : WordsWf (d.recoverGone c) := by
  unfold Dev.recoverGone
  split; exacts [hw, .ite (.recoverEnd hw) hw]
theorem alarm {uclass unit cond level detail kind peers} (hw : WordsWf d) : WordsWf (d.alarm uclass unit cond level detail kind peers) := by
  unfold Dev.alarm
  dsimp only
  exact .ite hw (.ite (.upd hw rfl) (.ite (.upd hw rfl) (by split; exacts [.upd (.bump hw) rfl, .upd (.bump hw) rfl])))
theorem junctionHot {q} (hw : WordsWf d) : WordsWf (d.junctionHot q) := .ite hw (.ite (.alarm (.set hw)) (.upd (.set hw) rfl))
theorem takeProfile (hw : WordsWf d) : WordsWf d.takeProfile := .ite (.upd hw rfl) (.ite (.foldl .junctionHot (.upd hw rfl)) (.upd hw rfl))

end WordsWf

/-! ### LRM requests -/

namespace WordsWf

theorem setWfq {k x} (hw : WordsWf d) : WordsWf (d.setWfq k x) := .upd hw rfl
theorem wfqWake {k i} (hw : WordsWf d) : WordsWf (d.wfqWake k i) := .setWfq hw
theorem setPortQueue {p l} (hw : WordsWf d) : WordsWf (d.setPortQueue p l) := .upd hw rfl
theorem setPtpQueue {p l} (hw : WordsWf d) : WordsWf (d.setPtpQueue p l) := .upd hw rfl
theorem discardPort {p} (hw : WordsWf d) : WordsWf (d.discardPort p) := .setPtpQueue (.setPortQueue hw)
theorem enqueue {p q} (hw : WordsWf d) : WordsWf (d.enqueue p q) := .setPortQueue (.iteOf (.iteOf (.ite (.wfqWake hw) hw) .wfqWake) .bump)
theorem setMeter {t x} (hw : WordsWf d) : WordsWf (d.setMeter t x) := .upd hw rfl
theorem meter {t b} (hw : WordsWf d) : WordsWf (d.meter t b).1 :=
  .iteFst (.iteFst (.pair (.bump (.setMeter hw))) (.iteFst (.pair (.bump (.setMeter hw))) (.pair (.bump (.setMeter hw))))) (.pair (.bump hw))
theorem transmit {q} (hw : WordsWf d) : WordsWf (d.transmit q) := by
  unfold Dev.transmit
  split; exacts [hw, .enqueue hw]
theorem request {use write host node addr len data tenant} (hw : WordsWf d) : WordsWf (d.request use write host node addr len data tenant) :=
  .ite (.emit (.upd hw rfl)) (.ite (.emit (.upd hw rfl)) (.ite (.transmit (.upd hw rfl)) (.upd hw rfl)))
theorem releaseReads (hw : WordsWf d) : WordsWf d.releaseReads := .foldl (fun h' => .ite (.transmit (.upd h' rfl)) h') hw
theorem nodeWrite {use host node addr tenant data m} (hw : WordsWf d) : WordsWf (nodeWrite use host node addr tenant data d m).1 :=
  .iteFst (.pair (.request hw)) (.pair (.foldl .request hw))

end WordsWf

/-! ### Rings and queues -/

namespace WordsWf

theorem cqFire {q m} (hw : WordsWf d) : WordsWf (cqFire q d m).1 := .iteFst (.pair (.sendMsix (.setCq hw))) (.pair (.nodeWrite (.setCq hw)))
theorem cqWritten {q irq m} (hw : WordsWf d) : WordsWf (cqWritten q irq d m).1 :=
  .iteFst (.iteFst (.cqFire (.setCq hw)) (.pair (.setCq hw))) (.pair hw)
theorem writeRecord {q r ok m} (hw : WordsWf d) : WordsWf (writeRecord q r ok d m).1 :=
  .cqWritten (.set (.set (.set (.iteFst (.nodeWrite hw) (.pair (.set hw))))))
theorem dbDrop (hw : WordsWf d) : WordsWf d.dbDrop := .bump hw
theorem sqDoorbell {n index} (hw : WordsWf d) : WordsWf (d.sqDoorbell n index) := .ite (.set hw) (.set hw)
theorem ringDoorbell {loc src n index} (hw : WordsWf d) : WordsWf (d.ringDoorbell loc src n index) :=
  .ite (.ite (.set hw) (.ite (.sqDoorbell hw) (.dbDrop hw))) (.dbDrop hw)
theorem cqDoorbell {q index m} (hw : WordsWf d) : WordsWf (cqDoorbell q index d m).1 :=
  .iteFst (.iteFst (.cqFire (.setCq (.set hw))) (.pair (.setCq (.set hw)))) (.pair (.set hw))
theorem queueDoorbell {loc src q index m} (hw : WordsWf d) : WordsWf (queueDoorbell loc src q index d m).1 :=
  .iteFst (.cqDoorbell hw) (.pair (.dbDrop hw))
theorem fetchFrom {n k} (hw : WordsWf d) : WordsWf (d.fetchFrom n k) := .request (.setRing (.bump hw))
theorem fetchArrive {n data} (hw : WordsWf d) : WordsWf (d.fetchArrive n data) := by
  unfold Dev.fetchArrive
  dsimp only
  split; exacts [hw, .setRing (.set hw)]
theorem dropFetch {n} (hw : WordsWf d) : WordsWf (d.dropFetch n) := by
  unfold Dev.dropFetch
  dsimp only
  split; exacts [hw, .upd (.drop hw) rfl]
theorem tearEnd {n} (hw : WordsWf d) : WordsWf (d.tearEnd n) := .ite (.set (.setRing hw)) hw
theorem fetchFail {n} (hw : WordsWf d) : WordsWf (d.fetchFail n) := .tearEnd (.setRing (.set (.set (.dropFetch hw))))
theorem sqCtlWrite {n l w} (hw : WordsWf d) : WordsWf (d.sqCtlWrite n l w) :=
  .ite (.ite (.set (.set (.writeReg hw))) (.ite (.writeReg hw) (.set (.set (.writeReg hw))))) (.writeReg hw)
theorem cqCtlWrite {q l w} (hw : WordsWf d) : WordsWf (d.cqCtlWrite q l w) := by
  unfold Dev.cqCtlWrite
  extract_lets was d1 is
  have h1 : WordsWf d1 := .writeReg hw
  exact .ite (.ite (.set (.setCq h1)) (.set (.set h1))) (.ite (.ite (.set (.set h1)) (.setCq h1)) h1)

end WordsWf

theorem NextWf.execRingDoorbell {f n w index} (hw : WordsWf s.dev) : NextWf (execRingDoorbell f n w index s) :=
  .next (.iteDev (.onDev (.ringDoorbell hw)) hw)
theorem NextWf.execQueueDoorbell {f q w index} (hw : WordsWf s.dev) : NextWf (execQueueDoorbell f q w index s) :=
  .next (.iteDev (.onBoth (.queueDoorbell hw)) hw)
theorem NextWf.execDescriptorFetch (hw : WordsWf s.dev) : NextWf (execDescriptorFetch s) := by
  unfold Machine.execDescriptorFetch
  dsimp only
  exact .next (.onDev (by split; exacts [hw, .upd (.fetchFrom hw) rfl]))
theorem NextWf.execFetchFailed {n} (hw : WordsWf s.dev) : NextWf (execFetchFailed n s) := .next (.iteDev (.onDev (.fetchFail hw)) hw)
theorem NextWf.execAbortRecordWrite {n readOk writeOk} (hw : WordsWf s.dev) : NextWf (execAbortRecordWrite n readOk writeOk s) :=
  .ite (.next (.onBoth (.pair (.tearEnd (.set (.writeRecord (.ite (.set hw) hw))))))) (.next hw)
theorem NextWf.execSqCtlWrite {n l d} (hw : WordsWf s.dev) : NextWf (execSqCtlWrite n l d s) := .next (.iteDev (.onDev (.sqCtlWrite hw)) hw)
theorem NextWf.execCqCtlWrite {q l d} (hw : WordsWf s.dev) : NextWf (execCqCtlWrite q l d s) := .next (.iteDev (.onDev (.cqCtlWrite hw)) hw)
theorem NextWf.execCoalescingTimer {q} (hw : WordsWf s.dev) : NextWf (execCoalescingTimer q s) :=
  .ite (.ite (.next (.onBoth (.cqFire hw))) (.next (.onDev (.setCq hw)))) (.next hw)

/-! ### Courier channels -/

namespace WordsWf

theorem courierEnd {c v moved state ok m} (hw : WordsWf d) : WordsWf (courierEnd c v moved state ok d m).1 :=
  .iteFst (.pair (.drop (.writeRecord (.set (.set (.set hw)))))) (.pair (.set (.set (.set hw))))
theorem courierStart {c m} (hw : WordsWf d) : WordsWf (courierStart c d m).1 := by
  unfold Machine.courierStart
  extract_lets x q
  refine .iteFst (.pair (.setCourier hw)) ?_
  split
  · exact .courierEnd (.ite (.bump (.setCourier hw)) (.setCourier hw))
  · exact .pair (.ite (.bump (.setCourier hw)) (.setCourier hw))
theorem courierLoad {c m} (hw : WordsWf d) : WordsWf (courierLoad c d m).1 := .courierStart (.set (.set (.set (.set (.setCourier hw)))))

end WordsWf

theorem NextWf.execCourierGo {c} (hw : WordsWf s.dev) : NextWf (execCourierGo c s) :=
  .next (.iteDev (.iteDev (.onDev (.set hw)) (.onBoth (.courierLoad hw))) hw)
theorem NextWf.execCourierArm {c on} (hw : WordsWf s.dev) : NextWf (execCourierArm c on s) :=
  .next (.iteDev (.onDev (.ite (.set hw) (.set hw))) hw)
theorem NextWf.execCourierAbort {c bursts writeOk} (hw : WordsWf s.dev) : NextWf (execCourierAbort c bursts writeOk s) :=
  .next (.iteDev (.onBoth (.iteFst (.iteFst (.pair (.set (.set (.setCourier (.set hw))))) (.courierEnd (.usedFree (.set hw)))) (.pair (.set (.set
    hw))))) hw)
theorem NextWf.execCourierTransferEnd {c writeOk} (hw : WordsWf s.dev) : NextWf (execCourierTransferEnd c writeOk s) :=
  .next (.iteDev (.onBoth (.iteFst (.iteFst (.courierLoad (.courierStart hw)) (.courierStart hw)) (.iteOfFst (.courierEnd (.usedFree hw))
    .courierLoad))) hw)
theorem NextWf.execCourierMemoryError {c moved writeOk} (hw : WordsWf s.dev) : NextWf (execCourierMemoryError c moved writeOk s) :=
  .next (.iteDev (.onBoth (.courierEnd (.usedFree hw))) hw)

/-! ### Catalogue -/

namespace WordsWf

theorem identBad (hw : WordsWf d) : WordsWf d.identBad := .bump hw
theorem setSched {m x} (hw : WordsWf d) : WordsWf (d.setSched m x) := .upd hw rfl

end WordsWf

/-! ### Buffers -/

namespace WordsWf

theorem lineSettle (hw : WordsWf d) : WordsWf d.lineSettle := .upd hw rfl
theorem setLent {p l} (hw : WordsWf d) : WordsWf (d.setLent p l) := .upd hw rfl
theorem poolSync {p} (hw : WordsWf d) : WordsWf (d.poolSync p) := .set (.set (.set hw))
theorem heldSync {t} (hw : WordsWf d) : WordsWf (d.heldSync t) := .set hw
theorem loanSync {x} (hw : WordsWf d) : WordsWf (d.loanSync x) := .heldSync (.poolSync (.poolSync hw))
theorem borrow {c tx} (hw : WordsWf d) : WordsWf (d.borrow c tx).1 := by
  unfold Dev.borrow
  dsimp only
  exact .iteOfFst (.pair (.bump hw)) (fun h' => (by split; exacts [h', .pair (.loanSync (.setCtx (.setLent hw)))]))
theorem giveBack {p i} (hw : WordsWf d) : WordsWf (d.giveBack p i) := by
  unfold Dev.giveBack
  dsimp only
  split; exacts [.poolSync (.setLent hw), .loanSync (.setCtx (.setLent hw))]
theorem annexTake {t k n} (hw : WordsWf d) : WordsWf (d.annexTake t k n) := .upd hw rfl
theorem annexPlace {t q pages mirror placed stack p} (hw : WordsWf d) (hp : d.annexPlace t q pages mirror placed stack = some p) :
    WordsWf p.1 := by
  unfold Dev.annexPlace at hp
  split at hp
  · obtain ⟨-, h⟩ := Option.ite_none_right_eq_some.mp hp
    cases h; exact .annexTake (.annexTake hw)
  · obtain ⟨-, h⟩ := Option.ite_none_right_eq_some.mp hp
    cases h; exact .annexTake hw
theorem annexGive {t k n} (hw : WordsWf d) : WordsWf (d.annexGive t k n) := .upd hw rfl
theorem annexDrop {t home k n} (hw : WordsWf d) : WordsWf (d.annexDrop t home k n) := .ite (.annexGive hw) (.upd hw rfl)
theorem setHalf {i k} (hw : WordsWf d) : WordsWf (d.setHalf i k) := .upd hw rfl
theorem setBound {i b} (hw : WordsWf d) : WordsWf (d.setBound i b) := .upd hw rfl
theorem writeEpoch {x h e} (hw : WordsWf d) : WordsWf (d.writeEpoch x h e) := .ite (.setHalf hw) hw
theorem enterEpoch {x out e} (hw : WordsWf d) : WordsWf (d.enterEpoch x out e) := .writeEpoch hw
theorem markReceived {c seq} (hw : WordsWf d) : WordsWf (d.markReceived c seq) := .ite (.enterEpoch (.setCtx hw)) (.setCtx hw)
theorem received {c seq} (hw : WordsWf d) : WordsWf (d.received c seq) := .onCtx (.markReceived hw)
theorem openKeys {c} (hw : WordsWf d) : WordsWf (d.openKeys c) := .ite (.writeEpoch (.writeEpoch (.writeEpoch (.writeEpoch (.setCtx hw))))) hw
theorem dropPair {pair} (hw : WordsWf d) : WordsWf (d.dropPair pair) := .setBound (.setHalf (.setHalf (.setHalf (.setHalf hw))))

end WordsWf

theorem NextWf.execBufferReturn {p ptr} (hw : WordsWf s.dev) : NextWf (execBufferReturn p ptr s) :=
  .next (.onDev (.ite (.alarm (.bump hw)) (.ite (.giveBack hw) (.alarm (.bump hw)))))

/-! ### Flags -/

namespace WordsWf

theorem fenceLane {w lane} (hw : WordsWf d) : WordsWf (d.fenceLane w lane) := .ite hw (.alarm (.set (.set (.set (.set hw)))))
theorem laneReplay {w lane} (hw : WordsWf d) : WordsWf (d.laneReplay w lane) := .ite (.fenceLane (.upd hw rfl)) (.upd hw rfl)
theorem replays {w redop faults} (hw : WordsWf d) : WordsWf (d.replays w redop faults).1 :=
  .foldlFst (fun h' => .iteFst h' (.iteFst (.pair (.laneReplay (.bump h'))) (.iteFst (.pair (.fenceLane (.bump h'))) (.pair (.bump h'))))) (.pair
    hw)
theorem arith {w sat nan} (hw : WordsWf d) : WordsWf (d.arith w sat nan) := .bump (.bump hw)

end WordsWf

/-! ### Ends of operations -/

namespace WordsWf

theorem setSlotImg {slot v c} (hw : WordsWf d) : WordsWf (d.setSlotImg slot v c) := .upd hw rfl
theorem unstage {n ver} (hw : WordsWf d) : WordsWf (d.unstage n ver) := .ite (.set (.upd hw rfl)) (.upd hw rfl)
theorem slotDiscard {n} (hw : WordsWf d) : WordsWf (d.slotDiscard n) := .unstage (.upd (.set (.set (.set (.setSlotImg (.setSlotImg hw))))) rfl)
theorem refTake {b} (hw : WordsWf d) : WordsWf (d.refTake b) := .bump hw
theorem refDrop {b} (hw : WordsWf d) : WordsWf (d.refDrop b) := .ite (.slotDiscard (.drop hw)) (.drop hw)
theorem updOp {n i g} (hw : WordsWf d) : WordsWf (d.updOp n i g) := .upd hw rfl
theorem endOp {n i status detail} (hw : WordsWf d) : WordsWf (d.endOp n i status detail) := by
  unfold Dev.endOp
  dsimp only
  split; exacts [hw, .ite hw (.upd hw rfl)]
theorem refuseOp {n i status} (hw : WordsWf d) : WordsWf (d.refuseOp n i status) := .endOp (.updOp hw)
theorem okOp {n i} (hw : WordsWf d) : WordsWf (d.okOp n i) := by
  unfold Dev.okOp
  split; exacts [hw, .endOp hw]
theorem winRead {use w off len tenant} (hw : WordsWf d) : WordsWf (d.winRead use w off len tenant) := .request hw
theorem winWrite {use w off tenant data m} (hw : WordsWf d) : WordsWf (winWrite use w off tenant data d m).1 := .nodeWrite hw
theorem targetRefused {status} (hw : WordsWf d) : WordsWf (d.targetRefused status) := .ite (.bump hw) hw
theorem reduceInto {use w win off tenant fmt redop c idx bad src m} (hw : WordsWf d) : WordsWf (reduceInto use w win off tenant fmt redop c idx
    bad src d m).1 :=
  .pair (.arith (.winWrite hw))
theorem askOp {n i} (hw : WordsWf d) : WordsWf (d.askOp n i) := by
  unfold Dev.askOp
  dsimp only
  split; exacts [hw, .ite hw (.winRead (.updOp hw))]
theorem deltaInFree {x} (hw : WordsWf d) : WordsWf (d.deltaInFree x) := .upd (.iteOf (.ite hw (.annexGive hw)) .annexGive) rfl
theorem deltaInPlace {site jobId rank win off tenant len q stack d'} (hw : WordsWf d)
    (hp : d.deltaInPlace site jobId rank win off tenant len q stack = some d') : WordsWf d' := by
  unfold Dev.deltaInPlace at hp
  dsimp only at hp
  split at hp
  · cases hp
  · next h => cases hp; exact WordsWf.annexPlace hw h
theorem deltaInOpen {site jobId rank win off tenant len q stack kind} (hw : WordsWf d) :
    WordsWf (d.deltaInOpen site jobId rank win off tenant len q stack kind).1 := by
  unfold Dev.deltaInOpen
  extract_lets old whole d1
  have h1 : WordsWf d1 := by dsimp only [d1, old]; split; exacts [.deltaInFree hw, hw]
  refine .iteFst hw (.iteFst hw ?_)
  split
  · exact h1
  · next h => exact WordsWf.deltaInPlace h1 h
theorem snapGive {x} (hw : WordsWf d) : WordsWf (d.snapGive x) := .ite hw (.ite (.annexGive (.annexGive hw)) (.annexGive hw))
theorem deltaApply {x fmt o resync data} (hw : WordsWf d) : WordsWf (d.deltaApply x fmt o resync data).1 := .pair (.upd hw rfl)
theorem atomArrive {r} (hw : WordsWf d) : WordsWf (d.atomArrive r) := .upd hw rfl
theorem launchLocal {o} (hw : WordsWf d) : WordsWf (d.launchLocal o) := by
  unfold Dev.launchLocal
  extract_lets x n i t len jid st d0
  have h0 : WordsWf d0 := .updOp hw
  exact .ite (.endOp (.targetRefused h0)) (.ite (.atomArrive h0) (.ite (.ite (.endOp (.deltaInOpen h0)) (.askOp (.deltaInOpen h0))) (.askOp h0)))
theorem launchOn {c o} (hw : WordsWf d) : WordsWf (d.launchOn c o) := .ite hw (.iteOf (.onCtx (.updOp hw)) .askOp)
theorem opSettle {n i} (hw : WordsWf d) : WordsWf (d.opSettle n i) := by
  unfold Dev.opSettle
  split; exacts [hw, .ite (.okOp hw) hw]
theorem combined {w redop faults m go} (hw : WordsWf d) (hgo : ∀ {x1 a x3}, WordsWf a → WordsWf (go x1 a x3).1) : WordsWf (combined w redop
    faults d m go).1.1 :=
  .pairFst (hgo (.ite (.set (.replays hw)) (.replays hw)))
theorem localDeliver {o off data faults m} (hw : WordsWf d) : WordsWf (localDeliver o off data faults d m).1.1 := by
  unfold Machine.localDeliver
  extract_lets x use t
  split
  · exact .pairFst (.combined hw .reduceInto)
  · exact .pairFst (.winWrite hw)
  · split; exacts [.pairFst (.pair hw), .pairFst (.winWrite (.deltaApply hw))]
  · exact .pairFst (.winWrite hw)
theorem opData {n i data faults m} (hw : WordsWf d) : WordsWf (opData n i data faults d m).1 := by
  unfold Machine.opData
  dsimp only
  split
  · exact .pair hw
  · refine .iteFst (.pair hw) ?_
    split
    · exact .pair (.ite (.endOp (.updOp (.localDeliver (.updOp (.usedFree hw))))) (.opSettle (.askOp (.updOp (.localDeliver (.updOp (.usedFree
          hw)))))))
    · exact .pair (.askOp (.onCtx (.updOp (.usedFree hw))))
theorem opAck {n i} (hw : WordsWf d) : WordsWf (d.opAck n i) := .opSettle (.updOp hw)
theorem updTgt {c opn g} (hw : WordsWf d) : WordsWf (d.updTgt c opn g) := .onCtx hw
theorem answer {c opn value} (hw : WordsWf d) : WordsWf (d.answer c opn value) := by
  unfold Dev.answer
  dsimp only
  split; exacts [hw, .ite hw (.onCtx (.updTgt hw))]
theorem failTgt {c opn status} (hw : WordsWf d) : WordsWf (d.failTgt c opn status) := .answer (.onCtx (.updTgt hw))
theorem tgtSettle {c opn} (hw : WordsWf d) : WordsWf (d.tgtSettle c opn) := by
  unfold Dev.tgtSettle
  split; exacts [hw, .ite (.answer hw) hw]
theorem askTgt {c opn} (hw : WordsWf d) : WordsWf (d.askTgt c opn) := by
  unfold Dev.askTgt
  dsimp only
  split; exacts [hw, .ite hw (.winRead (.updTgt hw))]
theorem tgtData {c opn data} (hw : WordsWf d) : WordsWf (d.tgtData c opn data) := .askTgt (.onCtx (.updTgt hw))
theorem updColl {id g} (hw : WordsWf d) : WordsWf (d.updColl id g) := .upd hw rfl
theorem updPiece {id j p g} (hw : WordsWf d) : WordsWf (d.updPiece id j p g) := .updColl hw
theorem collCount (hw : WordsWf d) : WordsWf d.collCount := .set hw
theorem collDiscard {id} (hw : WordsWf d) : WordsWf (d.collDiscard id) := .foldl (fun h' => .onCtx (.foldl .received h')) hw
theorem noticeStatus {id st} (hw : WordsWf d) : WordsWf (d.noticeStatus id st) := .upd hw rfl
theorem noteCollEnd {id key} (hw : WordsWf d) : WordsWf (d.noteCollEnd id key) := .upd hw rfl
theorem collFail {id st notify detail} (hw : WordsWf d) : WordsWf (d.collFail id st notify detail) := by
  unfold Dev.collFail
  split
  · exact hw
  · split
    · exact .ite (.noticeStatus (.updColl (.foldl .updOp hw))) hw
    · extract_lets st' d1 d2 d3 d4
      have h2 : WordsWf d2 := .updColl (.foldl .endOp hw)
      have h3 : WordsWf d3 := .upd h2 rfl
      have h4 : WordsWf d4 := .noteCollEnd (.collCount (.iteOf h3 .collDiscard))
      exact .iteOf h4 (.upd · rfl)

end WordsWf

/-! ### Accession -/

namespace WordsWf

theorem reserve {r} (hw : WordsWf d) : WordsWf (d.reserve r).2.1 := by
  unfold Dev.reserve
  dsimp only
  refine .iteSndFst hw (.iteSndFst hw (.iteSndFst hw ?_))
  split
  · exact hw
  · next h =>
    have h1 := WordsWf.annexPlace hw h
    split
    · exact hw
    · exact hw
    · exact .pairSnd (.pair (.onCtx (.foldl (fun h' => .borrow h') (.setBound (.setCtx h1)))))
theorem sendAccept {c m} (hw : WordsWf d) : WordsWf (d.sendAccept c m) := .send hw
theorem sendRefuse {m sealed st} (hw : WordsWf d) : WordsWf (d.sendRefuse m sealed st) := .send hw
theorem sendDeaccede {c typ st} (hw : WordsWf d) : WordsWf (d.sendDeaccede c typ st) := .send hw
theorem cmdDone {st stream} (hw : WordsWf d) : WordsWf (d.cmdDone st stream) := .iteElse (.set (.set (.set hw))) .set
theorem failKey {k st} (hw : WordsWf d) : WordsWf (d.failKey k st) := .foldl .collFail (.foldl .endOp hw)
theorem launchNext {c o} (hw : WordsWf d) : WordsWf (d.launchNext c o) := .ite (.launchOn hw) hw
theorem relaunch {c} (hw : WordsWf d) : WordsWf (d.relaunch c) := .ite (.foldl .launchNext hw) hw
theorem ctxOpened {c} (hw : WordsWf d) : WordsWf (d.ctxOpened c) :=
  .iteOf (.onCtx (.upd (.foldl .launchNext hw) rfl)) (fun h' => .cmdDone (.onCtx h'))
theorem openCtx {c m rtt fresh} (hw : WordsWf d) : WordsWf (d.openCtx c m rtt fresh) := .ctxOpened (.openKeys (.onCtx hw))
theorem ctxRefsDrop {c} (hw : WordsWf d) : WordsWf (d.ctxRefsDrop c) := .foldl .refDrop hw
theorem releaseCtx {c} (hw : WordsWf d) : WordsWf (d.releaseCtx c) := by
  unfold Dev.releaseCtx
  extract_lets x d0 d1 d2 t d3 d4 d5
  have h2 : WordsWf d2 := .setLent (.setLent (.ctxRefsDrop hw))
  have h3 : WordsWf d3 := .ite (.annexDrop h2) h2
  have h4 : WordsWf d4 := .ite (.annexDrop h3) h3
  have h5 : WordsWf d5 := .ite (.dropPair h4) h4
  exact .loanSync h5
theorem endWork {c st} (hw : WordsWf d) : WordsWf (d.endWork c st) := by
  unfold Dev.endWork
  extract_lets x colls d1 d2 d3 d4
  have h1 : WordsWf d1 := .foldl .endOp hw
  have h2 : WordsWf d2 := .ite (.failKey h1) h1
  have h3 : WordsWf d3 := .ite h2 (.foldl .collFail h2)
  have h4 : WordsWf d4 := .ctxRefsDrop h3
  exact .onCtx (.recoverGone h4)
theorem answerAccede {m r} (hw : WordsWf d) : WordsWf (d.answerAccede m r).1 := by
  unfold Dev.answerAccede
  extract_lets own p
  have hp : WordsWf p.2.1 := .reserve hw
  exact .iteFst (.pair (.sendRefuse hw)) (.iteFst (.pair (.sendRefuse (.releaseCtx hp))) (.pair (.openCtx (.sendAccept hp))))
theorem holdAccede {m} (hw : WordsWf d) : WordsWf (d.holdAccede m) := .upd hw rfl
theorem accedeNew {m job} (hw : WordsWf d) : WordsWf (d.accedeNew m job) := .ite (.answerAccede hw) (.holdAccede hw)
theorem startAccession {r} (hw : WordsWf d) : WordsWf (d.startAccession r).2.1 := by
  unfold Dev.startAccession
  dsimp only
  split
  · exact .pairSnd (.pair (.answerAccede (.upd hw rfl)))
  · exact .iteSndFst (.pairSnd (.pair hw)) (.pairSnd (.pair (.send (.reserve hw))))
theorem wantCtx {k home} (hw : WordsWf d) : WordsWf (d.wantCtx k home) :=
  .ite hw (.ite hw (.ite hw (.ite (.failKey (.startAccession hw)) (.startAccession hw))))
theorem accede {m} (hw : WordsWf d) : WordsWf (d.accede m) := by
  unfold Dev.accede
  dsimp only
  split
  · exact .sendRefuse hw
  · split
    · exact .accedeNew hw
    · split
      · exact .ite (.iteOf (.releaseCtx (.failKey hw)) .cmdDone) (.ite (.iteOf (.releaseCtx (.failKey hw)) .cmdDone) (.openCtx hw))
      · exact .ite (.sendAccept hw) (.wantCtx (.accedeNew (.releaseCtx (.endWork hw))))
      · exact .ite (.sendAccept hw) (.wantCtx (.accedeNew (.releaseCtx (.endWork hw))))
      · exact .holdAccede hw
theorem keyFree {k home} (hw : WordsWf d) : WordsWf (d.keyFree k home) := by
  unfold Dev.keyFree
  dsimp only
  exact .wantCtx (by split; exacts [.accede (.upd hw rfl), hw])
theorem closeCtx {c} (hw : WordsWf d) : WordsWf (d.closeCtx c) := .keyFree (.releaseCtx hw)
theorem settleFailed {c} (hw : WordsWf d) : WordsWf (d.settleFailed c) := .ite (.closeCtx hw) hw
theorem cmdEnd {c st} (hw : WordsWf d) : WordsWf (d.cmdEnd c st) := .ite (.cmdDone (.onCtx hw)) hw
theorem failCtx {c st} (hw : WordsWf d) : WordsWf (d.failCtx c st) := .ite hw (.settleFailed (.iteOf (.onCtx (.endWork (.cmdEnd hw))) .bump))
theorem quarTenant {t} (hw : WordsWf d) : WordsWf (d.quarTenant t) := .foldl .endOp (.foldl .collFail hw)
theorem quarantine {c st} (hw : WordsWf d) : WordsWf (d.quarantine c st) :=
  .ite hw (.iteOf (.upd (.alarm (.onCtx (.endWork (.cmdEnd hw)))) rfl) (fun h' => .quarTenant (.alarm (.set h'))))
theorem abortCtx {c notify} (hw : WordsWf d) : WordsWf (d.abortCtx c notify) :=
  .ite hw (.closeCtx (.iteOf (.onCtx (.endWork (.cmdEnd hw))) .sendDeaccede))
theorem markResend {c pick} (hw : WordsWf d) : WordsWf (d.markResend c pick) := .ite (.failCtx hw) (.ite (.onCtx (.lineSettle hw)) hw)
theorem eventOp {c g} (hw : WordsWf d) : WordsWf (d.eventOp c g) := .ite (.upd hw rfl) hw
theorem resendCarrier {m} (hw : WordsWf d) : WordsWf (d.resendCarrier m) := .foldl .markResend hw
theorem contact {p} (hw : WordsWf d) : WordsWf (d.contact p) := .ite (.set (.setPeer hw)) hw
theorem lostExit {p} (hw : WordsWf d) : WordsWf (d.lostExit p) := .ite (.set (.setPeer hw)) hw
theorem fromSite {site tagOk g} (hw : WordsWf d) (hg : ∀ {a : Dev}, WordsWf a → WordsWf (g a)) : WordsWf (d.fromSite site tagOk g) := by
  unfold Dev.fromSite
  split; exacts [.ite (hg (.contact hw)) hw, hw]

end WordsWf

/-! ### Codec -/

namespace WordsWf

theorem slotWrite {n w l v} (hw : WordsWf d) : WordsWf (d.slotWrite n w l v) :=
  .ite (.writeReg hw) (.ite (.ite (.set (.set (.writeReg hw))) (.writeReg hw)) (.ite (.slotDiscard (.writeReg hw)) (.writeReg hw)))
theorem histCount {slot w cf us} (hw : WordsWf d) : WordsWf (d.histCount slot w cf us) := .ite (.set (.upd hw rfl)) hw
theorem histFlush {slot w} (hw : WordsWf d) : WordsWf (d.histFlush slot w) := .ite hw (.upd hw rfl)
theorem histFlushAll {slot} (hw : WordsWf d) : WordsWf (d.histFlushAll slot) := .foldl .histFlush hw
theorem touchTab {w slot ver} (hw : WordsWf d) : WordsWf (d.touchTab w slot ver) := .upd hw rfl
theorem stage {w slot ver bound} (hw : WordsWf d) : WordsWf (d.stage w slot ver bound).1 := by
  unfold Dev.stage
  extract_lets mine new full
  split
  · exact .iteFst (.pair hw) (.pair (.upd hw rfl))
  · exact .iteFst (.pair hw) (.iteFst (.pair (.upd hw rfl)) (by split; exacts [.pair hw, .pair (.upd (.histFlush hw) rfl)]))

end WordsWf

theorem NextWf.execCodecSlotDataAccess {a} (hw : WordsWf s.dev) : NextWf (execCodecSlotDataAccess a s) := by
  unfold Machine.execCodecSlotDataAccess
  dsimp only
  refine .next (.iteDev (.onDev (.ite ?_ (.selNext ?_))) hw)
  · split; exacts [.emit (.set hw), .set hw]
  · split; exacts [.emit hw, .slotWrite hw]
theorem NextWf.execCodecStage {l v} (hw : WordsWf s.dev) : NextWf (execCodecStage l v s) :=
  .next (.iteDev (.onDev (.ite (.writeFields hw) (.ite (.set (.writeFields hw)) (.upd (.set (.set (.foldlFst (fun h' => .pair (.stage h')) (.pair
    (.writeFields hw))))) rfl)))) hw)
theorem NextWf.execStagingComplete {slot ver w} (hw : WordsWf s.dev) : NextWf (execStagingComplete slot ver w s) :=
  .next (.onDev (.ite (.ite (.set (.upd hw rfl)) (.upd hw rfl)) hw))
theorem NextWf.execCodecBuild {l v} (hw : WordsWf s.dev) : NextWf (execCodecBuild l v s) :=
  .next (.iteDev (.onDev (.ite hw (.ite (.set (.writeFields hw)) (.writeFields hw)))) hw)
theorem NextWf.execCodecBuildDone (hw : WordsWf s.dev) : NextWf (execCodecBuildDone s) := by
  unfold Machine.execCodecBuildDone
  dsimp only
  refine .next (.iteDev (.onBoth ?_) hw)
  split; exacts [.pair (.set (.set (.set (.upd hw rfl)))), .pair (.set (.set (.set (.upd hw rfl))))]

/-! ### K-wave carriers -/

namespace WordsWf

theorem setKw {m x} (hw : WordsWf d) : WordsWf (d.setKw m x) := .upd hw rfl
theorem onKw {m g} (hw : WordsWf d) : WordsWf (d.onKw m g) := .setKw hw
theorem setLine {m x} (hw : WordsWf d) : WordsWf (d.setLine m x) := .upd hw rfl
theorem onLine {m g} (hw : WordsWf d) : WordsWf (d.onLine m g) := .setLine hw
theorem setPm {e x} (hw : WordsWf d) : WordsWf (d.setPm e x) := .upd hw rfl
theorem onPm {e g} (hw : WordsWf d) : WordsWf (d.onPm e g) := .setPm hw
theorem pmDefect {e} (hw : WordsWf d) : WordsWf (d.pmDefect e) := .onPm hw
theorem losSet {m} (hw : WordsWf d) : WordsWf (d.losSet m) := .pmDefect (.set hw)
theorem dropTx {m} (hw : WordsWf d) : WordsWf (d.dropTx m) := .ite hw (.resendCarrier (.onLine hw))
theorem txLeave {m} (hw : WordsWf d) : WordsWf (d.txLeave m) := .resendCarrier (.onLine (.set (.onKw (.ite (.recoverStart hw) hw))))
theorem pathWatch {q site} (hw : WordsWf d) : WordsWf (d.pathWatch q site) := by
  unfold Dev.pathWatch
  split; exacts [.ite (.pmDefect hw) hw, hw]
theorem rxLeave {m} (hw : WordsWf d) : WordsWf (d.rxLeave m) := by
  unfold Dev.rxLeave
  dsimp only
  split
  · exact .send (.alarm (.pathWatch (.upd (.set (.onKw hw)) rfl)))
  · exact .alarm (.pathWatch (.upd (.set (.onKw hw)) rfl))
theorem pmDue {m till} (hw : WordsWf d) : WordsWf (d.pmDue m till) := by
  unfold Dev.pmDue
  dsimp only
  split; exacts [hw, .foldl (fun h' => (by split; exacts [.onPm (.onPm h'), .onPm h'])) (.onPm hw)]
theorem pmSettle (hw : WordsWf d) : WordsWf d.pmSettle := .foldl .pmDue hw
theorem pmLive {m} (hw : WordsWf d) : WordsWf (d.pmLive m) := by
  unfold Dev.pmLive
  dsimp only
  split
  · exact .ite hw (.onPm (.pmDue hw))
  · exact .onPm (.ite hw (.onPm (.pmDue hw)))
  · exact .onPm (.onPm (.ite hw (.onPm (.pmDue hw))))
theorem regroup {d0 : Dev} {m} (hw : WordsWf d0) : WordsWf (d0.regroup m) := by
  unfold Dev.regroup
  extract_lets d' x d1 d2
  have h' : WordsWf d' := .pmLive hw
  have h1 : WordsWf d1 := .ite (.ite h' (.txLeave h')) (.ite (.set (.onKw h')) h')
  have h2 : WordsWf d2 := .ite (.ite h1 (.ite (.set (.onKw h1)) (.rxLeave h1))) (.ite (.set (.onKw h1)) h1)
  exact .pathWatch h2
theorem onHeater {m h g} (hw : WordsWf d) : WordsWf (d.onHeater m h g) := .onKw hw
theorem crosstalk {m h dp} (hw : WordsWf d) : WordsWf (d.crosstalk m h dp) :=
  .ite hw (.iteOf (.iteOf (.iteOf (.ite (.onHeater hw) hw) .onHeater) .onHeater) .onHeater)
theorem changeHeater {m h g} (hw : WordsWf d) : WordsWf (d.changeHeater m h g) := .crosstalk (.onHeater hw)
theorem clipMark {m} (hw : WordsWf d) : WordsWf (d.clipMark m) := .foldl (fun h' => .ite (.bump (.onHeater h')) h') hw
theorem heaterWrite {d0 : Dev} {e} (hw : WordsWf d0) : WordsWf (d0.heaterWrite e) :=
  .iteOf (.set (.foldl (fun h' => .set (.set (.set (.set (.onKw h'))))) (.foldl .clipMark hw))) (fun h' => .alarm (.set h'))
theorem rebaseTerms {m} (hw : WordsWf d) : WordsWf (d.rebaseTerms m) := .foldl .changeHeater hw
theorem rebase {m} (hw : WordsWf d) : WordsWf (d.rebase m) := .heaterWrite (.rebaseTerms hw)
theorem chill {m} (hw : WordsWf d) : WordsWf (d.chill m) := .foldl .changeHeater hw
theorem darkTx {m} (hw : WordsWf d) : WordsWf (d.darkTx m) := .set (.onKw (.dropTx hw))
theorem startTx {m} (hw : WordsWf d) : WordsWf (d.startTx m) := .ite (.set (.set (.onKw (.dropTx hw)))) (.darkTx hw)
theorem loMoves {m k} (hw : WordsWf d) : WordsWf (d.loMoves m k) := .ite (.set hw) (.onPm (.set hw))
theorem startLo {m} (hw : WordsWf d) : WordsWf (d.startLo m) := .iteOf (.set (.onKw hw)) .loMoves
theorem ttiDrop {m} (hw : WordsWf d) : WordsWf (d.ttiDrop m) := .set (.set (.onLine (.foldl .set hw)))
theorem regroupEngine {e} (hw : WordsWf d) : WordsWf (d.regroupEngine e) := .foldl .regroup hw
theorem darkEngine {e} (hw : WordsWf d) : WordsWf (d.darkEngine e) := .regroupEngine (.foldl (fun h' => .onKw (.darkTx h')) hw)
theorem noDefects {m} (hw : WordsWf d) : WordsWf (d.noDefects m) := .set (.set (.set hw))
theorem enterOof {m} (hw : WordsWf d) : WordsWf (d.enterOof m) := .ttiDrop (.iteElse (.onLine (.set hw)) (fun h' => .pmDefect (.bump (.set h'))))
theorem planeLost {e} (hw : WordsWf d) : WordsWf (d.planeLost e) :=
  .alarm (.foldl (fun h' => .iteOf (.iteOf (.ite (.losSet h') h') (fun h'' => .txLeave (.onKw h''))) .rxLeave) (.recoverStart hw))
theorem pulseStart {m h p start ends} (hw : WordsWf d) : WordsWf (d.pulseStart m h p start ends) := .heaterWrite (.changeHeater hw)
theorem backTo {t g} (hw : WordsWf d) (hg : ∀ {a : Dev}, WordsWf a → WordsWf (g a)) : WordsWf (d.backTo t g) :=
  .upd (hg (a := { d with now := t }) (.upd hw rfl)) rfl
theorem ownPulse {e v T} (hw : WordsWf d) : WordsWf (d.ownPulse e v T) := .ite (.onKw hw) (.ite (.onKw hw) (.backTo (.onKw hw) .pulseStart))
theorem leadNow {e} (hw : WordsWf d) : WordsWf (d.leadNow e) := .ite (.ownPulse hw) hw
theorem listen {m} (hw : WordsWf d) : WordsWf (d.listen m) := by
  unfold Dev.listen
  dsimp only
  exact .ite hw (by split; exacts [hw, .ite hw (.ite (.onKw hw) (.rebase (.enterOof (.onKw (.set (.loMoves (.onKw hw)))))))])
theorem rxLocked {m} (hw : WordsWf d) : WordsWf (d.rxLocked m) := .regroup (.enterOof (.set (.set (.onKw hw))))
theorem rxLockLost {m} (hw : WordsWf d) : WordsWf (d.rxLockLost m) := .ite (.ite (.set hw) (.regroup (.upd (.losSet (.set hw)) rfl))) hw
theorem txLockLost {m} (hw : WordsWf d) : WordsWf (d.txLockLost m) := .ite (.iteOf (.set (.onKw hw)) (fun h' => .alarm (.txLeave (.onKw h')))) hw
theorem guardOver {m} (hw : WordsWf d) : WordsWf (d.guardOver m) :=
  .ite (.ite (.losSet hw) hw) (.iteElse (.ite hw (.losSet hw)) (fun h' => .pmDefect (.set h')))
theorem pathClear {p} (hw : WordsWf d) : WordsWf (d.pathClear p) := .upd hw rfl
theorem clipPwr {m} (hw : WordsWf d) : WordsWf (d.clipPwr m) := .set hw
theorem carCfgWrite {m l w} (hw : WordsWf d) : WordsWf (d.carCfgWrite m l w) :=
  .ite hw (.ite (.set hw) (.ite (.ite (.set (.set (.clipPwr (.writeReg hw)))) (.regroup (.rebase (.startLo (.startTx (.onKw (.clipPwr (.writeReg
    hw)))))))) (.iteOf (.clipPwr (.writeReg hw)) (fun h' => .ite (.set (.set h')) (.heaterWrite (.chill (.regroup (.onKw (.set (.darkTx
    h'))))))))))
theorem pathWrite {m v} (hw : WordsWf d) : WordsWf (d.pathWrite m v) := .upd hw rfl
theorem txMonitors {m v} (hw : WordsWf d) : WordsWf (d.txMonitors m v) := .set (.set (.set hw))
theorem rxMonitors {m v} (hw : WordsWf d) : WordsWf (d.rxMonitors m v) := .set (.set (.set (.set (.set (.set (.set hw))))))
theorem heaterLoops {m errs} (hw : WordsWf d) : WordsWf (d.heaterLoops m errs) := .ite hw (.heaterWrite (.foldl .changeHeater (.onKw hw)))
theorem thermalLoss {m} (hw : WordsWf d) : WordsWf (d.thermalLoss m) := .iteElse (.ite hw (.txLockLost hw)) .rxLockLost

end WordsWf

theorem NextWf.execFineLock {m lo} (hw : WordsWf s.dev) : NextWf (execFineLock m lo s) :=
  .next (.onDev (.ite (.iteOf (.listen (.leadNow hw)) .onKw) (.iteOf (.listen (.leadNow hw)) (fun h' => .regroup (.iteOf (.onLine (.set (.onKw
    h'))) .bump)))))
theorem NextWf.execReceiverRelock {m ok} (hw : WordsWf s.dev) : NextWf (execReceiverRelock m ok s) :=
  .next (.onDev (.ite (.ite (.rxLocked (.listen hw)) (.onKw (.listen hw))) (.listen hw)))
theorem NextWf.execColdAcquisition {m} (hw : WordsWf s.dev) : NextWf (execColdAcquisition m s) :=
  .next (.onDev (.ite (.ite (.rxLocked (.regroup (.losSet (.bump (.listen hw))))) (.rxLocked (.bump (.listen hw)))) (.listen hw)))
theorem NextWf.execReceiverLockLoss {m} (hw : WordsWf s.dev) : NextWf (execReceiverLockLoss m s) := .next (.onDev (.rxLockLost (.listen hw)))
theorem NextWf.execTransmitterLockLoss {m} (hw : WordsWf s.dev) : NextWf (execTransmitterLockLoss m s) := .next (.onDev (.txLockLost hw))
theorem NextWf.execHeaterPulseEnd {m h} (hw : WordsWf s.dev) : NextWf (execHeaterPulseEnd m h s) :=
  .next (.onDev (.iteOf (.clipMark (.leadNow hw)) (fun h' => .heaterWrite (.changeHeater h'))))
theorem NextWf.execGuardEnd {m} (hw : WordsWf s.dev) : NextWf (execGuardEnd m s) :=
  .next (.onDev (.regroup (.ite (.guardOver (.setKw hw)) (.setKw hw))))
theorem NextWf.execConnectorChange {f present} (hw : WordsWf s.dev) : NextWf (execConnectorChange f present s) :=
  .next (.onDev (.iteElse (.upd (.set hw) rfl) (fun h' => .foldl .darkEngine h')))
theorem NextWf.execConnectorSettle {f} (hw : WordsWf s.dev) : NextWf (execConnectorSettle f s) :=
  .next (.onDev (.ite (.foldl (fun h' => .heaterWrite (.foldl (fun h'' => .rebaseTerms (.startTx h'')) h')) (.upd hw rfl)) hw))
theorem NextWf.execFibreLos {e rxTotal} (hw : WordsWf s.dev) : NextWf (execFibreLos e rxTotal s) :=
  .next (.onDev (.ite (.ite (.planeLost (.set (.set hw))) (.set (.set hw))) hw))
theorem NextWf.execPicTempDeviation {e temp} (hw : WordsWf s.dev) : NextWf (execPicTempDeviation e temp s) :=
  .next (.onDev (.ite (.ite (.darkEngine (.planeLost (.upd (.alarm (.set (.set hw))) rfl))) (.ite (.alarm (.set (.set hw))) (.upd (.set hw) rfl)))
    hw))
theorem NextWf.execPathReportReceive {r tagOk} (hw : WordsWf s.dev) : NextWf (execPathReportReceive r tagOk s) := by
  unfold Machine.execPathReportReceive
  dsimp only
  refine .next (.onDev (.ite (.ite ?_ (.identBad hw)) hw))
  split; exacts [.iteElse (.set (.contact hw)) (fun h' => .upd h' rfl), hw]
theorem NextWf.execPathClear {m} (hw : WordsWf s.dev) : NextWf (execPathClear m s) := .next (.iteDev (.onDev (.pathClear hw)) hw)
theorem NextWf.execPathClearAll (hw : WordsWf s.dev) : NextWf (execPathClearAll s) := .next (.iteDev (.onDev (.pathClear hw)) hw)
theorem NextWf.execCarrierCfgWrite {m l d} (hw : WordsWf s.dev) : NextWf (execCarrierCfgWrite m l d s) :=
  .next (.iteDev (.onDev (.carCfgWrite hw)) hw)

/-! ### Framer -/

namespace WordsWf

theorem encode {m f} (hw : WordsWf d) : WordsWf (d.encode m f) := .emit (.setLine hw)
theorem setMark {p x} (hw : WordsWf d) : WordsWf (d.setMark p x) := .upd hw rfl
theorem setServo {i x} (hw : WordsWf d) : WordsWf (d.setServo i x) := .upd hw rfl
theorem timeSent {p typ} (hw : WordsWf d) : WordsWf (d.timeSent p typ) := .ite (.setMark hw) (.ite (.usedFree hw) hw)
theorem noticeSent {n} (hw : WordsWf d) : WordsWf (d.noticeSent n) := .upd hw rfl
theorem ctlStamp {c} (hw : WordsWf d) : WordsWf (d.ctlStamp c).1 := by
  unfold Dev.ctlStamp
  split; exacts [.pair (.ite (.setCtx hw) hw), hw]
theorem noteGone {x} (hw : WordsWf d) : WordsWf (d.noteGone x) := by
  unfold Dev.noteGone
  dsimp only
  split; exacts [.ite hw (.lostExit (.setPeer hw)), hw]
theorem loadCtl {m} (hw : WordsWf d) : WordsWf (d.loadCtl m).1 := by
  unfold Dev.loadCtl
  refine .iteFst (.pair hw) ?_
  split
  · exact .pair hw
  · split
    · exact .pair hw
    · extract_lets c first
      split
      · exact .pair (.onLine (.emit (.noticeSent hw)))
      · exact .pair hw
      · extract_lets st
        have h : WordsWf st.1 := .ctlStamp (.upd hw rfl)
        exact .pair (.onLine h)
theorem sendFrame {m fill} (hw : WordsWf d) : WordsWf (d.sendFrame m fill) := by
  unfold Dev.sendFrame
  extract_lets q ld d1 x k jc may free pk site bk bei bdi tf f d2 d3 d4
  have h1 : WordsWf d1 := .loadCtl hw
  have h3 : WordsWf d3 := by dsimp only [d3]; clear_value site; split; exacts [.upd h1 rfl, .onLine h1]
  exact .encode (.emit (.noteGone (.timeSent (.iteOf h3 .onKw))))
theorem align {m ok} (hw : WordsWf d) : WordsWf (d.align m ok).1 := by
  unfold Dev.align
  extract_lets x
  exact .iteFst (.iteFst (.pair (.onLine hw)) (.iteFst (.pair (.onLine hw)) (.pair (.enterOof hw)))) (.iteFst (.pair (.onLine (.set (.set hw))))
      (.pair (.onLine hw)))
theorem rxId {m f} (hw : WordsWf d) : WordsWf (d.rxId m f) := .set (.set (.set (.set (.set hw))))
theorem ttiCompare {m t} (hw : WordsWf d) : WordsWf (d.ttiCompare m t) := .ite hw (.ite (.ite (.pmDefect (.set hw)) (.set hw)) (.set hw))
theorem ttiFeed {m f} (hw : WordsWf d) : WordsWf (d.ttiFeed m f) :=
  .ite (.onLine hw) (.ite (.onLine hw) (.iteElse (.set (.foldl .set (.onLine hw))) .ttiCompare))
theorem ctlFeed {m f} (hw : WordsWf d) : WordsWf (d.ctlFeed m f) := by
  unfold Dev.ctlFeed
  dsimp only
  exact .ite (.onLine hw) (.ite hw (by split; exacts [.onLine hw, .onLine hw, .ite (.onLine hw) (.emit (.onLine hw))]))
theorem segFeed {m f jc bad} (hw : WordsWf d) : WordsWf (d.segFeed m f jc bad) :=
  .foldl (fun h' => .ite (.bump h') (.emit h')) (.onLine (.ite (.bump hw) hw))
theorem wakeSeen {m} (hw : WordsWf d) : WordsWf (d.wakeSeen m) := .ite (.bump (.onKw hw)) hw
theorem pmFrame {m f ok bad} (hw : WordsWf d) : WordsWf (d.pmFrame m f ok bad) := .ite hw (.ite (.upd hw rfl) (.onPm hw))
theorem pmWords {m bad} (hw : WordsWf d) : WordsWf (d.pmWords m bad) := .ite hw (.onPm hw)
theorem frameIn {m f bad} (hw : WordsWf d) : WordsWf (d.frameIn m f bad) := by
  unfold Dev.frameIn
  extract_lets guard jump d1 d2 ok d3 d4 d5 d6 d7 jc d8
  have h1 : WordsWf d1 := .ite (.bump hw) hw
  have h2 : WordsWf d2 := .rxId h1
  have h3 : WordsWf d3 := .ite h2 (.bump h2)
  have h4 : WordsWf d4 := .onLine (.pmFrame h3)
  have h5 : WordsWf d5 := by dsimp only [d5]; split; exacts [.contact h4, h4]
  have h6 : WordsWf d6 := .ite (.wakeSeen h5) h5
  have h7 : WordsWf d7 := .ttiFeed h6
  have h8 : WordsWf d8 := .ite (.bump h7) h7
  exact .ite (.onLine h8) (.ite (.segFeed (.ctlFeed h8)) (.onLine (.ctlFeed h8)))

end WordsWf

theorem NextWf.execFrameTransmit {m fill} (hw : WordsWf s.dev) : NextWf (execFrameTransmit m fill s) := .next (.onDev (.ite (.sendFrame hw) hw))
theorem NextWf.execFrameReceive {m f bad} (hw : WordsWf s.dev) : NextWf (execFrameReceive m f bad s) :=
  .next (.onDev (.ite (.regroup (.ite (.frameIn (.align (.listen hw))) (.pmWords (.align (.listen hw))))) (.listen hw)))
theorem NextWf.execCarrierOutReceive {msg tagOk} (hw : WordsWf s.dev) : NextWf (execCarrierOutReceive msg tagOk s) := by
  unfold Machine.execCarrierOutReceive
  refine .next (.onDev (.ite (.ite ?_ (.identBad hw)) hw))
  extract_lets d0
  have h0 : WordsWf d0 := by dsimp only [d0]; split; exacts [.contact hw, hw]
  clear_value d0
  split
  · exact .ite (.txLeave (.onKw (.alarm (.set h0)))) h0
  · exact h0

/-! ### Performance monitoring -/

namespace WordsWf

theorem pmFlush {ent} (hw : WordsWf d) : WordsWf (d.pmFlush ent) := .ite (.pmDue hw) (.foldl .pmDue hw)
theorem pmNext {ent} (hw : WordsWf d) : WordsWf (d.pmNext ent) := .onPm (.pmFlush hw)
theorem alerts {ent} (hw : WordsWf d) : WordsWf (d.alerts ent) := .setPm (.foldl .alarm (.foldl .alarm hw))
theorem gaugeAlerts {ent} (hw : WordsWf d) : WordsWf (d.gaugeAlerts ent) := .ite hw (.setPm (.iteOf (.ite (.alarm hw) hw) .alarm))
theorem pmSecond {ent} (hw : WordsWf d) : WordsWf (d.pmSecond ent) := .iteOf (.pmNext (.gaugeAlerts (.alerts (.setPm hw)))) .set
theorem pmStepped (hw : WordsWf d) : WordsWf d.pmStepped := .upd hw rfl
theorem pmStep {forward} (hw : WordsWf d) : WordsWf (d.pmStep forward) := .upd hw rfl
theorem pmDirty {ent} (hw : WordsWf d) : WordsWf (d.pmDirty ent) := .onPm hw
theorem hear {m site v} (hw : WordsWf d) : WordsWf (d.hear m site v) := by
  unfold Dev.hear
  dsimp only
  split; exacts [.set (.upd hw rfl), .upd hw rfl]
theorem pmSample {m v rx tx} (hw : WordsWf d) : WordsWf (d.pmSample m v rx tx) := by
  unfold Dev.pmSample
  dsimp only
  exact .ite hw (.iteOf (.iteOf (.ite (.onPm hw) hw) .onPm) (fun h' => (by split; exacts [.onPm (.onPm h'), .onPm h'])))
theorem monitorSample {m v} (hw : WordsWf d) : WordsWf (d.monitorSample m v) := by
  unfold Dev.monitorSample
  extract_lets e d0 d1 tx rx d2 a d3
  have h2 : WordsWf d2 := .iteOf (.set (.set (.set (.heaterLoops hw)))) .txMonitors
  have h3 : WordsWf d3 := by
    dsimp only [d3]
    refine .ite ?_ h2
    have ha : WordsWf a := .pathWrite (.rxMonitors h2)
    split; exacts [.hear ha, ha]
  exact .thermalLoss (.pmSample h3)

end WordsWf

theorem NextWf.execPmSecond {ent} (hw : WordsWf s.dev) : NextWf (execPmSecond ent s) := .next (.onDev (.ite (.pmSecond hw) (.pmNext hw)))
theorem NextWf.execMonitorSample {m v} (hw : WordsWf s.dev) : NextWf (execMonitorSample m v s) :=
  .next (.onDev (.ite (.monitorSample (.listen (.leadNow hw))) hw))

/-! ### Itinerary -/

namespace WordsWf

theorem launchOne {w} (hw : WordsWf d) : WordsWf (d.launchOne w) := .upd hw rfl
theorem parkBits {m} (hw : WordsWf d) : WordsWf (d.parkBits m) := .iteOf (.set (.set hw)) (fun h' => .noDefects (.onKw h'))
theorem schedStep {m e} (hw : WordsWf d) : WordsWf (d.schedStep m e) := .ite hw (.parkBits (.setSched hw))
theorem runEntry {w action act} (hw : WordsWf d) (hact : ∀ {x1 x2 a}, WordsWf a → WordsWf (act x1 x2 a)) : WordsWf (d.runEntry w action act) := by
  unfold Dev.runEntry
  dsimp only
  split
  · exact hw
  · exact .ite hw (.ite (.bump (.set (.set hw))) (.ite (.bump (.bump (.schedStep (.set hw)))) (.ite (.bump (.schedStep (.set hw))) (hact (.bump
        (.launchOne (.ite (.bump (.set hw)) (.set hw))))))))
theorem guardTx {m ends} (hw : WordsWf d) : WordsWf (d.guardTx m ends) := .ite (.onKw hw) hw
theorem guardRx {m ends} (hw : WordsWf d) : WordsWf (d.guardRx m ends) := .ite (.onKw hw) hw
theorem retuneAct {m e} (hw : WordsWf d) : WordsWf (retuneAct m e d) := by
  unfold Machine.retuneAct
  extract_lets g ends d1 d2 d3
  have h1 : WordsWf d1 := .schedStep hw
  have h2 : WordsWf d2 := .ite (.startTx (.guardTx h1)) h1
  have h3 : WordsWf d3 := .ite (.enterOof (.startLo (.guardRx h2))) h2
  exact .pathWatch (.regroup (.rebase h3))
theorem rxDark {m} (hw : WordsWf d) : WordsWf (d.rxDark m) := .noDefects (.set (.set (.set (.onKw hw))))
theorem parkAct {m e} (hw : WordsWf d) : WordsWf (parkAct m e d) := by
  unfold Machine.parkAct
  extract_lets x l tx rx d1 d2 d3
  have h1 : WordsWf d1 := .parkBits (.setSched hw)
  have h2 : WordsWf d2 := .ite (.bump (.darkTx (.set (.onKw h1)))) h1
  have h3 : WordsWf d3 := .ite (.bump (.rxDark h2)) h2
  exact .pathWatch (.regroup (.rebase h3))
theorem wakeTx {m ends slot} (hw : WordsWf d) : WordsWf (d.wakeTx m ends slot) :=
  .iteOf (.bump (.startTx (.onKw (.guardTx (.parkBits (.setSched hw)))))) .onKw
theorem wakeRx {m ends check} (hw : WordsWf d) : WordsWf (d.wakeRx m ends check) := .startLo (.onKw (.guardRx (.parkBits (.setSched hw))))
theorem wakeAct {m e} (hw : WordsWf d) : WordsWf (wakeAct m e d) :=
  .regroup (.rebase (.iteOf (.ite (.wakeTx hw) hw) (fun h' => .bump (.wakeRx h'))))
theorem pulseAct {m e} {d0 : Dev} (hw : WordsWf d0) : WordsWf (pulseAct m e d0) := .ite (.leadNow hw) (.pulseStart (.leadNow hw))
theorem wakeRequest {m} (hw : WordsWf d) : WordsWf (d.wakeRequest m) := by
  unfold Dev.wakeRequest
  dsimp only
  exact .ite hw (.ite (.onKw hw) (by split; exacts [hw, .ite hw (.ite (.bump (.upd hw rfl)) (.onKw hw))]))
theorem fromPeer {site gw tagOk g} (hw : WordsWf d) (hg : ∀ {x1 a}, WordsWf a → WordsWf (g x1 a)) : WordsWf (d.fromPeer site gw tagOk g) := by
  unfold Dev.fromPeer
  exact .ite (.ite (by split; exacts [hg (.contact hw), hw]) (.identBad hw)) hw
theorem rejoinRx {m} (hw : WordsWf d) : WordsWf (d.rejoinRx m) := .ite (.onKw hw) (.rebase (.enterOof (.startLo (.guardRx (.onKw hw)))))
theorem rejoinTx {m} (hw : WordsWf d) : WordsWf (d.rejoinTx m) := .iteElse (.set (.onKw hw)) (fun h' => .rebase (.startTx (.guardTx h')))
theorem dropPage (hw : WordsWf d) : WordsWf d.dropPage := .upd (.set (.set (.set (.set (.set hw))))) rfl
theorem dropCat (hw : WordsWf d) : WordsWf d.dropCat := .upd (.set (.set (.set (.set (.set hw))))) rfl
theorem activatePage (hw : WordsWf d) : WordsWf d.activatePage :=
  .ite (.upd (.iteOf (.set (.set (.set (.set (.set (.set (.set (.foldl (fun h' => .set (.bump h')) hw)))))))) .set) rfl) hw
theorem itinCancel (hw : WordsWf d) : WordsWf d.itinCancel := .ite (.ite (.set hw) (.dropPage (.upd hw rfl))) hw
theorem catCancel (hw : WordsWf d) : WordsWf d.catCancel := by
  unfold Dev.catCancel
  split; exacts [.ite (.set hw) (.dropCat (.upd hw rfl)), hw]
theorem pageRead (hw : WordsWf d) : WordsWf d.pageRead := .ite (.ite (.set (.emit hw)) (.emit hw)) (.emit (.set hw))
theorem catRead (hw : WordsWf d) : WordsWf d.catRead := .ite (.ite (.set (.emit hw)) (.emit hw)) (.emit (.set hw))

end WordsWf

theorem NextWf.execItineraryNop {w} (hw : WordsWf s.dev) : NextWf (execItineraryNop w s) := .next (.onDev (.runEntry hw (fun h' => h')))
theorem NextWf.execRetune {w} (hw : WordsWf s.dev) : NextWf (execRetune w s) := .next (.onDev (.runEntry hw .retuneAct))
theorem NextWf.execWindowOpen {w} (hw : WordsWf s.dev) : NextWf (execWindowOpen w s) := .next (.onDev (.runEntry hw .schedStep))
theorem NextWf.execWindowClose {w} (hw : WordsWf s.dev) : NextWf (execWindowClose w s) := .next (.onDev (.runEntry hw .schedStep))
theorem NextWf.execPark {w} (hw : WordsWf s.dev) : NextWf (execPark w s) := .next (.onDev (.runEntry hw .parkAct))
theorem NextWf.execWake {w} (hw : WordsWf s.dev) : NextWf (execWake w s) := .next (.onDev (.runEntry hw .wakeAct))
theorem NextWf.execHeaterFf {w} (hw : WordsWf s.dev) : NextWf (execHeaterFf w s) := .next (.onDev (.runEntry hw .pulseAct))
theorem NextWf.execWakeRequest {m} (hw : WordsWf s.dev) : NextWf (execWakeRequest m s) := .next (.iteDev (.onDev (.ite (.wakeRequest hw) hw)) hw)
theorem NextWf.execWakeSlot {m} (hw : WordsWf s.dev) : NextWf (execWakeSlot m s) :=
  .next (.onDev (.ite (.ite (.onKw hw) hw) (.regroup (.rebase (.iteOf (.ite (.wakeTx hw) hw) .wakeRx)))))
theorem NextWf.execWakeCheckExpiry {m} (hw : WordsWf s.dev) : NextWf (execWakeCheckExpiry m s) :=
  .next (.onDev (.ite (.regroup (.rebase (.rxDark (.parkBits (.setSched hw))))) hw))
theorem NextWf.execParkCancelReceive {msg tagOk} (hw : WordsWf s.dev) : NextWf (execParkCancelReceive msg tagOk s) := by
  unfold Machine.execParkCancelReceive
  dsimp only
  refine .next (.onDev (.fromPeer hw (fun h' => ?_)))
  split
  · exact h'
  · refine .ite h' ?_
    split; exacts [.ite (.bump h') (.set h'), .ite (.set h') h']
theorem NextWf.execRelockAttempt {m ok} (hw : WordsWf s.dev) : NextWf (execRelockAttempt m ok s) := by
  unfold Machine.execRelockAttempt
  dsimp only
  refine .next (.onDev (.ite ?_ hw))
  split
  · exact .iteElse (.rxLocked (.rebase (.loMoves (.onKw hw)))) (fun h' => .upd h' rfl)
  · exact .rxLocked (.rebase (.loMoves (.onKw hw)))
theorem NextWf.execReturnReceive {msg tagOk} (hw : WordsWf s.dev) : NextWf (execReturnReceive msg tagOk s) := by
  unfold Machine.execReturnReceive
  dsimp only
  exact .next (.onDev (.fromPeer hw (fun h' => (by split; exacts [h', .send (by split; exacts [h', .upd h' rfl])]))))
theorem NextWf.execReturnAckReceive {msg tagOk} (hw : WordsWf s.dev) : NextWf (execReturnAckReceive msg tagOk s) :=
  .next (.onDev (.fromPeer hw (fun h' => .upd h' rfl)))
theorem NextWf.execCarrierRejoin {m} (hw : WordsWf s.dev) : NextWf (execCarrierRejoin m s) :=
  .next (.onDev (.regroup (.iteOf (.ite (.upd (.rejoinRx hw) rfl) hw) (fun h' => .upd (.rejoinTx h') rfl))))
theorem NextWf.execAnnounceReceive {msg tagOk} (hw : WordsWf s.dev) : NextWf (execAnnounceReceive msg tagOk s) := by
  unfold Machine.execAnnounceReceive
  dsimp only
  exact .next (.onDev (.fromPeer hw (fun h' => .ite (by split; exacts [.ite (.ite (.set h') (.ite (.set h') h')) h', h']) (.ite (.ite (.set h')
      h') h'))))
theorem NextWf.execCancelReceive {msg tagOk} (hw : WordsWf s.dev) : NextWf (execCancelReceive msg tagOk s) :=
  .next (.onDev (.fromPeer hw (fun h' => .ite (.ite (.ite (.set h') (.dropCat h')) h') (.ite (.ite (.ite (.set h') (.dropPage h')) h') h'))))
theorem NextWf.execCommitPoint {k} (hw : WordsWf s.dev) : NextWf (execCommitPoint k s) := by
  unfold Machine.execCommitPoint
  exact .next (.onDev (by split; exacts [.ite (.set (.set hw)) hw, .ite (.set hw) hw]))
theorem NextWf.execPageActivate (hw : WordsWf s.dev) : NextWf (execPageActivate s) := .next (.onDev (.ite (.activatePage hw) hw))
theorem NextWf.execItinCancel (hw : WordsWf s.dev) : NextWf (execItinCancel s) := .next (.iteDev (.onDev (.itinCancel hw)) hw)
theorem NextWf.execCatCancel (hw : WordsWf s.dev) : NextWf (execCatCancel s) := .next (.iteDev (.onDev (.catCancel hw)) hw)
theorem NextWf.execCepHoldEnd (hw : WordsWf s.dev) : NextWf (execCepHoldEnd s) := .next (.onDev (.ite (.set hw) hw))
theorem NextWf.execItinPageDataRead (hw : WordsWf s.dev) : NextWf (execItinPageDataRead s) := .next (.iteDev (.onDev (.pageRead hw)) hw)
theorem NextWf.execCatDataRead (hw : WordsWf s.dev) : NextWf (execCatDataRead s) := .next (.iteDev (.onDev (.catRead hw)) hw)

/-! ### Publication of tables -/

namespace WordsWf

theorem updPub {site txn g} (hw : WordsWf d) : WordsWf (d.updPub site txn g) := .upd hw rfl
theorem delPub {site txn} (hw : WordsWf d) : WordsWf (d.delPub site txn) := .upd hw rfl
theorem pubSent {site} (hw : WordsWf d) : WordsWf (d.pubSent site) := .upd hw rfl
theorem pubActivate {p} (hw : WordsWf d) : WordsWf (d.pubActivate p) := .ite (.delPub (.set (.set hw))) (.updPub (.set (.set hw)))
theorem pubOpEnd {p st} (hw : WordsWf d) : WordsWf (d.pubOpEnd p st) := by
  unfold Dev.pubOpEnd
  split; exacts [.ite (.okOp hw) (.endOp hw), hw]
theorem pubAbort {p st} (hw : WordsWf d) : WordsWf (d.pubAbort p st) := .pubOpEnd (.set (.updPub hw))
theorem pubSettle {site txn} (hw : WordsWf d) : WordsWf (d.pubSettle site txn) := by
  unfold Dev.pubSettle
  dsimp only
  split; exacts [hw, .ite hw (.ite (.delPub hw) (.ite (.delPub (.pubOpEnd hw)) (.pubOpEnd hw)))]
theorem pubDecide {site txn} (hw : WordsWf d) : WordsWf (d.pubDecide site txn) := by
  unfold Dev.pubDecide
  split; exacts [hw, .ite hw (by split; exacts [.pubAbort hw, .pubSettle (.updPub hw)])]
theorem pubPeerLost {site} (hw : WordsWf d) : WordsWf (d.pubPeerLost site) :=
  .foldl (fun h' => .ite (.pubSettle (.updPub (.ite (.pubAbort h') (.ite (.pubOpEnd h') h')))) h') hw
theorem pubStart {n i slot act jobId img} (hw : WordsWf d) : WordsWf (d.pubStart n i slot act jobId img) :=
  .ite hw (.foldl .pubPeerLost (.pubDecide (.set (.set (.upd hw rfl)))))
theorem reserveWhole {m img} (hw : WordsWf d) : WordsWf (d.reserveWhole m img) := by
  unfold Dev.reserveWhole
  dsimp only
  split; exacts [.send hw, .ite (.send hw) (.ite (.send hw) (.ite (.send hw) (.send (.set (.set (.upd hw rfl))))))]
theorem reserveFrag {m} (hw : WordsWf d) : WordsWf (d.reserveFrag m) := .ite hw (.ite (.reserveWhole (.upd hw rfl)) (.upd hw rfl))
theorem service {m tagOk g} (hw : WordsWf d) (hg : ∀ {a : Dev}, WordsWf a → WordsWf (g a)) : WordsWf (d.service m tagOk g) :=
  .fromPeer hw (fun h' => .ite (hg h') h')
theorem deltaRelease {s} (hw : WordsWf d) : WordsWf (d.deltaRelease s) := by
  unfold Dev.deltaRelease
  extract_lets d0
  have h0 : WordsWf d0 := .setWord (.setWord hw)
  split
  · exact h0
  · refine .ite ?_ (.upd (.setWord (.setWord (.snapGive hw))) rfl)
    split
    · exact .deltaInFree (.upd (.setWord (.setWord (.snapGive hw))) rfl)
    · exact .upd (.setWord (.setWord (.snapGive hw))) rfl
theorem deltaPeerLost {site} (hw : WordsWf d) : WordsWf (d.deltaPeerLost site) := .foldl .deltaInFree hw

end WordsWf

theorem NextWf.execPubReserveReceive {m tagOk} (hw : WordsWf s.dev) : NextWf (execPubReserveReceive m tagOk s) :=
  .next (.onDev (.service hw .reserveFrag))
theorem NextWf.execPubAnswerReceive {m tagOk} (hw : WordsWf s.dev) : NextWf (execPubAnswerReceive m tagOk s) := by
  unfold Machine.execPubAnswerReceive
  exact .next (.onDev (.service hw (fun h' => (by split; exacts [h', .ite (.pubDecide (.updPub h')) h']))))
theorem NextWf.execPubCommitReceive {m tagOk} (hw : WordsWf s.dev) : NextWf (execPubCommitReceive m tagOk s) :=
  .next (.onDev (.service hw (fun h' => .send (.updPub h'))))
theorem NextWf.execPubAbortReceive {m tagOk} (hw : WordsWf s.dev) : NextWf (execPubAbortReceive m tagOk s) := by
  unfold Machine.execPubAbortReceive
  dsimp only
  exact .next (.onDev (.service hw (fun h' => .send (by split; exacts [h', .ite h' (.delPub (.set h'))]))))
theorem NextWf.execPubCommitAckReceive {m tagOk} (hw : WordsWf s.dev) : NextWf (execPubCommitAckReceive m tagOk s) := by
  unfold Machine.execPubCommitAckReceive
  exact .next (.onDev (.service hw (fun h' => (by split; exacts [h', .ite (.pubSettle (.updPub h')) h']))))
theorem NextWf.execReserveDiscard {txn} (hw : WordsWf s.dev) : NextWf (execReserveDiscard txn s) := .next (.onDev (.upd hw rfl))
theorem NextWf.execCodecInstall {slot} (hw : WordsWf s.dev) : NextWf (execCodecInstall slot s) := by
  unfold Machine.execCodecInstall
  dsimp only
  refine .next (.onDev ?_)
  split
  · exact hw
  · exact .ite (.ite (.pubActivate (.unstage (.set (.updPub (.setSlotImg hw))))) (.iteOf (.unstage (.set (.updPub (.setSlotImg hw)))) (fun h' =>
        .pubActivate (.bump h')))) hw
theorem NextWf.execCodecActivate {slot} (hw : WordsWf s.dev) : NextWf (execCodecActivate slot s) := by
  unfold Machine.execCodecActivate
  exact .next (.onDev (by split; exacts [hw, .ite (.pubActivate hw) hw]))
theorem NextWf.execDeltaReleaseReceive {m tagOk} (hw : WordsWf s.dev) : NextWf (execDeltaReleaseReceive m tagOk s) := by
  unfold Machine.execDeltaReleaseReceive
  dsimp only
  exact .next (.onDev (.service hw (fun h' => .send (by split; exacts [.deltaInFree h', h']))))
theorem NextWf.execDeltaReleaseAckReceive {m tagOk} (hw : WordsWf s.dev) : NextWf (execDeltaReleaseAckReceive m tagOk s) := by
  unfold Machine.execDeltaReleaseAckReceive
  dsimp only
  exact .next (.onDev (.service hw (fun h' => .foldl (fun h'' => (by split; exacts [.relaunch h'', h''])) (.upd h' rfl))))

/-! ### Anchors -/

namespace WordsWf

theorem sendOnce {site c} (hw : WordsWf d) : WordsWf (d.sendOnce site c) := .ite hw (.send hw)
theorem queueReport {q site} (hw : WordsWf d) : WordsWf (d.queueReport q site) := .send (.upd hw rfl)
theorem queueNote {e site m} (hw : WordsWf d) : WordsWf (d.queueNote e site m) := .send (.upd hw rfl)
theorem countWindows (hw : WordsWf d) : WordsWf d.countWindows := .ite hw (.foldl (fun h' => .bump (.bump h')) (.upd hw rfl))
theorem anchorTurn {d1 : Dev} {e site} (hw : WordsWf d1) : WordsWf (d1.anchorTurn e site) :=
  .iteElse (.onLine (.onKw (.ite hw (.ownPulse hw)))) (fun h' => .rebase (.startTx h'))
theorem cancelsOver (hw : WordsWf d) : WordsWf d.cancelsOver := .upd hw rfl
theorem anchorVisit {e} (hw : WordsWf d) : WordsWf (d.anchorVisit e) := by
  unfold Dev.anchorVisit
  split
  · exact hw
  · split
    · exact hw
    · extract_lets d1 d2 d3 d5 news d6 d7
      have h5 : WordsWf d5 := .queueNote (.queueReport (.onLine (.listen (.anchorTurn (.countWindows (.cancelsOver hw))))))
      have h6 : WordsWf d6 := .foldl .sendOnce h5
      exact .upd h6 rfl

end WordsWf

theorem NextWf.execAnchorVisit {e} (hw : WordsWf s.dev) : NextWf (execAnchorVisit e s) := .next (.onDev (.ite (.anchorVisit hw) hw))

/-! ### Descriptors from start to record -/

namespace WordsWf

theorem admitTarget {n i} (hw : WordsWf d) : WordsWf (d.admitTarget n i) := by
  unfold Dev.admitTarget
  dsimp only
  split
  · exact hw
  · exact .ite hw (.ite (.launchLocal hw) (.ite (.refuseOp hw) (by split; exacts [.wantCtx hw, .ite (.launchNext hw) hw])))
theorem deltaTake {n i o} (hw : WordsWf d) : WordsWf (d.deltaTake n i o) := by
  unfold Dev.deltaTake
  extract_lets x t s st pages hold q mirror place
  have hhold {a : Dev} (ha : WordsWf a) : WordsWf (hold a) := .updOp (.set ha)
  have hplace {p} (hp : place = some p) : WordsWf p.1 := .annexPlace hw hp
  clear_value hold place
  split
  · refine .ite (hhold hw) ?_
    split
    · exact .refuseOp hw
    · exact hhold (.upd (hplace rfl) rfl)
  · split
    · exact .refuseOp hw
    · exact hhold (.set (.set (.set (.set (.set (.upd (hplace rfl) rfl))))))
theorem bindOp {n i o} (hw : WordsWf d) : WordsWf (d.bindOp n i o) := by
  unfold Dev.bindOp
  exact .ite hw (by split; exacts [hw, .updOp (.stage (.refTake hw))])
theorem collHold {n i o} (hw : WordsWf d) : WordsWf (d.collHold n i o) := by
  unfold Dev.collHold
  dsimp only
  split; exacts [.updColl hw, .upd hw rfl]
theorem catInstall {slot act img} (hw : WordsWf d) : WordsWf (d.catInstall slot act img) := .set (.set (.set (.set (.set (.upd hw rfl)))))
theorem pageInstall {slot act img} (hw : WordsWf d) : WordsWf (d.pageInstall slot act img) := .set (.set (.set (.set (.set (.upd hw rfl)))))
theorem admitAt {n i m} (hw : WordsWf d) : WordsWf (d.admitAt n i m) := by
  unfold Dev.admitAt
  dsimp only
  split
  · exact hw
  · split
    · exact .endOp hw
    · exact hw
    · exact .collHold hw
    · split
      · exact .pubStart (.updOp hw)
      · exact .ite (.updOp hw) (.ite (.endOp (.catInstall hw)) (.endOp (.pageInstall hw)))
    · exact .ite (.refuseOp hw) (.admitTarget (.deltaTake (.bindOp hw)))
    · exact .admitTarget (.bindOp hw)
theorem submit {n i m} (hw : WordsWf d) : WordsWf (d.submit n i m) := by
  unfold Dev.submit
  dsimp only
  split
  · exact hw
  · split
    · exact .ite (by split; exacts [.ite (.collFail (.endOp hw)) (.endOp hw), .endOp hw]) (.endOp hw)
    · exact .admitAt (.updOp hw)
theorem releaseHeld {n m} (hw : WordsWf d) : WordsWf (d.releaseHeld n m) := by
  unfold Dev.releaseHeld
  exact .foldl (fun h' => (by split; exacts [.ite (.submit h') h', h'])) hw
theorem startDesc {n mine} (hw : WordsWf s.dev) : WordsWf (startDesc n mine s).dev := by
  unfold Machine.startDesc
  dsimp only
  split; exacts [hw, .iteDev (.onBoth (.pair (.ite (.upd hw rfl) (.submit (.upd hw rfl))))) hw]
theorem deltaMissed {o} (hw : WordsWf d) : WordsWf (d.deltaMissed o) := .ite (.set hw) hw
theorem deltaEnd {o} (hw : WordsWf d) : WordsWf (d.deltaEnd o) := by
  unfold Dev.deltaEnd
  dsimp only
  refine .ite hw (.ite (.deltaMissed hw) ?_)
  split; exacts [hw, .ite (.set (.upd hw rfl)) (.ite (.setWord (.setWord (.upd (.snapGive hw) rfl))) (.set hw))]
theorem collForget (hw : WordsWf d) : WordsWf d.collForget := by
  unfold Dev.collForget
  extract_lets gone keep d1
  refine .foldl (fun {a c} h' => ?_) (.upd hw rfl)
  have hb : WordsWf (c.refs.foldl (fun (a : Dev) r => a.refDrop r) a) := .foldl .refDrop h'
  dsimp only
  split
  · exact .histFlushAll (.refDrop hb)
  · split; exacts [.histFlushAll hb, hb]
theorem signalsGo {n} (hw : WordsWf d) : WordsWf (d.signalsGo n) := by
  unfold Dev.signalsGo
  exact .foldl (fun h' => (by split; exacts [.relaunch h', h'])) hw
theorem opGone {o} (hw : WordsWf d) : WordsWf (d.opGone o) := by
  unfold Dev.opGone
  extract_lets q d1 d2 d3 d4
  have h1 : WordsWf d1 := .drop hw
  have h2 : WordsWf d2 := .upd h1 rfl
  have h3 : WordsWf d3 := by dsimp only [d3]; split; exacts [.histFlushAll (.refDrop h2), (by split; exacts [.ite (.histFlushAll h2) h2, h2])]
  have h4 : WordsWf d4 := .signalsGo (.tearEnd (.deltaEnd h3))
  split; exacts [.relaunch (.settleFailed h4), (by split; exacts [.ite (.relaunch h4) h4, h4])]
theorem spoilDest {l m} (hw : WordsWf d) : WordsWf (spoilDest l d m).1 := .foldlFst (fun h' => .iteFst h' (.pair (.usedFree h'))) (.pair hw)
theorem abortOp {o} (hw : WordsWf d) : WordsWf (d.abortOp o) := by
  unfold Dev.abortOp
  dsimp only
  split; exacts [.ite (.collFail (.endOp hw)) (.foldl .refDrop (.upd (.endOp hw) rfl)), .endOp hw]
theorem ringAbort {n} (hw : WordsWf d) : WordsWf (d.ringAbort n) :=
  .tearEnd (.setRing (.upd (.foldl (fun h' => .ite h' (.abortOp h')) (.set (.set (.dropFetch hw)))) rfl))

end WordsWf

theorem NextWf.execNop {n} (hw : WordsWf s.dev) : NextWf (execNop n s) := .next (.startDesc hw)
theorem NextWf.execPut {n} (hw : WordsWf s.dev) : NextWf (execPut n s) := .next (.startDesc hw)
theorem NextWf.execGet {n} (hw : WordsWf s.dev) : NextWf (execGet n s) := .next (.startDesc hw)
theorem NextWf.execPutReduce {n} (hw : WordsWf s.dev) : NextWf (execPutReduce n s) := .next (.startDesc hw)
theorem NextWf.execAtomic {n} (hw : WordsWf s.dev) : NextWf (execAtomic n s) := .next (.startDesc hw)
theorem NextWf.execSignal {n} (hw : WordsWf s.dev) : NextWf (execSignal n s) := .next (.startDesc hw)
theorem NextWf.execFence {n} (hw : WordsWf s.dev) : NextWf (execFence n s) := .next (.startDesc hw)
theorem NextWf.execDeltaPut {n} (hw : WordsWf s.dev) : NextWf (execDeltaPut n s) := .next (.startDesc hw)
theorem NextWf.execAllReduce {n} (hw : WordsWf s.dev) : NextWf (execAllReduce n s) := .next (.startDesc hw)
theorem NextWf.execReduceScatter {n} (hw : WordsWf s.dev) : NextWf (execReduceScatter n s) := .next (.startDesc hw)
theorem NextWf.execAllGather {n} (hw : WordsWf s.dev) : NextWf (execAllGather n s) := .next (.startDesc hw)
theorem NextWf.execBroadcast {n} (hw : WordsWf s.dev) : NextWf (execBroadcast n s) := .next (.startDesc hw)
theorem NextWf.execTablePublishCodec {n} (hw : WordsWf s.dev) : NextWf (execTablePublishCodec n s) := .next (.startDesc hw)
theorem NextWf.execTablePublishCatalogue {n} (hw : WordsWf s.dev) : NextWf (execTablePublishCatalogue n s) := .next (.startDesc hw)
theorem NextWf.execTablePublishPage {n} (hw : WordsWf s.dev) : NextWf (execTablePublishPage n s) := .next (.startDesc hw)
theorem NextWf.execFenceRelease {n} (hw : WordsWf s.dev) : NextWf (execFenceRelease n s) := by
  unfold Machine.execFenceRelease
  exact .next (by split; exacts [hw, .iteDev hw (.onBoth (.pair (.releaseHeld (.endOp hw))))])
theorem NextWf.execCompletionRecordWrite {n index writeOk} (hw : WordsWf s.dev) : NextWf (execCompletionRecordWrite n index writeOk s) := by
  unfold Machine.execCompletionRecordWrite
  dsimp only
  exact .next (by split; exacts [hw, .iteDev (.onBoth (.pair (.collForget (.opGone (.writeRecord (.spoilDest hw)))))) hw])
theorem NextWf.execSqAbort {n} (hw : WordsWf s.dev) : NextWf (execSqAbort n s) := .next (.iteDev (.onDev (.ringAbort hw)) hw)

/-! ### Atomics -/

namespace WordsWf

theorem atomAnswer {r v} (hw : WordsWf d) : WordsWf (d.atomAnswer r v) := by
  unfold Dev.atomAnswer
  split; exacts [.answer hw, .okOp (.updOp hw)]
theorem atomApply {r m} (hw : WordsWf d) : WordsWf (atomApply r d m).1 := .pair (.ite (.atomAnswer (.winWrite hw)) (.winWrite hw))
theorem atomDel {r} (hw : WordsWf d) : WordsWf (d.atomDel r) := .upd hw rfl
theorem atomStep {subop} (hw : WordsWf s.dev) : WordsWf (atomStep subop s).dev := by
  unfold Machine.atomStep
  dsimp only
  split; exacts [hw, .iteDev (.onBoth (.pair (.atomApply (.atomDel hw)))) hw]
theorem signalNotice {r new m} (hw : WordsWf d) : WordsWf (signalNotice r new d m).1 :=
  .iteFst (.iteFst (.writeRecord hw) (.pair (.bump hw))) (.pair hw)

end WordsWf

theorem NextWf.execFadd64 (hw : WordsWf s.dev) : NextWf (execFadd64 s) := .next (.atomStep hw)
theorem NextWf.execCas64 (hw : WordsWf s.dev) : NextWf (execCas64 s) := .next (.atomStep hw)
theorem NextWf.execSwap64 (hw : WordsWf s.dev) : NextWf (execSwap64 s) := .next (.atomStep hw)
theorem NextWf.execFmin64 (hw : WordsWf s.dev) : NextWf (execFmin64 s) := .next (.atomStep hw)
theorem NextWf.execFmax64 (hw : WordsWf s.dev) : NextWf (execFmax64 s) := .next (.atomStep hw)
theorem NextWf.execSignalTakeEffect (hw : WordsWf s.dev) : NextWf (execSignalTakeEffect s) := by
  unfold Machine.execSignalTakeEffect
  dsimp only
  exact .next (by split; exacts [hw, .iteDev hw (.onBoth (.signalNotice (.atomApply (.atomDel hw))))])

/-! ### Fences -/

namespace WordsWf

theorem resilverAdd {c} (hw : WordsWf d) : WordsWf (d.resilverAdd c) := .upd hw rfl
theorem resilverGroup {cs failed surv} (hw : WordsWf d) : WordsWf (d.resilverGroup cs failed surv) := by
  unfold Dev.resilverGroup
  extract_lets need d1
  have h1 : WordsWf d1 := .set (.set hw)
  split
  · exact .ite (.set (.set (.foldl (fun h' => .resilverAdd (.upd h' rfl)) h1))) (.alarm (.set h1))
  · exact .alarm (.set h1)
theorem resilverStart {cs failed} (hw : WordsWf d) : WordsWf (d.resilverStart cs failed) := .foldl .resilverGroup hw
theorem survivorLost {k} (hw : WordsWf d) : WordsWf (d.survivorLost k) := .iteOf (.upd (.foldl (fun h' => .ite (.failCtx h') h') hw) rfl) .set
theorem copyLost {k c} (hw : WordsWf d) : WordsWf (d.copyLost k c).1 :=
  .iteFst (.pair hw) (.iteFst (.pair (.setCtx hw)) (.pair (.setCtx (.upd (.annexDrop hw) rfl))))
theorem snapsLost {k} (hw : WordsWf d) : WordsWf (d.snapsLost k) :=
  .upd (.foldl (fun h' => .ite (.set h') h') (.foldl .annexGive (.foldl .annexGive hw))) rfl
theorem stackGone {k} (hw : WordsWf d) : WordsWf (d.stackGone k) :=
  .resilverStart (.snapsLost (.foldlFst (fun h' => .pair (.copyLost h')) (.pair hw)))
theorem stageAsk {id} (hw : WordsWf d) : WordsWf (d.stageAsk id) := by
  unfold Dev.stageAsk
  dsimp only
  split; exacts [hw, .ite hw (by split; exacts [hw, (by split; exacts [hw, .winRead (.updColl hw)])])]
theorem collFence {id q} (hw : WordsWf d) : WordsWf (d.collFence id q) := by
  unfold Dev.collFence
  dsimp only
  split; exacts [hw, .ite hw (.ite (.collFail hw) (.stageAsk (.upd hw rfl)))]
theorem fenceQuarter {q cause} (hw : WordsWf d) : WordsWf (d.fenceQuarter q cause) :=
  .ite hw (.stackGone (.stackGone (.foldl .collFence (.foldl (fun h' => .ite (.onCtx h') h') (.darkEngine (.darkEngine (.alarm (.set (.set
    (.recoverStart hw))))))))))
theorem laneFault {w} (hw : WordsWf d) : WordsWf (d.laneFault w) := .ite (.fenceQuarter hw) hw
theorem stackFail {k} (hw : WordsWf d) : WordsWf (d.stackFail k) :=
  .ite hw (.ite (.fenceQuarter (.survivorLost (.alarm (.set (.recoverStart hw))))) (.stackGone (.survivorLost (.alarm (.set (.recoverStart hw))))))

end WordsWf

/-! ### Tours -/

namespace WordsWf

theorem tsWrite {t w l v} (hw : WordsWf d) : WordsWf (d.tsWrite t w l v) :=
  .ite (.ite (.set (.writeReg hw)) (.set (.set (.writeReg hw)))) (.writeReg hw)
theorem provWrite {w rec m} (hw : WordsWf d) : WordsWf (provWrite w rec d m).1 := .iteFst (.pair (.set (.bump hw))) (.pair (.set hw))
theorem provPiece {x j p step fin poison fmt pf us m} (hw : WordsWf d) : WordsWf (provPiece x j p step fin poison fmt pf us d m).1 :=
  .iteFst (.provWrite hw) (.pair hw)
theorem tourStop {w} (hw : WordsWf d) : WordsWf (d.tourStop w) := .upd hw rfl
theorem tourCtlWrite {w l v} (hw : WordsWf d) : WordsWf (d.tourCtlWrite w l v) :=
  .ite (.set hw) (.iteOf (.ite (.tourStop (.writeReg hw)) (.writeReg hw)) (fun h' => .ite (.set (.set h')) h'))
theorem sendPiece {x j p step us poison} (hw : WordsWf d) : WordsWf (d.sendPiece x j p step us poison) := by
  unfold Dev.sendPiece
  extract_lets me w k it wait placed
  have hwait : WordsWf wait := .upd hw rfl
  split
  · split; exacts [.onCtx hw, hwait, .ite hwait (.collFail hw)]
  · exact .ite (.wantCtx hwait) (.ite hwait (.collFail hw))
theorem rankBytes {x k bytes} (hw : WordsWf d) : WordsWf (d.rankBytes x k bytes).1 := .iteFst (.pair (.usedFree hw)) (.pair hw)
theorem pieceWrite {id j p bytes m} (hw : WordsWf d) : WordsWf (pieceWrite id j p bytes d m).1 := by
  unfold Machine.pieceWrite
  dsimp only
  split; exacts [.pair hw, .foldlFst (fun h' => .pair (.updColl (.winWrite (.rankBytes h')))) (.pair hw)]
theorem ownerFinish {id j p us poison m} (hw : WordsWf d) : WordsWf (ownerFinish id j p us poison d m).1 := by
  unfold Machine.ownerFinish
  dsimp only
  split
  · exact .pair hw
  · exact .pair (.iteOf (.provPiece (.iteFst (.pair (.ite (.usedFree (.updPiece hw)) (.arith (.updPiece hw)))) (.pieceWrite (.ite (.usedFree
        (.updPiece hw)) (.arith (.updPiece hw)))))) .sendPiece)
theorem reduceEmit {id j p k us poison m} (hw : WordsWf d) : WordsWf (reduceEmit id j p k us poison d m).1 := by
  unfold Machine.reduceEmit
  dsimp only
  split; exacts [.pair hw, .pair (.sendPiece (.provPiece (.ite (.usedFree (.updPiece hw)) (.updPiece hw))))]
theorem pieceGo {id j p m} (hw : WordsWf d) : WordsWf (pieceGo id j p d m).1 := by
  unfold Machine.pieceGo
  dsimp only
  split
  · exact .pair hw
  · split
    · exact .pair hw
    · exact .iteFst (.pair hw) (.iteFst (.iteFst (.reduceEmit hw) (.pair hw)) (.iteFst (.ownerFinish hw) (.pair hw)))
theorem collKick {id m} (hw : WordsWf d) : WordsWf (collKick id d m).1 := by
  unfold Machine.collKick
  split; exacts [.pair hw, .foldlFst .pieceGo (.pair hw)]
theorem readerBytes {data} {x : Coll} (hw : WordsWf d) :
    WordsWf (match x.readers[x.reader]? with | some k => d.rankBytes x k data | none => (d, data)).1 := by
  cases x.readers[x.reader]? with
  | none => exact .pair hw
  | some k => exact .rankBytes hw
theorem collData {id data faults m} (hw : WordsWf d) : WordsWf (collData id data faults d m).1 := by
  unfold Machine.collData
  split
  · exact .pair hw
  · next x _ =>
    refine .iteFst (.pair hw) ?_
    extract_lets j p w a d0 bytes r rp bad d1 d2 d3 a'
    have ha : WordsWf a.1 := WordsWf.readerBytes hw
    have h0 : WordsWf d0 := ha
    have hrp : WordsWf rp.1 := .iteFst (.replays h0) (.pair h0)
    have h1 : WordsWf d1 := .ite (.set hrp) (.arith hrp)
    have h2 : WordsWf d2 := .laneFault (.updColl (.updPiece h1))
    exact .iteFst (.pair (.stageAsk (.updColl h0))) (.iteFst (.pair (.stageAsk (.updColl h2))) (.pair (.stageAsk (.pieceGo (.updColl h2)))))
theorem collStart {id m} (hw : WordsWf d) : WordsWf (collStart id d m).1 := by
  unfold Machine.collStart
  dsimp only
  split
  · exact .pair hw
  · exact .iteFst (.pair hw) (.iteFst (.pair (.collFail hw)) (.collKick (.updColl (.foldl .phaseBoundary hw))))
theorem collBind {id} (hw : WordsWf d) : WordsWf (d.collBind id) := by
  unfold Dev.collBind
  dsimp only
  split; exacts [hw, (by split; exacts [hw, .updColl (.foldl .stage (.refTake hw))])]
theorem collAdmit {id m} (hw : WordsWf d) : WordsWf (collAdmit id d m).1 := by
  unfold Machine.collAdmit
  dsimp only
  split
  · exact .pair hw
  · exact .iteFst (.pair hw) (.iteFst (.pair (.collFail (.updColl (.upd hw rfl)))) (.iteElseFst (.pair (.collFail (.collBind (.collCount
        (.updColl (.upd hw rfl)))))) (fun h' => .iteFst h' (.iteFst (.pair (.collFail (.collBind (.collCount (.updColl (.upd hw rfl))))))
        (.iteFst (.collStart (.foldl .bump (.stageAsk (.collBind (.collCount (.updColl (.upd hw rfl))))))) (.iteFst (.collStart (.stageAsk
        (.collBind (.collCount (.updColl (.upd hw rfl)))))) (.pair (.stageAsk (.collBind (.collCount (.updColl (.upd hw rfl))))))))))))
theorem reduceStep {id j p faults m} (hw : WordsWf d) : WordsWf (reduceStep id j p faults d m).1 := by
  unfold Machine.reduceStep
  dsimp only
  split
  · exact .pair hw
  · exact .pair (.laneFault (.iteFst (.reduceEmit (.updColl (.updPiece (.iteElse (.iteElse (.iteFst (.pair hw) (.replays hw)) .set) .arith))))
        (.ownerFinish (.updColl (.updPiece (.iteElse (.iteElse (.iteFst (.pair hw) (.replays hw)) .set) .arith))))))
theorem gatherPass {id j p m} (hw : WordsWf d) : WordsWf (gatherPass id j p d m).1 := by
  unfold Machine.gatherPass
  dsimp only
  split
  · exact .pair hw
  · exact .pair (.iteOf (.iteOf (.iteFst (.pair (.updPiece hw)) (.pieceWrite (.updPiece hw))) .usedFree) .sendPiece)
theorem othersGather {b : Dev} {id st} (hw : WordsWf d) : WordsWf (d.othersGather b id st) := .ite (.updColl hw) hw

end WordsWf

theorem NextWf.execTourTsDataAccess {a} (hw : WordsWf s.dev) : NextWf (execTourTsDataAccess a s) := by
  unfold Machine.execTourTsDataAccess
  dsimp only
  refine .next (.iteDev (.onDev (.ite ?_ (.selNext ?_))) hw)
  · split; exacts [.emit (.set hw), .set hw]
  · split; exacts [.emit hw, .tsWrite hw]
theorem NextWf.execTourProvIdxWrite {w l d} (hw : WordsWf s.dev) : NextWf (execTourProvIdxWrite w l d s) :=
  .next (.iteDev (.onDev (.ite (.set hw) hw)) hw)
theorem NextWf.execTourCtlWrite {w l d} (hw : WordsWf s.dev) : NextWf (execTourCtlWrite w l d s) :=
  .next (.iteDev (.onBoth (.iteOfFst (.pair (.shadowsFrom (.tourCtlWrite hw))) (fun h' => .foldlFst .collKick h'))) hw)
theorem NextWf.execCollectiveAdmit {coll} (hw : WordsWf s.dev) : NextWf (execCollectiveAdmit coll s) := .next (.onBoth (.collAdmit hw))
theorem NextWf.execCollectiveStart {coll} (hw : WordsWf s.dev) : NextWf (execCollectiveStart coll s) := by
  unfold Machine.execCollectiveStart
  exact .next (by split; exacts [hw, .iteDev (.onBoth (.collStart hw)) hw])
theorem NextWf.execPhaseStart {w} (hw : WordsWf s.dev) : NextWf (execPhaseStart w s) := by
  unfold Machine.execPhaseStart
  dsimp only
  refine .next ?_
  split
  · exact hw
  · exact .iteDev hw (.iteOfDev (.onDev (.runEntry hw (fun h' => .ite h' (.phaseBoundary h')))) (fun h' => .onBoth (.foldlFst .collStart (.pair
        h'))))
theorem NextWf.execPartialCombine {coll chunk piece faults} (hw : WordsWf s.dev) : NextWf (execPartialCombine coll chunk piece faults s) := by
  unfold Machine.execPartialCombine
  dsimp only
  exact .next (by split; exacts [hw, .iteDev hw (.iteDev (.onBoth (.reduceStep hw)) (.iteDev (.onBoth (.gatherPass hw)) hw))])
theorem NextWf.execCollEndReceive {m tagOk} (hw : WordsWf s.dev) : NextWf (execCollEndReceive m tagOk s) :=
  .next (.onDev (.service hw (fun h' => .ite (.noteCollEnd h') (.ite h' (.noteCollEnd (.othersGather (.collFail h')))))))
theorem NextWf.execCollectiveComplete {coll} (hw : WordsWf s.dev) : NextWf (execCollectiveComplete coll s) := by
  unfold Machine.execCollectiveComplete
  dsimp only
  refine .next ?_
  split
  · exact hw
  · exact .iteDev hw (.onBoth (.pair (.collForget (.foldlFst (fun h' => (by split; exacts [h', .pair (.opGone (.writeRecord (.spoilDest h')))]))
        (.pair (.foldl .updOp (.collCount (.ite (.collFail hw) (.updColl (.foldl .endOp hw))))))))))
theorem NextWf.execPinnedChunkWaitExpiry {coll} (hw : WordsWf s.dev) : NextWf (execPinnedChunkWaitExpiry coll s) := by
  unfold Machine.execPinnedChunkWaitExpiry
  exact .next (.onDev (by split; exacts [hw, .ite (.collFail hw) hw]))
theorem NextWf.execRaceCopy {c seq m} (hw : WordsWf s.dev) : NextWf (execRaceCopy c seq m s) := by
  unfold Machine.execRaceCopy
  dsimp only
  exact .next (.onDev (by split; exacts [hw, (by split; exacts [hw, .ite (.emit (.onLine (.onCtx hw))) hw])]))

/-! ### Memory and LRM packets -/

namespace WordsWf

theorem headerSample {p dir time raw m} (hw : WordsWf d) : WordsWf (headerSample p dir time raw d m).1 := by
  unfold Machine.headerSample
  refine .iteFst (.pair hw) ?_
  extract_lets key n d1 size wr r
  have h1 : WordsWf d1 := .upd hw rfl
  exact .iteFst (.pair (.upd hw rfl)) (.iteFst (.pair (.bump h1)) (.pair (.set h1)))
theorem setLimiter {i x} (hw : WordsWf d) : WordsWf (d.setLimiter i x) := .upd hw rfl
theorem reduceRate {tenant ep write} (hw : WordsWf d) : WordsWf (d.reduceRate tenant ep write) := by
  unfold Dev.reduceRate
  split; exacts [.ite hw (.setLimiter hw), (by split; exacts [hw, .setLimiter hw])]
theorem dropReq {tag} (hw : WordsWf d) : WordsWf (d.dropReq tag) := .upd hw rfl
theorem deliver {use data faults m} (hw : WordsWf d) : WordsWf (deliver use data faults d m).1 := by
  unfold Machine.deliver
  dsimp only
  split
  · exact .pair (.fetchArrive hw)
  · exact .pair (.ite (.opData hw) (.laneFault (.opData hw)))
  · exact .pair (.tgtData hw)
  · exact .collData hw
  · exact .pair hw
theorem acked {use} (hw : WordsWf d) : WordsWf (d.acked use) := by
  unfold Dev.acked
  split; exacts [.opAck hw, .tgtSettle (.updTgt hw), .updColl hw, .answer hw, .okOp (.updOp hw), hw]
theorem reqFailed {use st} (hw : WordsWf d) : WordsWf (d.reqFailed use st) := by
  unfold Dev.reqFailed
  split
  · exact .fetchFail hw
  · exact .set hw
  · exact .endOp hw
  · exact .endOp hw
  · exact .failTgt hw
  · exact .failTgt hw
  · exact .failTgt hw
  · exact .endOp hw
  · exact .collFail hw
  · exact .collFail hw
  · exact hw
  · exact hw
theorem lrmReceive {p raw typ act} (hact : ∀ {x1 x2 a x4}, WordsWf a → WordsWf (act x1 x2 a x4).1) (hw : WordsWf s.dev) : WordsWf (lrmReceive p
    raw typ act s).dev :=
  .iteDev hw (.onBoth (.iteFst (.pair hw) (.iteFst (.headerSample hw) (.iteFst (.pair (.bump (.headerSample hw))) (hact (.meter (.headerSample
    hw)))))))

end WordsWf

theorem NextWf.execRateIncrease {i} (hw : WordsWf s.dev) : NextWf (execRateIncrease i s) := by
  unfold Machine.execRateIncrease
  dsimp only
  exact .next (.onDev (by split; exacts [hw, .ite hw (.ite (.upd hw rfl) (.setLimiter hw))]))
theorem NextWf.execLrmReadResp {p m} (hw : WordsWf s.dev) : NextWf (execLrmReadResp p m s) := by
  unfold Machine.execLrmReadResp
  refine .next (.lrmReceive (fun {x _ a _} h' => ?_) hw)
  extract_lets d1
  have h1 : WordsWf d1 := .ite (.reduceRate h') h'
  clear_value d1
  split
  · exact .pair (.bump h1)
  · extract_lets parts
    split
    · exact .pair (.upd h1 rfl)
    · exact .pair (.releaseReads (.deliver (.dropReq (.recoverReq h1))))
theorem NextWf.execLrmWriteAck {p m} (hw : WordsWf s.dev) : NextWf (execLrmWriteAck p m s) := by
  unfold Machine.execLrmWriteAck
  exact .next (.lrmReceive (fun h' => (by split; exacts [.pair (.bump h'), .pair (.acked (.dropReq (.recoverReq h')))])) hw)
theorem NextWf.execLrmNak {p m} (hw : WordsWf s.dev) : NextWf (execLrmNak p m s) := by
  unfold Machine.execLrmNak
  exact .next (.lrmReceive (fun h' => (by split; exacts [.pair (.bump h'), .pair (.recoverSweep (.dropReq (.reqFailed h')))])) hw)
theorem NextWf.execLrmCnp {p m} (hw : WordsWf s.dev) : NextWf (execLrmCnp p m s) :=
  .next (.lrmReceive (fun h' => .pair (.reduceRate (.bump h'))) hw)
theorem NextWf.execLrmDoorbell {p m} (hw : WordsWf s.dev) : NextWf (execLrmDoorbell p m s) :=
  .next (.lrmReceive (fun h' => .iteFst (.pair (.bump h')) (.iteElseFst (.pair (.dbDrop h')) (fun h'' => .iteFst (.pair (.ite (.ringDoorbell h')
    (.dbDrop h'))) (.iteFst (.queueDoorbell h') h'')))) hw)
theorem NextWf.execLrmRetryTimeout {tag} (hw : WordsWf s.dev) : NextWf (execLrmRetryTimeout tag s) := by
  unfold Machine.execLrmRetryTimeout
  dsimp only
  refine .next (.onDev ?_)
  split
  · exact hw
  · exact .ite hw (.ite (.recoverSweep (.dropReq (.reqFailed hw))) (.releaseReads (.transmit (.upd hw rfl))))
theorem NextWf.execPcieReadCompletion {tag data} (hw : WordsWf s.dev) : NextWf (execPcieReadCompletion tag data s) := by
  unfold Machine.execPcieReadCompletion
  exact .next (by split; exacts [hw, .iteDev (.onBoth (.deliver (.dropReq hw))) hw])
theorem NextWf.execPortStateChange {p up} (hw : WordsWf s.dev) : NextWf (execPortStateChange p up s) :=
  .next (.onDev (.ite hw (.ite (.set hw) (.ite hw (.alarm (.discardPort (.set (.recoverStart hw))))))))
theorem NextWf.execBpmPoolStatRead {p} (hw : WordsWf s.dev) : NextWf (execBpmPoolStatRead p s) := .next (.iteDev (.onDev (.set (.emit hw))) hw)

/-! ### Streams -/

namespace WordsWf

theorem drainCtx {c} (hw : WordsWf d) : WordsWf (d.drainCtx c) := .ite (.onCtx hw) (.foldl .refuseOp (.onCtx hw))
theorem cmdOpen (hw : WordsWf d) : WordsWf d.cmdOpen := by
  unfold Dev.cmdOpen
  extract_lets r
  refine .ite (.cmdDone hw) (.ite (.cmdDone hw) ?_)
  split
  · split; exacts [.cmdDone hw, .cmdDone hw, .cmdDone hw]
  · exact .ite (.cmdDone (.ite (.set (.startAccession hw)) (.startAccession hw))) (.ite (.startAccession hw) (.cmdDone (.startAccession hw)))
theorem cmdClose {c} (hw : WordsWf d) : WordsWf (d.cmdClose c) := by
  unfold Dev.cmdClose
  split; exacts [.cmdDone (.drainCtx hw), .cmdDone hw, .cmdDone hw, .cmdDone hw]
theorem cmdAbort {c} (hw : WordsWf d) : WordsWf (d.cmdAbort c) := by
  unfold Dev.cmdAbort
  split; exacts [.cmdDone hw, .cmdDone (.abortCtx hw)]
theorem streamCmd {l w} (hw : WordsWf d) : WordsWf (d.streamCmd l w) := by
  unfold Dev.streamCmd
  dsimp only
  refine .ite (.set hw) (.ite (.set (.writeFields hw)) ?_)
  split
  · exact .cmdOpen (.set (.writeFields hw))
  · exact .cmdClose (.set (.writeFields hw))
  · exact .cmdAbort (.set (.writeFields hw))
  · exact .cmdDone (.set (.writeFields hw))
theorem deltaUnreached {c} (hw : WordsWf d) : WordsWf (d.deltaUnreached c) := .ite (.foldl .deltaInFree hw) hw
theorem growCredit {c} (hw : WordsWf d) : WordsWf (d.growCredit c) := .ite (.borrow hw) hw
theorem sendReceipt {c reason nseq} (hw : WordsWf d) : WordsWf (d.sendReceipt c reason nseq) := by
  unfold Dev.sendReceipt
  dsimp only
  split; exacts [.growCredit hw, .send (.onCtx (.growCredit hw))]
theorem receiptCheck {c} (hw : WordsWf d) : WordsWf (d.receiptCheck c) := .ite hw (.ite (.sendReceipt hw) hw)
theorem nackResend {c pick} (hw : WordsWf d) : WordsWf (d.nackResend c pick) := .markResend (.bump hw)
theorem takeReceipt {c r} (hw : WordsWf d) : WordsWf (d.takeReceipt c r) :=
  .ite hw (.recoverRcpt (.iteElse (.nackResend (.ite (.enterEpoch (.setCtx hw)) (.setCtx hw))) .nackResend))
theorem relocate {c k n} (hw : WordsWf d) : WordsWf (d.relocate c k n) := .setCtx (.annexTake (.annexDrop hw))
theorem pieceAgain {id j p} (hw : WordsWf d) : WordsWf (d.pieceAgain id j p) := by
  unfold Dev.pieceAgain
  dsimp only
  split; exacts [hw, .ite hw (.ite (.collFail hw) (.stageAsk (.updPiece hw)))]
theorem movePieces {c} (hw : WordsWf d) : WordsWf (d.movePieces c) := by
  unfold Dev.movePieces
  extract_lets x
  refine .ite hw ?_
  split
  · exact .iteOf (.upd (.foldl .pieceAgain (.onCtx hw)) rfl) .ctxOpened
  · exact .wantCtx (.upd (.foldl .pieceAgain (.onCtx hw)) rfl)
theorem restartOp {o} (hw : WordsWf d) : WordsWf (d.restartOp o) := .upd hw rfl
theorem poolWrite {p l w} (hw : WordsWf d) : WordsWf (d.poolWrite p l w) :=
  .ite (.ite (.poolSync (.set (.writeReg hw))) (.set (.set (.writeReg hw)))) (.writeReg hw)

end WordsWf

theorem NextWf.execStreamOpen {d} (hw : WordsWf s.dev) : NextWf (execStreamOpen d s) := .next (.iteDev (.onDev (.streamCmd hw)) hw)
theorem NextWf.execStreamClose {d} (hw : WordsWf s.dev) : NextWf (execStreamClose d s) := .next (.iteDev (.onDev (.streamCmd hw)) hw)
theorem NextWf.execStreamAbort {d} (hw : WordsWf s.dev) : NextWf (execStreamAbort d s) := .next (.iteDev (.onDev (.streamCmd hw)) hw)
theorem NextWf.execAccedeReceive {m tagOk} (hw : WordsWf s.dev) : NextWf (execAccedeReceive m tagOk s) := .next (.onDev (.fromSite hw .accede))
theorem NextWf.execAcceptReceive {m tagOk} (hw : WordsWf s.dev) : NextWf (execAcceptReceive m tagOk s) :=
  .next (.onDev (.fromSite hw (fun h' => .ite (.ite (.failCtx h') (.openCtx h')) h')))
theorem NextWf.execRefuseReceive {m tagOk} (hw : WordsWf s.dev) : NextWf (execRefuseReceive m tagOk s) :=
  .next (.onDev (.fromSite hw (fun h' => .ite (.closeCtx (.onCtx (.endWork (.cmdEnd h')))) h')))
theorem NextWf.execDeaccedeReceive {m tagOk} (hw : WordsWf s.dev) : NextWf (execDeaccedeReceive m tagOk s) :=
  .next (.onDev (.fromSite hw (fun h' => .iteElse (.ite (.upd h' rfl) h') (fun h'' => .ite (.closeCtx (.deltaUnreached (.sendDeaccede (.endWork
    h'')))) (.onCtx (.drainCtx h''))))))
theorem NextWf.execDeaccedeAckReceive {m tagOk} (hw : WordsWf s.dev) : NextWf (execDeaccedeAckReceive m tagOk s) :=
  .next (.onDev (.fromSite hw (fun h' => .ite (.closeCtx (.deltaUnreached h')) h')))
theorem NextWf.execAccessionTimeout {c} (hw : WordsWf s.dev) : NextWf (execAccessionTimeout c s) :=
  .next (.onDev (.ite (.closeCtx (.onCtx (.endWork (.cmdEnd hw)))) hw))
theorem NextWf.execAccedeHoldExpiry {job site cls w} (hw : WordsWf s.dev) : NextWf (execAccedeHoldExpiry job site cls w s) := by
  unfold Machine.execAccedeHoldExpiry
  dsimp only
  exact .next (.onDev (by split; exacts [.ite hw (.sendRefuse (.upd hw rfl)), hw]))
theorem NextWf.execIdleClose {c} (hw : WordsWf s.dev) : NextWf (execIdleClose c s) := .next (.onDev (.ite (.drainCtx hw) hw))
theorem NextWf.execDrainComplete {c} (hw : WordsWf s.dev) : NextWf (execDrainComplete c s) :=
  .next (.onDev (.ite hw (.ite (.closeCtx (.deltaUnreached (.sendDeaccede hw))) (.ite hw (.onCtx (.sendDeaccede hw))))))
theorem NextWf.execReceiptTimer {c} (hw : WordsWf s.dev) : NextWf (execReceiptTimer c s) :=
  .next (.onDev (.ite (.sendReceipt hw) (.receiptCheck hw)))
theorem NextWf.execReceiptReceive {r tagOk} (hw : WordsWf s.dev) : NextWf (execReceiptReceive r tagOk s) := by
  unfold Machine.execReceiptReceive
  refine .next (.onDev (.ite hw (.ite (.bump hw) (.ite hw (.ite (.bump hw) (.fromSite hw (fun h' => ?_)))))))
  split; exacts [.ite (.takeReceipt h') h', .takeReceipt h']
theorem NextWf.execRetransmissionTimeout {c} (hw : WordsWf s.dev) : NextWf (execRetransmissionTimeout c s) := by
  unfold Machine.execRetransmissionTimeout
  dsimp only
  exact .next (.onDev (by split; exacts [hw, .ite hw (by split; exacts [.markResend (.onCtx (.bump hw)), .onCtx (.bump hw)])]))
theorem NextWf.execStackFailure {k} (hw : WordsWf s.dev) : NextWf (execStackFailure k s) := .next (.onDev (.ite (.stackFail hw) hw))
theorem NextWf.execAnnexRelocate {c} (hw : WordsWf s.dev) : NextWf (execAnnexRelocate c s) := by
  unfold Machine.execAnnexRelocate
  dsimp only
  exact .next (.onDev (by split; exacts [hw, .ite hw (.ite (.failCtx hw) (.ite (.failCtx hw) (.relocate hw)))]))
theorem NextWf.execResilverComplete {c} (hw : WordsWf s.dev) : NextWf (execResilverComplete c s) :=
  .next (.onDev (.ite (.ite (.set (.upd hw rfl)) (.upd hw rfl)) hw))
theorem NextWf.execQuarterContextEnd {c} (hw : WordsWf s.dev) : NextWf (execQuarterContextEnd c s) :=
  .next (.onDev (.ite hw (.ite (.settleFailed (.onCtx (.recoverGone (.ctxRefsDrop (.movePieces (.foldl .endOp (.cmdEnd hw))))))) (.keyFree
    (.releaseCtx (.iteOf (.movePieces (.foldl (fun h' => .ite (.restartOp h') (.endOp h')) (.cmdEnd hw))) .sendDeaccede))))))
theorem NextWf.execPoolEnable {p l d} (hw : WordsWf s.dev) : NextWf (execPoolEnable p l d s) := .next (.iteDev (.onDev (.poolWrite hw)) hw)

/-! ### Cutting of segments -/

namespace WordsWf

theorem codeOne {w job t} (hw : WordsWf d) : WordsWf (d.codeOne w job t).1 := by
  unfold Dev.codeOne
  extract_lets part us r d1 d2 d3
  have hr : WordsWf r.1 := by dsimp only [r]; split; exacts [.pair hw, .iteFst (.pair (.touchTab hw)) (.pair (.bump (.stage hw)))]
  have h1 : WordsWf d1 := by dsimp only [d1]; split; exacts [.histCount hr, hr]
  have h2 : WordsWf d2 := .ite (.bump h1) (.bump h1)
  have h3 : WordsWf d3 := .bump (.bump h2)
  exact .pair h3
theorem codeUp {n w job t} (hw : WordsWf d) : WordsWf (Dev.codeUp n d w job t).1 := by
  induction n generalizing d t with
  | zero => exact .pair hw
  | succ n ih => exact .iteFst (.pair hw) (ih (.codeOne hw))
theorem txLoan {c} (hw : WordsWf d) : WordsWf (d.txLoan c).1 := .iteFst (.pair hw) (.borrow hw)
theorem numberOp {c t opn} (hw : WordsWf d) : WordsWf (d.numberOp c t opn) := by
  unfold Dev.numberOp
  split; exacts [.onCtx (.updOp hw), hw]
theorem tgtGone {c opn} (hw : WordsWf d) : WordsWf (d.tgtGone c opn) := by
  unfold Dev.tgtGone
  split; exacts [hw, .onCtx (.foldl .refDrop hw)]
theorem cutItem {c m i t key} (hw : WordsWf d) : WordsWf (d.cutItem c m i t key) := .iteOf (.iteOf (.setCtx (.lineSettle hw)) .numberOp) .tgtGone
theorem segmentCut {c m} (hw : WordsWf d) : WordsWf (d.segmentCut c m) := by
  unfold Dev.segmentCut
  extract_lets x
  split
  · exact hw
  · split
    · exact hw
    · refine .ite hw (.ite (.ite (.wakeRequest hw) hw) ?_)
      split
      · exact .ite hw (.bump (.onCtx hw))
      · exact .iteElse (.onCtx (.codeUp hw)) (fun h' => .ite (.wakeRequest (.cutItem (.txLoan h'))) (.txLoan h'))

end WordsWf

theorem NextWf.execSegmentCut {c m} (hw : WordsWf s.dev) : NextWf (execSegmentCut c m s) := .next (.onDev (.segmentCut hw))

/-! ### Arrivals -/

namespace WordsWf

theorem setItem {c r} (hw : WordsWf d) : WordsWf (d.setItem c r) := .onCtx hw
theorem dropItem {c k} (hw : WordsWf d) : WordsWf (d.dropItem c k) := .onCtx hw
theorem itemOver {c k} (hw : WordsWf d) : WordsWf (d.itemOver c k) := by
  unfold Dev.itemOver
  dsimp only
  split; exacts [.ite (.dropItem hw) hw, hw]
theorem crcPassed {c k off size} (hw : WordsWf d) : WordsWf (d.crcPassed c k off size) := .foldl .markReceived (.setItem hw)
theorem settleHeld {c k} (hw : WordsWf d) : WordsWf (d.settleHeld c k) := .foldl .received hw
theorem itemDead {c k} (hw : WordsWf d) : WordsWf (d.itemDead c k) :=
  .ite (.dropItem (.foldl .received hw)) (.itemOver (.setItem (.foldl .received hw)))
theorem itemFail {c k st} (hw : WordsWf d) : WordsWf (d.itemFail c k st) := by
  unfold Dev.itemFail
  dsimp only
  exact .itemDead (by split; exacts [.failTgt (.setItem hw), (by split; exacts [.endOp hw, hw]), .collFail hw])
theorem tgtBlock {c t b elems m} (hw : WordsWf d) : WordsWf (tgtBlock c t b elems d m).1 := by
  unfold Machine.tgtBlock
  extract_lets x w ten use fin
  split
  · exact .pair (.laneFault (.iteOf (.pair (.updTgt (.combined hw .reduceInto))) .failTgt))
  · split; exacts [.pair (.failTgt hw), .pair (.updTgt (.winWrite (.deltaApply hw)))]
  · exact .pair (.updTgt (.winWrite (.updTgt hw)))
theorem getBlock {o b elems m} (hw : WordsWf d) : WordsWf (getBlock o b elems d m).1 := .pair (.opSettle (.updOp (.winWrite hw)))
theorem pieceBlock {x k red poison first b} (hw : WordsWf d) : WordsWf (d.pieceBlock x k red poison first b) := .updPiece hw
theorem deliverReady {n c k cf poison m} (hw : WordsWf d) : WordsWf (deliverReady n c k cf poison d m).1 := by
  induction n generalizing d m with
  | zero => exact .pair hw
  | succ n ih =>
    unfold Machine.deliverReady
    extract_lets r
    split
    · exact .pair hw
    · split
      · exact .pair hw
      · extract_lets e r1 want bad
        split
        · split
          · exact .pair hw
          · exact .iteFst (.pair hw) (.iteFst (.iteFst (ih (.setItem hw)) (.pair hw))
              (.iteFst (.pair (.itemFail (.bump (.set hw)))) (ih (.tgtSettle (.tgtBlock (.setItem hw))))))
        · split
          · exact .pair (.itemDead hw)
          · exact .iteFst (.pair (.itemFail (.bump (.set hw)))) (ih (.getBlock (.setItem hw)))
        · split
          · exact .pair hw
          · split
            · exact .pair hw
            · exact .iteFst (.pair (.itemFail (.bump (.set hw)))) (ih (.pieceBlock (.setItem hw)))
theorem deliverItem {c k cf poison m} (hw : WordsWf d) : WordsWf (deliverItem c k cf poison d m).1 :=
  .pair (.ite (.itemDead (.deliverReady hw)) (.itemOver (.deliverReady hw)))
theorem applyUpdate {c r t u b m} (hw : WordsWf d) : WordsWf (applyUpdate c r t u b d m).1 :=
  .iteFst (.pair (.itemFail (.bump (.set hw)))) (.deliverItem (.tgtSettle (.tgtBlock (.setItem hw))))
theorem updatesGo {n m} (hw : WordsWf d) : WordsWf (updatesGo n d m).1 := by
  induction n generalizing d m with
  | zero => exact .pair hw
  | succ n ih => unfold Machine.updatesGo; split; exacts [.pair hw, ih (.applyUpdate hw)]
theorem startTgt {c t m} (hw : WordsWf d) : WordsWf (startTgt c t d m).1 := by
  unfold Machine.startTgt
  extract_lets x ten len k st d0 r
  have h0 : WordsWf d0 := .onCtx (.updTgt hw)
  refine .iteFst (.pair (.itemDead (.failTgt (.targetRefused h0)))) (.iteFst (.pair (.failTgt h0)) ?_)
  split
  · exact .pair (.atomArrive h0)
  · exact .pair (.atomArrive h0)
  · exact .pair (.askTgt (.onCtx h0))
  · exact .iteFst (.pair (.itemDead (.failTgt (.deltaInOpen h0)))) (.deliverItem (.deltaInOpen h0))
  · exact .deliverItem h0
  · exact .deliverItem h0
  · exact .pair (.itemDead (.failTgt h0))
theorem startTgts {n c m} (hw : WordsWf d) : WordsWf (startTgts n c d m).1 := by
  induction n generalizing d m with
  | zero => exact .pair hw
  | succ n ih => unfold Machine.startTgts; split; exacts [.pair hw, .iteFst (.pair hw) (ih (.startTgt hw))]
theorem tgtArrive {c t} (hw : WordsWf d) : WordsWf (d.tgtArrive c t) := by
  unfold Dev.tgtArrive
  dsimp only
  split; exacts [.ite hw (.onCtx (.iteElse (.onCtx (.tgtGone hw)) .setItem)), .onCtx (.ite hw (.setItem hw))]
theorem reqSegment {c h m} (hw : WordsWf d) : WordsWf (reqSegment c h d m).1 :=
  .startTgts (.ite (.received (.ite (.tgtArrive hw) hw)) (.iteOf (.ite (.tgtArrive hw) hw) .itemDead))
theorem respSegment {c h} (hw : WordsWf d) : WordsWf (d.respSegment c h) := by
  unfold Dev.respSegment
  extract_lets g st ev
  split
  · exact .itemDead (.received hw)
  · exact .ite (.itemDead (.received (.endOp (.updOp hw)))) (.ite (.updOp hw) (.received (.okOp (.updOp (.updOp hw)))))
theorem tourSegment {c h} (hw : WordsWf d) : WordsWf (d.tourSegment c h) := by
  unfold Dev.tourSegment
  split; exacts [hw, .dropItem (.received hw), .collFail (.received hw)]
theorem noteTotal {c h} (hw : WordsWf d) : WordsWf (d.noteTotal c h) := .ite (.setItem hw) hw
theorem wipeLoan {c m} (hw : WordsWf d) : WordsWf (d.wipeLoan c m).1 := by
  unfold Dev.wipeLoan
  dsimp only
  split; exacts [.pair hw, .pair (.usedFree hw)]
theorem tagFail {c seq} (hw : WordsWf d) : WordsWf (d.tagFail c seq) := .ite (.quarantine (.onCtx (.bump hw))) (.sendReceipt (.onCtx (.bump hw)))
theorem raceWon {c g} (hw : WordsWf d) : WordsWf (d.raceWon c g) :=
  .ite (.bump hw) (.ite (.updColl (.updPiece (.bump hw))) (.upd (.bump hw) rfl))
theorem holdSegment {c h m} (hw : WordsWf d) : WordsWf (holdSegment c h d m).1 := by
  unfold Machine.holdSegment
  extract_lets d1 d2 d3 p
  have h1 : WordsWf d1 := .onCtx hw
  have h2 : WordsWf d2 := .ite (.raceWon h1) h1
  have h3 : WordsWf d3 := .noteTotal h2
  have hp : WordsWf p.1 := by dsimp only [p]; split; exacts [.reqSegment h3, .pair (.respSegment h3), .pair (.tourSegment h3), .pair (.received
      h3)]
  exact .pair (.itemOver hp)
theorem segmentIn {car g race tagOk m} (hw : WordsWf d) : WordsWf (segmentIn car g race tagOk d m).1 := by
  unfold Machine.segmentIn
  extract_lets c x d1 z seq e w d2
  refine .iteFst (.pair hw) (.iteFst (.pair (.bump hw)) (.iteFst (.pair (.bump hw)) (.iteFst (.pair hw) ?_)))
  have h1 : WordsWf d1 := .onCtx hw
  refine .iteFst (.pair (.receiptCheck (.bump h1))) (.iteFst (.pair (.receiptCheck (.bump h1))) ?_)
  split
  · exact .pair (.receiptCheck (.bump h1))
  · refine .iteFst (.pair (.receiptCheck (.bump h1))) (.iteFst (.pair (.receiptCheck (.tagFail (.wipeLoan h1)))) ?_)
    extract_lets plain p q
    have h2 : WordsWf d2 := by dsimp only [d2]; split; exacts [.contact h1, h1]
    have hp : WordsWf p.1 := .holdSegment (.upd h2 rfl)
    exact .pair (.receiptCheck (.updatesGo hp))
theorem takeRef {c k b} (hw : WordsWf d) : WordsWf (d.takeRef c k b) := by
  unfold Dev.takeRef
  dsimp only
  split
  · split; exacts [.ite hw (.updTgt (.refTake hw)), .ite hw (.setItem (.refTake hw))]
  · split; exacts [.ite hw (.updColl (.refTake hw)), .ite hw (.upd (.refTake hw) rfl)]
  · exact hw
theorem crcFail {c k off size} (hw : WordsWf d) : WordsWf (d.crcFail c k off size) :=
  .ite (.itemFail (.set hw)) (.foldl .sendReceipt (.onCtx (.setItem (.set hw))))
theorem decodeFail {c k} (hw : WordsWf d) : WordsWf (d.decodeFail c k) := .itemFail (.bump (.set hw))
theorem blockPassed {c k cf off size poison us faults m} (hw : WordsWf d) : WordsWf (blockPassed c k cf off size poison us faults d m).1 :=
  .deliverItem (.settleHeld (.setItem hw))
theorem decodeBlock {c k cf off poison h b faults m} (hw : WordsWf d) : WordsWf (decodeBlock c k cf off poison h b faults d m).1 := by
  unfold Machine.decodeBlock
  extract_lets w d0
  refine .iteFst (.pair (.decodeFail hw)) (.iteFst ?_ ?_)
  · split; exacts [.blockPassed hw, .pair (.decodeFail hw)]
  · have h0 : WordsWf d0 := .takeRef hw
    split
    · exact .pair (.decodeFail h0)
    · exact .iteFst (.pair (.stage h0)) (.pair (.setItem (.bump (.stage h0))))
    · split; exacts [.blockPassed (.touchTab h0), .pair (.decodeFail h0)]
theorem blockDecode {c k off faults m} (hw : WordsWf d) : WordsWf (blockDecode c k off faults d m).1 := by
  unfold Machine.blockDecode
  extract_lets r l
  clear_value l
  split
  · exact .pair hw
  · refine .iteFst (.pair ?_) (.iteFst (.pair hw) ?_)
    · split; exacts [.tourSegment hw, .itemDead hw]
    · split
      · refine .pair ?_
        split; exacts [.ite (.crcFail hw) hw, hw]
      · extract_lets h n
        clear_value n
        split
        · exact .pair hw
        · exact .iteFst (.pair (.crcFail hw)) (.iteFst (.pair (.crcPassed (.ite (.takeRef hw) hw))) (.decodeBlock (.crcPassed hw)))

end WordsWf

theorem NextWf.execSegmentReceive {m g race tagOk} (hw : WordsWf s.dev) : NextWf (execSegmentReceive m g race tagOk s) :=
  .next (.onBoth (.segmentIn hw))
theorem NextWf.execBlockDecode {c item off faults} (hw : WordsWf s.dev) : NextWf (execBlockDecode c item off faults s) :=
  .next (.onBoth (.iteFst (.pair hw) (.pair (.receiptCheck (.updatesGo (.blockDecode hw))))))

/-! ### Timekeeping -/

namespace WordsWf

theorem tick (hw : WordsWf d) : WordsWf d.tick := .upd hw rfl
theorem setSlew {v} (hw : WordsWf d) : WordsWf (d.setSlew v) := .upd (.foldl .setServo hw) rfl
theorem ppsFire (hw : WordsWf d) : WordsWf d.ppsFire := .ite (.upd hw rfl) hw
theorem ppsCross {a b} (hw : WordsWf d) : WordsWf (d.ppsCross a b) := .ite (.upd hw rfl) hw
theorem stepBy {z} (hw : WordsWf d) : WordsWf (d.stepBy z) :=
  .ite hw (.iteOf (.pmStep (.foldl (fun h' => .ite h' (.setS h')) (.upd (.pmSettle hw) rfl))) .ppsCross)
theorem trustRefresh {i} (hw : WordsWf d) : WordsWf (d.trustRefresh i) := .ite hw (.ite (.pmStepped (.alarm (.set hw))) (.set hw))
theorem pmTrust (hw : WordsWf d) : WordsWf d.pmTrust := .ite hw (.pmStepped hw)
theorem trustBoth (hw : WordsWf d) : WordsWf d.trustBoth := .trustRefresh (.trustRefresh hw)
theorem switchTo {i} (hw : WordsWf d) : WordsWf (d.switchTo i) := .setServo (.set (.set (.setSlew (.stepBy (.pmTrust hw)))))
theorem autoSwitch {i} (hw : WordsWf d) : WordsWf (d.autoSwitch i) := .ite (.switchTo hw) hw
theorem freerun {i} (hw : WordsWf d) : WordsWf (d.freerun i) := .set (.setServo hw)
theorem servoSample {i o} (hw : WordsWf d) : WordsWf (d.servoSample i o) :=
  .ite hw (.iteOf (.trustRefresh (.iteOf (.set (.setServo (.iteOf (.ite (.set (.set (.stepBy (.pmTrust hw)))) (.setS (.pmTrust hw))) .setServo)))
    .set)) .autoSwitch)
theorem sourceLost {i} (hw : WordsWf d) : WordsWf (d.sourceLost i) := by
  unfold Dev.sourceLost
  extract_lets lost
  refine .ite hw ?_
  split
  · exact .trustRefresh (.set (.freerun hw))
  · exact .autoSwitch (.trustRefresh (.set (.set (.setServo hw))))
  · exact .ite (.set (.setServo hw)) hw
  · exact hw
theorem timeAdj {mode ofs} (hw : WordsWf d) : WordsWf (d.timeAdj mode ofs) := by
  unfold Dev.timeAdj
  extract_lets d1 z i open_ fits
  have h1 : WordsWf d1 := .set (.set hw)
  exact .ite (by split; exacts [.stepBy (.setSlew h1), .setSlew h1, .stepBy (.setSlew h1)]) (.set h1)
theorem steerWrite {i} (hw : WordsWf d) : WordsWf (d.steerWrite i) := .ite (.set hw) (.ite hw (.switchTo hw))
theorem domCfgWrite {i l w} (hw : WordsWf d) : WordsWf (d.domCfgWrite i l w) := by
  unfold Dev.domCfgWrite
  extract_lets was d1 touched en same typ bad d0 d2 d3
  have h1 : WordsWf d1 := .writeReg hw
  have h0 : WordsWf d0 := .set (.freerun h1)
  have h2 : WordsWf d2 := .ite h1 (.ite (.set (.set h1)) (.ite (.upd h0 rfl) (.freerun h1)))
  have h3 : WordsWf d3 := .trustRefresh h2
  exact .ite (.autoSwitch h3) h3
theorem timeLatch (hw : WordsWf d) : WordsWf d.timeLatch := .set (.set (.set hw))
theorem ptpSend {p udp due m} (hw : WordsWf d) : WordsWf (d.ptpSend p udp due m) := .setPtpQueue hw
theorem setSlave {i x} (hw : WordsWf d) : WordsWf (d.setSlave i x) := .upd hw rfl
theorem setMpd {i z} (hw : WordsWf d) : WordsWf (d.setMpd i z) := .set (.setSlave hw)
theorem syncDone {i p t1} (hw : WordsWf d) : WordsWf (d.syncDone i p t1) := by
  unfold Dev.syncDone
  extract_lets x d1 q d2
  have h1 : WordsWf d1 := by dsimp only [d1]; split; exacts [.servoSample hw, hw]
  have h2 : WordsWf d2 := .setSlave h1
  have h3 : WordsWf (d2.ptpSend p x.udp (.asked i) q) := .ptpSend h2
  exact .upd h3 rfl
theorem linked {i p} {a : Dev} (hw : WordsWf a) : WordsWf (Dev.slaveIn.linked i p a) := .upd hw rfl
theorem slaveIn {i p m} (hw : WordsWf d) : WordsWf (d.slaveIn i p m) := by
  unfold Dev.slaveIn
  extract_lets x p2p mine
  split
  · exact .iteElse (.setSlave hw) .syncDone
  · exact .ite (.syncDone hw) hw
  · split
    · exact .ite (.iteElse (.servoSample (.setMpd hw)) (fun _ => .setMpd hw)) hw
    · exact hw
  · exact .ite (.ite (.setSlave hw) (.linked (.setMpd hw))) hw
  · split; exacts [.ite (.linked (.setMpd hw)) hw, hw]
  · exact hw
theorem masterIn {i p m} (hw : WordsWf d) : WordsWf (d.masterIn i p m) := by
  unfold Dev.masterIn
  dsimp only
  split; exacts [.ite hw (.ptpSend hw), .ite hw (.ite (.ptpSend hw) (.ptpSend hw)), hw]
theorem ptpIn {p m} (hw : WordsWf d) : WordsWf (d.ptpIn p m) :=
  .ite hw (.ite (.upd hw rfl) (.foldl (fun h' => .ite (.ite (.slaveIn h') (.ite (.masterIn h') h')) h') hw))
theorem syncOut {i p seq} (hw : WordsWf d) : WordsWf (d.syncOut i p seq) := .ptpSend (.ite (.ptpSend hw) (.ptpSend hw))
theorem ptpLeave {p x} (hw : WordsWf d) : WordsWf (d.ptpLeave p x).1 := by
  unfold Dev.ptpLeave
  extract_lets d1 at_
  have h1 : WordsWf d1 := .setPtpQueue hw
  split
  · exact .pair h1
  · exact .pair h1
  · exact .pair (.ptpSend h1)
  · exact .pair (.ite (.setSlave h1) h1)
  · exact .pair h1
  · exact .pair (.ptpSend h1)
theorem ptpSample {p dir time m} (hw : WordsWf d) : WordsWf (ptpSample p dir time d m).1 := .iteFst (.headerSample (.usedFree hw)) (.pair hw)
theorem ptpDepart {p x m} (hw : WordsWf d) : WordsWf (ptpDepart p x d m).1 := .ptpSample (.emit (.ptpLeave (.usedFree hw)))
theorem relay {p m residence mem} (hw : WordsWf d) : WordsWf (relay p m residence d mem).1 :=
  .iteFst (.pair hw) (.iteFst (.pair (.upd (.ptpSample hw) rfl)) (.foldlFst (fun h' => .ptpSample (.emit h')) (.pair (.ite (.bump (.ptpSample hw))
    (.ptpSample hw)))))

end WordsWf

theorem NextWf.execHoldoverTrustLoss {i} (hw : WordsWf s.dev) : NextWf (execHoldoverTrustLoss i s) := .next (.onDev (.ite (.trustRefresh hw) hw))
theorem NextWf.execTimeNowRead (hw : WordsWf s.dev) : NextWf (execTimeNowRead s) := .next (.onDev (.ite (.emit (.timeLatch hw)) hw))
theorem NextWf.execPtpSyncSend {i} (hw : WordsWf s.dev) : NextWf (execPtpSyncSend i s) :=
  .next (.onDev (.ite (.upd (.foldl .syncOut hw) rfl) hw))
theorem NextWf.execPtpRelay {p m residence} (hw : WordsWf s.dev) : NextWf (execPtpRelay p m residence s) := .next (.onBoth (.relay hw))
theorem NextWf.execMarkReceive {e p m arrival} (hw : WordsWf s.dev) : NextWf (execMarkReceive e p m arrival s) :=
  .next (.onDev (.ite hw (.setMark hw)))
theorem NextWf.execPpsOutPulse (hw : WordsWf s.dev) : NextWf (execPpsOutPulse s) := .next (.onDev (.ppsFire hw))
theorem NextWf.execTodOutSend (hw : WordsWf s.dev) : NextWf (execTodOutSend s) := .next (.onDev (.ite (.emit hw) hw))
theorem NextWf.execPpsInEdge (hw : WordsWf s.dev) : NextWf (execPpsInEdge s) := .next (.onDev (.ite (.upd hw rfl) hw))
theorem NextWf.execTodInTimeout (hw : WordsWf s.dev) : NextWf (execTodInTimeout s) :=
  .next (.onDev (.ite (.ite (.set (.upd hw rfl)) (.upd hw rfl)) hw))
theorem NextWf.execPpsInMissing (hw : WordsWf s.dev) : NextWf (execPpsInMissing s) := .next (.onDev (.ite (.set hw) hw))
theorem NextWf.execLeapEvent (hw : WordsWf s.dev) : NextWf (execLeapEvent s) := by
  unfold Machine.execLeapEvent
  exact .next (.onDev (by split; exacts [.set (.setS hw), .set (.setS hw), hw]))
theorem NextWf.execReferenceLost {ref10m pps} (hw : WordsWf s.dev) : NextWf (execReferenceLost ref10m pps s) :=
  .next (.onDev (.ite (.set (.upd hw rfl)) (.upd hw rfl)))

/-! ### Vitrine -/

namespace WordsWf

theorem drew (hw : WordsWf d) : WordsWf d.drew := .upd hw rfl
theorem wrapHalf {i} (hw : WordsWf d) : WordsWf (d.wrapHalf i) := by
  unfold Dev.wrapHalf
  dsimp only
  split; exacts [.setHalf (.drew hw), hw]
theorem unwrapHalf {i} (hw : WordsWf d) : WordsWf (d.unwrapHalf i) := by
  unfold Dev.unwrapHalf
  split; exacts [.ite (.setHalf hw) hw, hw]
theorem wrapKeys (hw : WordsWf d) : WordsWf d.wrapKeys := .foldl .wrapHalf hw
theorem unwrapKeys (hw : WordsWf d) : WordsWf d.unwrapKeys := .foldl .unwrapHalf hw
theorem movePair {pair} (hw : WordsWf d) : WordsWf (d.movePair pair) := .foldl (fun h' => .unwrapHalf (.wrapHalf h')) hw
theorem storeHalf {i k} (hw : WordsWf d) : WordsWf (d.storeHalf i k) := .ite (.wrapHalf (.setHalf hw)) (.setHalf hw)
theorem sealTimed {p} (hw : WordsWf d) : WordsWf (d.sealTimed p) := .upd hw rfl
theorem sealFailed {p} (hw : WordsWf d) : WordsWf (d.sealFailed p) := .sealTimed (.set hw)
theorem setSeal {p x} (hw : WordsWf d) : WordsWf (d.setSeal p x) := .upd hw rfl
theorem sealSend {site step session body} (hw : WordsWf d) : WordsWf (d.sealSend site step session body) := .foldl .send hw
theorem sealFail {p reason session alert} (hw : WordsWf d) : WordsWf (d.sealFail p reason session alert) := by
  unfold Dev.sealFail
  dsimp only
  split; exacts [.iteOf (.bump (.set (.sealFailed (.setSeal hw)))) .sealSend, .bump (.set (.sealFailed (.setSeal hw)))]
theorem sealRefuse {p reason} (hw : WordsWf d) : WordsWf (d.sealRefuse p reason) := .ite (.set hw) (.bump (.sealFailed (.set hw)))
theorem sealing {p} (hw : WordsWf d) : WordsWf (d.sealing p) := .ite hw (.set hw)
theorem sealStart {p} (hw : WordsWf d) : WordsWf (d.sealStart p) := by
  unfold Dev.sealStart
  dsimp only
  refine .ite hw ?_
  split
  · exact hw
  · exact .ite (.sealRefuse hw) (.ite (.ite hw (.sealFailed hw)) (.sealSend (.sealing (.setSeal (.drew (.drew (.drew hw)))))))
theorem sealAll (hw : WordsWf d) : WordsWf d.sealAll := .foldl (fun h' => .ite (.sealStart h') h') hw
theorem sealFeed {p step m} (hw : WordsWf d) : WordsWf (d.sealFeed p step m).1 :=
  .iteFst (.pair hw) (.iteFst (.pair (.upd hw rfl)) (.pair (.upd hw rfl)))
theorem sealed {p x} (hw : WordsWf d) : WordsWf (d.sealed p x) := .lostExit (.set (.set (.set (.set (.upd hw rfl)))))
theorem initWhole {p site gw m body} (hw : WordsWf d) : WordsWf (d.initWhole p site gw m body) := by
  unfold Dev.initWhole
  extract_lets session crossing
  exact .ite hw (.ite (.sealFail (.sealing hw)) (.ite (.sealRefuse hw) (.ite (.ite hw (.sealFailed hw)) (.sealSend (.sealing (.setSeal (.drew
      (.drew (.drew hw)))))))))
theorem sealTrng {p} (hw : WordsWf d) : WordsWf (d.sealTrng p) := .ite (.setSeal hw) (.sealFailed (.setSeal hw))
theorem replyWhole {p site gw m x body} (hw : WordsWf d) : WordsWf (d.replyWhole p site gw m x body) :=
  .ite (.sealFail hw) (.ite (.sealFail hw) (.ite (.sealFail hw) (.ite (.sealTrng hw) (.sealSend (.setSeal (.drew hw))))))
theorem finishWhole {p site gw m x body} (hw : WordsWf d) : WordsWf (d.finishWhole p site gw m x body) :=
  .ite (.sealFail hw) (.ite (.sealFail hw) (.ite (.sealFail hw) (.ite (.sealTrng hw) (.sealSend (.sealed hw)))))
theorem sealStep {p step m ours go} (hw : WordsWf d) (hgo : ∀ {a x site gw body}, WordsWf a → WordsWf (go a x site gw body)) :
    WordsWf (d.sealStep p step m ours go) := by
  unfold Dev.sealStep
  split
  · refine .ite hw ?_
    have hf : WordsWf (d.sealFeed p step m).1 := .sealFeed hw
    split
    · next h => rwa [h] at hf
    · next h => rw [h] at hf; exact hgo hf
  · exact hw
theorem vtDone {st len} (hw : WordsWf d) : WordsWf (d.vtDone st len) := .set (.set hw)
theorem vtRefuse (hw : WordsWf d) : WordsWf d.vtRefuse := .vtDone (.usedFree hw)
theorem vtCmd {op arg g} (hw : WordsWf d) (hg : ∀ {a : Dev}, WordsWf a → WordsWf (g a)) : WordsWf (d.vtCmd op arg g) :=
  .ite (hg (.set (.set hw))) hw
theorem vtPlace {l} (hw : WordsWf d) : WordsWf (d.vtPlace l) := .foldl .set hw
theorem hashedLost (hw : WordsWf d) : WordsWf d.hashedLost := by
  unfold Dev.hashedLost
  extract_lets d1 d2
  have h1 : WordsWf d1 := .foldl (fun h' => .setWord (.setWord (by split; exacts [.ite (.annexGive (.annexGive h')) (.annexGive h'), h']))) hw
  have h2 : WordsWf d2 := .foldl .deltaInFree (.upd h1 rfl)
  exact .foldl .slotDiscard (.upd h2 rfl)
theorem withCtxs {l} (hw : WordsWf d) : WordsWf { d with ctxs := l } := .upd hw rfl
theorem withoutKeys {k} (hw : WordsWf d) :
    WordsWf { d with halves := [], ctlKeys := [], keks := [], storageKey := [], seals := [], sealRx := [], hashKeys := k } := .upd hw rfl
theorem erase (hw : WordsWf d) : WordsWf d.erase := by
  unfold Dev.erase
  extract_lets d1 d2 d3 d4
  have h2 : WordsWf d2 := .foldl .collFail (.foldl .failCtx hw)
  have h3 : WordsWf d3 := .foldl (fun h' => .ite h' (.set (.set h'))) h2
  have h4 : WordsWf d4 := .withoutKeys h3
  exact .hashedLost (.withCtxs h4)
theorem sensor {i cluster} (hw : WordsWf d) : WordsWf (d.sensor i cluster) := by
  unfold Dev.sensor
  extract_lets d0 d1
  have h0 : WordsWf d0 := .set hw
  have h1 : WordsWf d1 := .ite h0 (.alarm h0)
  exact .ite (.iteOf (.iteOf (.bump (.set (.erase h1))) .set) .set) (.ite (.set h1) (.ite (.foldl .quarantine (.ite h1 (.upd h1 rfl))) h1))
theorem dueKeys {c} (hw : WordsWf d) : WordsWf (d.dueKeys c) := by
  unfold Dev.dueKeys
  dsimp only
  exact .ite (.foldl (fun h' => (by split; exacts [.ite h' (.writeEpoch h'), .writeEpoch h'])) hw) hw
theorem drawHashKeys (hw : WordsWf d) : WordsWf d.drawHashKeys := by
  unfold Dev.drawHashKeys
  extract_lets a d1 b d2 c d3
  have h3 : WordsWf d3 := .drew (.drew (.drew hw))
  exact .upd h3 rfl
theorem loadDone {f ch st} (hw : WordsWf d) : WordsWf (d.loadDone f ch st) := .upd hw rfl
theorem loadRefuse {f ch st} (hw : WordsWf d) : WordsWf (d.loadRefuse f ch st) := .ite (.loadDone (.sensor hw)) (.loadDone hw)
theorem keyConflict {ctx} (hw : WordsWf d) : WordsWf (d.keyConflict ctx) := by
  unfold Dev.keyConflict
  split; exacts [.ite (.alarm hw) (.quarantine hw), .alarm (.usedFree hw)]
theorem loadKey {f ch r key} (hw : WordsWf d) : WordsWf (d.loadKey f ch r key) := by
  unfold Dev.loadKey
  dsimp only
  refine .ite (.loadDone hw) ?_
  split; exacts [.loadDone (.keyConflict (.set (.setHalf hw))), .loadDone (.storeHalf (.setBound hw))]
theorem loadStart {f ch r kek g} (hw : WordsWf d) (hg : ∀ {a : Dev}, WordsWf a → WordsWf (g a)) : WordsWf (d.loadStart f ch r kek g) :=
  .ite hw (.ite (.loadRefuse hw) (.ite (.loadDone hw) (hg hw)))
theorem vtTenWrite {t l w} (hw : WordsWf d) : WordsWf (d.vtTenWrite t l w) := .ite (.set hw) (.ite (.set hw) (.writeFields hw))
theorem gateCluster {i} (hw : WordsWf d) : WordsWf (d.gateCluster i) := .set (.foldl (fun h' => .movePair (.onCtx h')) hw)
theorem pwrDone {st} (hw : WordsWf d) : WordsWf (d.pwrDone st) := .upd (.set (.set hw)) rfl
theorem trim (hw : WordsWf d) : WordsWf d.trim := .ite (.takeProfile (.set hw)) hw
theorem gateGrant {target} (hw : WordsWf d) : WordsWf (d.gateGrant target) :=
  .ite (.ite (.trim (.pwrDone (.gateCluster hw))) (.pwrDone hw)) (.trim (.pwrDone (.set hw)))
theorem pwrReq {target action g} (hw : WordsWf d) (hg : ∀ {a : Dev}, WordsWf a → WordsWf (g a)) : WordsWf (d.pwrReq target action g) :=
  .ite hw (hg (.set (.set hw)))
theorem zeroCluster {k} (hw : WordsWf d) : WordsWf (d.zeroCluster k) := .foldl (fun h' => .setHalf (.setHalf (.setHalf (.setHalf h')))) hw

end WordsWf

theorem NextWf.execInitReceive {p m} (hw : WordsWf s.dev) : NextWf (execInitReceive p m s) := by
  unfold Machine.execInitReceive
  refine .next (.onDev ?_)
  split
  · exact hw
  · refine .ite hw ?_
    have hf : WordsWf (s.dev.sealFeed p 1 m).1 := .sealFeed hw
    split
    · next h => rwa [h] at hf
    · next h => rw [h] at hf; exact .initWhole hf
theorem NextWf.execReplyReceive {p m} (hw : WordsWf s.dev) : NextWf (execReplyReceive p m s) := .next (.onDev (.sealStep hw .replyWhole))
theorem NextWf.execFinishReceive {p m} (hw : WordsWf s.dev) : NextWf (execFinishReceive p m s) := .next (.onDev (.sealStep hw .finishWhole))
theorem NextWf.execDoneReceive {p m} (hw : WordsWf s.dev) : NextWf (execDoneReceive p m s) :=
  .next (.onDev (.sealStep hw (fun h' => .ite h' (.ite (.sealFail h') (.ite (.sealed h') (.sealTrng h'))))))
theorem NextWf.execAlertReceive {p m} (hw : WordsWf s.dev) : NextWf (execAlertReceive p m s) := by
  unfold Machine.execAlertReceive
  exact .next (.onDev (by split; exacts [hw, .sealStep hw .sealFail]))
theorem NextWf.execSealReassemblyTimeout {p step} (hw : WordsWf s.dev) : NextWf (execSealReassemblyTimeout p step s) :=
  .next (.onDev (.upd hw rfl))
theorem NextWf.execSealRetry {p} (hw : WordsWf s.dev) : NextWf (execSealRetry p s) := .next (.onDev (.ite (.sealTimed (.sealStart hw)) hw))
theorem NextWf.execCommitSvn (hw : WordsWf s.dev) : NextWf (execCommitSvn s) :=
  .next (.onDev (.vtCmd hw (fun h' => .ite (.vtDone (.set h')) (.vtRefuse h'))))
theorem NextWf.execOpkeyProgram (hw : WordsWf s.dev) : NextWf (execOpkeyProgram s) :=
  .next (.onDev (.vtCmd hw (fun h' => .ite (.vtDone (.foldl .set (.set h'))) (.vtRefuse h'))))
theorem NextWf.execCredInstall {keyOk sigOk} (hw : WordsWf s.dev) : NextWf (execCredInstall keyOk sigOk s) :=
  .next (.onDev (.vtCmd hw (fun h' => .ite (.vtDone (.set (.upd h' rfl))) (.vtRefuse h'))))
theorem NextWf.execAttest (hw : WordsWf s.dev) : NextWf (execAttest s) :=
  .next (.onDev (.vtCmd hw (fun h' => .ite (.vtDone (.vtPlace (.drew h'))) (.vtRefuse h'))))
theorem NextWf.execSealPeer {arg} (hw : WordsWf s.dev) : NextWf (execSealPeer arg s) :=
  .next (.onDev (.vtCmd hw (fun h' => .ite (.ite (.vtDone (.sealStart h')) (.vtDone (.sealStart h'))) (.vtRefuse h'))))
theorem NextWf.execDbgChallenge (hw : WordsWf s.dev) : NextWf (execDbgChallenge s) :=
  .next (.onDev (.vtCmd hw (fun h' => .ite (.vtDone (.vtPlace (.upd h' rfl))) (.vtRefuse h'))))
theorem NextWf.execTamperSensorTrip {i sight} (hw : WordsWf s.dev) : NextWf (execTamperSensorTrip i sight s) :=
  .next (.onDev (.ite hw (.sensor hw)))
theorem NextWf.execTrngRecovery (hw : WordsWf s.dev) : NextWf (execTrngRecovery s) :=
  .next (.onDev (.foldl .dueKeys (.iteOf (.set (.set hw)) .unwrapKeys)))
theorem NextWf.execDbgUnlock {sigOk} (hw : WordsWf s.dev) : NextWf (execDbgUnlock sigOk s) :=
  .next (.onDev (.vtCmd hw (fun h' => .ite (.vtRefuse h') (.ite (.vtDone h') (.ite (.vtDone (.foldl (fun h'' => .ite (.set h'') h'') (.upd (.set
    (.upd h' rfl)) rfl))) (.vtRefuse (.sensor (.upd h' rfl))))))))
theorem NextWf.execDbgLock (hw : WordsWf s.dev) : NextWf (execDbgLock s) :=
  .next (.onDev (.vtCmd hw (fun h' => .ite (.vtDone (.set h')) (.vtRefuse h'))))
theorem NextWf.execRehash (hw : WordsWf s.dev) : NextWf (execRehash s) :=
  .next (.onDev (.vtCmd hw (fun h' => .ite (.vtDone (.hashedLost (.drawHashKeys h'))) (.vtDone h'))))
theorem NextWf.execRma {sigOk} (hw : WordsWf s.dev) : NextWf (execRma sigOk s) :=
  .next (.onDev (.vtCmd hw (fun h' => .ite (.vtDone (.set (.set (.erase h')))) (.vtRefuse h'))))
theorem NextWf.execSelftest {pass} (hw : WordsWf s.dev) : NextWf (execSelftest pass s) :=
  .next (.onDev (.vtCmd hw (fun h' => .ite (.vtDone (.set (.set h'))) (.vtRefuse (.sensor h')))))
theorem NextWf.execLoad {f ch r} (hw : WordsWf s.dev) : NextWf (execLoad f ch r s) :=
  .next (.onDev (.loadStart hw (fun h' => .ite (.loadDone h') (.loadKey h'))))
theorem NextWf.execLoadWrapped {f ch r tagOk} (hw : WordsWf s.dev) : NextWf (execLoadWrapped f ch r tagOk s) := by
  unfold Machine.execLoadWrapped
  exact .next (.onDev (.loadStart hw (fun h' => .ite (.loadDone h') (by split; exacts [.loadDone h', .ite (.loadDone h') (.loadKey h')]))))
theorem NextWf.execClear {f ch r} (hw : WordsWf s.dev) : NextWf (execClear f ch r s) := by
  unfold Machine.execClear
  dsimp only
  exact .next (.onDev (.loadStart hw (fun h' => .loadDone (by split; exacts [.ite (.failCtx (.setHalf h')) (.setHalf h'), .setHalf h']))))
theorem NextWf.execSetKek {f ch r} (hw : WordsWf s.dev) : NextWf (execSetKek f ch r s) :=
  .next (.onDev (.loadStart hw (fun h' => .ite (.loadDone h') (.loadDone (.upd h' rfl)))))
theorem NextWf.execVtTenWrite {t l w} (hw : WordsWf s.dev) : NextWf (execVtTenWrite t l w s) := .next (.onDev (.ite (.vtTenWrite hw) hw))
theorem NextWf.execPowerGate {target} (hw : WordsWf s.dev) : NextWf (execPowerGate target s) :=
  .next (.onDev (.pwrReq hw (fun h' => .ite (.pwrDone h') (.ite (.gateGrant h') (.upd (.set h') rfl)))))
theorem NextWf.execPowerUngate {target} (hw : WordsWf s.dev) : NextWf (execPowerUngate target s) :=
  .next (.onDev (.pwrReq hw (fun h' => .ite (.pwrDone h') (.pwrDone (.set h')))))
theorem NextWf.execGateDeferEnd (hw : WordsWf s.dev) : NextWf (execGateDeferEnd s) := by
  unfold Machine.execGateDeferEnd
  exact .next (.onDev (by split; exacts [hw, .ite (.gateGrant hw) (.ite (.pwrDone hw) hw)]))
theorem NextWf.execClusterPowerLoss {k} (hw : WordsWf s.dev) : NextWf (execClusterPowerLoss k s) :=
  .next (.onDev (.ite (.zeroCluster hw) (.foldl .failCtx (.zeroCluster hw))))

/-! ### Plans -/

namespace WordsWf

theorem planPeers (hw : WordsWf d) : WordsWf d.planPeers :=
  .foldl (fun h' => .ite (.ite (.set (.setPeer h')) h') (.ite h' (.set (.setPeer h')))) hw
theorem activateCat (hw : WordsWf d) : WordsWf d.activateCat :=
  .ite (.sealAll (.foldl .regroupEngine (.foldl (fun h' => .foldl .pmDirty h') (.foldl (fun h' => .ite (.sourceLost h') h') (.planPeers (.foldl
    .failCtx (.upd (.set (.set (.set (.set (.set (.set (.set (.set (.pmSettle hw))))))))) rfl))))))) hw
theorem overtaken {before} (hw : WordsWf d) : WordsWf (d.overtaken before) :=
  .iteOf (.iteOf (.ite (.activatePage hw) hw) .activateCat) .activatePage
theorem onPlan {g} (hw : WordsWf s.dev) (hg : ∀ {a : Dev}, WordsWf a → WordsWf (g a)) : WordsWf (s.onPlan g).dev := .onDev (.overtaken (hg hw))

end WordsWf

theorem NextWf.execCatalogueActivate (hw : WordsWf s.dev) : NextWf (execCatalogueActivate s) := .next (.onDev (.ite (.activateCat hw) hw))
theorem NextWf.execServoSample {i o} (hw : WordsWf s.dev) : NextWf (execServoSample i o s) := .next (.onPlan hw .servoSample)
theorem NextWf.execSourceLost {i} (hw : WordsWf s.dev) : NextWf (execSourceLost i s) := .next (.onPlan hw .sourceLost)
theorem NextWf.execTimeAdjStep {ofs} (hw : WordsWf s.dev) : NextWf (execTimeAdjStep ofs s) :=
  .next (.onPlan hw (fun h' => .ite (.timeAdj h') h'))
theorem NextWf.execTimeAdjSlew {ofs} (hw : WordsWf s.dev) : NextWf (execTimeAdjSlew ofs s) :=
  .next (.onPlan hw (fun h' => .ite (.timeAdj h') h'))
theorem NextWf.execTimeAdjSet {ofs} (hw : WordsWf s.dev) : NextWf (execTimeAdjSet ofs s) := .next (.onPlan hw (fun h' => .ite (.timeAdj h') h'))
theorem NextWf.execSteerWrite {i} (hw : WordsWf s.dev) : NextWf (execSteerWrite i s) := .next (.onPlan hw (fun h' => .ite (.steerWrite h') h'))
theorem NextWf.execDomainEnable {i l w} (hw : WordsWf s.dev) : NextWf (execDomainEnable i l w s) :=
  .next (.onPlan hw (fun h' => .ite (.domCfgWrite h') h'))
theorem NextWf.execPtpMessageReceive {p m} (hw : WordsWf s.dev) : NextWf (execPtpMessageReceive p m s) :=
  .next (.iteDev (.onPlan (.onBoth (.ptpSample hw)) .ptpIn) hw)
theorem NextWf.execEchoReceive {e p m} (hw : WordsWf s.dev) : NextWf (execEchoReceive e p m s) := by
  unfold Machine.execEchoReceive
  dsimp only
  exact .next (.onPlan hw (fun h' => (by split; exacts [h', .ite h' (.foldl (fun h'' => .ite (.servoSample (.set h'')) h'') (.upd h' rfl))])))
theorem NextWf.execTodInMessage {bytes} (hw : WordsWf s.dev) : NextWf (execTodInMessage bytes s) := by
  unfold Machine.execTodInMessage
  dsimp only
  exact .next (.onPlan hw (fun h' => .ite h' (by split; exacts [.set h', h', .ite (.set h') (.ite (.upd (.set h') rfl) (.foldl (fun h'' => .ite
      (.servoSample h'') h'') (.upd h' rfl)))])))

/-! ### Fabric selections -/

namespace WordsWf

theorem pace {q} (hw : WordsWf d) : WordsWf (d.pace q) := by
  unfold Dev.pace
  split; exacts [.setLimiter hw, hw]
theorem lrmSelect {p m} (hw : WordsWf d) : WordsWf (lrmSelect p d m).1 := by
  unfold Machine.lrmSelect
  extract_lets heads
  split
  · exact .pair hw
  · extract_lets hs inner outer
    clear_value inner outer
    split
    · exact .pair hw
    · split
      · exact .pair hw
      · split; exacts [.pair hw, .headerSample (.emit (.pace (.setPortQueue (.bump (.setWfq (.setWfq hw))))))]
theorem portSelect {p m} (hw : WordsWf d) : WordsWf (portSelect p d m).1 := by
  unfold Machine.portSelect
  split; exacts [.ptpDepart hw, .lrmSelect (.releaseReads hw)]
theorem adoptOne {m c} (hw : WordsWf d) : WordsWf (d.adoptOne m c) := by
  unfold Dev.adoptOne
  dsimp only
  exact .ite hw (by split; exacts [hw, .onCtx hw])
theorem adopt {m} (hw : WordsWf d) : WordsWf (d.adopt m) := .foldl .adoptOne (.lineSettle hw)
theorem lineTags {m} (hw : WordsWf d) : WordsWf (d.lineTags m) := .foldl .setWfq (.setWfq (.lineSettle hw))
theorem sendEntry {c m g} (hw : WordsWf d) : WordsWf (d.sendEntry c m g) :=
  .iteElse (.emit (.onLine (.onCtx hw))) (fun h' => .iteOf (.eventOp (.bump h')) .updColl)
theorem lineSelect {d0 : Dev} {m} (hw : WordsWf d0) : WordsWf (d0.lineSelect m) := by
  unfold Dev.lineSelect
  extract_lets d' qs ent
  have h' : WordsWf d' := .lineTags (.adopt hw)
  refine .ite h' ?_
  split
  · exact h'
  · extract_lets hs inner outer
    clear_value inner outer
    split
    · exact h'
    · split
      · exact h'
      · split; exacts [h', .lineTags (.sendEntry (.iteOf (.setWfq (.setWfq h')) .bump))]
theorem queueSample {ent t} (hw : WordsWf d) : WordsWf (d.queueSample ent t) := .set (.set (.set (.set hw)))
theorem qsRead (hw : WordsWf d) : WordsWf d.qsRead := .set (.emit hw)
theorem ringSlot {stop} (hw : WordsWf d) : WordsWf (d.ringSlot stop) := by
  unfold Dev.ringSlot
  dsimp only
  exact .iteOf (by split; exacts [.upd hw rfl, .bump (.emit (.upd hw rfl))]) .bump

end WordsWf

theorem NextWf.execSchedulingSelection {ent} (hw : WordsWf s.dev) : NextWf (execSchedulingSelection ent s) :=
  .next (.iteDev (.onBoth (.portSelect hw)) (.onDev (.lineSelect hw)))
theorem NextWf.execQueueSample (hw : WordsWf s.dev) : NextWf (execQueueSample s) := .next (.onDev (.foldl .queueSample hw))
theorem NextWf.execFabQsDataRead (hw : WordsWf s.dev) : NextWf (execFabQsDataRead s) := .next (.onDev (.ite (.qsRead hw) hw))
theorem NextWf.execFlitInject {stop flit} (hw : WordsWf s.dev) : NextWf (execFlitInject stop flit s) := by
  unfold Machine.execFlitInject
  dsimp only
  exact .next (.onDev (.ite hw (.ringSlot (by split; exacts [.ite hw (.upd hw rfl), hw]))))
theorem NextWf.execFlitArrive {stop vc up full} (hw : WordsWf s.dev) : NextWf (execFlitArrive stop vc up full s) :=
  .next (.onDev (.ite hw (.ite (.bump (.upd hw rfl)) (.upd hw rfl))))
theorem NextWf.execSkewCheck {k counts tenant} (hw : WordsWf s.dev) : NextWf (execSkewCheck k counts tenant s) :=
  .next (.onDev (.ite hw (.ite (.ite (.upd hw rfl) (.alarm (.set (.set (.bump (.upd hw rfl)))))) (.upd hw rfl))))

/-! ### Power, resets and boot -/

namespace WordsWf

theorem fusesOf {old : Dev} {por} (hw : WordsWf d) : WordsWf (d.fusesOf old por) :=
  .iteElse (.foldl .set (.set (.set (.set (.set hw))))) (fun h' => .set (.set h'))
theorem resetDev {por} (hw : WordsWf d) : WordsWf (d.resetDev por) := by
  unfold Dev.resetDev
  extract_lets keep d0 d1 d2 d3 d4
  have hk : tabWf resetWord keep := by dsimp only [keep]; split; exacts [tabWf_nil _, tabWf_filter _ _ hw]
  have h1 : WordsWf d1 := hk
  have h3 : WordsWf d3 := .set (.set (.fusesOf (.set (.set (.set h1)))))
  have h4 : WordsWf d4 := .ite h3 (.set (.set h3))
  exact .emit h4
theorem powerOnReset {m} (hw : WordsWf d) : WordsWf (powerOnReset d m).1 := .pair (.resetDev hw)
theorem railBack {rail} (hw : WordsWf d) : WordsWf (d.railBack rail) := .ite (.upd hw rfl) hw
theorem resetPulse (hw : WordsWf d) : WordsWf d.resetPulse := .ite (.upd hw rfl) (.resetDev hw)
theorem bootTime (hw : WordsWf d) : WordsWf d.bootTime := .set hw
theorem bootCode {code} (hw : WordsWf d) : WordsWf (d.bootCode code) := .ite (.set hw) hw
theorem bootFail {code} (hw : WordsWf d) : WordsWf (d.bootFail code) := .bootTime (.set (.set (.set hw)))
theorem bootLoad (hw : WordsWf d) : WordsWf d.bootLoad := .upd (.set hw) rfl
theorem lockBits {ks} (hw : WordsWf d) : WordsWf (d.lockBits ks) := .set hw
theorem takeVit {h} (hw : WordsWf d) : WordsWf (d.takeVit h) := .set (.upd hw rfl)
theorem takeCur {h} (hw : WordsWf d) : WordsWf (d.takeCur h) := .iteOf (.set (.set (.set (.set (.upd hw rfl))))) (fun h' => .set (.bootCode h'))
theorem imageBad (hw : WordsWf d) : WordsWf d.imageBad := .ite (.upd (.set hw) rfl) (.bootFail hw)
theorem dlStart (hw : WordsWf d) : WordsWf d.dlStart := .ite hw (.ite (.bootFail hw) (.upd (.set hw) rfl))
theorem trainFail {ks} (hw : WordsWf d) : WordsWf (d.trainFail ks) :=
  .iteElse (.foldl (fun h' => .alarm (.set h')) hw) (fun h' => .set (.bootCode h'))
theorem bootFence {qs} (hw : WordsWf d) : WordsWf (d.bootFence qs) := .ite (.foldl .fenceQuarter hw) (.set (.bootCode (.foldl .fenceQuarter hw)))
theorem powerTarget {t} (hw : WordsWf d) : WordsWf (d.powerTarget t) := .ite (.set hw) (.ite (.set (.set hw)) (.set (.set hw)))
theorem carrierOff {m} (hw : WordsWf d) : WordsWf (d.carrierOff m) :=
  .iteOf (.set (.set (.set (.set (.set (.set (.set (.set (.set (.setKw (.dropTx hw))))))))))) .losSet
theorem lineOff (hw : WordsWf d) : WordsWf d.lineOff := .foldl (fun h' => .ite (.set (.foldl .carrierOff h')) h') hw
theorem fabricOff (hw : WordsWf d) : WordsWf d.fabricOff := by
  unfold Dev.fabricOff
  extract_lets d1
  have h1 : WordsWf d1 := .foldl .set hw
  clear_value d1
  exact .upd h1 rfl
theorem holdEnables (hw : WordsWf d) : WordsWf d.holdEnables := .upd (.set (.set (.set hw))) rfl
theorem freeEnables (hw : WordsWf d) : WordsWf d.freeEnables := .upd (.set (.set (.set hw))) rfl
theorem goDark (hw : WordsWf d) : WordsWf d.goDark :=
  .foldl (fun h' => .ite (.sourceLost h') h') (.holdEnables (.upd (.fabricOff (.lineOff hw)) rfl))
theorem goHold (hw : WordsWf d) : WordsWf d.goHold := by
  unfold Dev.goHold
  extract_lets d1 d2
  have h1 : WordsWf d1 := .ite (.set (.set hw)) hw
  have h2 : WordsWf d2 := .foldl (fun h' => .foldl .histFlush h') h1
  clear_value d2
  exact .upd h2 rfl
theorem relight (hw : WordsWf d) : WordsWf d.relight :=
  .foldl (fun h' => .ite (.regroup (.rebase (.startLo (.startTx (.onKw h'))))) h') (.freeEnables hw)
theorem moveDone (hw : WordsWf d) : WordsWf d.moveDone := by
  unfold Dev.moveDone
  extract_lets st t n d1 d2 d3 d4 d5
  have h1 : WordsWf d1 := .set hw
  have h2 : WordsWf d2 := .ite (.set h1) h1
  have h3 : WordsWf d3 := .ite (.goDark (.wrapKeys h2)) h2
  have h4 : WordsWf d4 := .ite (.goHold h3) h3
  have h5 : WordsWf d5 := .ite (.relight (.unwrapKeys h4)) h4
  exact .ite (.takeProfile (.set h5)) h5
theorem thermOn (hw : WordsWf d) : WordsWf d.thermOn := .ite hw (.upd hw rfl)
theorem blkReset {b u known quiet g} (hw : WordsWf d) (hg : ∀ {a : Dev}, WordsWf a → WordsWf (g a)) : WordsWf (d.blkReset b u known quiet g) :=
  .ite hw (.ite (.set (.set (.set (.set (.set hw))))) (.ite (.set (.set (.set (.set (.set hw))))) (.set (.set (hg (.set (.set (.set (.set
    hw)))))))))
theorem tourBlk {u} (hw : WordsWf d) : WordsWf (d.tourBlk u) := .blkReset hw (fun h' => .upd (.setWord (.set (.set (.set h')))) rfl)
theorem codecBlk {u} (hw : WordsWf d) : WordsWf (d.codecBlk u) := .blkReset hw (fun h' => .iteOf (.upd (.foldl .histFlush h') rfl) .set)
theorem cipherBlk {u} (hw : WordsWf d) : WordsWf (d.cipherBlk u) := .blkReset hw (fun h' => .upd (.zeroCluster h') rfl)
theorem kwaveBlk {u} (hw : WordsWf d) : WordsWf (d.kwaveBlk u) :=
  .blkReset hw (fun h' => .foldl (fun h'' => .setWord (.setKw (.onLine (.pathClear h'')))) h')
theorem fabricBlk {u} (hw : WordsWf d) : WordsWf (d.fabricBlk u) := .blkReset hw .set
theorem courierBlk {u} (hw : WordsWf d) : WordsWf (d.courierBlk u) := .blkReset hw (fun h' => .set (.set (.set h')))
theorem mbxPlace {l} (hw : WordsWf d) : WordsWf (d.mbxPlace l) := .foldl .set hw
theorem mbxEnd {st l} (hw : WordsWf d) : WordsWf (d.mbxEnd st l) := .iteOf (.upd (.set (.set (.set (.mbxPlace hw)))) rfl) .sendMsix
theorem mbxCmd {op arg res g} (hw : WordsWf d) (hg : ∀ {a : Dev}, WordsWf a → WordsWf (g a)) : WordsWf (d.mbxCmd op arg res g) :=
  .ite hw (.ite (.mbxEnd (.set (.set hw))) (hg (.upd (.set (.set (.set hw))) rfl)))
theorem mbxFinish {r} (hw : WordsWf d) : WordsWf (d.mbxFinish r) := .mbxEnd (.ite (.upd hw rfl) hw)

end WordsWf

theorem NextWf.execPowerOn (hw : WordsWf s.dev) : NextWf (execPowerOn s) := .next (.onBoth (.powerOnReset (.upd hw rfl)))
theorem NextWf.execPowerRailFault {rail mv} (hw : WordsWf s.dev) : NextWf (execPowerRailFault rail mv s) := by
  unfold Machine.execPowerRailFault
  extract_lets p
  refine .next (.iteDev (.onBoth (.powerOnReset (.upd hw rfl))) (.iteDev (.onDev (.railBack hw)) (.iteDev hw ?_)))
  split; exacts [.onDev (.ite (.fenceQuarter hw) hw), .iteDev (.onDev (.sensor hw)) hw]
theorem NextWf.execResetNAssert {lowNs} (hw : WordsWf s.dev) : NextWf (execResetNAssert lowNs s) :=
  .next (.iteDev hw (.iteDev (.onDev (.resetPulse hw)) (.onDev (.ite (.resetPulse (.usedFree hw)) (.usedFree hw)))))
theorem NextWf.execResetRelease {bootSel clkMode} (hw : WordsWf s.dev) : NextWf (execResetRelease bootSel clkMode s) := by
  unfold Machine.execResetRelease
  refine .next (.iteDev (.onDev ?_) hw)
  extract_lets d1 d2 d3 d4 d5
  have h1 : WordsWf d1 := .set (.emit (.upd hw rfl))
  have h2 : WordsWf d2 := .set (.set h1)
  have h3 : WordsWf d3 := .ite (.set h2) (.set (.set h2))
  have h4 : WordsWf d4 := .drawHashKeys (.set h3)
  have h5 : WordsWf d5 := .drew h4
  exact .ite (.upd h5 rfl) h4
theorem NextWf.execCfgSenseConversion {r} (hw : WordsWf s.dev) : NextWf (execCfgSenseConversion r s) :=
  .next (.onDev (.ite (.set (.set (.set hw))) hw))
theorem NextWf.execBootSelftestDone {pass refclk} (hw : WordsWf s.dev) : NextWf (execBootSelftestDone pass refclk s) :=
  .next (.onDev (.ite hw (.ite (.bootFail hw) (.ite (.bootFail (.sensor (.lockBits hw))) (.set (.bootLoad (.set (.set (.lockBits hw)))))))))
theorem NextWf.execImageCheck {part h} (hw : WordsWf s.dev) : NextWf (execImageCheck part h s) := by
  unfold Machine.execImageCheck
  dsimp only
  refine .next (.onDev (.ite hw ?_))
  split; exacts [.ite hw (.ite (.takeVit hw) (.imageBad hw)), .ite hw (.ite (.takeCur hw) (.imageBad hw))]
theorem NextWf.execHostDownload {vit cur} (hw : WordsWf s.dev) : NextWf (execHostDownload vit cur s) :=
  .next (.onDev (.ite (.dlStart hw) (.ite (.takeCur (.takeVit (.set (.dlStart hw)))) (.bootFail (.set (.dlStart hw))))))
theorem NextWf.execDownloadTimeout (hw : WordsWf s.dev) : NextWf (execDownloadTimeout s) := .next (.onDev (.ite (.bootFail hw) hw))
theorem NextWf.execPcieConfigReady (hw : WordsWf s.dev) : NextWf (execPcieConfigReady s) := .next (.onDev (.ite hw (.upd hw rfl)))
theorem NextWf.execBootInitDone {pllOk stacksOk wingsOk} (hw : WordsWf s.dev) : NextWf (execBootInitDone pllOk stacksOk wingsOk s) :=
  .next (.onDev (.ite hw (.ite (.bootFail hw) (.ite (.bootFail (.bootFence (.trainFail (.lockBits hw)))) (.takeProfile (.bootTime (.set (.bootFence
    (.trainFail (.lockBits hw))))))))))
theorem NextWf.execPowerTargetWrite {t} (hw : WordsWf s.dev) : NextWf (execPowerTargetWrite t s) := .next (.onDev (.ite (.powerTarget hw) hw))
theorem NextWf.execPowerMoveDone (hw : WordsWf s.dev) : NextWf (execPowerMoveDone s) :=
  .next (.iteDev (.iteDev (.onPlan hw .moveDone) (.onPlan hw .moveDone)) hw)
theorem NextWf.execThrottle {q temp} (hw : WordsWf s.dev) : NextWf (execThrottle q temp s) :=
  .next (.onDev (.ite hw (.ite (.set hw) (.junctionHot (.thermOn (.set hw))))))
theorem NextWf.execThrottleRelease (hw : WordsWf s.dev) : NextWf (execThrottleRelease s) := .next (.onDev (.ite (.upd hw rfl) hw))
theorem NextWf.execJunction125c {q} (hw : WordsWf s.dev) : NextWf (execJunction125c q s) := by
  unfold Machine.execJunction125c
  refine .next (.onDev (.ite hw ?_))
  extract_lets d1 d2 d3 d4 d5
  have h3 : WordsWf d3 := .foldl .zeroCluster (.set (.alarm (.thermOn (.set hw))))
  have h4 : WordsWf d4 := .fenceQuarter h3
  clear_value d4
  exact .set (.upd h4 rfl)
theorem NextWf.execPllLockLoss {dom} (hw : WordsWf s.dev) : NextWf (execPllLockLoss dom s) := by
  unfold Machine.execPllLockLoss
  dsimp only
  exact .next (.onDev (.ite hw (by split; exacts [.fenceQuarter (.alarm (.bump (.set hw))), .alarm (.bump (.set hw))])))
theorem NextWf.execTourEngineReset {unit} (hw : WordsWf s.dev) : NextWf (execTourEngineReset unit s) := .next (.onDev (.tourBlk hw))
theorem NextWf.execCodecStagingReset {unit} (hw : WordsWf s.dev) : NextWf (execCodecStagingReset unit s) := .next (.onDev (.codecBlk hw))
theorem NextWf.execCipherClusterReset {unit} (hw : WordsWf s.dev) : NextWf (execCipherClusterReset unit s) := .next (.onDev (.cipherBlk hw))
theorem NextWf.execKwaveEngineReset {unit} (hw : WordsWf s.dev) : NextWf (execKwaveEngineReset unit s) := .next (.onDev (.kwaveBlk hw))
theorem NextWf.execFabricPortReset {unit} (hw : WordsWf s.dev) : NextWf (execFabricPortReset unit s) := .next (.onDev (.fabricBlk hw))
theorem NextWf.execCourierChannelReset {unit} (hw : WordsWf s.dev) : NextWf (execCourierChannelReset unit s) := .next (.onDev (.courierBlk hw))
theorem NextWf.execBlockResetDone (hw : WordsWf s.dev) : NextWf (execBlockResetDone s) := .next (.onDev (.set hw))
theorem NextWf.execVersion (hw : WordsWf s.dev) : NextWf (execVersion s) := .next (.onDev (.mbxCmd hw (fun h' => h')))
theorem NextWf.execFlashWrite {arg vit cur otherGood} (hw : WordsWf s.dev) : NextWf (execFlashWrite arg vit cur otherGood s) :=
  .next (.onDev (.mbxCmd hw (fun h' => h')))
theorem NextWf.execCalRead {arg} (hw : WordsWf s.dev) : NextWf (execCalRead arg s) := .next (.onDev (.mbxCmd hw (fun h' => h')))
theorem NextWf.execLogRead {arg} (hw : WordsWf s.dev) : NextWf (execLogRead arg s) := .next (.onDev (.mbxCmd hw .usedFree))
theorem NextWf.execMailboxComplete (hw : WordsWf s.dev) : NextWf (execMailboxComplete s) := by
  unfold Machine.execMailboxComplete
  exact .next (.onDev (by split; exacts [.ite (.mbxEnd hw) (.ite (.mbxFinish hw) hw), hw]))
theorem NextWf.execHeartbeat (hw : WordsWf s.dev) : NextWf (execHeartbeat s) := .next (.onDev (.ite (.set hw) hw))
theorem NextWf.execCuratorFirmwareStop (hw : WordsWf s.dev) : NextWf (execCuratorFirmwareStop s) :=
  .next (.onDev (.ite (.set (.foldl (fun h' => .setWord (.usedFree h')) hw)) hw))

/-! ### Health -/

namespace WordsWf

theorem alertRefresh (hw : WordsWf d) : WordsWf d.alertRefresh := .ite hw (.upd hw rfl)
theorem alarmWrite {w m} (hw : WordsWf d) : WordsWf (alarmWrite w d m).1 := by
  unfold Machine.alarmWrite
  extract_lets r d1 size wr
  have h1 : WordsWf d1 := .upd hw rfl
  exact .iteFst (.pair (.ite (.upd (.bump h1) rfl) (.bump h1))) (.iteFst (.pair (.bump h1)) (.pair (.alertRefresh (.sendMsix (.set h1)))))
theorem peerTimeLost {p} (hw : WordsWf d) : WordsWf (d.peerTimeLost p) := .foldl (fun h' => .ite (.sourceLost h') h') hw
theorem peerLost {p why} (hw : WordsWf d) : WordsWf (d.peerLost p why) := by
  unfold Dev.peerLost
  extract_lets site d1 x d2 d3 d4 d5 d6 d7
  have h2 : WordsWf d2 := .setPeer (.alarm (.bump (.set hw)))
  have h3 : WordsWf d3 := .foldl .failCtx h2
  have h4 : WordsWf d4 := .foldl .collFail h3
  have h5 : WordsWf d5 := .deltaPeerLost (.pubPeerLost h4)
  have h6 : WordsWf d6 := .sealTimed (.set (.set h5))
  clear_value d6
  have h7 : WordsWf d7 := .upd h6 rfl
  exact .peerTimeLost h7
theorem peerCmd {p op ext g} (hw : WordsWf d) (hg : ∀ {a : Dev}, WordsWf a → WordsWf (g a).1) : WordsWf (d.peerCmd p op ext g) :=
  .ite (.set (hg (.set (.set (.set hw))))) hw
theorem vouchPeer {p ext} (hw : WordsWf d) : WordsWf (d.vouchPeer p ext).1 :=
  .iteFst (.pair hw) (.iteFst (.pair hw) (.iteFst (.pair (.peerLost hw)) (.pair (.setPeer hw))))
theorem condemnPeer {p} (hw : WordsWf d) : WordsWf (d.condemnPeer p).1 := by
  unfold Dev.condemnPeer
  split; exacts [.pair hw, .pair hw, .pair (.peerLost hw)]
theorem setMarginX {i x} (hw : WordsWf d) : WordsWf (d.setMarginX i x) := .upd hw rfl
theorem railMove {r n} (hw : WordsWf d) : WordsWf (d.railMove r n) :=
  .ite hw (.ite (.upd (.foldl .emit (.usedFree hw)) rfl) (.upd (.foldl .emit (.usedFree hw)) rfl))
theorem railAdapt {u mean} (hw : WordsWf d) : WordsWf (d.railAdapt u mean) :=
  .ite hw (.ite (.railMove (.setMarginX hw)) (.ite (.ite (.setMarginX hw) (.railMove (.setMarginX hw))) (.setMarginX hw)))

end WordsWf

theorem NextWf.execAlarmWindowClose {k} (hw : WordsWf s.dev) : NextWf (execAlarmWindowClose k s) := by
  unfold Machine.execAlarmWindowClose
  refine .next (.onBoth ?_)
  split
  · exact .iteFst (.alarmWrite (.upd hw rfl)) (.pair hw)
  · split; exacts [.iteFst (.alarmWrite (.upd hw rfl)) (.pair hw), .pair hw]
theorem NextWf.execPeerSuspect {p} (hw : WordsWf s.dev) : NextWf (execPeerSuspect p s) :=
  .next (.onPlan hw (fun h' => .ite (.peerTimeLost (.alarm (.set h'))) h'))
theorem NextWf.execPeerLeaseExpiry {p} (hw : WordsWf s.dev) : NextWf (execPeerLeaseExpiry p s) :=
  .next (.onPlan hw (fun h' => .ite (.peerLost h') h'))
theorem NextWf.execVouch {p extMs} (hw : WordsWf s.dev) : NextWf (execVouch p extMs s) := .next (.onPlan hw (fun h' => .peerCmd h' .vouchPeer))
theorem NextWf.execCondemn {p} (hw : WordsWf s.dev) : NextWf (execCondemn p s) := .next (.onPlan hw (fun h' => .peerCmd h' .condemnPeer))
theorem NextWf.execNoteReceive {m tagOk} (hw : WordsWf s.dev) : NextWf (execNoteReceive m tagOk s) := by
  unfold Machine.execNoteReceive
  dsimp only
  exact .next (.onPlan hw (fun h' => (by split; exacts [.ite (.identBad h') h', .ite h' (.ite (.identBad h') (.iteOf (.foldl (fun h'' => .ite
      (.bump h'') (by split; exacts [.alarm h'', h''])) (.contact h')) .peerLost))])))
theorem NextWf.execMarginSample {k u v} (hw : WordsWf s.dev) : NextWf (execMarginSample k u v s) :=
  .next (.onDev (.ite hw (.iteElse (.set (.setS (.setS (.setMarginX hw)))) .alarm)))
theorem NextWf.execTrendFit {k u mean} (hw : WordsWf s.dev) : NextWf (execTrendFit k u mean s) :=
  .next (.onDev (.ite hw (.iteOf (.iteOf (.set (.setMarginX hw)) .alarm) .railAdapt)))
theorem NextWf.execHealthMdataRead (hw : WordsWf s.dev) : NextWf (execHealthMdataRead s) :=
  .next (.onDev (.ite (.emit hw) (.ite (.emit (.set hw)) (.ite (.emit hw) (.setMarginX (.set (.emit hw)))))))
theorem NextWf.execWingFault {w} (hw : WordsWf s.dev) : NextWf (execWingFault w s) := .next (.onDev (.ite (.fenceQuarter hw) hw))
theorem NextWf.execEicFault {e} (hw : WordsWf s.dev) : NextWf (execEicFault e s) :=
  .next (.onDev (.ite (.darkEngine (.planeLost (.upd hw rfl))) hw))

/-! ### Register writes -/

namespace WordsWf

theorem plainWrite {r i l v} (hw : WordsWf d) : WordsWf (d.plainWrite r i l v) := .writeReg hw
theorem deltaWrite {n l v} (hw : WordsWf d) : WordsWf (d.deltaWrite n l v) := .ite hw (.ite (.deltaRelease hw) (.set hw))
theorem tblWrite {t n w l v} (hw : WordsWf d) : WordsWf (d.tblWrite t n w l v) := by
  unfold Dev.tblWrite
  extract_lets d1 refuse
  have h1 : WordsWf d1 := .writeReg hw
  have hrefuse {x e} : WordsWf (refuse x e) := by
    cases e with
    | none => exact h1
    | some b => exact .set (.set h1)
  refine .ite (.ite (.deltaWrite hw) hw) (.ite h1 ?_)
  split
  · exact .ite (.quarTenant h1) h1
  · exact .ite hrefuse h1
  · exact .ite hrefuse h1
  · exact h1
theorem tblAccess {a} (hw : WordsWf d) : WordsWf (d.tblAccess a) := by
  unfold Dev.tblAccess
  extract_lets t n w bad d1
  have hbad : WordsWf bad := by dsimp only [bad]; split; exacts [.emit (.set hw), .set hw]
  have h1 : WordsWf d1 := by dsimp only [d1]; split; exacts [.emit hw, .tblWrite hw]
  split; exacts [hbad, .ite hbad (.selNext h1)]
theorem rdWrite {wr rd i l v} (hw : WordsWf d) : WordsWf (d.rdWrite wr rd i l v) := .ite (.set hw) hw
theorem healthCtl {r l v} (hw : WordsWf d) : WordsWf (d.healthCtl r l v) := .alertRefresh (.ite (.set (.set (.plainWrite hw))) (.plainWrite hw))
theorem hsCtl {r l v} (hw : WordsWf d) : WordsWf (d.hsCtl r l v) :=
  .ite (.ite (.upd (.plainWrite hw) rfl) (.set (.set (.plainWrite hw)))) (.plainWrite hw)
theorem enableWrite {r x bit l v} (hw : WordsWf d) : WordsWf (d.enableWrite r x bit l v) :=
  .ite (.plainWrite hw) (.upd (.set (.plainWrite hw)) rfl)
theorem carrierRefresh {m} (hw : WordsWf d) : WordsWf (d.carrierRefresh m) :=
  .ite (.regroup (.rebase (.startLo (.startTx (.onKw hw))))) (.rebase (.regroup (.onKw (.set (.darkTx hw)))))
theorem kwCtl {r l v} (hw : WordsWf d) : WordsWf (d.kwCtl r l v) :=
  .ite (.plainWrite hw) (.foldl (fun h' => .ite (.carrierRefresh h') h') (.plainWrite hw))
theorem kwEngCfg {r e l v} (hw : WordsWf d) : WordsWf (d.kwEngCfg r e l v) :=
  .ite (.set hw) (.ite (.heaterWrite (.plainWrite hw)) (.foldl (fun h' => .ite (.carrierRefresh h') h') (.plainWrite hw)))
theorem catCtl {r l v} (hw : WordsWf d) : WordsWf (d.catCtl r l v) :=
  .ite (.plainWrite hw) (.foldl (fun h' => .ite (.rebase (.startTx h')) h') (.plainWrite hw))
theorem lineCtl {r l v} (hw : WordsWf d) : WordsWf (d.lineCtl r l v) := .ite (.plainWrite hw) (.foldl .regroupEngine (.plainWrite hw))
theorem fportCfg {r p l v} (hw : WordsWf d) : WordsWf (d.fportCfg r p l v) := .ite (.set hw) (.ite (.plainWrite hw) (.set (.plainWrite hw)))
theorem ftenWrite {l v} (hw : WordsWf d) : WordsWf (d.ftenWrite l v) :=
  .ite (.set hw) (.selNext (.releaseReads (.ite (.set hw) (.iteOf (.writeFields (.ite (.setMeter hw) hw)) .setMeter))))
theorem pwrWrite {r l v} (hw : WordsWf d) : WordsWf (d.pwrWrite r l v) :=
  .iteElse (.foldl .junctionHot (.iteOf (.set (.plainWrite hw)) .thermOn)) .powerTarget
theorem blkWrite {r l v} (hw : WordsWf d) : WordsWf (d.blkWrite r l v) := by
  unfold Dev.blkWrite
  dsimp only
  refine .ite hw (.ite (.plainWrite hw) ?_)
  split
  · exact .tourBlk (.plainWrite hw)
  · exact .codecBlk (.plainWrite hw)
  · exact .cipherBlk (.plainWrite hw)
  · exact .kwaveBlk (.plainWrite hw)
  · exact .fabricBlk (.plainWrite hw)
  · exact .courierBlk (.plainWrite hw)
  · exact .blkReset (.plainWrite hw) (fun h' => h')
theorem drawFree {g} (hw : WordsWf s.dev) (hg : ∀ {x1 t}, WordsWf t.dev → WordsWf (g x1 t).dev) : WordsWf (s.drawFree g).dev :=
  hg (.onDev (.usedFree hw))
theorem afterRes {r} (hr : NextWf r) (hw : WordsWf s.dev) : WordsWf (s.afterRes r).dev := by
  cases r with
  | next t => exact hr t rfl
  | fault => exact hw
  | refused => exact hw
theorem mbxGo (hw : WordsWf d) : WordsWf d.mbxGo := by
  unfold Dev.mbxGo
  extract_lets arg
  split
  · exact .mbxCmd hw (fun h' => h')
  · exact .mbxCmd hw (fun h' => .usedFree (.usedFree h'))
  · exact .mbxCmd hw (fun h' => h')
  · exact .mbxCmd hw .usedFree
  · exact .ite (.mbxEnd hw) (.mbxCmd hw (fun h' => h'))
theorem mbxWrite {r l v} (hw : WordsWf d) : WordsWf (d.mbxWrite r l v) := .ite hw (.ite (.plainWrite hw) (.mbxGo (.plainWrite hw)))
theorem peerGo (hw : WordsWf d) : WordsWf d.peerGo := by
  unfold Dev.peerGo
  dsimp only
  exact .set (by split; exacts [.vouchPeer hw, .condemnPeer hw, .pair hw])
theorem vtGo (hw : WordsWf s.dev) : WordsWf (vtGo s).dev := by
  unfold Machine.vtGo
  extract_lets arg
  split
  · exact .afterRes (.execCommitSvn hw) hw
  · exact .afterRes (.execOpkeyProgram hw) hw
  · exact .drawFree hw (fun h' => .afterRes (.execCredInstall h') h')
  · exact .afterRes (.execAttest hw) hw
  · exact .afterRes (.execSealPeer hw) hw
  · exact .afterRes (.execDbgChallenge hw) hw
  · exact .drawFree hw (fun h' => .afterRes (.execDbgUnlock h') h')
  · exact .afterRes (.execDbgLock hw) hw
  · exact .afterRes (.execRehash hw) hw
  · exact .drawFree hw (fun h' => .afterRes (.execRma h') h')
  · exact .drawFree hw (fun h' => .afterRes (.execSelftest h') h')
  · exact .onDev (.vtRefuse hw)
theorem timeCtl {r l v} (hw : WordsWf d) : WordsWf (d.timeCtl r l v) :=
  .iteElse (.trustBoth (.set (.plainWrite hw))) (fun h' => .trustBoth (.steerWrite h'))
theorem courierCtl {c l v} (hw : WordsWf s.dev) : WordsWf (courierCtl c l v s).dev := by
  unfold Machine.courierCtl
  extract_lets go arm abort
  have hgo {t} (h : WordsWf t.dev) : WordsWf (go t).dev := .iteDev (.afterRes (.execCourierGo h) h) h
  have harm {t} (h : WordsWf t.dev) : WordsWf (arm t).dev := .iteDev (.afterRes (.execCourierArm h) h) h
  have habort {t} (h : WordsWf t.dev) : WordsWf (abort t).dev :=
    .iteDev (.drawFree h (fun h' => .afterRes (.execCourierAbort h') h')) h
  exact habort (harm (hgo hw))
theorem regWriteA {r i l v} (hw : WordsWf s.dev) : WordsWf (regWriteA r i l v s).dev := by
  unfold Machine.regWriteA
  extract_lets b dev
  refine .iteDev (.onDev (.enableWrite hw)) ?_
  refine .iteDev (.onDev (.tblAccess hw)) ?_
  refine .iteDev (.onDev (.mbxWrite hw)) ?_
  refine .iteDev (.iteOfDev (.onDev (.plainWrite hw)) (fun h' => .onDev (.dlStart h'))) ?_
  refine .iteDev (.onPlan hw .timeCtl) ?_
  refine .iteDev (.onPlan hw (fun h' => .iteOf (.plainWrite h') .timeAdj)) ?_
  refine .iteDev (.onDev (.trustBoth (.plainWrite hw))) ?_
  refine .iteDev (.onPlan hw .domCfgWrite) ?_
  refine .iteDev (.onDev (.ite (.itinCancel hw) hw)) ?_
  refine .iteDev (.onDev (.iteOf (.plainWrite hw) .wakeRequest)) ?_
  refine .iteDev (.onDev (.catCtl hw)) ?_
  refine .iteDev (.onDev (.ite (.catCancel hw) hw)) ?_
  refine .iteDev (.afterRes (.execTourCtlWrite hw) hw) ?_
  refine .iteDev (.onDev (.rdWrite hw)) ?_
  refine .iteDev (.afterRes (.execTourTsDataAccess hw) hw) ?_
  refine .iteDev (.afterRes (.execCodecSlotDataAccess hw) hw) ?_
  refine .iteDev (.afterRes (.execCodecStage hw) hw) ?_
  refine .iteDev (.afterRes (.execCodecBuild hw) hw) ?_
  refine .iteDev (.onDev (.enableWrite hw)) ?_
  refine .iteDev (.onDev (.streamCmd hw)) ?_
  refine .iteDev (.onDev (.set hw)) ?_
  refine .iteDev (.onDev (.poolWrite hw)) ?_
  exact .iteDev (.onDev (.writeFields hw)) (.onDev (.plainWrite hw))
theorem regWriteB {r i l v} (hw : WordsWf s.dev) : WordsWf (regWriteB r i l v s).dev := by
  unfold Machine.regWriteB
  extract_lets b dev s1
  have h1 : WordsWf s1.dev := .onDev (.plainWrite hw)
  refine .iteDev (.onDev (.sqCtlWrite hw)) ?_
  refine .iteDev (.iteDev (.afterRes (.execSqAbort hw) hw) hw) ?_
  refine .iteDev (.onDev (.cqCtlWrite hw)) ?_
  refine .iteDev (.onDev (.enableWrite hw)) ?_
  refine .iteDev (.onDev (.ftenWrite hw)) ?_
  refine .iteDev (.onDev (.hsCtl hw)) ?_
  refine .iteDev (.onDev (.rdWrite hw)) ?_
  refine .iteDev (.onDev (.fportCfg hw)) ?_
  refine .iteDev (.onDev (.lineCtl hw)) ?_
  refine .iteDev (.onDev (.kwCtl hw)) ?_
  refine .iteDev (.onDev (.iteOf (.plainWrite hw) .pathClear)) ?_
  refine .iteDev (.onDev (.kwEngCfg hw)) ?_
  refine .iteDev (.onDev (.carCfgWrite hw)) ?_
  refine .iteDev (.onDev (.vtTenWrite hw)) ?_
  refine .iteDev (.iteDev (.vtGo h1) h1) ?_
  refine .iteDev (.iteDev hw (.iteDev h1 ?_)) ?_
  · split; exacts [.afterRes (.execPowerGate h1) h1, .afterRes (.execPowerUngate h1) h1, .onDev (.pwrDone h1)]
  refine .iteDev (.onDev (.healthCtl hw)) ?_
  refine .iteDev (.onDev (.alertRefresh (.rdWrite hw))) ?_
  refine .iteDev (.onPlan hw (fun h' => .iteOf (.plainWrite h') .peerGo)) ?_
  refine .iteDev (.courierCtl hw) ?_
  refine .iteDev (.onDev (.ite (.set hw) (.plainWrite hw))) ?_
  refine .iteDev (.onDev (.pwrWrite hw)) ?_
  exact .iteDev (.onDev (.blkWrite hw)) (.onDev (.plainWrite hw))
theorem writeAt {key l v} (hw : WordsWf s.dev) : WordsWf (writeAt key l v s).dev := by
  unfold Machine.writeAt
  split; exacts [hw, .iteDev hw (by split; exacts [.onDev (.set hw), .iteDev (.regWriteA hw) (.regWriteB hw)])]

end WordsWf

theorem NextWf.execGlobalTblDataAccess {a} (hw : WordsWf s.dev) : NextWf (execGlobalTblDataAccess a s) := by
  unfold Machine.execGlobalTblDataAccess
  exact .next (.onDev (.ite (.tblAccess hw) (by split; exacts [.emit hw, hw])))
theorem NextWf.execRegisterWrite {off size d} (hw : WordsWf s.dev) : NextWf (execRegisterWrite off size d s) := by
  unfold Machine.execRegisterWrite
  exact .next (by split; exacts [hw, .onDev (.shadowsFrom (.writeAt hw))])

/-! ### Every command and every step -/

theorem NextWf.exec {c} (hw : WordsWf s.dev) : NextWf (exec c s) := by
  cases c with
  | registerWrite => exact .execRegisterWrite hw
  | globalTblDataAccess => exact .execGlobalTblDataAccess hw
  | ringDoorbell => exact .execRingDoorbell hw
  | queueDoorbell => exact .execQueueDoorbell hw
  | descriptorFetch => exact .execDescriptorFetch hw
  | fetchFailed => exact .execFetchFailed hw
  | abortRecordWrite => exact .execAbortRecordWrite hw
  | sqCtlWrite => exact .execSqCtlWrite hw
  | sqAbort => exact .execSqAbort hw
  | cqCtlWrite => exact .execCqCtlWrite hw
  | nop => exact .execNop hw
  | put => exact .execPut hw
  | get => exact .execGet hw
  | putReduce => exact .execPutReduce hw
  | atomic => exact .execAtomic hw
  | signal => exact .execSignal hw
  | fence => exact .execFence hw
  | fenceRelease => exact .execFenceRelease hw
  | deltaPut => exact .execDeltaPut hw
  | allReduce => exact .execAllReduce hw
  | reduceScatter => exact .execReduceScatter hw
  | allGather => exact .execAllGather hw
  | broadcast => exact .execBroadcast hw
  | tablePublishCodec => exact .execTablePublishCodec hw
  | tablePublishCatalogue => exact .execTablePublishCatalogue hw
  | tablePublishPage => exact .execTablePublishPage hw
  | completionRecordWrite => exact .execCompletionRecordWrite hw
  | coalescingTimer => exact .execCoalescingTimer hw
  | fadd64 => exact .execFadd64 hw
  | cas64 => exact .execCas64 hw
  | swap64 => exact .execSwap64 hw
  | fmin64 => exact .execFmin64 hw
  | fmax64 => exact .execFmax64 hw
  | signalTakeEffect => exact .execSignalTakeEffect hw
  | courierGo => exact .execCourierGo hw
  | courierArm => exact .execCourierArm hw
  | courierAbort => exact .execCourierAbort hw
  | courierTransferEnd => exact .execCourierTransferEnd hw
  | courierMemoryError => exact .execCourierMemoryError hw
  | tourCtlWrite => exact .execTourCtlWrite hw
  | tourProvIdxWrite => exact .execTourProvIdxWrite hw
  | partialCombine => exact .execPartialCombine hw
  | tourTsDataAccess => exact .execTourTsDataAccess hw
  | collectiveAdmit => exact .execCollectiveAdmit hw
  | collectiveStart => exact .execCollectiveStart hw
  | collEndReceive => exact .execCollEndReceive hw
  | collectiveComplete => exact .execCollectiveComplete hw
  | raceCopy => exact .execRaceCopy hw
  | segmentCut => exact .execSegmentCut hw
  | blockDecode => exact .execBlockDecode hw
  | codecSlotDataAccess => exact .execCodecSlotDataAccess hw
  | codecStage => exact .execCodecStage hw
  | stagingComplete => exact .execStagingComplete hw
  | codecBuild => exact .execCodecBuild hw
  | codecBuildDone => exact .execCodecBuildDone hw
  | pubReserveReceive => exact .execPubReserveReceive hw
  | pubAnswerReceive => exact .execPubAnswerReceive hw
  | pubCommitReceive => exact .execPubCommitReceive hw
  | pubAbortReceive => exact .execPubAbortReceive hw
  | pubCommitAckReceive => exact .execPubCommitAckReceive hw
  | codecInstall => exact .execCodecInstall hw
  | codecActivate => exact .execCodecActivate hw
  | reserveDiscard => exact .execReserveDiscard hw
  | deltaReleaseReceive => exact .execDeltaReleaseReceive hw
  | deltaReleaseAckReceive => exact .execDeltaReleaseAckReceive hw
  | streamOpen => exact .execStreamOpen hw
  | streamClose => exact .execStreamClose hw
  | streamAbort => exact .execStreamAbort hw
  | accedeReceive => exact .execAccedeReceive hw
  | acceptReceive => exact .execAcceptReceive hw
  | refuseReceive => exact .execRefuseReceive hw
  | deaccedeReceive => exact .execDeaccedeReceive hw
  | deaccedeAckReceive => exact .execDeaccedeAckReceive hw
  | accessionTimeout => exact .execAccessionTimeout hw
  | accedeHoldExpiry => exact .execAccedeHoldExpiry hw
  | idleClose => exact .execIdleClose hw
  | drainComplete => exact .execDrainComplete hw
  | segmentReceive => exact .execSegmentReceive hw
  | receiptTimer => exact .execReceiptTimer hw
  | receiptReceive => exact .execReceiptReceive hw
  | retransmissionTimeout => exact .execRetransmissionTimeout hw
  | stackFailure => exact .execStackFailure hw
  | annexRelocate => exact .execAnnexRelocate hw
  | resilverComplete => exact .execResilverComplete hw
  | quarterContextEnd => exact .execQuarterContextEnd hw
  | bufferReturn => exact .execBufferReturn hw
  | poolEnable => exact .execPoolEnable hw
  | servoSample => exact .execServoSample hw
  | sourceLost => exact .execSourceLost hw
  | ptpMessageReceive => exact .execPtpMessageReceive hw
  | ptpSyncSend => exact .execPtpSyncSend hw
  | ptpRelay => exact .execPtpRelay hw
  | timeAdjStep => exact .execTimeAdjStep hw
  | timeAdjSlew => exact .execTimeAdjSlew hw
  | timeAdjSet => exact .execTimeAdjSet hw
  | steerWrite => exact .execSteerWrite hw
  | domainEnable => exact .execDomainEnable hw
  | timeNowRead => exact .execTimeNowRead hw
  | ppsOutPulse => exact .execPpsOutPulse hw
  | todOutSend => exact .execTodOutSend hw
  | ppsInEdge => exact .execPpsInEdge hw
  | todInMessage => exact .execTodInMessage hw
  | todInTimeout => exact .execTodInTimeout hw
  | leapEvent => exact .execLeapEvent hw
  | markReceive => exact .execMarkReceive hw
  | echoReceive => exact .execEchoReceive hw
  | anchorVisit => exact .execAnchorVisit hw
  | itineraryNop => exact .execItineraryNop hw
  | retune => exact .execRetune hw
  | windowOpen => exact .execWindowOpen hw
  | windowClose => exact .execWindowClose hw
  | park => exact .execPark hw
  | wake => exact .execWake hw
  | phaseStart => exact .execPhaseStart hw
  | heaterFf => exact .execHeaterFf hw
  | heaterPulseEnd => exact .execHeaterPulseEnd hw
  | guardEnd => exact .execGuardEnd hw
  | fineLock => exact .execFineLock hw
  | receiverRelock => exact .execReceiverRelock hw
  | coldAcquisition => exact .execColdAcquisition hw
  | parkCancelReceive => exact .execParkCancelReceive hw
  | wakeRequest => exact .execWakeRequest hw
  | wakeSlot => exact .execWakeSlot hw
  | wakeCheckExpiry => exact .execWakeCheckExpiry hw
  | returnReceive => exact .execReturnReceive hw
  | returnAckReceive => exact .execReturnAckReceive hw
  | carrierRejoin => exact .execCarrierRejoin hw
  | relockAttempt => exact .execRelockAttempt hw
  | announceReceive => exact .execAnnounceReceive hw
  | cancelReceive => exact .execCancelReceive hw
  | commitPoint => exact .execCommitPoint hw
  | pageActivate => exact .execPageActivate hw
  | catalogueActivate => exact .execCatalogueActivate hw
  | itinCancel => exact .execItinCancel hw
  | catCancel => exact .execCatCancel hw
  | cepHoldEnd => exact .execCepHoldEnd hw
  | itinPageDataRead => exact .execItinPageDataRead hw
  | catDataRead => exact .execCatDataRead hw
  | connectorChange => exact .execConnectorChange hw
  | connectorSettle => exact .execConnectorSettle hw
  | fibreLos => exact .execFibreLos hw
  | picTempDeviation => exact .execPicTempDeviation hw
  | pathReportReceive => exact .execPathReportReceive hw
  | monitorSample => exact .execMonitorSample hw
  | pathClear => exact .execPathClear hw
  | pathClearAll => exact .execPathClearAll hw
  | carrierCfgWrite => exact .execCarrierCfgWrite hw
  | receiverLockLoss => exact .execReceiverLockLoss hw
  | frameTransmit => exact .execFrameTransmit hw
  | frameReceive => exact .execFrameReceive hw
  | carrierOutReceive => exact .execCarrierOutReceive hw
  | pmSecond => exact .execPmSecond hw
  | initReceive => exact .execInitReceive hw
  | replyReceive => exact .execReplyReceive hw
  | finishReceive => exact .execFinishReceive hw
  | doneReceive => exact .execDoneReceive hw
  | alertReceive => exact .execAlertReceive hw
  | sealReassemblyTimeout => exact .execSealReassemblyTimeout hw
  | sealRetry => exact .execSealRetry hw
  | commitSvn => exact .execCommitSvn hw
  | opkeyProgram => exact .execOpkeyProgram hw
  | credInstall => exact .execCredInstall hw
  | attest => exact .execAttest hw
  | sealPeer => exact .execSealPeer hw
  | dbgChallenge => exact .execDbgChallenge hw
  | dbgUnlock => exact .execDbgUnlock hw
  | dbgLock => exact .execDbgLock hw
  | rehash => exact .execRehash hw
  | rma => exact .execRma hw
  | selftest => exact .execSelftest hw
  | load => exact .execLoad hw
  | loadWrapped => exact .execLoadWrapped hw
  | clear => exact .execClear hw
  | setKek => exact .execSetKek hw
  | vtTenWrite => exact .execVtTenWrite hw
  | tamperSensorTrip => exact .execTamperSensorTrip hw
  | trngRecovery => exact .execTrngRecovery hw
  | powerGate => exact .execPowerGate hw
  | powerUngate => exact .execPowerUngate hw
  | gateDeferEnd => exact .execGateDeferEnd hw
  | clusterPowerLoss => exact .execClusterPowerLoss hw
  | lrmReadResp => exact .execLrmReadResp hw
  | lrmWriteAck => exact .execLrmWriteAck hw
  | lrmDoorbell => exact .execLrmDoorbell hw
  | lrmCnp => exact .execLrmCnp hw
  | lrmNak => exact .execLrmNak hw
  | lrmRetryTimeout => exact .execLrmRetryTimeout hw
  | portStateChange => exact .execPortStateChange hw
  | rateIncrease => exact .execRateIncrease hw
  | schedulingSelection => exact .execSchedulingSelection hw
  | queueSample => exact .execQueueSample hw
  | fabQsDataRead => exact .execFabQsDataRead hw
  | flitInject => exact .execFlitInject hw
  | flitArrive => exact .execFlitArrive hw
  | skewCheck => exact .execSkewCheck hw
  | powerOn => exact .execPowerOn hw
  | powerRailFault => exact .execPowerRailFault hw
  | resetNAssert => exact .execResetNAssert hw
  | resetRelease => exact .execResetRelease hw
  | cfgSenseConversion => exact .execCfgSenseConversion hw
  | bootSelftestDone => exact .execBootSelftestDone hw
  | imageCheck => exact .execImageCheck hw
  | bootInitDone => exact .execBootInitDone hw
  | pcieConfigReady => exact .execPcieConfigReady hw
  | hostDownload => exact .execHostDownload hw
  | downloadTimeout => exact .execDownloadTimeout hw
  | powerTargetWrite => exact .execPowerTargetWrite hw
  | powerMoveDone => exact .execPowerMoveDone hw
  | throttle => exact .execThrottle hw
  | junction125c => exact .execJunction125c hw
  | pllLockLoss => exact .execPllLockLoss hw
  | tourEngineReset => exact .execTourEngineReset hw
  | codecStagingReset => exact .execCodecStagingReset hw
  | cipherClusterReset => exact .execCipherClusterReset hw
  | kwaveEngineReset => exact .execKwaveEngineReset hw
  | fabricPortReset => exact .execFabricPortReset hw
  | courierChannelReset => exact .execCourierChannelReset hw
  | blockResetDone => exact .execBlockResetDone hw
  | version => exact .execVersion hw
  | flashWrite => exact .execFlashWrite hw
  | calRead => exact .execCalRead hw
  | logRead => exact .execLogRead hw
  | mailboxComplete => exact .execMailboxComplete hw
  | heartbeat => exact .execHeartbeat hw
  | alarmWindowClose => exact .execAlarmWindowClose hw
  | peerSuspect => exact .execPeerSuspect hw
  | peerLeaseExpiry => exact .execPeerLeaseExpiry hw
  | vouch => exact .execVouch hw
  | condemn => exact .execCondemn hw
  | noteReceive => exact .execNoteReceive hw
  | marginSample => exact .execMarginSample hw
  | trendFit => exact .execTrendFit hw
  | healthMdataRead => exact .execHealthMdataRead hw
  | transmitterLockLoss => exact .execTransmitterLockLoss hw
  | wingFault => exact .execWingFault hw
  | eicFault => exact .execEicFault hw
  | curatorFirmwareStop => exact .execCuratorFirmwareStop hw
  | holdoverTrustLoss => exact .execHoldoverTrustLoss hw
  | ppsInMissing => exact .execPpsInMissing hw
  | referenceLost => exact .execReferenceLost hw
  | throttleRelease => exact .execThrottleRelease hw
  | pcieReadCompletion => exact .execPcieReadCompletion hw
  | bpmPoolStatRead => exact .execBpmPoolStatRead hw
  | pinnedChunkWaitExpiry => exact .execPinnedChunkWaitExpiry hw

/-- Every next state of a step keeps the register table in its canonical form. -/
theorem NextWf.step (hw : WordsWf s.dev) : NextWf (step s) := by
  unfold Machine.step
  split
  · exact .next (.onDev (.tick hw))
  · exact .exec hw

/-- Settles O6: of all functions of the model only `setWord` and the resets write the register table, and both keep it canonical. -/
theorem stepKeepsRegistersCanonical : Obligations.StepKeepsRegistersCanonical :=
  fun _ _ hw h => NextWf.step hw _ h

end Sys2Proof.Laws
end

section
/-! What a register write gives each field of the register (R9, R10, R11, R402), and what a BAR0 write of a plain register leaves alone. -/

namespace Sys2Proof.Laws

open Sys2Proof Sys2Proof.Machine

/-! ### The lanes of an access -/

theorem getLsbD_mergeLanes (l : Lanes) (old new : Word) (i : Nat) :
    (mergeLanes l old new).getLsbD i = if (laneMask l).getLsbD i then new.getLsbD i else old.getLsbD i := by
  by_cases hi : i < 64
  · rw [mergeLanes, BitVec.getLsbD_or, BitVec.getLsbD_and, BitVec.getLsbD_and, BitVec.getLsbD_not]
    cases (laneMask l).getLsbD i <;> simp [hi]
  · simp [BitVec.getLsbD_of_ge _ i (not_lt.mp hi)]

theorem getLsbD_laneMask_full (i : Nat) : (laneMask .full).getLsbD i = decide (i < 64) := by
  by_cases hi : i < 64
  · simp only [laneMask, hi, decide_true]; revert i; decide
  · simp [BitVec.getLsbD_of_ge _ i (not_lt.mp hi), hi]

theorem getLsbD_laneMask_lo (i : Nat) : (laneMask .lo).getLsbD i = decide (i < 32) := by
  by_cases hi : i < 64
  · revert i; decide
  · simp [BitVec.getLsbD_of_ge _ i (not_lt.mp hi)]; omega

theorem getLsbD_laneMask_hi (i : Nat) : (laneMask .hi).getLsbD i = (decide (32 ≤ i) && decide (i < 64)) := by
  by_cases hi : i < 64
  · revert i; decide
  · simp [BitVec.getLsbD_of_ge _ i (not_lt.mp hi), hi]

/-- Two words that agree on the bits of a field hold the same value in it. -/
theorem bitsOf_congr {w w' : Word} {lo lo' n : Nat} (h : ∀ i, i < n → w.getLsbD (lo + i) = w'.getLsbD (lo' + i)) :
    bitsOf w lo n = bitsOf w' lo' n := by
  apply Nat.eq_of_testBit_eq
  intro i
  rw [testBit_bitsOf, testBit_bitsOf]
  by_cases hi : i < n
  · rw [h i hi]
  · simp [hi]

@[simp] theorem mergeLanes_full (old new : Word) : mergeLanes .full old new = new := by
  apply BitVec.eq_of_getLsbD_eq
  intro i hi
  rw [getLsbD_mergeLanes, getLsbD_laneMask_full, decide_eq_true hi, if_pos rfl]

@[simp] theorem and_laneMask_full (w : Word) : w &&& laneMask .full = w := by
  apply BitVec.eq_of_getLsbD_eq
  intro i hi
  rw [BitVec.getLsbD_and, getLsbD_laneMask_full, decide_eq_true hi, Bool.and_true]

/-- A field inside the lower half takes the data of an access to that half. -/
theorem bitsOf_mergeLanes_lo {old v : Word} {lo n : Nat} (h : lo + n ≤ 32) :
    bitsOf (mergeLanes .lo old (v &&& 0xFFFFFFFF)) lo n = bitsOf v lo n :=
  bitsOf_congr fun i hi => by
    rw [getLsbD_mergeLanes, getLsbD_laneMask_lo, if_pos (by simp; omega), BitVec.getLsbD_and]
    have : (0xFFFFFFFF : Word).getLsbD (lo + i) = true := (getLsbD_laneMask_lo _).trans (by simp; omega)
    rw [this, Bool.and_true]

/-- A field inside the upper half keeps its value under an access to the lower half. -/
theorem bitsOf_mergeLanes_lo_apart {old new : Word} {lo n : Nat} (h : 32 ≤ lo) : bitsOf (mergeLanes .lo old new) lo n = bitsOf old lo n :=
  bitsOf_congr fun i _ => by rw [getLsbD_mergeLanes, getLsbD_laneMask_lo, if_neg (by simp; omega)]

/-- A field inside the upper half takes the data of an access to that half. -/
theorem bitsOf_mergeLanes_hi {old v : Word} {lo n : Nat} (h : lo + n ≤ 32) :
    bitsOf (mergeLanes .hi old (v <<< 32)) (32 + lo) n = bitsOf v lo n :=
  bitsOf_congr fun i hi => by
    have h64 : 32 + lo + i < 64 := by omega
    rw [getLsbD_mergeLanes, getLsbD_laneMask_hi, if_pos (by simp; omega), BitVec.getLsbD_shiftLeft]
    simp [h64, show ¬ 32 + lo + i < 32 by omega, show 32 + lo + i - 32 = lo + i by omega]

/-- A field inside the lower half keeps its value under an access to the upper half. -/
theorem bitsOf_mergeLanes_hi_apart {old new : Word} {lo n : Nat} (h : lo + n ≤ 32) : bitsOf (mergeLanes .hi old new) lo n = bitsOf old lo n :=
  bitsOf_congr fun i hi => by rw [getLsbD_mergeLanes, getLsbD_laneMask_hi, if_neg (by simp; omega)]

/-! ### Bits that a write leaves alone -/

/-- Fields that take no write, or lie apart from a range of bits, leave the range alone. -/
theorem foldl_writeField_apart {fields : List LField} {dis : Bool} {l : Lanes} {old new : Word} {lo n : Nat}
    (h : ∀ g ∈ fields, g.kind ≠ .ro → g.lo + g.w ≤ lo ∨ lo + n ≤ g.lo) (acc : Word × Bool) :
    bitsOf (fields.foldl (writeField dis l old new) acc).1 lo n = bitsOf acc.1 lo n := by
  induction fields generalizing acc with
  | nil => rfl
  | cons g t ih =>
    rw [List.foldl_cons, ih fun g' hg' => h g' (List.mem_cons_of_mem _ hg')]
    by_cases hk : g.kind = .ro
    · rw [writeField_ro _ _ _ _ _ _ hk]
    · exact writeField_apart _ _ _ _ _ _ _ _ (h g List.mem_cons_self hk)

/-- Settles O10, by the fields of the register in turn. -/
theorem writeKeepsReadOnlyAndReservedBits : Obligations.WriteKeepsReadOnlyAndReservedBits := by
  intro d key dis l v r i lo n hr h
  simp only [Dev.writeFields, hr, word_setWord_same]
  exact foldl_writeField_apart h _

/-- One field that counts nothing, where the word so far holds what the register held in a bit outside the lanes. -/
theorem getLsbD_writeField_uncovered {dis : Bool} {l : Lanes} {old new : Word} {acc : Word × Bool} {g : LField} {i : Nat} (hi : i < 64)
    (hg : g.kind ≠ .cnt) (hl : (laneMask l).getLsbD i = false) (ha : acc.1.getLsbD i = old.getLsbD i) :
    (writeField dis l old new acc g).1.getLsbD i = old.getLsbD i := by
  have taken : (setBits acc.1 g.lo g.w (bitsOf (mergeLanes l old new) g.lo g.w)).getLsbD i = old.getLsbD i := by
    rw [getLsbD_setBits _ _ _ _ _ hi]
    split
    · next h =>
      rw [testBit_bitsOf, getLsbD_mergeLanes, Nat.add_sub_cancel' h.1, hl, decide_eq_true (by omega : i - g.lo < g.w)]
      simp
    · exact ha
  unfold writeField
  cases hk : g.kind with
  | ro => exact ha
  | cmd => exact ha
  | live => exact taken
  | epoch => exact taken
  | static =>
    dsimp only
    split
    · exact ha
    · split
      · exact taken
      · exact ha
  | w1c =>
    dsimp only
    rw [getLsbD_setBits _ _ _ _ _ hi]
    split
    · next h =>
      rw [Nat.testBit_and, testBit_bitsOf, Nat.sub_sub, Nat.add_comm 1, Nat.testBit_two_pow_sub_succ (bitsOf_lt _ _ _), testBit_bitsOf,
        BitVec.getLsbD_and, Nat.add_sub_cancel' h.1, hl, decide_eq_true (by omega : i - g.lo < g.w)]
      simp
    · exact ha
  | cnt => exact absurd hk hg

theorem getLsbD_foldl_writeField_uncovered {fields : List LField} {dis : Bool} {l : Lanes} {old new : Word} {i : Nat} (hi : i < 64)
    (hg : ∀ g ∈ fields, g.kind ≠ .cnt) (hl : (laneMask l).getLsbD i = false) (acc : Word × Bool) (ha : acc.1.getLsbD i = old.getLsbD i) :
    (fields.foldl (writeField dis l old new) acc).1.getLsbD i = old.getLsbD i := by
  induction fields generalizing acc with
  | nil => exact ha
  | cons g t ih =>
    exact ih (fun g' hg' => hg g' (List.mem_cons_of_mem _ hg')) _
      (getLsbD_writeField_uncovered hi (hg g List.mem_cons_self) hl ha)

/-- Settles O9: every field writes back, in the bits outside the lanes, what the register held. -/
theorem halfWordWriteKeepsTheOtherHalf : Obligations.HalfWordWriteKeepsTheOtherHalf := by
  intro fields dis l old new hg
  apply BitVec.eq_of_getLsbD_eq
  intro i hi
  rw [BitVec.getLsbD_and, BitVec.getLsbD_and, BitVec.getLsbD_not]
  cases hl : (laneMask l).getLsbD i with
  | true => simp
  | false => rw [writeWord, getLsbD_foldl_writeField_uncovered hi hg hl (old, false) rfl]

/-! ### What a field reads after a write -/

/-- What a field reads after a write of its register. -/
def fieldAfter (dis : Bool) (l : Lanes) (old new : Word) (g : LField) : Nat :=
  let cur := bitsOf old g.lo g.w
  let v := bitsOf (mergeLanes l old new) g.lo g.w
  match g.kind with
  | .ro | .cmd => cur
  | .live | .epoch => v
  | .static => if dis then v else cur
  | .w1c => cur &&& (2 ^ g.w - 1 - bitsOf (new &&& laneMask l) g.lo g.w)
  | .cnt => if covers l g && bitsOf (new &&& laneMask l) g.lo g.w == 0 then 0 else cur

/-- A write of the register logs BUSY on account of this field. -/
def fieldBusy (dis : Bool) (l : Lanes) (old new : Word) (g : LField) : Bool :=
  g.kind == .static && !dis && bitsOf (mergeLanes l old new) g.lo g.w != bitsOf old g.lo g.w

/-- A field of this class takes the data of a write; `dis` says that its owner is disabled. -/
def takes (dis : Bool) : Kind → Bool
  | .live | .epoch => true
  | .static => dis
  | _ => false

/-- A field of this class keeps its value under any write. -/
def keeps (dis : Bool) : Kind → Bool
  | .ro | .cmd => true
  | .static => !dis
  | _ => false

/-- The fields of a register lie apart, inside the word. -/
def fieldsOk (fields : List LField) : Bool :=
  fields.all (fun g => decide (g.lo + g.w ≤ 64)) &&
    decide (fields.Pairwise (fun g h => g.lo + g.w ≤ h.lo ∨ h.lo + h.w ≤ g.lo))

theorem layout_fieldsOk : ∀ r ∈ layout, fieldsOk r.fields = true := by decide +kernel

theorem mem_of_findReg {t : List LReg} {key : Nat} {r : LReg} {i : Nat} (h : findReg t key = some (r, i)) : r ∈ t := by
  induction t with
  | nil => cases h
  | cons q t ih =>
    unfold findReg at h
    split at h
    · cases h; exact List.mem_cons_self
    · exact List.mem_cons_of_mem _ (ih h)

theorem writeField_self {dis : Bool} {l : Lanes} {old new : Word} {acc : Word × Bool} {g : LField} (h : g.lo + g.w ≤ 64)
    (ha : bitsOf acc.1 g.lo g.w = bitsOf old g.lo g.w) :
    bitsOf (writeField dis l old new acc g).1 g.lo g.w = fieldAfter dis l old new g := by
  have taken (v : Nat) (hv : v < 2 ^ g.w) : bitsOf (setBits acc.1 g.lo g.w v) g.lo g.w = v := by
    rw [bitsOf_setBits_same _ _ _ _ h, Nat.mod_eq_of_lt hv]
  unfold writeField fieldAfter
  cases g.kind with
  | ro => exact ha
  | cmd => exact ha
  | live => exact taken _ (bitsOf_lt _ _ _)
  | epoch => exact taken _ (bitsOf_lt _ _ _)
  | static =>
    dsimp only
    split
    · next e => rw [ha, e, ite_self]
    · split
      · exact taken _ (bitsOf_lt _ _ _)
      · exact ha
  | w1c => exact taken _ (lt_of_le_of_lt Nat.and_le_left (bitsOf_lt _ _ _))
  | cnt =>
    dsimp only
    split
    · exact taken 0 (Nat.two_pow_pos _)
    · exact ha

/-- A field of a register whose fields lie apart, after a write of the register. -/
theorem writeWord_field {fields : List LField} {dis : Bool} {l : Lanes} {old new : Word} {g : LField} (hf : fieldsOk fields = true)
    (hg : g ∈ fields) : bitsOf (writeWord fields dis l old new).1 g.lo g.w = fieldAfter dis l old new g := by
  simp only [fieldsOk, Bool.and_eq_true, List.all_eq_true, decide_eq_true_eq] at hf
  obtain ⟨h64, hp⟩ := hf
  have hlo : g.lo + g.w ≤ 64 := h64 g hg
  obtain ⟨before, after, rfl⟩ := List.append_of_mem hg
  obtain ⟨-, hp', hb⟩ := List.pairwise_append.mp hp
  have ha := (List.pairwise_cons.mp hp').1
  rw [writeWord, List.foldl_append, List.foldl_cons, foldl_writeField_apart fun g' hg' _ => (ha g' hg').symm]
  exact writeField_self hlo (foldl_writeField_apart (fun g' hg' _ => hb g' hg' g List.mem_cons_self) _)

theorem foldl_writeField_busy {fields : List LField} {dis : Bool} {l : Lanes} {old new : Word} (acc : Word × Bool) :
    (fields.foldl (writeField dis l old new) acc).2 = (acc.2 || fields.any (fieldBusy dis l old new)) := by
  have one (acc : Word × Bool) (g : LField) : (writeField dis l old new acc g).2 = (acc.2 || fieldBusy dis l old new g) := by
    unfold writeField fieldBusy
    cases g.kind with
    | static => cases dis <;> dsimp only <;> split <;> simp_all
    | cnt => dsimp only; split <;> simp
    | _ => simp
  induction fields generalizing acc with
  | nil => simp
  | cons g t ih => rw [List.foldl_cons, ih, one, List.any_cons, Bool.or_assoc]

/-- Block `a` is block `d` but for the register words. -/
def SameParts (d a : Dev) : Prop := { a with words := d.words } = d

theorem SameParts.trans {d a b : Dev} (h : SameParts d a) (h' : SameParts a b) : SameParts d b := by
  have e := congrArg (fun c : Dev => { c with words := d.words }) h'
  exact e.trans h

theorem sameParts_refl (d : Dev) : SameParts d d := rfl
theorem sameParts_set (d : Dev) (x : Fld) (i v : Nat) : SameParts d (d.set x i v) := rfl

/-- The field of a row that stands where `x` does. -/
def fieldAt (r : LReg) (x : Fld) : Option LField := r.fields.find? (fun g => g.lo == x.lo && g.w == x.w)

theorem fieldAt_spec {r : LReg} {x : Fld} {g : LField} (h : fieldAt r x = some g) : g ∈ r.fields ∧ g.lo = x.lo ∧ g.w = x.w := by
  have hp := List.find?_some h
  simp only [Bool.and_eq_true, beq_iff_eq] at hp
  exact ⟨List.mem_of_find?_eq_some h, hp⟩

section Registers

variable {d : Dev} {key : Nat} {r : LReg} {i : Nat} {dis : Bool} {l : Lanes} {v : Word}

/-- A field of the register at `key`, the `j`th of its row, after a write of that register. -/
theorem f_writeFields {x : Fld} {j : Nat} {g : LField} (hr : findReg layout key = some (r, i)) (hk : x.key j = key)
    (hg : fieldAt r x = some g) : (d.writeFields key dis l v).1.f x j = fieldAfter dis l (d.word key) v g := by
  obtain ⟨hm, hlo, hw⟩ := fieldAt_spec hg
  simp only [Dev.writeFields, hr, Dev.f, hk, word_setWord_same, ← hlo, ← hw]
  exact writeWord_field (layout_fieldsOk r (mem_of_findReg hr)) hm

/-- A field of a class that takes what is written. -/
theorem f_writeFields_taken {x : Fld} {j : Nat} {g : LField} (hr : findReg layout key = some (r, i)) (hk : x.key j = key)
    (hg : fieldAt r x = some g) (ht : takes dis g.kind = true) :
    (d.writeFields key dis l v).1.f x j = bitsOf (mergeLanes l (d.word key) v) x.lo x.w := by
  obtain ⟨-, hlo, hw⟩ := fieldAt_spec hg
  rw [f_writeFields hr hk hg, fieldAfter, hlo, hw]
  cases hkind : g.kind with
  | live => rfl
  | epoch => rfl
  | static => rw [hkind] at ht; exact if_pos ht
  | _ => rw [hkind] at ht; cases ht

theorem f_writeFields_full {x : Fld} {j : Nat} {g : LField} (hr : findReg layout key = some (r, i)) (hk : x.key j = key)
    (hg : fieldAt r x = some g) (ht : takes dis g.kind = true) : (d.writeFields key dis .full v).1.f x j = bitsOf v x.lo x.w := by
  rw [f_writeFields_taken hr hk hg ht, mergeLanes_full]

/-- A field of a class that keeps its value. -/
theorem f_writeFields_kept {x : Fld} {j : Nat} {g : LField} (hr : findReg layout key = some (r, i)) (hk : x.key j = key)
    (hg : fieldAt r x = some g) (ht : keeps dis g.kind = true) : (d.writeFields key dis l v).1.f x j = d.f x j := by
  obtain ⟨-, hlo, hw⟩ := fieldAt_spec hg
  rw [f_writeFields hr hk hg, Dev.f, hk, fieldAfter, hlo, hw]
  cases hkind : g.kind with
  | ro => rfl
  | cmd => rfl
  | static => rw [hkind] at ht; exact if_neg (by simpa [keeps] using ht)
  | _ => rw [hkind] at ht; cases ht

theorem writeFields_busy (hr : findReg layout key = some (r, i)) :
    (d.writeFields key dis l v).2 = r.fields.any (fieldBusy dis l (d.word key) v) := by
  simp only [Dev.writeFields, hr, writeWord]
  rw [foldl_writeField_busy, Bool.false_or]

theorem word_writeFields_other {k : Nat} (h : k ≠ key) : (d.writeFields key dis l v).1.word k = d.word k := by
  unfold Dev.writeFields
  split
  · rfl
  · exact word_setWord_other d h _

theorem f_writeFields_other {x : Fld} {j : Nat} (h : x.key j ≠ key) : (d.writeFields key dis l v).1.f x j = d.f x j := by
  rw [Dev.f, word_writeFields_other h, Dev.f]

theorem sameParts_writeFields : SameParts d (d.writeFields key dis l v).1 := by
  unfold Dev.writeFields
  split <;> rfl

/-- A disabled owner logs no BUSY. -/
theorem writeReg_disabled {busy : Fld} {n : Nat} : d.writeReg key true l v busy n = (d.writeFields key true l v).1 := by
  have hb : (d.writeFields key true l v).2 = false := by
    cases hr : findReg layout key with
    | none => simp only [Dev.writeFields, hr]
    | some p => rw [writeFields_busy hr, List.any_eq_false]; simp [fieldBusy]
  rw [Dev.writeReg, hb]; rfl

theorem word_writeReg_other {busy : Fld} {n k : Nat} (h : k ≠ key) (hb : k ≠ busy.key n) :
    (d.writeReg key dis l v busy n).word k = d.word k := by
  unfold Dev.writeReg
  dsimp only
  split
  · rw [word_set_other _ _ _ _ hb, word_writeFields_other h]
  · exact word_writeFields_other h

theorem f_writeReg {busy x : Fld} {n j : Nat} (h : x.key j ≠ busy.key n) :
    (d.writeReg key dis l v busy n).f x j = (d.writeFields key dis l v).1.f x j := by
  unfold Dev.writeReg
  dsimp only
  split
  · exact f_set_apart _ _ _ _ _ _ (.inl h)
  · rfl

theorem f_writeReg_other {busy x : Fld} {n j : Nat} (h : x.key j ≠ key) (hb : x.key j ≠ busy.key n) :
    (d.writeReg key dis l v busy n).f x j = d.f x j := by rw [f_writeReg hb, f_writeFields_other h]

theorem sameParts_writeReg {busy : Fld} {n : Nat} : SameParts d (d.writeReg key dis l v busy n) := by
  unfold Dev.writeReg
  dsimp only
  split
  · exact sameParts_writeFields.trans (sameParts_set _ _ _ _)
  · exact sameParts_writeFields

/-- The field that logs BUSY, in another word, after a write of the register. -/
theorem busy_writeReg {busy : Fld} {n : Nat} (hr : findReg layout key = some (r, i)) (hk : busy.key n ≠ key) (hw : busy.w = 1)
    (hlo : busy.lo + busy.w ≤ 64) :
    (d.writeReg key dis l v busy n).f busy n = if r.fields.any (fieldBusy dis l (d.word key) v) then 1 else d.f busy n := by
  unfold Dev.writeReg
  dsimp only
  rw [writeFields_busy hr]
  split
  · rw [f_set_same _ _ _ _ hlo, hw]; rfl
  · exact f_writeFields_other hk

end Registers

end Sys2Proof.Laws
end

section
/-! BAR0 writes (R5, R9, R359) and the shadows of E-class fields (R12). -/

namespace Sys2Proof.Laws

open Sys2Proof Sys2Proof.Machine

/-! ### Shadows of E-class fields -/

/-- One E-class field in `Dev.shadowsFrom`. -/
def shadowStep (old a : Dev) (c : Nat) : Dev :=
  let x := epochFld c
  if old.f x.1 x.2 = a.f x.1 x.2 || a.shadowAt.any (fun e => e.1 == c && e.2.1 == a.now) then a
  else { a with shadowAt := (a.shadowAt.filter (fun e => e.1 != c)) ++ [(c, a.now, old.f x.1 x.2)] }

theorem shadowsFrom_eq (d old : Dev) : d.shadowsFrom old = (List.range 6).foldl (shadowStep old) d := rfl

theorem shadowStep_same {old a : Dev} {c : Nat} (h : a.f (epochFld c).1 (epochFld c).2 = old.f (epochFld c).1 (epochFld c).2) :
    shadowStep old a c = a := by simp [shadowStep, h]

@[simp] theorem word_shadowStep (old a : Dev) (c k : Nat) : (shadowStep old a c).word k = a.word k := by
  unfold shadowStep; dsimp only; split <;> rfl

theorem foldl_shadowStep_same {old : Dev} {l : List Nat} (a : Dev)
    (h : ∀ c ∈ l, a.f (epochFld c).1 (epochFld c).2 = old.f (epochFld c).1 (epochFld c).2) : l.foldl (shadowStep old) a = a := by
  induction l with
  | nil => rfl
  | cons c t ih => rw [List.foldl_cons, shadowStep_same (h c List.mem_cons_self), ih fun c' hc' => h c' (List.mem_cons_of_mem _ hc')]

/-- A write that changes no E-class field leaves no shadow. -/
theorem shadowsFrom_same {d old : Dev} (h : ∀ c < 6, d.f (epochFld c).1 (epochFld c).2 = old.f (epochFld c).1 (epochFld c).2) :
    d.shadowsFrom old = d :=
  foldl_shadowStep_same d fun c hc => h c (List.mem_range.mp hc)

/-- The keys of the registers that hold E-class fields. -/
def epochKeys : List Nat := (List.range 6).map (fun c => (epochFld c).1.key (epochFld c).2)

theorem epochKeys_eq : epochKeys = [0x500000, 0x540000, 0x580000, 0x5C0000, 0x300000, 0xF00018] := rfl

theorem shadowsFrom_frame {d old : Dev} (h : ∀ k ∈ epochKeys, d.word k = old.word k) : d.shadowsFrom old = d :=
  shadowsFrom_same fun c hc => by
    rw [Dev.f, Dev.f, h _ (List.mem_map.mpr ⟨c, List.mem_range.mpr hc, rfl⟩)]

theorem shadowsFrom_self (d : Dev) : d.shadowsFrom d = d := shadowsFrom_same fun _ _ => rfl

@[simp] theorem word_shadowsFrom (d old : Dev) (k : Nat) : (d.shadowsFrom old).word k = d.word k := by
  rw [shadowsFrom_eq]
  generalize List.range 6 = l
  induction l generalizing d with
  | nil => rfl
  | cons c t ih => rw [List.foldl_cons, ih, word_shadowStep]

@[simp] theorem f_shadowsFrom (d old : Dev) (x : Fld) (i : Nat) : (d.shadowsFrom old).f x i = d.f x i := by
  rw [Dev.f, word_shadowsFrom, Dev.f]

theorem shadowStep_frame (old a : Dev) (c : Nat) : { shadowStep old a c with shadowAt := a.shadowAt } = a := by
  unfold shadowStep; dsimp only; split <;> rfl

/-- Shadows are all that `Dev.shadowsFrom` changes. -/
theorem shadowsFrom_parts (d old : Dev) : { d.shadowsFrom old with shadowAt := d.shadowAt } = d := by
  rw [shadowsFrom_eq]
  generalize List.range 6 = l
  induction l generalizing d with
  | nil => rfl
  | cons c t ih =>
    have e := congrArg (fun a : Dev => { a with shadowAt := d.shadowAt }) (ih (shadowStep old d c))
    exact e.trans (shadowStep_frame old d c)

/-- A write that changes one E-class field at most. -/
theorem shadowsFrom_one {d old : Dev} {c : Nat} (hc : c < 6)
    (h : ∀ b < 6, b ≠ c → d.f (epochFld b).1 (epochFld b).2 = old.f (epochFld b).1 (epochFld b).2) : d.shadowsFrom old = shadowStep old d c := by
  obtain ⟨before, after, hl⟩ := List.append_of_mem (List.mem_range.mpr hc)
  have hnd : (before ++ c :: after).Nodup := hl ▸ List.nodup_range
  obtain ⟨-, hca, hba⟩ := List.nodup_append.mp hnd
  have hlt (b : Nat) (hb : b ∈ before ++ c :: after) : b < 6 := List.mem_range.mp (hl ▸ hb)
  have hbefore : before.foldl (shadowStep old) d = d :=
    foldl_shadowStep_same d fun b hb => h b (hlt b (List.mem_append_left _ hb)) (hba b hb c List.mem_cons_self)
  have hafter : after.foldl (shadowStep old) (shadowStep old d c) = shadowStep old d c :=
    foldl_shadowStep_same _ fun b hb => by
      rw [Dev.f, word_shadowStep]
      exact h b (hlt b (List.mem_append_right _ (List.mem_cons_of_mem _ hb))) (fun e => (List.nodup_cons.mp hca).1 (e ▸ hb))
  rw [shadowsFrom_eq, hl, List.foldl_append, hbefore, List.foldl_cons, hafter]

/-- A tick after which no write of an E-class field is pending, a boundary takes the field as it reads. -/
theorem shadow_of_none {d : Dev} {c : Nat} (h : ∀ e ∈ d.shadowAt, ¬ (e.1 = c ∧ e.2.1 = d.now)) : d.shadow c = d.f (epochFld c).1 (epochFld c).2 := by
  have hn : d.shadowAt.find? (fun e => e.1 == c && e.2.1 == d.now) = none := by
    rw [List.find?_eq_none]; intro e he; simpa using h e he
  rw [Dev.shadow, hn]

/-- What a boundary of this tick takes is not changed by a write in this tick (R12). -/
theorem shadow_shadowStep {old a : Dev} {c : Nat} (hn : a.now = old.now) (hs : a.shadowAt = old.shadowAt) :
    (shadowStep old a c).shadow c = old.shadow c := by
  by_cases hp : a.shadowAt.any (fun e => e.1 == c && e.2.1 == a.now) = true
  · have hstep : shadowStep old a c = a := by simp [shadowStep, hp]
    obtain ⟨e, he⟩ := Option.isSome_iff_exists.mp (List.find?_isSome.mpr (List.any_eq_true.mp hp))
    rw [hstep, Dev.shadow, he, Dev.shadow, ← hs, ← hn, he]
  · have hnone : ∀ e ∈ a.shadowAt, ¬ (e.1 = c ∧ e.2.1 = a.now) :=
      fun e he h => hp (List.any_eq_true.mpr ⟨e, he, by simp [h.1, h.2]⟩)
    rw [shadow_of_none (d := old) (by rwa [← hs, ← hn])]
    by_cases hf : old.f (epochFld c).1 (epochFld c).2 = a.f (epochFld c).1 (epochFld c).2
    · have hstep : shadowStep old a c = a := by simp [shadowStep, hf]
      rw [hstep, shadow_of_none hnone, hf]
    · have hstep : shadowStep old a c =
          { a with shadowAt := a.shadowAt.filter (fun e => e.1 != c) ++ [(c, a.now, old.f (epochFld c).1 (epochFld c).2)] } := by
        unfold shadowStep
        rw [if_neg (by simpa [hf] using hp)]
      rw [hstep, Dev.shadow, List.find?_append, List.find?_eq_none.mpr (by simp; tauto)]
      simp

/-- A boundary of the next tick takes the field as it then reads. -/
theorem shadow_next {old a : Dev} {c : Nat} (h : ∀ e ∈ a.shadowAt, e.2.1 ≤ a.now) :
    { shadowStep old a c with now := a.now + 1 }.shadow c = a.f (epochFld c).1 (epochFld c).2 := by
  rw [shadow_of_none]
  · exact congrArg (bitsOf · _ _) (word_shadowStep old a c _)
  · intro e he
    have hle : e.2.1 ≤ a.now := by
      unfold shadowStep at he
      dsimp only at he
      split at he
      · exact h e he
      · simp only [List.mem_append, List.mem_filter, List.mem_singleton] at he
        rcases he with ⟨he, -⟩ | rfl
        · exact h e he
        · exact le_refl _
    dsimp only
    omega

/-! ### REGISTER_WRITE -/

theorem exec_registerWrite (off size : Nat) (v : Word) (s : State) :
    exec (.registerWrite off size v) s =
      .next (match accessOf off size v with
        | none => s
        | some (key, l, w) => (writeAt key l w s).onDev (fun d => d.shadowsFrom s.dev)) := rfl

theorem writeAt_closed {key : Nat} {l : Lanes} {v : Word} {s : State} (h : s.dev.barOpen key = false) : writeAt key l v s = s := by
  unfold writeAt
  split
  · rfl
  · rw [if_pos (by simp [h])]

/-- An access of a whole register that BAR0 does not serve yet starts nothing. -/
theorem accessOf_aligned {off size : Nat} {v : Word} {p : Nat × Lanes × Word} (h : off % 8 = 0) (hp : accessOf off size v = some p) :
    p.1 = off := by
  unfold accessOf at hp
  split at hp
  · cases hp; rfl
  · split at hp
    · cases hp; rfl
    · rw [if_neg (by omega)] at hp; cases hp

theorem accessOf_odd {off size : Nat} {v : Word} (h8 : ¬ (size = 8 ∧ off % 8 = 0)) (h4 : ¬ (size = 4 ∧ off % 4 = 0)) :
    accessOf off size v = none := by
  unfold accessOf
  rw [if_neg h8, if_neg (by omega), if_neg (by omega)]

/-- Settles O7: such an access names no register, or BAR0 does not serve the one it names. -/
theorem registerWritesThatHaveNoEffect : Obligations.RegisterWritesThatHaveNoEffect := by
  refine ⟨fun off size v s h8 h4 => ?_, fun off size v s hb hk h8 => ?_⟩
  · rw [exec_registerWrite, accessOf_odd h8 h4]
  · rw [exec_registerWrite]
    cases hp : accessOf off size v with
    | none => rfl
    | some p =>
      obtain ⟨key, l, w⟩ := p
      obtain rfl : key = off := accessOf_aligned h8 hp
      have hc : s.dev.barOpen key = false := by simp [Dev.barOpen, Dev.ready, hb, hk]
      simp only [writeAt_closed hc, State.onDev, shadowsFrom_self]

/-- A register whose write is the plain one: no unit, selector or absent bit of its own. -/
structure Plain (r : LReg) : Prop where
  present : r.div = 0
  ours : ∀ i, firmwareOwns r i = false
  unselected : ∀ d : Dev, d.selRange r.base = none
  wingless : ∀ w, wingBits r w = 0
  direct : ∀ (i : Nat) (l : Lanes) (v : Word) (s : State),
    (if r.base < 0x800000 && !(r.base == 0) then regWriteA r i l v s else regWriteB r i l v s) = s.onDev (fun d => d.plainWrite r i l v)

theorem presentData_wingless {d : Dev} {r : LReg} {i : Nat} {v : Word} (h : ∀ w, wingBits r w = 0) : d.presentData r i v = v := by
  have hb : d.absentBits r = 0 := by
    unfold Dev.absentBits
    simp [h]
  rw [Dev.presentData, hb, show ~~~(0 : Word) = laneMask .full by decide, and_laneMask_full]
  simp

theorem writeAt_plain {key : Nat} {l : Lanes} {v : Word} {s : State} {r : LReg} {i : Nat} (hs : s.dev.f R.SYS_BOOT.STATE = 4)
    (hr : findReg layout key = some (r, i)) (hk : key < 2 ^ 26) (h : Plain r) :
    writeAt key l v s = s.onDev (fun d => d.plainWrite r i l v) := by
  have hopen : s.dev.barOpen key = true := by simp [Dev.barOpen, Dev.ready, hs]
  unfold writeAt
  rw [hr]
  dsimp only
  rw [if_neg (by simp [hopen, h.ours, Dev.absentReg, h.present]; omega)]
  simp only [h.unselected, presentData_wingless h.wingless, h.direct]

/-- A BAR0 write of a plain register that holds no E-class field. -/
theorem exec_registerWrite_plain {off size key : Nat} {l : Lanes} {v w : Word} {s : State} {r : LReg} {i : Nat}
    (hs : s.dev.f R.SYS_BOOT.STATE = 4) (ha : accessOf off size v = some (key, l, w)) (hr : findReg layout key = some (r, i))
    (hk : key < 2 ^ 26) (h : Plain r) (hkey : r.base + r.stride * i = key) (he : key ∉ epochKeys)
    (hb : (ownerBusy r.own i).1.key (ownerBusy r.own i).2 ∉ epochKeys) :
    exec (.registerWrite off size v) s = .next (s.onDev (fun d => d.plainWrite r i l w)) := by
  rw [exec_registerWrite, ha]
  dsimp only
  rw [writeAt_plain hs hr hk h]
  congr 1
  have : (s.dev.plainWrite r i l w).shadowsFrom s.dev = s.dev.plainWrite r i l w := by
    apply shadowsFrom_frame
    intro k hk'
    rw [Dev.plainWrite, hkey]
    exact word_writeReg_other (fun e => he (e ▸ hk')) (fun e => hb (e ▸ hk'))
  simp only [State.onDev, this]

/-- The write of a plain register that no block owns. -/
theorem plainWrite_unowned {d : Dev} {r : LReg} {i : Nat} {l : Lanes} {v : Word} (h : r.own = .none) :
    d.plainWrite r i l v = (d.writeFields (r.base + r.stride * i) true l v).1 := by
  have ho : d.ownerOff r.own i = true := by rw [h]; rfl
  rw [Dev.plainWrite, ho, writeReg_disabled]

theorem sameUnits_writeReg {s : State} {key : Nat} {dis : Bool} {l : Lanes} {v : Word} {busy : Fld} {n : Nat} :
    SameUnits s (s.onDev (fun d => d.writeReg key dis l v busy n)) := sameParts_writeReg

theorem sameUnits_writeFields {s : State} {key : Nat} {dis : Bool} {l : Lanes} {v : Word} :
    SameUnits s (s.onDev (fun d => (d.writeFields key dis l v).1)) := sameParts_writeFields

theorem sameWords_writeFields {s : State} {key : Nat} {dis : Bool} {l : Lanes} {v : Word} :
    SameWords s (s.onDev (fun d => (d.writeFields key dis l v).1)) [key] :=
  fun _ hk => word_writeFields_other (fun e => hk (e ▸ List.mem_singleton_self _))

theorem sameWords_writeReg {s : State} {key : Nat} {dis : Bool} {l : Lanes} {v : Word} {busy : Fld} {n : Nat} :
    SameWords s (s.onDev (fun d => d.writeReg key dis l v busy n)) [key, busy.key n] :=
  fun _ hk => by
    simp only [List.mem_cons, List.not_mem_nil, or_false, not_or] at hk
    exact word_writeReg_other hk.1 hk.2

/-! ### Fields of one bit -/

theorem bitsOf_one (w : Word) (lo : Nat) : bitsOf w lo 1 = if w.getLsbD lo then 1 else 0 := by
  have ht := testBit_bitsOf w lo 1 0
  have hl := bitsOf_lt w lo 1
  rw [Nat.testBit_zero] at ht
  simp only [Nat.add_zero, Nat.zero_lt_one, decide_true, Bool.true_and] at ht
  cases hw : w.getLsbD lo <;> simp [hw] at ht ⊢ <;> omega

/-- A bit written 1 to a write-1-to-clear field clears it, a bit written 0 leaves it. -/
theorem w1c_one (w v : Word) (lo : Nat) : bitsOf w lo 1 &&& (2 ^ 1 - 1 - bitsOf v lo 1) = if v.getLsbD lo then 0 else bitsOf w lo 1 := by
  rw [bitsOf_one v, bitsOf_one w]
  cases v.getLsbD lo <;> cases w.getLsbD lo <;> rfl

end Sys2Proof.Laws
end

section
/-! The registers of O8, each of another change class (R9, R11, R12, R402). -/

namespace Sys2Proof.Laws

open Sys2Proof Sys2Proof.Machine

variable {v w : Word} {s : State} {l : Lanes} {off size : Nat}

/-- STREAM_TIMER: every field takes a write at once. -/
abbrev streamTimerRow : LReg :=
  ⟨0x700038, 0x0, 1, .none, 0, [⟨0, 16, .live, 0xA⟩, ⟨16, 8, .live, 0x40⟩, ⟨24, 4, .live, 0x3⟩, ⟨32, 16, .live, 0x32⟩, ⟨48, 16, .live, 0x64⟩]⟩

/-- HEALTH_ALM_BASE: its fields change only while HEALTH_CTL.ENABLE = 0. -/
abbrev almBaseRow : LReg := ⟨0xD00010, 0x0, 1, .health, 0, [⟨0, 40, .static, 0x0⟩, ⟨40, 5, .static, 0x0⟩]⟩

/-- SQ_ERR: a bit written 1 is cleared. -/
abbrev sqErrRow : LReg := ⟨0x800020, 0x40, 4096, .none, 0, [⟨0, 1, .w1c, 0x0⟩, ⟨1, 1, .w1c, 0x0⟩, ⟨2, 1, .w1c, 0x0⟩, ⟨3, 1, .w1c, 0x0⟩]⟩

/-- FAB_ERR: its counter lies across the two halves. -/
abbrev fabErrRow : LReg := ⟨0x900008, 0x0, 1, .none, 0, [⟨0, 1, .w1c, 0x0⟩, ⟨1, 1, .w1c, 0x0⟩, ⟨2, 1, .w1c, 0x0⟩, ⟨16, 32, .cnt, 0x0⟩]⟩

/-- ITIN_CTL: its MODE is a shadow until a boundary. -/
abbrev itinCtlRow : LReg :=
  ⟨0x300000, 0x0, 1, .none, 0, [⟨0, 1, .live, 0x0⟩, ⟨1, 1, .epoch, 0x0⟩, ⟨8, 8, .live, 0x5⟩, ⟨16, 4, .live, 0x5⟩, ⟨32, 16, .live, 0x7D0⟩,
    ⟨48, 16, .live, 0x64⟩]⟩

theorem findReg_streamTimer : findReg layout 0x700038 = some (streamTimerRow, 0) := by decide +kernel
theorem findReg_almBase : findReg layout 0xD00010 = some (almBaseRow, 0) := by decide +kernel
theorem findReg_fabErr : findReg layout 0x900008 = some (fabErrRow, 0) := by decide +kernel
theorem findReg_itinCtl : findReg layout 0x300000 = some (itinCtlRow, 0) := by decide +kernel
theorem findReg_sqErr (n : Fin 4096) : findReg layout (0x800020 + 0x40 * n.val) = some (sqErrRow, n.val) :=
  findReg_instance (r := sqErrRow) (by decide +kernel) (by decide) n.isLt

theorem streamTimer_plain : Plain streamTimerRow := ⟨rfl, fun _ => rfl, fun _ => rfl, fun _ => rfl, fun _ _ _ _ => rfl⟩
theorem almBase_plain : Plain almBaseRow := ⟨rfl, fun _ => rfl, fun _ => rfl, fun _ => rfl, fun _ _ _ _ => rfl⟩
theorem sqErr_plain : Plain sqErrRow := ⟨rfl, fun _ => rfl, fun _ => rfl, fun _ => rfl, fun _ _ _ _ => rfl⟩
theorem fabErr_plain : Plain fabErrRow := ⟨rfl, fun _ => rfl, fun _ => rfl, fun _ => rfl, fun _ _ _ _ => rfl⟩
theorem itinCtl_plain : Plain itinCtlRow := ⟨rfl, fun _ => rfl, fun _ => rfl, fun _ => rfl, fun _ _ _ _ => rfl⟩

/-- A write of STREAM_TIMER through any lanes. -/
theorem exec_write_streamTimer (hs : s.dev.f R.SYS_BOOT.STATE = 4) (ha : accessOf off size v = some (0x700038, l, w)) :
    exec (.registerWrite off size v) s = .next (s.onDev (fun d => (d.writeFields 0x700038 true l w).1)) := by
  rw [exec_registerWrite_plain hs ha findReg_streamTimer (by decide) streamTimer_plain rfl (by decide) (by decide)]
  simp only [plainWrite_unowned (r := streamTimerRow) rfl]

/-- What STREAM_TIMER reads after a write of it. -/
theorem f_streamTimer {d : Dev} {x : Fld} {g : LField} (hk : x.key 0 = 0x700038) (hg : fieldAt streamTimerRow x = some g)
    (ht : takes true g.kind = true) : (d.writeFields 0x700038 true l w).1.f x = bitsOf (mergeLanes l (d.word 0x700038) w) x.lo x.w :=
  f_writeFields_taken findReg_streamTimer hk hg ht

theorem streamTimer_whole (hs : s.dev.f R.SYS_BOOT.STATE = 4) : Completes (.registerWrite 0x700038 8 v) s (fun t =>
    t.dev.f R.STREAM_TIMER.RCPT_INT = bitsOf v 0 16 ∧ t.dev.f R.STREAM_TIMER.RCPT_CNT = bitsOf v 16 8 ∧
    t.dev.f R.STREAM_TIMER.DUP_THR = bitsOf v 24 4 ∧ t.dev.f R.STREAM_TIMER.RTO_MIN = bitsOf v 32 16 ∧
    t.dev.f R.STREAM_TIMER.RTO_MAX = bitsOf v 48 16 ∧ SameMem s t ∧ SameUnits s t ∧ SameWords s t [0x700038]) := by
  have one {x : Fld} {g : LField} (hk : x.key 0 = 0x700038) (hg : fieldAt streamTimerRow x = some g) (hl : takes true g.kind = true) :
      (s.dev.writeFields 0x700038 true .full v).1.f x = bitsOf v x.lo x.w := by rw [f_streamTimer hk hg hl, mergeLanes_full]
  exact ⟨_, exec_write_streamTimer hs rfl, one rfl rfl rfl, one rfl rfl rfl, one rfl rfl rfl, one rfl rfl rfl, one rfl rfl rfl,
    sameMem_onDev _ _, sameUnits_writeFields, sameWords_writeFields⟩

theorem streamTimer_lower (hs : s.dev.f R.SYS_BOOT.STATE = 4) : Completes (.registerWrite 0x700038 4 v) s (fun t =>
    t.dev.f R.STREAM_TIMER.RCPT_INT = bitsOf v 0 16 ∧ t.dev.f R.STREAM_TIMER.RCPT_CNT = bitsOf v 16 8 ∧
    t.dev.f R.STREAM_TIMER.RTO_MIN = s.dev.f R.STREAM_TIMER.RTO_MIN ∧ t.dev.f R.STREAM_TIMER.RTO_MAX = s.dev.f R.STREAM_TIMER.RTO_MAX ∧
    SameMem s t ∧ SameUnits s t ∧ SameWords s t [0x700038]) := by
  have taken {x : Fld} {g : LField} (hk : x.key 0 = 0x700038) (hg : fieldAt streamTimerRow x = some g) (hl : takes true g.kind = true)
      (h : x.lo + x.w ≤ 32) : (s.dev.writeFields 0x700038 true .lo (v &&& 0xFFFFFFFF)).1.f x = bitsOf v x.lo x.w := by
    rw [f_streamTimer hk hg hl, bitsOf_mergeLanes_lo h]
  have kept {x : Fld} {g : LField} (hk : x.key 0 = 0x700038) (hg : fieldAt streamTimerRow x = some g) (hl : takes true g.kind = true)
      (h : 32 ≤ x.lo) : (s.dev.writeFields 0x700038 true .lo (v &&& 0xFFFFFFFF)).1.f x = s.dev.f x := by
    rw [f_streamTimer hk hg hl, bitsOf_mergeLanes_lo_apart h, Dev.f, hk]
  exact ⟨_, exec_write_streamTimer hs rfl, taken rfl rfl rfl (by decide), taken rfl rfl rfl (by decide), kept rfl rfl rfl (by decide),
    kept rfl rfl rfl (by decide), sameMem_onDev _ _, sameUnits_writeFields, sameWords_writeFields⟩

theorem streamTimer_upper (hs : s.dev.f R.SYS_BOOT.STATE = 4) : Completes (.registerWrite 0x70003C 4 v) s (fun t =>
    t.dev.f R.STREAM_TIMER.RCPT_INT = s.dev.f R.STREAM_TIMER.RCPT_INT ∧ t.dev.f R.STREAM_TIMER.RCPT_CNT = s.dev.f R.STREAM_TIMER.RCPT_CNT ∧
    t.dev.f R.STREAM_TIMER.RTO_MIN = bitsOf v 0 16 ∧ t.dev.f R.STREAM_TIMER.RTO_MAX = bitsOf v 16 16 ∧
    SameMem s t ∧ SameUnits s t ∧ SameWords s t [0x700038]) := by
  have kept {x : Fld} {g : LField} (hk : x.key 0 = 0x700038) (hg : fieldAt streamTimerRow x = some g) (hl : takes true g.kind = true)
      (h : x.lo + x.w ≤ 32) : (s.dev.writeFields 0x700038 true .hi (v <<< 32)).1.f x = s.dev.f x := by
    rw [f_streamTimer hk hg hl, bitsOf_mergeLanes_hi_apart h, Dev.f, hk]
  have taken {x : Fld} {g : LField} {lo : Nat} (hk : x.key 0 = 0x700038) (hg : fieldAt streamTimerRow x = some g) (hl : takes true g.kind = true)
      (hlo : x.lo = 32 + lo) (h : lo + x.w ≤ 32) : (s.dev.writeFields 0x700038 true .hi (v <<< 32)).1.f x = bitsOf v lo x.w := by
    rw [f_streamTimer hk hg hl, hlo, bitsOf_mergeLanes_hi h]
  exact ⟨_, exec_write_streamTimer hs rfl, kept rfl rfl rfl (by decide), kept rfl rfl rfl (by decide),
    taken (lo := 0) rfl rfl rfl rfl (by decide), taken (lo := 16) rfl rfl rfl rfl (by decide), sameMem_onDev _ _, sameUnits_writeFields,
    sameWords_writeFields⟩

/-- A write of a bit register that a bit written 1 clears. -/
theorem sqErr_cleared (n : Fin 4096) (hs : s.dev.f R.SYS_BOOT.STATE = 4) :
    Completes (.registerWrite (0x800020 + 0x40 * n.val) 8 v) s (fun t =>
      t.dev.f R.SQ_ERR.BUSY n = (if v.getLsbD 0 then 0 else s.dev.f R.SQ_ERR.BUSY n) ∧
      t.dev.f R.SQ_ERR.MISMATCH n = (if v.getLsbD 1 then 0 else s.dev.f R.SQ_ERR.MISMATCH n) ∧
      t.dev.f R.SQ_ERR.DB_RANGE n = (if v.getLsbD 2 then 0 else s.dev.f R.SQ_ERR.DB_RANGE n) ∧
      t.dev.f R.SQ_ERR.FETCH n = (if v.getLsbD 3 then 0 else s.dev.f R.SQ_ERR.FETCH n) ∧
      SameMem s t ∧ SameUnits s t ∧ SameWords s t [R.SQ_ERR.BUSY.key n]) := by
  have hn := n.isLt
  have hacc : accessOf (0x800020 + 0x40 * n.val) 8 v = some (0x800020 + 0x40 * n.val, .full, v) := by
    unfold accessOf; rw [if_pos ⟨rfl, by omega⟩]
  have hexec : exec (.registerWrite (0x800020 + 0x40 * n.val) 8 v) s =
      .next (s.onDev (fun d => (d.writeFields (0x800020 + 0x40 * n.val) true .full v).1)) := by
    have hkey : 0x800020 + 0x40 * n.val ∉ epochKeys := by rw [epochKeys_eq]; simp; omega
    have hbusy : R.GLOBAL_ERR.BUSY.key 0 ∉ epochKeys := by decide
    rw [exec_registerWrite_plain hs hacc (findReg_sqErr n) (by omega) sqErr_plain rfl hkey hbusy]
    simp only [plainWrite_unowned (r := sqErrRow) rfl]
  have one {x : Fld} {g : LField} (hk : x.key n = 0x800020 + 0x40 * n.val) (hg : fieldAt sqErrRow x = some g) (hl : g.kind = .w1c)
      (h1 : x.w = 1) : (s.dev.writeFields (0x800020 + 0x40 * n.val) true .full v).1.f x n = if v.getLsbD x.lo then 0 else s.dev.f x n := by
    obtain ⟨-, hlo, hw⟩ := fieldAt_spec hg
    rw [f_writeFields (findReg_sqErr n) hk hg, Dev.f, hk, h1, ← w1c_one]
    simp [fieldAfter, hl, hlo, hw, h1]
  exact ⟨_, hexec, one rfl rfl rfl rfl, one rfl rfl rfl rfl, one rfl rfl rfl rfl, one rfl rfl rfl rfl, sameMem_onDev _ _,
    sameUnits_writeFields, sameWords_writeFields⟩

theorem almBase_static (hs : s.dev.f R.SYS_BOOT.STATE = 4) :
    Completes (.registerWrite 0xD00010 8 v) s (fun t => SameMem s t ∧ SameUnits s t ∧ SameWords s t [0xD00010, R.HEALTH_ERR.BUSY.key 0] ∧
      (s.dev.f R.HEALTH_CTL.ENABLE = 0 → t.dev.f R.HEALTH_ALM_BASE.ADDR = bitsOf v 0 40 ∧ t.dev.f R.HEALTH_ALM_BASE.SIZE_LOG = bitsOf v 40 5 ∧
        t.dev.f R.HEALTH_ERR.BUSY = s.dev.f R.HEALTH_ERR.BUSY) ∧
      (s.dev.f R.HEALTH_CTL.ENABLE = 1 → t.dev.f R.HEALTH_ALM_BASE.ADDR = s.dev.f R.HEALTH_ALM_BASE.ADDR ∧
        t.dev.f R.HEALTH_ALM_BASE.SIZE_LOG = s.dev.f R.HEALTH_ALM_BASE.SIZE_LOG ∧
        t.dev.f R.HEALTH_ERR.BUSY =
          if s.dev.f R.HEALTH_ALM_BASE.ADDR = bitsOf v 0 40 ∧ s.dev.f R.HEALTH_ALM_BASE.SIZE_LOG = bitsOf v 40 5 then
            s.dev.f R.HEALTH_ERR.BUSY else 1)) := by
  have hexec := exec_registerWrite_plain (off := 0xD00010) (size := 8) (v := v) hs rfl findReg_almBase (by decide) almBase_plain rfl (by decide) (by decide)
  have field {dis : Bool} {x : Fld} {g : LField} (hk : x.key 0 = 0xD00010) (hg : fieldAt almBaseRow x = some g) (hl : g.kind = .static) :
      (s.dev.writeReg 0xD00010 dis .full v R.HEALTH_ERR.BUSY).f x = if dis then bitsOf v x.lo x.w else s.dev.f x := by
    obtain ⟨-, hlo, hw⟩ := fieldAt_spec hg
    rw [f_writeReg (by rw [hk]; decide), f_writeFields findReg_almBase hk hg, Dev.f, hk]
    simp [fieldAfter, hl, hlo, hw]
  refine ⟨_, hexec, sameMem_onDev _ _, sameUnits_writeReg, sameWords_writeReg, fun h0 => ?_, fun h1 => ?_⟩
  · have hp : s.dev.plainWrite almBaseRow 0 .full v = s.dev.writeReg 0xD00010 true .full v R.HEALTH_ERR.BUSY := by
      simp [Dev.plainWrite, Dev.ownerOff, ownerBusy, Dev.on, h0]
    simp only [onDev_dev, hp]
    refine ⟨field rfl rfl rfl, field rfl rfl rfl, ?_⟩
    rw [writeReg_disabled]
    exact f_writeFields_other (by decide)
  · have hp : s.dev.plainWrite almBaseRow 0 .full v = s.dev.writeReg 0xD00010 false .full v R.HEALTH_ERR.BUSY := by
      simp [Dev.plainWrite, Dev.ownerOff, ownerBusy, Dev.on, h1]
    simp only [onDev_dev, hp]
    refine ⟨field rfl rfl rfl, field rfl rfl rfl, ?_⟩
    rw [busy_writeReg findReg_almBase (by decide) rfl (by decide)]
    have ha : s.dev.f R.HEALTH_ALM_BASE.ADDR = bitsOf (s.dev.word 0xD00010) 0 40 := rfl
    have hl : s.dev.f R.HEALTH_ALM_BASE.SIZE_LOG = bitsOf (s.dev.word 0xD00010) 40 5 := rfl
    by_cases h : bitsOf (s.dev.word 0xD00010) 0 40 = bitsOf v 0 40 ∧ bitsOf (s.dev.word 0xD00010) 40 5 = bitsOf v 40 5
    · rw [ha, hl, if_pos h, if_neg (by simp [fieldBusy, h.1, h.2])]
    · rw [ha, hl, if_neg h, if_pos (by simp [fieldBusy]; omega)]

/-- An access to the upper half of FAB_ERR clears the counter that lies across the halves, or leaves the whole of it. -/
theorem fabErr_upper (hs : s.dev.f R.SYS_BOOT.STATE = 4) : Completes (.registerWrite 0x90000C 4 v) s (fun t =>
    (t.dev.f R.FAB_ERR.DUP_RESP = if bitsOf v 0 16 = 0 then 0 else s.dev.f R.FAB_ERR.DUP_RESP) ∧
    SameMem s t ∧ SameUnits s t ∧ SameWords s t [R.FAB_ERR.DUP_RESP.key 0]) := by
  have hexec := exec_registerWrite_plain (off := 0x90000C) (size := 4) (v := v) hs rfl findReg_fabErr (by decide) fabErr_plain rfl (by decide) (by decide)
  simp only [plainWrite_unowned (r := fabErrRow) rfl] at hexec
  refine ⟨_, hexec, ?_, sameMem_onDev _ _, sameUnits_writeFields, sameWords_writeFields⟩
  rw [onDev_dev, f_writeFields findReg_fabErr rfl rfl]
  have hz : bitsOf ((v <<< 32) &&& laneMask .hi) 16 32 = 0 ↔ bitsOf v 0 16 = 0 := by
    have hsplit : bitsOf ((v <<< 32) &&& laneMask .hi) 16 32 = 2 ^ 16 * bitsOf v 0 16 := by
      apply Nat.eq_of_testBit_eq
      intro i
      rw [testBit_bitsOf, Nat.testBit_two_pow_mul, testBit_bitsOf, BitVec.getLsbD_and, getLsbD_laneMask_hi, BitVec.getLsbD_shiftLeft]
      by_cases h : 16 ≤ i ∧ i < 32
      · simp [h.1, h.2, show 16 + i - 32 = i - 16 by omega, show 16 + i < 64 by omega, show 32 ≤ 16 + i by omega, show i - 16 < 16 by omega,
          show ¬ 16 + i < 32 by omega]
      · by_cases h2 : i < 32
        · simp [show ¬ 16 ≤ i by omega, show ¬ 32 ≤ 16 + i by omega]
        · simp [h2, show ¬ i - 16 < 16 by omega]
    omega
  have hc : covers .hi ⟨16, 32, .cnt, 0x0⟩ = true := by decide
  simp only [fieldAfter, hc, Bool.true_and, beq_iff_eq, hz]
  rfl

/-! ### ITIN_CTL and the shadow of MODE -/

theorem itinCtl_shadow (hs : s.dev.f R.SYS_BOOT.STATE = 4) (ht : ∀ e ∈ s.dev.shadowAt, e.2.1 ≤ s.dev.now) :
    Completes (.registerWrite 0x300000 8 v) s (fun t => t.dev.f R.ITIN_CTL.MODE = bitsOf v 1 1 ∧ t.dev.f R.ITIN_CTL.ENABLE = bitsOf v 0 1 ∧
      t.dev.itinMode = s.dev.itinMode ∧ t.dev.shadow 4 = s.dev.shadow 4 ∧
      { t.dev with now := t.dev.now + 1 }.shadow 4 = bitsOf v 1 1 ∧ SameMem s t ∧
      { t.dev with words := s.dev.words, shadowAt := s.dev.shadowAt } = s.dev ∧ SameWords s t [0x300000]) := by
  let a := (s.dev.writeFields 0x300000 true .full v).1
  have hunits : { a with words := s.dev.words } = s.dev := sameParts_writeFields
  have hnow : a.now = s.dev.now := by have h := congrArg Dev.now hunits; exact h
  have hat : a.shadowAt = s.dev.shadowAt := by have h := congrArg Dev.shadowAt hunits; exact h
  have hitin : a.itinMode = s.dev.itinMode := by have h := congrArg Dev.itinMode hunits; exact h
  have hother : ∀ k, k ≠ 0x300000 → a.word k = s.dev.word k := fun k hk => word_writeFields_other hk
  have field {x : Fld} {g : LField} (hk : x.key 0 = 0x300000) (hg : fieldAt itinCtlRow x = some g) (ht : takes true g.kind = true) :
      a.f x = bitsOf v x.lo x.w := f_writeFields_full findReg_itinCtl hk hg ht
  have hstep : { shadowStep s.dev a 4 with shadowAt := a.shadowAt } = a := shadowStep_frame _ _ _
  have hsame : a.shadowsFrom s.dev = shadowStep s.dev a 4 :=
    shadowsFrom_one (by decide) fun b hb hne => by
      rw [Dev.f, hother _ (by revert b; decide), Dev.f]
  have hexec : exec (.registerWrite 0x300000 8 v) s = .next { s with dev := shadowStep s.dev a 4 } := by
    rw [exec_registerWrite, show accessOf 0x300000 8 v = some (0x300000, .full, v) from rfl]
    dsimp only
    rw [writeAt_plain hs findReg_itinCtl (by decide) itinCtl_plain]
    simp only [State.onDev, plainWrite_unowned (r := itinCtlRow) rfl]
    rw [← hsame]
  have hfield (x : Fld) : (shadowStep s.dev a 4).f x = a.f x := congrArg (bitsOf · _ _) (word_shadowStep _ _ _ _)
  refine ⟨_, hexec, ?_, ?_, ?_, shadow_shadowStep hnow hat, ?_, fun _ => rfl, ?_, ?_⟩
  · exact (hfield _).trans (field rfl rfl rfl)
  · exact (hfield _).trans (field rfl rfl rfl)
  · have h := congrArg Dev.itinMode hstep; exact h.trans hitin
  · have h := congrArg Dev.now hstep
    rw [show (shadowStep s.dev a 4).now = a.now from h]
    exact (shadow_next (by rw [hat, hnow]; exact ht)).trans (field rfl rfl rfl)
  · rw [← hat]
    have h := congrArg (fun e : Dev => { e with words := s.dev.words }) hstep
    exact h.trans hunits
  · intro k hk
    exact (word_shadowStep _ _ _ _).trans (hother k (fun e => hk (e ▸ List.mem_singleton_self _)))

/-- Settles O8, a change class at a time. -/
theorem registerWriteTakesEachFieldByItsClass : Obligations.RegisterWriteTakesEachFieldByItsClass :=
  ⟨fun _ _ hs => streamTimer_whole hs, fun _ _ hs => streamTimer_lower hs, fun _ _ hs => streamTimer_upper hs, fun _ _ hs => almBase_static hs,
    fun n _ _ hs => sqErr_cleared n hs, fun _ _ hs => fabErr_upper hs, fun _ _ hs ht => itinCtl_shadow hs ht⟩

end Sys2Proof.Laws
end

section
/-! Rings and queues are enabled after their checks (R11, R53, R54, R57, R64). -/

namespace Sys2Proof.Laws

open Sys2Proof Sys2Proof.Machine

variable {v : Word} {s : State} {d : Dev}

/-- SQ_CTL: its set-up fields change only while the ring is disabled and idle. -/
abbrev sqCtlRow : LReg :=
  ⟨0x800000, 0x40, 4096, .ring, 0, [⟨0, 1, .live, 0x0⟩, ⟨1, 1, .static, 0x0⟩, ⟨4, 5, .static, 0x0⟩, ⟨16, 10, .static, 0x0⟩,
    ⟨32, 12, .static, 0x0⟩, ⟨48, 4, .live, 0x0⟩, ⟨63, 1, .ro, 0x1⟩]⟩

/-- CQ_CTL: its set-up fields change only while the queue is disabled and idle. -/
abbrev cqCtlRow : LReg :=
  ⟨0x840000, 0x40, 4096, .queue, 0, [⟨0, 1, .live, 0x0⟩, ⟨1, 1, .static, 0x0⟩, ⟨4, 5, .static, 0x0⟩, ⟨16, 10, .static, 0x0⟩,
    ⟨32, 11, .static, 0x0⟩, ⟨63, 1, .ro, 0x1⟩]⟩

theorem findReg_sqCtl (n : Fin 4096) : findReg layout (R.SQ_CTL.ENABLE.key n) = some (sqCtlRow, n.val) :=
  findReg_instance (r := sqCtlRow) (by decide +kernel) (by decide) n.isLt

theorem findReg_cqCtl (q : Fin 4096) : findReg layout (R.CQ_CTL.ENABLE.key q) = some (cqCtlRow, q.val) :=
  findReg_instance (r := cqCtlRow) (by decide +kernel) (by decide) q.isLt

theorem bitsOf_enable (h : v.getLsbD 0 = true) : bitsOf v 0 1 = 1 := by rw [bitsOf_one, if_pos h]

/-! ### SQ_CTL -/

/-- SQ_CTL with ENABLE = 1, written to a disabled idle ring. -/
theorem sqCtlWrite_enable {n : Fin 4096} (h0 : d.f R.SQ_CTL.ENABLE n = 0) (hi : d.ringIdle n = true) (hv : v.getLsbD 0 = true) :
    d.sqCtlWrite n .full v =
      let d1 := (d.writeFields (R.SQ_CTL.ENABLE.key n) true .full v).1
      if d1.sqEnableOk n then d1 else (d1.set R.SQ_CTL.ENABLE n 0).set R.SQ_ERR.MISMATCH n 1 := by
  have hon : (d.writeFields (R.SQ_CTL.ENABLE.key n) true .full v).1.f R.SQ_CTL.ENABLE n = 1 :=
    (f_writeFields_full (findReg_sqCtl n) rfl rfl rfl).trans (bitsOf_enable hv)
  have htear : (d.ring n).tear = 0 := by
    simp only [Dev.ringIdle, Bool.and_eq_true, beq_iff_eq] at hi
    exact hi.1.2
  simp [Dev.sqCtlWrite, Dev.on, h0, hi, writeReg_disabled, hon, htear]

/-- SQ_CTL written to an enabled ring. -/
theorem sqCtlWrite_enabled {n : Fin 4096} (h1 : d.f R.SQ_CTL.ENABLE n = 1) :
    d.sqCtlWrite n .full v = d.writeReg (R.SQ_CTL.ENABLE.key n) false .full v R.SQ_ERR.BUSY n := by
  simp [Dev.sqCtlWrite, Dev.on, h1]

theorem exec_sqCtlWrite {n : Fin 4096} (hs : s.dev.f R.SYS_BOOT.STATE = 4) :
    exec (.sqCtlWrite n .full v) s = .next (s.onDev (fun x => x.sqCtlWrite n .full v)) := by
  have hready : s.dev.ready = true := by simp [Dev.ready, hs]
  exact congrArg Host.Outcome.next (if_pos hready)

theorem sqCtl_enables (n : Fin 4096) (hs : s.dev.f R.SYS_BOOT.STATE = 4) (h0 : s.dev.f R.SQ_CTL.ENABLE n = 0)
    (hi : s.dev.ringIdle n = true) (hv : v.getLsbD 0 = true) :
    Completes (.sqCtlWrite n .full v) s (fun t =>
      let d1 := (s.dev.writeFields (R.SQ_CTL.ENABLE.key n) true .full v).1
      d1.f R.SQ_CTL.SIZE_LOG n = bitsOf v 4 5 ∧ d1.f R.SQ_CTL.TENANT n = bitsOf v 16 10 ∧ d1.f R.SQ_CTL.CQ n = bitsOf v 32 12 ∧
      t.dev.f R.SQ_CTL.ENABLE n = (if d1.sqEnableOk n then 1 else 0) ∧
      t.dev.f R.SQ_ERR.MISMATCH n = (if d1.sqEnableOk n then s.dev.f R.SQ_ERR.MISMATCH n else 1) ∧
      SameMem s t ∧ SameWords s t [R.SQ_CTL.ENABLE.key n, R.SQ_ERR.MISMATCH.key n]) := by
  refine ⟨_, exec_sqCtlWrite hs, ?_⟩
  have field {x : Fld} {g : LField} (hk : x.key n = R.SQ_CTL.ENABLE.key n) (hg : fieldAt sqCtlRow x = some g)
      (ht : takes true g.kind = true) :
      (s.dev.writeFields (R.SQ_CTL.ENABLE.key n) true .full v).1.f x n = bitsOf v x.lo x.w := f_writeFields_full (findReg_sqCtl n) hk hg ht
  have hne : R.SQ_ERR.MISMATCH.key n ≠ R.SQ_CTL.ENABLE.key n := by simp [Fld.key]
  simp only [onDev_dev, sqCtlWrite_enable h0 hi hv]
  refine ⟨field rfl rfl rfl, field rfl rfl rfl, field rfl rfl rfl, ?_, ?_, sameMem_onDev _ _, ?_⟩
  · split
    · exact (field rfl rfl rfl).trans (bitsOf_enable hv)
    · rw [f_set_apart _ _ _ _ _ _ (.inl hne.symm), f_set_same _ _ _ _ (by decide)]; rfl
  · split
    · exact f_writeFields_other hne
    · rw [f_set_same _ _ _ _ (by decide)]; rfl
  · intro k hk
    simp only [List.mem_cons, List.not_mem_nil, or_false, not_or] at hk
    obtain ⟨hctl, herr⟩ := hk
    rw [onDev_dev, sqCtlWrite_enable h0 hi hv]
    dsimp only
    split
    · exact word_writeFields_other hctl
    · rw [word_set_other _ _ _ _ herr, word_set_other _ _ _ _ hctl, word_writeFields_other hctl]

theorem sqCtl_keeps (n : Fin 4096) (hs : s.dev.f R.SYS_BOOT.STATE = 4) (h1 : s.dev.f R.SQ_CTL.ENABLE n = 1) :
    Completes (.sqCtlWrite n .full v) s (fun t =>
      t.dev.f R.SQ_CTL.SIZE_LOG n = s.dev.f R.SQ_CTL.SIZE_LOG n ∧ t.dev.f R.SQ_CTL.CQ n = s.dev.f R.SQ_CTL.CQ n ∧
      t.dev.f R.SQ_CTL.ENABLE n = bitsOf v 0 1 ∧ t.dev.f R.SQ_CTL.WEIGHT n = bitsOf v 48 4 ∧
      (s.dev.f R.SQ_CTL.SIZE_LOG n ≠ bitsOf v 4 5 → t.dev.f R.SQ_ERR.BUSY n = 1) ∧ SameMem s t) := by
  refine ⟨_, exec_sqCtlWrite hs, ?_⟩
  have hne : R.SQ_CTL.ENABLE.key n ≠ R.SQ_ERR.BUSY.key n := by simp [Fld.key]
  have kept {x : Fld} {g : LField} (hk : x.key n = R.SQ_CTL.ENABLE.key n) (hg : fieldAt sqCtlRow x = some g) (hl : keeps false g.kind = true) :
      (s.dev.writeReg (R.SQ_CTL.ENABLE.key n) false .full v R.SQ_ERR.BUSY n).f x n = s.dev.f x n := by
    rw [f_writeReg (by rwa [hk]), f_writeFields_kept (findReg_sqCtl n) hk hg hl]
  have taken {x : Fld} {g : LField} (hk : x.key n = R.SQ_CTL.ENABLE.key n) (hg : fieldAt sqCtlRow x = some g) (hl : takes false g.kind = true) :
      (s.dev.writeReg (R.SQ_CTL.ENABLE.key n) false .full v R.SQ_ERR.BUSY n).f x n = bitsOf v x.lo x.w := by
    rw [f_writeReg (by rwa [hk]), f_writeFields_full (findReg_sqCtl n) hk hg hl]
  simp only [onDev_dev, sqCtlWrite_enabled h1]
  refine ⟨kept rfl rfl rfl, kept rfl rfl rfl, taken rfl rfl rfl, taken rfl rfl rfl, fun hsl => ?_, sameMem_onDev _ _⟩
  have hbusy : sqCtlRow.fields.any (fieldBusy false .full (s.dev.word (R.SQ_CTL.ENABLE.key n)) v) = true := by
    refine List.any_eq_true.mpr ⟨⟨4, 5, .static, 0x0⟩, by simp, ?_⟩
    have hne' : bitsOf v 4 5 ≠ bitsOf (s.dev.word (R.SQ_CTL.ENABLE.key n)) 4 5 := Ne.symm hsl
    simpa [fieldBusy] using hne'
  rw [busy_writeReg (findReg_sqCtl n) hne.symm rfl (by decide), if_pos hbusy]

/-! ### CQ_CTL -/

/-- CQ_CTL with ENABLE = 1, written to a disabled idle queue. -/
theorem cqCtlWrite_enable {q : Fin 4096} (h0 : d.f R.CQ_CTL.ENABLE q = 0) (hi : d.cqIdle q = true) (hv : v.getLsbD 0 = true) :
    d.cqCtlWrite q .full v =
      let d1 := (d.writeFields (R.CQ_CTL.ENABLE.key q) true .full v).1
      if d1.cqEnableOk q then (d1.setCq q { armed := true, p := 0, timer := none }).set R.RING_RETAIN.TAIL q (d1.f R.CQ_STATE.TAIL q)
      else (d1.set R.CQ_CTL.ENABLE q 0).set R.CQ_ERR.MISMATCH q 1 := by
  have hon : (d.writeFields (R.CQ_CTL.ENABLE.key q) true .full v).1.f R.CQ_CTL.ENABLE q = 1 :=
    (f_writeFields_full (findReg_cqCtl q) rfl rfl rfl).trans (bitsOf_enable hv)
  simp [Dev.cqCtlWrite, Dev.on, h0, hi, writeReg_disabled, hon]

theorem exec_cqCtlWrite {q : Fin 4096} (hs : s.dev.f R.SYS_BOOT.STATE = 4) :
    exec (.cqCtlWrite q .full v) s = .next (s.onDev (fun x => x.cqCtlWrite q .full v)) := by
  have hready : s.dev.ready = true := by simp [Dev.ready, hs]
  exact congrArg Host.Outcome.next (if_pos hready)

theorem cqCtl_enables (q : Fin 4096) (hs : s.dev.f R.SYS_BOOT.STATE = 4) (h0 : s.dev.f R.CQ_CTL.ENABLE q = 0)
    (hi : s.dev.cqIdle q = true) (hv : v.getLsbD 0 = true) :
    Completes (.cqCtlWrite q .full v) s (fun t =>
      let d1 := (s.dev.writeFields (R.CQ_CTL.ENABLE.key q) true .full v).1
      t.dev.f R.CQ_CTL.ENABLE q = (if d1.cqEnableOk q then 1 else 0) ∧
      t.dev.f R.CQ_ERR.MISMATCH q = (if d1.cqEnableOk q then s.dev.f R.CQ_ERR.MISMATCH q else 1) ∧
      (d1.cqEnableOk q = true → (t.dev.cq q).armed = true ∧ (t.dev.cq q).p = 0) ∧ SameMem s t) := by
  refine ⟨_, exec_cqCtlWrite hs, ?_⟩
  have hq := q.isLt
  have hne : R.CQ_ERR.MISMATCH.key q ≠ R.CQ_CTL.ENABLE.key q := by simp [Fld.key]
  have hctl : R.CQ_CTL.ENABLE.key q ≠ R.RING_RETAIN.TAIL.key q := by simp [Fld.key]; omega
  have herr : R.CQ_ERR.MISMATCH.key q ≠ R.RING_RETAIN.TAIL.key q := by simp [Fld.key]; omega
  simp only [onDev_dev, cqCtlWrite_enable h0 hi hv]
  refine ⟨?_, ?_, fun hok => ?_, sameMem_onDev _ _⟩
  · split
    · rw [f_set_apart _ _ _ _ _ _ (.inl hctl)]
      exact (f_writeFields_full (findReg_cqCtl q) rfl rfl rfl).trans (bitsOf_enable hv)
    · rw [f_set_apart _ _ _ _ _ _ (.inl hne.symm), f_set_same _ _ _ _ (by decide)]; rfl
  · split
    · rw [f_set_apart _ _ _ _ _ _ (.inl herr)]
      exact f_writeFields_other hne
    · rw [f_set_same _ _ _ _ (by decide)]; rfl
  · rw [if_pos hok]
    have hcq : (((s.dev.writeFields (R.CQ_CTL.ENABLE.key q) true .full v).1.setCq q { armed := true, p := 0, timer := none }).cq q) =
        { armed := true, p := 0, timer := none } := by rw [cq_setCq, if_pos rfl]
    exact ⟨congrArg CqX.armed hcq, congrArg CqX.p hcq⟩

/-- Settles O17: the checks decide what ENABLE reads, and an enabled ring's static fields stay. -/
theorem ringsAndQueuesAreEnabledAfterTheirChecks : Obligations.RingsAndQueuesAreEnabledAfterTheirChecks :=
  ⟨fun n _ _ hs h0 hi hv => sqCtl_enables n hs h0 hi hv, fun q _ _ hs h0 hi hv => cqCtl_enables q hs h0 hi hv,
    fun n _ _ hs h1 => sqCtl_keeps n hs h1⟩

end Sys2Proof.Laws
end

section
/-! TOUR_CTL, TOUR_PROV_IDX and the tour sets behind TOUR_TS_DATA (R11, R15, R16, R99, R101, R103 to R106). -/

namespace Sys2Proof.Laws

open Sys2Proof Sys2Proof.Machine

variable {w : Word} {s : State} {d : Dev}

theorem ready_of (hs : s.dev.f R.SYS_BOOT.STATE = 4) : s.dev.ready = true := by simp [Dev.ready, hs]

/-! ### Selectors that advance (R15) -/

section Selectors

variable {auto word index : Fld} {n : Nat}

theorem selNext_off (h : d.f auto = 0) : d.selNext auto word index n = d := by simp [Dev.selNext, Dev.on, h]

theorem sameParts_selNext : SameParts d (d.selNext auto word index n) := by
  unfold Dev.selNext
  split
  · split <;> rfl
  · rfl

theorem word_selNext_other {k : Nat} (hw : k ≠ word.key 0) (hi : k ≠ index.key 0) : (d.selNext auto word index n).word k = d.word k := by
  unfold Dev.selNext
  split
  · split
    · exact word_set_other _ _ _ _ hw
    · rw [word_set_other _ _ _ _ hi, word_set_other _ _ _ _ hw]
  · rfl

theorem f_selNext_other {x : Fld} {j : Nat} (hw : x.key j ≠ word.key 0) (hi : x.key j ≠ index.key 0) :
    (d.selNext auto word index n).f x j = d.f x j := by rw [Dev.f, word_selNext_other hw hi, Dev.f]

end Selectors

/-- What has been sent besides, where every other part of the block is as it was. -/
theorem sameUnitsBut_of {t : State} {o : List Out} {e : Dev} (he : e = { s.dev with out := s.dev.out ++ o, words := e.words })
    (h : SameParts e t.dev) : SameUnitsBut o s t := by
  refine ⟨?_, ?_⟩
  · have h' := congrArg (fun a : Dev => { a with words := s.dev.words, out := s.dev.out }) h
    refine h'.trans ?_
    rw [he]
  · have h' := congrArg Dev.out h
    refine h'.trans ?_
    rw [he]

/-! ### TOUR_CTL -/

/-- TOUR_CTL: no block owns it, and PROV_MODE is a shadow until the next tour phase. -/
abbrev tourCtlRow : LReg := ⟨0x500000, 0x40000, 4, .none, 1, [⟨0, 1, .live, 0x0⟩, ⟨4, 2, .epoch, 0x0⟩, ⟨8, 8, .live, 0x10⟩, ⟨63, 1, .ro, 0x1⟩]⟩

theorem findReg_tourCtl (v : Fin 4) : findReg layout (R.TOUR_CTL.ENABLE.key v) = some (tourCtlRow, v.val) :=
  findReg_instance (r := tourCtlRow) (by decide +kernel) (by decide) v.isLt

/-- The provenance buffer of a wing may not be used (R103). -/
abbrev ProvBad (d : Dev) (v : Nat) : Prop :=
  d.f R.TOUR_PROV_BASE.SIZE_LOG v < 10 ∨ 20 < d.f R.TOUR_PROV_BASE.SIZE_LOG v ∨ d.f R.TOUR_PROV_BASE.ADDR v % 32 ≠ 0 ∨
    d.outsideHbm ((d.f R.TOUR_PROV_BASE.ADDR v : Int),
      ((d.f R.TOUR_PROV_BASE.ADDR v + 32 * 2 ^ d.f R.TOUR_PROV_BASE.SIZE_LOG v - 1 : Nat) : Int)) = true

theorem key_provBase_ne (v : Fin 4) : R.TOUR_PROV_BASE.ADDR.key v ≠ R.TOUR_CTL.ENABLE.key v := by revert v; decide
theorem key_tourBusy_ne (v : Fin 4) : R.TOUR_CTL.ENABLE.key v ≠ R.TOUR_ERR.BUSY.key v := by revert v; decide
theorem key_tourErr_ne (v : Fin 4) : R.TOUR_ERR.MISMATCH.key v ≠ R.TOUR_CTL.ENABLE.key v := by revert v; decide
theorem key_hbm_ne (v : Fin 4) : R.COURIER_HBM_BASE.ADDR.key 0 ≠ R.TOUR_CTL.ENABLE.key v ∧ R.COURIER_HBM_LIMIT.ADDR.key 0 ≠ R.TOUR_CTL.ENABLE.key v := by
  revert v; decide

theorem f_tourCtl {v : Fin 4} {dis : Bool} {x : Fld} {g : LField} (hk : x.key v = R.TOUR_CTL.ENABLE.key v) (hg : fieldAt tourCtlRow x = some g)
    (ht : takes dis g.kind = true) : (d.writeFields (R.TOUR_CTL.ENABLE.key v) dis .full w).1.f x v = bitsOf w x.lo x.w :=
  f_writeFields_full (findReg_tourCtl v) hk hg ht

/-- TOUR_CTL with ENABLE = 1, written to an engine at 0 while no collective is here. -/
theorem tourCtlWrite_enable {v : Fin 4} (h0 : d.f R.TOUR_CTL.ENABLE v = 0) (hb : d.blkHeld 1 v = false) (hc : d.colls = [])
    (hw : bitsOf w 0 1 = 1) :
    d.tourCtlWrite v .full w =
      let d1 := (d.writeFields (R.TOUR_CTL.ENABLE.key v) true .full w).1
      if bitsOf w 4 2 ≠ 0 ∧ ProvBad d v then (d1.set R.TOUR_CTL.ENABLE v 0).set R.TOUR_ERR.MISMATCH v 1 else d1 := by
  have hidle : d.tourIdle v = true := by simp [Dev.tourIdle, Dev.on, h0, hc]
  have hon : (d.writeFields (R.TOUR_CTL.ENABLE.key v) true .full w).1.f R.TOUR_CTL.ENABLE v = 1 := (f_tourCtl rfl rfl rfl).trans hw
  have hmode : (d.writeFields (R.TOUR_CTL.ENABLE.key v) true .full w).1.f R.TOUR_CTL.PROV_MODE v = bitsOf w 4 2 := f_tourCtl rfl rfl rfl
  have hsize : (d.writeFields (R.TOUR_CTL.ENABLE.key v) true .full w).1.f R.TOUR_PROV_BASE.SIZE_LOG v = d.f R.TOUR_PROV_BASE.SIZE_LOG v :=
    f_writeFields_other (key_provBase_ne v)
  have haddr : (d.writeFields (R.TOUR_CTL.ENABLE.key v) true .full w).1.f R.TOUR_PROV_BASE.ADDR v = d.f R.TOUR_PROV_BASE.ADDR v :=
    f_writeFields_other (key_provBase_ne v)
  have hout (p : Int × Int) : (d.writeFields (R.TOUR_CTL.ENABLE.key v) true .full w).1.outsideHbm p = d.outsideHbm p := by
    rw [Dev.outsideHbm, f_writeFields_other (key_hbm_ne v).1, f_writeFields_other (key_hbm_ne v).2, Dev.outsideHbm]
  have hreg : d.writeReg (R.TOUR_CTL.ENABLE.key v) (d.tourIdle v) .full w R.TOUR_ERR.BUSY v =
      (d.writeFields (R.TOUR_CTL.ENABLE.key v) true .full w).1 := by rw [hidle, writeReg_disabled]
  unfold Dev.tourCtlWrite
  rw [hreg]
  generalize (d.writeFields (R.TOUR_CTL.ENABLE.key v) true .full w).1 = d1 at hon hmode hsize haddr hout
  by_cases hm : bitsOf w 4 2 = 0
  · simp [Dev.on, h0, hb, hon, hmode, hm]
  · simp [Dev.on, h0, hb, hon, hmode, hm, hsize, haddr, hout, ProvBad]

/-- A write that clears ENABLE of an engine at 1. -/
theorem tourCtlWrite_disable {v : Fin 4} (h1 : d.f R.TOUR_CTL.ENABLE v = 1) (hw : bitsOf w 0 1 = 0) :
    d.tourCtlWrite v .full w = (d.writeReg (R.TOUR_CTL.ENABLE.key v) false .full w R.TOUR_ERR.BUSY v).tourStop v := by
  have hidle : d.tourIdle v = false := by simp [Dev.tourIdle, Dev.on, h1]
  have hoff : (d.writeReg (R.TOUR_CTL.ENABLE.key v) false .full w R.TOUR_ERR.BUSY v).f R.TOUR_CTL.ENABLE v = 0 := by
    rw [f_writeReg (key_tourBusy_ne v)]
    exact (f_tourCtl rfl rfl rfl).trans hw
  unfold Dev.tourCtlWrite
  rw [hidle]
  simp [Dev.on, h1, hoff]

/-- TOUR_CTL of a wing that is present, where no collective waits for the engine. -/
theorem exec_tourCtlWrite {v : Fin 4} {l : Lanes} (hs : s.dev.f R.SYS_BOOT.STATE = 4) (hp : s.dev.wingPresent v = true)
    (hq : (s.dev.tourCtlWrite v l w).colls = [] ∨ (s.dev.tourCtlWrite v l w).f R.TOUR_CTL.ENABLE v = 0) :
    exec (.tourCtlWrite v l w) s = .next (s.onDev (fun x => (x.tourCtlWrite v l w).shadowsFrom x)) := by
  have hcolls : ((s.dev.tourCtlWrite v l w).shadowsFrom s.dev).colls = (s.dev.tourCtlWrite v l w).colls := by
    have h := congrArg Dev.colls (shadowsFrom_parts (s.dev.tourCtlWrite v l w) s.dev); exact h
  refine congrArg Host.Outcome.next ((if_pos (by rw [ready_of hs, hp]; rfl)).trans ?_)
  simp only [State.onBoth, State.onDev]
  rcases hq with hq | hq
  · simp [hcolls, hq]
  · simp [Dev.on, hq]

theorem exec_tourCtlWrite_absent {v : Fin 4} {l : Lanes} (hp : s.dev.wingPresent v = false) : exec (.tourCtlWrite v l w) s = .next s :=
  congrArg Host.Outcome.next (if_neg (by simp [hp]))

theorem exec_tourProvIdxWrite_absent {v : Fin 4} {l : Lanes} (hp : s.dev.wingPresent v = false) :
    exec (.tourProvIdxWrite v l w) s = .next s :=
  congrArg Host.Outcome.next (if_neg (by simp [hp]))

theorem tourCtl_enables (v : Fin 4) (hs : s.dev.f R.SYS_BOOT.STATE = 4) (hp : s.dev.wingPresent v = true)
    (h0 : s.dev.f R.TOUR_CTL.ENABLE v = 0) (hb : s.dev.blkHeld 1 v = false) (hc : s.dev.colls = []) (hw : bitsOf w 0 1 = 1) :
    Completes (.tourCtlWrite v .full w) s (fun t =>
      let size := s.dev.f R.TOUR_PROV_BASE.SIZE_LOG v
      let base := s.dev.f R.TOUR_PROV_BASE.ADDR v
      let bad := bitsOf w 4 2 ≠ 0 ∧ (size < 10 ∨ 20 < size ∨ base % 32 ≠ 0 ∨ s.dev.outsideHbm ((base : Int), ((base + 32 * 2 ^ size - 1 : Nat) : Int)) = true)
      t.dev.f R.TOUR_CTL.ENABLE v = (if bad then 0 else 1) ∧ t.dev.f R.TOUR_CTL.PROV_MODE v = bitsOf w 4 2 ∧
      t.dev.f R.TOUR_CTL.FENCE_THR v = bitsOf w 8 8 ∧ (bad → t.dev.f R.TOUR_ERR.MISMATCH v = 1) ∧ SameMem s t ∧
      t.dev.shadow v = s.dev.shadow v ∧ { t.dev with words := s.dev.words, shadowAt := s.dev.shadowAt } = s.dev ∧
      SameWords s t [R.TOUR_CTL.ENABLE.key v, R.TOUR_ERR.MISMATCH.key v]) := by
  let d1 := (s.dev.writeFields (R.TOUR_CTL.ENABLE.key v) true .full w).1
  obtain ⟨a, ha⟩ : ∃ a, a = s.dev.tourCtlWrite v .full w := ⟨_, rfl⟩
  have heq : a = if bitsOf w 4 2 ≠ 0 ∧ ProvBad s.dev v then (d1.set R.TOUR_CTL.ENABLE v 0).set R.TOUR_ERR.MISMATCH v 1 else d1 :=
    ha.trans (tourCtlWrite_enable h0 hb hc hw)
  have herr := key_tourErr_ne v
  have hparts : SameParts s.dev a := by
    rw [heq]
    split
    · exact sameParts_writeFields.trans ((sameParts_set _ _ _ _).trans (sameParts_set _ _ _ _))
    · exact sameParts_writeFields
  have hwords : ∀ k, k ≠ R.TOUR_CTL.ENABLE.key v → k ≠ R.TOUR_ERR.MISMATCH.key v → a.word k = s.dev.word k := by
    intro k hctl hmis
    rw [heq]
    split
    · rw [word_set_other _ _ _ _ hmis, word_set_other _ _ _ _ hctl, word_writeFields_other hctl]
    · exact word_writeFields_other hctl
  have field {x : Fld} {g : LField} (hk : x.key v = R.TOUR_CTL.ENABLE.key v) (hg : fieldAt tourCtlRow x = some g)
      (ht : takes true g.kind = true) (hlo : 1 ≤ x.lo) : a.f x v = bitsOf w x.lo x.w := by
    rw [heq]
    split
    · rw [f_set_apart _ _ _ _ _ _ (.inl (by rw [hk]; exact herr.symm)), f_set_apart _ _ _ _ _ _ (.inr (.inl (show R.TOUR_CTL.ENABLE.lo + R.TOUR_CTL.ENABLE.w ≤ x.lo from hlo))), f_tourCtl hk hg ht]
    · exact f_tourCtl hk hg ht
  have hexec : exec (.tourCtlWrite v .full w) s = .next (s.onDev (fun _ => a.shadowsFrom s.dev)) := by
    have hcolls : a.colls = s.dev.colls := by have h := congrArg Dev.colls hparts; exact h
    rw [exec_tourCtlWrite hs hp (.inl (by rw [← ha, hcolls, hc]))]
    simp only [State.onDev, ha]
  have hshadow : a.shadowsFrom s.dev = shadowStep s.dev a v :=
    shadowsFrom_one (by omega) fun b hb6 hne => by
      have hkey : (epochFld b).1.key (epochFld b).2 ≠ R.TOUR_CTL.ENABLE.key v ∧ (epochFld b).1.key (epochFld b).2 ≠ R.TOUR_ERR.MISMATCH.key v := by
        clear * - hb6 hne
        revert v b; decide
      rw [Dev.f, hwords _ hkey.1 hkey.2, Dev.f]
  have hnow : a.now = s.dev.now := by have h := congrArg Dev.now hparts; exact h
  have hat : a.shadowAt = s.dev.shadowAt := by have h := congrArg Dev.shadowAt hparts; exact h
  refine ⟨_, hexec, ?_⟩
  simp only [onDev_dev, f_shadowsFrom]
  refine ⟨?_, field rfl rfl rfl (by decide), field rfl rfl rfl (by decide), fun hbad => ?_, sameMem_onDev _ _, ?_, ?_, ?_⟩
  · rw [heq]
    by_cases hbad : bitsOf w 4 2 ≠ 0 ∧ ProvBad s.dev v
    · rw [if_pos hbad, if_pos hbad, f_set_apart _ _ _ _ _ _ (.inl herr.symm), f_set_same _ _ _ _ (by decide)]; rfl
    · rw [if_neg hbad, if_neg hbad]
      exact (f_tourCtl rfl rfl rfl).trans hw
  · rw [heq, if_pos hbad, f_set_same _ _ _ _ (by decide)]; rfl
  · rw [hshadow]
    exact shadow_shadowStep hnow hat
  · have h := congrArg (fun e : Dev => { e with words := s.dev.words }) (shadowsFrom_parts a s.dev)
    rw [← hat]
    exact h.trans hparts
  · intro k hk
    simp only [List.mem_cons, List.not_mem_nil, or_false, not_or] at hk
    exact (word_shadowsFrom _ _ _).trans (hwords k hk.1 hk.2)

theorem tourCtl_disables (v : Fin 4) (hs : s.dev.f R.SYS_BOOT.STATE = 4) (hp : s.dev.wingPresent v = true)
    (h1 : s.dev.f R.TOUR_CTL.ENABLE v = 1) (hw : bitsOf w 0 1 = 0) :
    Completes (.tourCtlWrite v .full w) s (fun t => t.dev.f R.TOUR_CTL.ENABLE v = 0 ∧ t.dev.colls.map (·.id) = s.dev.colls.map (·.id) ∧
      { t.dev with words := s.dev.words, colls := s.dev.colls, shadowAt := s.dev.shadowAt } = s.dev ∧ SameMem s t ∧
      SameWords s t [R.TOUR_CTL.ENABLE.key v, R.TOUR_ERR.BUSY.key v]) := by
  let d0 := s.dev.writeReg (R.TOUR_CTL.ENABLE.key v) false .full w R.TOUR_ERR.BUSY v
  have heq : s.dev.tourCtlWrite v .full w = d0.tourStop v := tourCtlWrite_disable h1 hw
  have hparts : SameParts s.dev d0 := sameParts_writeReg
  have hoff : (d0.tourStop v).f R.TOUR_CTL.ENABLE v = 0 := by
    have h : d0.f R.TOUR_CTL.ENABLE v = (s.dev.writeFields (R.TOUR_CTL.ENABLE.key v) false .full w).1.f R.TOUR_CTL.ENABLE v :=
      f_writeReg (key_tourBusy_ne v)
    exact h.trans ((f_tourCtl rfl rfl rfl).trans hw)
  have hcolls : d0.colls = s.dev.colls := by have h := congrArg Dev.colls hparts; exact h
  have hat : d0.shadowAt = s.dev.shadowAt := by have h := congrArg Dev.shadowAt hparts; exact h
  have hstop := shadowsFrom_parts (d0.tourStop v) s.dev
  refine ⟨_, exec_tourCtlWrite hs hp (.inr (by rw [heq]; exact hoff)), ?_⟩
  simp only [onDev_dev, heq, f_shadowsFrom]
  refine ⟨hoff, ?_, ?_, sameMem_onDev _ _, ?_⟩
  · have h := congrArg Dev.colls hstop
    rw [show ((d0.tourStop v).shadowsFrom s.dev).colls = (d0.tourStop v).colls from h, Dev.tourStop, ← hcolls]
    simp only [List.map_map]
    refine List.map_congr_left fun x _ => ?_
    simp only [Function.comp]
    split <;> rfl
  · have h := congrArg (fun e : Dev => { e with words := s.dev.words, colls := s.dev.colls }) hstop
    have h' := congrArg (fun e : Dev => { e with colls := s.dev.colls }) hparts
    rw [← hat]
    exact h.trans h'
  · intro k hk
    simp only [List.mem_cons, List.not_mem_nil, or_false, not_or] at hk
    rw [onDev_dev, heq, word_shadowsFrom]
    exact word_writeReg_other hk.1 hk.2

/-! ### TOUR_PROV_IDX -/

theorem tourProvIdx_moves (v : Fin 4) (hs : s.dev.f R.SYS_BOOT.STATE = 4) (hp : s.dev.wingPresent v = true) :
    Completes (.tourProvIdxWrite v .full w) s (fun t =>
      let old := s.dev.f R.TOUR_PROV_IDX.RD v
      let new := bitsOf w 32 32
      t.dev.f R.TOUR_PROV_IDX.RD v =
        (if (new + 2 ^ 32 - old) % 2 ^ 32 ≤ (s.dev.f R.TOUR_PROV_IDX.WR v + 2 ^ 32 - old) % 2 ^ 32 then new else old) ∧
      t.dev.f R.TOUR_PROV_IDX.WR v = s.dev.f R.TOUR_PROV_IDX.WR v ∧ SameMem s t ∧ SameUnits s t ∧ SameWords s t [R.TOUR_PROV_IDX.RD.key v]) := by
  have hold : s.dev.f R.TOUR_PROV_IDX.RD v % 2 ^ 32 = s.dev.f R.TOUR_PROV_IDX.RD v := Nat.mod_eq_of_lt (f_lt _ _ _)
  have hexec : exec (.tourProvIdxWrite v .full w) s = .next (s.onDev (fun x =>
      if idxSub (bitsOf w 32 32) (x.f R.TOUR_PROV_IDX.RD v) ≤ idxSub (x.f R.TOUR_PROV_IDX.WR v) (x.f R.TOUR_PROV_IDX.RD v) then
        x.set R.TOUR_PROV_IDX.RD v (bitsOf w 32 32) else x)) := by
    refine congrArg Host.Outcome.next ((if_pos (by rw [ready_of hs, hp]; rfl)).trans ?_)
    simp only [mergeLanes_full]
  simp only [State.onDev, idxSub, hold] at hexec
  refine ⟨_, hexec, ?_⟩
  dsimp only
  split
  · refine ⟨?_, f_set_apart _ _ _ _ _ _ (.inr (.inr (by decide))), fun _ => rfl, sameParts_set _ _ _ _,
      fun k hk => word_set_other _ _ _ _ (by simpa using hk)⟩
    rw [f_set_same _ _ _ _ (by decide)]
    exact Nat.mod_eq_of_lt (bitsOf_lt _ _ _)
  · exact ⟨rfl, rfl, fun _ => rfl, rfl, fun _ _ => rfl⟩

/-! ### Tour sets -/

theorem exec_tourTsDataAccess_range (a : Access) (hs : s.dev.f R.SYS_BOOT.STATE = 4) (hw : 5 ≤ s.dev.f R.TOUR_TS_SEL.WORD) :
    exec (.tourTsDataAccess a) s = .next (s.onDev (fun d => match a with
      | .read => (d.set R.TOUR_TS_ERR.RANGE 0 1).emit (.readData 0)
      | .write _ _ => d.set R.TOUR_TS_ERR.RANGE 0 1)) := by
  refine congrArg Host.Outcome.next ((if_pos (ready_of hs)).trans ?_)
  cases a <;> simp only [State.onDev, if_pos (Or.inr hw)]

/-- The word in range that an access names, then the advance of the selector. -/
theorem exec_tourTsDataAccess (a : Access) (hs : s.dev.f R.SYS_BOOT.STATE = 4) (hw : s.dev.f R.TOUR_TS_SEL.WORD < 5) :
    exec (.tourTsDataAccess a) s = .next (s.onDev (fun d =>
      (match a with
        | .read => d.emit (.readData (d.tsWord (d.f R.TOUR_TS_SEL.INDEX) (d.f R.TOUR_TS_SEL.WORD)))
        | .write l v => d.tsWrite (d.f R.TOUR_TS_SEL.INDEX) (d.f R.TOUR_TS_SEL.WORD) l v).selNext
          R.TOUR_TS_SEL.AUTOINC R.TOUR_TS_SEL.WORD R.TOUR_TS_SEL.INDEX 5)) := by
  have hi : s.dev.f R.TOUR_TS_SEL.INDEX < 1024 := f_lt _ _ _
  refine congrArg Host.Outcome.next ((if_pos (ready_of hs)).trans ?_)
  cases a <;> simp only [State.onDev, if_neg (show ¬ (1024 ≤ s.dev.f R.TOUR_TS_SEL.INDEX ∨ 5 ≤ s.dev.f R.TOUR_TS_SEL.WORD) by omega)]

theorem tourTs_out_of_range (a : Access) (hs : s.dev.f R.SYS_BOOT.STATE = 4) (hw : 5 ≤ s.dev.f R.TOUR_TS_SEL.WORD) :
    Completes (.tourTsDataAccess a) s (fun t => t.dev.f R.TOUR_TS_ERR.RANGE = 1 ∧ SameMem s t ∧
      SameUnitsBut (match a with | .read => [.readData 0] | .write _ _ => []) s t ∧ SameWords s t [R.TOUR_TS_ERR.RANGE.key 0]) := by
  have hset : (s.dev.set R.TOUR_TS_ERR.RANGE 0 1).f R.TOUR_TS_ERR.RANGE = 1 := f_set_same _ _ _ _ (by decide)
  have hwords : ∀ k ∉ [R.TOUR_TS_ERR.RANGE.key 0], (s.dev.set R.TOUR_TS_ERR.RANGE 0 1).word k = s.dev.word k :=
    fun k hk => word_set_other _ _ _ _ (by simpa using hk)
  refine ⟨_, exec_tourTsDataAccess_range a hs hw, ?_⟩
  cases a with
  | read => exact ⟨hset, sameMem_onDev _ _, ⟨rfl, rfl⟩, hwords⟩
  | write l v => exact ⟨hset, sameMem_onDev _ _, ⟨rfl, (List.append_nil _).symm⟩, hwords⟩

theorem tourTs_read (hs : s.dev.f R.SYS_BOOT.STATE = 4) (hw : s.dev.f R.TOUR_TS_SEL.WORD < 5) :
    Completes (.tourTsDataAccess .read) s (fun t =>
      SameUnitsBut [.readData (s.dev.tsWord (s.dev.f R.TOUR_TS_SEL.INDEX) (s.dev.f R.TOUR_TS_SEL.WORD))] s t ∧ SameMem s t ∧
      SameWords s t [R.TOUR_TS_SEL.WORD.key 0]) := by
  refine ⟨_, exec_tourTsDataAccess .read hs hw, sameUnitsBut_of rfl sameParts_selNext, sameMem_onDev _ _, fun k hk => ?_⟩
  have hk' : k ≠ R.TOUR_TS_SEL.WORD.key 0 := by simpa using hk
  exact word_selNext_other hk' hk'

/-- Word 0 of a tour set. -/
abbrev tourSetRow : LReg := ⟨0x1C000000, 0x10, 1024, .table, 0, [⟨0, 1, .live, 0x0⟩, ⟨1, 3, .static, 0x0⟩, ⟨4, 4, .static, 0x0⟩,
  ⟨8, 3, .static, 0x0⟩, ⟨11, 2, .static, 0x0⟩, ⟨14, 6, .static, 0x0⟩, ⟨20, 4, .live, 0x0⟩, ⟨24, 8, .live, 0x0⟩, ⟨32, 16, .static, 0x0⟩,
  ⟨48, 10, .static, 0x0⟩, ⟨63, 1, .ro, 0x1⟩]⟩

theorem findReg_tourSet {i : Nat} (hi : i < 1024) : findReg layout (R.TOURSET.VALID.key i) = some (tourSetRow, i) :=
  findReg_instance (r := tourSetRow) (by decide +kernel) (by decide) hi

/-- A write of word 0 that sets VALID of an entry neither VALID nor in use. -/
theorem tsWrite_publish {i : Nat} (hi : i < 1024) (hv : d.f R.TOURSET.VALID i = 0) (hb : d.tsBusy i = false) (hw : bitsOf w 0 1 = 1) :
    d.tsWrite i 0 .full w =
      let d1 := d.writeReg (R.TOURSET.VALID.key i) true .full w R.TOUR_TS_ERR.BUSY
      if d1.tsOk i then d1.set R.TOURSET.PRINT i (d1.tsPrint i) else (d1.set R.TOURSET.VALID i 0).set R.TOUR_TS_ERR.MISMATCH 0 1 := by
  have hon : (d.writeReg (R.TOURSET.VALID.key i) true .full w R.TOUR_TS_ERR.BUSY).f R.TOURSET.VALID i = 1 := by
    rw [writeReg_disabled, f_writeFields_full (findReg_tourSet hi) rfl rfl rfl]; exact hw
  simp [Dev.tsWrite, tsKey, Dev.on, hv, hb, hon]

theorem tourTs_publishes (hs : s.dev.f R.SYS_BOOT.STATE = 4) (hword : s.dev.f R.TOUR_TS_SEL.WORD = 0)
    (hv : s.dev.f R.TOURSET.VALID (s.dev.f R.TOUR_TS_SEL.INDEX) = 0) (hb : s.dev.tsBusy (s.dev.f R.TOUR_TS_SEL.INDEX) = false)
    (hw : bitsOf w 0 1 = 1) :
    Completes (.tourTsDataAccess (.write .full w)) s (fun t =>
      let i := s.dev.f R.TOUR_TS_SEL.INDEX
      let d := s.dev.writeReg (R.TOURSET.VALID.key i) true .full w R.TOUR_TS_ERR.BUSY
      t.dev.f R.TOURSET.N_LOG i = bitsOf w 1 3 ∧ t.dev.f R.TOURSET.RINGS i = bitsOf w 4 4 ∧ t.dev.f R.TOURSET.WINGS i = bitsOf w 8 3 ∧
      t.dev.f R.TOURSET.LOCAL i = bitsOf w 14 6 ∧ t.dev.f R.TOURSET.TENANT i = bitsOf w 48 10 ∧
      (if d.tsOk i then t.dev.f R.TOURSET.VALID i = 1 ∧ t.dev.f R.TOURSET.PRINT i = d.tsPrint i
       else t.dev.f R.TOURSET.VALID i = 0 ∧ t.dev.f R.TOUR_TS_ERR.MISMATCH = 1) ∧ SameMem s t ∧ SameUnits s t ∧
      SameWords s t [R.TOURSET.VALID.key i, R.TOURSET.PRINT.key i, R.TOUR_TS_ERR.MISMATCH.key 0, R.TOUR_TS_SEL.WORD.key 0]) := by
  have hi : s.dev.f R.TOUR_TS_SEL.INDEX < 1024 := f_lt _ _ _
  have hexec := exec_tourTsDataAccess (.write .full w) hs (by omega)
  dsimp only [State.onDev] at hexec
  rw [hword, tsWrite_publish hi hv hb hw] at hexec
  generalize s.dev.f R.TOUR_TS_SEL.INDEX = i at hi hexec
  refine ⟨_, hexec, ?_⟩
  have hkv : R.TOURSET.VALID.key i = 0x1C000000 + 0x10 * i := rfl
  have hkp : R.TOURSET.PRINT.key i = 0x1C000001 + 0x10 * i := rfl
  have hks : R.TOUR_TS_SEL.WORD.key 0 = 0x500040 := rfl
  have hke : R.TOUR_TS_ERR.MISMATCH.key 0 = 0x500050 := rfl
  let d1 := s.dev.writeReg (R.TOURSET.VALID.key i) true .full w R.TOUR_TS_ERR.BUSY
  let d2 := if d1.tsOk i then d1.set R.TOURSET.PRINT i (d1.tsPrint i) else (d1.set R.TOURSET.VALID i 0).set R.TOUR_TS_ERR.MISMATCH 0 1
  have hd1 : d1 = (s.dev.writeFields (R.TOURSET.VALID.key i) true .full w).1 := writeReg_disabled
  have hparts : SameParts s.dev d2 := by
    unfold d2
    split
    · exact sameParts_writeReg.trans (sameParts_set _ _ _ _)
    · exact sameParts_writeReg.trans ((sameParts_set _ _ _ _).trans (sameParts_set _ _ _ _))
  have hsel {x : Fld} {j : Nat} (h : x.key j ≠ 0x500040) :
      (d2.selNext R.TOUR_TS_SEL.AUTOINC R.TOUR_TS_SEL.WORD R.TOUR_TS_SEL.INDEX 5).f x j = d2.f x j := f_selNext_other h h
  have hfield {x : Fld} {g : LField} (hk : x.key i = R.TOURSET.VALID.key i) (hg : fieldAt tourSetRow x = some g)
      (ht : takes true g.kind = true) : d1.f x i = bitsOf w x.lo x.w := by
    rw [hd1]; exact f_writeFields_full (findReg_tourSet hi) hk hg ht
  have hkept {x : Fld} {g : LField} (hk : x.key i = R.TOURSET.VALID.key i) (hg : fieldAt tourSetRow x = some g)
      (ht : takes true g.kind = true) (hlo : 1 ≤ x.lo) :
      (d2.selNext R.TOUR_TS_SEL.AUTOINC R.TOUR_TS_SEL.WORD R.TOUR_TS_SEL.INDEX 5).f x i = bitsOf w x.lo x.w := by
    rw [hsel (by omega)]
    unfold d2
    split
    · rw [f_set_apart _ _ _ _ _ _ (.inl (by omega)), hfield hk hg ht]
    · rw [f_set_apart _ _ _ _ _ _ (.inl (by omega)), f_set_apart _ _ _ _ _ _ (.inr (.inl (show R.TOURSET.VALID.lo + R.TOURSET.VALID.w ≤ x.lo from hlo))),
        hfield hk hg ht]
  refine ⟨hkept rfl rfl rfl (by decide), hkept rfl rfl rfl (by decide), hkept rfl rfl rfl (by decide), hkept rfl rfl rfl (by decide),
    hkept rfl rfl rfl (by decide), ?_, fun _ => rfl, hparts.trans sameParts_selNext, fun k hk => ?_⟩
  · have hvalid := hsel (x := R.TOURSET.VALID) (j := i) (by omega)
    have hprint := hsel (x := R.TOURSET.PRINT) (j := i) (by omega)
    have hmis := hsel (x := R.TOUR_TS_ERR.MISMATCH) (j := 0) (by omega)
    by_cases hok : d1.tsOk i = true
    · have hd2 : d2 = d1.set R.TOURSET.PRINT i (d1.tsPrint i) := if_pos hok
      rw [if_pos hok]
      refine ⟨hvalid.trans ?_, hprint.trans ?_⟩
      · rw [hd2, f_set_apart _ _ _ _ _ _ (.inl (by omega))]
        exact (hfield rfl rfl rfl).trans hw
      · rw [hd2, f_set_same _ _ _ _ (by decide)]
        exact Nat.mod_eq_of_lt (BitVec.isLt _)
    · have hd2 : d2 = (d1.set R.TOURSET.VALID i 0).set R.TOUR_TS_ERR.MISMATCH 0 1 := if_neg hok
      rw [if_neg hok]
      refine ⟨hvalid.trans ?_, hmis.trans ?_⟩
      · rw [hd2, f_set_apart _ _ _ _ _ _ (.inl (by omega)), f_set_same _ _ _ _ (by decide)]; rfl
      · rw [hd2, f_set_same _ _ _ _ (by decide)]; rfl
  · simp only [List.mem_cons, List.not_mem_nil, or_false, not_or] at hk
    obtain ⟨hkvalid, hkprint, hkmis, hkword⟩ := hk
    have hk1 : d1.word k = s.dev.word k := by rw [hd1]; exact word_writeFields_other hkvalid
    refine (word_selNext_other (d := d2) (index := R.TOUR_TS_SEL.INDEX) hkword hkword).trans ?_
    show d2.word k = s.dev.word k
    unfold d2
    split
    · rw [word_set_other _ _ _ _ hkprint, hk1]
    · rw [word_set_other _ _ _ _ hkmis, word_set_other _ _ _ _ hkvalid, hk1]

/-- Settles O39, clause by clause: the engine's write, an absent wing, the provenance index, and the accesses of a tour set. -/
theorem tourSetsAndEnginesAreEnabledAfterTheirChecks : Obligations.TourSetsAndEnginesAreEnabledAfterTheirChecks :=
  ⟨fun v _ _ hs hp h0 hb hc hw => tourCtl_enables v hs hp h0 hb hc hw, fun v _ _ hs hp h1 hw => tourCtl_disables v hs hp h1 hw,
    fun _ _ _ hp => ⟨⟨_, exec_tourCtlWrite_absent hp, rfl⟩, ⟨_, exec_tourProvIdxWrite_absent hp, rfl⟩⟩,
    fun v _ _ hs hp => tourProvIdx_moves v hs hp, fun a _ hs hw => tourTs_out_of_range a hs hw, fun _ hs hw => tourTs_read hs hw,
    fun _ _ hs hword hv hb hw => tourTs_publishes hs hword hv hb hw⟩

end Sys2Proof.Laws
end

section
/-! Codec slots, CODEC_STAGE and CODEC_BUILD (R11, R15, R16, R139, R142, R145). -/

namespace Sys2Proof.Laws

open Sys2Proof Sys2Proof.Machine

variable {v : Word} {s : State} {d : Dev}

@[simp] theorem wrote_full (v : Word) (x : Fld) : wrote .full v x = bitsOf v x.lo x.w := by rw [wrote, laneData, and_laneMask_full]

theorem bitsOf_zero (v : Word) (n : Nat) : bitsOf v 0 n = v.toNat % 2 ^ n := by simp [bitsOf]

/-! ### Registers whose fields all keep their values -/

theorem foldl_writeField_kept {fields : List LField} {dis : Bool} {l : Lanes} {old new : Word} (h : ∀ g ∈ fields, keeps dis g.kind = true)
    (acc : Word × Bool) : (fields.foldl (writeField dis l old new) acc).1 = acc.1 := by
  induction fields generalizing acc with
  | nil => rfl
  | cons g t ih =>
    rw [List.foldl_cons, ih fun g' hg' => h g' (List.mem_cons_of_mem _ hg')]
    have hg := h g List.mem_cons_self
    unfold writeField
    cases hk : g.kind with
    | ro => rfl
    | cmd => rfl
    | static =>
      dsimp only
      split
      · rfl
      · rw [hk] at hg
        rw [if_neg (by simpa [keeps] using hg)]
    | _ => rw [hk] at hg; cases hg

/-- A register whose fields all keep their values reads as before. -/
theorem word_writeFields_kept {key i : Nat} {r : LReg} {dis : Bool} {l : Lanes} (hr : findReg layout key = some (r, i))
    (h : ∀ g ∈ r.fields, keeps dis g.kind = true) (k : Nat) : (d.writeFields key dis l v).1.word k = d.word k := by
  by_cases hk : k = key
  · subst hk
    simp only [Dev.writeFields, hr, word_setWord_same]
    exact foldl_writeField_kept h _
  · exact word_writeFields_other hk

/-! ### Slots -/

theorem slotKey_eq (n k : Nat) : slotKey n k = 0x20000000 + 16 * n + k := rfl

/-- The access of the slot's word that the selector names, then the advance of the selector. -/
theorem exec_codecSlotDataAccess (a : Access) (hs : s.dev.f R.SYS_BOOT.STATE = 4) :
    exec (.codecSlotDataAccess a) s = .next (s.onDev (fun d =>
      (match a with
        | .read => d.emit (.readData (d.slotWord (d.f R.CODEC_SLOT_SEL.INDEX) (d.f R.CODEC_SLOT_SEL.WORD)))
        | .write l v => d.slotWrite (d.f R.CODEC_SLOT_SEL.INDEX) (d.f R.CODEC_SLOT_SEL.WORD) l v).selNext
          R.CODEC_SLOT_SEL.AUTOINC R.CODEC_SLOT_SEL.WORD R.CODEC_SLOT_SEL.INDEX 4)) := by
  have hi : s.dev.f R.CODEC_SLOT_SEL.INDEX < 8192 := f_lt _ _ _
  refine congrArg Host.Outcome.next ((if_pos (ready_of hs)).trans ?_)
  cases a <;> simp only [State.onDev, if_neg (show ¬ 8192 ≤ s.dev.f R.CODEC_SLOT_SEL.INDEX by omega)]

theorem codecSlot_read_word0 {n : Nat} (hs : s.dev.f R.SYS_BOOT.STATE = 4) (hn : s.dev.f R.CODEC_SLOT_SEL.INDEX = n)
    (hw : s.dev.f R.CODEC_SLOT_SEL.WORD = 0) (ha : s.dev.f R.CODEC_SLOT_SEL.AUTOINC = 0) :
    Completes (.codecSlotDataAccess .read) s (fun t => SameMem s t ∧ SameWords s t [] ∧
      SameUnitsBut [.readData (setBits (s.dev.word (R.SLOT.VALID.key n)) 63 1
        (if s.dev.f R.SLOT.REF0 n = 0 ∧ s.dev.f R.SLOT.REF1 n = 0 then 1 else 0))] s t) := by
  have hword : s.dev.slotWord n 0 = setBits (s.dev.word (R.SLOT.VALID.key n)) 63 1
      (if s.dev.f R.SLOT.REF0 n = 0 ∧ s.dev.f R.SLOT.REF1 n = 0 then 1 else 0) := by
    simp [Dev.slotWord, Dev.slotIdle, b2n, slotKey_eq, Fld.key]
  have hexec := exec_codecSlotDataAccess .read hs
  dsimp only [State.onDev] at hexec
  rw [hn, hw, hword, selNext_off (show (s.dev.emit _).f R.CODEC_SLOT_SEL.AUTOINC = 0 from ha)] at hexec
  exact ⟨_, hexec, fun _ => rfl, fun _ _ => rfl, rfl, rfl⟩

/-- From the last word an automatic selector goes to word 0 of the next entry. -/
theorem selNext_wrap {auto word index : Fld} {n : Nat} (ha : d.f auto = 1) (hw : n ≤ d.f word + 1) :
    d.selNext auto word index n = (d.set word 0 0).set index 0 (d.f index + 1) := by
  unfold Dev.selNext
  rw [if_pos (by simp [Dev.on, ha]), if_neg (by omega)]

theorem codecSlot_read_last (hs : s.dev.f R.SYS_BOOT.STATE = 4) (hw : s.dev.f R.CODEC_SLOT_SEL.WORD = 3)
    (ha : s.dev.f R.CODEC_SLOT_SEL.AUTOINC = 1) :
    Completes (.codecSlotDataAccess .read) s (fun t => t.dev.f R.CODEC_SLOT_SEL.WORD = 0 ∧
      t.dev.f R.CODEC_SLOT_SEL.INDEX = (s.dev.f R.CODEC_SLOT_SEL.INDEX + 1) % 8192 ∧ SameMem s t ∧ SameWords s t [R.CODEC_SLOT_SEL.INDEX.key 0] ∧
      SameUnitsBut [.readData (s.dev.word (R.SLOT.HCOUNT.key (s.dev.f R.CODEC_SLOT_SEL.INDEX)))] s t) := by
  have hword : s.dev.slotWord (s.dev.f R.CODEC_SLOT_SEL.INDEX) 3 = s.dev.word (R.SLOT.HCOUNT.key (s.dev.f R.CODEC_SLOT_SEL.INDEX)) :=
    congrArg s.dev.word (show 0x20000000 + 16 * _ + 3 = 0x20000003 + 0x10 * _ by omega)
  have hexec := exec_codecSlotDataAccess .read hs
  dsimp only [State.onDev] at hexec
  rw [hw, hword, selNext_wrap (show (s.dev.emit _).f R.CODEC_SLOT_SEL.AUTOINC = 1 from ha)
    (by rw [show (s.dev.emit _).f R.CODEC_SLOT_SEL.WORD = 3 from hw])] at hexec
  refine ⟨_, hexec, ?_, f_set_same _ _ _ _ (by decide), fun _ => rfl, fun k hk => ?_, rfl, rfl⟩
  · exact (f_set_apart _ _ _ _ _ _ (.inr (.inr (by decide)))).trans (f_set_same _ _ _ _ (by decide))
  · have hk' : k ≠ R.CODEC_SLOT_SEL.INDEX.key 0 := by simpa using hk
    exact (word_set_other _ _ _ _ hk').trans (word_set_other _ _ _ _ hk')

/-- Word 1 of a slot. -/
abbrev slotTidRow : LReg := ⟨0x20000001, 0x10, 8192, .table, 0, [⟨0, 32, .static, 0x0⟩, ⟨32, 12, .ro, 0x0⟩, ⟨44, 12, .ro, 0x0⟩, ⟨56, 4, .ro, 0x0⟩]⟩

theorem findReg_slotTid {n : Nat} (hn : n < 8192) : findReg layout (R.SLOT.TID.key n) = some (slotTidRow, n) :=
  findReg_instance (r := slotTidRow) (by decide +kernel) (by decide) hn

/-- A write of word 1 of a slot, the selector not automatic. -/
theorem exec_codecSlot_writeTid {n : Nat} {dis : Bool} (hs : s.dev.f R.SYS_BOOT.STATE = 4) (hn : s.dev.f R.CODEC_SLOT_SEL.INDEX = n)
    (hw : s.dev.f R.CODEC_SLOT_SEL.WORD = 1) (ha : s.dev.f R.CODEC_SLOT_SEL.AUTOINC = 0)
    (hdis : (!s.dev.on R.SLOT.VALID n && s.dev.slotIdle n) = dis) :
    exec (.codecSlotDataAccess (.write .full v)) s = .next (s.onDev (fun d => d.writeReg (R.SLOT.TID.key n) dis .full v R.CODEC_ERR.BUSY)) := by
  have hkey : slotKey n 1 = R.SLOT.TID.key n :=
    show 0x20000000 + 16 * n + 1 = 0x20000001 + 0x10 * n by omega
  have hwrite : s.dev.slotWrite n 1 .full v = s.dev.writeReg (R.SLOT.TID.key n) dis .full v R.CODEC_ERR.BUSY := by
    simp only [Dev.slotWrite, hkey, hdis]; rfl
  have hauto : (s.dev.writeReg (R.SLOT.TID.key n) dis .full v R.CODEC_ERR.BUSY).f R.CODEC_SLOT_SEL.AUTOINC = 0 :=
    (f_writeReg_other (by simp only [Fld.key]; omega) (by decide)).trans ha
  have hexec := exec_codecSlotDataAccess (.write .full v) hs
  dsimp only [State.onDev] at hexec
  rw [hn, hw, hwrite, selNext_off hauto] at hexec
  exact hexec

theorem codecSlot_write_idle {n : Nat} (hs : s.dev.f R.SYS_BOOT.STATE = 4) (hn : s.dev.f R.CODEC_SLOT_SEL.INDEX = n)
    (hw : s.dev.f R.CODEC_SLOT_SEL.WORD = 1) (ha : s.dev.f R.CODEC_SLOT_SEL.AUTOINC = 0) (hv : s.dev.f R.SLOT.VALID n = 0)
    (h0 : s.dev.f R.SLOT.REF0 n = 0) (h1 : s.dev.f R.SLOT.REF1 n = 0) :
    Completes (.codecSlotDataAccess (.write .full v)) s (fun t => t.dev.f R.SLOT.TID n = v.toNat % 2 ^ 32 ∧ SameMem s t ∧ SameUnits s t ∧
      SameWords s t [R.SLOT.TID.key n]) := by
  have hlt : n < 8192 := hn ▸ f_lt _ _ _
  have hexec := exec_codecSlot_writeTid (v := v) (dis := true) hs hn hw ha (by simp [Dev.on, Dev.slotIdle, hv, h0, h1])
  simp only [writeReg_disabled] at hexec
  refine ⟨_, hexec, ?_, fun _ => rfl, sameUnits_writeFields, sameWords_writeFields⟩
  rw [← bitsOf_zero]
  exact f_writeFields_full (findReg_slotTid hlt) rfl rfl rfl

theorem codecSlot_write_valid {n : Nat} (hs : s.dev.f R.SYS_BOOT.STATE = 4) (hn : s.dev.f R.CODEC_SLOT_SEL.INDEX = n)
    (hw : s.dev.f R.CODEC_SLOT_SEL.WORD = 1) (ha : s.dev.f R.CODEC_SLOT_SEL.AUTOINC = 0) (hv : s.dev.f R.SLOT.VALID n = 1)
    (htid : s.dev.f R.SLOT.TID n ≠ v.toNat % 2 ^ 32) :
    Completes (.codecSlotDataAccess (.write .full v)) s (fun t => t.dev.f R.CODEC_ERR.BUSY = 1 ∧ SameMem s t ∧ SameUnits s t ∧
      SameWords s t [R.CODEC_ERR.BUSY.key 0]) := by
  have hlt : n < 8192 := hn ▸ f_lt _ _ _
  have hbusy : slotTidRow.fields.any (fieldBusy false .full (s.dev.word (R.SLOT.TID.key n)) v) = true := by
    refine List.any_eq_true.mpr ⟨⟨0, 32, .static, 0x0⟩, List.mem_cons_self, ?_⟩
    simp only [fieldBusy, mergeLanes_full, bitsOf_zero v]
    simpa [Dev.f] using Ne.symm htid
  refine ⟨_, exec_codecSlot_writeTid (dis := false) hs hn hw ha (by simp [Dev.on, hv]), ?_, fun _ => rfl, sameUnits_writeReg, fun k hk => ?_⟩
  · rw [onDev_dev, busy_writeReg (findReg_slotTid hlt) (by simp only [Fld.key]; omega) rfl (by decide), if_pos hbusy]
  · have hk' : k ≠ R.CODEC_ERR.BUSY.key 0 := by simpa using hk
    have hkept := word_writeFields_kept (d := s.dev) (v := v) (dis := false) (l := .full) (findReg_slotTid hlt) (by simp [keeps]) k
    simp only [onDev_dev, Dev.writeReg]
    split
    · exact (word_set_other _ _ _ _ hk').trans hkept
    · exact hkept

/-! ### CODEC_STAGE and STAGING_COMPLETE -/

abbrev codecStageRow : LReg := ⟨0x600020, 0x0, 1, .none, 0, [⟨0, 13, .live, 0x0⟩, ⟨16, 4, .live, 0x0⟩, ⟨31, 1, .cmd, 0x0⟩, ⟨32, 1, .ro, 0x0⟩]⟩

theorem findReg_codecStage : findReg layout (R.CODEC_STAGE.SLOT.key 0) = some (codecStageRow, 0) :=
  by decide +kernel

/-- The block with the fields of a full write of CODEC_STAGE taken. -/
def stageWritten (d : Dev) (v : Word) : Dev := (d.writeFields (R.CODEC_STAGE.SLOT.key 0) true .full v).1

theorem sameParts_stageWritten : SameParts d (stageWritten d v) := sameParts_writeFields
theorem word_stageWritten {k : Nat} (h : k ≠ R.CODEC_STAGE.SLOT.key 0) : (stageWritten d v).word k = d.word k := word_writeFields_other h

theorem slotKey_ne_stage (n : Nat) : R.SLOT.VALID.key n ≠ R.CODEC_STAGE.SLOT.key 0 := by simp only [Fld.key]; omega

theorem active_stageWritten (n : Nat) : (stageWritten d v).f R.SLOT.ACTIVE n = d.f R.SLOT.ACTIVE n := f_writeFields_other (slotKey_ne_stage n)

theorem installed_stageWritten (n k : Nat) : (stageWritten d v).installed n k = d.installed n k := by
  have h0 : (stageWritten d v).f R.SLOT.OK0 n = d.f R.SLOT.OK0 n := f_writeFields_other (slotKey_ne_stage n)
  have h1 : (stageWritten d v).f R.SLOT.OK1 n = d.f R.SLOT.OK1 n := f_writeFields_other (slotKey_ne_stage n)
  simp only [Dev.installed, Dev.on, h0, h1]

theorem wingEnabled_stageWritten (w : Nat) : (stageWritten d v).wingEnabled w = d.wingEnabled w := by
  have hmask : (stageWritten d v).f R.GLOBAL_ID.WING_MASK = d.f R.GLOBAL_ID.WING_MASK := f_writeFields_other (by decide)
  have hfence : (stageWritten d v).f R.HEALTH_FENCE.FENCED = d.f R.HEALTH_FENCE.FENCED := f_writeFields_other (by decide)
  simp only [Dev.wingEnabled, Dev.wingPresent, Dev.fenced, hmask, hfence]

theorem slot_stageWritten : (stageWritten d v).f R.CODEC_STAGE.SLOT = bitsOf v 0 13 := f_writeFields_full findReg_codecStage rfl rfl rfl
theorem wings_stageWritten : (stageWritten d v).f R.CODEC_STAGE.WINGS = bitsOf v 16 4 := f_writeFields_full findReg_codecStage rfl rfl rfl
theorem go_stageWritten : (stageWritten d v).f R.CODEC_STAGE.GO = d.f R.CODEC_STAGE.GO := f_writeFields_kept findReg_codecStage rfl rfl rfl

theorem exec_codecStage_uninstalled {n : Nat} (hs : s.dev.f R.SYS_BOOT.STATE = 4) (hgo : s.dev.f R.CODEC_STAGE.GO = 0) (hw : bitsOf v 31 1 = 1)
    (hn : bitsOf v 0 13 = n) (hi : s.dev.installed n (s.dev.f R.SLOT.ACTIVE n) = false) :
    exec (.codecStage .full v) s = .next (s.onDev (fun d => (stageWritten d v).set R.CODEC_STAGE.FAIL 0 1)) := by
  have hslot := (slot_stageWritten (d := s.dev)).trans hn
  have hinst := (installed_stageWritten (d := s.dev) (v := v) n (s.dev.f R.SLOT.ACTIVE n)).trans hi
  have hact := active_stageWritten (d := s.dev) (v := v) n
  refine congrArg Host.Outcome.next ((if_pos (ready_of hs)).trans ?_)
  simp only [State.onDev]
  rw [show (s.dev.writeFields (R.CODEC_STAGE.SLOT.key 0) true .full v).1 = stageWritten s.dev v from rfl]
  generalize stageWritten s.dev v = d1 at hslot hinst hact
  simp [Dev.on, hgo, hw, hslot, hact, hinst]

theorem codecStage_uninstalled {n : Nat} (hs : s.dev.f R.SYS_BOOT.STATE = 4) (hgo : s.dev.f R.CODEC_STAGE.GO = 0) (hw : bitsOf v 31 1 = 1)
    (hn : bitsOf v 0 13 = n) (hi : s.dev.installed n (s.dev.f R.SLOT.ACTIVE n) = false) :
    Completes (.codecStage .full v) s (fun t => t.dev.f R.CODEC_STAGE.FAIL = 1 ∧ t.dev.f R.CODEC_STAGE.GO = 0 ∧ t.dev.f R.CODEC_STAGE.SLOT = n ∧
      SameMem s t ∧ SameUnits s t ∧ SameWords s t [R.CODEC_STAGE.SLOT.key 0]) := by
  refine ⟨_, exec_codecStage_uninstalled hs hgo hw hn hi, f_set_same _ _ _ _ (by decide), ?_, ?_, fun _ => rfl,
    sameParts_stageWritten.trans (sameParts_set _ _ _ _), fun k hk => ?_⟩
  · exact (f_set_apart _ _ _ _ _ _ (.inr (.inr (by decide)))).trans (go_stageWritten.trans hgo)
  · exact (f_set_apart _ _ _ _ _ _ (.inr (.inr (by decide)))).trans (slot_stageWritten.trans hn)
  · have hk' : k ≠ R.CODEC_STAGE.SLOT.key 0 := by simpa using hk
    exact (word_set_other _ R.CODEC_STAGE.FAIL _ _ hk').trans (word_stageWritten hk')

/-- A table not there, in a wing with room for it, is asked for. -/
theorem stage_new {w n ver : Nat} (h : d.staged.any (fun e => e.wing == w && e.slot == n && e.ver == ver) = false)
    (hroom : (d.staged.filter (fun e => e.wing == w)).length < 512) :
    d.stage w n ver false = ({ d with staged := d.staged ++ [⟨w, n, ver, false, false⟩] }, true) := by
  have hnone : (d.staged.filter (fun e => e.wing == w)).find? (fun e => e.slot == n && e.ver == ver) = none := by
    rw [List.find?_eq_none]
    intro e he
    obtain ⟨hmem, hwing⟩ := List.mem_filter.mp he
    have := List.any_eq_false.mp h e hmem
    simp only [hwing, Bool.true_and] at this
    exact this
  unfold Dev.stage
  simp only [hnone]
  rw [if_neg (by simp), if_pos hroom]

theorem bitsSet_two_pow (w : Fin 4) : bitsSet 4 (2 ^ w.val) = [w.val] := by revert w; decide

/-- The block that has asked for one table. -/
def askedFor (d : Dev) (v : Word) (e : TabEnt) : Dev :=
  { ((stageWritten d v).set R.CODEC_STAGE.FAIL 0 0).set R.CODEC_STAGE.GO 0 1 with staged := d.staged ++ [e], stageReq := [(e.slot, e.ver, e.wing)] }

theorem words_askedFor (e : TabEnt) :
    (askedFor d v e).words = (((stageWritten d v).set R.CODEC_STAGE.FAIL 0 0).set R.CODEC_STAGE.GO 0 1).words := rfl

theorem f_askedFor (e : TabEnt) (x : Fld) (j : Nat) :
    (askedFor d v e).f x j = (((stageWritten d v).set R.CODEC_STAGE.FAIL 0 0).set R.CODEC_STAGE.GO 0 1).f x j := by
  rw [Dev.f, Dev.word, words_askedFor, Dev.f, Dev.word]

theorem word_askedFor (e : TabEnt) {k : Nat} (h : k ≠ R.CODEC_STAGE.SLOT.key 0) : (askedFor d v e).word k = d.word k := by
  rw [Dev.word, words_askedFor, ← Dev.word, word_set_other _ R.CODEC_STAGE.GO _ _ h, word_set_other _ R.CODEC_STAGE.FAIL _ _ h,
    word_stageWritten h]

section Asking

variable {n : Nat} (w : Fin 4) (hs : s.dev.f R.SYS_BOOT.STATE = 4) (hgo : s.dev.f R.CODEC_STAGE.GO = 0)
  (hw : bitsOf v 31 1 = 1) (hn : bitsOf v 0 13 = n) (hwings : bitsOf v 16 4 = 2 ^ w.val) (hwing : s.dev.wingEnabled w = true)
  (hi : s.dev.installed n (s.dev.f R.SLOT.ACTIVE n) = true)
  (hnew : s.dev.staged.any (fun e => e.wing == w.val && e.slot == n && e.ver == s.dev.f R.SLOT.ACTIVE n) = false)
  (hroom : (s.dev.staged.filter (fun e => e.wing == w.val)).length < 512)
include hs hgo hw hn hwings hwing hi hnew hroom

theorem exec_codecStage_new :
    exec (.codecStage .full v) s = .next (s.onDev (fun d => askedFor d v ⟨w, n, s.dev.f R.SLOT.ACTIVE n, false, false⟩)) := by
  have hstaged : (stageWritten s.dev v).staged = s.dev.staged := by
    have h := congrArg Dev.staged (sameParts_stageWritten (d := s.dev) (v := v)); exact h
  have hstage := stage_new (d := stageWritten s.dev v) (w := w.val) (n := n) (ver := s.dev.f R.SLOT.ACTIVE n) (by rw [hstaged, hnew])
    (by rw [hstaged]; exact hroom)
  have hslot := (slot_stageWritten (d := s.dev)).trans hn
  have hset := (wings_stageWritten (d := s.dev)).trans hwings
  have hinst := (installed_stageWritten (d := s.dev) (v := v) n (s.dev.f R.SLOT.ACTIVE n)).trans hi
  have hact := active_stageWritten (d := s.dev) (v := v) n
  have hen := (wingEnabled_stageWritten (d := s.dev) (v := v) w).trans hwing
  rw [hstaged] at hstage
  refine congrArg Host.Outcome.next ((if_pos (ready_of hs)).trans ?_)
  simp only [State.onDev, askedFor]
  rw [show (s.dev.writeFields (R.CODEC_STAGE.SLOT.key 0) true .full v).1 = stageWritten s.dev v from rfl]
  generalize stageWritten s.dev v = d1 at hstage hslot hset hinst hact hen hstaged
  simp [Dev.on, hgo, hw, hslot, hact, hinst, hset, bitsSet_two_pow, hen, hstage, b2n, Dev.set, Dev.setWord, Dev.word]

theorem codecStage_new :
    Completes (.codecStage .full v) s (fun t => t.dev.f R.CODEC_STAGE.FAIL = 0 ∧ t.dev.f R.CODEC_STAGE.GO = 1 ∧
      t.dev.staged = s.dev.staged ++ [⟨w, n, s.dev.f R.SLOT.ACTIVE n, false, false⟩] ∧ t.dev.stageReq = [(n, s.dev.f R.SLOT.ACTIVE n, w.val)] ∧
      SameMem s t ∧ SameWords s t [R.CODEC_STAGE.SLOT.key 0]) := by
  refine ⟨_, exec_codecStage_new w hs hgo hw hn hwings hwing hi hnew hroom, ?_, ?_, rfl, rfl, fun _ => rfl,
    fun k hk => word_askedFor _ (by simpa using hk)⟩
  · rw [onDev_dev, f_askedFor, f_set_apart _ _ _ _ _ _ (.inr (.inl (by decide))), f_set_same _ _ _ _ (by decide)]; rfl
  · rw [onDev_dev, f_askedFor, f_set_same _ _ _ _ (by decide)]; rfl

end Asking

theorem stagingComplete_last (n : Fin 8192) (ver : Fin 2) (w : Fin 4) (hreq : s.dev.stageReq = [(n.val, ver.val, w.val)])
    (hst : s.dev.staged.any (fun e => e.wing == w.val && e.slot == n.val && e.ver == ver.val && !e.ready) = true) :
    Completes (.stagingComplete n ver w) s (fun t => t.dev.isStaged w n ver = true ∧ t.dev.f R.CODEC_STAGE.GO = 0 ∧ t.dev.stageReq = [] ∧
      t.dev.staged.length = s.dev.staged.length ∧ SameMem s t ∧ SameWords s t [R.CODEC_STAGE.GO.key 0] ∧
      { t.dev with words := s.dev.words, staged := s.dev.staged, stageReq := s.dev.stageReq } = s.dev) := by
  have hexec : exec (.stagingComplete n ver w) s = .next (s.onDev (fun d => ({ d with
      staged := d.staged.map (fun (e : TabEnt) => if e.wing = w.val ∧ e.slot = n.val ∧ e.ver = ver.val then { e with ready := true } else e),
      stageReq := [] } : Dev).set R.CODEC_STAGE.GO 0 0)) := by
    refine congrArg Host.Outcome.next ?_
    simp only [State.onDev]
    rw [if_pos hst, hreq]
    simp
  refine ⟨_, hexec, ?_, f_set_same _ _ _ _ (by decide), rfl, List.length_map _, fun _ => rfl,
    fun k hk => word_set_other _ _ _ _ (by simpa using hk), rfl⟩
  obtain ⟨e, hmem, he⟩ := List.any_eq_true.mp hst
  simp only [Bool.and_eq_true, beq_iff_eq] at he
  obtain ⟨⟨⟨hwing, hslot⟩, hver⟩, -⟩ := he
  refine List.any_eq_true.mpr ⟨{ e with ready := true }, List.mem_map.mpr ⟨e, hmem, if_pos ⟨hwing, hslot, hver⟩⟩, ?_⟩
  simp [hwing, hslot, hver]

/-! ### CODEC_BUILD -/

abbrev codecBuildRow : LReg := ⟨0x600028, 0x0, 1, .none, 0, [⟨0, 13, .live, 0x0⟩, ⟨31, 1, .cmd, 0x0⟩, ⟨32, 1, .ro, 0x0⟩]⟩

theorem findReg_codecBuild : findReg layout (R.CODEC_BUILD.SLOT.key 0) = some (codecBuildRow, 0) :=
  by decide +kernel

theorem codecBuild_starts (hs : s.dev.f R.SYS_BOOT.STATE = 4) (hgo : s.dev.f R.CODEC_BUILD.GO = 0) (hw : bitsOf v 31 1 = 1) :
    Completes (.codecBuild .full v) s (fun t => t.dev.f R.CODEC_BUILD.GO = 1 ∧ t.dev.f R.CODEC_BUILD.SLOT = v.toNat % 8192 ∧
      t.dev.f R.CODEC_BUILD.EMPTY = s.dev.f R.CODEC_BUILD.EMPTY ∧ SameMem s t ∧ SameUnits s t ∧ SameWords s t [R.CODEC_BUILD.GO.key 0]) := by
  have hexec : exec (.codecBuild .full v) s = .next (s.onDev (fun d =>
      (d.writeFields (R.CODEC_BUILD.SLOT.key 0) true .full v).1.set R.CODEC_BUILD.GO 0 1)) := by
    refine congrArg Host.Outcome.next ((if_pos (ready_of hs)).trans ?_)
    simp only [State.onDev]
    rw [if_neg (by simp [Dev.on, hgo]), if_pos (by simp [hw])]
  refine ⟨_, hexec, f_set_same _ _ _ _ (by decide), ?_, ?_, fun _ => rfl, sameParts_writeFields.trans (sameParts_set _ _ _ _), fun k hk => ?_⟩
  · rw [← show bitsOf v 0 13 = v.toNat % 8192 from bitsOf_zero v 13]
    exact (f_set_apart _ _ _ _ _ _ (.inr (.inr (by decide)))).trans (f_writeFields_full findReg_codecBuild rfl rfl rfl)
  · exact (f_set_apart _ _ _ _ _ _ (.inr (.inl (by decide)))).trans (f_writeFields_kept findReg_codecBuild rfl rfl rfl)
  · have hk' : k ≠ R.CODEC_BUILD.GO.key 0 := by simpa using hk
    exact (word_set_other _ _ _ _ hk').trans (word_writeFields_other hk')

/-- The block at the end of a build. -/
def built (d : Dev) (n e : Nat) : Dev :=
  { ((d.set R.SLOT.HCOUNT n 0).set R.CODEC_BUILD.GO 0 0).set R.CODEC_BUILD.EMPTY 0 e with hists := tabDel n d.hists }

theorem f_built (n e : Nat) (x : Fld) (j : Nat) :
    (built d n e).f x j = (((d.set R.SLOT.HCOUNT n 0).set R.CODEC_BUILD.GO 0 0).set R.CODEC_BUILD.EMPTY 0 e).f x j := rfl

theorem word_built (n e k : Nat) :
    (built d n e).word k = (((d.set R.SLOT.HCOUNT n 0).set R.CODEC_BUILD.GO 0 0).set R.CODEC_BUILD.EMPTY 0 e).word k := rfl

theorem hists_filter_ne (h : List (Nat × List (Nat × Nat))) (n : Nat) : h.filter (fun (e : Nat × List (Nat × Nat)) => e.1 != n) = tabDel n h :=
  List.filter_congr fun e _ => by by_cases he : e.1 = n <;> simp [he]

theorem exec_codecBuildDone {n : Nat} (hgo : s.dev.f R.CODEC_BUILD.GO = 1) (halive : s.dev.f R.CUR_STATE.ALIVE = 1)
    (hn : s.dev.f R.CODEC_BUILD.SLOT = n) :
    exec .codecBuildDone s = .next (s.onBoth (fun d m => match d.buildImage n with
      | none => (built d n 1, m)
      | some img => (built d n 0, memWrite m (memKey 0 (d.f R.CODEC_BUILD_ADDR.ADDR)) img))) := by
  refine congrArg Host.Outcome.next ((if_pos (by simp [Dev.on, Dev.fwRuns, hgo, halive])).trans ?_)
  simp only [State.onBoth, hn, hists_filter_ne]
  cases s.dev.buildImage n <;> rfl

/-- What the end of a build gives the registers. -/
theorem built_registers {n e : Nat} (he : e < 2) :
    (built d n e).f R.CODEC_BUILD.GO = 0 ∧ (built d n e).f R.CODEC_BUILD.EMPTY = e ∧ (built d n e).f R.SLOT.HCOUNT n = 0 ∧
      ∀ k ∉ [R.CODEC_BUILD.GO.key 0, R.SLOT.HCOUNT.key n], (built d n e).word k = d.word k := by
  have hkey : R.SLOT.HCOUNT.key n ≠ R.CODEC_BUILD.GO.key 0 := by simp only [Fld.key]; omega
  refine ⟨?_, ?_, ?_, fun k hk => ?_⟩
  · rw [f_built, f_set_apart _ _ _ _ _ _ (.inr (.inr (by decide))), f_set_same _ _ _ _ (by decide)]; rfl
  · rw [f_built, f_set_same _ _ _ _ (by decide)]; exact Nat.mod_eq_of_lt he
  · rw [f_built, f_set_apart _ R.CODEC_BUILD.EMPTY _ _ _ _ (.inl hkey), f_set_apart _ R.CODEC_BUILD.GO _ _ _ _ (.inl hkey),
      f_set_same _ _ _ _ (by decide)]; rfl
  · simp only [List.mem_cons, List.not_mem_nil, or_false, not_or] at hk
    obtain ⟨hkgo, hkcount⟩ := hk
    rw [word_built, word_set_other _ R.CODEC_BUILD.EMPTY _ _ hkgo, word_set_other _ R.CODEC_BUILD.GO _ _ hkgo,
      word_set_other _ R.SLOT.HCOUNT _ _ hkcount]

/-! The image that a build writes. -/

theorem length_takeExcess (fuel n : Nat) (f : List Nat) : (takeExcess fuel n f).length = f.length := by
  induction fuel, n, f using takeExcess.induct with
  | case1 => simp [takeExcess]
  | case2 => simp [takeExcess]
  | case3 fuel n f order now ih => rw [takeExcess]; exact ih.trans List.length_mapIdx

theorem length_buildFreq (h : List Nat) : (buildFreq h).length = h.length := by
  unfold buildFreq
  dsimp only
  split
  · rw [List.length_mapIdx, List.length_map]
  · rw [length_takeExcess, List.length_map]

@[simp] theorem length_leBytes (n v : Nat) : (leBytes n v).length = n := by simp [leBytes]

theorem length_flatMap_leBytes (n : Nat) (l : List Nat) : (l.flatMap (leBytes n)).length = n * l.length := by
  induction l with
  | nil => rfl
  | cons a t ih => rw [List.flatMap_cons, List.length_append, length_leBytes, ih, List.length_cons, Nat.mul_succ, Nat.add_comm]

theorem buildImage_of_empty {n : Nat} (h : tabGet (fun _ => []) d.hists n = []) : d.buildImage n = none := by
  have hsum : ((List.range 256).map (fun k => countOf (tabGet (fun _ => []) d.hists n) (256 * 0 + k))).sum = 0 := by
    rw [List.sum_eq_zero_iff, h]
    intro x hx
    obtain ⟨k, -, rfl⟩ := List.mem_map.mp hx
    rfl
  unfold Dev.buildImage
  exact if_pos (.inl hsum)

theorem buildImage_of_sample {n : Nat} (hfmt : d.f R.SLOT.FORMAT n < 5)
    (hany : (List.range 256).any (fun i => decide (0 < countOf (tabGet (fun _ => []) d.hists n) i)) = true) :
    ∃ img, d.buildImage n = some img ∧ img.length = 1040 := by
  obtain ⟨i, hi, hpos⟩ := List.any_eq_true.mp hany
  have hB : unitSymsB (d.f R.SLOT.FORMAT n) = 0 := if_neg (by omega)
  have hsum : ((List.range 256).map (fun k => countOf (tabGet (fun _ => []) d.hists n) (256 * 0 + k))).sum ≠ 0 := by
    intro h0
    have := List.sum_eq_zero_iff.mp h0 _ (List.mem_map.mpr ⟨i, hi, rfl⟩)
    simp only [Nat.mul_zero, Nat.zero_add] at this
    simp [this] at hpos
  unfold Dev.buildImage
  dsimp only
  rw [if_neg (by rw [hB]; exact not_or.mpr ⟨hsum, fun h => absurd h.1 (by decide)⟩), if_neg (by rw [hB]; decide)]
  refine ⟨_, rfl, ?_⟩
  simp only [List.length_append, length_leBytes, length_flatMap_leBytes, length_buildFreq, List.length_map, List.length_range,
    List.length_replicate]

/-- Bytes just written read back. -/
theorem memRead_memWrite (l : List Byte) (m : List Host.Cell) (a : Nat) : memRead (memWrite m a l) a l.length = l := by
  refine List.ext_getElem (by simp [memRead]) fun i h _ => ?_
  simp only [memRead, List.length_map, List.length_range] at h
  simp only [memRead, List.getElem_map, List.getElem_range]
  exact memGet_memWrite_inside l m a i h

theorem codecBuildDone_empty {n : Nat} (hgo : s.dev.f R.CODEC_BUILD.GO = 1) (halive : s.dev.f R.CUR_STATE.ALIVE = 1)
    (hn : s.dev.f R.CODEC_BUILD.SLOT = n) (hh : tabGet (fun _ => []) s.dev.hists n = []) :
    Completes .codecBuildDone s (fun t => t.dev.f R.CODEC_BUILD.GO = 0 ∧ t.dev.f R.CODEC_BUILD.EMPTY = 1 ∧ t.dev.f R.SLOT.HCOUNT n = 0 ∧ SameMem s t ∧
      SameWords s t [R.CODEC_BUILD.GO.key 0, R.SLOT.HCOUNT.key n]) := by
  have hexec := exec_codecBuildDone hgo halive hn
  simp only [State.onBoth, buildImage_of_empty hh] at hexec
  obtain ⟨hgo', hempty, hcount, hwords⟩ := built_registers (d := s.dev) (n := n) (e := 1) (by decide)
  exact ⟨_, hexec, hgo', hempty, hcount, fun _ => rfl, hwords⟩

theorem codecBuildDone_image {n : Nat} (hgo : s.dev.f R.CODEC_BUILD.GO = 1) (halive : s.dev.f R.CUR_STATE.ALIVE = 1)
    (hn : s.dev.f R.CODEC_BUILD.SLOT = n) (hfmt : s.dev.f R.SLOT.FORMAT n < 5)
    (hany : (List.range 256).any (fun i => decide (0 < countOf (tabGet (fun _ => []) s.dev.hists n) i)) = true) :
    Completes .codecBuildDone s (fun t => t.dev.f R.CODEC_BUILD.GO = 0 ∧ t.dev.f R.CODEC_BUILD.EMPTY = 0 ∧ t.dev.f R.SLOT.HCOUNT n = 0 ∧
      tabGet (fun _ => []) t.dev.hists n = [] ∧
      (∃ img, s.dev.buildImage n = some img ∧ (memRead t.mem (memKey 0 (s.dev.f R.CODEC_BUILD_ADDR.ADDR)) img.length = img ∧ img.length = 1040)) ∧
      SameMemBut s t (memKey 0 (s.dev.f R.CODEC_BUILD_ADDR.ADDR)) 1040 ∧ SameWords s t [R.CODEC_BUILD.GO.key 0, R.SLOT.HCOUNT.key n]) := by
  obtain ⟨img, himg, hlen⟩ := buildImage_of_sample hfmt hany
  have hexec := exec_codecBuildDone hgo halive hn
  simp only [State.onBoth, himg] at hexec
  obtain ⟨hgo', hempty, hcount, hwords⟩ := built_registers (d := s.dev) (n := n) (e := 0) (by decide)
  exact ⟨_, hexec, hgo', hempty, hcount, tabGet_tabDel_same (dflt := fun _ => []) n s.dev.hists, ⟨img, himg, memRead_memWrite _ _ _, hlen⟩,
    fun b hb => memGet_memWrite_outside _ _ _ _ (by rw [hlen]; exact hb), hwords⟩

/-- Settles O43, clause by clause: the accesses of a slot, staging, and the build of an image. -/
theorem codecSlotsAreReadAndTablesStagedAndBuilt : Obligations.CodecSlotsAreReadAndTablesStagedAndBuilt := by
  unfold Obligations.CodecSlotsAreReadAndTablesStagedAndBuilt
  simp only [wrote_full]
  exact ⟨fun _ _ hs hn hw ha => codecSlot_read_word0 hs hn hw ha, fun _ hs hw ha => codecSlot_read_last hs hw ha,
    fun _ _ _ hs hn hw ha hv h0 h1 => codecSlot_write_idle hs hn hw ha hv h0 h1,
    fun _ _ _ hs hn hw ha hv ht => codecSlot_write_valid hs hn hw ha hv ht,
    fun _ _ _ hs hgo hw hn hi => codecStage_uninstalled hs hgo hw hn hi,
    fun _ w _ _ hs hgo hw hn hwings hwing hi hnew hroom => codecStage_new w hs hgo hw hn hwings hwing hi hnew hroom,
    fun n ver w _ hreq hst => stagingComplete_last n ver w hreq hst, fun _ _ hs hgo hw => codecBuild_starts hs hgo hw,
    fun _ _ hgo ha hn hh => codecBuildDone_empty hgo ha hn hh, fun _ _ hgo ha hn hf hany => codecBuildDone_image hgo ha hn hf hany⟩

end Sys2Proof.Laws
end

section
/-! Accesses of GLOBAL_TBL_DATA out of the selected table's range (R15, R16). -/

namespace Sys2Proof.Laws

-- One theorem after another: a thread of its own for each passes the memory that the whole text may take.
set_option Elab.async false

open Sys2Proof Sys2Proof.Machine

variable {s : State}

/-- The selected entry or word lies outside the table of the code t (Table 1.2). -/
def TblOut (t n w : Nat) : Prop :=
  match tblSize t with
  | none => True
  | some size => size.1 ≤ n ∨ size.2 ≤ w

theorem exec_globalTblDataAccess_range (a : Access) (hs : s.dev.f R.SYS_BOOT.STATE = 4)
    (h : TblOut (s.dev.f R.GLOBAL_TBL_SEL.TABLE) (s.dev.f R.GLOBAL_TBL_SEL.INDEX) (s.dev.f R.GLOBAL_TBL_SEL.WORD)) :
    exec (.globalTblDataAccess a) s = .next (s.onDev (fun d => match a with
      | .read => (d.set R.GLOBAL_ERR.RANGE 0 1).emit (.readData 0)
      | .write _ _ => d.set R.GLOBAL_ERR.RANGE 0 1)) := by
  refine congrArg (fun d => Host.Outcome.next { s with dev := d }) ((if_pos (ready_of hs)).trans ?_)
  unfold TblOut at h
  unfold Dev.tblAccess
  cases hsize : tblSize (s.dev.f R.GLOBAL_TBL_SEL.TABLE) with
  | none => cases a <;> simp only [hsize]
  | some size =>
    rw [hsize] at h
    simp only [hsize]
    exact if_pos h

theorem tblOut_of {t n w : Nat} (h : match t with
    | 0 => 1024 ≤ n ∨ 4 ≤ w
    | 1 => 4096 ≤ n ∨ 2 ≤ w
    | 2 => 262144 ≤ n ∨ 1 ≤ w
    | 3 => 4194304 ≤ n ∨ 1 ≤ w
    | 4 => 65536 ≤ n ∨ 4 ≤ w
    | 5 => 16384 ≤ n ∨ 2 ≤ w
    | _ => True) : TblOut t n w := by
  match t with
  | 0 | 1 | 2 | 3 | 4 | 5 => exact h
  | k + 6 => trivial

/-- Settles O12: such an access sets RANGE and nothing else, so the selector still names the refused word. -/
theorem tableAccessOutOfRangeHasNoEffect : Obligations.TableAccessOutOfRangeHasNoEffect := by
  intro a s hs h
  have hset : (s.dev.set R.GLOBAL_ERR.RANGE 0 1).f R.GLOBAL_ERR.RANGE = 1 := f_set_same _ _ _ _ (by decide)
  have hwords : ∀ k ∉ [R.GLOBAL_ERR.RANGE.key 0], (s.dev.set R.GLOBAL_ERR.RANGE 0 1).word k = s.dev.word k :=
    fun k hk => word_set_other _ _ _ _ (by simpa using hk)
  have hfields : ∀ x : Fld, x.key 0 = R.GLOBAL_ERR.RANGE.key 0 → x.lo + x.w ≤ 1 ∨ 2 ≤ x.lo →
      (s.dev.set R.GLOBAL_ERR.RANGE 0 1).f x = s.dev.f x := fun x _ hx => f_set_apart _ _ _ _ _ _ (.inr hx.symm)
  refine ⟨_, exec_globalTblDataAccess_range a hs (tblOut_of h), ?_⟩
  cases a with
  | read => exact ⟨hset, sameMem_onDev _ _, hwords, hfields, rfl, rfl⟩
  | write l v => exact ⟨hset, sameMem_onDev _ _, hwords, hfields, rfl, (List.append_nil _).symm⟩

end Sys2Proof.Laws
end

section
/-! A release whose eighth data byte is not 0 is not the one its acknowledgement ends (R44). -/

namespace Sys2Proof.Laws

-- One theorem after another: a thread of its own for each passes the memory that the whole text may take.
set_option Elab.async false

open Sys2Proof Sys2Proof.Machine Sys2Proof.Tests

set_option maxRecDepth 100000

/-- The acknowledgement of a release whose last data byte, which `releaseData` always makes 0, is 1. -/
def paddedAck : ServiceMsg := { resMsg 0 with data := [0, 0, 0, 0, 0, 0, 0, 1], dlen := 8 }

/-- The release it would answer waits for an anchor toward site 1, its data the same eight bytes. -/
def paddedRelease : State := peerUp.onDev (fun d => { d with anchorQ := [(1, .service 7 paddedAck)] })

theorem exec_deltaReleaseAck_padded_keeps :
    ∃ t, exec (.deltaReleaseAckReceive paddedAck true) paddedRelease = .next t ∧ t.dev.anchorQ.length = 1 := by
  refine ⟨_, rfl, ?_⟩
  decide

/-- Refutes O45: its clause of DELTA_RELEASE_ACK lets the waiting release carry any eight bytes of the acknowledgement's data, but the model
takes a release for acknowledged only when its data are those `releaseData` builds, the eighth byte 0. With that byte 1 on both sides the repeats go
on. (No release this gateway builds has such a byte; the statement ranges over every state.) -/
theorem not_publishAndReleaseMessagesAreServed : ¬ Obligations.PublishAndReleaseMessagesAreServed := by
  unfold Obligations.PublishAndReleaseMessagesAreServed
  rintro ⟨-, -, -, -, -, -, -, -, -, hack, -⟩
  obtain ⟨t, ht, hlen⟩ := exec_deltaReleaseAck_padded_keeps
  obtain ⟨u, hu, hempty, -⟩ := hack paddedAck paddedAck 0 paddedRelease (by decide) (by decide) (by decide) (by decide) rfl rfl (by decide) (by decide)
  rw [ht] at hu
  cases hu
  rw [hempty] at hlen
  exact absurd hlen (by decide)

end Sys2Proof.Laws
end

section
/-! A SIGNAL waits while an earlier operation of its ring toward the same rank is on its way to another site (R37). -/

namespace Sys2Proof.Laws

-- One theorem after another: a thread of its own for each passes the memory that the whole text may take.
set_option Elab.async false

open Sys2Proof Sys2Proof.Machine Sys2Proof.Tests

set_option maxRecDepth 100000

/-- A SIGNAL to rank 1, which now stands at site 1, in front of ring 3; an earlier PUT to that rank still runs toward site 2, where the rank
stood when it was submitted. -/
def signalAfterMove : State := front (desc 5 0 1) (opReady.onDev (fun d =>
  { d with ops := [{ newOp 3 8 (desc 1 0 1) with stage := .running, site := 2 }] }))

theorem exec_signal_afterMove_waits :
    ∃ t, exec (.signal 3) signalAfterMove = .next t ∧ (t.dev.getOp 3 9).map (·.stage) = some .waiting := by
  refine ⟨_, rfl, ?_⟩
  decide

/-- Refutes O20: it has no premise on earlier operations of the ring. By R37 a SIGNAL takes effect only after every earlier operation of its ring to
the same rank is complete at the target, and the model keeps it back (`Dev.signalWaits`) while such an operation runs toward another site. Here an
earlier PUT runs toward the site the rank has left (R25); the SIGNAL, whose context is OPEN with room and for whose stream nothing waits, stays
in stage waiting. -/
theorem not_remoteOperationsJoinTheirContext : ¬ Obligations.RemoteOperationsJoinTheirContext := by
  unfold Obligations.RemoteOperationsJoinTheirContext
  intro h
  obtain ⟨t, ht, hwaits⟩ := exec_signal_afterMove_waits
  obtain ⟨u, hu, -, ⟨o, hget, hrun, -, -⟩, -⟩ := h 3 (.signal 3, 5) 9 4 (desc 5 0 1) [] signalAfterMove (by simp) (by decide) (by decide)
    (by decide) (by decide) (by decide) (by decide) (by decide) (by decide) (by decide) (by decide)
  rw [ht] at hu
  cases hu
  replace hget : t.dev.getOp 3 9 = some o := hget
  rw [hget, Option.map_some, hrun] at hwaits
  exact absurd hwaits (by decide)

end Sys2Proof.Laws
end

section
/-! A failure of a collective that counts a FENCE among its members takes the FENCE's status (R38, R160). -/

namespace Sys2Proof.Laws

-- One theorem after another: a thread of its own for each passes the memory that the whole text may take.
set_option Elab.async false

open Sys2Proof Sys2Proof.Machine Sys2Proof.Tests

set_option maxRecDepth 100000

/-- The waiting FENCE of ring 3, of index 8. -/
def oldestFence : Op := { newOp 3 8 (desc 0x106 0 0) with stage := .waiting }

/-- A collective that has ended with BAD_DESCRIPTOR and whose one member is the FENCE's ring and index. -/
def endedColl : Coll := { tourColl with members := [{ member 0 with index := 8 }], ended := some 1 }

/-- Ring 3 holds a FENCE and behind it a PUT to rank 1 at site 1, toward which no context is open, the tenant PLACED and the stream engine
disabled; a piece of the ended collective waits for that stream. -/
def fencedWithPiece : State := opReady.onDev (fun d =>
  { (d.set R.TENANT.PLACE_MODE 0 1).setCtx 4 Ctx.empty with
    ops := [oldestFence, newOp 3 9 (desc 1 0 1)], colls := [endedColl], tourWait := [(1, 1, 0, 0, endedColl.item 0 0 0 [] false)] })

theorem exec_fenceRelease_ended :
    ∃ t, exec (.fenceRelease 3) fencedWithPiece = .next t ∧ (t.dev.getOp 3 8).map (·.verdict) = some ⟨3, 0⟩ := by
  refine ⟨_, rfl, ?_⟩
  decide

/-- Refutes O22, in its clause of FENCE_RELEASE. The FENCE is done with OK, and what it held back starts in the same step: the PUT, toward whose
site no context can be opened, fails the pieces that wait for that stream (R160), and the collective of one of them, ended with a lower status, gives
the FENCE's operation the status 0x03. (No collective the gateway builds has a FENCE among its members; the statement ranges over every state.) -/
theorem not_nopsFencesAndDeltasAreAdmitted : ¬ Obligations.NopsFencesAndDeltasAreAdmitted := by
  unfold Obligations.NopsFencesAndDeltasAreAdmitted
  rintro ⟨-, -, -, hrelease, -⟩
  obtain ⟨t, ht, hspoilt⟩ := exec_fenceRelease_ended
  obtain ⟨u, hu, -, o, hget, -, hok⟩ := hrelease 3 oldestFence fencedWithPiece (by decide) (by decide) (by decide)
  rw [ht] at hu
  cases hu
  replace hget : t.dev.getOp 3 8 = some o := hget
  rw [hget, Option.map_some, hok] at hspoilt
  exact absurd hspoilt (by decide)

end Sys2Proof.Laws
end

section
/-! How a descriptor starts (R29, R38, R62): what stands of an operation after each step on its way, stated once for each step. -/

namespace Sys2Proof.Laws

-- One theorem after another: a thread of its own for each passes the memory that the whole text may take.
set_option Elab.async false

open Sys2Proof Sys2Proof.Machine

variable {d e : Dev} {n i : Nat} {o : Op} {x : Desc} {rest : List (Nat × Desc)} {s : State}

/-! ### One operation of the table -/

theorem getOp_of_ops (h : e.ops = d.ops) : e.getOp n i = d.getOp n i := by unfold Dev.getOp; rw [h]

theorem getOp_names (h : d.getOp n i = some o) : o.ring = n ∧ o.index = i := by
  simpa using List.find?_some h

theorem getOp_updOp {n' i' : Nat} {g : Op → Op} (hg : ∀ o, (g o).ring = o.ring ∧ (g o).index = o.index) :
    (d.updOp n' i' g).getOp n i = (d.getOp n i).map (fun o => if o.ring == n' && o.index == i' then g o else o) := by
  have hfind : (fun o : Op => o.ring == n && o.index == i) ∘ (fun o => if o.ring == n' && o.index == i' then g o else o) =
      fun o => o.ring == n && o.index == i := by
    funext p
    dsimp only [Function.comp_apply]
    split
    · rw [(hg p).1, (hg p).2]
    · rfl
  unfold Dev.getOp Dev.updOp
  rw [List.find?_map, hfind]

theorem getOp_updOp_same {g : Op → Op} (hg : ∀ o, (g o).ring = o.ring ∧ (g o).index = o.index) (h : d.getOp n i = some o) :
    (d.updOp n i g).getOp n i = some (g o) := by
  obtain ⟨hn, hi⟩ := getOp_names h
  rw [getOp_updOp hg, h, Option.map_some, if_pos (by simp [hn, hi])]

/-- An operation once it has been ended with a verdict: what was done keeps its own. -/
def opEnded (o : Op) (v : Verdict) : Op := if o.stage = .done then o else { o with stage := .done, verdict := v }

theorem opEnded_open {v : Verdict} (h : o.stage ≠ .done) : opEnded o v = { o with stage := .done, verdict := v } := if_neg h

theorem getOp_endOp_same {st dt : Nat} (h : d.getOp n i = some o) : (d.endOp n i st dt).getOp n i = some (opEnded o ⟨st, dt⟩) := by
  unfold Dev.endOp opEnded
  rw [h]
  dsimp only
  split
  · exact h
  · exact getOp_updOp_same (fun _ => ⟨rfl, rfl⟩) h

/-! ### Requests to the nodes -/

/-- A block without what its LRM side and its host side hold: register words, requests, queues of the ports and what goes out. Two blocks equal in
this sense agree in all their other parts. -/
def sansLrm (d : Dev) : Dev := { d with words := [], nextTag := 0, reqs := [], wfq := [], portQ := [], out := [] }

theorem sansLrm_ops (h : sansLrm e = sansLrm d) : e.ops = d.ops :=
  show (sansLrm e).ops = (sansLrm d).ops from congrArg Dev.ops h
theorem sansLrm_rings (h : sansLrm e = sansLrm d) : e.rings = d.rings :=
  show (sansLrm e).rings = (sansLrm d).rings from congrArg Dev.rings h
theorem sansLrm_atomics (h : sansLrm e = sansLrm d) : e.atomics = d.atomics :=
  show (sansLrm e).atomics = (sansLrm d).atomics from congrArg Dev.atomics h

theorem sansLrm_enqueue (p : Nat) (q : LrmOut) : sansLrm (d.enqueue p q) = sansLrm d := by
  unfold Dev.enqueue
  extract_lets old mark d1 d2 d3
  have h1 : sansLrm d1 = sansLrm d := by unfold d1; split <;> rfl
  have h2 : sansLrm d2 = sansLrm d1 := by unfold d2; split <;> rfl
  have h3 : sansLrm d3 = sansLrm d2 := by unfold d3; split <;> rfl
  exact h3.trans (h2.trans h1)

theorem sansLrm_transmit (q : Req) : sansLrm (d.transmit q) = sansLrm d := by
  unfold Dev.transmit
  split
  · rfl
  · exact sansLrm_enqueue _ _

theorem sansLrm_request (use : ReqUse) (write host : Bool) (node addr len : Nat) (data : List Byte) (tenant : Nat) :
    sansLrm (d.request use write host node addr len data tenant) = sansLrm d := by
  unfold Dev.request
  extract_lets go q d1 d2
  have h2 : sansLrm d2 = sansLrm d := rfl
  refine (apply_ite sansLrm _ _ _).trans (ite_eq_iff'.2 ⟨fun _ => rfl, fun _ => ?_⟩)
  refine (apply_ite sansLrm _ _ _).trans (ite_eq_iff'.2 ⟨fun _ => rfl, fun _ => ?_⟩)
  exact (apply_ite sansLrm _ _ _).trans (ite_eq_iff'.2 ⟨fun _ => (sansLrm_transmit _).trans h2, fun _ => h2⟩)

theorem getOp_request (use : ReqUse) (write host : Bool) (node addr len : Nat) (data : List Byte) (tenant : Nat) :
    (d.request use write host node addr len data tenant).getOp n i = d.getOp n i :=
  getOp_of_ops (sansLrm_ops (sansLrm_request ..))

/-- An operation that asks for source bytes stays as it was but for the number it has asked for. -/
theorem getOp_askOp (h : d.getOp n i = some o) : ∃ k, (d.askOp n i).getOp n i = some { o with asked := k } := by
  unfold Dev.askOp
  rw [h]
  dsimp only
  split
  · exact ⟨o.asked, h⟩
  · exact ⟨_, (getOp_request ..).trans (getOp_updOp_same (fun _ => ⟨rfl, rfl⟩) h)⟩

/-! ### The descriptor leaves the front -/

/-- A block once the descriptor x, of index i, has left the front of ring n: it stands as a new operation. -/
def taken (d : Dev) (n i : Nat) (x : Desc) (rest : List (Nat × Desc)) : Dev :=
  { d.setRing n { d.ring n with fetched := rest } with ops := d.ops ++ [newOp n i x] }

theorem getOp_taken (h : d.getOp n i = none) : (taken d n i x rest).getOp n i = some (newOp n i x) := by
  unfold Dev.getOp taken at *
  rw [List.find?_append, h]
  simp [newOp]

theorem startDesc_of_front {mine : Desc → Bool} (hfront : (s.dev.ring n).fetched = (i, x) :: rest) (hmine : mine x = true) :
    startDesc n mine s = s.onBoth (fun d m => (if fenceHeld (s.dev.opsOf n) x then taken d n i x rest else (taken d n i x rest).submit n i m, m)) := by
  unfold startDesc
  rw [hfront]
  exact if_pos hmine

theorem submitCheck_taken (m : List Host.Cell) : (taken d n i x rest).submitCheck n x m = d.submitCheck n x m := rfl

/-- An operation that has passed the checks: admitted, waiting, its target and own windows translated (R23, R25). -/
def admitted (d : Dev) (n : Nat) (x : Desc) (o : Op) : Op :=
  { o with
    stage := .waiting, admitted := true, seed := d.f R.TENANT.SEED (d.f R.SQ_CTL.TENANT n),
    lwin := if x.ownOrds.isEmpty then 0 else d.xlatWin n (d.f R.SQ_BIND.RANK n) x.lord,
    rwin := if hasTarget x.opcode then d.xlatWin n x.rank x.rord else 0,
    dwin := if x.opcode = 0x10 then d.xlatWin n (d.f R.SQ_BIND.RANK n) x.rord else 0,
    site := if hasTarget x.opcode then d.f R.REGISTRAR.SITE (d.regIndex (d.f R.SQ_BIND.JOB n) x.rank) else 0,
    ep := if hasTarget x.opcode then d.f R.REGISTRAR.EP (d.regIndex (d.f R.SQ_BIND.JOB n) x.rank) else 0 }

theorem submit_of_passes {m : List Host.Cell} (hget : d.getOp n i = some o) (hpass : d.submitCheck n o.d m = none) :
    d.submit n i m = (d.updOp n i (admitted d n o.d)).admitAt n i m := by
  unfold Dev.submit
  rw [hget]
  dsimp only
  rw [hpass]
  rfl

theorem admitted_taken : admitted (taken d n i x rest) n x = admitted d n x := rfl

/-- A descriptor taken from the front that passes the checks is admitted as `admitted` says. -/
theorem submit_taken_passes {m : List Host.Cell} (hnone : d.getOp n i = none) (hpass : d.submitCheck n x m = none) :
    (taken d n i x rest).submit n i m = ((taken d n i x rest).updOp n i (admitted d n x)).admitAt n i m := by
  have hsame : (taken d n i x rest).submitCheck n (newOp n i x).d m = none := (submitCheck_taken m).trans hpass
  rw [submit_of_passes (getOp_taken hnone) hsame]
  exact congrArg (fun g => ((taken d n i x rest).updOp n i g).admitAt n i m) admitted_taken

theorem getOp_taken_admitted (hnone : d.getOp n i = none) :
    ((taken d n i x rest).updOp n i (admitted d n x)).getOp n i = some (admitted d n x (newOp n i x)) :=
  getOp_updOp_same (fun _ => ⟨rfl, rfl⟩) (getOp_taken hnone)

/-! ### Operations toward a rank at this site (R24, R30) -/

/-- The five opcodes whose operations only need a target (Table 1.9). -/
def RemoteOp (k : Nat) : Prop := 1 ≤ k ∧ k ≤ 5

theorem hasTarget_of_remoteOp {k : Nat} (h : RemoteOp k) : hasTarget k = true := by
  obtain ⟨hlo, hhi⟩ := h
  simp [hasTarget, hlo, hhi]

theorem admitAt_remoteOp {m : List Host.Cell} (hget : d.getOp n i = some o) (hop : RemoteOp o.d.opcode) :
    d.admitAt n i m = (d.bindOp n i o).admitTarget n i := by
  obtain ⟨hlo, hhi⟩ := hop
  unfold Dev.admitAt
  rw [hget]
  dsimp only
  split
  case h_6 => rfl
  all_goals omega

theorem bindOp_local (h : o.site = d.site) : d.bindOp n i o = d := if_pos (.inl h)


theorem admitTarget_local (hget : d.getOp n i = some o) (hwait : o.stage = .waiting) (hsite : o.site = d.site) :
    d.admitTarget n i = d.launchLocal o := by
  unfold Dev.admitTarget
  rw [hget]
  dsimp only
  rw [if_neg (not_not.2 hwait), if_pos hsite]

theorem length_insertAtom (r : AtomReq) (l : List AtomReq) : (insertAtom r l).length = l.length + 1 := by
  induction l with
  | nil => rfl
  | cons a t ih =>
    unfold insertAtom
    split
    · exact congrArg (· + 1) ih
    · rfl

/-- The status of the target's checks of an operation whose target stands here (R30). -/
def localCheck (d : Dev) (o : Op) : Nat :=
  d.targetCheck (d.opTenant o) (d.f R.JOB.JOB_ID (d.f R.SQ_BIND.JOB o.ring)) o.rwin o.d.rord o.d.token o.d.opcode o.d.roff
    (if o.d.opcode = 4 ∨ o.d.opcode = 5 then 8 else o.d.len)

theorem getOp_targetRefused {st : Nat} : (d.targetRefused st).getOp n i = d.getOp n i := by
  unfold Dev.targetRefused
  split <;> rfl

/-- A block with an operation of it running. -/
def running (d : Dev) (o : Op) : Dev := d.updOp o.ring o.index (fun o => { o with stage := .running })

theorem getOp_running (hget : d.getOp n i = some o) : (running d o).getOp n i = some { o with stage := .running } := by
  obtain ⟨rfl, rfl⟩ := getOp_names hget
  exact getOp_updOp_same (fun _ => ⟨rfl, rfl⟩) hget

theorem launchLocal_refused (hst : localCheck d o ≠ 0) :
    d.launchLocal o = ((running d o).targetRefused (localCheck d o)).endOp o.ring o.index (localCheck d o) := if_pos hst

theorem launchLocal_atomic (hst : localCheck d o = 0) (hop : o.d.opcode = 4 ∨ o.d.opcode = 5) :
    ∃ r, d.launchLocal o = (running d o).atomArrive r := ⟨_, (if_neg (not_not.2 hst)).trans (if_pos hop)⟩

theorem launchLocal_data (hst : localCheck d o = 0) (hop : ¬ (o.d.opcode = 4 ∨ o.d.opcode = 5)) (hdelta : o.d.opcode ≠ 7) :
    d.launchLocal o = (running d o).askOp o.ring o.index := (if_neg (not_not.2 hst)).trans ((if_neg hop).trans (if_neg hdelta))

/-- What stands of an operation toward a rank here once it has been launched (R30, R32, R36). -/
theorem launchLocal_cases (hget : d.getOp n i = some o) (hop : RemoteOp o.d.opcode) :
    ∃ p, (d.launchLocal o).getOp n i = some p ∧ p.d = o.d ∧
      if localCheck d o = 0 then p.stage = .running ∧ (o.d.opcode = 4 ∨ o.d.opcode = 5 → (d.launchLocal o).atomics.length = d.atomics.length + 1)
      else p.stage = .done ∧ p.verdict = ⟨localCheck d o, 0⟩ := by
  have hrun := getOp_running hget
  obtain ⟨hn, hi⟩ := getOp_names hget
  obtain ⟨hlo, hhi⟩ := hop
  by_cases hst : localCheck d o = 0
  · simp only [if_pos hst]
    by_cases hatom : o.d.opcode = 4 ∨ o.d.opcode = 5
    · obtain ⟨r, hr⟩ := launchLocal_atomic hst hatom
      rw [hr]
      exact ⟨_, hrun, rfl, rfl, fun _ => length_insertAtom _ _⟩
    · rw [launchLocal_data hst hatom (by omega), hn, hi]
      obtain ⟨k, hk⟩ := getOp_askOp hrun
      exact ⟨_, hk, rfl, rfl, fun h => absurd h hatom⟩
  · simp only [if_neg hst]
    rw [launchLocal_refused hst, hn, hi]
    exact ⟨_, getOp_endOp_same (getOp_targetRefused.trans hrun), rfl, rfl, rfl⟩

/-- A descriptor toward a rank here, taken from the front and not failing a check, is launched. -/
theorem submit_local {m : List Host.Cell} (hnone : d.getOp n i = none) (hop : RemoteOp x.opcode) (hpass : d.submitCheck n x m = none)
    (hsite : d.f R.REGISTRAR.SITE (d.regIndex (d.f R.SQ_BIND.JOB n) x.rank) = d.site) :
    (taken d n i x rest).submit n i m = ((taken d n i x rest).updOp n i (admitted d n x)).launchLocal (admitted d n x (newOp n i x)) := by
  have hadm := getOp_taken_admitted (x := x) (rest := rest) hnone
  have hhere : (admitted d n x (newOp n i x)).site = d.site := (if_pos (hasTarget_of_remoteOp hop)).trans hsite
  calc (taken d n i x rest).submit n i m
      = ((taken d n i x rest).updOp n i (admitted d n x)).admitAt n i m := submit_taken_passes hnone hpass
    _ = (((taken d n i x rest).updOp n i (admitted d n x)).bindOp n i (admitted d n x (newOp n i x))).admitTarget n i :=
        admitAt_remoteOp hadm hop
    _ = ((taken d n i x rest).updOp n i (admitted d n x)).admitTarget n i := congrArg (Dev.admitTarget · n i) (bindOp_local hhere)
    _ = _ := admitTarget_local hadm rfl hhere

/-- The commands that start an operation which only needs a target run `startDesc` for its opcode. -/
theorem exec_remoteStart {n : Fin 4096} {p : Instr × Nat}
    (hp : p ∈ [(Instr.put n, 1), (Instr.get n, 2), (Instr.putReduce n, 3), (Instr.atomic n, 4), (Instr.signal n, 5)]) :
    RemoteOp p.2 ∧ exec p.1 s = .next (startDesc n (fun x => x.opcode == p.2) s) := by
  simp only [List.mem_cons, List.not_mem_nil, or_false] at hp
  rcases hp with rfl | rfl | rfl | rfl | rfl <;> exact ⟨⟨by norm_num, by norm_num⟩, rfl⟩

/-- Settles O21: the descriptor is taken, passes, binds no slot since its target stands here, and is launched under the target's checks. -/
theorem localOperationsRunAtOnce : Obligations.LocalOperationsRunAtOnce := by
  unfold Obligations.LocalOperationsRunAtOnce
  intro n p i x rest s hp hfront hop hnone hheld hpass hsite
  obtain ⟨hremote, hexec⟩ := exec_remoteStart (s := s) hp
  rw [← hop] at hremote
  refine ⟨_, hexec, ?_⟩
  have hmine : (fun x : Desc => x.opcode == p.2) x = true := beq_iff_eq.2 hop
  rw [startDesc_of_front hfront hmine]
  refine ⟨fun _ => rfl, ?_⟩
  dsimp only [State.onBoth]
  rw [hheld, if_neg (by decide), submit_local hnone hremote hpass hsite]
  have hst : localCheck ((taken s.dev n i x rest).updOp n i (admitted s.dev n x)) (admitted s.dev n x (newOp n i x)) =
      s.dev.targetCheck (s.dev.f R.SQ_CTL.TENANT n) (s.dev.f R.JOB.JOB_ID (s.dev.f R.SQ_BIND.JOB n)) (s.dev.xlatWin n x.rank x.rord)
        x.rord x.token x.opcode x.roff (if x.opcode = 4 ∨ x.opcode = 5 then 8 else x.len) := by
    unfold localCheck
    rw [show (admitted s.dev n x (newOp n i x)).rwin = s.dev.xlatWin n x.rank x.rord from if_pos (hasTarget_of_remoteOp hremote)]
    rfl
  rw [← hst]
  exact launchLocal_cases (getOp_taken_admitted hnone) hremote

end Sys2Proof.Laws
end

section
/-! The atomic units (R34 to R37, Table 1.10): a request replaces its 8 bytes, leaves the unit and is answered. -/

namespace Sys2Proof.Laws

-- One theorem after another: a thread of its own for each passes the memory that the whole text may take.
set_option Elab.async false

open Sys2Proof Sys2Proof.Machine

variable {d e : Dev} {n i : Nat} {o : Op} {r : AtomReq} {s : State} {m : List Host.Cell}

/-! ### Register words that no request to a node writes -/

theorem f_of_word {x : Fld} {j : Nat} (h : e.word (x.key j) = d.word (x.key j)) : e.f x j = d.f x j := by unfold Dev.f; rw [h]

/-- Keys outside the counters of the fabric ports (Table 12.8), which a request may bump. -/
def OffPorts (k : Nat) : Prop := k < 0x900110 ∨ 0x900510 ≤ k

theorem word_enqueue {k p : Nat} (q : LrmOut) (hk : OffPorts k) (hp : p < 128) : (d.enqueue p q).word k = d.word k := by
  unfold Dev.enqueue
  extract_lets old mark d1 d2 d3
  have h1 : d1.words = d.words := by unfold d1; split <;> rfl
  have h2 : d2.words = d1.words := by unfold d2; split <;> rfl
  have h3 : d3.word k = d2.word k := by
    unfold d3
    split
    · refine word_bump_other d2 _ _ _ ?_
      unfold OffPorts at hk
      simp only [Fld.key]
      omega
    · rfl
  exact h3.trans (congrArg (tabGet resetWord · k) (h2.trans h1))

theorem egressPort_lt {ep t p : Nat} (h : d.egressPort ep t = some p) : p < 128 := by
  have hmem : p ∈ d.egress := List.mem_of_getElem? h
  exact List.mem_range.1 (List.mem_filter.1 hmem).1

theorem word_transmit {k : Nat} (q : Req) (hk : OffPorts k) : (d.transmit q).word k = d.word k := by
  unfold Dev.transmit
  split
  · rfl
  · next hp => exact word_enqueue _ hk (egressPort_lt hp)

theorem word_request {k : Nat} (use : ReqUse) (write host : Bool) (node addr len : Nat) (data : List Byte) (tenant : Nat) (hk : OffPorts k) :
    (d.request use write host node addr len data tenant).word k = d.word k := by
  unfold Dev.request
  extract_lets go q d1 d2
  split
  · rfl
  · split
    · rfl
    · split
      · exact word_transmit _ hk
      · rfl

/-! ### Writes of a window -/

theorem sansLrm_nodeWrite (use : ReqUse) (host : Bool) (node addr tenant : Nat) (data : List Byte) :
    sansLrm (nodeWrite use host node addr tenant data d m).1 = sansLrm d := by
  unfold nodeWrite
  dsimp only
  split
  · exact sansLrm_request ..
  · exact List.foldlRecOn (motive := fun (a : Dev) => sansLrm a = sansLrm d) _ _ rfl (fun a ha c _ => (sansLrm_request ..).trans ha)

theorem word_nodeWrite {k : Nat} (use : ReqUse) (host : Bool) (node addr tenant : Nat) (data : List Byte) (hk : OffPorts k) :
    (nodeWrite use host node addr tenant data d m).1.word k = d.word k := by
  unfold nodeWrite
  dsimp only
  split
  · exact word_request _ _ _ _ _ _ _ _ hk
  · exact List.foldlRecOn (motive := fun (a : Dev) => a.word k = d.word k) _ _ rfl (fun a ha c _ => (word_request _ _ _ _ _ _ _ _ hk).trans ha)

/-- A write for a use whose bytes count as in memory at once (notes/assumptions/13.md). -/
theorem nodeWrite_mem {use : ReqUse} (huse : use.atAck = false) (host : Bool) (node addr tenant : Nat) (data : List Byte) :
    (nodeWrite use host node addr tenant data d m).2.1 = memWrite m (memKey (nodeSpace host node) addr) data := by
  unfold nodeWrite
  rw [huse]
  dsimp only [Bool.false_and]
  split <;> rfl

theorem winWrite_mem {use : ReqUse} (huse : use.atAck = false) (w off tenant : Nat) (data : List Byte) :
    (winWrite use w off tenant data d m).2.1 = memWrite m (d.winKey w off) data := by
  unfold winWrite Dev.winKey Dev.winNode
  rw [nodeWrite_mem huse]
  simp only [memKey, Nat.mod_mod]

/-- A write toward host memory owes no acknowledgement. -/
theorem winWrite_host {use : ReqUse} {w : Nat} (hloc : d.on R.WINDOW.LOC w = true) (off tenant : Nat) (data : List Byte) :
    (winWrite use w off tenant data d m).2.2 = 0 := by
  unfold winWrite nodeWrite
  rw [hloc]
  rfl

/-! ### One request applies -/

/-- The write of an atomic's new value, the request taken from its unit. -/
def atomWrite (r : AtomReq) (d : Dev) (m : List Host.Cell) : Dev × List Host.Cell × Nat :=
  winWrite (r.use (ofLE (memRead m (d.winKey r.win r.off) 8))) r.win r.off (d.f R.WINDOW.TENANT r.win)
    (leBytes 8 (atomNew (if r.isSignal then 0 else r.subop) (ofLE (memRead m (d.winKey r.win r.off) 8)) r.a r.b)) (d.atomDel r) m

theorem atomApply_eq : atomApply r (d.atomDel r) m =
    (if (atomWrite r d m).2.2 = 0 then (atomWrite r d m).1.atomAnswer r (ofLE (memRead m (d.winKey r.win r.off) 8)) else (atomWrite r d m).1,
      (atomWrite r d m).2.1, atomNew (if r.isSignal then 0 else r.subop) (ofLE (memRead m (d.winKey r.win r.off) 8)) r.a r.b) := rfl

theorem atAck_use (v : Nat) : (r.use v).atAck = false := by
  unfold AtomReq.use
  split <;> rfl

theorem atomApply_mem : (atomApply r (d.atomDel r) m).2.1 =
    memWrite m (d.winKey r.win r.off) (leBytes 8 (atomNew (if r.isSignal then 0 else r.subop) (ofLE (memRead m (d.winKey r.win r.off) 8)) r.a r.b)) :=
  winWrite_mem (atAck_use _) ..

theorem atomAnswer_words (v : Nat) : (d.atomAnswer r v).words = d.words := by
  unfold Dev.atomAnswer
  split
  · unfold Dev.answer
    split
    · rfl
    · split <;> rfl
  · unfold Dev.okOp
    split
    · rfl
    · unfold Dev.endOp
      split
      · rfl
      · split <;> rfl

theorem atomAnswer_atomics (v : Nat) : (d.atomAnswer r v).atomics.length ≤ d.atomics.length := by
  unfold Dev.atomAnswer
  split
  · unfold Dev.answer
    split
    · exact le_refl _
    · split <;> exact le_refl _
  · unfold Dev.okOp
    split
    · exact le_refl _
    · unfold Dev.endOp
      split
      · exact le_refl _
      · split
        · exact le_refl _
        · exact List.length_filter_le _ _

theorem atomApply_word {k : Nat} (hk : OffPorts k) : (atomApply r (d.atomDel r) m).1.word k = d.word k := by
  have hwrite : (atomWrite r d m).1.word k = d.word k := word_nodeWrite _ _ _ _ _ _ hk
  rw [atomApply_eq]
  dsimp only
  split
  · exact (congrArg (tabGet resetWord · k) (atomAnswer_words _)).trans hwrite
  · exact hwrite

theorem atomApply_atomics (hr : r ∈ d.atomics) : (atomApply r (d.atomDel r) m).1.atomics.length < d.atomics.length := by
  have hwrite : (atomWrite r d m).1.atomics = d.atomics.erase r := sansLrm_atomics (sansLrm_nodeWrite ..)
  have hlen : (d.atomics.erase r).length < d.atomics.length := by
    have hpos : 0 < d.atomics.length := List.length_pos_of_mem hr
    rw [List.length_erase_of_mem hr]
    omega
  rw [← hwrite] at hlen
  rw [atomApply_eq]
  dsimp only
  split
  · exact lt_of_le_of_lt (atomAnswer_atomics _) hlen
  · exact hlen

/-- The 8 bytes of a location after the little-endian bytes of v have been written there. -/
theorem memGet_memWrite_leBytes (key v : Nat) (j : Fin 8) : memGet (memWrite m key (leBytes 8 v)) (key + j) = BitVec.ofNat 8 (v / 2 ^ (8 * j.val)) := by
  rw [memGet_memWrite_inside (leBytes 8 v) m key j (by rw [length_leBytes]; exact j.isLt)]
  simp [leBytes]

/-- An operation that completes is done, OK or DEGRADED_OK (R51, R90). -/
theorem getOp_okOp (hget : d.getOp n i = some o) (hopen : o.stage ≠ .done) :
    (d.okOp n i).getOp n i = some { o with stage := .done, verdict := ⟨if o.events = 0 then 0 else 0x10, 0⟩ } := by
  unfold Dev.okOp
  rw [hget]
  exact (getOp_endOp_same hget).trans (congrArg some (opEnded_open hopen))

/-- An atomic of a ring of this gateway on a window of host memory completes its operation at once, with the prior value (R35). -/
theorem atomApply_ends (hown : r.stream = none) (hloc : d.f R.WINDOW.LOC r.win = 1) (hget : d.getOp r.ring r.index = some o) (hopen : o.stage ≠ .done) :
    (atomApply r (d.atomDel r) m).1.getOp r.ring r.index = some { o with
      value := ofLE (memRead m (d.winKey r.win r.off) 8), stage := .done, verdict := ⟨if o.events = 0 then 0 else 0x10, 0⟩ } := by
  have hon : (d.atomDel r).on R.WINDOW.LOC r.win = true := by
    change (d.f R.WINDOW.LOC r.win != 0) = true
    rw [hloc]
    rfl
  have hnow : (atomWrite r d m).2.2 = 0 := winWrite_host hon ..
  have hkeep : (atomWrite r d m).1.getOp r.ring r.index = some o :=
    (getOp_of_ops (sansLrm_ops (sansLrm_nodeWrite ..))).trans hget
  rw [atomApply_eq]
  dsimp only
  rw [if_pos hnow]
  unfold Dev.atomAnswer
  rw [hown]
  generalize (atomWrite r d m).1 = e at hkeep ⊢
  generalize ofLE _ = v
  have hval : (e.updOp r.ring r.index (fun o => { o with value := v })).getOp r.ring r.index = some { o with value := v } :=
    getOp_updOp_same (fun _ => ⟨rfl, rfl⟩) hkeep
  exact getOp_okOp hval hopen

/-! ### The commands -/

/-- Table 1.10: the new value of an ATOMIC of a sub-operation below 5. -/
theorem atomNew_table (k v a b : Nat) : atomNew k v a b =
    if k = 0 then (v + a) % 2 ^ 64 else if k = 1 then (if v = a then b else v) else if k = 2 then a
      else if k = 3 then (if signed 64 a < signed 64 v then a else v) else (if signed 64 v < signed 64 a then a else v) := by
  unfold atomNew
  split <;> simp_all

theorem exec_atomic {c : Instr × Nat} (hc : c ∈ [(Instr.fadd64, 0), (.cas64, 1), (.swap64, 2), (.fmin64, 3), (.fmax64, 4)]) :
    exec c.1 s = .next (atomStep c.2 s) := by
  simp only [List.mem_cons, List.not_mem_nil, or_false] at hc
  rcases hc with rfl | rfl | rfl | rfl | rfl <;> rfl

theorem atomStep_applies {k : Nat} (hfind : s.dev.atomics.find? (fun r => !r.isSignal) = some r) (hk : r.subop = k)
    (hpass : s.dev.atomPasses r (fun q => q.isSignal && s.dev.signalMay q) = false) :
    atomStep k s = s.onBoth (fun d m => ((atomApply r (d.atomDel r) m).1, (atomApply r (d.atomDel r) m).2.1)) := by
  unfold atomStep
  rw [hfind]
  dsimp only
  rw [if_pos ⟨hk, by rw [hpass]; rfl⟩]

theorem atomStep_held {k : Nat} (hfind : s.dev.atomics.find? (fun r => !r.isSignal) = some r)
    (hpass : s.dev.atomPasses r (fun q => q.isSignal && s.dev.signalMay q) = true) : atomStep k s = s := by
  unfold atomStep
  rw [hfind]
  exact if_neg (fun h => by rw [hpass] at h; exact absurd h.2 (by decide))

theorem exec_signalTakeEffect (hfind : s.dev.atomics.find? (fun r => r.isSignal && s.dev.signalMay r) = some r) :
    exec .signalTakeEffect s = .next (if s.dev.atomPasses r (fun q => !q.isSignal) then s else s.onBoth (fun d m =>
      signalNotice r (atomApply r (d.atomDel r) m).2.2 (atomApply r (d.atomDel r) m).1 (atomApply r (d.atomDel r) m).2.1)) := by
  change execSignalTakeEffect s = _
  unfold execSignalTakeEffect
  rw [hfind]

theorem signalNotice_none (new : Nat) (h : d.f R.WINDOW.NOTIFY_EN r.win = 0) : signalNotice r new d m = (d, m) :=
  if_neg (by simp [Dev.on, h])

theorem signalNotice_off (new : Nat) (h : d.f R.WINDOW.NOTIFY_EN r.win = 1) (hoff : d.f R.CQ_CTL.ENABLE (d.f R.WINDOW.NOTIFY_CQ r.win) = 0) :
    signalNotice r new d m = (d.bump R.CQ_ERR.DROPPED (d.f R.WINDOW.NOTIFY_CQ r.win), m) :=
  (if_pos (by simp [Dev.on, h])).trans (if_neg (by simp [Dev.on, hoff]))

theorem isSignal_of_find {p : AtomReq → Bool} (hfind : s.dev.atomics.find? (fun r => r.isSignal && p r) = some r) : r.isSignal = true := by
  have h := List.find?_some hfind
  simp only [Bool.and_eq_true] at h
  exact h.1

theorem offPorts_window (x : Fld) (j : Nat) (h : 0x14000000 ≤ x.base) : OffPorts (x.key j) := .inr (by unfold Fld.key; omega)

theorem offPorts_cq (x : Fld) {j : Nat} (hj : j < 4096) (hb : x.base + 4096 * x.stride < 0x900000) : OffPorts (x.key j) := by
  refine .inl ?_
  have : x.stride * j ≤ 4096 * x.stride := by rw [Nat.mul_comm]; exact Nat.mul_le_mul_right _ (by omega)
  unfold Fld.key
  omega

/-- Settles O33: each command applies the oldest request of its kind (`atomApply`), whose write stands in memory at once and whose requests to
the node change no word of a window or of a queue. -/
theorem atomicsApplyAtTheirTarget : Obligations.AtomicsApplyAtTheirTarget := by
  unfold Obligations.AtomicsApplyAtTheirTarget
  refine ⟨?_, ?_, ?_, ?_, ?_, ?_⟩
  · intro c r s hc hfind hsub hpass
    have hatom : r.isSignal = false := by simpa using List.find?_some hfind
    refine ⟨_, exec_atomic hc, ?_⟩
    rw [atomStep_applies hfind hsub hpass]
    have hmem := atomApply_mem (r := r) (d := s.dev) (m := s.mem)
    rw [hatom, if_neg (by decide), hsub, atomNew_table] at hmem
    dsimp only [State.onBoth]
    rw [hmem]
    exact ⟨memGet_memWrite_leBytes _ _, fun b hb => memGet_memWrite_outside _ _ _ _ (by rw [length_leBytes]; exact hb),
      atomApply_atomics (List.mem_of_find?_eq_some hfind)⟩
  · intro c r o s hc hfind hsub hown hloc hpass hget hopen
    refine ⟨_, exec_atomic hc, ?_⟩
    rw [atomStep_applies hfind hsub hpass]
    exact ⟨_, atomApply_ends hown hloc hget hopen, rfl, rfl, rfl⟩
  · intro r s hfind hquiet hpass
    refine ⟨_, exec_signalTakeEffect hfind, ?_⟩
    have hmem := atomApply_mem (r := r) (d := s.dev) (m := s.mem)
    rw [isSignal_of_find hfind, if_pos rfl] at hmem
    have hen : (atomApply r (s.dev.atomDel r) s.mem).1.f R.WINDOW.NOTIFY_EN r.win = 0 :=
      (f_of_word (atomApply_word (offPorts_window _ _ (by decide)))).trans hquiet
    rw [hpass, if_neg (by decide)]
    dsimp only [State.onBoth]
    rw [signalNotice_none _ hen]
    dsimp only
    rw [hmem]
    exact ⟨memGet_memWrite_leBytes _ _, fun b hb => memGet_memWrite_outside _ _ _ _ (by rw [length_leBytes]; exact hb),
      atomApply_atomics (List.mem_of_find?_eq_some hfind)⟩
  · intro r s hfind hnotify hpass hoff
    refine ⟨_, exec_signalTakeEffect hfind, ?_⟩
    have hen : (atomApply r (s.dev.atomDel r) s.mem).1.f R.WINDOW.NOTIFY_EN r.win = 1 :=
      (f_of_word (atomApply_word (offPorts_window _ _ (by decide)))).trans hnotify
    have hq : (atomApply r (s.dev.atomDel r) s.mem).1.f R.WINDOW.NOTIFY_CQ r.win = s.dev.f R.WINDOW.NOTIFY_CQ r.win :=
      f_of_word (atomApply_word (offPorts_window _ _ (by decide)))
    have hlt : s.dev.f R.WINDOW.NOTIFY_CQ r.win < 4096 := f_lt s.dev R.WINDOW.NOTIFY_CQ r.win
    have hcq : (atomApply r (s.dev.atomDel r) s.mem).1.f R.CQ_CTL.ENABLE (s.dev.f R.WINDOW.NOTIFY_CQ r.win) = 0 :=
      (f_of_word (atomApply_word (offPorts_cq _ hlt (by decide)))).trans hoff
    have hdropped : (atomApply r (s.dev.atomDel r) s.mem).1.f R.CQ_ERR.DROPPED (s.dev.f R.WINDOW.NOTIFY_CQ r.win) =
        s.dev.f R.CQ_ERR.DROPPED (s.dev.f R.WINDOW.NOTIFY_CQ r.win) := f_of_word (atomApply_word (offPorts_cq _ hlt (by decide)))
    rw [hpass, if_neg (by decide)]
    dsimp only [State.onBoth]
    rw [signalNotice_off _ hen (by rw [hq]; exact hcq), hq, f_bump_same _ _ _ _ (by decide), hdropped]
  · intro c r s hc hfind hpass
    refine ⟨_, exec_atomic hc, atomStep_held hfind hpass⟩
  · intro r s hfind hpass
    refine ⟨_, exec_signalTakeEffect hfind, ?_⟩
    rw [hpass, if_pos rfl]

end Sys2Proof.Laws
end

section
/-! What stays of a block when operations, contexts, carriers and peers change (R29, R157, R237): one lemma per function of the model that such
a change calls, after the function's own shape. -/

namespace Sys2Proof.Laws

-- One theorem after another: a thread of its own for each passes the memory that the whole text may take.
set_option Elab.async false

open Sys2Proof Sys2Proof.Machine

/-- What neither operations nor contexts nor carriers hold: the rings, the Catalogue's versions and the hold of its CEP values, and the time. -/
def sparedParts (d : Dev) : List (Nat × RingX) × Images × Nat × Nat × Nat := (d.rings, d.cats, d.catHeld, d.catHold, d.now)

/-- The keys of CAT_CTL, CAT_SELF, CAT_STATE, CAT_ID and CAT_READY (Table 8.8). -/
abbrev CatWord (k : Nat) : Prop := 0x400000 ≤ k ∧ k < 0x400028

/-- d holds those parts, and those words of the Catalogue, as a does. -/
structure Spared (a d : Dev) : Prop where
  parts : sparedParts d = sparedParts a
  words : ∀ k, CatWord k → d.word k = a.word k

variable {a d : Dev}

namespace Spared

/-! ### The shapes that the model's functions are made of -/

theorem upd {e : Dev} (h : Spared a d) (hparts : sparedParts e = sparedParts d) (hwords : e.words = d.words) : Spared a e :=
  ⟨hparts.trans h.parts, fun k hk => (congrArg (tabGet resetWord · k) hwords).trans (h.words k hk)⟩

section
variable {α β : Type} {c : Prop} [Decidable c]

theorem pair {d : Dev} {b : α} (h : Spared a d) : Spared a (d, b).1 := h
theorem pairSnd {x : α} {b : Dev × β} (h : Spared a b.1) : Spared a (x, b).2.1 := h
theorem ite {d e : Dev} (hd : Spared a d) (he : Spared a e) : Spared a (if c then d else e) := by split <;> assumption
theorem iteFst {d e : Dev × α} (hd : Spared a d.1) (he : Spared a e.1) : Spared a (if c then d else e).1 := by split <;> assumption
theorem iteSndFst {d e : α × Dev × β} (hd : Spared a d.2.1) (he : Spared a e.2.1) : Spared a (if c then d else e).2.1 := by split <;> assumption

/-- A choice whose first branch goes on from the second. -/
theorem iteOf {d e : Dev} (he : Spared a e) (hd : Spared a e → Spared a d) : Spared a (if c then d else e) := ite (hd he) he
theorem iteOfFst {d e : Dev × α} (he : Spared a e.1) (hd : Spared a e.1 → Spared a d.1) : Spared a (if c then d else e).1 := iteFst (hd he) he

/-- A choice whose second branch goes on from the first. -/
theorem iteElse {d e : Dev} (hd : Spared a d) (he : Spared a d → Spared a e) : Spared a (if c then d else e) := ite hd (he hd)

theorem foldl {d : Dev} {f : Dev → α → Dev} {l : List α} (hf : ∀ {d x}, Spared a d → Spared a (f d x)) (h : Spared a d) : Spared a (l.foldl f d) := by
  induction l generalizing d with
  | nil => exact h
  | cons x t ih => exact ih (hf h)
end

theorem setOff {x : Fld} {i v : Nat} (hw : Spared a d) (hx : ¬ CatWord (x.key i)) : Spared a (d.set x i v) :=
  ⟨hw.parts, fun k hk => (word_set_other d x i v (fun h => hx (h ▸ hk))).trans (hw.words k hk)⟩

theorem set {x : Fld} {i v : Nat} (hw : Spared a d) (hx : 0x400028 ≤ x.base := by decide) : Spared a (d.set x i v) :=
  hw.setOff (fun h => by unfold CatWord Fld.key at h; omega)

/-- A field of the blocks below the Catalogue's. -/
theorem setLow {x : Fld} {i v : Nat} (hw : Spared a d) (hx : x.key i < 0x400000 := by decide) : Spared a (d.set x i v) :=
  hw.setOff (fun h => Nat.not_lt.2 h.1 hx)

/-- A field of one of the two time domains. -/
theorem setDom {x : Fld} {i v : Nat} (hw : Spared a d) (hi : i < 2) (hx : x.base + x.stride < 0x400000 := by decide) : Spared a (d.set x i v) := by
  refine hw.setLow (lt_of_le_of_lt ?_ hx)
  have : x.stride * i ≤ x.stride * 1 := Nat.mul_le_mul_left _ (by omega)
  unfold Fld.key
  omega

theorem bump {x : Fld} {i n : Nat} (hw : Spared a d) (hx : 0x400028 ≤ x.base := by decide) : Spared a (d.bump x i n) := .set hw hx
theorem drop {x : Fld} {i n : Nat} (hw : Spared a d) (hx : 0x400028 ≤ x.base := by decide) : Spared a (d.drop x i n) := .set hw hx

/-! ### Parts of the block -/

theorem emit {o} (hw : Spared a d) : Spared a (d.emit o) := .upd hw rfl rfl
theorem send {site c} (hw : Spared a d) : Spared a (d.send site c) := .upd hw rfl rfl
theorem setCtx {c x} (hw : Spared a d) : Spared a (d.setCtx c x) := .upd hw rfl rfl
theorem onCtx {c g} (hw : Spared a d) : Spared a (d.onCtx c g) := .setCtx hw
theorem setPeer {p x} (hw : Spared a d) : Spared a (d.setPeer p x) := .upd hw rfl rfl
theorem recoverEnd {r} (hw : Spared a d) : Spared a (d.recoverEnd r) :=
  .ite (.upd hw rfl rfl) (.ite (.upd hw rfl rfl) (.iteOf (.set (.set (.upd hw rfl rfl))) .bump))
theorem recoverSweep (hw : Spared a d) : Spared a d.recoverSweep := by
  unfold Dev.recoverSweep
  split; exacts [hw, .ite hw (.recoverEnd hw)]
theorem recoverStart {pick reqs} (hw : Spared a d) : Spared a (d.recoverStart pick reqs) :=
  .ite (.recoverSweep hw) (.ite (.recoverSweep hw) (.upd (.recoverSweep hw) rfl rfl))
theorem recoverGone {c} (hw : Spared a d) : Spared a (d.recoverGone c) := by
  unfold Dev.recoverGone
  split; exacts [hw, .ite (.recoverEnd hw) hw]
theorem alarm {uclass unit cond level detail kind peers} (hw : Spared a d) : Spared a (d.alarm uclass unit cond level detail kind peers) := by
  unfold Dev.alarm
  dsimp only
  exact .ite hw (.ite (.upd hw rfl rfl) (.ite (.upd hw rfl rfl) (by split; exacts [.upd (.bump hw) rfl rfl, .upd (.bump hw) rfl rfl])))

/-! ### LRM requests -/

theorem setWfq {k x} (hw : Spared a d) : Spared a (d.setWfq k x) := .upd hw rfl rfl
theorem wfqWake {k i} (hw : Spared a d) : Spared a (d.wfqWake k i) := .setWfq hw
theorem setPortQueue {p l} (hw : Spared a d) : Spared a (d.setPortQueue p l) := .upd hw rfl rfl
theorem enqueue {p q} (hw : Spared a d) : Spared a (d.enqueue p q) := .setPortQueue (.iteOf (.iteOf (.ite (.wfqWake hw) hw) .wfqWake) .bump)
theorem transmit {q} (hw : Spared a d) : Spared a (d.transmit q) := by
  unfold Dev.transmit
  split; exacts [hw, .enqueue hw]
theorem request {use write host node addr len data tenant} (hw : Spared a d) : Spared a (d.request use write host node addr len data tenant) :=
  .ite (.emit (.upd hw rfl rfl)) (.ite (.emit (.upd hw rfl rfl)) (.ite (.transmit (.upd hw rfl rfl)) (.upd hw rfl rfl)))

/-! ### Buffers, logs and keys -/

theorem lineSettle (hw : Spared a d) : Spared a d.lineSettle := .upd hw rfl rfl
theorem setLent {p l} (hw : Spared a d) : Spared a (d.setLent p l) := .upd hw rfl rfl
theorem poolSync {p} (hw : Spared a d) : Spared a (d.poolSync p) := .set (.set (.set hw))
theorem heldSync {t} (hw : Spared a d) : Spared a (d.heldSync t) := .set hw
theorem loanSync {x} (hw : Spared a d) : Spared a (d.loanSync x) := .heldSync (.poolSync (.poolSync hw))
theorem borrow {c tx} (hw : Spared a d) : Spared a (d.borrow c tx).1 := by
  unfold Dev.borrow
  dsimp only
  exact .iteOfFst (.pair (.bump hw)) (fun h' => (by split; exacts [h', .pair (.loanSync (.setCtx (.setLent hw)))]))
theorem annexTake {t k n} (hw : Spared a d) : Spared a (d.annexTake t k n) := .upd hw rfl rfl
theorem annexPlace {t q pages mirror placed stack p} (hw : Spared a d) (hp : d.annexPlace t q pages mirror placed stack = some p) :
    Spared a p.1 := by
  unfold Dev.annexPlace at hp
  split at hp
  · obtain ⟨-, h⟩ := Option.ite_none_right_eq_some.mp hp
    cases h; exact .annexTake (.annexTake hw)
  · obtain ⟨-, h⟩ := Option.ite_none_right_eq_some.mp hp
    cases h; exact .annexTake hw
theorem annexGive {t k n} (hw : Spared a d) : Spared a (d.annexGive t k n) := .upd hw rfl rfl
theorem annexDrop {t home k n} (hw : Spared a d) : Spared a (d.annexDrop t home k n) := .ite (.annexGive hw) (.upd hw rfl rfl)
theorem setHalf {i k} (hw : Spared a d) : Spared a (d.setHalf i k) := .upd hw rfl rfl
theorem setBound {i b} (hw : Spared a d) : Spared a (d.setBound i b) := .upd hw rfl rfl
theorem writeEpoch {x h e} (hw : Spared a d) : Spared a (d.writeEpoch x h e) := .ite (.setHalf hw) hw
theorem enterEpoch {x out e} (hw : Spared a d) : Spared a (d.enterEpoch x out e) := .writeEpoch hw
theorem markReceived {c seq} (hw : Spared a d) : Spared a (d.markReceived c seq) := .ite (.enterEpoch (.setCtx hw)) (.setCtx hw)
theorem received {c seq} (hw : Spared a d) : Spared a (d.received c seq) := .onCtx (.markReceived hw)
theorem openKeys {c} (hw : Spared a d) : Spared a (d.openKeys c) := .ite (.writeEpoch (.writeEpoch (.writeEpoch (.writeEpoch (.setCtx hw))))) hw
theorem dropPair {pair} (hw : Spared a d) : Spared a (d.dropPair pair) := .setBound (.setHalf (.setHalf (.setHalf (.setHalf hw))))

/-! ### Codec slots and ends of operations -/

theorem setSlotImg {slot v c} (hw : Spared a d) : Spared a (d.setSlotImg slot v c) := .upd hw rfl rfl
theorem unstage {n ver} (hw : Spared a d) : Spared a (d.unstage n ver) := .ite (.set (.upd hw rfl rfl)) (.upd hw rfl rfl)
theorem slotDiscard {n} (hw : Spared a d) : Spared a (d.slotDiscard n) := by
  unfold Dev.slotDiscard
  extract_lets d1
  have h1 : Spared a d1 := .set (.set (.set (.setSlotImg (.setSlotImg hw))))
  exact .unstage (.upd h1 rfl rfl)
theorem refBase {v : Nat} : 0x400028 ≤ (refFld v).base := by unfold refFld; split <;> decide
theorem refTake {b} (hw : Spared a d) : Spared a (d.refTake b) := .bump hw refBase
theorem refDrop {b} (hw : Spared a d) : Spared a (d.refDrop b) := .ite (.slotDiscard (.drop hw refBase)) (.drop hw refBase)
theorem updOp {n i g} (hw : Spared a d) : Spared a (d.updOp n i g) := .upd hw rfl rfl
theorem endOp {n i status detail} (hw : Spared a d) : Spared a (d.endOp n i status detail) := by
  unfold Dev.endOp
  dsimp only
  split; exacts [hw, .ite hw (.upd hw rfl rfl)]
theorem refuseOp {n i status} (hw : Spared a d) : Spared a (d.refuseOp n i status) := .endOp (.updOp hw)
theorem okOp {n i} (hw : Spared a d) : Spared a (d.okOp n i) := by
  unfold Dev.okOp
  split; exacts [hw, .endOp hw]
theorem winRead {use w off len tenant} (hw : Spared a d) : Spared a (d.winRead use w off len tenant) := .request hw
theorem targetRefused {status} (hw : Spared a d) : Spared a (d.targetRefused status) := .ite (.setLow hw) hw
theorem askOp {n i} (hw : Spared a d) : Spared a (d.askOp n i) := by
  unfold Dev.askOp
  dsimp only
  split; exacts [hw, .ite hw (.winRead (.updOp hw))]
theorem deltaInFree {x} (hw : Spared a d) : Spared a (d.deltaInFree x) := .upd (.iteOf (.ite hw (.annexGive hw)) .annexGive) rfl rfl
theorem deltaInPlace {site jobId rank win off tenant len q stack d'} (hw : Spared a d)
    (hp : d.deltaInPlace site jobId rank win off tenant len q stack = some d') : Spared a d' := by
  unfold Dev.deltaInPlace at hp
  dsimp only at hp
  split at hp
  · cases hp
  · next h => cases hp; exact .upd (.annexPlace hw h) rfl rfl
theorem deltaInOpen {site jobId rank win off tenant len q stack kind} (hw : Spared a d) :
    Spared a (d.deltaInOpen site jobId rank win off tenant len q stack kind).1 := by
  unfold Dev.deltaInOpen
  extract_lets old whole d1
  have h1 : Spared a d1 := by dsimp only [d1, old]; split; exacts [.deltaInFree hw, hw]
  refine .iteFst hw (.iteFst hw ?_)
  split
  · exact h1
  · next h => exact .deltaInPlace h1 h
theorem atomArrive {r} (hw : Spared a d) : Spared a (d.atomArrive r) := .upd hw rfl rfl
theorem launchLocal {o} (hw : Spared a d) : Spared a (d.launchLocal o) := by
  unfold Dev.launchLocal
  extract_lets x n i t len jid st d0
  have h0 : Spared a d0 := .updOp hw
  exact .ite (.endOp (.targetRefused h0)) (.ite (.atomArrive h0) (.ite (.ite (.endOp (.deltaInOpen h0)) (.askOp (.deltaInOpen h0))) (.askOp h0)))
theorem launchOn {c o} (hw : Spared a d) : Spared a (d.launchOn c o) := .ite hw (.iteOf (.onCtx (.updOp hw)) .askOp)

/-! ### Collectives -/

theorem updColl {id g} (hw : Spared a d) : Spared a (d.updColl id g) := .upd hw rfl rfl
theorem collCount (hw : Spared a d) : Spared a d.collCount := .set hw
theorem collDiscard {id} (hw : Spared a d) : Spared a (d.collDiscard id) := .foldl (fun h' => .onCtx (.foldl .received h')) hw
theorem noticeStatus {id st} (hw : Spared a d) : Spared a (d.noticeStatus id st) := .upd hw rfl rfl
theorem noteCollEnd {id key} (hw : Spared a d) : Spared a (d.noteCollEnd id key) := .upd hw rfl rfl
theorem collFail {id st notify detail} (hw : Spared a d) : Spared a (d.collFail id st notify detail) := by
  unfold Dev.collFail
  split
  · exact hw
  · split
    · exact .ite (.noticeStatus (.updColl (.foldl .updOp hw))) hw
    · extract_lets st' d1 d2 d3 d4
      have h2 : Spared a d2 := .updColl (.foldl .endOp hw)
      have h3 : Spared a d3 := .upd h2 rfl rfl
      have h4 : Spared a d4 := .noteCollEnd (.collCount (.iteOf h3 .collDiscard))
      exact .iteOf h4 (.upd · rfl rfl)

/-! ### Accession and contexts -/

theorem reserve {r} (hw : Spared a d) : Spared a (d.reserve r).2.1 := by
  unfold Dev.reserve
  dsimp only
  refine .iteSndFst hw (.iteSndFst hw (.iteSndFst hw ?_))
  split
  · exact hw
  · next h =>
    have h1 := Spared.annexPlace hw h
    split
    · exact hw
    · exact hw
    · exact .pairSnd (.pair (.onCtx (.foldl (fun h' => .borrow h') (.setBound (.setCtx h1)))))
theorem sendAccept {c m} (hw : Spared a d) : Spared a (d.sendAccept c m) := .send hw
theorem sendRefuse {m sealed st} (hw : Spared a d) : Spared a (d.sendRefuse m sealed st) := .send hw
theorem cmdDone {st stream} (hw : Spared a d) : Spared a (d.cmdDone st stream) := .iteElse (.set (.set (.set hw))) .set
theorem failKey {k st} (hw : Spared a d) : Spared a (d.failKey k st) := .foldl .collFail (.foldl .endOp hw)
theorem launchNext {c o} (hw : Spared a d) : Spared a (d.launchNext c o) := .ite (.launchOn hw) hw
theorem ctxOpened {c} (hw : Spared a d) : Spared a (d.ctxOpened c) :=
  .iteOf (.onCtx (.upd (.foldl .launchNext hw) rfl rfl)) (fun h' => .cmdDone (.onCtx h'))
theorem openCtx {c m rtt fresh} (hw : Spared a d) : Spared a (d.openCtx c m rtt fresh) := .ctxOpened (.openKeys (.onCtx hw))
theorem ctxRefsDrop {c} (hw : Spared a d) : Spared a (d.ctxRefsDrop c) := .foldl .refDrop hw
theorem releaseCtx {c} (hw : Spared a d) : Spared a (d.releaseCtx c) := by
  unfold Dev.releaseCtx
  extract_lets x d0 d1 d2 t d3 d4 d5 y d6 d7
  have h2 : Spared a d2 := .setLent (.setLent (.ctxRefsDrop hw))
  have h3 : Spared a d3 := .ite (.annexDrop h2) h2
  have h4 : Spared a d4 := .ite (.annexDrop h3) h3
  have h5 : Spared a d5 := .ite (.dropPair h4) h4
  have h6 : Spared a d6 := .setCtx h5
  have h7 : Spared a d7 := .upd h6 rfl rfl
  exact .loanSync h7
theorem endWork {c st} (hw : Spared a d) : Spared a (d.endWork c st) := by
  unfold Dev.endWork
  extract_lets x colls d1 d2 d3 d4
  have h1 : Spared a d1 := .foldl .endOp hw
  have h2 : Spared a d2 := .ite (.failKey h1) h1
  have h3 : Spared a d3 := .ite h2 (.foldl .collFail h2)
  have h4 : Spared a d4 := .ctxRefsDrop h3
  exact .onCtx (.recoverGone h4)
theorem answerAccede {m r} (hw : Spared a d) : Spared a (d.answerAccede m r).1 := by
  unfold Dev.answerAccede
  extract_lets own p
  have hp : Spared a p.2.1 := .reserve hw
  exact .iteFst (.pair (.sendRefuse hw)) (.iteFst (.pair (.sendRefuse (.releaseCtx hp))) (.pair (.openCtx (.sendAccept hp))))
theorem holdAccede {m} (hw : Spared a d) : Spared a (d.holdAccede m) := .upd hw rfl rfl
theorem accedeNew {m job} (hw : Spared a d) : Spared a (d.accedeNew m job) := .ite (.answerAccede hw) (.holdAccede hw)
theorem startAccession {r} (hw : Spared a d) : Spared a (d.startAccession r).2.1 := by
  unfold Dev.startAccession
  dsimp only
  split
  · exact .pairSnd (.pair (.answerAccede (.upd hw rfl rfl)))
  · exact .iteSndFst (.pairSnd (.pair hw)) (.pairSnd (.pair (.send (.reserve hw))))
theorem wantCtx {k home} (hw : Spared a d) : Spared a (d.wantCtx k home) :=
  .ite hw (.ite hw (.ite hw (.ite (.failKey (.startAccession hw)) (.startAccession hw))))
theorem accede {m} (hw : Spared a d) : Spared a (d.accede m) := by
  unfold Dev.accede
  dsimp only
  split
  · exact .sendRefuse hw
  · split
    · exact .accedeNew hw
    · split
      · exact .ite (.iteOf (.releaseCtx (.failKey hw)) .cmdDone) (.ite (.iteOf (.releaseCtx (.failKey hw)) .cmdDone) (.openCtx hw))
      · exact .ite (.sendAccept hw) (.wantCtx (.accedeNew (.releaseCtx (.endWork hw))))
      · exact .ite (.sendAccept hw) (.wantCtx (.accedeNew (.releaseCtx (.endWork hw))))
      · exact .holdAccede hw
theorem keyFree {k home} (hw : Spared a d) : Spared a (d.keyFree k home) := by
  unfold Dev.keyFree
  dsimp only
  exact .wantCtx (by split; exacts [.accede (.upd hw rfl rfl), hw])
theorem closeCtx {c} (hw : Spared a d) : Spared a (d.closeCtx c) := .keyFree (.releaseCtx hw)
theorem settleFailed {c} (hw : Spared a d) : Spared a (d.settleFailed c) := .ite (.closeCtx hw) hw
theorem cmdEnd {c st} (hw : Spared a d) : Spared a (d.cmdEnd c st) := .ite (.cmdDone (.onCtx hw)) hw
theorem failCtx {c st} (hw : Spared a d) : Spared a (d.failCtx c st) := .ite hw (.settleFailed (.iteOf (.onCtx (.endWork (.cmdEnd hw))) .bump))
theorem markResend {c pick} (hw : Spared a d) : Spared a (d.markResend c pick) := .ite (.failCtx hw) (.ite (.onCtx (.lineSettle hw)) hw)
theorem resendCarrier {m} (hw : Spared a d) : Spared a (d.resendCarrier m) := .foldl .markResend hw

/-! ### Staged tables -/

theorem histFlush {slot w} (hw : Spared a d) : Spared a (d.histFlush slot w) := .ite hw (.upd hw rfl rfl)
theorem stage {w slot ver bound} (hw : Spared a d) : Spared a (d.stage w slot ver bound).1 := by
  unfold Dev.stage
  extract_lets mine new full
  split
  · exact .iteFst (.pair hw) (.pair (.upd hw rfl rfl))
  · exact .iteFst (.pair hw) (.iteFst (.pair (.upd hw rfl rfl)) (by split; exacts [.pair hw, .pair (.upd (.histFlush hw) rfl rfl)]))

/-! ### Carriers -/

theorem setKw {m x} (hw : Spared a d) : Spared a (d.setKw m x) := .upd hw rfl rfl
theorem onKw {m g} (hw : Spared a d) : Spared a (d.onKw m g) := .setKw hw
theorem setLine {m x} (hw : Spared a d) : Spared a (d.setLine m x) := .upd hw rfl rfl
theorem onLine {m g} (hw : Spared a d) : Spared a (d.onLine m g) := .setLine hw
theorem setPm {e x} (hw : Spared a d) : Spared a (d.setPm e x) := .upd hw rfl rfl
theorem onPm {e g} (hw : Spared a d) : Spared a (d.onPm e g) := .setPm hw
theorem pmDefect {e} (hw : Spared a d) : Spared a (d.pmDefect e) := .onPm hw
theorem txLeave {m} (hw : Spared a d) : Spared a (d.txLeave m) := .resendCarrier (.onLine (.set (.onKw (.ite (.recoverStart hw) hw))))
theorem pathWatch {q site} (hw : Spared a d) : Spared a (d.pathWatch q site) := by
  unfold Dev.pathWatch
  split; exacts [.ite (.pmDefect hw) hw, hw]
theorem rxLeave {m} (hw : Spared a d) : Spared a (d.rxLeave m) := by
  unfold Dev.rxLeave
  dsimp only
  split
  · exact .send (.alarm (.pathWatch (.upd (.set (.onKw hw)) rfl rfl)))
  · exact .alarm (.pathWatch (.upd (.set (.onKw hw)) rfl rfl))
theorem pmDue {m till} (hw : Spared a d) : Spared a (d.pmDue m till) := by
  unfold Dev.pmDue
  dsimp only
  split; exacts [hw, .foldl (fun h' => (by split; exacts [.onPm (.onPm h'), .onPm h'])) (.onPm hw)]
theorem pmSettle (hw : Spared a d) : Spared a d.pmSettle := .foldl .pmDue hw
theorem pmLive {m} (hw : Spared a d) : Spared a (d.pmLive m) := by
  unfold Dev.pmLive
  dsimp only
  split
  · exact .ite hw (.onPm (.pmDue hw))
  · exact .onPm (.ite hw (.onPm (.pmDue hw)))
  · exact .onPm (.onPm (.ite hw (.onPm (.pmDue hw))))
theorem regroup {d0 : Dev} {m} (hw : Spared a d0) : Spared a (d0.regroup m) := by
  unfold Dev.regroup
  extract_lets d' x d1 d2
  have h' : Spared a d' := .pmLive hw
  have h1 : Spared a d1 := .ite (.ite h' (.txLeave h')) (.ite (.set (.onKw h')) h')
  have h2 : Spared a d2 := .ite (.ite h1 (.ite (.set (.onKw h1)) (.rxLeave h1))) (.ite (.set (.onKw h1)) h1)
  exact .pathWatch h2
theorem regroupEngine {e} (hw : Spared a d) : Spared a (d.regroupEngine e) := .foldl .regroup hw

/-! ### Performance monitoring -/

theorem setServo {i x} (hw : Spared a d) : Spared a (d.setServo i x) := .upd hw rfl rfl
theorem pmStepped (hw : Spared a d) : Spared a d.pmStepped := .upd hw rfl rfl
theorem pmStep {forward} (hw : Spared a d) : Spared a (d.pmStep forward) := .upd hw rfl rfl
theorem pmDirty {ent} (hw : Spared a d) : Spared a (d.pmDirty ent) := .onPm hw

/-! ### Publishes and starts of operations -/

theorem updPub {site txn g} (hw : Spared a d) : Spared a (d.updPub site txn g) := .upd hw rfl rfl
theorem delPub {site txn} (hw : Spared a d) : Spared a (d.delPub site txn) := .upd hw rfl rfl
theorem pubOpEnd {p st} (hw : Spared a d) : Spared a (d.pubOpEnd p st) := by
  unfold Dev.pubOpEnd
  split; exacts [.ite (.okOp hw) (.endOp hw), hw]
theorem pubAbort {p st} (hw : Spared a d) : Spared a (d.pubAbort p st) := .pubOpEnd (.set (.updPub hw))
theorem pubSettle {site txn} (hw : Spared a d) : Spared a (d.pubSettle site txn) := by
  unfold Dev.pubSettle
  dsimp only
  split; exacts [hw, .ite hw (.ite (.delPub hw) (.ite (.delPub (.pubOpEnd hw)) (.pubOpEnd hw)))]
theorem pubDecide {site txn} (hw : Spared a d) : Spared a (d.pubDecide site txn) := by
  unfold Dev.pubDecide
  split; exacts [hw, .ite hw (by split; exacts [.pubAbort hw, .pubSettle (.updPub hw)])]
theorem pubPeerLost {site} (hw : Spared a d) : Spared a (d.pubPeerLost site) :=
  .foldl (fun h' => .ite (.pubSettle (.updPub (.ite (.pubAbort h') (.ite (.pubOpEnd h') h')))) h') hw
theorem pubStart {n i slot act jobId img} (hw : Spared a d) : Spared a (d.pubStart n i slot act jobId img) :=
  .ite hw (.foldl .pubPeerLost (.pubDecide (.set (.set (.upd hw rfl rfl)))))
theorem admitTarget {n i} (hw : Spared a d) : Spared a (d.admitTarget n i) := by
  unfold Dev.admitTarget
  dsimp only
  split
  · exact hw
  · exact .ite hw (.ite (.launchLocal hw) (.ite (.refuseOp hw) (by split; exacts [.wantCtx hw, .ite (.launchNext hw) hw])))
theorem deltaTake {n i o} (hw : Spared a d) : Spared a (d.deltaTake n i o) := by
  unfold Dev.deltaTake
  extract_lets x t s st pages hold q mirror place
  have hhold {e : Dev} (he : Spared a e) : Spared a (hold e) := .updOp (.set he)
  have hplace {p} (hp : place = some p) : Spared a p.1 := .annexPlace hw hp
  clear_value hold place
  split
  · refine .ite (hhold hw) ?_
    split
    · exact .refuseOp hw
    · exact hhold (.upd (hplace rfl) rfl rfl)
  · split
    · exact .refuseOp hw
    · exact hhold (.set (.set (.set (.set (.set (.upd (hplace rfl) rfl rfl))))))
theorem bindOp {n i o} (hw : Spared a d) : Spared a (d.bindOp n i o) := by
  unfold Dev.bindOp
  exact .ite hw (by split; exacts [hw, .updOp (.stage (.refTake hw))])
theorem collHold {n i o} (hw : Spared a d) : Spared a (d.collHold n i o) := by
  unfold Dev.collHold
  dsimp only
  split; exacts [.updColl hw, .upd hw rfl rfl]
theorem pageInstall {slot act img} (hw : Spared a d) : Spared a (d.pageInstall slot act img) :=
  .setLow (.setLow (.setLow (.setLow (.setLow (.upd hw rfl rfl)))))

/-! ### The timebase and its sources -/

theorem setSlew {v} (hw : Spared a d) : Spared a (d.setSlew v) := .upd (.foldl .setServo hw) rfl rfl
theorem ppsCross {from_ to_} (hw : Spared a d) : Spared a (d.ppsCross from_ to_) := .ite (.upd hw rfl rfl) hw
theorem stepBy {z} (hw : Spared a d) : Spared a (d.stepBy z) :=
  .ite hw (.iteOf (.pmStep (.iteElse (.iteElse (.upd (.pmSettle hw) rfl rfl) (.setDom · (by decide))) (.setDom · (by decide)))) .ppsCross)
theorem trustRefresh {i} (hw : Spared a d) (hi : i < 2) : Spared a (d.trustRefresh i) :=
  .ite hw (.ite (.pmStepped (.alarm (.setDom hw hi))) (.setDom hw hi))
theorem pmTrust (hw : Spared a d) : Spared a d.pmTrust := .ite hw (.pmStepped hw)
theorem switchTo {i} (hw : Spared a d) : Spared a (d.switchTo i) :=
  .setServo (.setLow (.setLow (.setSlew (.stepBy (.pmTrust hw)))))
theorem autoSwitch {i} (hw : Spared a d) : Spared a (d.autoSwitch i) := .ite (.switchTo hw) hw
theorem freerun {i} (hw : Spared a d) (hi : i < 2) : Spared a (d.freerun i) := .setDom (.setServo hw) hi
theorem sourceLost {i} (hw : Spared a d) (hi : i < 2) : Spared a (d.sourceLost i) := by
  unfold Dev.sourceLost
  extract_lets lost
  refine .ite hw ?_
  split
  · exact .trustRefresh (.setLow (.freerun hw hi)) hi
  · exact .autoSwitch (.trustRefresh (.setLow (.setDom (.setServo hw) hi)) hi)
  · exact .ite (.setLow (.setServo hw)) hw
  · exact hw

/-! ### Seals and peers -/

theorem drew (hw : Spared a d) : Spared a d.drew := .upd hw rfl rfl
theorem sealTimed {p} (hw : Spared a d) : Spared a (d.sealTimed p) := .upd hw rfl rfl
theorem sealFailed {p} (hw : Spared a d) : Spared a (d.sealFailed p) := .sealTimed (.set hw)
theorem setSeal {p x} (hw : Spared a d) : Spared a (d.setSeal p x) := .upd hw rfl rfl
theorem sealSend {site step session body} (hw : Spared a d) : Spared a (d.sealSend site step session body) := .foldl .send hw
theorem sealRefuse {p reason} (hw : Spared a d) : Spared a (d.sealRefuse p reason) := .ite (.set hw) (.bump (.sealFailed (.set hw)))
theorem sealing {p} (hw : Spared a d) : Spared a (d.sealing p) := .ite hw (.set hw)
theorem sealStart {p} (hw : Spared a d) : Spared a (d.sealStart p) := by
  unfold Dev.sealStart
  dsimp only
  refine .ite hw ?_
  split
  · exact hw
  · exact .ite (.sealRefuse hw) (.ite (.ite hw (.sealFailed hw)) (.sealSend (.sealing (.setSeal (.drew (.drew (.drew hw)))))))
theorem sealAll (hw : Spared a d) : Spared a d.sealAll := .foldl (fun h' => .ite (.sealStart h') h') hw
theorem planPeers (hw : Spared a d) : Spared a d.planPeers :=
  .foldl (fun h' => .ite (.ite (.set (.setPeer h')) h') (.ite h' (.set (.setPeer h')))) hw

end Spared

end Sys2Proof.Laws
end

section
/-! A started descriptor is held back or checked (R29, R38, R62), whatever its opcode. -/

namespace Sys2Proof.Laws

-- One theorem after another: a thread of its own for each passes the memory that the whole text may take.
set_option Elab.async false

open Sys2Proof Sys2Proof.Machine

variable {d e : Dev} {n i : Nat} {o : Op} {x : Desc} {v : Verdict} {rest : List (Nat × Desc)} {s : State} {m : List Host.Cell}

/-! ### The rings stay as they are while an operation starts -/

theorem Spared.refl : Spared d d := ⟨rfl, fun _ _ => rfl⟩

theorem rings_of_spared (h : Spared d e) : e.rings = d.rings := congrArg Prod.fst h.parts

theorem rings_admitAt : (d.admitAt n i m).rings = d.rings := by
  unfold Dev.admitAt
  split
  · rfl
  · dsimp only
    split
    · exact rings_of_spared (.endOp .refl)
    · rfl
    · exact rings_of_spared (.collHold .refl)
    · split
      · exact rings_of_spared (.pubStart (.updOp .refl))
      · split
        · rfl
        · split
          · exact (rings_of_spared (.endOp .refl)).trans (rfl : (d.catInstall _ _ _).rings = d.rings)
          · exact (rings_of_spared (.endOp .refl)).trans (rfl : (d.pageInstall _ _ _).rings = d.rings)
    · split
      · exact rings_of_spared (.refuseOp .refl)
      · exact rings_of_spared (.admitTarget (.deltaTake (.bindOp .refl)))
    · exact rings_of_spared (.admitTarget (.bindOp .refl))

theorem rings_submit : (d.submit n i m).rings = d.rings := by
  unfold Dev.submit
  split
  · rfl
  · dsimp only
    split
    · split
      · split
        · split
          · exact rings_of_spared (.collFail (.endOp .refl))
          · exact rings_of_spared (.endOp .refl)
        · exact rings_of_spared (.endOp .refl)
      · exact rings_of_spared (.endOp .refl)
    · exact rings_admitAt

/-! ### What is done stays done -/

theorem getOp_endOp_done {n' i' st dt : Nat} (hget : d.getOp n i = some o) (hdone : o.stage = .done) : (d.endOp n' i' st dt).getOp n i = some o := by
  unfold Dev.endOp
  split
  · exact hget
  · next p hp =>
    split
    · exact hget
    · next hopen =>
      have hother : ¬ ((o.ring == n' && o.index == i') = true) := fun heq => by
        simp only [Bool.and_eq_true, beq_iff_eq] at heq
        obtain ⟨hn, hi⟩ := getOp_names hget
        rw [← heq.1, ← heq.2, hn, hi, hget] at hp
        cases hp
        exact hopen hdone
      change (d.updOp n' i' (fun o => { o with stage := .done, verdict := ⟨st, dt⟩ })).getOp n i = some o
      rw [getOp_updOp (by exact fun _ => ⟨rfl, rfl⟩), hget, Option.map_some, if_neg hother]

theorem ops_markReceived (c seq : Nat) : (d.markReceived c seq).ops = d.ops := by
  unfold Dev.markReceived
  extract_lets x old p news y d1
  split
  · unfold Dev.enterEpoch Dev.writeEpoch
    split <;> rfl
  · rfl

theorem ops_collDiscard (id : Nat) : (d.collDiscard id).ops = d.ops :=
  List.foldlRecOn (motive := fun (a : Dev) => a.ops = d.ops) _ _ rfl (fun _ ha _ _ =>
    List.foldlRecOn (motive := fun (b : Dev) => b.ops = d.ops) _ _ ha (fun _ hb _ _ => (ops_markReceived _ _).trans hb))

/-- An operation that is done keeps its verdict when a collective fails that has not ended (R123). -/
theorem getOp_collFail_done {id st : Nat} {notify : Bool} {dt : Nat} {c : Coll} (hcoll : d.coll id = some c) (hrun : c.ended = none)
    (hget : d.getOp n i = some o) (hdone : o.stage = .done) : (d.collFail id st notify dt).getOp n i = some o := by
  unfold Dev.collFail
  rw [hcoll]
  dsimp -zeta only
  rw [hrun]
  dsimp -zeta only
  extract_lets st' d1 d2 d3 d4
  have h1 : d1.getOp n i = some o :=
    List.foldlRecOn (motive := fun (a : Dev) => a.getOp n i = some o) _ _ hget (fun _ ha _ _ => getOp_endOp_done ha hdone)
  have h3 : d3.getOp n i = some o := h1
  have h4 : d4.getOp n i = some o := by
    refine (getOp_of_ops (d := d3) ?_).trans h3
    change (if notify || c.admitted then d3.collDiscard id else d3).ops = d3.ops
    split
    · exact ops_collDiscard id
    · rfl
  split
  · exact h4
  · exact h4

/-! ### A check that fails -/

theorem firstBad_isNone {l : List (Bool × Verdict)} (h : (firstBad l).isNone = true) {b : Bool × Verdict} (hb : b ∈ l) : b.1 = false := by
  unfold firstBad at h
  rw [Option.isNone_map, Option.isNone_iff_eq_none, List.find?_eq_none] at h
  simpa using h b hb

/-- A COLLECTIVE that fails no check but that its collective differs names one that has not ended (R108). -/
theorem ended_of_collCheck {c : Coll} (hcoll : d.coll x.collId = some c) (hbad : (firstBad ((d.collCheck n x).take 3)).isNone = true) :
    c.ended = none := by
  have hsame := firstBad_isNone hbad (b := ((d.collCheck n x)[2]'(by simp [Dev.collCheck]))) (by simp [Dev.collCheck])
  simp only [Dev.collCheck, hcoll, List.getElem_cons_succ, List.getElem_cons_zero, Bool.or_eq_false_iff] at hsame
  obtain ⟨⟨⟨⟨-, hended⟩, -⟩, -⟩, -⟩ := hsame
  simpa using hended

theorem coll_id {id : Nat} {c : Coll} (h : d.coll id = some c) : c.id = id := by
  simpa using List.find?_some h

theorem coll_endOp {id st dt : Nat} : (d.endOp n i st dt).coll id = d.coll id := by
  unfold Dev.endOp
  split
  · rfl
  · split <;> rfl

/-- A descriptor that fails a check ends with that check's status and DETAIL (R62). -/
theorem getOp_submit_fails (hget : d.getOp n i = some o) (hopen : o.stage ≠ .done) (hfail : d.submitCheck n o.d m = some v) :
    (d.submit n i m).getOp n i = some { o with stage := .done, verdict := v } := by
  have hend : (d.endOp n i v.status v.detail).getOp n i = some { o with stage := .done, verdict := v } :=
    (getOp_endOp_same hget).trans (congrArg some (opEnded_open hopen))
  unfold Dev.submit
  rw [hget]
  dsimp only
  rw [hfail]
  dsimp only
  split
  · split
    · next c hcoll =>
      split
      · next hbad =>
        have hrun := ended_of_collCheck hcoll (Bool.and_eq_true_iff.1 hbad).1
        rw [coll_id hcoll]
        exact getOp_collFail_done (coll_endOp.trans hcoll) hrun hend rfl
      · exact hend
    · exact hend
  · exact hend

/-- Each command that starts a descriptor runs `startDesc` for the descriptors of its opcode and kind. -/
theorem exec_startCommand {n : Fin 4096} {c : Instr} {op : Nat} {kind : Option Nat} (hc : (c, op, kind) ∈ startCommands n) (hop : x.opcode = op)
    (hkind : ∀ k, kind = some k → x.kind = k) : ∃ mine : Desc → Bool, mine x = true ∧ exec c s = .next (startDesc n mine s) := by
  simp only [startCommands, List.mem_cons, List.not_mem_nil, or_false, Prod.mk.injEq] at hc
  rcases hc with ⟨rfl, rfl, rfl⟩ | ⟨rfl, rfl, rfl⟩ | ⟨rfl, rfl, rfl⟩ | ⟨rfl, rfl, rfl⟩ | ⟨rfl, rfl, rfl⟩ |
    ⟨rfl, rfl, rfl⟩ | ⟨rfl, rfl, rfl⟩ | ⟨rfl, rfl, rfl⟩ | ⟨rfl, rfl, rfl⟩ | ⟨rfl, rfl, rfl⟩ |
    ⟨rfl, rfl, rfl⟩ | ⟨rfl, rfl, rfl⟩ | ⟨rfl, rfl, rfl⟩ | ⟨rfl, rfl, rfl⟩ | ⟨rfl, rfl, rfl⟩ <;>
  exact ⟨_, by simp [hop, hkind], rfl⟩

/-- Settles O19: the descriptor leaves the front into a new operation, and `submit` touches no ring. -/
theorem startedDescriptorsAreCheckedOrHeld : Obligations.StartedDescriptorsAreCheckedOrHeld := by
  unfold Obligations.StartedDescriptorsAreCheckedOrHeld
  intro n c op kind i x rest s hc hfront hop hkind hnone
  obtain ⟨mine, hmine, hexec⟩ := exec_startCommand (s := s) hc hop hkind
  refine ⟨_, hexec, ?_⟩
  rw [startDesc_of_front hfront hmine]
  dsimp only [State.onBoth]
  have hrest : ((taken s.dev n i x rest).ring n).fetched = rest := by
    change ((s.dev.setRing n _).ring n).fetched = rest
    rw [ring_setRing, if_pos rfl]
  refine ⟨?_, fun _ => rfl, fun hheld => ?_, fun hfree v hfail => ?_⟩
  · split
    · exact hrest
    · exact (congrArg (fun r => (tabGet (fun _ => RingX.empty) r n).fetched) rings_submit).trans hrest
  · rw [if_pos hheld]
    exact ⟨_, getOp_taken hnone, rfl, rfl⟩
  · rw [hfree, if_neg (by decide)]
    have hsame : (taken s.dev n i x rest).submitCheck n (newOp n i x).d s.mem = some v := (submitCheck_taken s.mem).trans hfail
    exact ⟨_, getOp_submit_fails (getOp_taken hnone) (nofun : Stage.held ≠ .done) hsame, rfl, rfl, rfl⟩

end Sys2Proof.Laws
end

section
/-! Pending versions and pages (R218, R222, R223, R237 to R241): announcements, cancellations, commit points and reads of the images. -/

namespace Sys2Proof.Laws

-- One theorem after another: a thread of its own for each passes the memory that the whole text may take.
set_option Elab.async false

open Sys2Proof Sys2Proof.Machine

variable {d e : Dev} {s : State}

/-! ### A message of a peer -/

theorem fromPeer_of {site gw x : Nat} {g : Nat → Dev → Dev} (h : FromPeer s site gw x) : s.dev.fromPeer site gw true g = g x (s.dev.contact x) := by
  obtain ⟨hident, hpeer⟩ := h
  unfold Dev.fromPeer
  rw [if_pos rfl, if_pos hident, hpeer]

theorem word_contact {p k : Nat} (hk : k ≠ R.HEALTH_PEER.STATE.key p) : (d.contact p).word k = d.word k := by
  unfold Dev.contact
  split
  · exact word_set_other _ _ _ _ hk
  · rfl

/-- The fields of the blocks before the Curator's health block read the same after contact. -/
theorem f_contact {p j : Nat} {y : Fld} (hy : y.key j < 0xD08000) : (d.contact p).f y j = d.f y j :=
  f_of_word (word_contact (by change _ ≠ 0xD08000 + 0x8 * p; omega))

/-- A block without its register words and its peers. -/
def sansPeers (d : Dev) : Dev := { d with words := [], peers := [] }

theorem sansPeers_contact (p : Nat) : sansPeers (d.contact p) = sansPeers d := by
  unfold Dev.contact
  split <;> rfl

theorem cats_contact (p : Nat) : (d.contact p).cats = d.cats :=
  show (sansPeers (d.contact p)).cats = (sansPeers d).cats from congrArg Dev.cats (sansPeers_contact p)
theorem pages_contact (p : Nat) : (d.contact p).pages = d.pages :=
  show (sansPeers (d.contact p)).pages = (sansPeers d).pages from congrArg Dev.pages (sansPeers_contact p)
theorem tb_contact (p : Nat) : (d.contact p).tb = d.tb :=
  show (sansPeers (d.contact p)).tb = (sansPeers d).tb from congrArg Dev.tb (sansPeers_contact p)

theorem catPending_contact (p : Nat) : (d.contact p).catPending = d.catPending := by
  unfold Dev.catPending Dev.on Dev.catVer
  rw [f_contact (by decide), f_contact (by decide), cats_contact]

theorem pastCommit_contact (p act : Nat) : (d.contact p).pastCommit act = d.pastCommit act := by
  unfold Dev.pastCommit Dev.ns40 Dev.tai
  rw [f_contact (by decide), tb_contact]

theorem catCommitted_contact (p : Nat) : (d.contact p).catCommitted = d.catCommitted := by
  unfold Dev.catCommitted Dev.on
  rw [f_contact (by decide), f_contact (by decide), f_contact (by decide), pastCommit_contact]

theorem pageCommitted_contact (p : Nat) : (d.contact p).pageCommitted = d.pageCommitted := by
  unfold Dev.pageCommitted Dev.on
  rw [f_contact (by decide), f_contact (by decide), f_contact (by decide), pastCommit_contact]

/-- One field set behind a contact: no other word changes but that of the peer's state. -/
theorem word_set_contact {p k v : Nat} {y : Fld} (hy : k ≠ y.key 0) (hk : k ≠ R.HEALTH_PEER.STATE.key p) :
    ((d.contact p).set y 0 v).word k = d.word k := (word_set_other _ _ _ _ hy).trans (word_contact hk)

theorem on_of_f {x : Fld} {j : Nat} (h : d.f x j = 1) : d.on x j = true := by unfold Dev.on; rw [h]; rfl

theorem or_site_lt {v : Nat} (site : BitVec 5) (h : v < 2 ^ 32) : v ||| 2 ^ site.toNat < 2 ^ 32 :=
  Nat.or_lt_two_pow h (Nat.pow_lt_pow_right (by decide) site.isLt)

/-! ### ANNOUNCE and CANCEL of a peer (R237, R238) -/

theorem announce_version {g : PlanMsg} {x : Nat} {c : List Byte} (hfrom : FromPeer s g.site.toNat g.gwId.toNat x) (hkind : g.kind = 1)
    (hpend : s.dev.catPending = some c) (hplan : catPlan c = g.id.toNat) :
    Completes (.announceReceive g true) s (fun t =>
      (if orderPrint c ≠ g.orderPrint.toNat then t.dev.f R.CAT_ERR.ORDER = 1 ∧ t.dev.f R.CAT_READY.READY = s.dev.f R.CAT_READY.READY
       else if s.dev.f R.CAT_STATE.ACT_AT = g.t.toNat then t.dev.f R.CAT_READY.READY = s.dev.f R.CAT_READY.READY ||| 2 ^ g.site.toNat
       else t.dev.f R.CAT_READY.READY = s.dev.f R.CAT_READY.READY) ∧
      SameMem s t ∧ SameWords s t [R.CAT_ERR.ORDER.key 0, R.CAT_READY.READY.key 0, R.HEALTH_PEER.STATE.key x]) := by
  refine ⟨_, rfl, ?_⟩
  dsimp only [State.onDev]
  rw [fromPeer_of hfrom, if_pos hkind, catPending_contact, hpend]
  dsimp only
  rw [if_pos hplan, f_contact (y := R.CAT_STATE.ACT_AT) (by decide), f_contact (y := R.CAT_READY.READY) (by decide)]
  have hmem : SameMem s s := fun _ => rfl
  by_cases hprint : orderPrint c ≠ g.orderPrint.toNat
  · rw [if_pos hprint, if_pos hprint]
    refine ⟨⟨f_set_same _ _ _ _ (by decide), ?_⟩, hmem, fun k hk => ?_⟩
    · exact (f_set_apart _ _ _ _ _ _ (by decide)).trans (f_contact (by decide))
    · simp only [List.mem_cons, List.not_mem_nil, or_false, not_or] at hk
      exact word_set_contact hk.1 hk.2.2
  · rw [if_neg hprint, if_neg hprint]
    by_cases hact : s.dev.f R.CAT_STATE.ACT_AT = g.t.toNat
    · rw [if_pos hact, if_pos hact]
      refine ⟨(f_set_same _ _ _ _ (by decide)).trans (Nat.mod_eq_of_lt (or_site_lt _ (f_lt _ _ _))), hmem, fun k hk => ?_⟩
      simp only [List.mem_cons, List.not_mem_nil, or_false, not_or] at hk
      exact word_set_contact hk.2.1 hk.2.2
    · rw [if_neg hact, if_neg hact]
      refine ⟨f_contact (by decide), hmem, fun k hk => ?_⟩
      simp only [List.mem_cons, List.not_mem_nil, or_false, not_or] at hk
      exact word_contact hk.2.2

theorem announce_page {g : PlanMsg} {x : Nat} (hfrom : FromPeer s g.site.toNat g.gwId.toNat x) (hkind : g.kind = 2)
    (hpend : s.dev.f R.ITIN_STATE.PEND = 1) (hid : s.dev.f R.ITIN_ID.PEND_ID = g.id.toNat) (hact : s.dev.f R.ITIN_STATE.ACT_AT = g.t.toNat) :
    Completes (.announceReceive g true) s (fun t => t.dev.f R.ITIN_READY.READY = s.dev.f R.ITIN_READY.READY ||| 2 ^ g.site.toNat ∧
      SameMem s t ∧ SameWords s t [R.ITIN_READY.READY.key 0, R.HEALTH_PEER.STATE.key x]) := by
  refine ⟨_, rfl, ?_⟩
  dsimp only [State.onDev]
  rw [fromPeer_of hfrom]
  have hmatch : (s.dev.contact x).on R.ITIN_STATE.PEND = true ∧ (s.dev.contact x).f R.ITIN_ID.PEND_ID = g.id.toNat ∧
      (s.dev.contact x).f R.ITIN_STATE.ACT_AT = g.t.toNat :=
    ⟨on_of_f ((f_contact (by decide)).trans hpend), (f_contact (by decide)).trans hid, (f_contact (by decide)).trans hact⟩
  rw [if_neg (hkind ▸ by decide : ¬ g.kind = 1), if_pos hkind, if_pos hmatch, f_contact (y := R.ITIN_READY.READY) (by decide)]
  refine ⟨(f_set_same _ _ _ _ (by decide)).trans (Nat.mod_eq_of_lt (or_site_lt _ (f_lt _ _ _))), fun _ => rfl, fun k hk => ?_⟩
  simp only [List.mem_cons, List.not_mem_nil, or_false, not_or] at hk
  exact word_set_contact hk.1 hk.2

/-- The words of the Catalogue once nothing is pending. -/
def catCleared (d : Dev) : Dev :=
  ((((d.set R.CAT_STATE.PEND 0 0).set R.CAT_STATE.COMMITTED 0 0).set R.CAT_STATE.ACT_AT 0 0).set R.CAT_ID.PEND_PLAN 0 0).set R.CAT_READY.READY 0 0

/-- The words of the itinerary once nothing is pending. -/
def pageCleared (d : Dev) : Dev :=
  ((((d.set R.ITIN_STATE.PEND 0 0).set R.ITIN_STATE.COMMITTED 0 0).set R.ITIN_STATE.ACT_AT 0 0).set R.ITIN_ID.PEND_ID 0 0).set R.ITIN_READY.READY 0 0

theorem f_bit {x : Fld} {j : Nat} (hx : x.w = 1) : d.f x j ≤ 1 := by
  have h := f_lt d x j
  rw [hx] at h
  omega

theorem other_bit {x : Fld} {j : Nat} (hx : x.w = 1) : 1 - d.f x j = 0 ↔ d.f x j ≠ 0 := by
  have h := f_bit (d := d) (j := j) hx
  omega

/-- What is left of a pending version that is dropped (R238). -/
theorem dropCat_spec : d.dropCat.f R.CAT_STATE.PEND = 0 ∧ d.dropCat.f R.CAT_ID.PEND_PLAN = 0 ∧ d.dropCat.f R.CAT_READY.READY = 0 ∧
    d.dropCat.catVer (1 - d.f R.CAT_STATE.ACTIVE) = [] ∧ d.dropCat.cat = d.cat := by
  have hf (x : Fld) : d.dropCat.f x = (catCleared d).f x := rfl
  have hcats : d.dropCat.cats = d.cats.put (1 - d.f R.CAT_STATE.ACTIVE) [] := rfl
  have hactive : (catCleared d).f R.CAT_STATE.ACTIVE = d.f R.CAT_STATE.ACTIVE := by
    unfold catCleared
    simp (disch := decide) only [f_set_apart]
  refine ⟨?_, ?_, ?_, ?_, ?_⟩
  · rw [hf]; unfold catCleared; simp (disch := decide) only [f_set_apart, f_set_same, Nat.zero_mod]
  · rw [hf]; unfold catCleared; simp (disch := decide) only [f_set_apart, f_set_same, Nat.zero_mod]
  · exact f_set_same _ _ _ _ (by decide)
  · unfold Dev.catVer
    rw [hcats, at_put_same]
  · unfold Dev.cat Dev.catVer
    rw [hf, hactive, hcats, at_put_other _ _ _ _ (other_bit rfl)]

/-- What is left of a pending page that is dropped (R238). -/
theorem dropPage_spec : d.dropPage.f R.ITIN_STATE.PEND = 0 ∧ d.dropPage.f R.ITIN_ID.PEND_ID = 0 ∧ d.dropPage.f R.ITIN_READY.READY = 0 ∧
    d.dropPage.page (1 - d.f R.ITIN_STATE.ACTIVE) = [] ∧ d.dropPage.activePage = d.activePage := by
  have hf (x : Fld) : d.dropPage.f x = (pageCleared d).f x := rfl
  have hpages : d.dropPage.pages = d.pages.put (1 - d.f R.ITIN_STATE.ACTIVE) [] := rfl
  have hactive : (pageCleared d).f R.ITIN_STATE.ACTIVE = d.f R.ITIN_STATE.ACTIVE := by
    unfold pageCleared
    simp (disch := decide) only [f_set_apart]
  refine ⟨?_, ?_, ?_, ?_, ?_⟩
  · rw [hf]; unfold pageCleared; simp (disch := decide) only [f_set_apart, f_set_same, Nat.zero_mod]
  · rw [hf]; unfold pageCleared; simp (disch := decide) only [f_set_apart, f_set_same, Nat.zero_mod]
  · exact f_set_same _ _ _ _ (by decide)
  · unfold Dev.page
    rw [hpages, at_put_same]
  · unfold Dev.activePage Dev.page
    rw [hf, hactive, hpages, at_put_other _ _ _ _ (other_bit rfl)]

theorem cancel_version {g : PlanMsg} {x : Nat} (hfrom : FromPeer s g.site.toNat g.gwId.toNat x) (hkind : g.kind = 1)
    (hpend : s.dev.f R.CAT_STATE.PEND = 1) (hid : s.dev.f R.CAT_ID.PEND_PLAN = g.id.toNat) (hact : s.dev.f R.CAT_STATE.ACT_AT = g.t.toNat) :
    Completes (.cancelReceive g true) s (fun t =>
      (if s.dev.catCommitted = true then t.dev.f R.CAT_ERR.CANCEL_LATE = 1 ∧ t.dev.f R.CAT_STATE.PEND = 1
       else t.dev.f R.CAT_STATE.PEND = 0 ∧ t.dev.f R.CAT_ID.PEND_PLAN = 0 ∧ t.dev.f R.CAT_READY.READY = 0 ∧
        t.dev.catVer (1 - s.dev.f R.CAT_STATE.ACTIVE) = []) ∧
      t.dev.cat = s.dev.cat ∧ SameMem s t) := by
  refine ⟨_, rfl, ?_⟩
  dsimp only [State.onDev]
  have hmatch : (s.dev.contact x).on R.CAT_STATE.PEND = true ∧ (s.dev.contact x).f R.CAT_ID.PEND_PLAN = g.id.toNat ∧
      (s.dev.contact x).f R.CAT_STATE.ACT_AT = g.t.toNat :=
    ⟨on_of_f ((f_contact (by decide)).trans hpend), (f_contact (by decide)).trans hid, (f_contact (by decide)).trans hact⟩
  have hactive : (s.dev.contact x).f R.CAT_STATE.ACTIVE = s.dev.f R.CAT_STATE.ACTIVE := f_contact (by decide)
  have hcat : (s.dev.contact x).cat = s.dev.cat := by unfold Dev.cat Dev.catVer; rw [hactive, cats_contact]
  rw [fromPeer_of hfrom, if_pos hkind, if_pos hmatch, catCommitted_contact]
  by_cases hlate : s.dev.catCommitted = true
  · rw [if_pos hlate, if_pos hlate]
    refine ⟨⟨f_set_same _ _ _ _ (by decide), ?_⟩, ?_, fun _ => rfl⟩
    · exact (f_set_apart _ _ _ _ _ _ (by decide)).trans ((f_contact (by decide)).trans hpend)
    · refine Eq.trans ?_ hcat
      unfold Dev.cat Dev.catVer
      rw [f_set_apart _ _ _ _ _ _ (by decide)]
      rfl
  · rw [if_neg hlate, if_neg hlate]
    obtain ⟨hp, hi, hr, hv, hc⟩ := dropCat_spec (d := s.dev.contact x)
    rw [hactive] at hv
    exact ⟨⟨hp, hi, hr, hv⟩, hc.trans hcat, fun _ => rfl⟩

theorem cancel_page {g : PlanMsg} {x : Nat} (hfrom : FromPeer s g.site.toNat g.gwId.toNat x) (hkind : g.kind = 2)
    (hpend : s.dev.f R.ITIN_STATE.PEND = 1) (hid : s.dev.f R.ITIN_ID.PEND_ID = g.id.toNat) (hact : s.dev.f R.ITIN_STATE.ACT_AT = g.t.toNat) :
    Completes (.cancelReceive g true) s (fun t =>
      (if s.dev.pageCommitted = true then t.dev.f R.ITIN_ERR.CANCEL_LATE = 1 ∧ t.dev.f R.ITIN_STATE.PEND = 1
       else t.dev.f R.ITIN_STATE.PEND = 0 ∧ t.dev.f R.ITIN_ID.PEND_ID = 0 ∧ t.dev.f R.ITIN_READY.READY = 0 ∧
        t.dev.page (1 - s.dev.f R.ITIN_STATE.ACTIVE) = []) ∧
      t.dev.activePage = s.dev.activePage ∧ SameMem s t) := by
  refine ⟨_, rfl, ?_⟩
  dsimp only [State.onDev]
  have hmatch : (s.dev.contact x).on R.ITIN_STATE.PEND = true ∧ (s.dev.contact x).f R.ITIN_ID.PEND_ID = g.id.toNat ∧
      (s.dev.contact x).f R.ITIN_STATE.ACT_AT = g.t.toNat :=
    ⟨on_of_f ((f_contact (by decide)).trans hpend), (f_contact (by decide)).trans hid, (f_contact (by decide)).trans hact⟩
  have hactive : (s.dev.contact x).f R.ITIN_STATE.ACTIVE = s.dev.f R.ITIN_STATE.ACTIVE := f_contact (by decide)
  have hpage : (s.dev.contact x).activePage = s.dev.activePage := by unfold Dev.activePage Dev.page; rw [hactive, pages_contact]
  rw [fromPeer_of hfrom, if_neg (hkind ▸ by decide : ¬ g.kind = 1), if_pos hkind, if_pos hmatch, pageCommitted_contact]
  by_cases hlate : s.dev.pageCommitted = true
  · rw [if_pos hlate, if_pos hlate]
    refine ⟨⟨f_set_same _ _ _ _ (by decide), ?_⟩, ?_, fun _ => rfl⟩
    · exact (f_set_apart _ _ _ _ _ _ (by decide)).trans ((f_contact (by decide)).trans hpend)
    · refine Eq.trans ?_ hpage
      unfold Dev.activePage Dev.page
      rw [f_set_apart _ _ _ _ _ _ (by decide)]
      rfl
  · rw [if_neg hlate, if_neg hlate]
    obtain ⟨hp, hi, hr, hv, hc⟩ := dropPage_spec (d := s.dev.contact x)
    rw [hactive] at hv
    exact ⟨⟨hp, hi, hr, hv⟩, hc.trans hpage, fun _ => rfl⟩

/-! ### CAT_CANCEL and ITIN_CANCEL (R238) -/

theorem itinCancel_pending (hready : s.dev.f R.SYS_BOOT.STATE = 4) (hpend : s.dev.f R.ITIN_STATE.PEND = 1) :
    Completes .itinCancel s (fun t => (if s.dev.pageCommitted = true then t.dev.f R.ITIN_ERR.BUSY = 1 ∧ t.dev.f R.ITIN_STATE.PEND = 1
      else t.dev.f R.ITIN_STATE.PEND = 0 ∧ t.dev.cancelTx = s.dev.cancelTx ++ [⟨.page, s.dev.f R.ITIN_ID.PEND_ID, s.dev.f R.ITIN_STATE.ACT_AT, 0,
        s.dev.taiOf (s.dev.f R.ITIN_STATE.ACT_AT)⟩]) ∧
      t.dev.activePage = s.dev.activePage ∧ SameMem s t) := by
  refine ⟨_, congrArg Host.Outcome.next (if_pos (ready_of hready)), ?_⟩
  dsimp only [State.onDev, Dev.itinCancel]
  rw [if_pos (on_of_f hpend)]
  by_cases hlate : s.dev.pageCommitted = true
  · rw [if_pos hlate, if_pos hlate]
    refine ⟨⟨f_set_same _ _ _ _ (by decide), (f_set_apart _ _ _ _ _ _ (by decide)).trans hpend⟩, ?_, fun _ => rfl⟩
    unfold Dev.activePage Dev.page
    rw [f_set_apart _ _ _ _ _ _ (by decide)]
    rfl
  · rw [if_neg hlate, if_neg hlate]
    obtain ⟨hp, -, -, -, hc⟩ := dropPage_spec (d := { s.dev with cancelTx := s.dev.cancelTx ++ [⟨.page, s.dev.f R.ITIN_ID.PEND_ID,
      s.dev.f R.ITIN_STATE.ACT_AT, 0, s.dev.taiOf (s.dev.f R.ITIN_STATE.ACT_AT)⟩] })
    exact ⟨⟨hp, rfl⟩, hc, fun _ => rfl⟩

theorem catPending_of (hpend : d.f R.CAT_STATE.PEND = 1) : d.catPending = some (d.catVer (1 - d.f R.CAT_STATE.ACTIVE)) := if_pos (on_of_f hpend)

theorem catCancel_pending (hready : s.dev.f R.SYS_BOOT.STATE = 4) (hpend : s.dev.f R.CAT_STATE.PEND = 1) :
    Completes .catCancel s (fun t => (if s.dev.catCommitted = true then t.dev.f R.CAT_ERR.BUSY = 1 ∧ t.dev.f R.CAT_STATE.PEND = 1
      else t.dev.f R.CAT_STATE.PEND = 0 ∧ t.dev.cancelTx = s.dev.cancelTx ++ [⟨.catalogue, s.dev.f R.CAT_ID.PEND_PLAN, s.dev.f R.CAT_STATE.ACT_AT,
        orderPrint (s.dev.catVer (1 - s.dev.f R.CAT_STATE.ACTIVE)), s.dev.taiOf (s.dev.f R.CAT_STATE.ACT_AT)⟩]) ∧
      t.dev.cat = s.dev.cat ∧ SameMem s t) := by
  refine ⟨_, congrArg Host.Outcome.next (if_pos (ready_of hready)), ?_⟩
  dsimp only [State.onDev]
  unfold Dev.catCancel
  rw [catPending_of hpend]
  dsimp only
  by_cases hlate : s.dev.catCommitted = true
  · rw [if_pos hlate, if_pos hlate]
    refine ⟨⟨f_set_same _ _ _ _ (by decide), (f_set_apart _ _ _ _ _ _ (by decide)).trans hpend⟩, ?_, fun _ => rfl⟩
    unfold Dev.cat Dev.catVer
    rw [f_set_apart _ _ _ _ _ _ (by decide)]
    rfl
  · rw [if_neg hlate, if_neg hlate]
    obtain ⟨hp, -, -, -, hc⟩ := dropCat_spec (d := { s.dev with cancelTx := s.dev.cancelTx ++ [⟨.catalogue, s.dev.f R.CAT_ID.PEND_PLAN,
      s.dev.f R.CAT_STATE.ACT_AT, orderPrint (s.dev.catVer (1 - s.dev.f R.CAT_STATE.ACTIVE)), s.dev.taiOf (s.dev.f R.CAT_STATE.ACT_AT)⟩] })
    exact ⟨⟨hp, rfl⟩, hc, fun _ => rfl⟩

/-! ### The commit point and the end of the hold (R218, R238) -/

theorem committed_pends {x y : Fld} {b : Bool} (h : (d.on x && (d.on y || b)) = true) (hx : x.w = 1) : d.f x = 1 := by
  have hon : d.f x ≠ 0 := by simpa [Dev.on] using (Bool.and_eq_true_iff.1 h).1
  have := f_bit (d := d) (j := 0) hx
  omega

theorem commitPoint_catalogue (h : s.dev.catCommitted = true) :
    Completes (.commitPoint .catalogue) s (fun t => t.dev.f R.CAT_STATE.COMMITTED = 1 ∧ t.dev.f R.CAT_STATE.HOLDING = 1 ∧
      t.dev.f R.CAT_STATE.PEND = 1 ∧ SameMem s t ∧ SameUnits s t ∧ SameWords s t [R.CAT_STATE.COMMITTED.key 0]) := by
  refine ⟨_, rfl, ?_⟩
  dsimp only [State.onDev]
  rw [if_pos h]
  refine ⟨?_, f_set_same _ _ _ _ (by decide), ?_, fun _ => rfl, rfl, fun k hk => ?_⟩
  · exact (f_set_apart _ _ _ _ _ _ (by decide)).trans (f_set_same _ _ _ _ (by decide))
  · exact (f_set_apart _ _ _ _ _ _ (by decide)).trans ((f_set_apart _ _ _ _ _ _ (by decide)).trans (committed_pends h rfl))
  · have hne : k ≠ R.CAT_STATE.COMMITTED.key 0 := by simpa using hk
    exact (word_set_other _ R.CAT_STATE.HOLDING 0 1 hne).trans (word_set_other _ R.CAT_STATE.COMMITTED 0 1 hne)

theorem commitPoint_page (h : s.dev.pageCommitted = true) :
    Completes (.commitPoint .page) s (fun t => t.dev.f R.ITIN_STATE.COMMITTED = 1 ∧ t.dev.f R.ITIN_STATE.PEND = 1 ∧
      SameMem s t ∧ SameUnits s t ∧ SameWords s t [R.ITIN_STATE.COMMITTED.key 0]) := by
  refine ⟨_, rfl, ?_⟩
  dsimp only [State.onDev]
  rw [if_pos h]
  refine ⟨f_set_same _ _ _ _ (by decide), (f_set_apart _ _ _ _ _ _ (by decide)).trans (committed_pends h rfl), fun _ => rfl, rfl, fun k hk => ?_⟩
  exact word_set_other _ _ _ _ (by simpa using hk)

theorem commitPoint_early : (s.dev.catCommitted = false → Completes (.commitPoint .catalogue) s (fun t => t = s)) ∧
    (s.dev.pageCommitted = false → Completes (.commitPoint .page) s (fun t => t = s)) := by
  refine ⟨fun h => ⟨_, rfl, ?_⟩, fun h => ⟨_, rfl, ?_⟩⟩ <;>
  · dsimp only [State.onDev]
    rw [h, if_neg (by decide)]

theorem cepHoldEnd_over (hfree : s.dev.catCommitted = false) (hover : s.dev.catHold * 1000000 ≤ s.dev.now - s.dev.catHeld) :
    Completes .cepHoldEnd s (fun t => t.dev.f R.CAT_STATE.HOLDING = 0 ∧ SameMem s t ∧ SameUnits s t ∧ SameWords s t [R.CAT_STATE.HOLDING.key 0]) := by
  refine ⟨_, rfl, ?_⟩
  dsimp only [State.onDev]
  rw [if_pos (by simp [hfree, Dev.since, hover])]
  exact ⟨f_set_same _ _ _ _ (by decide), fun _ => rfl, rfl, fun k hk => word_set_other _ _ _ _ (by simpa using hk)⟩

theorem cepHoldEnd_early (hearly : s.dev.now - s.dev.catHeld < s.dev.catHold * 1000000) : Completes .cepHoldEnd s (fun t => t = s) := by
  refine ⟨_, rfl, ?_⟩
  dsimp only [State.onDev]
  have hnot : ¬ s.dev.catHold * 1000000 ≤ s.dev.now - s.dev.catHeld := Nat.not_le.2 hearly
  rw [if_neg (by simp [Dev.since, hnot])]

/-! ### Reads of the images (R15, R16, R241) -/

theorem itinPageDataRead_word (hready : s.dev.f R.SYS_BOOT.STATE = 4) (hauto : s.dev.f R.ITIN_PAGE_SEL.AUTOINC = 0) :
    Completes .itinPageDataRead s (fun t => let page := s.dev.page (s.dev.f R.ITIN_PAGE_SEL.PAGE); let i := s.dev.f R.ITIN_PAGE_SEL.WORD
      (if 8 * i + 8 ≤ page.length then SameWords s t [] ∧ SameUnitsBut [.readData (BitVec.ofNat 64 (leAt page (8 * i) 8))] s t
       else t.dev.f R.ITIN_ERR.RANGE = 1 ∧ SameUnitsBut [.readData 0] s t) ∧ SameMem s t) := by
  refine ⟨_, congrArg Host.Outcome.next (if_pos (ready_of hready)), ?_⟩
  dsimp only [State.onDev, Dev.pageRead]
  have hoff : ¬ s.dev.on R.ITIN_PAGE_SEL.AUTOINC = true := by simp [Dev.on, hauto]
  refine ⟨?_, fun _ => rfl⟩
  by_cases hin : 8 * s.dev.f R.ITIN_PAGE_SEL.WORD + 8 ≤ (s.dev.page (s.dev.f R.ITIN_PAGE_SEL.PAGE)).length
  · rw [if_pos hin, if_pos hin, if_neg hoff]
    exact ⟨fun _ _ => rfl, rfl, rfl⟩
  · rw [if_neg hin, if_neg hin]
    exact ⟨f_set_same _ _ _ _ (by decide), rfl, rfl⟩

theorem catDataRead_word (hready : s.dev.f R.SYS_BOOT.STATE = 4) (hauto : s.dev.f R.CAT_SEL.AUTOINC = 1)
    (hin : 8 * s.dev.f R.CAT_SEL.WORD + 8 ≤ (s.dev.catVer (s.dev.f R.CAT_SEL.VERSION)).length) :
    Completes .catDataRead s (fun t => t.dev.f R.CAT_SEL.WORD = (s.dev.f R.CAT_SEL.WORD + 1) % 2 ^ 13 ∧
      SameUnitsBut [.readData (BitVec.ofNat 64 (leAt (s.dev.catVer (s.dev.f R.CAT_SEL.VERSION)) (8 * s.dev.f R.CAT_SEL.WORD) 8))] s t ∧
      SameWords s t [R.CAT_SEL.WORD.key 0] ∧ SameMem s t) := by
  refine ⟨_, congrArg Host.Outcome.next (if_pos (ready_of hready)), ?_⟩
  dsimp only [State.onDev, Dev.catRead]
  rw [if_pos hin, if_pos (on_of_f hauto)]
  exact ⟨f_set_same _ _ _ _ (by decide), ⟨rfl, rfl⟩, fun k hk => word_set_other _ _ _ _ (by simpa using hk), fun _ => rfl⟩

end Sys2Proof.Laws
end

section
/-! Activation of a pending page or version (R221, R239, R240), and the visits of the anchors. -/

namespace Sys2Proof.Laws

-- One theorem after another: a thread of its own for each passes the memory that the whole text may take.
set_option Elab.async false

open Sys2Proof Sys2Proof.Machine

variable {d e : Dev} {s : State}

/-! ### A page becomes active -/

/-- A block whose entries of the page `old` not yet carried out are counted as dropped, in the wings below n. -/
def entriesDropped (old : List Byte) (n : Nat) (d : Dev) : Dev :=
  (List.range n).foldl (fun (acc : Dev) w =>
    (acc.bump R.ITIN_STAT_DROPPED.DROPPED w (pageCount old w - acc.f R.ITIN_STAT_NEXT.NEXT w)).set R.ITIN_STAT_NEXT.NEXT w 0) d

theorem entriesDropped_succ (old : List Byte) (n : Nat) : entriesDropped old (n + 1) d =
    ((entriesDropped old n d).bump R.ITIN_STAT_DROPPED.DROPPED n (pageCount old n - (entriesDropped old n d).f R.ITIN_STAT_NEXT.NEXT n)).set
      R.ITIN_STAT_NEXT.NEXT n 0 := by
  unfold entriesDropped
  rw [List.range_succ, List.foldl_append, List.foldl_cons, List.foldl_nil]

/-- Words that are not among the counters of wings below n stay. -/
theorem word_entriesDropped {old : List Byte} {n k : Nat}
    (hk : ∀ w, w < n → k ≠ R.ITIN_STAT_DROPPED.DROPPED.key w ∧ k ≠ R.ITIN_STAT_NEXT.NEXT.key w) : (entriesDropped old n d).word k = d.word k := by
  induction n with
  | zero => rfl
  | succ n ih =>
    obtain ⟨hdropped, hnext⟩ := hk n (Nat.lt_succ_self n)
    rw [entriesDropped_succ, word_set_other _ _ _ _ hnext, word_bump_other _ _ _ _ hdropped]
    exact ih (fun w hw => hk w (by omega))

theorem f_entriesDropped {old : List Byte} {n : Nat} {x : Fld} (hx : x.key 0 < 0x300100) : (entriesDropped old n d).f x = d.f x :=
  f_of_word (word_entriesDropped (fun w _ => by simp only [Fld.key] at *; omega))

theorem f_entriesDropped_wing (old : List Byte) (n : Nat) {w : Nat} (hw : w < n) : (entriesDropped old n d).f R.ITIN_STAT_NEXT.NEXT w = 0 ∧
    (entriesDropped old n d).f R.ITIN_STAT_DROPPED.DROPPED w =
      min (d.f R.ITIN_STAT_DROPPED.DROPPED w + (pageCount old w - d.f R.ITIN_STAT_NEXT.NEXT w)) (2 ^ 64 - 1) := by
  induction n with
  | zero => omega
  | succ n ih =>
    rw [entriesDropped_succ]
    have hdn : R.ITIN_STAT_DROPPED.DROPPED.key w ≠ R.ITIN_STAT_NEXT.NEXT.key n := by simp only [Fld.key]; omega
    by_cases hlast : w = n
    · subst hlast
      have hbefore {x : Fld} (hx : x.stride = 0x40) (hb : x.base = 0x300108 ∨ x.base = 0x300128) : (entriesDropped old w d).f x w = d.f x w :=
        f_of_word (word_entriesDropped (fun v hv => by simp only [Fld.key, hx]; omega))
      refine ⟨f_set_same _ _ _ _ (by decide), ?_⟩
      rw [f_set_apart _ _ _ _ _ _ (.inl hdn), f_bump_same _ _ _ _ (by decide), hbefore rfl (.inl rfl), hbefore rfl (.inr rfl)]
    · obtain ⟨hnext, hdropped⟩ := ih (by omega)
      have hnn : R.ITIN_STAT_NEXT.NEXT.key w ≠ R.ITIN_STAT_NEXT.NEXT.key n := by simp only [Fld.key]; omega
      have hnd : R.ITIN_STAT_NEXT.NEXT.key w ≠ R.ITIN_STAT_DROPPED.DROPPED.key n := by simp only [Fld.key]; omega
      have hdd : R.ITIN_STAT_DROPPED.DROPPED.key w ≠ R.ITIN_STAT_DROPPED.DROPPED.key n := by simp only [Fld.key]; omega
      rw [f_set_apart _ _ _ _ _ _ (.inl hnn), f_bump_apart _ _ _ _ _ _ (.inl hnd), f_set_apart _ _ _ _ _ _ (.inl hdn),
        f_bump_apart _ _ _ _ _ _ (.inl hdd)]
      exact ⟨hnext, hdropped⟩

/-- The registers of the itinerary once the pending page, of number id, is the active one, `act` before it. -/
def pageSwapped (act id : Nat) (d : Dev) : Dev :=
  ((((((d.set R.ITIN_STATE.ACTIVE 0 (1 - act)).set R.ITIN_STATE.PEND 0 0).set R.ITIN_STATE.COMMITTED 0 0).set R.ITIN_STATE.ACT_AT 0 0).set
    R.ITIN_ID.ACTIVE_ID 0 id).set R.ITIN_ID.PEND_ID 0 0).set R.ITIN_READY.READY 0 0

theorem f_pageSwapped (act : Nat) {id : Nat} (hid : id < 2 ^ 32) : (pageSwapped act id d).f R.ITIN_STATE.ACTIVE = (1 - act) % 2 ∧
    (pageSwapped act id d).f R.ITIN_STATE.PEND = 0 ∧ (pageSwapped act id d).f R.ITIN_STATE.COMMITTED = 0 ∧
    (pageSwapped act id d).f R.ITIN_ID.ACTIVE_ID = id ∧ (pageSwapped act id d).f R.ITIN_ID.PEND_ID = 0 ∧
    (pageSwapped act id d).f R.ITIN_READY.READY = 0 := by
  unfold pageSwapped
  refine ⟨?_, ?_, ?_, ?_, ?_, f_set_same _ _ _ _ (by decide)⟩
  all_goals simp (disch := decide) only [f_set_apart, f_set_same, Nat.zero_mod]
  · rfl
  · exact Nat.mod_eq_of_lt hid

theorem f_pageSwapped_other (act id : Nat) {x : Fld} {j : Nat} (hx : x.key j ∉ [0x300010, 0x300018, 0x300020]) :
    (pageSwapped act id d).f x j = d.f x j := by
  simp only [List.mem_cons, List.not_mem_nil, or_false, not_or] at hx
  obtain ⟨hstate, hid, hready⟩ := hx
  unfold pageSwapped
  rw [f_set_apart _ _ _ _ _ _ (.inl hready), f_set_apart _ _ _ _ _ _ (.inl hid), f_set_apart _ _ _ _ _ _ (.inl hid),
    f_set_apart _ _ _ _ _ _ (.inl hstate), f_set_apart _ _ _ _ _ _ (.inl hstate), f_set_apart _ _ _ _ _ _ (.inl hstate),
    f_set_apart _ _ _ _ _ _ (.inl hstate)]

/-- A block whose pending page has become the active one, before the new page's plan is compared (R239). -/
def pageActive (d : Dev) : Dev :=
  pageSwapped (d.f R.ITIN_STATE.ACTIVE) (d.f R.ITIN_ID.PEND_ID) (entriesDropped d.activePage 4 d)

/-- The new page is not of the active plan. -/
def planDiffers (d : Dev) : Bool := d.cat.isEmpty || pagePlan d.activePage != catPlan d.cat

/-- The same once ITIN_ERR.PLAN shows a page that is not of the active plan. -/
def pageChecked (d : Dev) : Dev := if planDiffers (pageActive d) then (pageActive d).set R.ITIN_ERR.PLAN 0 1 else pageActive d

theorem activatePage_eq (hpend : d.f R.ITIN_STATE.PEND = 1) : d.activatePage =
    { pageChecked d with itinMode := if (pageChecked d).on R.ITIN_CTL.ENABLE then (pageChecked d).shadow 4 else (pageChecked d).itinMode } :=
  if_pos (on_of_f hpend)

/-- A block without its register words. -/
def sansWords (d : Dev) : Dev := { d with words := [] }

theorem sansWords_pageChecked : sansWords (pageChecked d) = sansWords d := by
  unfold pageChecked
  split <;> rfl

theorem f_pageActive_other {x : Fld} (hx : x.key 0 < 0x300010) : (pageActive d).f x = d.f x :=
  (f_pageSwapped_other _ _ (by simp only [List.mem_cons, List.not_mem_nil, or_false]; omega)).trans (f_entriesDropped (by omega))

theorem f_pageChecked {x : Fld} {j : Nat} (hx : x.key j ≠ 0x300030) : (pageChecked d).f x j = (pageActive d).f x j := by
  unfold pageChecked
  split
  · exact f_set_apart _ _ _ _ _ _ (.inl hx)
  · rfl

theorem activePage_pageActive : (pageActive d).activePage = d.page (1 - d.f R.ITIN_STATE.ACTIVE) := by
  unfold Dev.activePage
  have hactive : (pageActive d).f R.ITIN_STATE.ACTIVE = 1 - d.f R.ITIN_STATE.ACTIVE :=
    (f_pageSwapped _ (f_lt _ _ _)).1.trans (Nat.mod_eq_of_lt (by omega))
  rw [hactive]
  rfl

theorem cat_pageActive : (pageActive d).cat = d.cat := by
  have hword : (pageActive d).word 0x400010 = d.word 0x400010 := by
    unfold pageActive pageSwapped
    simp (disch := decide) only [word_set_other]
    exact word_entriesDropped (fun w hw => by simp only [Fld.key]; omega)
  unfold Dev.cat Dev.catVer
  rw [f_of_word (x := R.CAT_STATE.ACTIVE) (j := 0) hword]
  rfl

theorem plan_pageChecked : (pageChecked d).f R.ITIN_ERR.PLAN =
    if d.cat = [] ∨ pagePlan (d.page (1 - d.f R.ITIN_STATE.ACTIVE)) ≠ catPlan d.cat then 1 else d.f R.ITIN_ERR.PLAN := by
  have hdiffers : planDiffers (pageActive d) = true ↔ d.cat = [] ∨ pagePlan (d.page (1 - d.f R.ITIN_STATE.ACTIVE)) ≠ catPlan d.cat := by
    unfold planDiffers
    rw [activePage_pageActive, cat_pageActive]
    simp
  have hbefore : (pageActive d).f R.ITIN_ERR.PLAN = d.f R.ITIN_ERR.PLAN :=
    (f_pageSwapped_other _ _ (by decide)).trans (f_entriesDropped (by decide))
  unfold pageChecked
  simp only [hdiffers]
  split
  · exact f_set_same _ _ _ _ (by decide)
  · exact hbefore

theorem shadow_pageChecked : (pageChecked d).shadow 4 = d.shadow 4 := by
  have hparts := sansWords_pageChecked (d := d)
  have hshadow : (pageChecked d).shadowAt = d.shadowAt := show (sansWords (pageChecked d)).shadowAt = (sansWords d).shadowAt from congrArg Dev.shadowAt hparts
  have hnow : (pageChecked d).now = d.now := show (sansWords (pageChecked d)).now = (sansWords d).now from congrArg Dev.now hparts
  have hmode : (pageChecked d).f (epochFld 4).1 (epochFld 4).2 = d.f (epochFld 4).1 (epochFld 4).2 :=
    (f_pageChecked (by decide)).trans (f_pageActive_other (by decide))
  unfold Dev.shadow
  rw [hshadow, hnow, hmode]

/-- PAGE_ACTIVATE of a pending page whose ACT_AT has come (R239, R240). -/
theorem pageActivate_due (w : Fin 4) (hpend : s.dev.f R.ITIN_STATE.PEND = 1) (hcome : s.dev.hasCome (s.dev.f R.ITIN_STATE.ACT_AT) = true) :
    Completes .pageActivate s (fun t => let page := s.dev.page (1 - s.dev.f R.ITIN_STATE.ACTIVE)
      t.dev.f R.ITIN_STATE.ACTIVE = 1 - s.dev.f R.ITIN_STATE.ACTIVE ∧ t.dev.activePage = page ∧ t.dev.f R.ITIN_STATE.PEND = 0 ∧
      t.dev.f R.ITIN_STATE.COMMITTED = 0 ∧ t.dev.f R.ITIN_ID.ACTIVE_ID = s.dev.f R.ITIN_ID.PEND_ID ∧ t.dev.f R.ITIN_ID.PEND_ID = 0 ∧
      t.dev.f R.ITIN_READY.READY = 0 ∧ t.dev.f R.ITIN_STAT_NEXT.NEXT w = 0 ∧ t.dev.f R.ITIN_STAT_DROPPED.DROPPED w =
        min (s.dev.f R.ITIN_STAT_DROPPED.DROPPED w + (pageCount s.dev.activePage w - s.dev.f R.ITIN_STAT_NEXT.NEXT w)) (2 ^ 64 - 1) ∧
      (if s.dev.cat = [] ∨ pagePlan page ≠ catPlan s.dev.cat then t.dev.f R.ITIN_ERR.PLAN = 1 else t.dev.f R.ITIN_ERR.PLAN = s.dev.f R.ITIN_ERR.PLAN) ∧
      t.dev.itinMode = (if s.dev.f R.ITIN_CTL.ENABLE = 1 then s.dev.shadow 4 else s.dev.itinMode) ∧ t.dev.cancelTx = s.dev.cancelTx ∧ SameMem s t) := by
  refine ⟨_, rfl, ?_⟩
  dsimp only [State.onDev]
  rw [if_pos hcome, activatePage_eq hpend]
  obtain ⟨hactive, hp, hc, hid, hpid, hready⟩ :=
    f_pageSwapped (d := entriesDropped s.dev.activePage 4 s.dev) (s.dev.f R.ITIN_STATE.ACTIVE) (f_lt s.dev R.ITIN_ID.PEND_ID 0)
  obtain ⟨hnext, hdropped⟩ := f_entriesDropped_wing (d := s.dev) s.dev.activePage 4 w.isLt
  have hwing {x : Fld} (hx : x.stride = 0x40 ∧ x.base ∈ [0x300108, 0x300128]) :
      (pageChecked s.dev).f x w = (entriesDropped s.dev.activePage 4 s.dev).f x w := by
    obtain ⟨hstride, hbase⟩ := hx
    simp only [List.mem_cons, List.not_mem_nil, or_false] at hbase
    have hkey : 0x300100 ≤ x.key w := by simp only [Fld.key]; omega
    exact (f_pageChecked (by omega)).trans (f_pageSwapped_other _ _ (by simp only [List.mem_cons, List.not_mem_nil, or_false]; omega))
  have hpage : (pageChecked s.dev).activePage = s.dev.page (1 - s.dev.f R.ITIN_STATE.ACTIVE) := by
    refine Eq.trans ?_ activePage_pageActive
    unfold Dev.activePage Dev.page
    rw [f_pageChecked (by decide)]
    exact congrArg (fun p => Images.at_ p _) (show (sansWords (pageChecked s.dev)).pages = (sansWords s.dev).pages from
      congrArg Dev.pages sansWords_pageChecked)
  have hen : (pageChecked s.dev).f R.ITIN_CTL.ENABLE = s.dev.f R.ITIN_CTL.ENABLE := (f_pageChecked (by decide)).trans (f_pageActive_other (by decide))
  refine ⟨(f_pageChecked (by decide)).trans (hactive.trans (Nat.mod_eq_of_lt (by omega))), hpage, (f_pageChecked (by decide)).trans hp,
    (f_pageChecked (by decide)).trans hc, (f_pageChecked (by decide)).trans hid, (f_pageChecked (by decide)).trans hpid,
    (f_pageChecked (by decide)).trans hready, (hwing (by decide)).trans hnext, (hwing (by decide)).trans hdropped, ?_, ?_, ?_, fun _ => rfl⟩
  · have hplan := plan_pageChecked (d := s.dev)
    split at hplan
    · next hdiff => rw [if_pos hdiff]; exact hplan
    · next hsame => rw [if_neg hsame]; exact hplan
  · change (if (pageChecked s.dev).on R.ITIN_CTL.ENABLE = true then (pageChecked s.dev).shadow 4 else (pageChecked s.dev).itinMode) = _
    have hon : (pageChecked s.dev).on R.ITIN_CTL.ENABLE = true ↔ s.dev.f R.ITIN_CTL.ENABLE = 1 := by
      have hbit := f_bit (d := s.dev) (x := R.ITIN_CTL.ENABLE) (j := 0) rfl
      unfold Dev.on
      rw [hen, bne_iff_ne]
      omega
    simp only [hon, shadow_pageChecked]
    exact congrArg (fun m => if s.dev.f R.ITIN_CTL.ENABLE = 1 then s.dev.shadow 4 else m)
      (show (sansWords (pageChecked s.dev)).itinMode = (sansWords s.dev).itinMode from congrArg Dev.itinMode sansWords_pageChecked)
  · exact show (sansWords (pageChecked s.dev)).cancelTx = (sansWords s.dev).cancelTx from congrArg Dev.cancelTx sansWords_pageChecked

/-! ### A version becomes active -/

/-- The registers of the Catalogue once the pending version, of plan id, is the active one, `act` before it, and the hold of both CEP values runs. -/
def catSwapped (act id : Nat) (d : Dev) : Dev :=
  (((((((d.set R.CAT_STATE.ACTIVE 0 (1 - act)).set R.CAT_STATE.PEND 0 0).set R.CAT_STATE.COMMITTED 0 0).set R.CAT_STATE.ACT_AT 0 0).set
    R.CAT_STATE.HOLDING 0 1).set R.CAT_ID.ACTIVE_PLAN 0 id).set R.CAT_ID.PEND_PLAN 0 0).set R.CAT_READY.READY 0 0

theorem f_catSwapped (act : Nat) {id : Nat} (hid : id < 2 ^ 32) : (catSwapped act id d).f R.CAT_STATE.ACTIVE = (1 - act) % 2 ∧
    (catSwapped act id d).f R.CAT_STATE.PEND = 0 ∧ (catSwapped act id d).f R.CAT_STATE.COMMITTED = 0 ∧
    (catSwapped act id d).f R.CAT_STATE.HOLDING = 1 ∧ (catSwapped act id d).f R.CAT_ID.ACTIVE_PLAN = id ∧
    (catSwapped act id d).f R.CAT_ID.PEND_PLAN = 0 ∧ (catSwapped act id d).f R.CAT_READY.READY = 0 ∧
    (catSwapped act id d).f R.CAT_CTL.HOLD = d.f R.CAT_CTL.HOLD := by
  unfold catSwapped
  refine ⟨?_, ?_, ?_, ?_, ?_, ?_, f_set_same _ _ _ _ (by decide), ?_⟩
  all_goals simp (disch := decide) only [f_set_apart, f_set_same, Nat.zero_mod]
  · rfl
  · rfl
  · exact Nat.mod_eq_of_lt hid

/-- A block whose CEP values are held from now on, as HOLD stands (R218). -/
def holdStarted (d : Dev) : Dev := { d with catHeld := d.now, catHold := d.f R.CAT_CTL.HOLD }

/-- A block whose pending version has become the active one. -/
def catHolds (d : Dev) : Dev := holdStarted (catSwapped (d.f R.CAT_STATE.ACTIVE) (d.f R.CAT_ID.PEND_PLAN) d.pmSettle)

theorem f_holdStarted (x : Fld) : (holdStarted d).f x = d.f x := rfl
theorem cats_holdStarted : (holdStarted d).cats = d.cats := rfl
theorem catHeld_holdStarted : (holdStarted d).catHeld = d.now := rfl
theorem catHold_holdStarted : (holdStarted d).catHold = d.f R.CAT_CTL.HOLD := rfl
theorem cats_catSwapped (act id : Nat) : (catSwapped act id d).cats = d.cats := rfl
theorem now_catSwapped (act id : Nat) : (catSwapped act id d).now = d.now := rfl

/-- Each time domain whose source the new version no longer names loses it. -/
def sourcesFollowed (d : Dev) : Dev :=
  [0, 1].foldl (fun (a : Dev) i =>
    if a.on R.TIME_DOM_CFG.EN i && a.f R.TIME_DOM_CFG.SRC_TYPE i == 0 && !catPeerValid a.cat (a.f R.TIME_DOM_CFG.SRC i) then a.sourceLost i
    else a) d

theorem Spared.sourcesFollowed {a : Dev} (h : Spared a d) : Spared a (sourcesFollowed d) :=
  .iteOf (.iteOf h (.sourceLost · (by decide))) (.sourceLost · (by decide))

/-- What an activation does behind the swap, with the peers of the sites as the version before named them: contexts whose peer has changed fail,
and peers, time sources, path counts, engines and seals follow the new version. -/
def swapFollowed (old : Nat → Option Nat) (d : Dev) : Dev :=
  let d4 := (d.ctxs.filter (fun c => !c.2.isClosed && old c.2.site != d.peerOf c.2.site)).foldl (fun (a : Dev) c => a.failCtx c.1 0x0F) d
  let d6 := sourcesFollowed d4.planPeers
  let moved := (List.range 32).filter (fun x => old x != d6.peerOf x)
  let d7 := moved.foldl (fun (a : Dev) x => (List.range 8).foldl (fun (b : Dev) q => b.pmDirty (pathEnt x q)) a) d6
  ((List.range 8).foldl (fun (a : Dev) e => a.regroupEngine e) d7).sealAll

theorem activateCat_eq (hpend : d.f R.CAT_STATE.PEND = 1) : d.activateCat = swapFollowed d.peerOf (catHolds d) := if_pos (on_of_f hpend)

theorem spared_swapFollowed (old : Nat → Option Nat) : Spared d (swapFollowed old d) := by
  unfold swapFollowed
  extract_lets d4 d6 moved d7
  have h6 : Spared d d6 := .sourcesFollowed (.planPeers (.foldl .failCtx .refl))
  have h7 : Spared d d7 := .foldl (fun h => .foldl .pmDirty h) h6
  exact .sealAll (.foldl .regroupEngine h7)

theorem f_of_spared {x : Fld} (h : Spared d e) (hx : CatWord (x.key 0)) : e.f x = d.f x := f_of_word (h.words _ hx)

theorem parts_of_spared (h : Spared d e) : e.cats = d.cats ∧ e.catHeld = d.catHeld ∧ e.catHold = d.catHold ∧ e.now = d.now := by
  have hparts := h.parts
  simp only [sparedParts, Prod.mk.injEq] at hparts
  exact hparts.2

/-- What a block holds that spares the Catalogue as the activation left it. -/
theorem catHolds_spec (hspared : Spared (catHolds d) e) : e.f R.CAT_STATE.ACTIVE = 1 - d.f R.CAT_STATE.ACTIVE ∧
    e.cat = d.catVer (1 - d.f R.CAT_STATE.ACTIVE) ∧ e.f R.CAT_STATE.PEND = 0 ∧ e.f R.CAT_STATE.COMMITTED = 0 ∧ e.f R.CAT_STATE.HOLDING = 1 ∧
    e.f R.CAT_ID.ACTIVE_PLAN = d.f R.CAT_ID.PEND_PLAN ∧ e.f R.CAT_ID.PEND_PLAN = 0 ∧ e.f R.CAT_READY.READY = 0 ∧ e.catHeld = d.now ∧
    e.catHold = d.f R.CAT_CTL.HOLD := by
  have hsettled : Spared d d.pmSettle := .pmSettle .refl
  obtain ⟨hcats', -, -, hnow'⟩ := parts_of_spared hsettled
  have hhold' : d.pmSettle.f R.CAT_CTL.HOLD = d.f R.CAT_CTL.HOLD := f_of_spared hsettled (by decide)
  unfold catHolds at hspared
  generalize d.pmSettle = p at *
  have hf {x : Fld} (hx : CatWord (x.key 0)) : e.f x = (catSwapped (d.f R.CAT_STATE.ACTIVE) (d.f R.CAT_ID.PEND_PLAN) p).f x :=
    (f_of_spared hspared hx).trans (f_holdStarted x)
  obtain ⟨hactive, hp, hc, hh, ha, hpp, hr, hhold⟩ := f_catSwapped (d := p) (d.f R.CAT_STATE.ACTIVE) (f_lt d R.CAT_ID.PEND_PLAN 0)
  rw [Nat.mod_eq_of_lt (by omega)] at hactive
  obtain ⟨hcats, hheld, hcathold, -⟩ := parts_of_spared hspared
  rw [cats_holdStarted, cats_catSwapped, hcats'] at hcats
  rw [catHeld_holdStarted, now_catSwapped, hnow'] at hheld
  rw [catHold_holdStarted, hhold, hhold'] at hcathold
  refine ⟨(hf (by decide)).trans hactive, ?_, (hf (by decide)).trans hp, (hf (by decide)).trans hc, (hf (by decide)).trans hh,
    (hf (by decide)).trans ha, (hf (by decide)).trans hpp, (hf (by decide)).trans hr, hheld, hcathold⟩
  unfold Dev.cat Dev.catVer
  rw [(hf (by decide)).trans hactive, hcats]

theorem spared_activateCat (hpend : d.f R.CAT_STATE.PEND = 1) : Spared (catHolds d) d.activateCat := by
  rw [activateCat_eq hpend]
  exact spared_swapFollowed _

/-- CATALOGUE_ACTIVATE of a pending version whose ACT_AT has come (R218, R239). -/
theorem catalogueActivate_due (hpend : s.dev.f R.CAT_STATE.PEND = 1) (hcome : s.dev.hasCome (s.dev.f R.CAT_STATE.ACT_AT) = true) :
    Completes .catalogueActivate s (fun t => t.dev.f R.CAT_STATE.ACTIVE = 1 - s.dev.f R.CAT_STATE.ACTIVE ∧
      t.dev.cat = s.dev.catVer (1 - s.dev.f R.CAT_STATE.ACTIVE) ∧
      t.dev.f R.CAT_STATE.PEND = 0 ∧ t.dev.f R.CAT_STATE.COMMITTED = 0 ∧ t.dev.f R.CAT_STATE.HOLDING = 1 ∧
      t.dev.f R.CAT_ID.ACTIVE_PLAN = s.dev.f R.CAT_ID.PEND_PLAN ∧ t.dev.f R.CAT_ID.PEND_PLAN = 0 ∧ t.dev.f R.CAT_READY.READY = 0 ∧
      t.dev.catHeld = s.dev.now ∧ t.dev.catHold = s.dev.f R.CAT_CTL.HOLD ∧ SameMem s t) := by
  have hexec : exec .catalogueActivate s = .next (s.onDev (fun _ => s.dev.activateCat)) := by
    change Host.Outcome.next (s.onDev _) = _
    unfold State.onDev
    dsimp only
    rw [if_pos hcome]
  obtain ⟨hactive, hcat, hp, hc, hh, ha, hpp, hr, hheld, hhold⟩ := catHolds_spec (spared_activateCat hpend)
  exact ⟨_, hexec, hactive, hcat, hp, hc, hh, ha, hpp, hr, hheld, hhold, fun _ => rfl⟩

theorem activate_early : (s.dev.hasCome (s.dev.f R.ITIN_STATE.ACT_AT) = false → Completes .pageActivate s (fun t => t = s)) ∧
    (s.dev.hasCome (s.dev.f R.CAT_STATE.ACT_AT) = false → Completes .catalogueActivate s (fun t => t = s)) := by
  refine ⟨fun h => ⟨_, rfl, ?_⟩, fun h => ⟨_, rfl, ?_⟩⟩ <;>
  · dsimp only [State.onDev]
    rw [h, if_neg (by decide)]

/-! ### Visits of the anchors (R221 to R223) -/

theorem lines_sendOnce_foldl (site : Nat) (l : List Ctl) : (l.foldl (fun (a : Dev) c => a.sendOnce site c) d).lines = d.lines :=
  List.foldlRecOn (motive := fun (a : Dev) => a.lines = d.lines) _ _ rfl (fun a ha c _ => by
    refine Eq.trans ?_ ha
    unfold Dev.sendOnce
    split <;> rfl)

/-- A visit that begins queues MARK, ECHO and QUAL for the site's peer on the engine's anchor. -/
theorem anchorVisit_queues {n site p : Nat} (hsite : d.anchorSite n = some site) (hpeer : d.peerOf site = some p) :
    ((d.anchorVisit n).lineOf (16 * n)).timeQ = [(p, 1), (p, 2), (p, 3)] := by
  unfold Dev.anchorVisit
  rw [hsite]
  dsimp -zeta only
  rw [hpeer]
  dsimp -zeta only
  extract_lets d1 d2 d3 d5 news d6 sent d7
  have hlines : d7.lines = d2.lines := lines_sendOnce_foldl site news
  have hline : d7.lineOf (16 * n) = d2.lineOf (16 * n) := congrArg (fun l => tabGet (fun _ => LineX.empty) l (16 * n)) hlines
  rw [hline]
  change ((d1.setLine (16 * n) _).lineOf (16 * n)).timeQ = _
  rw [lineOf_setLine, if_pos rfl]

theorem anchorVisit_begins {n : Fin 8} {site p : Nat} (hen : s.dev.f R.CAT_CTL.ENABLE = 1) (hcar : s.dev.carOn (16 * n.val) = true)
    (hfa : s.dev.faOk n = true) (hnew : (s.dev.kwOf (16 * n.val)).visitAt ≠ some (s.dev.tai / 20000)) (hsite : s.dev.anchorSite n = some site)
    (hpeer : s.dev.peerOf site = some p) :
    Completes (.anchorVisit n) s (fun t => (t.dev.lineOf (16 * n.val)).timeQ = [(p, 1), (p, 2), (p, 3)] ∧ SameMem s t) := by
  refine ⟨_, rfl, ?_⟩
  dsimp only [State.onDev]
  rw [if_pos (by simp [on_of_f hen, hcar, hfa, hnew])]
  exact ⟨anchorVisit_queues hsite hpeer, fun _ => rfl⟩

theorem anchorVisit_again {n : Fin 8} (h : s.dev.f R.CAT_CTL.ENABLE = 0 ∨ (s.dev.kwOf (16 * n.val)).visitAt = some (s.dev.tai / 20000)) :
    Completes (.anchorVisit n) s (fun t => t = s) := by
  refine ⟨_, rfl, ?_⟩
  dsimp only [State.onDev]
  rw [if_neg ?_]
  rcases h with hoff | hseen
  · simp [Dev.on, hoff]
  · simp [hseen]

/-- Settles O48, a lemma for each of its clauses. -/
theorem plansAreAnnouncedCommittedAndActivated : Obligations.PlansAreAnnouncedCommittedAndActivated := by
  unfold Obligations.PlansAreAnnouncedCommittedAndActivated
  exact ⟨fun _ _ _ _ hfrom hkind hpend hplan => announce_version hfrom hkind hpend hplan,
    fun _ _ _ hfrom hkind hpend hid hact => announce_page hfrom hkind hpend hid hact,
    fun _ _ _ hfrom hkind hpend hid hact => cancel_version hfrom hkind hpend hid hact,
    fun _ _ _ hfrom hkind hpend hid hact => cancel_page hfrom hkind hpend hid hact,
    fun _ h => commitPoint_catalogue h, fun _ h => commitPoint_page h, fun _ => commitPoint_early,
    fun w _ hpend hcome => pageActivate_due w hpend hcome, fun _ => activate_early, fun _ hpend hcome => catalogueActivate_due hpend hcome,
    fun _ hready hpend => itinCancel_pending hready hpend, fun _ hready hpend => catCancel_pending hready hpend,
    fun _ hfree hover => cepHoldEnd_over hfree hover, fun _ hearly => cepHoldEnd_early hearly,
    fun _ hready hauto => itinPageDataRead_word hready hauto, fun _ hready hauto hin => catDataRead_word hready hauto hin,
    fun _ _ _ _ hen hcar hfa hnew hsite hpeer => anchorVisit_begins hen hcar hfa hnew hsite hpeer, fun _ _ h => anchorVisit_again h⟩

end Sys2Proof.Laws
end

section
/-! SEGMENT_CUT of the first item of a context's queue (R167, R230, R234, R318). -/

namespace Sys2Proof.Laws

-- One theorem after another: a thread of its own for each passes the memory that the whole text may take.
set_option Elab.async false

open Sys2Proof Sys2Proof.Machine

variable {d e : Dev} {s : State} {it : SendItem} {rest : List SendItem} {c m : Nat}

theorem wakeRequest_idle (hpark : (d.sched m).txPark = false) (hpend : d.pendingPark m 0 = none) : d.wakeRequest m = d := by
  unfold Dev.wakeRequest
  rw [hpark, hpend]
  exact ite_self d

/-- Whatever the contexts and the line queues hold. -/
theorem wakeRequest_idle_sending (l : List (Nat × Ctx)) (w : List (Nat × WfqX)) (hpark : (d.sched m).txPark = false)
    (hpend : d.pendingPark m 0 = none) : ({ d with ctxs := l, wfq := w } : Dev).wakeRequest m = { d with ctxs := l, wfq := w } :=
  wakeRequest_idle (d := { d with ctxs := l, wfq := w }) hpark hpend

theorem wakeRequest_parked (hcar : isAnchor m = false) (hpark : (d.sched m).txPark = true) :
    d.wakeRequest m = d.onKw m (fun x => { x with wakeReq := true }) := by
  unfold Dev.wakeRequest
  rw [hcar, hpark]
  rfl

theorem mayCut_smaller {x : Ctx} {a b : Nat} (hab : a ≤ b) (h : d.mayCut x b = true) : d.mayCut x a = true := by
  unfold Dev.mayCut at h ⊢
  simp only [Bool.and_eq_true, decide_eq_true_eq] at h ⊢
  obtain ⟨hopen, hfits⟩ := h
  exact ⟨hopen, by omega⟩

theorem nextItem_front (hhope : it.hopeful = true) : d.nextItem (it :: rest) = some 0 := by
  unfold Dev.nextItem
  rw [List.length_cons, List.range_succ_eq_map, List.find?_cons_of_pos]
  simp [hhope, Dev.wouldPass]

section
variable (hq : (d.ctx c).sendq = it :: rest) (hhope : it.hopeful = true) (hcut : d.mayCut (d.ctx c) 64 = true)
include hq hhope hcut

theorem segmentCut_unchosen (hno : d.chosen m (d.ctx c) = false) :
    d.segmentCut c m = if d.scheduledFor m (d.ctx c) && !d.mayCarry m (d.ctx c) then d.wakeRequest m else d := by
  unfold Dev.segmentCut
  dsimp only
  rw [hq, nextItem_front hhope]
  dsimp only [List.getElem?_cons_zero]
  rw [hcut, hno]
  rfl

theorem segmentCut_keyless (hyes : d.chosen m (d.ctx c) = true)
    (hkey : d.streamKey (d.ctx c) true (epochOf (d.ctx c).sndNxt) = none) (hopen : d.ctxSealed (d.ctx c) = false) :
    d.segmentCut c m = if (d.ctx c).stalledAt = some (epochOf (d.ctx c).sndNxt) then d
      else (d.onCtx c (fun y => { y with stalledAt := some (epochOf y.sndNxt) })).bump R.VT_CNT2.STALL 0 := by
  unfold Dev.segmentCut
  dsimp only
  rw [hq, nextItem_front hhope]
  dsimp only [List.getElem?_cons_zero]
  rw [hcut, hyes, hkey, hopen]
  dsimp only [Bool.not_true, Bool.false_or]
  rw [if_neg (by decide), if_neg (by decide)]
  exact if_congr beq_iff_eq rfl rfl

/-- An item of which no block is to be coded gives its segment from the bytes it has. -/
theorem segmentCut_plain {key : List Byte} (hyes : d.chosen m (d.ctx c) = true)
    (hkey : d.streamKey (d.ctx c) true (epochOf (d.ctx c).sndNxt) = some key) (hplain : it.plain = true) (hcuttable : it.cuttable = true)
    (hroom : d.mayCut (d.ctx c) (64 + min 16384 it.bytes.length) = true)
    (hloan : ((d.ctx c).log.filter (fun e => e.attempts == 0)).length < (d.ctx c).txBufs.length) :
    d.segmentCut c m = ((d.setCtx c (d.ctx c)).cutItem c m 0 it key).wakeRequest m := by
  have hcode : d.codeUp 1024 (d.ctx c).home (d.ctx c).job it = (d, it) := by
    rw [show 1024 = 1023 + 1 from rfl]
    unfold Dev.codeUp
    exact if_pos (.inr (by simp [SendItem.canCode, hplain]))
  have hsame : d.onCtx c (fun y => { y with sendq := replaceItem 0 it false y.sendq }) = d.setCtx c (d.ctx c) := by
    have hrep : replaceItem 0 it false (d.ctx c).sendq = (d.ctx c).sendq := by rw [hq]; rfl
    exact congrArg (fun l => d.setCtx c { d.ctx c with sendq := l }) hrep
  have hctx : (d.setCtx c (d.ctx c)).ctx c = d.ctx c := by rw [ctx_setCtx, if_pos rfl]
  have htx : (d.setCtx c (d.ctx c)).txLoan c = (d.setCtx c (d.ctx c), true) := by
    unfold Dev.txLoan
    rw [hctx]
    exact if_pos hloan
  have hroom' : (d.setCtx c (d.ctx c)).mayCut (d.ctx c) (64 + min 16384 it.bytes.length) = true := hroom
  unfold Dev.segmentCut
  dsimp only
  rw [show d.nextItem (d.ctx c).sendq = some 0 by rw [hq]; exact nextItem_front hhope]
  dsimp only
  rw [show (d.ctx c).sendq[0]? = some it by rw [hq]; rfl]
  dsimp only
  rw [hcut, hyes, hkey, hcode]
  dsimp only [Bool.not_true]
  rw [if_neg (by decide), if_neg (by decide), hsame, hcuttable, hroom', htx]
  rfl
end

theorem segmentCut_elsewhere (hcarry : d.mayCarry m (d.ctx c) = false) (hsched : d.scheduledFor m (d.ctx c) = false) : d.segmentCut c m = d := by
  have hno : d.chosen m (d.ctx c) = false := by unfold Dev.chosen; rw [hcarry]; rfl
  unfold Dev.segmentCut
  dsimp only
  split
  · rfl
  · split
    · rfl
    · rw [hno, hsched]
      exact ite_self d

/-! ### The segment that an answer's last bytes become -/

/-- What context x becomes when the last bytes of its first item are cut onto carrier m (R165 to R167). -/
structure LastCut (d : Dev) (x y : Ctx) (it : SendItem) (rest : List SendItem) (m : Nat) : Prop where
  sndNxt : y.sndNxt = x.sndNxt + 1
  sendq : y.sendq = rest
  log : y.log.map (fun e => (e.seq, e.size, e.carrier, e.attempts)) =
    x.log.map (fun e => (e.seq, e.size, e.carrier, e.attempts)) ++ [(x.sndNxt, 64 + it.bytes.length, m, 0)]
  timer : y.timer = if x.timer.isNone then some (d.now, d.rtoRun x) else x.timer
  sndUna : y.sndUna = x.sndUna

theorem formSeg_last {x : Ctx} {opn : Nat} (hraw : it.raw = []) (hleft : it.left = 0) (hlen : it.bytes.length ≤ 16384) :
    (d.formSeg x it opn).last = true := by
  simp [Dev.formSeg, SendItem.over, hraw, hleft, hlen]

theorem cutItem_answer (key : List Byte) (hkind : it.kind = 2) (hraw : it.raw = []) (hleft : it.left = 0) (hlen : it.bytes.length ≤ 16384)
    (htgt : (d.ctx c).tgt = []) (hq : (d.ctx c).sendq = it :: rest) :
    ∃ y, d.cutItem c m 0 it key = d.lineSettle.setCtx c y ∧ LastCut d (d.ctx c) y it rest m := by
  unfold Dev.cutItem
  extract_lets x new opn g0 n g e t1 d1 d2
  have hnew : new = false := by simp [new, hkind]
  have hlast : g.last = true := formSeg_last (d := d) (x := x) (opn := opn) hraw hleft hlen
  have hn : n = it.bytes.length := List.length_take.trans (min_eq_right hlen)
  have htgt1 : (d1.ctx c).tgt = [] := by
    unfold d1
    rw [ctx_setCtx, if_pos rfl]
    exact htgt
  have hgone : d1.tgtGone c opn = d1 := by
    unfold Dev.tgtGone Ctx.tgtOp
    rw [htgt1]
    rfl
  have hd2 : d2 = d1 := by unfold d2; rw [hnew]; rfl
  rw [if_pos ⟨hkind, hlast⟩, hd2, hgone]
  refine ⟨_, rfl, rfl, ?_, ?_, rfl, rfl⟩
  · change replaceItem 0 t1 g.last x.sendq = rest
    rw [hlast, show x.sendq = it :: rest from hq]
    rfl
  · change (x.log ++ [e]).map _ = _
    rw [List.map_append]
    change _ ++ [(x.sndNxt, 64 + n, m, 0)] = _
    rw [hn]

/-- A change of a context around a settling of the line queues touches nothing but the two. -/
theorem settled_setCtx (x y : Ctx) : ∃ l w, (d.setCtx c x).lineSettle.setCtx c y = { d with ctxs := l, wfq := w } := by
  have hsettle : ∀ l, ∃ w, ({ d with ctxs := l } : Dev).lineSettle = { d with ctxs := l, wfq := w } := fun _ => ⟨_, rfl⟩
  obtain ⟨w, hw⟩ := hsettle (tabPut (fun _ => Ctx.empty) c x d.ctxs)
  exact ⟨_, w, (congrArg (Dev.setCtx · c y) hw).trans rfl⟩

theorem segmentCut_answer {key : List Byte} (hq : (d.ctx c).sendq = it :: rest) (hkind : it.kind = 2) (hplain : it.plain = true)
    (hraw : it.raw = []) (hleft : it.left = 0) (hsome : 0 < it.bytes.length) (hlen : it.bytes.length ≤ 16384)
    (hcut : d.mayCut (d.ctx c) (64 + it.bytes.length) = true) (hyes : d.chosen m (d.ctx c) = true)
    (hpark : (d.sched m).txPark = false) (hpend : d.pendingPark m 0 = none)
    (hkey : d.streamKey (d.ctx c) true (epochOf (d.ctx c).sndNxt) = some key)
    (hloan : ((d.ctx c).log.filter (fun e => e.attempts == 0)).length < (d.ctx c).txBufs.length) (htgt : (d.ctx c).tgt = []) :
    ∃ l w, d.segmentCut c m = { d with ctxs := l, wfq := w } ∧ LastCut d (d.ctx c) (tabGet (fun _ => Ctx.empty) l c) it rest m := by
  have hcuttable : it.cuttable = true := by
    have hne : it.bytes ≠ [] := List.ne_nil_of_length_pos hsome
    simp [SendItem.cuttable, SendItem.over, hraw, hleft, hne]
  have hhope : it.hopeful = true := by simp [SendItem.hopeful, hcuttable]
  have hctx : (d.setCtx c (d.ctx c)).ctx c = d.ctx c := by rw [ctx_setCtx, if_pos rfl]
  obtain ⟨y, hcutItem, hy⟩ := cutItem_answer (d := d.setCtx c (d.ctx c)) (c := c) (m := m) key hkind hraw hleft hlen
    (by rw [hctx]; exact htgt) (by rw [hctx]; exact hq)
  rw [hctx] at hy
  have hget : ((d.setCtx c (d.ctx c)).lineSettle.setCtx c y).ctx c = y := by rw [ctx_setCtx, if_pos rfl]
  obtain ⟨l, w, hdev⟩ := settled_setCtx (d := d) (c := c) (d.ctx c) y
  rw [hdev] at hcutItem hget
  refine ⟨l, w, ?_, ?_⟩
  · rw [segmentCut_plain hq hhope (mayCut_smaller (by omega) hcut) hyes hkey hplain hcuttable (by rwa [min_eq_right hlen]) hloan, hcutItem,
      wakeRequest_idle_sending l w hpark hpend]
  · rw [show tabGet (fun _ => Ctx.empty) l c = y from hget]
    exact ⟨hy.sndNxt, hy.sendq, hy.log, hy.timer, hy.sndUna⟩

/-! ### SEGMENT_CUT -/

theorem segmentCut_cuts {c : Fin 32768} {m : Fin 128} {key : List Byte} (hq : (s.dev.ctx c).sendq = it :: rest) (hkind : it.kind = 2) (hplain : it.plain = true)
    (hraw : it.raw = []) (hleft : it.left = 0) (hsome : 0 < it.bytes.length) (hlen : it.bytes.length ≤ 16384)
    (hcut : s.dev.mayCut (s.dev.ctx c) (64 + it.bytes.length) = true) (hyes : s.dev.chosen m (s.dev.ctx c) = true)
    (hpark : (s.dev.sched m).txPark = false) (hpend : s.dev.pendingPark m 0 = none)
    (hkey : s.dev.streamKey (s.dev.ctx c) true (epochOf (s.dev.ctx c).sndNxt) = some key)
    (hloan : ((s.dev.ctx c).log.filter (fun e => e.attempts == 0)).length < (s.dev.ctx c).txBufs.length) (htgt : (s.dev.ctx c).tgt = []) :
    Completes (.segmentCut c m) s (fun t => (t.dev.ctx c).sndNxt = (s.dev.ctx c).sndNxt + 1 ∧ (t.dev.ctx c).sendq = rest ∧
      (t.dev.ctx c).log.map (fun e => (e.seq, e.size, e.carrier, e.attempts)) =
        (s.dev.ctx c).log.map (fun e => (e.seq, e.size, e.carrier, e.attempts)) ++ [((s.dev.ctx c).sndNxt, 64 + it.bytes.length, m.val, 0)] ∧
      (t.dev.ctx c).timer = (if (s.dev.ctx c).timer.isNone then some (s.dev.now, s.dev.rtoRun (s.dev.ctx c)) else (s.dev.ctx c).timer) ∧
      (t.dev.ctx c).sndUna = (s.dev.ctx c).sndUna ∧ { t.dev with ctxs := s.dev.ctxs, wfq := s.dev.wfq } = s.dev ∧ SameMem s t) := by
  obtain ⟨l, w, hdev, hy⟩ := segmentCut_answer hq hkind hplain hraw hleft hsome hlen hcut hyes hpark hpend hkey hloan htgt
  refine ⟨_, rfl, ?_⟩
  dsimp only [State.onDev]
  rw [hdev]
  exact ⟨hy.sndNxt, hy.sendq, hy.log, hy.timer, hy.sndUna, rfl, fun _ => rfl⟩

theorem segmentCut_stalls {c : Fin 32768} {m : Fin 128} (hq : (s.dev.ctx c).sendq = it :: rest) (hhope : it.hopeful = true)
    (hcut : s.dev.mayCut (s.dev.ctx c) 64 = true) (hyes : s.dev.chosen m (s.dev.ctx c) = true)
    (hkey : s.dev.streamKey (s.dev.ctx c) true (epochOf (s.dev.ctx c).sndNxt) = none) (hopen : s.dev.ctxSealed (s.dev.ctx c) = false) :
    Completes (.segmentCut c m) s (fun t => SameMem s t ∧
      if (s.dev.ctx c).stalledAt = some (epochOf (s.dev.ctx c).sndNxt) then t = s
      else t.dev.f R.VT_CNT2.STALL = min (s.dev.f R.VT_CNT2.STALL + 1) (2 ^ 32 - 1) ∧
        t.dev.ctx c = { s.dev.ctx c with stalledAt := some (epochOf (s.dev.ctx c).sndNxt) } ∧
        { t.dev with words := s.dev.words, ctxs := s.dev.ctxs } = s.dev ∧ SameWords s t [R.VT_CNT2.STALL.key 0]) := by
  refine ⟨_, rfl, fun _ => rfl, ?_⟩
  dsimp only [State.onDev]
  rw [segmentCut_keyless hq hhope hcut hyes hkey hopen]
  split
  · rfl
  · refine ⟨f_bump_same _ _ 0 1 (by decide), ?_, rfl, fun k hk => ?_⟩
    · exact (ctx_setCtx ..).trans (if_pos rfl)
    · exact word_bump_other _ _ 0 1 (by simpa using hk)

theorem segmentCut_wakes {c : Fin 32768} {m : Fin 128} (hq : (s.dev.ctx c).sendq = it :: rest) (hhope : it.hopeful = true)
    (hcut : s.dev.mayCut (s.dev.ctx c) 64 = true) (hcarry : s.dev.mayCarry m (s.dev.ctx c) = false)
    (hsched : s.dev.scheduledFor m (s.dev.ctx c) = true) (hpark : (s.dev.sched m).txPark = true) :
    Completes (.segmentCut c m) s (fun t => t.dev.kwOf m = { s.dev.kwOf m with wakeReq := true } ∧ { t.dev with kw := s.dev.kw } = s.dev ∧
      SameMem s t) := by
  have hno : s.dev.chosen m (s.dev.ctx c) = false := by unfold Dev.chosen; rw [hcarry]; rfl
  have hcar : isAnchor m = false := by
    unfold Dev.scheduledFor at hsched
    simp only [Bool.and_eq_true, Bool.not_eq_true'] at hsched
    exact hsched.1.1
  refine ⟨_, rfl, ?_⟩
  dsimp only [State.onDev]
  rw [segmentCut_unchosen hq hhope hcut hno, hsched, hcarry, if_pos (by decide), wakeRequest_parked hcar hpark]
  exact ⟨(kwOf_setKw ..).trans (if_pos rfl), rfl, fun _ => rfl⟩

theorem segmentCut_stays {c : Fin 32768} {m : Fin 128} (hcarry : s.dev.mayCarry m (s.dev.ctx c) = false)
    (hsched : s.dev.scheduledFor m (s.dev.ctx c) = false) : Completes (.segmentCut c m) s (fun t => t = s) := by
  refine ⟨_, rfl, ?_⟩
  dsimp only [State.onDev]
  rw [segmentCut_elsewhere hcarry hsched]

end Sys2Proof.Laws
end

section
/-! What a receipt keeps (R169, R170, R184): the loan that it may take and its own fields on the context touch nothing that has been received.
An item with no decoded block waiting stays so. -/

namespace Sys2Proof.Laws

-- One theorem after another: a thread of its own for each passes the memory that the whole text may take.
set_option Elab.async false

open Sys2Proof Sys2Proof.Machine

variable {a d e : Dev} {s : State} {c : Nat} {m : List Host.Cell}

/-! ### No decoded block waits -/

/-- No item of any context has a decoded block that waits for its place. -/
def NoneReady (d : Dev) : Prop := ∀ e ∈ d.ctxs, ∀ r ∈ e.2.rx, r.ready = []

theorem readyBlocks_eq_zero : d.readyBlocks = 0 ↔ NoneReady d := by
  unfold Dev.readyBlocks NoneReady
  simp only [List.sum_eq_zero_iff, List.mem_map, forall_exists_index, and_imp, forall_apply_eq_imp_iff₂, List.length_eq_zero_iff]

theorem NoneReady.ctx (h : NoneReady d) (k : Nat) : ∀ r ∈ (d.ctx k).rx, r.ready = [] := by
  have hlist : ∀ l : List (Nat × Ctx), (∀ e ∈ l, ∀ r ∈ e.2.rx, r.ready = []) → ∀ r ∈ (tabGet (fun _ => Ctx.empty) l k).rx, r.ready = [] := by
    intro l
    induction l with
    | nil => exact fun _ _ hr => absurd hr List.not_mem_nil
    | cons p t ih =>
      intro hl
      unfold tabGet
      split
      · exact hl p List.mem_cons_self
      · exact ih (fun e he => hl e (List.mem_cons_of_mem _ he))
  exact hlist d.ctxs h

theorem NoneReady.item (h : NoneReady d) (k : Nat) (key : ItemKey) : ((d.ctx k).item key).ready = [] := by
  unfold Ctx.item
  cases hfind : (d.ctx k).rx.find? (fun r => r.key == key) with
  | none => rfl
  | some r => exact h.ctx k r (List.mem_of_find?_eq_some hfind)

theorem NoneReady.setCtx {x : Ctx} (h : NoneReady d) (hx : ∀ r ∈ x.rx, r.ready = []) : NoneReady (d.setCtx c x) := by
  intro e he
  change e ∈ tabPut (fun _ => Ctx.empty) c x d.ctxs at he
  unfold tabPut at he
  split at he
  · exact h e (List.mem_of_mem_filter he)
  · rcases mem_tabIns he with rfl | hold
    · exact hx
    · exact h e hold

theorem NoneReady.onCtx {g : Ctx → Ctx} (h : NoneReady d) (hg : ∀ x, (g x).rx = x.rx) : NoneReady (d.onCtx c g) :=
  h.setCtx (fun r hr => h.ctx c r (hg _ ▸ hr))

/-! ### What a receipt keeps -/

/-- What a context has received: its state, CUM and the numbers beyond, the segments held, and its items. -/
def receivedParts (x : Ctx) : CtxState × Nat × List Nat × List HeldSeg × List RxItem := (x.state, x.rcvCum, x.rcvd, x.held, x.rx)

/-- Keys of words other than BPM_POOL_STAT, BPM_POOL_EMPTY and BPMQ (Table 6.9), and of those from HEALTH_PEER on. -/
abbrev OffLoans (k : Nat) : Prop := k < 0x702110 ∨ (k < 0xD08000 ∧ k % 32 ≠ 16 ∧ k % 32 ≠ 24)

/-- d holds the operations, the words and what every context has received as a does, with no decoded block waiting where a has none. -/
structure Receipted (a d : Dev) : Prop where
  ops : d.ops = a.ops
  seen : d.segSeen = a.segSeen
  ctx : ∀ k, receivedParts (d.ctx k) = receivedParts (a.ctx k)
  words : ∀ k, OffLoans k → d.word k = a.word k
  calm : NoneReady a → NoneReady d

namespace Receipted

theorem refl : Receipted d d := ⟨rfl, rfl, fun _ => rfl, fun _ _ => rfl, id⟩

theorem trans (h : Receipted a d) (h' : Receipted d e) : Receipted a e :=
  ⟨h'.ops.trans h.ops, h'.seen.trans h.seen, fun k => (h'.ctx k).trans (h.ctx k), fun k hk => (h'.words k hk).trans (h.words k hk),
    fun ha => h'.calm (h.calm ha)⟩

theorem upd (h : Receipted a d) (hops : e.ops = d.ops) (hseen : e.segSeen = d.segSeen) (hctxs : e.ctxs = d.ctxs) (hwords : e.words = d.words) :
    Receipted a e :=
  h.trans ⟨hops, hseen, fun k => congrArg (fun l => receivedParts (tabGet (fun _ => Ctx.empty) l k)) hctxs,
    fun k _ => congrArg (tabGet resetWord · k) hwords, fun hd => by unfold NoneReady; rw [hctxs]; exact hd⟩

theorem set {x : Fld} {i v : Nat} (h : Receipted a d) (hx : ¬ OffLoans (x.key i)) : Receipted a (d.set x i v) :=
  h.trans ⟨rfl, rfl, fun _ => rfl, fun _ hk => word_set_other d x i v (fun heq => hx (heq ▸ hk)), id⟩

theorem setCtx {x : Ctx} (h : Receipted a d) (hx : receivedParts x = receivedParts (d.ctx c)) : Receipted a (d.setCtx c x) := by
  have hrx : x.rx = (d.ctx c).rx := congrArg (fun p => p.2.2.2.2) hx
  refine h.trans ⟨rfl, rfl, fun k => ?_, fun _ _ => rfl, fun hd => hd.setCtx (fun r hr => hd.ctx c r (hrx ▸ hr))⟩
  rw [ctx_setCtx]
  split
  · next hk => rw [hx, hk]
  · rfl

theorem onCtx {g : Ctx → Ctx} (h : Receipted a d) (hg : ∀ x, receivedParts (g x) = receivedParts x) : Receipted a (d.onCtx c g) :=
  h.setCtx (hg _)

theorem send {site : Nat} {q : Ctl} (h : Receipted a d) : Receipted a (d.send site q) := h.upd rfl rfl rfl rfl

theorem poolSync {p : Nat} (h : Receipted a d) : Receipted a (d.poolSync p) := by
  have hoff : ¬ OffLoans (0x702110 + 0x20 * p) := by unfold OffLoans; omega
  exact set (x := R.BPM_POOL_STAT.LOW) (set (x := R.BPM_POOL_STAT.RESV) (set (x := R.BPM_POOL_STAT.FREE) h hoff) hoff) hoff

theorem heldSync {t : Nat} (h : Receipted a d) : Receipted a (d.heldSync t) := by
  have hoff : ¬ OffLoans (0x2C000000 + 0x10 * t) := by unfold OffLoans; omega
  exact set (x := R.BPMQ.HELD) h hoff

theorem loanSync {x : Ctx} (h : Receipted a d) : Receipted a (d.loanSync x) := h.poolSync.poolSync.heldSync

theorem bumpEmpty {p : Nat} (h : Receipted a d) : Receipted a (d.bump R.BPM_POOL_EMPTY.EMPTY p) := by
  have hoff : ¬ OffLoans (0x702118 + 0x20 * p) := by unfold OffLoans; omega
  exact set (x := R.BPM_POOL_EMPTY.EMPTY) h hoff

theorem borrow {tx : Bool} (h : Receipted a d) : Receipted a (d.borrow c tx).1 := by
  unfold Dev.borrow
  extract_lets x p n
  split
  · split
    · exact h.bumpEmpty
    · refine loanSync (setCtx (h.upd rfl rfl rfl rfl) ?_)
      cases tx <;> rfl
  · exact h.bumpEmpty

theorem growCredit (h : Receipted a d) : Receipted a (d.growCredit c) := by
  unfold Dev.growCredit
  dsimp only
  split
  · exact h.borrow
  · exact h

theorem sendReceipt {reason nseq : Nat} (h : Receipted a d) : Receipted a (d.sendReceipt c reason nseq) := by
  unfold Dev.sendReceipt
  dsimp only
  split
  · exact h.growCredit
  · exact send (onCtx h.growCredit (fun _ => rfl))

theorem receiptCheck (h : Receipted a d) : Receipted a (d.receiptCheck c) := by
  unfold Dev.receiptCheck
  dsimp only
  split
  · exact h
  · split
    · exact h.sendReceipt
    · exact h

end Receipted

section
variable (h : Receipted d e) (k : Nat)
include h

theorem state_of_receipted : (e.ctx k).state = (d.ctx k).state := congrArg Prod.fst (h.ctx k)
theorem rcvCum_of_receipted : (e.ctx k).rcvCum = (d.ctx k).rcvCum := congrArg (fun p => p.2.1) (h.ctx k)
theorem held_of_receipted : (e.ctx k).held = (d.ctx k).held := congrArg (fun p => p.2.2.2.1) (h.ctx k)
theorem rx_of_receipted : (e.ctx k).rx = (d.ctx k).rx := congrArg (fun p => p.2.2.2.2) (h.ctx k)
end

theorem f_of_receipted {x : Fld} {i : Nat} (h : Receipted d e) (hx : OffLoans (x.key i)) : e.f x i = d.f x i := f_of_word (h.words _ hx)

/-- With no decoded block waiting no update is made. -/
theorem updatesGo_calm (h : NoneReady d) : updatesGo d.readyBlocks d m = (d, m) := by
  rw [readyBlocks_eq_zero.2 h]
  rfl

end Sys2Proof.Laws
end

section
/-! SEGMENT_RECEIVE of a segment that is not held (R168 steps 1 to 4, R218, R317, R319, R374). -/

namespace Sys2Proof.Laws

-- One theorem after another: a thread of its own for each passes the memory that the whole text may take.
set_option Elab.async false

open Sys2Proof Sys2Proof.Machine

variable {d e : Dev} {s : State} {g : Segment} {race ok : Bool} {k : HalfKey} {car c seq : Nat} {m : List Host.Cell}

/-! ### How far a segment comes -/

/-- Segment g meets a context of its generation that is open or draining and whose home wing works, in the right Catalogue phase (R168, R218,
R374). -/
structure Meets (d : Dev) (g : Segment) : Prop where
  enabled : d.f R.STREAM_CTL.ENABLE = 1
  phase : d.cepOk g.cep = true
  open_ : (d.ctx g.dst.toNat).state = .opened ∨ (d.ctx g.dst.toNat).state = .draining
  gen : (d.ctx g.dst.toNat).gen = g.gen.toNat
  wing : d.wingEnabled (d.ctx g.dst.toNat).home = true

/-- A block once a segment has reached context c: the receipts count it (R169). -/
def arrivedOn (d : Dev) (c : Nat) : Dev := d.onCtx c (fun x => { x with arrived := x.arrived + 1 })

theorem receipted_arrivedOn : Receipted d (arrivedOn d c) := .onCtx .refl (fun _ => rfl)

theorem ctx_arrivedOn : (arrivedOn d c).ctx c = { d.ctx c with arrived := (d.ctx c).arrived + 1 } := (ctx_setCtx ..).trans (if_pos rfl)

theorem Meets.known (h : Meets d g) :
    ¬ (((d.ctx g.dst.toNat).state ≠ .opened ∧ (d.ctx g.dst.toNat).state ≠ .draining) ∨ (d.ctx g.dst.toNat).gen ≠ g.gen.toNat) := by
  rintro (⟨hopen, hdrain⟩ | hgen)
  · exact h.open_.elim hopen hdrain
  · exact hgen h.gen

theorem segmentIn_phase (hen : d.f R.STREAM_CTL.ENABLE = 1) (hcep : d.cepOk g.cep = false) :
    segmentIn car g race ok d m = (d.bump R.CAT_ERR.CEP_STALE 0, m) := by
  unfold segmentIn
  dsimp only
  rw [on_of_f hen, hcep]
  rfl

theorem segmentIn_stale (hen : d.f R.STREAM_CTL.ENABLE = 1) (hcep : d.cepOk g.cep = true)
    (hstale : ((d.ctx g.dst.toNat).state ≠ .opened ∧ (d.ctx g.dst.toNat).state ≠ .draining) ∨ (d.ctx g.dst.toNat).gen ≠ g.gen.toNat) :
    segmentIn car g race ok d m =
      (d.bump R.STREAM_STAT_STALE.STALE (if (d.ctx g.dst.toNat).isClosed then carrierWing car else (d.ctx g.dst.toNat).home), m) := by
  unfold segmentIn
  dsimp only
  rw [on_of_f hen, hcep, if_neg (by decide), if_neg (by decide), if_pos hstale]

/-- A home wing out of service takes nothing in, whether or not streams are enabled. -/
theorem segmentIn_fenced (hcep : d.cepOk g.cep = true) (hopen : (d.ctx g.dst.toNat).state = .opened ∨ (d.ctx g.dst.toNat).state = .draining)
    (hgen : (d.ctx g.dst.toNat).gen = g.gen.toNat) (hwing : d.wingEnabled (d.ctx g.dst.toNat).home = false) :
    segmentIn car g race ok d m = (d, m) := by
  have hknown : ¬ (((d.ctx g.dst.toNat).state ≠ .opened ∧ (d.ctx g.dst.toNat).state ≠ .draining) ∨ (d.ctx g.dst.toNat).gen ≠ g.gen.toNat) := by
    rintro (⟨hno, hndrain⟩ | hngen)
    · exact hopen.elim hno hndrain
    · exact hngen hgen
  unfold segmentIn
  dsimp only
  rw [hcep, hwing, if_neg (by decide : ¬ (!true) = true), if_neg hknown]
  exact ite_self _

section
variable (hmeets : Meets d g)
include hmeets

theorem segmentIn_dup (hdup : wholeSeq (d.ctx g.dst.toNat).rcvCum g.seq.toNat < ((d.ctx g.dst.toNat).rcvCum : Int) ∨
    (d.ctx g.dst.toNat).rcvd.contains (wholeSeq (d.ctx g.dst.toNat).rcvCum g.seq.toNat).toNat ∨
    (d.ctx g.dst.toNat).held.any (fun h => h.seq == (wholeSeq (d.ctx g.dst.toNat).rcvCum g.seq.toNat).toNat)) :
    segmentIn car g race ok d m =
      (((arrivedOn d g.dst.toNat).bump R.STREAM_STAT_DUP.DUP (d.ctx g.dst.toNat).home).receiptCheck g.dst.toNat, m) := by
  unfold segmentIn
  dsimp only
  rw [on_of_f hmeets.enabled, hmeets.phase, hmeets.wing, if_neg (by decide), if_neg (by decide), if_neg hmeets.known, if_neg (by decide), if_pos hdup]
  rfl

section
variable (hseq : wholeSeq (d.ctx g.dst.toNat).rcvCum g.seq.toNat = (seq : Int))
  (hnew : ¬ ((seq : Int) < ((d.ctx g.dst.toNat).rcvCum : Int) ∨ (d.ctx g.dst.toNat).rcvd.contains seq ∨
    (d.ctx g.dst.toNat).held.any (fun h => h.seq == seq)))
include hseq hnew

theorem segmentIn_outWin (hout : (d.ctx g.dst.toNat).rcvCum + 2 ^ 20 ≤ seq ∨ (d.ctx g.dst.toNat).granted ≤ seq) :
    segmentIn car g race ok d m =
      (((arrivedOn d g.dst.toNat).bump R.STREAM_STAT_OUT_WIN.OUT_WIN (d.ctx g.dst.toNat).home).receiptCheck g.dst.toNat, m) := by
  unfold segmentIn
  dsimp only
  rw [on_of_f hmeets.enabled, hmeets.phase, hmeets.wing, hseq, Int.toNat_natCast, if_neg (by decide), if_neg (by decide), if_neg hmeets.known,
    if_neg (by decide), if_neg hnew, if_pos hout]
  rfl

variable (hin : ¬ ((d.ctx g.dst.toNat).rcvCum + 2 ^ 20 ≤ seq ∨ (d.ctx g.dst.toNat).granted ≤ seq))
include hin

theorem segmentIn_keyless (hkey : ∀ k, d.half (halfIx (d.ctx g.dst.toNat).pair (b2n g.kph) (1 - d.outHalf (d.ctx g.dst.toNat).site)) = some k →
    k.epoch ≠ epochOf seq ∨ k.wrap ≠ none) :
    segmentIn car g race ok d m = (((arrivedOn d g.dst.toNat).bump R.VT_CNT.NOKEY 0).receiptCheck g.dst.toNat, m) := by
  unfold segmentIn
  dsimp only
  rw [on_of_f hmeets.enabled, hmeets.phase, hmeets.wing, hseq, Int.toNat_natCast, if_neg (by decide), if_neg (by decide), if_neg hmeets.known,
    if_neg (by decide), if_neg hnew, if_neg hin]
  split
  · rfl
  · next k hk => exact if_pos (hkey k hk)

variable (hkey : d.half (halfIx (d.ctx g.dst.toNat).pair (b2n g.kph) (1 - d.outHalf (d.ctx g.dst.toNat).site)) = some k)
  (hepoch : k.epoch = epochOf seq) (hwrap : k.wrap = none)
include hkey hepoch hwrap

theorem segmentIn_badTag : segmentIn car g race false d m =
    ((((arrivedOn d g.dst.toNat).wipeLoan g.dst.toNat m).1.tagFail g.dst.toNat seq).receiptCheck g.dst.toNat,
      ((arrivedOn d g.dst.toNat).wipeLoan g.dst.toNat m).2) := by
  have hgood : ¬ (k.epoch ≠ epochOf seq ∨ k.wrap ≠ none) := by simp [hepoch, hwrap]
  unfold segmentIn
  dsimp only
  rw [on_of_f hmeets.enabled, hmeets.phase, hmeets.wing, hseq, Int.toNat_natCast, if_neg (by decide), if_neg (by decide), if_neg hmeets.known,
    if_neg (by decide), if_neg hnew, if_neg hin]
  split
  · next hnone => exact absurd (hnone.symm.trans hkey) (by simp)
  · next k' hk' =>
    obtain rfl : k' = k := Option.some.inj (hk'.symm.trans hkey)
    exact (if_neg hgood).trans (if_pos rfl)

end
end

/-! ### What a refused segment counts -/

/-- A counter that counts once between two stretches that only keep. -/
theorem counted_of_receipted {a : Dev} (c : Nat) {x : Fld} {i : Nat} (hbefore : Receipted d a) (hafter : Receipted (a.bump x i) e)
    (hoff : OffLoans (x.key i)) (hx : x.lo + x.w ≤ 64) :
    e.f x i = min (d.f x i + 1) (2 ^ x.w - 1) ∧ (e.ctx c).rcvCum = (d.ctx c).rcvCum ∧ (e.ctx c).held = (d.ctx c).held ∧
    (e.ctx c).state = (d.ctx c).state := by
  refine ⟨?_, ?_, ?_, ?_⟩
  · rw [f_of_receipted hafter hoff, f_bump_same _ _ i 1 hx, f_of_receipted hbefore hoff]
  · exact (rcvCum_of_receipted hafter c).trans (rcvCum_of_receipted hbefore c)
  · exact (held_of_receipted hafter c).trans (held_of_receipted hbefore c)
  · exact (state_of_receipted hafter c).trans (state_of_receipted hbefore c)

/-- A segment that a counter answers, with a receipt where one is due. -/
theorem counted_receipted (c : Nat) {x : Fld} {i : Nat} (hoff : OffLoans (x.key i)) (hx : x.lo + x.w ≤ 64) :
    (((arrivedOn d c).bump x i).receiptCheck c).f x i = min (d.f x i + 1) (2 ^ x.w - 1) ∧
    ((((arrivedOn d c).bump x i).receiptCheck c).ctx c).rcvCum = (d.ctx c).rcvCum ∧
    ((((arrivedOn d c).bump x i).receiptCheck c).ctx c).held = (d.ctx c).held := by
  obtain ⟨hcnt, hcum, hheld, -⟩ := counted_of_receipted (d := d) c receipted_arrivedOn (.receiptCheck .refl) hoff hx
  exact ⟨hcnt, hcum, hheld⟩

theorem home_lt {w : Nat} (h : d.wingEnabled w = true) : w < 4 := by
  unfold Dev.wingEnabled Dev.wingPresent at h
  simp only [Bool.and_eq_true, decide_eq_true_eq] at h
  exact h.1.2

/-! ### A tag that fails -/

theorem wipeLoan_wipes (hbufs : (d.ctx c).rxBufs ≠ []) : ∃ b ∈ (d.ctx c).rxBufs, d.wipeLoan c m =
    (d.usedFree, memWrite m (d.bufKey (d.ctx c).rxPool b) (zeros (d.f R.BPM_POOL_CFG.SIZE (d.ctx c).rxPool * 64))) := by
  have hlt : Config.freePick d.freeCtr 0 % (d.ctx c).rxBufs.length < (d.ctx c).rxBufs.length :=
    Nat.mod_lt _ (List.length_pos_iff.2 hbufs)
  refine ⟨_, List.getElem_mem hlt, ?_⟩
  unfold Dev.wipeLoan
  dsimp only
  rw [List.getElem?_eq_getElem hlt]

/-- With fewer than two others within 1 s the segment is asked for again. -/
theorem tagFail_asks (hfew : ((d.ctx c).authFails.filter (fun a => decide (d.now ≤ a + 10 ^ 9))).length < 2) :
    ∃ l, d.tagFail c seq = ((d.bump R.VT_CNT.AUTH_FAIL 0).onCtx c (fun x => { x with authFails := l })).sendReceipt c 1 seq := by
  have hrecent : ¬ 3 ≤ (((d.ctx c).authFails ++ [d.now]).filter (fun a => decide (d.now ≤ a + 10 ^ 9))).length := by
    have hone := List.length_filter_le (fun a => decide (d.now ≤ a + 10 ^ 9)) [d.now]
    rw [List.length_singleton] at hone
    rw [List.filter_append, List.length_append]
    omega
  exact ⟨_, if_neg hrecent⟩

/-! ### SEGMENT_RECEIVE -/

theorem segmentReceive_phase {m : Fin 128} (hen : s.dev.f R.STREAM_CTL.ENABLE = 1) (hcep : s.dev.cepOk g.cep = false) :
    Completes (.segmentReceive m g race ok) s (fun t =>
      t.dev.f R.CAT_ERR.CEP_STALE = min (s.dev.f R.CAT_ERR.CEP_STALE + 1) (2 ^ R.CAT_ERR.CEP_STALE.w - 1) ∧
      SameMem s t ∧ SameUnits s t ∧ SameWords s t [R.CAT_ERR.CEP_STALE.key 0]) := by
  refine ⟨_, rfl, ?_⟩
  dsimp only [State.onBoth]
  rw [segmentIn_phase hen hcep]
  exact ⟨f_bump_same _ _ 0 1 (by decide), fun _ => rfl, rfl, fun k hk => word_bump_other _ _ 0 1 (by simpa using hk)⟩

theorem segmentReceive_stale {m : Fin 128} (hen : s.dev.f R.STREAM_CTL.ENABLE = 1) (hcep : s.dev.cepOk g.cep = true)
    (hstale : ((s.dev.ctx g.dst.toNat).state ≠ .opened ∧ (s.dev.ctx g.dst.toNat).state ≠ .draining) ∨ (s.dev.ctx g.dst.toNat).gen ≠ g.gen.toNat) :
    Completes (.segmentReceive m g race ok) s (fun t =>
      let w := if (s.dev.ctx g.dst.toNat).state = .closed then m.val / 32 else (s.dev.ctx g.dst.toNat).home
      t.dev.f R.STREAM_STAT_STALE.STALE w = min (s.dev.f R.STREAM_STAT_STALE.STALE w + 1) (2 ^ 64 - 1) ∧
      SameMem s t ∧ SameUnits s t ∧ SameWords s t [R.STREAM_STAT_STALE.STALE.key w]) := by
  have hwing : (if (s.dev.ctx g.dst.toNat).state = .closed then m.val / 32 else (s.dev.ctx g.dst.toNat).home) =
      if (s.dev.ctx g.dst.toNat).isClosed then carrierWing m else (s.dev.ctx g.dst.toNat).home :=
    if_congr (by simp [Ctx.isClosed]) rfl rfl
  refine ⟨_, rfl, ?_⟩
  dsimp only [State.onBoth]
  rw [segmentIn_stale hen hcep hstale, hwing]
  exact ⟨f_bump_same _ _ _ 1 (by decide), fun _ => rfl, rfl, fun k hk => word_bump_other _ _ _ 1 (by simpa using hk)⟩

theorem segmentReceive_fenced {m : Fin 128} (hcep : s.dev.cepOk g.cep = true)
    (hopen : (s.dev.ctx g.dst.toNat).state = .opened ∨ (s.dev.ctx g.dst.toNat).state = .draining)
    (hgen : (s.dev.ctx g.dst.toNat).gen = g.gen.toNat) (hwing : s.dev.wingEnabled (s.dev.ctx g.dst.toNat).home = false) :
    Completes (.segmentReceive m g race ok) s (fun t => t = s) := by
  refine ⟨_, rfl, ?_⟩
  dsimp only [State.onBoth]
  rw [segmentIn_fenced hcep hopen hgen hwing]

theorem segmentReceive_dup {m : Fin 128} (hmeets : Meets s.dev g)
    (hdup : wholeSeq (s.dev.ctx g.dst.toNat).rcvCum g.seq.toNat < ((s.dev.ctx g.dst.toNat).rcvCum : Int) ∨
        (∃ seq : Nat, wholeSeq (s.dev.ctx g.dst.toNat).rcvCum g.seq.toNat = (seq : Int) ∧
          (seq ∈ (s.dev.ctx g.dst.toNat).rcvd ∨ (s.dev.ctx g.dst.toNat).held.any (fun h => h.seq == seq) = true))) :
    Completes (.segmentReceive m g race ok) s (fun t =>
      t.dev.f R.STREAM_STAT_DUP.DUP (s.dev.ctx g.dst.toNat).home = min (s.dev.f R.STREAM_STAT_DUP.DUP (s.dev.ctx g.dst.toNat).home + 1) (2 ^ 64 - 1) ∧
      (t.dev.ctx g.dst.toNat).rcvCum = (s.dev.ctx g.dst.toNat).rcvCum ∧ (t.dev.ctx g.dst.toNat).held = (s.dev.ctx g.dst.toNat).held ∧ SameMem s t) := by
  have hseen : wholeSeq (s.dev.ctx g.dst.toNat).rcvCum g.seq.toNat < ((s.dev.ctx g.dst.toNat).rcvCum : Int) ∨
      (s.dev.ctx g.dst.toNat).rcvd.contains (wholeSeq (s.dev.ctx g.dst.toNat).rcvCum g.seq.toNat).toNat ∨
      (s.dev.ctx g.dst.toNat).held.any (fun h => h.seq == (wholeSeq (s.dev.ctx g.dst.toNat).rcvCum g.seq.toNat).toNat) := by
    rcases hdup with hlow | ⟨seq, hseq, hmem⟩
    · exact .inl hlow
    · rw [hseq, Int.toNat_natCast]
      exact .inr (hmem.imp_left List.contains_iff_mem.2)
  have hhome := home_lt hmeets.wing
  refine ⟨_, rfl, ?_⟩
  dsimp only [State.onBoth]
  rw [segmentIn_dup hmeets hseen]
  obtain ⟨hcnt, hcum, hheld⟩ := counted_receipted (d := s.dev) g.dst.toNat (x := R.STREAM_STAT_DUP.DUP) (i := (s.dev.ctx g.dst.toNat).home)
    (.inl (show 0x700100 + 0x40 * (s.dev.ctx g.dst.toNat).home < 0x702110 by omega)) (by decide)
  exact ⟨hcnt, hcum, hheld, fun _ => rfl⟩

theorem segmentReceive_outWin {m : Fin 128} (hmeets : Meets s.dev g) (hseq : wholeSeq (s.dev.ctx g.dst.toNat).rcvCum g.seq.toNat = (seq : Int))
    (hnew : ¬ ((seq : Int) < ((s.dev.ctx g.dst.toNat).rcvCum : Int) ∨ (s.dev.ctx g.dst.toNat).rcvd.contains seq ∨
      (s.dev.ctx g.dst.toNat).held.any (fun h => h.seq == seq)))
    (hout : (s.dev.ctx g.dst.toNat).rcvCum + 2 ^ 20 ≤ seq ∨ (s.dev.ctx g.dst.toNat).granted ≤ seq) :
    Completes (.segmentReceive m g race ok) s (fun t =>
      t.dev.f R.STREAM_STAT_OUT_WIN.OUT_WIN (s.dev.ctx g.dst.toNat).home =
        min (s.dev.f R.STREAM_STAT_OUT_WIN.OUT_WIN (s.dev.ctx g.dst.toNat).home + 1) (2 ^ 64 - 1) ∧
      (t.dev.ctx g.dst.toNat).rcvCum = (s.dev.ctx g.dst.toNat).rcvCum ∧ (t.dev.ctx g.dst.toNat).held = (s.dev.ctx g.dst.toNat).held ∧ SameMem s t) := by
  have hhome := home_lt hmeets.wing
  refine ⟨_, rfl, ?_⟩
  dsimp only [State.onBoth]
  rw [segmentIn_outWin hmeets hseq hnew hout]
  obtain ⟨hcnt, hcum, hheld⟩ := counted_receipted (d := s.dev) g.dst.toNat (x := R.STREAM_STAT_OUT_WIN.OUT_WIN) (i := (s.dev.ctx g.dst.toNat).home)
    (.inl (show 0x700110 + 0x40 * (s.dev.ctx g.dst.toNat).home < 0x702110 by omega)) (by decide)
  exact ⟨hcnt, hcum, hheld, fun _ => rfl⟩

section
variable (h : InWindow s g seq)
include h

theorem meets_of_inWindow : Meets s.dev g := by
  obtain ⟨hen, hcep, hopen, hgen, -, -, -, -, -, -, hwing⟩ := h
  exact ⟨hen, hcep, hopen, hgen, hwing⟩

theorem new_of_inWindow : ¬ ((seq : Int) < ((s.dev.ctx g.dst.toNat).rcvCum : Int) ∨ (s.dev.ctx g.dst.toNat).rcvd.contains seq ∨
    (s.dev.ctx g.dst.toNat).held.any (fun h => h.seq == seq)) := by
  obtain ⟨-, -, -, -, -, hcum, hrcvd, hheld, -, -, -⟩ := h
  rintro (hlow | hmem | hmem)
  · omega
  · exact hrcvd (List.contains_iff_mem.1 hmem)
  · exact absurd (hheld.symm.trans hmem) (by decide)

theorem granted_of_inWindow : ¬ ((s.dev.ctx g.dst.toNat).rcvCum + 2 ^ 20 ≤ seq ∨ (s.dev.ctx g.dst.toNat).granted ≤ seq) := by
  obtain ⟨-, -, -, -, -, -, -, -, hwin, hgrant, -⟩ := h
  omega

theorem seq_of_inWindow : wholeSeq (s.dev.ctx g.dst.toNat).rcvCum g.seq.toNat = (seq : Int) := by
  obtain ⟨-, -, -, -, hseq, -⟩ := h
  exact hseq

theorem segmentReceive_keyless {m : Fin 128} (hkey : ∀ k, openHalf s g = some k → k.epoch ≠ epochOf seq ∨ k.wrap ≠ none) :
    Completes (.segmentReceive m g race ok) s (fun t => t.dev.f R.VT_CNT.NOKEY = min (s.dev.f R.VT_CNT.NOKEY + 1) (2 ^ R.VT_CNT.NOKEY.w - 1) ∧
      (t.dev.ctx g.dst.toNat).rcvCum = (s.dev.ctx g.dst.toNat).rcvCum ∧ (t.dev.ctx g.dst.toNat).held = (s.dev.ctx g.dst.toNat).held ∧ SameMem s t) := by
  refine ⟨_, rfl, ?_⟩
  dsimp only [State.onBoth]
  rw [segmentIn_keyless (meets_of_inWindow h) (seq_of_inWindow h) (new_of_inWindow h) (granted_of_inWindow h) hkey]
  obtain ⟨hcnt, hcum, hheld⟩ := counted_receipted (d := s.dev) g.dst.toNat (x := R.VT_CNT.NOKEY) (i := 0) (by decide) (by decide)
  exact ⟨hcnt, hcum, hheld, fun _ => rfl⟩

theorem segmentReceive_badTag {m : Fin 128} (hkey : openHalf s g = some k) (hepoch : k.epoch = epochOf seq) (hwrap : k.wrap = none)
    (hbufs : (s.dev.ctx g.dst.toNat).rxBufs ≠ [])
    (hfew : ((s.dev.ctx g.dst.toNat).authFails.filter (fun a => decide (s.dev.now ≤ a + 10 ^ 9))).length < 2) :
    Completes (.segmentReceive m g race false) s (fun t =>
      let x := s.dev.ctx g.dst.toNat
      t.dev.f R.VT_CNT.AUTH_FAIL = min (s.dev.f R.VT_CNT.AUTH_FAIL + 1) (2 ^ R.VT_CNT.AUTH_FAIL.w - 1) ∧
      (t.dev.ctx g.dst.toNat).rcvCum = x.rcvCum ∧ (t.dev.ctx g.dst.toNat).held = x.held ∧ (t.dev.ctx g.dst.toNat).state = x.state ∧
      ∃ b ∈ x.rxBufs, memRead t.mem (s.dev.bufKey x.rxPool b) (s.dev.f R.BPM_POOL_CFG.SIZE x.rxPool * 64) =
          zeros (s.dev.f R.BPM_POOL_CFG.SIZE x.rxPool * 64) ∧
        SameMemBut s t (s.dev.bufKey x.rxPool b) (s.dev.f R.BPM_POOL_CFG.SIZE x.rxPool * 64)) := by
  obtain ⟨b, hb, hwipe⟩ := wipeLoan_wipes (d := arrivedOn s.dev g.dst.toNat) (c := g.dst.toNat) (m := s.mem) (by rw [ctx_arrivedOn]; exact hbufs)
  obtain ⟨l, hfail⟩ := tagFail_asks (d := (arrivedOn s.dev g.dst.toNat).usedFree) (c := g.dst.toNat) (seq := seq) (by
    change (((arrivedOn s.dev g.dst.toNat).ctx g.dst.toNat).authFails.filter _).length < 2
    rw [ctx_arrivedOn]
    exact hfew)
  rw [ctx_arrivedOn] at hb hwipe
  obtain ⟨key, n, hkeyEq, hn⟩ : ∃ key n, key = s.dev.bufKey (s.dev.ctx g.dst.toNat).rxPool b ∧
      n = s.dev.f R.BPM_POOL_CFG.SIZE (s.dev.ctx g.dst.toNat).rxPool * 64 :=
    ⟨_, _, rfl, rfl⟩
  replace hwipe : (arrivedOn s.dev g.dst.toNat).wipeLoan g.dst.toNat s.mem = ((arrivedOn s.dev g.dst.toNat).usedFree, memWrite s.mem key (zeros n)) := by
    rw [hkeyEq, hn]
    exact hwipe
  have hbase : Receipted s.dev (arrivedOn s.dev g.dst.toNat).usedFree := receipted_arrivedOn.upd rfl rfl rfl rfl
  have hrcpt : Receipted ((arrivedOn s.dev g.dst.toNat).usedFree.bump R.VT_CNT.AUTH_FAIL 0)
      (((arrivedOn s.dev g.dst.toNat).usedFree.tagFail g.dst.toNat seq).receiptCheck g.dst.toNat) := by
    rw [hfail]
    exact .receiptCheck (.sendReceipt (.onCtx .refl (fun _ => rfl)))
  obtain ⟨hcnt, hcum, hheld, hstate⟩ := counted_of_receipted g.dst.toNat hbase hrcpt (by decide) (by decide)
  have hlen : (zeros n).length = n := List.length_replicate
  have hin : segmentIn m g race false s.dev s.mem =
      (((arrivedOn s.dev g.dst.toNat).usedFree.tagFail g.dst.toNat seq).receiptCheck g.dst.toNat, memWrite s.mem key (zeros n)) := by
    rw [segmentIn_badTag (meets_of_inWindow h) (seq_of_inWindow h) (new_of_inWindow h) (granted_of_inWindow h) hkey hepoch hwrap, hwipe]
  clear hfail hrcpt
  refine ⟨_, rfl, ?_⟩
  dsimp only [State.onBoth]
  rw [hin]
  generalize ((arrivedOn s.dev g.dst.toNat).usedFree.tagFail g.dst.toNat seq).receiptCheck g.dst.toNat = e at *
  refine ⟨hcnt, hcum, hheld, hstate, b, hb, ?_⟩
  rw [← hkeyEq, ← hn]
  exact ⟨(congrArg (memRead _ _) hlen.symm).trans (memRead_memWrite _ _ _), fun a ha => memGet_memWrite_outside _ _ _ _ (by rw [hlen]; exact ha)⟩

end

end Sys2Proof.Laws
end

section
/-! SEGMENT_RECEIVE of a segment that passes its tag (R118, R165, R168 step 5): it is held, and a result ends its operation. -/

namespace Sys2Proof.Laws

-- One theorem after another: a thread of its own for each passes the memory that the whole text may take.
set_option Elab.async false

open Sys2Proof Sys2Proof.Machine

variable {d e : Dev} {s : State} {g : Segment} {h : HeldSeg} {o : Op} {k : HalfKey} {car c n i seq : Nat} {m : List Host.Cell}

/-! ### Changes of items -/

/-- d and e differ in items of contexts only, and e has no decoded block waiting where d has none. -/
structure ItemsOnly (d e : Dev) : Prop where
  dev : ∃ l, e = { d with ctxs := l }
  ctx : ∀ j, { e.ctx j with rx := [] } = { d.ctx j with rx := [] }
  calm : NoneReady d → NoneReady e

namespace ItemsOnly

theorem refl : ItemsOnly d d := ⟨⟨_, rfl⟩, fun _ => rfl, id⟩

theorem ops (hd : ItemsOnly d e) : e.ops = d.ops := by
  obtain ⟨l, rfl⟩ := hd.dev
  rfl

theorem segSeen (hd : ItemsOnly d e) : e.segSeen = d.segSeen := by
  obtain ⟨l, rfl⟩ := hd.dev
  rfl

theorem tourMeets (hd : ItemsOnly d e) : e.tourMeets g = d.tourMeets g := by
  obtain ⟨l, rfl⟩ := hd.dev
  rfl

theorem held (hd : ItemsOnly d e) (j : Nat) : (e.ctx j).held = (d.ctx j).held :=
  show ({ e.ctx j with rx := [] } : Ctx).held = ({ d.ctx j with rx := [] } : Ctx).held by rw [hd.ctx j]

theorem rcvCum (hd : ItemsOnly d e) (j : Nat) : (e.ctx j).rcvCum = (d.ctx j).rcvCum :=
  show ({ e.ctx j with rx := [] } : Ctx).rcvCum = ({ d.ctx j with rx := [] } : Ctx).rcvCum by rw [hd.ctx j]

/-- A context whose items change to ones with no decoded block waiting where none waited before. -/
theorem of_rx {l : List RxItem} (hl : NoneReady d → ∀ r ∈ l, r.ready = []) : ItemsOnly d (d.setCtx c { d.ctx c with rx := l }) := by
  refine ⟨⟨_, rfl⟩, fun j => ?_, fun hd => hd.setCtx (hl hd)⟩
  rw [ctx_setCtx]
  split
  · next hj => rw [hj]
  · rfl

theorem trans {f : Dev} (hd : ItemsOnly d e) (he : ItemsOnly e f) : ItemsOnly d f := by
  obtain ⟨l, rfl⟩ := hd.dev
  obtain ⟨l', rfl⟩ := he.dev
  exact ⟨⟨l', rfl⟩, fun j => (he.ctx j).trans (hd.ctx j), fun h => he.calm (hd.calm h)⟩

theorem setItem {r : RxItem} (hr : NoneReady d → r.ready = []) : ItemsOnly d (d.setItem c r) := by
  refine of_rx (fun hd r' hr' => ?_)
  rcases List.mem_append.1 hr' with hold | hnew
  · exact hd.ctx c r' (List.mem_of_mem_filter hold)
  · rw [List.mem_singleton.1 hnew]
    exact hr hd

theorem dropItem {key : ItemKey} : ItemsOnly d (d.dropItem c key) := of_rx (fun hd r hr => hd.ctx c r (List.mem_of_mem_filter hr))

theorem itemOver {key : ItemKey} : ItemsOnly d (d.itemOver c key) := by
  unfold Dev.itemOver
  dsimp only
  split
  · split
    · exact dropItem
    · exact refl
  · exact refl

theorem noteTotal : ItemsOnly d (d.noteTotal c h) := by
  unfold Dev.noteTotal
  split
  · exact setItem (fun hd => hd.item c _)
  · exact refl

end ItemsOnly

/-! ### The other steps leave no decoded block waiting -/

theorem NoneReady.endOp {st dt : Nat} (hd : NoneReady d) : NoneReady (d.endOp n i st dt) := by
  unfold Dev.endOp
  split
  · exact hd
  · split
    · exact hd
    · intro e he
      obtain ⟨e', he', rfl⟩ := List.mem_map.1 he
      exact hd e' he'

theorem NoneReady.okOp (hd : NoneReady d) : NoneReady (d.okOp n i) := by
  unfold Dev.okOp
  split
  · exact hd
  · exact hd.endOp

theorem NoneReady.markReceived (hd : NoneReady d) : NoneReady (d.markReceived c seq) := by
  unfold Dev.markReceived
  extract_lets x old p news y d1
  have h1 : NoneReady d1 := hd.setCtx (hd.ctx c)
  split
  · unfold Dev.enterEpoch Dev.writeEpoch
    split
    · exact h1
    · exact h1
  · exact h1

theorem NoneReady.received (hd : NoneReady d) : NoneReady (d.received c seq) := hd.markReceived.onCtx (fun _ => rfl)

/-! ### A segment is held -/

/-- e is d at the moment a segment that has passed its tag is about to be held: it has its place in the order of arrival. -/
structure TagPassed (d e : Dev) : Prop where
  ops : e.ops = d.ops
  seen : e.segSeen = d.segSeen + 1
  ctx : ∀ j, receivedParts (e.ctx j) = receivedParts (d.ctx j)
  calm : NoneReady d → NoneReady e
  tours : ∀ g, e.tourMeets g = d.tourMeets g

theorem tourMeets_congr (hcolls : e.colls = d.colls) (hdead : e.deadColls = d.deadColls) (hnow : e.now = d.now) (hmean : e.dMean = d.dMean)
    (hcat : e.cat = d.cat) (g : Segment) : e.tourMeets g = d.tourMeets g := by
  have hpeer : e.peerOf = d.peerOf := by funext site; unfold Dev.peerOf; rw [hcat]
  have hdelay : e.delayOf = d.delayOf := by funext p; unfold Dev.delayOf; rw [hmean, hcat]
  have hrtt : e.rttE = d.rttE := by funext site; unfold Dev.rttE; rw [hpeer, hdelay]
  have hlinger : e.collLinger = d.collLinger := by unfold Dev.collLinger Dev.sites; rw [hrtt, hcat]
  have hover : e.collDead (segColl g) = d.collDead (segColl g) := by unfold Dev.collDead Dev.since; rw [hcolls, hdead, hnow, hlinger]
  unfold Dev.tourMeets
  rw [hcolls, hover]

theorem cat_contact (p : Nat) : (d.contact p).cat = d.cat := by
  unfold Dev.cat Dev.catVer
  rw [f_contact (by decide), cats_contact]

/-- A message of a peer starts its lease again and is the next in the order of arrival. -/
theorem tagPassed_contact (p : Nat) : TagPassed d { d.contact p with segSeen := (d.contact p).segSeen + 1 } := by
  have hsame : ∀ {α : Type} (f : Dev → α), f (sansPeers (d.contact p)) = f (sansPeers d) := fun f => congrArg f (sansPeers_contact p)
  have hctxs : (d.contact p).ctxs = d.ctxs := hsame Dev.ctxs
  refine ⟨hsame Dev.ops, congrArg (· + 1) (hsame Dev.segSeen), fun j => ?_, fun hd => ?_, ?_⟩
  · exact congrArg (fun l => receivedParts (tabGet (fun _ => Ctx.empty) l j)) hctxs
  · change ∀ e ∈ (d.contact p).ctxs, _
    rw [hctxs]
    exact hd
  · exact tourMeets_congr (hsame Dev.colls) (hsame Dev.deadColls) (hsame Dev.now) (hsame Dev.dMean) (cat_contact p)

theorem tagPassed_next : TagPassed d { d with segSeen := d.segSeen + 1 } := ⟨rfl, rfl, fun _ => rfl, id, fun _ => rfl⟩

theorem TagPassed.arrivedOn (hp : TagPassed (arrivedOn d c) e) : TagPassed d e := by
  have harr : Receipted d (Laws.arrivedOn d c) := receipted_arrivedOn
  exact ⟨hp.ops.trans harr.ops, hp.seen.trans (congrArg (· + 1) harr.seen), fun j => (hp.ctx j).trans (harr.ctx j), fun hd => hp.calm (harr.calm hd),
    hp.tours⟩

/-- The segment as it is held (R168 step 5): in clear, at its place in the order of arrival. -/
def asHeld (d : Dev) (g : Segment) (k : HalfKey) (seq : Nat) : HeldSeg :=
  ⟨seq, g, slice (Config.gcmOpen k.key (gcmIv false (d.ctx g.dst.toNat).site d.site seq) (segHeader g) g.payload) 0 g.payload.length, false,
    d.segSeen⟩

theorem TagPassed.held (hp : TagPassed d e) (j : Nat) : (e.ctx j).held = (d.ctx j).held := congrArg (fun p => p.2.2.2.1) (hp.ctx j)
theorem TagPassed.rcvCum (hp : TagPassed d e) (j : Nat) : (e.ctx j).rcvCum = (d.ctx j).rcvCum := congrArg (fun p => p.2.1) (hp.ctx j)

theorem segmentIn_holds (hmeets : Meets d g) (hseq : wholeSeq (d.ctx g.dst.toNat).rcvCum g.seq.toNat = (seq : Int))
    (hnew : ¬ ((seq : Int) < ((d.ctx g.dst.toNat).rcvCum : Int) ∨ (d.ctx g.dst.toNat).rcvd.contains seq ∨
      (d.ctx g.dst.toNat).held.any (fun h => h.seq == seq)))
    (hin : ¬ ((d.ctx g.dst.toNat).rcvCum + 2 ^ 20 ≤ seq ∨ (d.ctx g.dst.toNat).granted ≤ seq))
    (hkey : d.half (halfIx (d.ctx g.dst.toNat).pair (b2n g.kph) (1 - d.outHalf (d.ctx g.dst.toNat).site)) = some k)
    (hepoch : k.epoch = epochOf seq) (hwrap : k.wrap = none) :
    ∃ e, TagPassed d e ∧ ∀ p, holdSegment g.dst.toNat (asHeld d g k seq) e m = p → NoneReady p.1 →
      segmentIn car g false true d m = (p.1.receiptCheck g.dst.toNat, p.2) := by
  have hgood : ¬ (k.epoch ≠ epochOf seq ∨ k.wrap ≠ none) := by simp [hepoch, hwrap]
  have hreach : ∃ e, TagPassed d e ∧ segmentIn car g false true d m =
      ((updatesGo (holdSegment g.dst.toNat (asHeld d g k seq) e m).1.readyBlocks (holdSegment g.dst.toNat (asHeld d g k seq) e m).1
          (holdSegment g.dst.toNat (asHeld d g k seq) e m).2).1.receiptCheck g.dst.toNat,
        (updatesGo (holdSegment g.dst.toNat (asHeld d g k seq) e m).1.readyBlocks (holdSegment g.dst.toNat (asHeld d g k seq) e m).1
          (holdSegment g.dst.toNat (asHeld d g k seq) e m).2).2) := by
    unfold segmentIn
    dsimp only
    rw [on_of_f hmeets.enabled, hmeets.phase, hmeets.wing, hseq, Int.toNat_natCast, if_neg (by decide), if_neg (by decide), if_neg hmeets.known,
      if_neg (by decide), if_neg hnew, if_neg hin]
    split
    · next hnone => exact absurd (hnone.symm.trans hkey) (by simp)
    · next k' hk' =>
      obtain rfl : k' = k := Option.some.inj (hk'.symm.trans hkey)
      rw [if_neg hgood, if_neg (by decide)]
      split
      · next p hp =>
        have hseen : ((arrivedOn d g.dst.toNat).contact p).segSeen = d.segSeen :=
          show (sansPeers ((arrivedOn d g.dst.toNat).contact p)).segSeen = (sansPeers (arrivedOn d g.dst.toNat)).segSeen from
            congrArg Dev.segSeen (sansPeers_contact p)
        refine ⟨_, (tagPassed_contact p).arrivedOn (c := g.dst.toNat), ?_⟩
        unfold asHeld
        rw [← hseen]
        rfl
      · exact ⟨_, tagPassed_next.arrivedOn (c := g.dst.toNat), rfl⟩
  obtain ⟨e, he, heq⟩ := hreach
  refine ⟨e, he, fun p hp hcalm => ?_⟩
  rw [heq, hp, updatesGo_calm hcalm]

/-- A block that holds one more segment on context c. -/
def heldOn (d : Dev) (c : Nat) (h : HeldSeg) : Dev := d.onCtx c (fun x => { x with held := x.held ++ [h], lastUse := d.now })

theorem ctx_heldOn : (heldOn d c h).ctx c = { d.ctx c with held := (d.ctx c).held ++ [h], lastUse := d.now } := (ctx_setCtx ..).trans (if_pos rfl)

theorem holdSegment_tour (hrace : h.race = false) (htyp : h.seg.typ = 3) (hmeets : d.tourMeets h.seg = 0) :
    holdSegment c h d m = (((heldOn d c h).noteTotal c h).itemOver c (segKey h.seg), m) := by
  have htours : ((heldOn d c h).noteTotal c h).tourMeets h.seg = 0 := ItemsOnly.noteTotal.tourMeets.trans hmeets
  unfold holdSegment
  dsimp only
  rw [hrace, htyp]
  change ((((heldOn d c h).noteTotal c h).tourSegment c h).itemOver c (segKey h.seg), m) = _
  unfold Dev.tourSegment
  rw [htours]
  rfl

/-- A response that is not a GET's data carries no block bytes (R136). -/
theorem segBlocks_result (htyp : g.typ = 2) (hop : g.opcode ≠ 2) : segBlocks g = false := by
  unfold segBlocks
  rw [htyp, beq_eq_false_iff_ne.2 hop]
  rfl

theorem holdSegment_response (hrace : h.race = false) (htyp : h.seg.typ = 2) (hop : h.seg.opcode ≠ 2) :
    holdSegment c h d m = (((heldOn d c h).respSegment c h).itemOver c (segKey h.seg), m) := by
  have hnote : (heldOn d c h).noteTotal c h = heldOn d c h := if_neg (by rw [segBlocks_result htyp hop]; decide)
  unfold holdSegment
  dsimp only
  rw [hrace, htyp]
  change ((((heldOn d c h).noteTotal c h).respSegment c h).itemOver c (segKey h.seg), m) = _
  rw [hnote]

/-! ### A result ends its operation -/

theorem getOp_of_opOf (ho : d.opOf c n = some o) : ∃ p, d.getOp o.ring o.index = some p := by
  have hmem : o ∈ d.ops := List.mem_of_find?_eq_some ho
  exact Option.isSome_iff_exists.1 (List.find?_isSome.2 ⟨o, hmem, by simp⟩)

theorem getOp_okOp_same (ho : d.getOp n i = some o) : ∃ v, (d.okOp n i).getOp n i = some (opEnded o v) := by
  unfold Dev.okOp
  rw [ho]
  exact ⟨_, getOp_endOp_same ho⟩

theorem opEnded_done {v : Verdict} : (opEnded o v).stage = .done ∧ (opEnded o v).value = o.value := by
  unfold opEnded
  split
  · next hdone => exact ⟨hdone, rfl⟩
  · exact ⟨rfl, rfl⟩

theorem ops_received : (d.received c seq).ops = d.ops := ops_markReceived c seq

theorem respSegment_result (hop : h.seg.opcode ≠ 2) (hst : ofBE (slice h.seg.tail 4 1) = 0) (ho : d.opOf c h.seg.opn.toNat = some o)
    (hcalm : NoneReady d) : NoneReady (d.respSegment c h) ∧ ∃ p, (d.respSegment c h).getOp o.ring o.index = some p ∧ p.stage = .done ∧
      p.value = ofBE (slice h.plain 0 8) := by
  obtain ⟨p, hp⟩ := getOp_of_opOf ho
  have hev := getOp_updOp_same (g := fun o => { o with events := o.events + ofBE (slice h.seg.tail 6 2) }) (by exact fun _ => ⟨rfl, rfl⟩) hp
  have hval := getOp_updOp_same (g := fun o => { o with value := ofBE (slice h.plain 0 8) }) (by exact fun _ => ⟨rfl, rfl⟩) hev
  obtain ⟨v, hok⟩ := getOp_okOp_same hval
  obtain ⟨hdone, hvalue⟩ := opEnded_done (v := v) (o := { p with
    events := p.events + ofBE (slice h.seg.tail 6 2), value := ofBE (slice h.plain 0 8) })
  unfold Dev.respSegment
  dsimp only
  rw [ho]
  dsimp only
  rw [if_neg (not_not.2 hst), if_neg hop]
  refine ⟨NoneReady.received (NoneReady.okOp hcalm), _, (getOp_of_ops ops_received).trans hok, hdone, hvalue⟩

/-! ### SEGMENT_RECEIVE -/

section
variable (hw : InWindow s g seq) (hkey : openHalf s g = some k) (hepoch : k.epoch = epochOf seq) (hwrap : k.wrap = none)
  (hcalm : s.dev.readyBlocks = 0)
include hw hkey hepoch hwrap hcalm

/-- What is left of SEGMENT_RECEIVE once the segment is held, while no decoded block waits. -/
theorem segmentReceive_held (car : Nat) : ∃ e, TagPassed s.dev e ∧ NoneReady e ∧
    ∀ p, holdSegment g.dst.toNat (asHeld s.dev g k seq) e s.mem = p → NoneReady p.1 →
      segmentIn car g false true s.dev s.mem = (p.1.receiptCheck g.dst.toNat, p.2) := by
  obtain ⟨e, he, hin⟩ := segmentIn_holds (car := car) (m := s.mem) (meets_of_inWindow hw) (seq_of_inWindow hw) (new_of_inWindow hw)
    (granted_of_inWindow hw) hkey hepoch hwrap
  exact ⟨e, he, he.calm (readyBlocks_eq_zero.1 hcalm), hin⟩

theorem segmentReceive_tour {m : Fin 128} (htyp : g.typ = 3) (hmeets : s.dev.tourMeets g = 0) :
    Completes (.segmentReceive m g false true) s (fun t =>
      (t.dev.ctx g.dst.toNat).held = (s.dev.ctx g.dst.toNat).held ++ [asHeld s.dev g k seq] ∧ t.dev.segSeen = s.dev.segSeen + 1 ∧
      (t.dev.ctx g.dst.toNat).rcvCum = (s.dev.ctx g.dst.toNat).rcvCum ∧ SameMem s t) := by
  obtain ⟨e, he, hready, hin⟩ := segmentReceive_held hw hkey hepoch hwrap hcalm m
  have hhold := holdSegment_tour (c := g.dst.toNat) (h := asHeld s.dev g k seq) (d := e) (m := s.mem) rfl htyp ((he.tours g).trans hmeets)
  have hitems := (ItemsOnly.noteTotal (d := heldOn e g.dst.toNat (asHeld s.dev g k seq)) (c := g.dst.toNat) (h := asHeld s.dev g k seq)).trans
    (ItemsOnly.itemOver (c := g.dst.toNat) (key := segKey (asHeld s.dev g k seq).seg))
  have hrun := hin _ hhold (hitems.calm (NoneReady.onCtx hready (fun _ => rfl)))
  refine ⟨_, rfl, ?_⟩
  dsimp only [State.onBoth]
  rw [hrun]
  clear hrun hhold
  dsimp only
  generalize ((heldOn e g.dst.toNat (asHeld s.dev g k seq)).noteTotal g.dst.toNat (asHeld s.dev g k seq)).itemOver g.dst.toNat
    (segKey (asHeld s.dev g k seq).seg) = f at *
  have hrcpt : Receipted f (f.receiptCheck g.dst.toNat) := .receiptCheck .refl
  refine ⟨?_, ?_, ?_, fun _ => rfl⟩
  · rw [held_of_receipted hrcpt, hitems.held, ctx_heldOn, ← he.held]
  · exact hrcpt.seen.trans (hitems.segSeen.trans he.seen)
  · rw [rcvCum_of_receipted hrcpt, hitems.rcvCum, ctx_heldOn, ← he.rcvCum]

theorem segmentReceive_result {m : Fin 128} (htyp : g.typ = 2) (hop : g.opcode ≠ 2) (hst : ofBE (slice g.tail 4 1) = 0)
    (ho : s.dev.opOf g.dst.toNat g.opn.toNat = some o) :
    Completes (.segmentReceive m g false true) s (fun t => ∃ p, t.dev.getOp o.ring o.index = some p ∧ (p.stage = .done ∧
      p.value = ofBE (slice (asHeld s.dev g k seq).plain 0 8)) ∧ SameMem s t) := by
  obtain ⟨e, he, hready, hin⟩ := segmentReceive_held hw hkey hepoch hwrap hcalm m
  have hhold := holdSegment_response (c := g.dst.toNat) (h := asHeld s.dev g k seq) (d := e) (m := s.mem) rfl htyp hop
  have ho' : (heldOn e g.dst.toNat (asHeld s.dev g k seq)).opOf g.dst.toNat g.opn.toNat = some o := by
    rw [← ho]
    exact congrArg (List.find? _) he.ops
  obtain ⟨hresp, p, hget, hdone, hvalue⟩ := respSegment_result (h := asHeld s.dev g k seq) hop hst ho' (NoneReady.onCtx hready (fun _ => rfl))
  have hitems : ItemsOnly _ (((heldOn e g.dst.toNat (asHeld s.dev g k seq)).respSegment g.dst.toNat (asHeld s.dev g k seq)).itemOver g.dst.toNat
    (segKey g)) := .itemOver
  have hrun := hin _ hhold (hitems.calm hresp)
  refine ⟨_, rfl, ?_⟩
  dsimp only [State.onBoth]
  rw [hrun]
  exact ⟨p, (getOp_of_ops ((Receipted.receiptCheck .refl).ops.trans hitems.ops)).trans hget, ⟨hdone, hvalue⟩, fun _ => rfl⟩
end

end Sys2Proof.Laws
end

section
/-! BLOCK_DECODE of a block that one held segment holds whole (R136, R137): up to its CRC, and what follows when it fails. -/

namespace Sys2Proof.Laws

-- One theorem after another: a thread of its own for each passes the memory that the whole text may take.
set_option Elab.async false

open Sys2Proof Sys2Proof.Machine

variable {d e : Dev} {s : State} {g : Segment} {h : HeldSeg} {r : RxItem} {o : Op} {us : List Nat} {c n i seq : Nat} {m : List Host.Cell}

/-! ### Bytes of a segment -/

theorem slice_length (l : List Byte) (a n : Nat) : (slice l a n).length = n := by
  unfold slice
  dsimp only
  rw [List.length_append, List.length_replicate]
  have := List.length_take_le n (l.drop a)
  omega

theorem getElem_slice {l : List Byte} {a n i : Nat} (hi : i < n) : (slice l a n)[i]'(by rw [slice_length]; exact hi) = l.getD (a + i) 0 := by
  unfold slice
  dsimp only
  rw [List.getElem_append]
  split
  · next hin =>
    rw [List.length_take, List.length_drop] at hin
    rw [List.getElem_take, List.getElem_drop, List.getD_eq_getElem _ _ (by omega)]
  · next hout =>
    rw [List.length_take, List.length_drop] at hout
    rw [List.getElem_replicate, List.getD_eq_default _ _ (by omega)]

theorem slice_slice {l : List Byte} {n a k : Nat} (hk : a + k ≤ n) : slice (slice l 0 n) a k = slice l a k := by
  refine List.ext_getElem (by rw [slice_length, slice_length]) (fun i hi _ => ?_)
  rw [slice_length] at hi
  rw [getElem_slice hi, getElem_slice hi, List.getD_eq_getElem _ _ (by rw [slice_length]; omega), getElem_slice (by omega), Nat.zero_add]

theorem slice_whole (l : List Byte) : slice l 0 l.length = l := by
  unfold slice
  simp

/-- A header is its first 16 bytes. -/
theorem blkHead_slice (l : List Byte) : blkHead (slice l 0 16) = blkHead l := by
  unfold blkHead
  dsimp only
  simp only [slice_slice (n := 16) (by decide : 0 + 1 ≤ 16), slice_slice (n := 16) (by decide : 1 + 2 ≤ 16), slice_slice (n := 16) (by decide : 3 + 2 ≤ 16),
    slice_slice (n := 16) (by decide : 5 + 2 ≤ 16), slice_slice (n := 16) (by decide : 7 + 2 ≤ 16), slice_slice (n := 16) (by decide : 9 + 2 ≤ 16),
    slice_slice (n := 16) (by decide : 11 + 2 ≤ 16), slice_slice (n := 16) (by decide : 13 + 3 ≤ 16)]

theorem segStart_first (hidx : g.segidx = 0) : segStart g = 0 := by
  unfold segStart
  rw [hidx]
  rfl

theorem segKey_response (htyp : g.typ = 2) : segKey g = ⟨2, 0, g.opn.toNat, 0, 0, 0⟩ := by
  unfold segKey
  rw [htyp]
  rfl

theorem heldBytes_first (hidx : h.seg.segidx = 0) (hpos : 0 < n) (hn : n ≤ h.plain.length) : heldBytes [h] 0 n = some (slice h.plain 0 n) := by
  obtain ⟨n, rfl⟩ := Nat.exists_eq_succ_of_ne_zero (Nat.pos_iff_ne_zero.1 hpos)
  have hstart := segStart_first hidx
  have hfind : [h].find? (fun h => decide (segStart h.seg ≤ 0) && decide (0 < segStart h.seg + h.plain.length)) = some h :=
    List.find?_cons_of_pos (by simp [hstart]; omega)
  have hmin : min (n + 1) (0 + h.plain.length - 0) = n + 1 := by omega
  unfold heldBytes
  rw [List.length_singleton]
  unfold heldRun
  rw [hfind]
  dsimp only
  rw [hstart, hmin, slice_length, Nat.sub_self, Nat.sub_self]
  unfold heldRun
  simp

/-! ### Up to the CRC -/

section
variable (hheld : (d.ctx c).held = [h]) (hidx : h.seg.segidx = 0) (htyp : h.seg.typ = 2) (hop : (d.opOf c h.seg.opn.toNat).isSome = true)
  (hitem : (d.ctx c).item (segKey h.seg) = r) (hdead : r.dead = false) (hdone : r.done = []) (htotal : ∀ t, r.total = some t → t = h.plain.length)
  (hsize : (blkHead h.plain).size = h.plain.length)
include hheld hidx htyp hop hitem hdead hdone htotal hsize

/-- The block of a response whose operation runs, all in the one segment held: its CRC decides. -/
theorem blockDecode_one (faults : List BeatFault) : blockDecode c (segKey h.seg) 0 faults d m =
    if blockCrcOk h.plain then
      decodeBlock c (segKey h.seg) 0xF 0 h.seg.poison (blkHead h.plain) h.plain faults (d.crcPassed c (segKey h.seg) 0 h.plain.length) m
    else (d.crcFail c (segKey h.seg) 0 h.plain.length, m) := by
  have hlen : 20 ≤ h.plain.length := by rw [← hsize]; unfold BlkHead.size; omega
  have hmine : (d.ctx c).held.filter (fun h' => segKey h'.seg == segKey h.seg) = [h] := by rw [hheld]; simp
  have hkind : (segKey h.seg).kind = 2 := by rw [segKey_response htyp]
  have hn : (segKey h.seg).n = h.seg.opn.toNat := by rw [segKey_response htyp]
  have hgone : d.itemGone c (segKey h.seg) h.seg = false := by
    unfold Dev.itemGone
    rw [hitem, hdead, hkind, hn, Option.isNone_eq_false_iff.2 hop]
    rfl
  have hmay : d.mayDecode (segKey h.seg) = true := by
    unfold Dev.mayDecode
    rw [hkind]
    rfl
  have hfmt : d.itemFmt (segKey h.seg) h.seg = 0xF := by
    unfold Dev.itemFmt
    rw [hkind]
    rfl
  have hhead := heldBytes_first hidx (by omega : 0 < 16) (by omega : 16 ≤ h.plain.length)
  have hall := heldBytes_first hidx (by omega) (Nat.le_refl h.plain.length)
  rw [slice_whole] at hall
  unfold blockDecode
  dsimp only
  rw [hmine, hitem]
  dsimp only
  rw [hgone, hdone, hmay, hhead]
  dsimp only
  rw [blkHead_slice, hsize]
  rw [if_neg (by decide), if_neg (by simp [blockStarts])]
  have hmin : ∀ t, r.total = some t → min h.plain.length (t - 0) = h.plain.length := fun t ht => by rw [htotal t ht]; simp
  have hcrc : ∀ {a b : Dev × List Host.Cell}, (if h.plain.length < h.plain.length ∨ (!blockCrcOk h.plain) = true then a else b) =
      if blockCrcOk h.plain = true then b else a := by
    intro a b
    cases blockCrcOk h.plain <;> simp
  rcases htot : r.total with _ | t
  · dsimp only
    rw [hall]
    dsimp only
    rw [hcrc, if_neg (by decide : ¬ (!true) = true), hfmt]
  · dsimp only
    simp only [hmin t htot]
    rw [hall]
    dsimp only
    rw [hcrc, if_neg (by decide : ¬ (!true) = true), hfmt]
end

/-! ### A CRC that fails (R137) -/

/-- What a first failure of a block's CRC leaves of a block: the failure noted, its one segment released. -/
def crcDropped (d : Dev) (c : Nat) (h : HeldSeg) : Dev :=
  ((d.set R.CODEC_ERR.CRC 0 1).setItem c { (d.ctx c).item (segKey h.seg) with fails := [0] }).onCtx c
    (fun x => { x with held := x.held.filter (fun h' => !([h].any (fun g => g.seq == h'.seq))) })

theorem crcFail_first (hheld : (d.ctx c).held = [h]) (hidx : h.seg.segidx = 0) (hlen : 0 < h.plain.length)
    (hfails : ((d.ctx c).item (segKey h.seg)).fails = []) :
    d.crcFail c (segKey h.seg) 0 h.plain.length = (crcDropped d c h).sendReceipt c 2 h.seq := by
  have hmine : (d.ctx c).held.filter (fun h' => segKey h'.seg == segKey h.seg && decide (segStart h'.seg < 0 + h.plain.length) &&
      decide (0 < segStart h'.seg + h'.plain.length)) = [h] := by
    rw [hheld]
    simp [segStart_first hidx, hlen]
  unfold Dev.crcFail
  dsimp only
  rw [hfails, hmine, if_neg (by decide), List.nil_append, List.foldl_cons, List.foldl_nil]
  unfold crcDropped
  with_reducible rfl

theorem ctx_onCtx_same {f : Ctx → Ctx} : (d.onCtx c f).ctx c = f (d.ctx c) := (ctx_setCtx ..).trans (if_pos rfl)

theorem ctx_setItem : (d.setItem c r).ctx c = { d.ctx c with rx := (d.ctx c).rx.filter (fun y => y.key != r.key) ++ [r] } := ctx_onCtx_same

theorem ctx_crcDropped (hheld : (d.ctx c).held = [h]) (hrx : (d.ctx c).rx = []) :
    ((crcDropped d c h).ctx c).held = [] ∧ ((crcDropped d c h).ctx c).rcvCum = (d.ctx c).rcvCum ∧
    ((crcDropped d c h).ctx c).rx = [{ (d.ctx c).item (segKey h.seg) with fails := [0] }] := by
  have hset : (d.set R.CODEC_ERR.CRC 0 1).ctx c = d.ctx c := rfl
  unfold crcDropped
  rw [ctx_onCtx_same, ctx_setItem, hset]
  dsimp only
  rw [hrx, hheld]
  exact ⟨by simp, rfl, rfl⟩

theorem noneReady_crcDropped (hd : NoneReady d) : NoneReady (crcDropped d c h) := by
  have hset : NoneReady (d.set R.CODEC_ERR.CRC 0 1) := hd
  unfold crcDropped
  exact NoneReady.onCtx (ItemsOnly.calm (.setItem (fun _ => hd.item c _)) hset) (fun _ => rfl)

theorem f_crcDropped : (crcDropped d c h).f R.CODEC_ERR.CRC = 1 := by
  have hword : (crcDropped d c h).word (R.CODEC_ERR.CRC.key 0) = (d.set R.CODEC_ERR.CRC 0 1).word (R.CODEC_ERR.CRC.key 0) := by
    unfold crcDropped Dev.setItem Dev.onCtx
    rw [word_setCtx, word_setCtx]
  exact (f_of_word hword).trans (f_set_same d R.CODEC_ERR.CRC 0 1 (by decide))

theorem item_of_rx {x : Ctx} (hrx : x.rx = [r]) : x.item r.key = r := by
  unfold Ctx.item
  rw [hrx, List.find?_cons_of_pos (by simp)]
  rfl

theorem item_of_no_rx {x : Ctx} {key : ItemKey} (hrx : x.rx = []) : (x.item key).key = key ∧ (x.item key).fails = [] ∧ (x.item key).done = [] ∧
    (x.item key).dead = false ∧ (x.item key).total = none := by
  unfold Ctx.item
  rw [hrx]
  exact ⟨rfl, rfl, rfl, rfl, rfl⟩

/-- What is left of BLOCK_DECODE on an open context once the block is dealt with, while no decoded block waits. -/
theorem exec_blockDecode {c : Fin 32768} {key : ItemKey} {off : Nat} {faults : List BeatFault}
    (hopen : (s.dev.ctx c).state = .opened) (hp : blockDecode c key off faults s.dev s.mem = (e, m)) (hready : NoneReady e) :
    exec (.blockDecode c key off faults) s = .next { s with dev := e.receiptCheck c, mem := m } := by
  change execBlockDecode c key off faults s = _
  unfold execBlockDecode State.onBoth
  dsimp only
  rw [if_neg (by rw [hopen]; exact fun hn => hn.1 rfl), hp, updatesGo_calm hready]

theorem blockDecode_crc {c : Fin 32768} (hopen : (s.dev.ctx c).state = .opened) (hheld : (s.dev.ctx c).held = [h]) (hrx : (s.dev.ctx c).rx = [])
    (hidx : h.seg.segidx = 0) (htyp : h.seg.typ = 2) (hop : (s.dev.opOf c h.seg.opn.toNat).isSome = true)
    (hsize : (heldBytes [h] 0 16).all (fun b => decide ((blkHead b).size = h.plain.length)) = true) (hlen : 20 ≤ h.plain.length)
    (hcrc : blockCrcOk h.plain = false) (hcalm : s.dev.readyBlocks = 0) :
    Completes (.blockDecode c (segKey h.seg) 0 []) s (fun t => t.dev.f R.CODEC_ERR.CRC = 1 ∧ (t.dev.ctx c).held = [] ∧
      (t.dev.ctx c).rcvCum = (s.dev.ctx c).rcvCum ∧ ((t.dev.ctx c).item (segKey h.seg)).fails = [0] ∧ SameMem s t) := by
  obtain ⟨hkey, hfails, hdone, hdead, htotal⟩ := item_of_no_rx (key := segKey h.seg) hrx
  rw [heldBytes_first hidx (by omega) (by omega), Option.all_some, decide_eq_true_eq, blkHead_slice] at hsize
  have hdec : blockDecode c (segKey h.seg) 0 [] s.dev s.mem = ((crcDropped s.dev c h).sendReceipt c 2 h.seq, s.mem) := by
    rw [blockDecode_one hheld hidx htyp hop rfl hdead hdone (by rw [htotal]; simp) hsize, hcrc, if_neg (by decide),
      crcFail_first hheld hidx (by omega) hfails]
  have hrcpt : Receipted (crcDropped s.dev c h) ((crcDropped s.dev c h).sendReceipt c 2 h.seq) := .sendReceipt .refl
  have hend : Receipted (crcDropped s.dev c h) (((crcDropped s.dev c h).sendReceipt c 2 h.seq).receiptCheck c) := hrcpt.receiptCheck
  obtain ⟨hno, hcum, hitem⟩ := ctx_crcDropped hheld hrx
  have hready : NoneReady ((crcDropped s.dev c h).sendReceipt c 2 h.seq) := hrcpt.calm (noneReady_crcDropped (readyBlocks_eq_zero.1 hcalm))
  have hexec := exec_blockDecode hopen hdec hready
  generalize ((crcDropped s.dev c h).sendReceipt c 2 h.seq).receiptCheck c = e at hend hexec
  refine ⟨_, hexec, ?_, ?_, ?_, ?_, fun _ => rfl⟩
  · exact (f_of_receipted hend (by decide)).trans f_crcDropped
  · exact (held_of_receipted hend c).trans hno
  · exact (rcvCum_of_receipted hend c).trans hcum
  · have hfound := item_of_rx ((rx_of_receipted hend c).trans hitem)
    rw [show ({ (s.dev.ctx c).item (segKey h.seg) with fails := [0] } : RxItem).key = segKey h.seg from hkey] at hfound
    exact congrArg RxItem.fails hfound

end Sys2Proof.Laws
end

section
/-! BLOCK_DECODE of a GET's data (R32, R135, R137): the block passes, its units reach the requester's window, its segment leaves its buffer. -/

namespace Sys2Proof.Laws

-- One theorem after another: a thread of its own for each passes the memory that the whole text may take.
set_option Elab.async false

open Sys2Proof Sys2Proof.Machine

variable {d e : Dev} {s : State} {g : Segment} {h : HeldSeg} {r : RxItem} {o : Op} {us : List Nat} {c n i seq : Nat} {m : List Host.Cell}

/-! ### No decoded block waits but on one context -/

/-- With a context there that has no decoded block waiting, none would wait anywhere. -/
def ReadyOnlyOn (c : Nat) (d : Dev) : Prop := ∀ x : Ctx, (∀ r ∈ x.rx, r.ready = []) → NoneReady (d.setCtx c x)

theorem NoneReady.readyOnlyOn (hd : NoneReady d) : ReadyOnlyOn c d := fun _ hx => hd.setCtx hx

theorem ReadyOnlyOn.of_ctxs (hd : ReadyOnlyOn c d) (he : e.ctxs = d.ctxs) : ReadyOnlyOn c e := by
  intro x hx p hp
  change p ∈ tabPut (fun _ => Ctx.empty) c x e.ctxs at hp
  rw [he] at hp
  exact hd x hx p hp

theorem tabIns_tabIns {α : Type} (k : Nat) (u v : α) (l : List (Nat × α)) : tabIns k v (tabIns k u l) = tabIns k v l := by
  induction l with
  | nil => simp [tabIns]
  | cons p t ih =>
    obtain ⟨j, w⟩ := p
    by_cases hlt : k < j
    · simp [tabIns, hlt]
    · by_cases heq : k = j
      · simp [tabIns, heq]
      · simp [tabIns, hlt, heq, ih]

theorem mem_tabIns_self {α : Type} (k : Nat) (v : α) (l : List (Nat × α)) : (k, v) ∈ tabIns k v l := by
  induction l with
  | nil => exact List.mem_cons_self
  | cons p t ih =>
    unfold tabIns
    split
    · exact List.mem_cons_self
    · split
      · exact List.mem_cons_self
      · exact List.mem_cons_of_mem _ ih

theorem mem_tabIns_of_ne {α : Type} {k : Nat} {v : α} {l : List (Nat × α)} {p : Nat × α} (hne : p.1 ≠ k) (hp : p ∈ l) : p ∈ tabIns k v l := by
  induction l with
  | nil => exact absurd hp List.not_mem_nil
  | cons q t ih =>
    obtain ⟨j, w⟩ := q
    unfold tabIns
    split
    · exact List.mem_cons_of_mem _ hp
    · split
      · next heq =>
        rcases List.mem_cons.1 hp with rfl | ht
        · exact absurd heq.symm hne
        · exact List.mem_cons_of_mem _ ht
      · rcases List.mem_cons.1 hp with rfl | ht
        · exact List.mem_cons_self
        · exact List.mem_cons_of_mem _ (ih ht)

/-- A second write of a key leaves no entry that it alone would not leave. -/
theorem mem_tabPut_twice {α : Type} [DecidableEq α] {dflt : Nat → α} {k : Nat} {u v : α} {l : List (Nat × α)} {p : Nat × α}
    (hp : p ∈ tabPut dflt k v (tabPut dflt k u l)) : p ∈ tabPut dflt k v l := by
  unfold tabPut at hp ⊢
  by_cases hv : v = dflt k
  · rw [if_pos hv] at hp ⊢
    obtain ⟨hmem, hne⟩ := List.mem_filter.1 hp
    refine List.mem_filter.2 ⟨?_, hne⟩
    split at hmem
    · exact List.mem_of_mem_filter hmem
    · rcases mem_tabIns hmem with rfl | hold
      · exact absurd rfl (of_decide_eq_true hne)
      · exact hold
  · rw [if_neg hv] at hp ⊢
    split at hp
    · rcases mem_tabIns hp with rfl | hold
      · exact mem_tabIns_self ..
      · obtain ⟨hmem, hne⟩ := List.mem_filter.1 hold
        exact mem_tabIns_of_ne (of_decide_eq_true hne) hmem
    · rwa [tabIns_tabIns] at hp

theorem ReadyOnlyOn.setCtx {x : Ctx} (hd : ReadyOnlyOn c d) : ReadyOnlyOn c (d.setCtx c x) := by
  intro y hy p hp
  change p ∈ tabPut (fun _ => Ctx.empty) c y (tabPut (fun _ => Ctx.empty) c x d.ctxs) at hp
  have honce := mem_tabPut_twice hp
  exact hd y hy p honce

theorem ReadyOnlyOn.onCtx {f : Ctx → Ctx} (hd : ReadyOnlyOn c d) : ReadyOnlyOn c (d.onCtx c f) := hd.setCtx

/-! ### Segments marked received -/

/-- e holds operations, words, held segments and items as d does. -/
structure Marked (c : Nat) (d e : Dev) : Prop where
  ops : e.ops = d.ops
  words : e.words = d.words
  held : (e.ctx c).held = (d.ctx c).held
  rx : (e.ctx c).rx = (d.ctx c).rx
  calm : NoneReady d → NoneReady e
  calmBut : ReadyOnlyOn c d → ReadyOnlyOn c e

theorem Marked.trans {f : Dev} (hd : Marked c d e) (he : Marked c e f) : Marked c d f :=
  ⟨he.ops.trans hd.ops, he.words.trans hd.words, he.held.trans hd.held, he.rx.trans hd.rx, fun hn => he.calm (hd.calm hn),
    fun hn => he.calmBut (hd.calmBut hn)⟩

theorem marked_setCtx {x : Ctx} (hheld : x.held = (d.ctx c).held) (hrx : x.rx = (d.ctx c).rx) : Marked c d (d.setCtx c x) := by
  have hget : (d.setCtx c x).ctx c = x := by rw [ctx_setCtx, if_pos rfl]
  exact ⟨rfl, rfl, by rw [hget, hheld], by rw [hget, hrx], fun hd => hd.setCtx (fun r hr => hd.ctx c r (hrx ▸ hr)), fun hd => hd.setCtx⟩

theorem marked_enterEpoch {x : Ctx} {out : Bool} {n : Nat} : Marked c d (d.enterEpoch x out n) := by
  unfold Dev.enterEpoch Dev.writeEpoch
  split <;> exact ⟨rfl, rfl, rfl, rfl, id, id⟩

theorem marked_markReceived : Marked c d (d.markReceived c seq) := by
  unfold Dev.markReceived
  extract_lets x old p news y d1
  have h1 : Marked c d d1 := marked_setCtx rfl rfl
  split
  · exact h1.trans marked_enterEpoch
  · exact h1

/-- A block that passes its CRC is noted in its item; which segments it marks received changes nothing else here. -/
theorem crcPassed_marked (off size : Nat) (hitem : (d.ctx c).item r.key = r) (hnew : r.passed.contains (off, off + size) = false) :
    Marked c (d.setItem c { r with passed := r.passed ++ [(off, off + size)] }) (d.crcPassed c r.key off size) := by
  unfold Dev.crcPassed
  dsimp only
  rw [hitem, hnew, if_neg (by decide)]
  exact List.foldlRecOn (motive := Marked c _) _ _ ⟨rfl, rfl, rfl, rfl, id, id⟩ (fun _ ha _ _ => ha.trans marked_markReceived)

/-! ### The one segment of an item leaves its buffer -/

theorem covers_whole {n : Nat} (hdone : r.done = [(0, n)]) (hn : 0 < n) : r.covers 0 n = true := by
  unfold RxItem.covers
  rw [hdone]
  simp [reach, hn]

theorem settleHeld_one (hheld : (d.ctx c).held = [h]) (hidx : h.seg.segidx = 0)
    (hcovers : ((d.ctx c).item (segKey h.seg)).covers 0 h.plain.length = true) : d.settleHeld c (segKey h.seg) = d.received c h.seq := by
  have hok : (d.ctx c).held.filter (fun h' => segKey h'.seg == segKey h.seg &&
      ((d.ctx c).item (segKey h.seg)).covers (segStart h'.seg) (segStart h'.seg + h'.plain.length)) = [h] := by
    rw [hheld]
    simp [segStart_first hidx, hcovers]
  unfold Dev.settleHeld
  dsimp only
  rw [hok, List.foldl_cons, List.foldl_nil]

theorem ctx_received (hheld : (d.ctx c).held = [h]) :
    ((d.received c h.seq).ctx c).held = [] ∧ ((d.received c h.seq).ctx c).rx = (d.ctx c).rx := by
  have hmark : Marked c d (d.markReceived c h.seq) := marked_markReceived
  unfold Dev.received
  rw [ctx_onCtx_same]
  dsimp only
  rw [hmark.held, hheld]
  exact ⟨by simp, hmark.rx⟩

/-! ### The units reach the window -/

/-- A write's requests change no context. -/
theorem ctxs_winWrite (use : ReqUse) (w off tenant : Nat) (data : List Byte) : (winWrite use w off tenant data d m).1.ctxs = d.ctxs :=
  show (sansLrm _).ctxs = (sansLrm d).ctxs from congrArg Dev.ctxs (sansLrm_nodeWrite ..)

theorem ops_winWrite (use : ReqUse) (w off tenant : Nat) (data : List Byte) : (winWrite use w off tenant data d m).1.ops = d.ops :=
  sansLrm_ops (sansLrm_nodeWrite ..)

/-- An operation may end; then only what it had still to send leaves the contexts. -/
theorem opSettle_cases : d.opSettle n i = d ∨ d.opSettle n i = d.okOp n i := by
  unfold Dev.opSettle
  split
  · exact .inl rfl
  · split
    · exact .inr rfl
    · exact .inl rfl

theorem tabGet_map_values {α : Type} {dflt : α} (f : α → α) (hf : f dflt = dflt) (l : List (Nat × α)) (k : Nat) :
    tabGet (fun _ => dflt) (l.map (fun e => (e.1, f e.2))) k = f (tabGet (fun _ => dflt) l k) := by
  induction l with
  | nil => exact hf.symm
  | cons p t ih =>
    rw [List.map_cons, tabGet, tabGet]
    split
    · rfl
    · exact ih

/-- A context without what an operation had still to send. -/
def sansOp (n i : Nat) (x : Ctx) : Ctx := { x with sendq := x.sendq.filter (fun t => t.op != some (n, i)) }

theorem ctx_endOp {st dt : Nat} (j : Nat) : ((d.endOp n i st dt).ctx j).held = (d.ctx j).held ∧ ((d.endOp n i st dt).ctx j).rx = (d.ctx j).rx := by
  unfold Dev.endOp
  split
  · exact ⟨rfl, rfl⟩
  · split
    · exact ⟨rfl, rfl⟩
    · change (tabGet (fun _ => Ctx.empty) (d.ctxs.map (fun e => (e.1, sansOp n i e.2))) j).held = _ ∧
        (tabGet (fun _ => Ctx.empty) (d.ctxs.map (fun e => (e.1, sansOp n i e.2))) j).rx = _
      rw [tabGet_map_values (sansOp n i) rfl]
      exact ⟨rfl, rfl⟩

theorem ctx_okOp (j : Nat) : ((d.okOp n i).ctx j).held = (d.ctx j).held ∧ ((d.okOp n i).ctx j).rx = (d.ctx j).rx := by
  unfold Dev.okOp
  split
  · exact ⟨rfl, rfl⟩
  · exact ctx_endOp j

theorem ctx_opSettle (j : Nat) : ((d.opSettle n i).ctx j).held = (d.ctx j).held ∧ ((d.opSettle n i).ctx j).rx = (d.ctx j).rx := by
  rcases opSettle_cases (d := d) (n := n) (i := i) with hs | hs
  · rw [hs]; exact ⟨rfl, rfl⟩
  · rw [hs]; exact ctx_okOp j

theorem NoneReady.opSettle (hd : NoneReady d) : NoneReady (d.opSettle n i) := by
  rcases opSettle_cases (d := d) (n := n) (i := i) with hs | hs
  · rw [hs]; exact hd
  · rw [hs]; exact hd.okOp

theorem getOp_opSettle (ho : d.getOp n i = some o) : ∃ p, (d.opSettle n i).getOp n i = some p ∧ p.got = o.got := by
  rcases opSettle_cases (d := d) (n := n) (i := i) with hs | hs
  · rw [hs]; exact ⟨o, ho, rfl⟩
  · rw [hs]
    obtain ⟨v, hv⟩ := getOp_okOp_same ho
    refine ⟨_, hv, ?_⟩
    unfold opEnded
    split <;> rfl

theorem winKey_of_words (he : e.words = d.words) (w off : Nat) : e.winKey w off = d.winKey w off := by
  have hf : ∀ (x : Fld) (j : Nat), e.f x j = d.f x j := fun x j => f_of_word (congrArg (tabGet resetWord · (x.key j)) he)
  unfold Dev.winKey Dev.on
  rw [hf, hf, hf]

/-- What one block of a GET's data does (R32): its bytes stand in the requester's window. -/
theorem getBlock_spec {b : RxBlock} {k : Nat} (ho : d.getOp o.ring o.index = some o) :
    (∃ p, (getBlock o b k d m).1.getOp o.ring o.index = some p ∧ p.got = o.got + b.units.length) ∧
    (getBlock o b k d m).2 = memWrite m (d.winKey o.lwin (o.d.loff + k)) (b.units.map (fun v => BitVec.ofNat 8 v)) ∧
    (∀ j, ((getBlock o b k d m).1.ctx j).held = (d.ctx j).held ∧ ((getBlock o b k d m).1.ctx j).rx = (d.ctx j).rx) ∧
    (NoneReady d → NoneReady (getBlock o b k d m).1) := by
  unfold getBlock
  extract_lets data p
  have hops : p.1.ops = d.ops := ops_winWrite ..
  have hctxs : p.1.ctxs = d.ctxs := ctxs_winWrite ..
  have hget : p.1.getOp o.ring o.index = some o := (getOp_of_ops hops).trans ho
  have hupd := getOp_updOp_same (g := fun o => { o with
    got := o.got + data.length, owed := o.owed + p.2.2, allIn := decide (o.d.len ≤ o.got + data.length) }) (by exact fun _ => ⟨rfl, rfl⟩) hget
  obtain ⟨q, hq, hgot⟩ := getOp_opSettle hupd
  refine ⟨⟨q, hq, hgot.trans ?_⟩, winWrite_mem rfl _ _ _ _, fun j => ?_, fun hd => NoneReady.opSettle ?_⟩
  · change o.got + data.length = _
    rw [List.length_map]
  · obtain ⟨hheld, hrx⟩ := ctx_opSettle (d := p.1.updOp o.ring o.index (fun o => { o with
      got := o.got + data.length, owed := o.owed + p.2.2, allIn := decide (o.d.len ≤ o.got + data.length) })) (n := o.ring) (i := o.index) j
    have hctx : p.1.ctx j = d.ctx j := congrArg (fun l => tabGet (fun _ => Ctx.empty) l j) hctxs
    exact ⟨hheld.trans (congrArg Ctx.held hctx), hrx.trans (congrArg Ctx.rx hctx)⟩
  · change ∀ e ∈ p.1.ctxs, _
    rw [hctxs]
    exact hd

/-! ### Delivery of the block that stands next -/

theorem deliverReady_none {key : ItemKey} {cf : Nat} {poison : Bool} (hready : ((d.ctx c).item key).ready = []) :
    deliverReady n c key cf poison d m = (d, m) := by
  cases n with
  | zero => rfl
  | succ n =>
    rw [deliverReady]
    dsimp only
    rw [hready]
    rfl

/-- An item once its one decoded block has been delivered. -/
def delivered (r : RxItem) (b : RxBlock) : RxItem := { r with ready := [], next := b.fin, elems := r.elems + b.elems 0xF }

theorem deliverReady_get {b : RxBlock} {poison : Bool} (hitem : (d.ctx c).item r.key = r) (hkind : r.key.kind = 2) (hready : r.ready = [b])
    (hnext : b.off = r.next) (hfirst : r.elems = 0) (ho : d.opOf c r.key.n = some o) (hlen : b.units.length = o.d.len)
    (hunits : b.units.length ≤ blockUnits 0xF) :
    deliverReady (n + 1) c r.key 0xF poison d m =
      deliverReady n c r.key 0xF poison (getBlock o b 0 (d.setItem c (delivered r b)) m).1 (getBlock o b 0 (d.setItem c (delivered r b)) m).2 := by
  have hfind : r.ready.find? (fun b' => b'.off == r.next) = some b := by rw [hready]; exact List.find?_cons_of_pos (by simp [hnext])
  have hrest : r.ready.filter (fun y => y != b) = [] := by rw [hready]; simp
  have helems : d.itemElems c r.key = some o.d.len := by
    unfold Dev.itemElems
    rw [hkind, ho]
    rfl
  have hone : (codedFmt 0xF).elems = 1 := rfl
  have hgood : (b.elems 0xF != min (blockUnits 0xF * (codedFmt 0xF).elems) (o.d.len - 0)) = false := by
    unfold RxBlock.elems
    rw [hone, ← hlen, Nat.mul_one, Nat.mul_one, Nat.sub_zero, Nat.min_eq_right hunits]
    simp
  rw [deliverReady]
  dsimp only
  rw [hitem, hfind]
  dsimp only
  rw [helems]
  dsimp only
  rw [hkind, ho, hrest, hfirst]
  dsimp only
  rw [hgood]
  unfold delivered
  rw [hfirst]
  exact if_neg Bool.false_ne_true

/-! ### A GET's data in one block -/

/-- The item of a response of which nothing but its end has been seen, the segment that ends it. -/
def freshItem (key : ItemKey) (n : Nat) : RxItem := ⟨key, [], [], some n, [], 0, 0, [], false, 0, [], none, []⟩

/-- The item once its one block has passed its CRC, and once that block is decoded. -/
def passedItem (key : ItemKey) (n : Nat) : RxItem := { freshItem key n with passed := [(0, 0 + n)] }
def decodedItem (key : ItemKey) (n : Nat) (b : RxBlock) : RxItem := { passedItem key n with done := [(0, 0 + n)], ready := [b] }

theorem rx_setItem (hrx : (d.ctx c).rx = [r]) {r' : RxItem} (hkey : r'.key = r.key) : ((d.setItem c r').ctx c).rx = [r'] := by
  rw [ctx_setItem]
  dsimp only
  rw [hrx, hkey]
  simp

theorem held_setItem : ((d.setItem c r).ctx c).held = (d.ctx c).held := by rw [ctx_setItem]

/-- The last step: the decoded block stands in the item, its segment has left its buffer. -/
theorem deliverItem_get {key : ItemKey} {k : Nat} {b : RxBlock} {poison : Bool} (hkind : key.kind = 2) (hoff : b.off = 0)
    (hrx : (d.ctx c).rx = [decodedItem key k b]) (hheld : (d.ctx c).held = []) (hcalm : ReadyOnlyOn c d)
    (ho : d.opOf c key.n = some o) (hget : d.getOp o.ring o.index = some o) (hlen : b.units.length = o.d.len)
    (hunits : b.units.length ≤ blockUnits 0xF) :
    ∃ e, deliverItem c key 0xF poison d m = (e, memWrite m (d.winKey o.lwin o.d.loff) (b.units.map (fun v => BitVec.ofNat 8 v))) ∧
      NoneReady e ∧ (e.ctx c).held = [] ∧ ∃ p, e.getOp o.ring o.index = some p ∧ p.got = o.got + b.units.length := by
  have hitem : (d.ctx c).item key = decodedItem key k b := item_of_rx hrx
  have hready : ((d.ctx c).item key).ready = [b] := by rw [hitem]; rfl
  have hset : ((d.setItem c (delivered (decodedItem key k b) b)).ctx c).rx = [delivered (decodedItem key k b) b] := rx_setItem hrx rfl
  have hcalm' : NoneReady (d.setItem c (delivered (decodedItem key k b) b)) := by
    refine hcalm _ (fun r hr => ?_)
    have hmem : r ∈ ((d.setItem c (delivered (decodedItem key k b) b)).ctx c).rx := by rw [ctx_setItem]; exact hr
    rw [hset] at hmem
    rw [List.mem_singleton.1 hmem]
    rfl
  obtain ⟨⟨p, hp, hgot⟩, hmem, hctx, hnone⟩ := getBlock_spec (d := d.setItem c (delivered (decodedItem key k b) b)) (m := m) (b := b) (k := 0)
    ((getOp_of_ops rfl).trans hget)
  have hitem' : ((getBlock o b 0 (d.setItem c (delivered (decodedItem key k b) b)) m).1.ctx c).item key = delivered (decodedItem key k b) b :=
    item_of_rx ((hctx c).2.trans hset)
  have hrun : deliverReady (((d.ctx c).item key).ready.length + 1) c key 0xF poison d m =
      getBlock o b 0 (d.setItem c (delivered (decodedItem key k b) b)) m := by
    rw [hready, List.length_singleton]
    exact (deliverReady_get (r := decodedItem key k b) hitem hkind rfl hoff rfl ho hlen hunits).trans
      (deliverReady_none (by rw [show (decodedItem key k b).key = key from rfl, hitem']; rfl))
  unfold deliverItem
  rw [hrun]
  dsimp only
  rw [hitem', hmem, show (delivered (decodedItem key k b) b).dead = false from rfl, if_neg Bool.false_ne_true,
    winKey_of_words (e := d.setItem c (delivered (decodedItem key k b) b)) rfl, Nat.add_zero]
  have hover : ItemsOnly (getBlock o b 0 (d.setItem c (delivered (decodedItem key k b) b)) m).1
      ((getBlock o b 0 (d.setItem c (delivered (decodedItem key k b) b)) m).1.itemOver c key) := .itemOver
  refine ⟨_, rfl, hover.calm (hnone hcalm'), ?_, p, (getOp_of_ops hover.ops).trans hp, hgot⟩
  exact (hover.held c).trans ((hctx c).1.trans (held_setItem.trans hheld))

theorem blockPassed_get {poison : Bool} (hheld : (d.ctx c).held = [h]) (hidx : h.seg.segidx = 0) (htyp : h.seg.typ = 2)
    (hpos : 0 < h.plain.length) (hrx : (d.ctx c).rx = [passedItem (segKey h.seg) h.plain.length]) (hcalm : NoneReady d)
    (ho : d.opOf c h.seg.opn.toNat = some o) (hget : d.getOp o.ring o.index = some o) (hlen : us.length = o.d.len)
    (hunits : us.length ≤ blockUnits 0xF) :
    ∃ e, blockPassed c (segKey h.seg) 0xF 0 h.plain.length poison us [] d m =
        (e, memWrite m (d.winKey o.lwin o.d.loff) (us.map (fun v => BitVec.ofNat 8 v))) ∧
      NoneReady e ∧ (e.ctx c).held = [] ∧ ∃ p, e.getOp o.ring o.index = some p ∧ p.got = o.got + us.length := by
  have hitem : (d.ctx c).item (segKey h.seg) = passedItem (segKey h.seg) h.plain.length := item_of_rx hrx
  obtain ⟨b, hb, hoff, hunitsEq⟩ : ∃ b : RxBlock, b = ⟨0, 0 + h.plain.length, us, [],
      heldStamp ((d.ctx c).held.filter (fun h' => segKey h'.seg == segKey h.seg)) 0 h.plain.length, false⟩ ∧ b.off = 0 ∧ b.units = us :=
    ⟨_, rfl, rfl, rfl⟩
  obtain ⟨e, he⟩ : ∃ e, e = d.setItem c (decodedItem (segKey h.seg) h.plain.length b) := ⟨_, rfl⟩
  have hrx' : (e.ctx c).rx = [decodedItem (segKey h.seg) h.plain.length b] := by rw [he]; exact rx_setItem hrx rfl
  have hheld' : (e.ctx c).held = [h] := by rw [he]; exact held_setItem.trans hheld
  have hcovers : ((e.ctx c).item (segKey h.seg)).covers 0 h.plain.length = true := by
    rw [show (e.ctx c).item (segKey h.seg) = decodedItem (segKey h.seg) h.plain.length b from item_of_rx hrx']
    exact covers_whole (by unfold decodedItem; rw [Nat.zero_add]) hpos
  have hstep : blockPassed c (segKey h.seg) 0xF 0 h.plain.length poison us [] d m = deliverItem c (segKey h.seg) 0xF poison (e.received c h.seq) m := by
    rw [← settleHeld_one hheld' hidx hcovers, he, hb]
    unfold blockPassed
    dsimp only
    rw [hitem]
    rfl
  have hready : ReadyOnlyOn c (e.received c h.seq) := by
    have hmark : Marked c e (e.markReceived c h.seq) := marked_markReceived
    rw [he] at hmark ⊢
    exact (hmark.calmBut hcalm.readyOnlyOn.setCtx).onCtx
  have hops : (e.received c h.seq).ops = d.ops := by rw [ops_received, he]; rfl
  have hwords : (e.received c h.seq).words = d.words := by
    have hmark : Marked c e (e.markReceived c h.seq) := marked_markReceived
    exact hmark.words.trans (by rw [he]; rfl)
  obtain ⟨hnone, hrx''⟩ := ctx_received hheld'
  have hkey : (segKey h.seg).n = h.seg.opn.toNat := by rw [segKey_response htyp]
  rw [hstep, ← winKey_of_words hwords, ← hunitsEq]
  refine deliverItem_get (by rw [segKey_response htyp]) hoff (hrx''.trans hrx') hnone hready ?_ ((getOp_of_ops hops).trans hget)
    (by rw [hunitsEq]; exact hlen) (by rw [hunitsEq]; exact hunits)
  rw [hkey, ← ho]
  exact congrArg (List.find? _) hops

theorem blockDecode_get {c : Fin 32768} (hopen : (s.dev.ctx c).state = .opened) (hheld : (s.dev.ctx c).held = [h]) (hidx : h.seg.segidx = 0)
    (htyp : h.seg.typ = 2) (hrx : (s.dev.ctx c).rx = [⟨segKey h.seg, [], [], some h.plain.length, [], 0, 0, [], false, 0, [], none, []⟩])
    (hcalm : s.dev.readyBlocks = 0) (ho : s.dev.opOf c h.seg.opn.toNat = some o) (hget : s.dev.getOp o.ring o.index = some o)
    (hsize : (blkHead h.plain).size = h.plain.length) (hcrc : blockCrcOk h.plain = true) (hmode : (blkHead h.plain).mode = 1)
    (hhead : headOk (blkHead h.plain) 0xF = true) (hraw : decodeRaw (blkHead h.plain) h.plain = some us) (hlen : us.length = o.d.len)
    (hunits : us.length ≤ blockUnits 0xF) :
    Completes (.blockDecode c (segKey h.seg) 0 []) s (fun t =>
      (∃ p, t.dev.getOp o.ring o.index = some p ∧ (p.got = o.got + us.length)) ∧
      memRead t.mem (s.dev.winKey o.lwin o.d.loff) us.length = us.map (fun v => BitVec.ofNat 8 v) ∧
      SameMemBut s t (s.dev.winKey o.lwin o.d.loff) us.length ∧ (t.dev.ctx c).held = []) := by
  have hpos : 0 < h.plain.length := by rw [← hsize]; unfold BlkHead.size; omega
  have hitem : (s.dev.ctx c).item (segKey h.seg) = freshItem (segKey h.seg) h.plain.length := item_of_rx hrx
  have hmark : Marked c (s.dev.setItem c (passedItem (segKey h.seg) h.plain.length)) (s.dev.crcPassed c (segKey h.seg) 0 h.plain.length) :=
    crcPassed_marked (r := freshItem (segKey h.seg) h.plain.length) 0 h.plain.length hitem rfl
  obtain ⟨e, he⟩ : ∃ e, e = s.dev.crcPassed c (segKey h.seg) 0 h.plain.length := ⟨_, rfl⟩
  rw [← he] at hmark
  have hready : NoneReady s.dev := readyBlocks_eq_zero.1 hcalm
  have hops : e.ops = s.dev.ops := hmark.ops.trans rfl
  have hwords : e.words = s.dev.words := hmark.words.trans rfl
  obtain ⟨f, hf, hfcalm, hfheld, p, hp, hgot⟩ := blockPassed_get (d := e) (m := s.mem) (poison := h.seg.poison) (hmark.held.trans (held_setItem.trans hheld))
    hidx htyp hpos (hmark.rx.trans (rx_setItem hrx rfl)) (hmark.calm ((ItemsOnly.setItem (fun _ => rfl)).calm hready))
    (by rw [← ho]; exact congrArg (List.find? _) hops) ((getOp_of_ops hops).trans hget) hlen hunits
  have hdec : blockDecode c (segKey h.seg) 0 [] s.dev s.mem =
      (f, memWrite s.mem (s.dev.winKey o.lwin o.d.loff) (us.map (fun v => BitVec.ofNat 8 v))) := by
    rw [blockDecode_one hheld hidx htyp (by rw [ho]; rfl) hitem rfl rfl (fun t ht => (Option.some.inj ht).symm) hsize, hcrc, if_pos rfl, ← he]
    unfold decodeBlock
    dsimp only
    rw [hhead, hmode, hraw, if_neg (by decide), if_pos rfl]
    dsimp only
    rw [hf, winKey_of_words hwords]
  have hexec := exec_blockDecode hopen hdec hfcalm
  have hrcpt : Receipted f (f.receiptCheck c) := .receiptCheck .refl
  have hbytes : (us.map (fun v => (BitVec.ofNat 8 v : Byte))).length = us.length := List.length_map _
  refine ⟨_, hexec, ⟨p, (getOp_of_ops hrcpt.ops).trans hp, hgot⟩, ?_, fun a ha => ?_, (held_of_receipted hrcpt c).trans hfheld⟩
  · exact (congrArg (memRead _ _) hbytes.symm).trans (memRead_memWrite _ _ _)
  · exact memGet_memWrite_outside _ _ _ _ (by rw [hbytes]; exact ha)

/-! ### The obligation -/

/-- Settles O42: a case per clause, in the order of the statement. -/
theorem segmentsAreCutReceivedAndDecoded : Obligations.SegmentsAreCutReceivedAndDecoded := by
  unfold Obligations.SegmentsAreCutReceivedAndDecoded
  refine ⟨?_, ?_, ?_, ?_, ?_, ?_, ?_, ?_, ?_, ?_, ?_, ?_, ?_, ?_, ?_⟩
  · intro c m it rest key s hq hkind hplain _ hraw hleft hsome hlen hcut hyes hpark hpend hkey hloan htgt
    exact segmentCut_cuts hq hkind hplain hraw hleft hsome hlen hcut hyes hpark hpend hkey hloan htgt
  · intro c m it rest s hq hhope hcut hyes hkey hopen
    exact segmentCut_stalls hq hhope hcut hyes hkey hopen
  · intro c m it rest s hq hhope hcut hcarry hsched hpark
    exact segmentCut_wakes hq hhope hcut hcarry hsched hpark
  · intro c m s hcarry hsched
    exact segmentCut_stays hcarry hsched
  · intro m g race ok s hen hcep
    exact segmentReceive_phase hen hcep
  · intro m g race ok s hen hcep hstale
    exact segmentReceive_stale hen hcep hstale
  · intro m g race ok s hen hcep hopen hgen hwing hdup
    exact segmentReceive_dup ⟨hen, hcep, hopen, hgen, hwing⟩ hdup
  · intro m g race ok seq s hen hcep hopen hgen hwing hseq hcum hrcvd hheld hout
    refine segmentReceive_outWin ⟨hen, hcep, hopen, hgen, hwing⟩ hseq ?_ hout.symm
    rintro (hlow | hmem | hmem)
    · omega
    · exact hrcvd (List.contains_iff_mem.1 hmem)
    · exact absurd (hheld.symm.trans hmem) (by decide)
  · intro m g race ok seq s hw hkey
    exact segmentReceive_keyless hw hkey
  · intro m g race k seq s hw hkey hepoch hwrap hbufs hfew
    exact segmentReceive_badTag hw hkey hepoch hwrap hbufs hfew
  · intro m g k seq s hw hkey hepoch hwrap htyp hmeets hcalm
    exact segmentReceive_tour hw hkey hepoch hwrap hcalm htyp hmeets
  · intro m g k o seq s hw hkey hepoch hwrap htyp hop hst ho hcalm
    exact segmentReceive_result hw hkey hepoch hwrap hcalm htyp hop hst ho
  · intro c h s hopen hheld hrx hidx htyp hop hsize hlen hcrc hcalm
    exact blockDecode_crc hopen hheld hrx hidx htyp hop hsize hlen hcrc hcalm
  · intro c h o us s hopen hheld hidx htyp hrx hcalm ho hget hsize hcrc hmode hhead hraw hlen hunits _ _
    exact blockDecode_get hopen hheld hidx htyp hrx hcalm ho hget hsize hcrc hmode hhead hraw hlen hunits
  · intro m g race ok s hcep hopen hgen hwing
    exact segmentReceive_fenced hcep hopen hgen hwing

end Sys2Proof.Laws
end

section
/-! Memory keeps its canonical form (R55, R65, R72, R346, R355, R366). One lemma per function of the model that answers memory: the memory of
what it answers is canonical where its argument's is. Memory changes only by `memWrite`, `memPut` and a filter, so each lemma follows the
function's own shape; a function that answers a block alone needs none. -/

namespace Sys2Proof.Laws
-- One theorem after another: a thread of its own for each passes the memory that the whole text may take.
set_option Elab.async false

open Sys2Proof Sys2Proof.Machine

/-- Memory is in its canonical form. -/
def MemCanon (m : List Host.Cell) : Prop := memWf m

/-- Every next state that a command answers has canonical memory. -/
def NextCanon (r : Res) : Prop := ∀ t, r = .next t → MemCanon t.mem

namespace MemCanon

/-! ### The shapes that the model's functions are made of -/

theorem write {m k l} (h : MemCanon m) : MemCanon (memWrite m k l) := memWf_memWrite k l h
theorem put {m k b} (h : MemCanon m) : MemCanon (memPut m k b) := memWf_memPut k b h
theorem filter {m p} (h : MemCanon m) : MemCanon (List.filter p m) := memWf_filter p h

theorem onDev {s : State} {f : Dev → Dev} (h : MemCanon s.mem) : MemCanon (s.onDev f).mem := h
theorem onPlan {s : State} {g : Dev → Dev} (h : MemCanon s.mem) : MemCanon (s.onPlan g).mem := h
theorem onBoth {s : State} {f : Dev → List Host.Cell → Dev × List Host.Cell} (h : MemCanon (f s.dev s.mem).2) : MemCanon (s.onBoth f).mem := h

section
variable {α β : Type} {c : Prop} [Decidable c] {m : List Host.Cell}

theorem pair {a : α} (h : MemCanon m) : MemCanon (a, m).2 := h
theorem triple {a : α} {b : β} (h : MemCanon m) : MemCanon (a, m, b).2.1 := h

theorem ite {a b : List Host.Cell} (ha : MemCanon a) (hb : MemCanon b) : MemCanon (if c then a else b) := by split <;> assumption
theorem iteSnd {a b : α × List Host.Cell} (ha : MemCanon a.2) (hb : MemCanon b.2) : MemCanon (if c then a else b).2 := by
  split <;> assumption
theorem iteMid {a b : α × List Host.Cell × β} (ha : MemCanon a.2.1) (hb : MemCanon b.2.1) : MemCanon (if c then a else b).2.1 := by
  split <;> assumption
theorem iteMem {a b : State} (ha : MemCanon a.mem) (hb : MemCanon b.mem) : MemCanon (if c then a else b).mem := by split <;> assumption

theorem foldl {f : List Host.Cell → α → List Host.Cell} {l : List α} (hf : ∀ {a x}, MemCanon a → MemCanon (f a x)) (h : MemCanon m) :
    MemCanon (l.foldl f m) := by
  induction l generalizing m with
  | nil => exact h
  | cons x t ih => exact ih (hf h)
theorem foldlSnd {d : β × List Host.Cell} {f : β × List Host.Cell → α → β × List Host.Cell} {l : List α}
    (hf : ∀ {a x}, MemCanon a.2 → MemCanon (f a x).2) (h : MemCanon d.2) : MemCanon (l.foldl f d).2 := by
  induction l generalizing d with
  | nil => exact h
  | cons x t ih => exact ih (hf h)
end

end MemCanon

namespace NextCanon

theorem next {s : State} (h : MemCanon s.mem) : NextCanon (.next s) := fun t e => by cases e; exact h
theorem ite {c : Prop} [Decidable c] {a b : Res} (ha : NextCanon a) (hb : NextCanon b) : NextCanon (if c then a else b) := by
  split <;> assumption

/-- A command that changes the block alone. -/
theorem onDev {s : State} {f : Dev → Dev} (h : MemCanon s.mem) : NextCanon (.next (s.onDev f)) := .next (.onDev h)

/-- A command that changes the block alone, or does nothing. -/
theorem mayDev {c : Prop} [Decidable c] {s : State} {f : Dev → Dev} (h : MemCanon s.mem) : NextCanon (.next (if c then s.onDev f else s)) :=
  .next (.iteMem (.onDev h) h)

end NextCanon

variable {d : Dev} {m : List Host.Cell} {s : State}

/-- What a command answers, carried into the middle of a register write. -/
theorem MemCanon.afterRes {r : Res} (hr : NextCanon r) (h : MemCanon s.mem) : MemCanon (s.afterRes r).mem := by
  unfold State.afterRes
  split
  · exact hr _ rfl
  · exact h
  · exact h

/-! ### Rings, queues and courier channels -/

namespace MemCanon

theorem nodeWrite {use host node addr tenant data} (h : MemCanon m) : MemCanon (nodeWrite use host node addr tenant data d m).2.1 :=
  .iteMid (.triple (.ite h (.write h))) (.triple (.ite h (.write h)))
theorem cqFire {q} (h : MemCanon m) : MemCanon (cqFire q d m).2 := .iteSnd (.pair h) (.pair (.nodeWrite h))
theorem cqWritten {q irq} (h : MemCanon m) : MemCanon (cqWritten q irq d m).2 := .iteSnd (.iteSnd (.cqFire h) (.pair h)) (.pair h)
theorem writeRecord {q r ok} (h : MemCanon m) : MemCanon (writeRecord q r ok d m).2 := .cqWritten (.iteMid (.nodeWrite h) (.triple h))
theorem cqDoorbell {q index} (h : MemCanon m) : MemCanon (cqDoorbell q index d m).2 :=
  .iteSnd (.iteSnd (.cqFire h) (.pair h)) (.pair h)
theorem queueDoorbell {loc src q index} (h : MemCanon m) : MemCanon (queueDoorbell loc src q index d m).2 :=
  .iteSnd (.cqDoorbell h) (.pair h)
theorem courierCopy {ctr mv} (h : MemCanon m) : MemCanon (courierCopy ctr mv m) := .foldl .put h
theorem courierEnd {c v moved state ok} (h : MemCanon m) : MemCanon (courierEnd c v moved state ok d m).2 :=
  .iteSnd (.pair (.writeRecord h)) (.pair h)
theorem courierStart {c} (h : MemCanon m) : MemCanon (courierStart c d m).2 := by
  unfold Machine.courierStart
  dsimp only
  refine .iteSnd (.pair h) ?_
  split
  · exact .courierEnd h
  · exact h
theorem courierLoad {c} (h : MemCanon m) : MemCanon (courierLoad c d m).2 := .courierStart h

end MemCanon

theorem NextCanon.execQueueDoorbell {f q w index} (h : MemCanon s.mem) : NextCanon (execQueueDoorbell f q w index s) :=
  .next (.iteMem (.onBoth (.queueDoorbell h)) h)
theorem NextCanon.execAbortRecordWrite {n readOk writeOk} (h : MemCanon s.mem) : NextCanon (execAbortRecordWrite n readOk writeOk s) :=
  .ite (.next (.onBoth (.pair (.writeRecord h)))) (.next h)
theorem NextCanon.execCoalescingTimer {q} (h : MemCanon s.mem) : NextCanon (execCoalescingTimer q s) :=
  .ite (.ite (.next (.onBoth (.cqFire h))) (.onDev h)) (.next h)
theorem NextCanon.execCourierGo {c} (h : MemCanon s.mem) : NextCanon (execCourierGo c s) :=
  .next (.iteMem (.iteMem (.onDev h) (.onBoth (.courierLoad h))) h)
theorem NextCanon.execCourierAbort {c bursts writeOk} (h : MemCanon s.mem) : NextCanon (execCourierAbort c bursts writeOk s) :=
  .next (.iteMem (.onBoth (.iteSnd (.iteSnd (.pair h) (.courierEnd (.courierCopy h))) (.pair h))) h)
theorem NextCanon.execCourierTransferEnd {c writeOk} (h : MemCanon s.mem) : NextCanon (execCourierTransferEnd c writeOk s) :=
  .next (.iteMem (.onBoth (.iteSnd (.iteSnd (.courierLoad (.courierStart h)) (.courierStart h))
    (.iteSnd (.courierLoad (.courierEnd (.courierCopy h))) (.courierEnd (.courierCopy h))))) h)
theorem NextCanon.execCourierMemoryError {c moved writeOk} (h : MemCanon s.mem) : NextCanon (execCourierMemoryError c moved writeOk s) :=
  .next (.iteMem (.onBoth (.courierEnd (.courierCopy h))) h)

/-! ### Windows, operations and atomics -/

namespace MemCanon

theorem winWrite {use w off tenant data} (h : MemCanon m) : MemCanon (winWrite use w off tenant data d m).2.1 := .nodeWrite h
theorem reduceInto {use w win off tenant fmt redop c idx bad src} (h : MemCanon m) :
    MemCanon (reduceInto use w win off tenant fmt redop c idx bad src d m).2.1 := .winWrite h
theorem localDeliver {o off data faults} (h : MemCanon m) : MemCanon (localDeliver o off data faults d m).1.2.1 := by
  unfold Machine.localDeliver
  dsimp only
  split
  · exact .reduceInto h
  · exact .winWrite h
  · split
    · exact h
    · exact .winWrite h
  · exact .winWrite h
theorem opData {n i data faults} (h : MemCanon m) : MemCanon (opData n i data faults d m).2 := by
  unfold Machine.opData
  split
  · exact h
  · refine .iteSnd (.pair h) ?_
    dsimp only
    split
    · exact .localDeliver h
    · exact h
theorem spoilDest {l} (h : MemCanon m) : MemCanon (spoilDest l d m).2 := .foldlSnd (fun h' => .iteSnd h' (.pair (.write h'))) h
theorem atomApply {r} (h : MemCanon m) : MemCanon (atomApply r d m).2.1 := .winWrite h
theorem atomStep {subop} (h : MemCanon s.mem) : MemCanon (atomStep subop s).mem := by
  unfold Machine.atomStep
  split
  · exact h
  · exact .iteMem (.onBoth (.pair (.atomApply h))) h
theorem signalNotice {r new} (h : MemCanon m) : MemCanon (signalNotice r new d m).2 :=
  .iteSnd (.iteSnd (.writeRecord h) (.pair h)) (.pair h)
theorem startDesc {n mine} (h : MemCanon s.mem) : MemCanon (startDesc n mine s).mem := by
  unfold Machine.startDesc
  split
  · exact h
  · exact .iteMem (.onBoth (.pair h)) h

end MemCanon

theorem NextCanon.execFenceRelease {n} (h : MemCanon s.mem) : NextCanon (execFenceRelease n s) := by
  unfold Machine.execFenceRelease
  refine .next ?_
  split
  · exact h
  · exact .iteMem h (.onBoth (.pair h))
theorem NextCanon.execCompletionRecordWrite {n index writeOk} (h : MemCanon s.mem) :
    NextCanon (execCompletionRecordWrite n index writeOk s) := by
  unfold Machine.execCompletionRecordWrite
  refine .next ?_
  split
  · exact h
  · exact .iteMem (.onBoth (.pair (.writeRecord (.spoilDest h)))) h
theorem NextCanon.execSignalTakeEffect (h : MemCanon s.mem) : NextCanon (execSignalTakeEffect s) := by
  unfold Machine.execSignalTakeEffect
  refine .next ?_
  split
  · exact h
  · exact .iteMem h (.onBoth (.signalNotice (.atomApply h)))

/-! ### Collectives -/

namespace MemCanon

theorem provWrite {w rec} (h : MemCanon m) : MemCanon (provWrite w rec d m).2 := .iteSnd (.pair h) (.pair (.write h))
theorem provPiece {x j p step fin poison fmt pf us} (h : MemCanon m) : MemCanon (provPiece x j p step fin poison fmt pf us d m).2 :=
  .iteSnd (.provWrite h) (.pair h)
theorem pieceWrite {id j p bytes} (h : MemCanon m) : MemCanon (pieceWrite id j p bytes d m).2 := by
  unfold Machine.pieceWrite
  split
  · exact h
  · exact .foldlSnd (fun h' => .pair (.winWrite h')) h
theorem ownerFinish {id j p us poison} (h : MemCanon m) : MemCanon (ownerFinish id j p us poison d m).2 := by
  unfold Machine.ownerFinish
  split
  · exact h
  · exact .pair (.provPiece (.iteSnd (.pair h) (.pieceWrite h)))
theorem reduceEmit {id j p k us poison} (h : MemCanon m) : MemCanon (reduceEmit id j p k us poison d m).2 := by
  unfold Machine.reduceEmit
  split
  · exact h
  · exact .pair (.provPiece h)
theorem pieceGo {id j p} (h : MemCanon m) : MemCanon (pieceGo id j p d m).2 := by
  unfold Machine.pieceGo
  split
  · exact h
  · dsimp only
    split
    · exact h
    · exact .iteSnd (.pair h) (.iteSnd (.iteSnd (.reduceEmit h) (.pair h)) (.iteSnd (.ownerFinish h) (.pair h)))
theorem collKick {id} (h : MemCanon m) : MemCanon (collKick id d m).2 := by
  unfold Machine.collKick
  split
  · exact h
  · exact .foldlSnd .pieceGo h
theorem collData {id data faults} (h : MemCanon m) : MemCanon (collData id data faults d m).2 := by
  unfold Machine.collData
  split
  · exact h
  · exact .iteSnd (.pair h) (.iteSnd (.pair h) (.iteSnd (.pair h) (.pair (.pieceGo h))))
theorem collStart {id} (h : MemCanon m) : MemCanon (collStart id d m).2 := by
  unfold Machine.collStart
  split
  · exact h
  · exact .iteSnd (.pair h) (.iteSnd (.pair h) (.collKick h))
theorem collAdmit {id} (h : MemCanon m) : MemCanon (collAdmit id d m).2 := by
  unfold Machine.collAdmit
  split
  · exact h
  · exact .iteSnd (.pair h) (.iteSnd (.pair h) (.iteSnd (.pair h) (.iteSnd (.pair h) (.iteSnd (.pair h) (.iteSnd (.collStart h)
      (.iteSnd (.collStart h) (.pair h)))))))
theorem reduceStep {id j p faults} (h : MemCanon m) : MemCanon (reduceStep id j p faults d m).2 := by
  unfold Machine.reduceStep
  split
  · exact h
  · exact .pair (.iteSnd (.reduceEmit h) (.ownerFinish h))
theorem gatherPass {id j p} (h : MemCanon m) : MemCanon (gatherPass id j p d m).2 := by
  unfold Machine.gatherPass
  split
  · exact h
  · exact .pair (.iteSnd (.pair h) (.pieceWrite h))
theorem memberRecord {a : Dev × List Host.Cell} {k : Member} (h : MemCanon a.2) :
    MemCanon (match a.1.getOp k.ring k.index with
      | none => a
      | some o =>
        let e := Machine.spoilDest (a.1.undefDest o) a.1 a.2
        let b := Machine.writeRecord (e.1.f R.SQ_CTL.CQ k.ring) (e.1.opRec o) true e.1 e.2
        (b.1.opGone o, b.2)).2 := by
  split
  · exact h
  · exact .pair (.writeRecord (.spoilDest h))

end MemCanon

theorem NextCanon.execTourCtlWrite {w l v} (h : MemCanon s.mem) : NextCanon (execTourCtlWrite w l v s) :=
  .next (.iteMem (.onBoth (.iteSnd (.foldlSnd .collKick h) (.pair h))) h)
theorem NextCanon.execCollectiveStart {coll} (h : MemCanon s.mem) : NextCanon (execCollectiveStart coll s) := by
  unfold Machine.execCollectiveStart
  refine .next ?_
  split
  · exact h
  · exact .iteMem (.onBoth (.collStart h)) h
theorem NextCanon.execPhaseStart {w} (h : MemCanon s.mem) : NextCanon (execPhaseStart w s) := by
  unfold Machine.execPhaseStart
  refine .next ?_
  split
  · exact h
  · refine .iteMem h ?_
    extract_lets d1 ran s1
    have h1 : MemCanon s1.mem := .onDev h
    exact .iteMem (.onBoth (.foldlSnd .collStart h1)) h1
theorem NextCanon.execPartialCombine {coll chunk piece faults} (h : MemCanon s.mem) :
    NextCanon (execPartialCombine coll chunk piece faults s) := by
  unfold Machine.execPartialCombine
  refine .next ?_
  split
  · exact h
  · exact .iteMem h (.iteMem (.onBoth (.reduceStep h)) (.iteMem (.onBoth (.gatherPass h)) h))
theorem NextCanon.execCollectiveComplete {coll} (h : MemCanon s.mem) : NextCanon (execCollectiveComplete coll s) := by
  unfold Machine.execCollectiveComplete
  refine .next ?_
  split
  · exact h
  · exact .iteMem h (.onBoth (.pair (.foldlSnd .memberRecord h)))
theorem NextCanon.execCodecBuildDone (h : MemCanon s.mem) : NextCanon (execCodecBuildDone s) := by
  unfold Machine.execCodecBuildDone
  refine .next (.iteMem (.onBoth ?_) h)
  dsimp only
  split
  · exact h
  · exact .write h

/-! ### LRM packets and host reads -/

namespace MemCanon

theorem headerSample {p dir time raw} (h : MemCanon m) : MemCanon (headerSample p dir time raw d m).2 := by
  unfold Machine.headerSample
  dsimp only
  exact .iteSnd (.pair h) (.iteSnd (.pair h) (.iteSnd (.pair h) (.pair (.write h))))
theorem deliver {use data faults} (h : MemCanon m) : MemCanon (deliver use data faults d m).2 := by
  unfold Machine.deliver
  split
  · exact h
  · exact .opData h
  · exact h
  · exact .collData h
  · exact h
theorem lrmReceive {p raw typ act} (ha : ∀ {x red e l}, MemCanon l → MemCanon (act x red e l).2) (h : MemCanon s.mem) :
    MemCanon (lrmReceive p raw typ act s).mem :=
  .iteMem h (.onBoth (.iteSnd (.pair h) (.iteSnd (.headerSample h) (.iteSnd (.pair (.headerSample h)) (ha (.headerSample h))))))
theorem ackMemory {q} (h : MemCanon m) : MemCanon (ackMemory q m) := .ite (.write h) h

end MemCanon

theorem NextCanon.execLrmReadResp {p r} (h : MemCanon s.mem) : NextCanon (execLrmReadResp p r s) := by
  refine .next (.lrmReceive (fun h' => ?_) h)
  dsimp only
  split
  · exact h'
  · split
    · exact h'
    · exact .deliver h'
theorem NextCanon.execLrmWriteAck {p r} (h : MemCanon s.mem) : NextCanon (execLrmWriteAck p r s) := by
  refine .next (.lrmReceive (fun h' => ?_) h)
  split
  · exact h'
  · exact .ackMemory h'
theorem NextCanon.execLrmNak {p r} (h : MemCanon s.mem) : NextCanon (execLrmNak p r s) := by
  refine .next (.lrmReceive (fun h' => ?_) h)
  split
  · exact h'
  · exact h'
theorem NextCanon.execLrmCnp {p r} (h : MemCanon s.mem) : NextCanon (execLrmCnp p r s) := .next (.lrmReceive (fun h' => h') h)
theorem NextCanon.execLrmDoorbell {p r} (h : MemCanon s.mem) : NextCanon (execLrmDoorbell p r s) :=
  .next (.lrmReceive (fun h' => .iteSnd (.pair h') (.iteSnd (.pair h') (.iteSnd (.pair h') (.iteSnd (.queueDoorbell h') (.pair h'))))) h)
theorem NextCanon.execPcieReadCompletion {tag data} (h : MemCanon s.mem) : NextCanon (execPcieReadCompletion tag data s) := by
  unfold Machine.execPcieReadCompletion
  refine .next ?_
  split
  · exact h
  · exact .iteMem (.onBoth (.deliver h)) h

/-! ### Segments and blocks -/

namespace MemCanon

theorem tgtBlock {c t b elems} (h : MemCanon m) : MemCanon (tgtBlock c t b elems d m).2 := by
  unfold Machine.tgtBlock
  dsimp only
  split
  · exact .reduceInto h
  · split
    · exact h
    · exact .winWrite h
  · exact .winWrite h
theorem getBlock {o b elems} (h : MemCanon m) : MemCanon (getBlock o b elems d m).2 := .winWrite h
theorem deliverReady {n c k cf poison} (h : MemCanon m) : MemCanon (deliverReady n c k cf poison d m).2 := by
  induction n generalizing d m with
  | zero => exact h
  | succ n ih =>
    unfold Machine.deliverReady
    dsimp only
    split
    · exact h
    · split
      · exact h
      · split
        · split
          · exact h
          · exact .iteSnd (.pair h) (.iteSnd (.iteSnd (ih h) (.pair h)) (.iteSnd (.pair h) (ih (.tgtBlock h))))
        · split
          · exact h
          · exact .iteSnd (.pair h) (ih (.getBlock h))
        · split
          · exact h
          · split
            · exact h
            · exact .iteSnd (.pair h) (ih h)
theorem deliverItem {c k cf poison} (h : MemCanon m) : MemCanon (deliverItem c k cf poison d m).2 := .deliverReady h
theorem applyUpdate {c r t u b} (h : MemCanon m) : MemCanon (applyUpdate c r t u b d m).2 := .iteSnd (.pair h) (.deliverItem (.tgtBlock h))
theorem updatesGo {n} (h : MemCanon m) : MemCanon (updatesGo n d m).2 := by
  induction n generalizing d m with
  | zero => exact h
  | succ n ih =>
    unfold Machine.updatesGo
    split
    · exact h
    · exact ih (.applyUpdate h)
theorem startTgt {c t} (h : MemCanon m) : MemCanon (startTgt c t d m).2 := by
  unfold Machine.startTgt
  refine .iteSnd (.pair h) (.iteSnd (.pair h) ?_)
  split
  · exact h
  · exact h
  · exact h
  · exact .iteSnd (.pair h) (.deliverItem h)
  · exact .deliverItem h
  · exact .deliverItem h
  · exact h
theorem startTgts {n c} (h : MemCanon m) : MemCanon (startTgts n c d m).2 := by
  induction n generalizing d m with
  | zero => exact h
  | succ n ih =>
    unfold Machine.startTgts
    split
    · exact h
    · exact .iteSnd (.pair h) (ih (.startTgt h))
theorem reqSegment {c g} (h : MemCanon m) : MemCanon (reqSegment c g d m).2 := .startTgts h
theorem wipeLoan {c} (h : MemCanon m) : MemCanon (d.wipeLoan c m).2 := by
  unfold Dev.wipeLoan
  dsimp only
  split
  · exact h
  · exact .write h
theorem holdSegment {c g} (h : MemCanon m) : MemCanon (holdSegment c g d m).2 := by
  unfold Machine.holdSegment
  dsimp only
  split
  · exact .reqSegment h
  · exact h
  · exact h
  · exact h
theorem segmentIn {car g race tagOk} (h : MemCanon m) : MemCanon (segmentIn car g race tagOk d m).2 := by
  unfold Machine.segmentIn
  dsimp only
  refine .iteSnd (.pair h) (.iteSnd (.pair h) (.iteSnd (.pair h) (.iteSnd (.pair h) (.iteSnd (.pair h) (.iteSnd (.pair h) ?_)))))
  split
  · exact h
  · exact .iteSnd (.pair h) (.iteSnd (.pair (.wipeLoan h)) (.pair (.updatesGo (.holdSegment h))))
theorem blockPassed {c k cf off size poison us faults} (h : MemCanon m) : MemCanon (blockPassed c k cf off size poison us faults d m).2 :=
  .deliverItem h
theorem decodeBlock {c k cf off poison hd b faults} (h : MemCanon m) : MemCanon (decodeBlock c k cf off poison hd b faults d m).2 := by
  unfold Machine.decodeBlock
  refine .iteSnd (.pair h) (.iteSnd ?_ ?_)
  · split
    · exact .blockPassed h
    · exact h
  · dsimp only
    split
    · exact h
    · exact .iteSnd (.pair h) (.pair h)
    · split
      · exact .blockPassed h
      · exact h
theorem blockDecode {c k off faults} (h : MemCanon m) : MemCanon (blockDecode c k off faults d m).2 := by
  unfold Machine.blockDecode
  dsimp only
  split
  · exact h
  · refine .iteSnd (.pair h) (.iteSnd (.pair h) ?_)
    split
    · exact h
    · split
      · exact h
      · exact .iteSnd (.pair h) (.iteSnd (.pair h) (.decodeBlock h))

end MemCanon

theorem NextCanon.execBlockDecode {c item off faults} (h : MemCanon s.mem) : NextCanon (execBlockDecode c item off faults s) :=
  .next (.onBoth (.iteSnd (.pair h) (.pair (.updatesGo (.blockDecode h)))))

/-! ### Time messages, ports, power and alarms -/

namespace MemCanon

theorem ptpSample {p dir time} (h : MemCanon m) : MemCanon (ptpSample p dir time d m).2 := .iteSnd (.headerSample h) (.pair h)
theorem ptpDepart {p x} (h : MemCanon m) : MemCanon (ptpDepart p x d m).2 := .ptpSample h
theorem relay {p x residence} (h : MemCanon m) : MemCanon (relay p x residence d m).2 :=
  .iteSnd (.pair h) (.iteSnd (.pair (.ptpSample h)) (.foldlSnd .ptpSample (.ptpSample h)))
theorem lrmSelect {p} (h : MemCanon m) : MemCanon (lrmSelect p d m).2 := by
  unfold Machine.lrmSelect
  dsimp only
  split
  · exact h
  · split
    · exact h
    · split
      · exact h
      · split
        · exact h
        · exact .headerSample h
theorem portSelect {p} (h : MemCanon m) : MemCanon (portSelect p d m).2 := by
  unfold Machine.portSelect
  split
  · exact .ptpDepart h
  · exact .lrmSelect h
theorem powerOnReset (h : MemCanon m) : MemCanon (powerOnReset d m).2 := .filter h
theorem alarmWrite {w} (h : MemCanon m) : MemCanon (alarmWrite w d m).2 := .iteSnd (.pair h) (.iteSnd (.pair h) (.pair (.write h)))

end MemCanon

theorem NextCanon.execPtpMessageReceive {p r} (h : MemCanon s.mem) : NextCanon (execPtpMessageReceive p r s) :=
  .next (.iteMem (.onPlan (.onBoth (.ptpSample h))) h)
theorem NextCanon.execSchedulingSelection {ent} (h : MemCanon s.mem) : NextCanon (execSchedulingSelection ent s) :=
  .next (.iteMem (.onBoth (.portSelect h)) (.onDev h))
theorem NextCanon.execPowerRailFault {rail mv} (h : MemCanon s.mem) : NextCanon (execPowerRailFault rail mv s) := by
  unfold Machine.execPowerRailFault
  dsimp only
  refine .next (.iteMem (.onBoth (.powerOnReset h)) (.iteMem (.onDev h) (.iteMem h ?_)))
  split
  · exact .onDev h
  · exact .iteMem (.onDev h) h
theorem NextCanon.execPowerMoveDone (h : MemCanon s.mem) : NextCanon (execPowerMoveDone s) :=
  .next (.iteMem (.iteMem (.filter (.onPlan h)) (.onPlan h)) h)
theorem NextCanon.execAlarmWindowClose {k} (h : MemCanon s.mem) : NextCanon (execAlarmWindowClose k s) := by
  refine .next (.onBoth ?_)
  split
  · exact .iteSnd (.alarmWrite h) (.pair h)
  · split
    · exact .iteSnd (.alarmWrite h) (.pair h)
    · exact h

/-! ### Register writes -/

namespace MemCanon

theorem drawFree {g} (hg : ∀ {w t}, MemCanon t.mem → MemCanon (g w t).mem) (h : MemCanon s.mem) : MemCanon (s.drawFree g).mem := hg h
theorem vtGo (h : MemCanon s.mem) : MemCanon (vtGo s).mem := by
  unfold Machine.vtGo
  dsimp only
  split
  · exact .afterRes (.onDev h) h
  · exact .afterRes (.onDev h) h
  · exact .drawFree (fun h' => .afterRes (.onDev h') h') h
  · exact .afterRes (.onDev h) h
  · exact .afterRes (.onDev h) h
  · exact .afterRes (.onDev h) h
  · exact .drawFree (fun h' => .afterRes (.onDev h') h') h
  · exact .afterRes (.onDev h) h
  · exact .afterRes (.onDev h) h
  · exact .drawFree (fun h' => .afterRes (.onDev h') h') h
  · exact .drawFree (fun h' => .afterRes (.onDev h') h') h
  · exact .onDev h
theorem courierCtl {c l v} (h : MemCanon s.mem) : MemCanon (courierCtl c l v s).mem := by
  unfold Machine.courierCtl
  extract_lets go arm abort
  have hgo : MemCanon (go s).mem := .iteMem (.afterRes (.execCourierGo h) h) h
  have harm : MemCanon (arm (go s)).mem := .iteMem (.afterRes (.mayDev hgo) hgo) hgo
  exact .iteMem (.drawFree (fun h' => .afterRes (.execCourierAbort h') h') harm) harm

/-- Of the blocks GLOBAL to STREAM only TOUR_CTL reaches memory: an engine that is enabled lets pieces go. -/
theorem regWriteA {r i l v} (h : MemCanon s.mem) : MemCanon (regWriteA r i l v s).mem := by
  unfold Machine.regWriteA
  extract_lets b dev s1
  have hd {g} : MemCanon (dev g).mem := .onDev h
  have hp {g} : MemCanon (s.onPlan g).mem := .onPlan h
  refine .iteMem hd (.iteMem hd (.iteMem hd (.iteMem (.iteMem (.onDev hd) hd) (.iteMem hp (.iteMem hp (.iteMem hd (.iteMem hp (.iteMem hd
    (.iteMem hd (.iteMem hd (.iteMem hd ?_)))))))))))
  refine .iteMem (.afterRes (.execTourCtlWrite h) h) (.iteMem hd ?_)
  refine .iteMem (.afterRes (.mayDev h) h) (.iteMem (.afterRes (.mayDev h) h) (.iteMem (.afterRes (.mayDev h) h) ?_))
  refine .iteMem (.afterRes (.mayDev h) h) ?_
  exact .iteMem hd (.iteMem hd (.iteMem hd (.iteMem hd (.iteMem hd hd))))

/-- Of the blocks RING to SYSTEM only CR_CTL reaches memory: GO and ABORT of a courier channel. -/
theorem regWriteB {r i l v} (h : MemCanon s.mem) : MemCanon (regWriteB r i l v s).mem := by
  unfold Machine.regWriteB
  extract_lets b dev s1
  have hd {g} : MemCanon (dev g).mem := .onDev h
  have h1 : MemCanon s1.mem := hd
  refine .iteMem hd (.iteMem (.iteMem (.afterRes (.mayDev h) h) h) ?_)
  refine .iteMem hd (.iteMem hd (.iteMem hd (.iteMem hd (.iteMem hd (.iteMem hd (.iteMem hd (.iteMem hd (.iteMem hd (.iteMem hd (.iteMem hd
    (.iteMem hd ?_)))))))))))
  refine .iteMem (.iteMem (.vtGo h1) h1) (.iteMem (.iteMem h (.iteMem h1 ?_)) ?_)
  · split
    · exact .afterRes (.onDev h1) h1
    · exact .afterRes (.onDev h1) h1
    · exact .onDev h1
  refine .iteMem hd (.iteMem hd (.iteMem (.onPlan h) ?_))
  exact .iteMem (.courierCtl h) (.iteMem hd (.iteMem hd (.iteMem hd hd)))
theorem writeAt {key l v} (h : MemCanon s.mem) : MemCanon (writeAt key l v s).mem := by
  unfold Machine.writeAt
  split
  · exact h
  · refine .iteMem h ?_
    split
    · exact .onDev h
    · exact .iteMem (.regWriteA h) (.regWriteB h)

end MemCanon

theorem NextCanon.execRegisterWrite {off size v} (h : MemCanon s.mem) : NextCanon (execRegisterWrite off size v s) := by
  unfold Machine.execRegisterWrite
  refine .next ?_
  split
  · exact h
  · exact .onDev (.writeAt h)

/-! ### Every command and every step -/

/-- What a command answers has canonical memory: by the command's own lemma where it can change memory, else because it changes the block alone. -/
theorem NextCanon.exec {c} (h : MemCanon s.mem) : NextCanon (exec c s) := by
  cases c with
  | registerWrite => exact .execRegisterWrite h
  | globalTblDataAccess => exact .onDev h
  | ringDoorbell => exact .mayDev h
  | queueDoorbell => exact .execQueueDoorbell h
  | descriptorFetch => exact .onDev h
  | fetchFailed => exact .mayDev h
  | abortRecordWrite => exact .execAbortRecordWrite h
  | sqCtlWrite => exact .mayDev h
  | sqAbort => exact .mayDev h
  | cqCtlWrite => exact .mayDev h
  | nop => exact .next (.startDesc h)
  | put => exact .next (.startDesc h)
  | get => exact .next (.startDesc h)
  | putReduce => exact .next (.startDesc h)
  | atomic => exact .next (.startDesc h)
  | signal => exact .next (.startDesc h)
  | fence => exact .next (.startDesc h)
  | fenceRelease => exact .execFenceRelease h
  | deltaPut => exact .next (.startDesc h)
  | allReduce => exact .next (.startDesc h)
  | reduceScatter => exact .next (.startDesc h)
  | allGather => exact .next (.startDesc h)
  | broadcast => exact .next (.startDesc h)
  | tablePublishCodec => exact .next (.startDesc h)
  | tablePublishCatalogue => exact .next (.startDesc h)
  | tablePublishPage => exact .next (.startDesc h)
  | completionRecordWrite => exact .execCompletionRecordWrite h
  | coalescingTimer => exact .execCoalescingTimer h
  | fadd64 => exact .next (.atomStep h)
  | cas64 => exact .next (.atomStep h)
  | swap64 => exact .next (.atomStep h)
  | fmin64 => exact .next (.atomStep h)
  | fmax64 => exact .next (.atomStep h)
  | signalTakeEffect => exact .execSignalTakeEffect h
  | courierGo => exact .execCourierGo h
  | courierArm => exact .mayDev h
  | courierAbort => exact .execCourierAbort h
  | courierTransferEnd => exact .execCourierTransferEnd h
  | courierMemoryError => exact .execCourierMemoryError h
  | tourCtlWrite => exact .execTourCtlWrite h
  | tourProvIdxWrite => exact .mayDev h
  | partialCombine => exact .execPartialCombine h
  | tourTsDataAccess => exact .mayDev h
  | collectiveAdmit => exact .next (.onBoth (.collAdmit h))
  | collectiveStart => exact .execCollectiveStart h
  | collEndReceive => exact .onDev h
  | collectiveComplete => exact .execCollectiveComplete h
  | raceCopy => exact .onDev h
  | segmentCut => exact .onDev h
  | blockDecode => exact .execBlockDecode h
  | codecSlotDataAccess => exact .mayDev h
  | codecStage => exact .mayDev h
  | stagingComplete => exact .onDev h
  | codecBuild => exact .mayDev h
  | codecBuildDone => exact .execCodecBuildDone h
  | pubReserveReceive => exact .onDev h
  | pubAnswerReceive => exact .onDev h
  | pubCommitReceive => exact .onDev h
  | pubAbortReceive => exact .onDev h
  | pubCommitAckReceive => exact .onDev h
  | codecInstall => exact .onDev h
  | codecActivate => exact .onDev h
  | reserveDiscard => exact .onDev h
  | deltaReleaseReceive => exact .onDev h
  | deltaReleaseAckReceive => exact .onDev h
  | streamOpen => exact .mayDev h
  | streamClose => exact .mayDev h
  | streamAbort => exact .mayDev h
  | accedeReceive => exact .onDev h
  | acceptReceive => exact .onDev h
  | refuseReceive => exact .onDev h
  | deaccedeReceive => exact .onDev h
  | deaccedeAckReceive => exact .onDev h
  | accessionTimeout => exact .onDev h
  | accedeHoldExpiry => exact .onDev h
  | idleClose => exact .onDev h
  | drainComplete => exact .onDev h
  | segmentReceive => exact .next (.onBoth (.segmentIn h))
  | receiptTimer => exact .onDev h
  | receiptReceive => exact .onDev h
  | retransmissionTimeout => exact .onDev h
  | stackFailure => exact .onDev h
  | annexRelocate => exact .onDev h
  | resilverComplete => exact .onDev h
  | quarterContextEnd => exact .onDev h
  | bufferReturn => exact .onDev h
  | poolEnable => exact .mayDev h
  | servoSample => exact .onDev h
  | sourceLost => exact .onDev h
  | ptpMessageReceive => exact .execPtpMessageReceive h
  | ptpSyncSend => exact .onDev h
  | ptpRelay => exact .next (.onBoth (.relay h))
  | timeAdjStep => exact .onDev h
  | timeAdjSlew => exact .onDev h
  | timeAdjSet => exact .onDev h
  | steerWrite => exact .onDev h
  | domainEnable => exact .onDev h
  | timeNowRead => exact .onDev h
  | ppsOutPulse => exact .onDev h
  | todOutSend => exact .onDev h
  | ppsInEdge => exact .onDev h
  | todInMessage => exact .onDev h
  | todInTimeout => exact .onDev h
  | leapEvent => exact .onDev h
  | markReceive => exact .onDev h
  | echoReceive => exact .onDev h
  | anchorVisit => exact .onDev h
  | itineraryNop => exact .onDev h
  | retune => exact .onDev h
  | windowOpen => exact .onDev h
  | windowClose => exact .onDev h
  | park => exact .onDev h
  | wake => exact .onDev h
  | phaseStart => exact .execPhaseStart h
  | heaterFf => exact .onDev h
  | heaterPulseEnd => exact .onDev h
  | guardEnd => exact .onDev h
  | fineLock => exact .onDev h
  | receiverRelock => exact .onDev h
  | coldAcquisition => exact .onDev h
  | parkCancelReceive => exact .onDev h
  | wakeRequest => exact .mayDev h
  | wakeSlot => exact .onDev h
  | wakeCheckExpiry => exact .onDev h
  | returnReceive => exact .onDev h
  | returnAckReceive => exact .onDev h
  | carrierRejoin => exact .onDev h
  | relockAttempt => exact .onDev h
  | announceReceive => exact .onDev h
  | cancelReceive => exact .onDev h
  | commitPoint => exact .onDev h
  | pageActivate => exact .onDev h
  | catalogueActivate => exact .onDev h
  | itinCancel => exact .mayDev h
  | catCancel => exact .mayDev h
  | cepHoldEnd => exact .onDev h
  | itinPageDataRead => exact .mayDev h
  | catDataRead => exact .mayDev h
  | connectorChange => exact .onDev h
  | connectorSettle => exact .onDev h
  | fibreLos => exact .onDev h
  | picTempDeviation => exact .onDev h
  | pathReportReceive => exact .onDev h
  | monitorSample => exact .onDev h
  | pathClear => exact .mayDev h
  | pathClearAll => exact .mayDev h
  | carrierCfgWrite => exact .mayDev h
  | receiverLockLoss => exact .onDev h
  | frameTransmit => exact .onDev h
  | frameReceive => exact .onDev h
  | carrierOutReceive => exact .onDev h
  | pmSecond => exact .onDev h
  | initReceive => exact .onDev h
  | replyReceive => exact .onDev h
  | finishReceive => exact .onDev h
  | doneReceive => exact .onDev h
  | alertReceive => exact .onDev h
  | sealReassemblyTimeout => exact .onDev h
  | sealRetry => exact .onDev h
  | commitSvn => exact .onDev h
  | opkeyProgram => exact .onDev h
  | credInstall => exact .onDev h
  | attest => exact .onDev h
  | sealPeer => exact .onDev h
  | dbgChallenge => exact .onDev h
  | dbgUnlock => exact .onDev h
  | dbgLock => exact .onDev h
  | rehash => exact .onDev h
  | rma => exact .onDev h
  | selftest => exact .onDev h
  | load => exact .onDev h
  | loadWrapped => exact .onDev h
  | clear => exact .onDev h
  | setKek => exact .onDev h
  | vtTenWrite => exact .onDev h
  | tamperSensorTrip => exact .onDev h
  | trngRecovery => exact .onDev h
  | powerGate => exact .onDev h
  | powerUngate => exact .onDev h
  | gateDeferEnd => exact .onDev h
  | clusterPowerLoss => exact .onDev h
  | lrmReadResp => exact .execLrmReadResp h
  | lrmWriteAck => exact .execLrmWriteAck h
  | lrmDoorbell => exact .execLrmDoorbell h
  | lrmCnp => exact .execLrmCnp h
  | lrmNak => exact .execLrmNak h
  | lrmRetryTimeout => exact .onDev h
  | portStateChange => exact .onDev h
  | rateIncrease => exact .onDev h
  | schedulingSelection => exact .execSchedulingSelection h
  | queueSample => exact .onDev h
  | fabQsDataRead => exact .onDev h
  | flitInject => exact .onDev h
  | flitArrive => exact .onDev h
  | skewCheck => exact .onDev h
  | powerOn => exact .next (.onBoth (.powerOnReset h))
  | powerRailFault => exact .execPowerRailFault h
  | resetNAssert => exact .next (.iteMem h (.iteMem h h))
  | resetRelease => exact .mayDev h
  | cfgSenseConversion => exact .onDev h
  | bootSelftestDone => exact .onDev h
  | imageCheck => exact .onDev h
  | bootInitDone => exact .onDev h
  | pcieConfigReady => exact .onDev h
  | hostDownload => exact .onDev h
  | downloadTimeout => exact .onDev h
  | powerTargetWrite => exact .onDev h
  | powerMoveDone => exact .execPowerMoveDone h
  | throttle => exact .onDev h
  | junction125c => exact .onDev h
  | pllLockLoss => exact .onDev h
  | tourEngineReset => exact .onDev h
  | codecStagingReset => exact .onDev h
  | cipherClusterReset => exact .onDev h
  | kwaveEngineReset => exact .onDev h
  | fabricPortReset => exact .onDev h
  | courierChannelReset => exact .onDev h
  | blockResetDone => exact .onDev h
  | version => exact .onDev h
  | flashWrite => exact .onDev h
  | calRead => exact .onDev h
  | logRead => exact .onDev h
  | mailboxComplete => exact .onDev h
  | heartbeat => exact .onDev h
  | alarmWindowClose => exact .execAlarmWindowClose h
  | peerSuspect => exact .onDev h
  | peerLeaseExpiry => exact .onDev h
  | vouch => exact .onDev h
  | condemn => exact .onDev h
  | noteReceive => exact .onDev h
  | marginSample => exact .onDev h
  | trendFit => exact .onDev h
  | healthMdataRead => exact .onDev h
  | transmitterLockLoss => exact .onDev h
  | wingFault => exact .onDev h
  | eicFault => exact .onDev h
  | curatorFirmwareStop => exact .onDev h
  | holdoverTrustLoss => exact .onDev h
  | ppsInMissing => exact .onDev h
  | referenceLost => exact .onDev h
  | throttleRelease => exact .onDev h
  | pcieReadCompletion => exact .execPcieReadCompletion h
  | bpmPoolStatRead => exact .mayDev h
  | pinnedChunkWaitExpiry => exact .onDev h

/-- Settles O5: memory changes by writes of bytes and by losses of power alone, and both keep it canonical. -/
theorem stepKeepsMemoryCanonical : Obligations.StepKeepsMemoryCanonical := by
  intro s t h hs
  suffices hn : NextCanon (step s) from hn t hs
  unfold Machine.step
  split
  · exact .onDev h
  · exact .exec h

end Sys2Proof.Laws
end

section
/-! Doorbells (R59 to R61, R66): what a ring doorbell and a queue doorbell do, one equation per case. -/

namespace Sys2Proof.Laws
-- One theorem after another: a thread of its own for each passes the memory that the whole text may take.
set_option Elab.async false

open Sys2Proof Sys2Proof.Machine

variable {d e : Dev} {n q index loc src f : Nat} {s t : State} {m : List Host.Cell}

/-! ### Commands that complete -/

/-- A command that changes the block alone completes with the block that its function answers. -/
theorem completes_onDev {c : Instr} {g : Dev → Dev} {P : State → Prop} (hexec : exec c s = .next (s.onDev g)) (hr : g s.dev = e)
    (hP : P { s with dev := e }) : Completes c s P := ⟨_, by rw [hexec, State.onDev, hr], hP⟩

/-- A command that changes the block and memory completes with the two that its function answers. -/
theorem completes_onBoth {c : Instr} {g : Dev → List Host.Cell → Dev × List Host.Cell} {P : State → Prop}
    (hexec : exec c s = .next (s.onBoth g)) (hr : g s.dev s.mem = (e, m)) (hP : P { s with dev := e, mem := m }) : Completes c s P :=
  ⟨_, by rw [hexec, State.onBoth, hr], hP⟩

/-! ### Indices -/

theorem idxSub_of_lt {a b : Nat} (h : b < 2 ^ 32) : idxSub a b = (a + 2 ^ 32 - b) % 2 ^ 32 := by
  unfold idxSub
  rw [Nat.mod_eq_of_lt h]

theorem sqFill_eq : d.sqFill n = (d.f R.SQ_STATE.TAIL n + 2 ^ 32 - d.f R.SQ_STATE.HEAD n) % 2 ^ 32 := idxSub_of_lt (f_lt d R.SQ_STATE.HEAD n)
theorem cqUsed_eq : d.cqUsed q = (d.f R.CQ_STATE.TAIL q + 2 ^ 32 - d.f R.CQ_STATE.HEAD q) % 2 ^ 32 := idxSub_of_lt (f_lt d R.CQ_STATE.HEAD q)

/-! ### Ring doorbells -/

/-- INDEX neither moves TAIL backward nor past the ring's size (R61). -/
abbrev RingInRange (d : Dev) (n index : Nat) : Prop :=
  (d.f R.SQ_STATE.TAIL n + 2 ^ 32 - d.f R.SQ_STATE.HEAD n) % 2 ^ 32 ≤ (index + 2 ^ 32 - d.f R.SQ_STATE.HEAD n) % 2 ^ 32 ∧
    (index + 2 ^ 32 - d.f R.SQ_STATE.HEAD n) % 2 ^ 32 ≤ 2 ^ d.f R.SQ_CTL.SIZE_LOG n

theorem sqDoorbell_inRange (h : RingInRange d n index) : d.sqDoorbell n index = d.set R.SQ_STATE.TAIL n index := by
  unfold Dev.sqDoorbell
  rw [sqFill_eq, idxSub_of_lt (f_lt d R.SQ_STATE.HEAD n)]
  exact if_pos h

theorem sqDoorbell_outOfRange (h : ¬ RingInRange d n index) : d.sqDoorbell n index = d.set R.SQ_ERR.DB_RANGE n 1 := by
  unfold Dev.sqDoorbell
  rw [sqFill_eq, idxSub_of_lt (f_lt d R.SQ_STATE.HEAD n)]
  exact if_neg h

theorem ringDoorbell_enabled (hloc : d.f R.SQ_CTL.LOC n = loc) (hsrc : d.f R.SQ_BIND.SRC n = src) (hon : d.f R.SQ_CTL.ENABLE n = 1)
    (htear : (d.ring n).tear = 0) : d.ringDoorbell loc src n index = d.sqDoorbell n index := by
  unfold Dev.ringDoorbell
  rw [if_pos ⟨hloc, hsrc⟩, if_neg (by simp [htear]), if_pos (on_of_f hon)]

theorem ringDoorbell_tearing (hloc : d.f R.SQ_CTL.LOC n = loc) (hsrc : d.f R.SQ_BIND.SRC n = src) (htear : (d.ring n).tear ≠ 0) :
    d.ringDoorbell loc src n index = d.set R.SQ_ERR.DB_RANGE n 1 := by
  unfold Dev.ringDoorbell
  rw [if_pos ⟨hloc, hsrc⟩, if_pos htear]

theorem ringDoorbell_dropped (h : d.f R.SQ_CTL.LOC n ≠ loc ∨ d.f R.SQ_BIND.SRC n ≠ src ∨ d.f R.SQ_CTL.ENABLE n = 0 ∧ (d.ring n).tear = 0) :
    d.ringDoorbell loc src n index = d.dbDrop := by
  unfold Dev.ringDoorbell
  by_cases hm : d.f R.SQ_CTL.LOC n = loc ∧ d.f R.SQ_BIND.SRC n = src
  · obtain ⟨hoff, htear⟩ := (h.resolve_left (not_not.2 hm.1)).resolve_left (not_not.2 hm.2)
    rw [if_pos hm, if_neg (by simp [htear]), if_neg (by simp [Dev.on, hoff])]
  · rw [if_neg hm]

/-- What an 8-byte doorbell at its place does once the gateway is READY. -/
theorem exec_ringDoorbell_ready {f : Fin 256} {n : Fin 4096} {index : BitVec 32} (hs : s.dev.f R.SYS_BOOT.STATE = 4) :
    exec (.ringDoorbell f n ⟨0, 8⟩ index) s = .next (s.onDev (fun d => d.ringDoorbell 0 f n index.toNat)) := by
  change execRingDoorbell f n ⟨0, 8⟩ index s = _
  unfold execRingDoorbell
  rw [if_pos (by simp [Dev.doorbellHit, ready_of hs])]

theorem head_sqDoorbell : (d.sqDoorbell n index).f R.SQ_STATE.HEAD n = d.f R.SQ_STATE.HEAD n := by
  by_cases h : RingInRange d n index
  · rw [sqDoorbell_inRange h, f_set_apart _ _ _ _ _ _ (.inr (.inr (by decide)))]
  · rw [sqDoorbell_outOfRange h, f_set_apart _ _ _ _ _ _ (.inl (by simp only [Fld.key]; omega))]

theorem tail_sqDoorbell (hi : index < 2 ^ 32) {inst : Decidable (RingInRange d n index)} :
    (d.sqDoorbell n index).f R.SQ_STATE.TAIL n = if RingInRange d n index then index else d.f R.SQ_STATE.TAIL n := by
  by_cases h : RingInRange d n index
  · rw [if_pos h, sqDoorbell_inRange h, f_set_same _ _ _ _ (by decide)]
    exact Nat.mod_eq_of_lt hi
  · rw [if_neg h, sqDoorbell_outOfRange h, f_set_apart _ _ _ _ _ _ (.inl (by simp only [Fld.key]; omega))]

theorem range_sqDoorbell {inst : Decidable (RingInRange d n index)} :
    (d.sqDoorbell n index).f R.SQ_ERR.DB_RANGE n = if RingInRange d n index then d.f R.SQ_ERR.DB_RANGE n else 1 := by
  by_cases h : RingInRange d n index
  · rw [if_pos h, sqDoorbell_inRange h, f_set_apart _ _ _ _ _ _ (.inl (by simp only [Fld.key]; omega))]
  · rw [if_neg h, sqDoorbell_outOfRange h]
    exact f_set_same _ _ _ _ (by decide)

theorem parts_sqDoorbell : SameParts d (d.sqDoorbell n index) := by
  unfold Dev.sqDoorbell
  dsimp only
  split <;> exact sameParts_set ..

theorem word_sqDoorbell {k : Nat} (hk : k ∉ [R.SQ_STATE.TAIL.key n, R.SQ_ERR.DB_RANGE.key n]) : (d.sqDoorbell n index).word k = d.word k := by
  unfold Dev.sqDoorbell
  dsimp only
  split <;> exact word_frame_set (fun _ _ => rfl) _ _ _ (by simp) k hk

/-! ### Queue doorbells -/

/-- INDEX does not move HEAD past TAIL (R61). -/
abbrev QueueInRange (d : Dev) (q index : Nat) : Prop :=
  (index + 2 ^ 32 - d.f R.CQ_STATE.HEAD q) % 2 ^ 32 ≤ (d.f R.CQ_STATE.TAIL q + 2 ^ 32 - d.f R.CQ_STATE.HEAD q) % 2 ^ 32

/-- Records that wait behind INDEX. -/
def waitingAt (d : Dev) (q index : Nat) : Nat := (d.f R.CQ_STATE.TAIL q + 2 ^ 32 - index) % 2 ^ 32

/-- The unit of a queue re-armed with p records that wait (R66). -/
def armedWith (d : Dev) (q p : Nat) : CqX := { armed := true, p := p, timer := if 0 < p then d.cqTimer q else none }

/-- A queue re-armed at INDEX (R66). -/
def rearmed (d : Dev) (q index : Nat) : Dev := (d.set R.CQ_STATE.HEAD q index).setCq q (armedWith d q (waitingAt d q index))

/-- A queue disarmed, its timer stopped (R66). -/
def disarmed (d : Dev) (q : Nat) : Dev := d.setCq q { d.cq q with armed := false, p := 0, timer := none }

theorem cqUsed_setHead (hi : index < 2 ^ 32) : (d.set R.CQ_STATE.HEAD q index).cqUsed q = waitingAt d q index := by
  rw [cqUsed_eq, f_set_same _ _ _ _ (by decide), Nat.mod_eq_of_lt hi, f_set_apart _ _ _ _ _ _ (.inr (.inr (by decide)))]
  rfl

theorem cqCount_rearmed : (rearmed d q index).cqCount q = d.cqCount q :=
  congrArg (max · 1) (f_set_apart _ _ _ _ _ _ (.inl (by simp only [Fld.key]; omega)))

theorem cqDoorbell_inRange (hi : index < 2 ^ 32) (h : QueueInRange d q index) :
    cqDoorbell q index d m = if d.cqCount q ≤ waitingAt d q index then cqFire q (rearmed d q index) m else (rearmed d q index, m) := by
  have hr : idxSub index (d.f R.CQ_STATE.HEAD q) ≤ d.cqUsed q := by rwa [idxSub_of_lt (f_lt d R.CQ_STATE.HEAD q), cqUsed_eq]
  unfold cqDoorbell
  rw [if_pos hr]
  dsimp only
  rw [cqUsed_setHead hi]
  exact congrArg (fun c => if c ≤ waitingAt d q index then cqFire q (rearmed d q index) m else (rearmed d q index, m)) cqCount_rearmed

theorem cqDoorbell_outOfRange (h : ¬ QueueInRange d q index) : cqDoorbell q index d m = (d.set R.CQ_ERR.DB_RANGE q 1, m) := by
  have hr : ¬ idxSub index (d.f R.CQ_STATE.HEAD q) ≤ d.cqUsed q := by rwa [idxSub_of_lt (f_lt d R.CQ_STATE.HEAD q), cqUsed_eq]
  exact if_neg hr

theorem isSome_armedWith {p : Nat} : (armedWith d q p).timer.isSome = decide (0 < p) := by
  unfold armedWith
  dsimp only
  split
  · next hp => exact (decide_eq_true hp).symm
  · next hp => exact (decide_eq_false hp).symm

theorem cqFire_host (hloc : d.f R.CQ_CTL.LOC q = 0) :
    cqFire q d m = ((disarmed d q).sendMsix (d.f R.CQ_BIND.DST q) (d.f R.CQ_CTL.VECTOR q), m) := if_pos hloc

theorem cqFire_rearmed_host (hloc : d.f R.CQ_CTL.LOC q = 0) :
    cqFire q (rearmed d q index) m =
      ((disarmed (rearmed d q index) q).sendMsix (d.f R.CQ_BIND.DST q) (d.f R.CQ_CTL.VECTOR q), m) := by
  have hf {x : Fld} (hx : x.key q ≠ R.CQ_STATE.HEAD.key q) : (rearmed d q index).f x q = d.f x q := f_set_apart _ _ _ _ _ _ (.inl hx)
  rw [cqFire_host ((hf (by simp only [Fld.key]; omega)).trans hloc), hf (by simp only [Fld.key]; omega), hf (by simp only [Fld.key]; omega)]

theorem queueDoorbell_enabled (hloc : d.f R.CQ_CTL.LOC q = loc) (hdst : d.f R.CQ_BIND.DST q = src) (hon : d.f R.CQ_CTL.ENABLE q = 1) :
    queueDoorbell loc src q index d m = cqDoorbell q index d m := if_pos ⟨hloc, hdst, on_of_f hon⟩

theorem queueDoorbell_dropped (h : d.f R.CQ_CTL.LOC q ≠ loc ∨ d.f R.CQ_BIND.DST q ≠ src ∨ d.f R.CQ_CTL.ENABLE q = 0) :
    queueDoorbell loc src q index d m = (d.dbDrop, m) := by
  refine if_neg (fun ⟨hloc, hdst, hon⟩ => ?_)
  have hoff := (h.resolve_left (not_not.2 hloc)).resolve_left (not_not.2 hdst)
  simp [Dev.on, hoff] at hon

theorem exec_queueDoorbell_ready {f : Fin 256} {q : Fin 4096} {index : BitVec 32} (hs : s.dev.f R.SYS_BOOT.STATE = 4) :
    exec (.queueDoorbell f q ⟨8, 8⟩ index) s = .next (s.onBoth (queueDoorbell 0 f q index.toNat)) := by
  change execQueueDoorbell f q ⟨8, 8⟩ index s = _
  unfold execQueueDoorbell
  rw [if_pos (by simp [Dev.doorbellHit, ready_of hs])]

/-! ### Messages of vectors -/

theorem sendMsix_cq (f v : Nat) : (d.sendMsix f v).cq q = d.cq q := by
  rcases sendMsix_cases d f v with ⟨-, l, -, h⟩ | ⟨-, h⟩ <;> rw [h] <;> rfl

theorem msixSent_sendMsix {v : Nat} (ht : t.dev = e.sendMsix f v) (hout : e.out = s.dev.out) (hmsix : e.msix = s.dev.msix) :
    MsixSent s t f v := by
  unfold MsixSent
  rw [ht, ← hout, ← hmsix]
  rcases sendMsix_cases e f v with ⟨hm, l, hl, he⟩ | ⟨hm, he⟩
  · rw [if_pos (by simpa using hm), he]
    exact ⟨rfl, by simpa using hl⟩
  · rw [if_neg (by simpa using hm), he]
    rfl

/-! ### The statements -/

/-- An accepted doorbell of a host queue only moves HEAD among the words, whether or not it fires the queue (R61, R66). -/
theorem words_cqDoorbell_inRange (hi : index < 2 ^ 32) (hloc : d.f R.CQ_CTL.LOC q = 0) (h : QueueInRange d q index) :
    (cqDoorbell q index d m).1.words = (d.set R.CQ_STATE.HEAD q index).words := by
  rw [cqDoorbell_inRange hi h, cqFire_rearmed_host hloc]
  split
  · exact sendMsix_words ..
  · rfl

section
variable {m' : List Host.Cell} (hi : index < 2 ^ 32) (hloc : d.f R.CQ_CTL.LOC q = 0) (hr : cqDoorbell q index d m = (e, m'))
include hi hloc hr

theorem words_of_cqDoorbell_inRange (h : QueueInRange d q index) : e.words = (d.set R.CQ_STATE.HEAD q index).words := by
  rw [← words_cqDoorbell_inRange (m := m) hi hloc h, hr]

theorem mem_of_cqDoorbell : m' = m := by
  by_cases h : QueueInRange d q index
  · rw [cqDoorbell_inRange hi h, cqFire_rearmed_host hloc] at hr
    split at hr <;> exact (congrArg Prod.snd hr).symm
  · rw [cqDoorbell_outOfRange h] at hr
    exact (congrArg Prod.snd hr).symm

theorem tail_of_cqDoorbell : e.f R.CQ_STATE.TAIL q = d.f R.CQ_STATE.TAIL q := by
  by_cases h : QueueInRange d q index
  · rw [f_congr _ (words_of_cqDoorbell_inRange hi hloc hr h), f_set_apart _ _ _ _ _ _ (.inr (.inr (by decide)))]
  · rw [cqDoorbell_outOfRange h] at hr
    have he : d.set R.CQ_ERR.DB_RANGE q 1 = e := congrArg Prod.fst hr
    rw [← he, f_set_apart _ _ _ _ _ _ (.inl (by simp only [Fld.key]; omega))]

theorem head_of_cqDoorbell {inst : Decidable (QueueInRange d q index)} :
    e.f R.CQ_STATE.HEAD q = if QueueInRange d q index then index else d.f R.CQ_STATE.HEAD q := by
  by_cases h : QueueInRange d q index
  · rw [if_pos h, f_congr _ (words_of_cqDoorbell_inRange hi hloc hr h), f_set_same _ _ _ _ (by decide)]
    exact Nat.mod_eq_of_lt hi
  · rw [cqDoorbell_outOfRange h] at hr
    have he : d.set R.CQ_ERR.DB_RANGE q 1 = e := congrArg Prod.fst hr
    rw [if_neg h, ← he, f_set_apart _ _ _ _ _ _ (.inl (by simp only [Fld.key]; omega))]

theorem range_of_cqDoorbell {inst : Decidable (QueueInRange d q index)} :
    e.f R.CQ_ERR.DB_RANGE q = if QueueInRange d q index then d.f R.CQ_ERR.DB_RANGE q else 1 := by
  by_cases h : QueueInRange d q index
  · rw [if_pos h, f_congr _ (words_of_cqDoorbell_inRange hi hloc hr h), f_set_apart _ _ _ _ _ _ (.inl (by simp only [Fld.key]; omega))]
  · rw [cqDoorbell_outOfRange h] at hr
    have he : d.set R.CQ_ERR.DB_RANGE q 1 = e := congrArg Prod.fst hr
    rw [if_neg h, ← he]
    exact f_set_same _ _ _ _ (by decide)

theorem word_of_cqDoorbell {k : Nat} (hk : k ∉ [R.CQ_STATE.HEAD.key q, R.CQ_ERR.DB_RANGE.key q]) : e.word k = d.word k := by
  by_cases h : QueueInRange d q index
  · unfold Dev.word
    rw [words_of_cqDoorbell_inRange hi hloc hr h]
    exact word_frame_set (fun _ _ => rfl) _ _ _ (by simp) k hk
  · rw [cqDoorbell_outOfRange h] at hr
    have he : d.set R.CQ_ERR.DB_RANGE q 1 = e := congrArg Prod.fst hr
    rw [← he]
    exact word_frame_set (fun _ _ => rfl) _ _ _ (by simp) k hk
end

theorem parts_of_cqDoorbell {m' : List Host.Cell} (hr : cqDoorbell q index d m = (e, m')) (h : ¬ QueueInRange d q index) : SameParts d e := by
  rw [cqDoorbell_outOfRange h] at hr
  have he : d.set R.CQ_ERR.DB_RANGE q 1 = e := congrArg Prod.fst hr
  rw [← he]
  exact sameParts_set ..

/-- Settles O13: one equation for an INDEX in range and one for any other, for a ring and for a queue. -/
theorem doorbellsMoveTheirIndex : Obligations.DoorbellsMoveTheirIndex := by
  unfold Obligations.DoorbellsMoveTheirIndex
  refine ⟨?_, ?_⟩
  · intro f n index s hs hloc hsrc hon htear
    refine completes_onDev (exec_ringDoorbell_ready hs) (ringDoorbell_enabled hloc hsrc hon htear) ?_
    exact ⟨head_sqDoorbell, tail_sqDoorbell index.isLt, range_sqDoorbell, sameMem_of_eq rfl, parts_sqDoorbell, fun _ => word_sqDoorbell⟩
  · intro f q index s hs hloc hdst hon
    obtain ⟨e, m, hr⟩ : ∃ e m, cqDoorbell q index.toNat s.dev s.mem = (e, m) := ⟨_, _, Prod.mk.eta.symm⟩
    refine completes_onBoth (exec_queueDoorbell_ready hs) ((queueDoorbell_enabled hloc hdst hon).trans hr) ?_
    exact ⟨tail_of_cqDoorbell index.isLt hloc hr, head_of_cqDoorbell index.isLt hloc hr, range_of_cqDoorbell index.isLt hloc hr,
      parts_of_cqDoorbell hr, sameMem_of_eq (mem_of_cqDoorbell index.isLt hloc hr), fun _ => word_of_cqDoorbell index.isLt hloc hr⟩

/-- Settles O14: a doorbell elsewhere never reaches a queue, one without a match only counts, one in a teardown only sets DB_RANGE. -/
theorem doorbellsToNoQueueAreDropped : Obligations.DoorbellsToNoQueueAreDropped := by
  unfold Obligations.DoorbellsToNoQueueAreDropped
  have hcount (s : State) : s.dev.dbDrop.f R.RING_GERR.DB_DROP = min (s.dev.f R.RING_GERR.DB_DROP + 1) (2 ^ 32 - 1) :=
    f_bump_same s.dev R.RING_GERR.DB_DROP 0 1 (by decide)
  have hwords (s : State) : ∀ k, k ∉ [R.RING_GERR.DB_DROP.key 0] → s.dev.dbDrop.word k = s.dev.word k :=
    word_frame_set (fun _ _ => rfl) _ _ _ (by simp)
  refine ⟨?_, ?_, ?_, ?_⟩
  · intro f n off size index s
    refine ⟨fun h => ?_, fun h => ?_⟩
    · have hmiss : s.dev.doorbellHit 0 ⟨off, size⟩ = false := by
        unfold Dev.doorbellHit
        rcases h with h | h <;> simp [h]
      exact congrArg Host.Outcome.next (if_neg (by simp [hmiss]))
    · have hmiss : s.dev.doorbellHit 8 ⟨off, size⟩ = false := by
        unfold Dev.doorbellHit
        rcases h with h | h <;> simp [h]
      exact congrArg Host.Outcome.next (if_neg (by simp [hmiss]))
  · intro f n index s hs h
    refine completes_onDev (exec_ringDoorbell_ready hs) (ringDoorbell_dropped (h.imp_left (fun h1 => by omega))) ?_
    exact ⟨hcount s, sameMem_of_eq rfl, rfl, hwords s⟩
  · intro f q index s hs h
    refine completes_onBoth (exec_queueDoorbell_ready hs) (queueDoorbell_dropped (h.imp_left (fun h1 => by omega))) ?_
    exact ⟨hcount s, sameMem_of_eq rfl, rfl, hwords s⟩
  · intro f n index s hs hloc hsrc htear
    refine completes_onDev (exec_ringDoorbell_ready hs) (ringDoorbell_tearing hloc hsrc htear) ?_
    exact ⟨f_set_same _ _ _ _ (by decide), sameMem_of_eq rfl, rfl, word_frame_set (fun _ _ => rfl) _ _ _ (by simp)⟩

theorem cqExpired_iff {t0 time : Nat} (h : (d.cq q).timer = some (t0, time)) :
    d.cqExpired q = true ↔ time ≠ 0 ∧ 1000 * time ≤ d.now - t0 := by
  unfold Dev.cqExpired
  rw [h]
  simp only [Dev.since, Bool.and_eq_true, bne_iff_ne]
  exact and_congr_right (fun _ => decide_eq_true_iff)

/-- Settles O15: an accepted doorbell re-arms the queue and fires it where enough records wait; the timer fires it or only stops. -/
theorem queuesRearmAndFire : Obligations.QueuesRearmAndFire := by
  unfold Obligations.QueuesRearmAndFire
  refine ⟨?_, ?_, ?_⟩
  · intro f q index s hs hloc hdst hon hrange
    have hr : cqDoorbell q index.toNat s.dev s.mem = _ :=
      (cqDoorbell_inRange index.isLt hrange).trans (if_congr Iff.rfl (cqFire_rearmed_host hloc) rfl)
    have hwords := word_frame_set (d := s.dev) (fun _ _ => rfl) R.CQ_STATE.HEAD q index.toNat (l := [R.CQ_STATE.HEAD.key q]) (by simp)
    by_cases h : s.dev.cqCount q ≤ waitingAt s.dev q index.toNat
    · rw [if_pos h] at hr
      refine completes_onBoth (exec_queueDoorbell_ready hs) ((queueDoorbell_enabled hloc hdst hon).trans hr) ?_
      refine ⟨sameMem_of_eq rfl, fun k hk => (word_sendMsix ..).trans (hwords k hk), (if_neg (not_lt.2 h)).symm ▸ ?_⟩
      simp only [sendMsix_cq]
      refine ⟨?_, ?_, ?_, msixSent_sendMsix rfl rfl rfl⟩ <;> simp [disarmed]
    · rw [if_neg h] at hr
      refine completes_onBoth (exec_queueDoorbell_ready hs) ((queueDoorbell_enabled hloc hdst hon).trans hr) ?_
      refine ⟨sameMem_of_eq rfl, hwords, (if_pos (not_le.1 h)).symm ▸ ?_⟩
      have hcq : (rearmed s.dev q index.toNat).cq q = armedWith s.dev q (waitingAt s.dev q index.toNat) := (cq_setCq ..).trans (if_pos rfl)
      dsimp only
      rw [hcq]
      exact ⟨rfl, rfl, isSome_armedWith, rfl⟩
  · intro q t0 time s htimer htime hpast hloc
    have hexp : s.dev.cqExpired q = true := (cqExpired_iff htimer).2 ⟨htime, hpast⟩
    by_cases h : (s.dev.cq q).armed = true ∧ 0 < (s.dev.cq q).p
    · have hexec : exec (.coalescingTimer q) s = .next (s.onBoth (cqFire q)) := (if_pos hexp).trans (if_pos h)
      refine completes_onBoth hexec (cqFire_host hloc) ?_
      dsimp only
      rw [if_pos h]
      simp only [sendMsix_cq]
      refine ⟨?_, sameMem_of_eq rfl, fun k _ => word_sendMsix .., ?_, ?_, msixSent_sendMsix rfl rfl rfl⟩ <;> simp [disarmed]
    · have hexec : exec (.coalescingTimer q) s = .next (s.onDev (fun d => d.setCq q { d.cq q with timer := none })) :=
        (if_pos hexp).trans (if_neg h)
      refine completes_onDev hexec rfl ?_
      dsimp only
      rw [if_neg h]
      refine ⟨?_, sameMem_of_eq rfl, fun _ _ => rfl, ?_, ?_, rfl⟩ <;> simp
  · intro q t0 time s htimer hearly
    exact ⟨s, if_neg (fun h => absurd ((cqExpired_iff htimer).1 h).2 (not_le.2 hearly)), rfl⟩

end Sys2Proof.Laws
end

section
/-! Records of a queue (R65 to R67): the words that a record's write moves, and the bytes it leaves in host memory. -/

namespace Sys2Proof.Laws
-- One theorem after another: a thread of its own for each passes the memory that the whole text may take.
set_option Elab.async false

open Sys2Proof Sys2Proof.Machine

variable {d e : Dev} {n q k : Nat} {r : Rec} {ok irq : Bool} {s : State} {m : List Host.Cell}

theorem f_drop_same {x : Fld} {i v : Nat} (h : x.lo + x.w ≤ 64) : (d.drop x i v).f x i = d.f x i - v := by
  unfold Dev.drop
  rw [f_set_same _ _ _ _ h, Nat.mod_eq_of_lt (lt_of_le_of_lt (Nat.sub_le _ _) (f_lt d x i))]

theorem cqOf_lt : d.f R.SQ_CTL.CQ n < 4096 := f_lt d R.SQ_CTL.CQ n

theorem idxAdd_lt (a b : Nat) : idxAdd a b < 2 ^ 32 := Nat.mod_lt _ (Nat.two_pow_pos 32)

@[simp] theorem length_recBytes (p : Nat) : (recBytes r p).length = 32 := by simp [recBytes]

/-! ### What a record's write moves -/

theorem word_cqFire (hk : OffPorts k) : (cqFire q d m).1.word k = d.word k := by
  unfold cqFire
  dsimp only
  split
  · exact word_sendMsix ..
  · exact word_nodeWrite _ _ _ _ _ _ hk

theorem word_cqWritten (hk : OffPorts k) : (cqWritten q irq d m).1.word k = d.word k := by
  unfold cqWritten
  dsimp only
  split
  · split
    · exact word_cqFire hk
    · rfl
  · rfl

/-- A block once record i of a queue is on its way: only a failed write leaves a bit in CQ_ERR, and TAIL and its retained copy follow. -/
def recordSent (q : Nat) (r : Rec) (ok : Bool) (d : Dev) (m : List Host.Cell) : Dev × List Host.Cell × Nat :=
  if ok then nodeWrite (.record q) (d.f R.CQ_CTL.LOC q == 0) (d.f R.CQ_BIND.DST q)
      ((d.f R.CQ_BASE.ADDR q + 32 * (d.f R.CQ_STATE.TAIL q % 2 ^ d.f R.CQ_CTL.SIZE_LOG q)) % 2 ^ 64) (d.f R.CQ_CTL.TENANT q)
      (recBytes r (phaseOf (d.f R.CQ_CTL.SIZE_LOG q) (d.f R.CQ_STATE.TAIL q))) d m
  else (d.set R.CQ_ERR.WRITE q 1, m, 0)

/-- TAIL of a queue and its retained copy stand at i (R65, R67). -/
def tailMoved (q i : Nat) (d : Dev) : Dev := ((d.set R.CQ_STATE.TAIL q i).set R.RING_RETAIN.TAIL q i).set R.RING_RETAIN.VALID q 1

theorem writeRecord_eq : writeRecord q r ok d m =
    cqWritten q r.irq (tailMoved q (idxAdd (d.f R.CQ_STATE.TAIL q) 1) (recordSent q r ok d m).1) (recordSent q r ok d m).2.1 := rfl

theorem word_recordSent (hk : OffPorts k) (herr : k ≠ R.CQ_ERR.WRITE.key q) : (recordSent q r ok d m).1.word k = d.word k := by
  unfold recordSent
  split
  · exact word_nodeWrite _ _ _ _ _ _ hk
  · exact word_set_other _ _ _ _ herr

/-- A record's write leaves every word but those of its queue's TAIL, its retained copy and its error bits. -/
theorem word_writeRecord (hk : OffPorts k) (hl : k ∉ [R.CQ_STATE.TAIL.key q, R.RING_RETAIN.TAIL.key q, R.CQ_ERR.WRITE.key q]) :
    (writeRecord q r ok d m).1.word k = d.word k := by
  simp only [List.mem_cons, List.not_mem_nil, or_false, not_or] at hl
  obtain ⟨htail, hretain, herr⟩ := hl
  have hvalid : k ≠ R.RING_RETAIN.VALID.key q := hretain
  rw [writeRecord_eq, word_cqWritten hk]
  unfold tailMoved
  rw [word_set_other _ _ _ _ hvalid, word_set_other _ _ _ _ hretain, word_set_other _ _ _ _ htail, word_recordSent hk herr]

theorem tail_writeRecord (hq : q < 4096) : (writeRecord q r ok d m).1.f R.CQ_STATE.TAIL q = (d.f R.CQ_STATE.TAIL q + 1) % 2 ^ 32 := by
  rw [writeRecord_eq, f_of_word (word_cqWritten (offPorts_cq _ hq (by decide)))]
  unfold tailMoved
  rw [f_set_apart _ _ _ _ _ _ (.inl (by simp only [Fld.key]; omega)), f_set_apart _ _ _ _ _ _ (.inl (by simp only [Fld.key]; omega)),
    f_set_same _ _ _ _ (by decide)]
  exact Nat.mod_eq_of_lt (idxAdd_lt _ _)

/-! ### The bytes of a record in host memory -/

theorem mem_cqFire_host (hloc : d.f R.CQ_CTL.LOC q = 0) : (cqFire q d m).2 = m := by rw [cqFire_host hloc]

theorem mem_cqWritten_host (hloc : d.f R.CQ_CTL.LOC q = 0) : (cqWritten q irq d m).2 = m := by
  unfold cqWritten
  dsimp only
  split
  · split
    · exact mem_cqFire_host hloc
    · rfl
  · rfl

/-- Where the next record of a host queue stands (Table 2.6, R65). -/
def recordKey (d : Dev) (q : Nat) : Nat :=
  memKey (hostSpace (d.f R.CQ_BIND.DST q)) ((d.f R.CQ_BASE.ADDR q + 32 * (d.f R.CQ_STATE.TAIL q % 2 ^ d.f R.CQ_CTL.SIZE_LOG q)) % 2 ^ 64)

/-- The bytes of the next record of a queue. -/
def nextRecord (d : Dev) (q : Nat) (r : Rec) : List Byte := recBytes r (phaseOf (d.f R.CQ_CTL.SIZE_LOG q) (d.f R.CQ_STATE.TAIL q))

theorem mem_recordSent_host (hloc : d.f R.CQ_CTL.LOC q = 0) :
    (recordSent q r ok d m).2.1 = if ok then memWrite m (recordKey d q) (nextRecord d q r) else m := by
  unfold recordSent
  rw [hloc]
  split <;> rfl

theorem mem_writeRecord_host (hq : q < 4096) (hloc : d.f R.CQ_CTL.LOC q = 0) :
    (writeRecord q r ok d m).2 = if ok then memWrite m (recordKey d q) (nextRecord d q r) else m := by
  rw [writeRecord_eq, mem_cqWritten_host, mem_recordSent_host hloc]
  unfold tailMoved
  rw [f_set_apart _ _ _ _ _ _ (.inl (by simp only [Fld.key]; omega)), f_set_apart _ _ _ _ _ _ (.inl (by simp only [Fld.key]; omega)),
    f_set_apart _ _ _ _ _ _ (.inl (by simp only [Fld.key]; omega))]
  exact (f_of_word (word_recordSent (offPorts_cq _ hq (by decide)) (by simp only [Fld.key]; omega))).trans hloc

/-- Outside its slot a record of a host queue changes no byte. -/
theorem memGet_writeRecord_outside {a : Nat} (hq : q < 4096) (hloc : d.f R.CQ_CTL.LOC q = 0)
    (ha : a < recordKey d q ∨ recordKey d q + 32 ≤ a) : memGet (writeRecord q r ok d m).2 a = memGet m a := by
  rw [mem_writeRecord_host hq hloc]
  split
  · exact memGet_memWrite_outside _ _ _ _ (by simpa [nextRecord] using ha)
  · rfl

/-- A record whose write succeeds stands in its slot. -/
theorem memGet_writeRecord_inside {i : Nat} (hq : q < 4096) (hloc : d.f R.CQ_CTL.LOC q = 0) (hi : i < 32) :
    memGet (writeRecord q r true d m).2 (recordKey d q + i) = (nextRecord d q r).getD i 0 := by
  have hlen : i < (nextRecord d q r).length := by simpa [nextRecord] using hi
  rw [mem_writeRecord_host hq hloc, if_pos rfl, memGet_memWrite_inside _ _ _ _ hlen, List.getD_eq_getElem _ _ hlen]

/-! ### The bytes of a record -/

/-- A byte of the number that leBytes writes out. -/
theorem getD_leBytes {len v i : Nat} (h : i < len) : (leBytes len v).getD i 0 = BitVec.ofNat 8 (v / 2 ^ (8 * i)) := by
  rw [List.getD_eq_getElem _ _ (by simpa using h)]
  simp [leBytes]

/-- The first word of a record (Table 2.7). -/
def recHead (r : Rec) (p : Nat) : Nat :=
  p % 2 + 2 * (r.source % 8) + 2 ^ 8 * (r.opcode % 256) + 2 ^ 16 * (r.status % 256) + 2 ^ 24 * (r.detail % 256) + 2 ^ 32 * (r.userTag % 2 ^ 32)

theorem getD_recBytes_head {p i : Nat} (h : i < 8) : (recBytes r p).getD i 0 = BitVec.ofNat 8 (recHead r p / 2 ^ (8 * i)) := by
  unfold recBytes
  rw [List.getD_append _ _ _ _ (by simp; omega), List.getD_append _ _ _ _ (by simp; omega), List.getD_append _ _ _ _ (by simpa using h),
    getD_leBytes h]
  rfl

theorem status_recBytes (p : Nat) : (recBytes r p).getD 2 0 = BitVec.ofNat 8 r.status := by
  rw [getD_recBytes_head (by decide)]
  refine BitVec.eq_of_toNat_eq ?_
  rw [BitVec.toNat_ofNat, BitVec.toNat_ofNat]
  unfold recHead
  omega

theorem detail_recBytes (p : Nat) : (recBytes r p).getD 3 0 = BitVec.ofNat 8 r.detail := by
  rw [getD_recBytes_head (by decide)]
  refine BitVec.eq_of_toNat_eq ?_
  rw [BitVec.toNat_ofNat, BitVec.toNat_ofNat]
  unfold recHead
  omega

theorem ring_recBytes (p : Nat) : (recBytes r p).getD 8 0 = BitVec.ofNat 8 r.sq := by
  unfold recBytes
  rw [List.getD_append _ _ _ _ (by simp), List.getD_append _ _ _ _ (by simp), List.getD_append_right _ _ _ _ (by simp), length_leBytes,
    getD_leBytes (by decide)]
  refine BitVec.eq_of_toNat_eq ?_
  rw [BitVec.toNat_ofNat, BitVec.toNat_ofNat]
  omega

end Sys2Proof.Laws
end

section
/-! Fetches, failed fetches and teardowns of rings (R55 to R59, R63). -/

namespace Sys2Proof.Laws
-- One theorem after another: a thread of its own for each passes the memory that the whole text may take.
set_option Elab.async false

open Sys2Proof Sys2Proof.Machine

variable {d e : Dev} {n q k tag : Nat} {s : State} {m : List Host.Cell}

/-! ### Requests that stay outstanding -/

/-- The requests that are outstanding, and the next tag. -/
def asked (d : Dev) : List Req × Nat := (d.reqs, d.nextTag)

theorem asked_enqueue (p : Nat) (x : LrmOut) : asked (d.enqueue p x) = asked d := by
  unfold Dev.enqueue
  extract_lets old mark d1 d2 d3
  have h1 : asked d1 = asked d := by unfold d1; split <;> rfl
  have h2 : asked d2 = asked d1 := by unfold d2; split <;> rfl
  have h3 : asked d3 = asked d2 := by unfold d3; split <;> rfl
  exact h3.trans (h2.trans h1)

theorem asked_transmit (x : Req) : asked (d.transmit x) = asked d := by
  unfold Dev.transmit
  split
  · rfl
  · exact asked_enqueue _ _

/-- A read of memory is outstanding under the next tag. -/
theorem asked_read (use : ReqUse) (host : Bool) (node addr len : Nat) (data : List Byte) (tenant : Nat) :
    ∃ x, asked (d.request use false host node addr len data tenant) = (d.reqs ++ [x], (d.nextTag + 1) % 2 ^ 32) ∧
      x.tag = d.nextTag ∧ x.use = use ∧ x.len = len ∧ x.addr = addr := by
  unfold Dev.request
  extract_lets go x d1 d2
  refine ⟨x, ?_, rfl, rfl, rfl, rfl⟩
  rw [if_neg (by simp)]
  split
  · rfl
  · split
    · exact asked_transmit _
    · rfl

theorem ring_of_rings (h : e.rings = d.rings) : e.ring n = d.ring n := by unfold Dev.ring; rw [h]

/-! ### One fetch -/

/-- A block whose ring n reads k descriptors under the next tag, their slots reserved (R63). -/
def reading (d : Dev) (n k : Nat) : Dev :=
  (d.bump R.CQ_CREDIT.RESERVED (d.f R.SQ_CTL.CQ n) k).setRing n { d.ring n with reading := some (d.nextTag, k) }

theorem fetchFrom_eq : d.fetchFrom n k = (reading d n k).request (.fetch n) false (d.f R.SQ_CTL.LOC n == 0) (d.f R.SQ_BIND.SRC n)
    (d.slotAddr n (d.f R.SQ_STATE.HEAD n)) (64 * k) [] (d.f R.SQ_CTL.TENANT n) := rfl

theorem ring_fetchFrom : (d.fetchFrom n k).ring n = { d.ring n with reading := some (d.nextTag, k) } := by
  rw [fetchFrom_eq, ring_of_rings (sansLrm_rings (sansLrm_request ..))]
  exact (ring_setRing ..).trans (if_pos rfl)

theorem reserved_fetchFrom : (d.fetchFrom n k).f R.CQ_CREDIT.RESERVED (d.f R.SQ_CTL.CQ n) =
    min (d.f R.CQ_CREDIT.RESERVED (d.f R.SQ_CTL.CQ n) + k) (2 ^ 32 - 1) := by
  rw [fetchFrom_eq, f_of_word (word_request _ _ _ _ _ _ _ _ (offPorts_cq _ cqOf_lt (by decide)))]
  exact f_bump_same _ _ _ _ (by decide)

theorem asked_fetchFrom (d : Dev) (n k : Nat) : ∃ x, asked (d.fetchFrom n k) = (d.reqs ++ [x], (d.nextTag + 1) % 2 ^ 32) ∧
    x.tag = d.nextTag ∧ x.use = .fetch n ∧ x.len = 64 * k ∧ x.addr = d.slotAddr n (d.f R.SQ_STATE.HEAD n) :=
  asked_read (d := reading d n k) ..

/-- The read of a ring in host memory goes out at once (R55). -/
theorem fetchFrom_host (hloc : d.f R.SQ_CTL.LOC n = 0) :
    (d.fetchFrom n k).words = (reading d n k).words ∧
      (d.fetchFrom n k).out = d.out ++ [.hostRead d.nextTag (d.f R.SQ_BIND.SRC n) (d.slotAddr n (d.f R.SQ_STATE.HEAD n)) (64 * k)] := by
  rw [fetchFrom_eq, hloc]
  exact ⟨rfl, rfl⟩

/-- A block that has begun the fetch of ring n, the weighted round robin moved on (R56). -/
def fetching (d : Dev) (n : Nat) : Dev :=
  { d.fetchFrom n (d.fetchCount n) with wrr := (n, if d.wrr.1 = n then d.wrr.2 + 1 else 1) }

theorem exec_descriptorFetch (h : s.dev.selectRing = some n) : exec .descriptorFetch s = .next (s.onDev (fetching · n)) := by
  change execDescriptorFetch s = _
  unfold execDescriptorFetch State.onDev
  dsimp only
  rw [h]
  rfl

theorem exec_descriptorFetch_none (h : s.dev.selectRing = none) : exec .descriptorFetch s = .next s := by
  change execDescriptorFetch s = _
  unfold execDescriptorFetch State.onDev
  dsimp only
  rw [h]

theorem selectRing_singleton (h : d.ringList.filter d.canFetch = [n]) : d.selectRing = some n := by
  unfold Dev.selectRing
  rw [h]
  by_cases hw : d.wrr.1 = n
  · simp [hw]
  · by_cases hlt : d.wrr.1 < n <;> simp [hw, hlt]

theorem selectRing_none (h : d.ringList.filter d.canFetch = []) : d.selectRing = none := by
  unfold Dev.selectRing
  rw [h]
  simp

/-- A ring that may fetch takes a descriptor at least (R55, R56). -/
theorem fetchCount_pos (hloc : d.f R.SQ_CTL.LOC n = 0) (hmay : d.canFetch n = true) : 0 < d.fetchCount n := by
  unfold Dev.canFetch at hmay
  simp only [Bool.and_eq_true, bne_iff_ne] at hmay
  obtain ⟨⟨⟨-, hfill⟩, -⟩, -⟩ := hmay.1
  have hcredit := hmay.2
  have hroom : d.f R.SQ_STATE.HEAD n % 2 ^ d.f R.SQ_CTL.SIZE_LOG n < 2 ^ d.f R.SQ_CTL.SIZE_LOG n := Nat.mod_lt _ (Nat.two_pow_pos _)
  unfold Dev.fetchCount
  dsimp only
  rw [if_pos hloc]
  omega

theorem fetchCount_le : d.fetchCount n ≤ max (d.f R.RING_GCTL.BURST) 1 := by
  unfold Dev.fetchCount
  dsimp only
  omega

/-! ### A fetch given up -/

/-- The end of a teardown, which waits while a descriptor is in the ring (R57, R59). -/
theorem tearEnd_of_filled (h : d.f R.SQ_STATE.TAIL n ≠ d.f R.SQ_STATE.HEAD n) : d.tearEnd n = d := by
  have ht := f_lt d R.SQ_STATE.TAIL n
  have hh := f_lt d R.SQ_STATE.HEAD n
  refine if_neg (fun hc => ?_)
  have hfill := hc.2.1
  rw [sqFill_eq] at hfill
  simp only at ht hh
  omega

/-- What the end of a teardown can do: nothing, or TEAR and ABORT of its ring are 0 (R57). -/
theorem tearEnd_cases (d : Dev) (n : Nat) :
    d.tearEnd n = d ∨ d.tearEnd n = (d.setRing n { d.ring n with tear := 0 }).set R.SQ_ABORT.ABORT n 0 := by
  unfold Dev.tearEnd
  split
  · exact .inr rfl
  · exact .inl rfl

theorem word_tearEnd (h : k ≠ R.SQ_ABORT.ABORT.key n) : (d.tearEnd n).word k = d.word k := by
  rcases tearEnd_cases d n with he | he <;> rw [he]
  exact word_set_other _ _ _ _ h

theorem ring_tearEnd : ((d.tearEnd n).ring n).reading = (d.ring n).reading ∧ ((d.tearEnd n).ring n).fetched = (d.ring n).fetched := by
  rcases tearEnd_cases d n with he | he <;> rw [he]
  · exact ⟨rfl, rfl⟩
  · have hr : ((d.setRing n { d.ring n with tear := 0 }).set R.SQ_ABORT.ABORT n 0).ring n = { d.ring n with tear := 0 } :=
      (ring_setRing ..).trans (if_pos rfl)
    rw [hr]
    exact ⟨rfl, rfl⟩

/-- A block whose ring n has given up the read of k descriptors under a tag (R58). -/
def givenUp (d : Dev) (n tag k : Nat) : Dev :=
  { (d.drop R.CQ_CREDIT.RESERVED (d.f R.SQ_CTL.CQ n) k).setRing n { d.ring n with reading := none } with
    reqs := d.reqs.filter (fun q => q.tag != tag) }

theorem dropFetch_reading (h : (d.ring n).reading = some (tag, k)) : d.dropFetch n = givenUp d n tag k := by
  unfold Dev.dropFetch
  rw [h]
  rfl

theorem dropFetch_idle (h : (d.ring n).reading = none) : d.dropFetch n = d := by
  unfold Dev.dropFetch
  rw [h]

theorem reading_dropFetch : ((d.dropFetch n).ring n).reading = none := by
  cases h : (d.ring n).reading with
  | none => rwa [dropFetch_idle h]
  | some p =>
    rw [dropFetch_reading h]
    exact congrArg RingX.reading ((ring_setRing ..).trans (if_pos rfl))

theorem word_dropFetch (h : k ≠ R.CQ_CREDIT.RESERVED.key (d.f R.SQ_CTL.CQ n)) : (d.dropFetch n).word k = d.word k := by
  cases hr : (d.ring n).reading with
  | none => rw [dropFetch_idle hr]
  | some p =>
    rw [dropFetch_reading hr]
    exact word_set_other _ _ _ _ h

/-- A ring whose read has failed, before its teardown is looked at (R58). -/
def fetchLost (d : Dev) (n : Nat) : Dev :=
  (((d.dropFetch n).set R.SQ_ERR.FETCH n 1).set R.SQ_CTL.ENABLE n 0).setRing n
    { (d.dropFetch n).ring n with tear := if ((d.dropFetch n).ring n).tear = 1 then 1 else 2 }

theorem fetchFail_eq : d.fetchFail n = (fetchLost d n).tearEnd n := rfl

theorem word_fetchLost (h : k ∉ [R.SQ_ERR.FETCH.key n, R.SQ_CTL.ENABLE.key n, R.CQ_CREDIT.RESERVED.key (d.f R.SQ_CTL.CQ n)]) :
    (fetchLost d n).word k = d.word k :=
  word_frame_set (word_frame_set (fun _ hk => word_dropFetch (fun he => hk (by simp [he]))) _ _ _ (by simp)) _ _ _ (by simp) k h

theorem ring_fetchLost : (fetchLost d n).ring n = { (d.dropFetch n).ring n with tear := if ((d.dropFetch n).ring n).tear = 1 then 1 else 2 } :=
  (ring_setRing ..).trans (if_pos rfl)

theorem exec_fetchFailed {n : Fin 4096} {p : Nat × Nat} (h : (s.dev.ring n).reading = some p) :
    exec (.fetchFailed n) s = .next (s.onDev (fun d => d.fetchFail n)) := by
  change execFetchFailed n s = _
  unfold execFetchFailed
  rw [h]
  rfl

/-- What a failed read leaves in the words of its ring and of its queue (R58). -/
theorem fetchFail_words {n : Fin 4096} (h : (d.ring n).reading = some (tag, k)) :
    (d.fetchFail n).f R.SQ_ERR.FETCH n = 1 ∧ (d.fetchFail n).f R.SQ_CTL.ENABLE n = 0 ∧ ((d.fetchFail n).ring n).reading = none ∧
      (d.fetchFail n).f R.CQ_CREDIT.RESERVED (d.f R.SQ_CTL.CQ n) = d.f R.CQ_CREDIT.RESERVED (d.f R.SQ_CTL.CQ n) - k := by
  have hq : d.f R.SQ_CTL.CQ n < 4096 := cqOf_lt
  rw [fetchFail_eq]
  refine ⟨?_, ?_, ?_, ?_⟩
  · rw [f_of_word (word_tearEnd (by simp only [Fld.key]; omega))]
    exact (f_set_apart _ _ _ _ _ _ (.inl (by simp only [Fld.key]; omega))).trans (f_set_same _ _ _ _ (by decide))
  · rw [f_of_word (word_tearEnd (by simp only [Fld.key]; omega))]
    exact f_set_same _ _ _ _ (by decide)
  · rw [ring_tearEnd.1, ring_fetchLost]
    exact reading_dropFetch
  · rw [f_of_word (word_tearEnd (by simp only [Fld.key]; omega))]
    refine (f_set_apart _ _ _ _ _ _ (.inl (by simp only [Fld.key]; omega))).trans
      ((f_set_apart _ _ _ _ _ _ (.inl (by simp only [Fld.key]; omega))).trans ?_)
    rw [dropFetch_reading h]
    exact f_drop_same (by decide)

/-! ### A teardown by SQ_ABORT -/

/-- d holds the rings of a, and its words of rings and queues. -/
structure RingsKept (a d : Dev) : Prop where
  rings : d.rings = a.rings
  words : ∀ k, 0x800000 ≤ k → k < 0x890000 → d.word k = a.word k

namespace RingsKept
variable {a : Dev}

theorem refl : RingsKept d d := ⟨rfl, fun _ _ _ => rfl⟩

theorem upd (h : RingsKept a d) (hrings : e.rings = d.rings) (hwords : e.words = d.words) : RingsKept a e :=
  ⟨hrings.trans h.rings, fun k hlo hhi => (congrArg (tabGet resetWord · k) hwords).trans (h.words k hlo hhi)⟩

theorem ite {c : Prop} [Decidable c] (hd : RingsKept a d) (he : RingsKept a e) : RingsKept a (if c then d else e) := by split <;> assumption

theorem foldl {α : Type} {f : Dev → α → Dev} {l : List α} (hf : ∀ {d x}, RingsKept a d → RingsKept a (f d x)) (h : RingsKept a d) :
    RingsKept a (l.foldl f d) := by
  induction l generalizing d with
  | nil => exact h
  | cons x t ih => exact ih (hf h)

/-- A field of another unit. -/
theorem set {x : Fld} {i v : Nat} (h : RingsKept a d) (hx : x.key i < 0x800000 ∨ 0x890000 ≤ x.key i) : RingsKept a (d.set x i v) :=
  ⟨h.rings, fun k hlo hhi => (word_set_other d x i v (by omega)).trans (h.words k hlo hhi)⟩

/-- A field of the codec's slots. -/
theorem setSlot {x : Fld} {i v : Nat} (h : RingsKept a d) (hx : 0x890000 ≤ x.base := by decide) : RingsKept a (d.set x i v) :=
  h.set (.inr (Nat.le_add_right_of_le hx))

theorem onCtx {c : Nat} {g : Ctx → Ctx} (h : RingsKept a d) : RingsKept a (d.onCtx c g) := .upd h rfl rfl
theorem updOp {n i : Nat} {g : Op → Op} (h : RingsKept a d) : RingsKept a (d.updOp n i g) := .upd h rfl rfl
theorem updColl {id : Nat} {g : Coll → Coll} (h : RingsKept a d) : RingsKept a (d.updColl id g) := .upd h rfl rfl
theorem noticeStatus {id st : Nat} (h : RingsKept a d) : RingsKept a (d.noticeStatus id st) := .upd h rfl rfl
theorem collCount (h : RingsKept a d) : RingsKept a d.collCount := .set h (.inl (by decide))
theorem noteCollEnd {id key : Nat} (h : RingsKept a d) : RingsKept a (d.noteCollEnd id key) := .upd h rfl rfl
theorem enterEpoch {x : Ctx} {out : Bool} {e : Nat} (h : RingsKept a d) : RingsKept a (d.enterEpoch x out e) := .ite (.upd h rfl rfl) h
theorem setCtx {c : Nat} {x : Ctx} (h : RingsKept a d) : RingsKept a (d.setCtx c x) := .upd h rfl rfl
theorem received {c seq : Nat} (h : RingsKept a d) : RingsKept a (d.received c seq) := .onCtx (.ite (.enterEpoch (.setCtx h)) (.setCtx h))
theorem collDiscard {id : Nat} (h : RingsKept a d) : RingsKept a (d.collDiscard id) := .foldl (fun h' => .onCtx (.foldl .received h')) h

theorem endOp {n i st dt : Nat} (h : RingsKept a d) : RingsKept a (d.endOp n i st dt) := by
  unfold Dev.endOp
  dsimp only
  split
  · exact h
  · exact .ite h (.upd h rfl rfl)

theorem slotDiscard {n : Nat} (h : RingsKept a d) : RingsKept a (d.slotDiscard n) := by
  unfold Dev.slotDiscard Dev.unstage
  extract_lets d1 rest d2
  have h1 : RingsKept a d1 := .setSlot (.setSlot (.setSlot (.upd h rfl rfl)))
  exact .ite (.set (.upd h1 rfl rfl) (.inl (by decide))) (.upd h1 rfl rfl)

theorem refDrop {b : Nat × Nat} (h : RingsKept a d) : RingsKept a (d.refDrop b) := by
  have hbase : 0x890000 ≤ (refFld b.2).base := by unfold refFld; split <;> decide
  have hdrop : RingsKept a (d.drop (refFld b.2) b.1) := .setSlot h hbase
  exact .ite (.slotDiscard hdrop) hdrop

theorem collFail {id st dt : Nat} {notify : Bool} (h : RingsKept a d) : RingsKept a (d.collFail id st notify dt) := by
  unfold Dev.collFail
  split
  · exact h
  · split
    · exact .ite (.noticeStatus (.updColl (.foldl .updOp h))) h
    · extract_lets st' d1 d2 d3 d4
      have h3 : RingsKept a d3 := .upd (.updColl (.foldl .endOp h) : RingsKept a d2) rfl rfl
      have h4 : RingsKept a d4 := .noteCollEnd (.collCount (.ite (.collDiscard h3) h3))
      exact .ite (.upd h4 rfl rfl) h4

theorem abortOp {o : Op} (h : RingsKept a d) : RingsKept a (d.abortOp o) := by
  unfold Dev.abortOp
  dsimp only
  split
  · exact .ite (.collFail (.endOp h)) (.foldl .refDrop (.upd (.endOp h) rfl rfl))
  · exact .endOp h
end RingsKept

/-- A ring with SQ_ABORT taken, before its operations end (R57). -/
def aborting (d : Dev) (n : Nat) : Dev := ((d.dropFetch n).set R.SQ_CTL.ENABLE n 0).set R.SQ_ABORT.ABORT n 1

/-- Its operations that are not done have ended (R57). -/
def opsAborted (d : Dev) (n : Nat) : Dev :=
  ((aborting d n).opsOf n).foldl (fun (a : Dev) o => if o.stage = .done then a else a.abortOp o) (aborting d n)

/-- The descriptors that a ring has fetched and not started, as operations that are done (R57). -/
def abortedFetched (d : Dev) (n : Nat) : List Op :=
  (d.ring n).fetched.map (fun e => { newOp n e.1 e.2 with stage := .done, verdict := ⟨0x0F, 0x40⟩ })

/-- The teardown of ring n runs, nothing fetched is left (R57). -/
def tornDown (d : Dev) (n : Nat) : Dev :=
  Dev.setRing { d with ops := d.ops ++ abortedFetched d n } n { d.ring n with fetched := [], tear := 1 }

theorem ringAbort_eq : d.ringAbort n = (tornDown (opsAborted d n) n).tearEnd n := rfl

theorem opsAborted_kept : RingsKept (aborting d n) (opsAborted d n) := .foldl (fun h => .ite h (.abortOp h)) .refl

theorem word_tornDown (hlo : 0x800000 ≤ k) (hhi : k < 0x890000) : (tornDown (opsAborted d n) n).word k = (aborting d n).word k :=
  opsAborted_kept.words k hlo hhi

theorem ring_tornDown : (tornDown d n).ring n = { d.ring n with fetched := [], tear := 1 } := (ring_setRing ..).trans (if_pos rfl)

theorem reading_aborting : ((aborting d n).ring n).reading = none := reading_dropFetch

/-- Once the teardown of SQ_ABORT is under way the ring is off, reads nothing and holds nothing fetched, and while it holds descriptors ABORT
stands (R57). -/
theorem ringAbort_effect {n : Fin 4096} : (d.ringAbort n).f R.SQ_CTL.ENABLE n = 0 ∧ ((d.ringAbort n).ring n).reading = none ∧
    ((d.ringAbort n).ring n).fetched = [] ∧ (d.f R.SQ_STATE.TAIL n ≠ d.f R.SQ_STATE.HEAD n →
      (d.ringAbort n).f R.SQ_ABORT.ABORT n = 1 ∧ ((d.ringAbort n).ring n).tear = 1) := by
  have hq : d.f R.SQ_CTL.CQ n < 4096 := cqOf_lt
  have hword {x : Fld} (hlo : 0x800000 ≤ x.key n) (hhi : x.key n < 0x890000) : (tornDown (opsAborted d n) n).f x n = (aborting d n).f x n :=
    f_of_word (word_tornDown hlo hhi)
  rw [ringAbort_eq]
  refine ⟨?_, ?_, ?_, fun hfilled => ?_⟩
  · rw [f_of_word (word_tearEnd (by simp only [Fld.key]; omega)), hword (by simp only [Fld.key]; omega) (by simp only [Fld.key]; omega)]
    exact (f_set_apart _ _ _ _ _ _ (.inl (by simp only [Fld.key]; omega))).trans (f_set_same _ _ _ _ (by decide))
  · rw [ring_tearEnd.1, ring_tornDown]
    exact (congrArg RingX.reading (ring_of_rings opsAborted_kept.rings)).trans reading_aborting
  · rw [ring_tearEnd.2, ring_tornDown]
  · have hstate {x : Fld} (hx : x = R.SQ_STATE.TAIL ∨ x = R.SQ_STATE.HEAD) : (tornDown (opsAborted d n) n).f x n = d.f x n := by
      have hkey : x.key n = 0x800018 + 0x40 * n := by rcases hx with rfl | rfl <;> rfl
      rw [hword (by omega) (by omega)]
      refine (f_set_apart _ _ _ _ _ _ (.inl ?_)).trans ((f_set_apart _ _ _ _ _ _ (.inl ?_)).trans (f_of_word (word_dropFetch ?_))) <;>
        (rw [hkey]; simp only [Fld.key]; omega)
    rw [tearEnd_of_filled (by rw [hstate (.inl rfl), hstate (.inr rfl)]; exact hfilled)]
    refine ⟨?_, by rw [ring_tornDown]⟩
    rw [hword (by simp only [Fld.key]; omega) (by simp only [Fld.key]; omega)]
    exact f_set_same _ _ _ _ (by decide)

theorem exec_sqAbort {n : Fin 4096} (hs : s.dev.f R.SYS_BOOT.STATE = 4) (htear : (s.dev.ring n).tear ≠ 1) :
    exec (.sqAbort n) s = .next (s.onDev (fun d => d.ringAbort n)) := congrArg Host.Outcome.next (if_pos ⟨ready_of hs, htear⟩)

end Sys2Proof.Laws
end

section
/-! The records of descriptors that were never fetched, and the statements about rings (R55 to R59, R61, R63). -/

namespace Sys2Proof.Laws
-- One theorem after another: a thread of its own for each passes the memory that the whole text may take.
set_option Elab.async false

open Sys2Proof Sys2Proof.Machine

variable {d e : Dev} {k tag q : Nat} {n : Fin 4096} {readOk writeOk : Bool} {s : State} {m : List Host.Cell}

/-! ### The record of a descriptor that was never fetched -/

/-- The ring once word +0x00 of its next descriptor has been read, or its read has failed (R57). -/
def headRead (d : Dev) (n : Nat) (readOk : Bool) : Dev := if (d.ring n).tear == 1 && !readOk then d.set R.SQ_ERR.FETCH n 1 else d

/-- Word +0x00 of the next descriptor as its record takes it (R57). -/
def headWord (d : Dev) (n : Nat) (readOk : Bool) (m : List Host.Cell) : Nat :=
  if (d.ring n).tear == 1 && readOk then
    ofLE (memRead m (memKey (nodeSpace (d.f R.SQ_CTL.LOC n == 0) (d.f R.SQ_BIND.SRC n)) (d.slotAddr n (d.f R.SQ_STATE.HEAD n))) 8)
  else 0

/-- The record of the next descriptor as it is written into queue q (R59). -/
def abortWritten (q n : Nat) (readOk writeOk : Bool) (d : Dev) (m : List Host.Cell) : Dev × List Host.Cell :=
  writeRecord q (abortRec d n (headWord d n readOk m)) writeOk (headRead d n readOk) m

/-- What one ABORT_RECORD_WRITE does (R57, R59). -/
def abortStep (q n : Nat) (readOk writeOk : Bool) (d : Dev) (m : List Host.Cell) : Dev × List Host.Cell :=
  (((abortWritten q n readOk writeOk d m).1.set R.SQ_STATE.HEAD n (idxAdd (d.f R.SQ_STATE.HEAD n) 1)).tearEnd n,
    (abortWritten q n readOk writeOk d m).2)

theorem sqFill_ne_zero {n : Nat} (h : d.f R.SQ_STATE.TAIL n ≠ d.f R.SQ_STATE.HEAD n) : d.sqFill n ≠ 0 := by
  have ht := f_lt d R.SQ_STATE.TAIL n
  have hh := f_lt d R.SQ_STATE.HEAD n
  rw [sqFill_eq]
  simp only at ht hh
  omega

theorem exec_abortRecordWrite (htear : (s.dev.ring n).tear ≠ 0) (hfill : s.dev.f R.SQ_STATE.TAIL n ≠ s.dev.f R.SQ_STATE.HEAD n)
    (hslot : s.dev.cqCredit (s.dev.f R.SQ_CTL.CQ n) ≠ 0) :
    exec (.abortRecordWrite n readOk writeOk) s = .next (s.onBoth (abortStep (s.dev.f R.SQ_CTL.CQ n) n readOk writeOk)) := by
  change execAbortRecordWrite n readOk writeOk s = _
  unfold execAbortRecordWrite
  exact if_pos ⟨htear, sqFill_ne_zero hfill, hslot⟩

theorem word_headRead (h : k ≠ R.SQ_ERR.FETCH.key n) : (headRead d n readOk).word k = d.word k := by
  unfold headRead
  split
  · exact word_set_other _ _ _ _ h
  · rfl

theorem head_abortStep : (abortStep q n readOk writeOk d m).1.f R.SQ_STATE.HEAD n = (d.f R.SQ_STATE.HEAD n + 1) % 2 ^ 32 := by
  unfold abortStep
  dsimp only
  rw [f_of_word (word_tearEnd (by simp only [Fld.key]; omega)), f_set_same _ _ _ _ (by decide)]
  exact Nat.mod_eq_of_lt (idxAdd_lt _ _)

theorem tail_abortStep (hq : q < 4096) :
    (abortStep q n readOk writeOk d m).1.f R.CQ_STATE.TAIL q = (d.f R.CQ_STATE.TAIL q + 1) % 2 ^ 32 := by
  unfold abortStep abortWritten
  dsimp only
  rw [f_of_word (word_tearEnd (by simp only [Fld.key]; omega)), f_set_apart _ _ _ _ _ _ (.inl (by simp only [Fld.key]; omega)), tail_writeRecord hq,
    f_of_word (word_headRead (by simp only [Fld.key]; omega))]

/-- The bytes of the record of a descriptor that was never fetched, on a host queue: STATUS, DETAIL and the ring (R57, R59). -/
theorem memGet_abortStep (hq : q < 4096) (hloc : d.f R.CQ_CTL.LOC q = 0) {i : Nat} (hi : i < 32) : ∃ p w,
    memGet (abortStep q n true true d m).2 (recordKey d q + i) = (recBytes (abortRec d n w) p).getD i 0 := by
  have hread : headRead d n true = d := if_neg (by simp)
  unfold abortStep abortWritten
  dsimp only
  rw [hread]
  exact ⟨_, _, memGet_writeRecord_inside hq hloc hi⟩

theorem memGet_abortStep_outside (hq : q < 4096) (hloc : d.f R.CQ_CTL.LOC q = 0) {a : Nat} (ha : a < recordKey d q ∨ recordKey d q + 32 ≤ a) :
    memGet (abortStep q n true true d m).2 a = memGet m a := by
  have hread : headRead d n true = d := if_neg (by simp)
  unfold abortStep abortWritten
  dsimp only
  rw [hread]
  exact memGet_writeRecord_outside hq hloc ha

/-! ### A ring without operations -/

/-- A failed read of a ring that holds descriptors waits in its teardown (R58). -/
theorem fetchFail_filled (h : d.f R.SQ_STATE.TAIL n ≠ d.f R.SQ_STATE.HEAD n) : d.fetchFail n = fetchLost d n := by
  have hq : d.f R.SQ_CTL.CQ n < 4096 := cqOf_lt
  have hstate : (fetchLost d n).word (0x800018 + 0x40 * n) = d.word (0x800018 + 0x40 * n) := word_fetchLost (by
    simp only [Fld.key, List.mem_cons, List.not_mem_nil, or_false]
    omega)
  rw [fetchFail_eq]
  refine tearEnd_of_filled ?_
  rwa [f_of_word (x := R.SQ_STATE.TAIL) hstate, f_of_word (x := R.SQ_STATE.HEAD) hstate]

theorem tearEnd_empty (htear : (d.ring n).tear ≠ 0) (hstate : d.f R.SQ_STATE.TAIL n = d.f R.SQ_STATE.HEAD n) (hops : d.opsOf n = [])
    (hfetched : (d.ring n).fetched = []) : d.tearEnd n = (d.setRing n { d.ring n with tear := 0 }).set R.SQ_ABORT.ABORT n 0 := by
  have hh := f_lt d R.SQ_STATE.HEAD n
  have hfill : d.sqFill n = 0 := by
    rw [sqFill_eq, hstate]
    simp only at hh
    omega
  exact if_pos ⟨htear, hfill, by rw [hops]; rfl, by rw [hfetched]; rfl⟩

/-- A ring whose teardown by SQ_ABORT has begun, its operations and fetched descriptors as they are (R57). -/
def tearing (d : Dev) (n : Nat) : Dev := ((d.set R.SQ_CTL.ENABLE n 0).set R.SQ_ABORT.ABORT n 1).setRing n { d.ring n with tear := 1 }

theorem ring_tearing : (tearing d n).ring n = { d.ring n with tear := 1 } := (ring_setRing ..).trans (if_pos rfl)

theorem state_tearing {x : Fld} (hx : x.key n = R.SQ_STATE.HEAD.key n) : (tearing d n).f x n = d.f x n :=
  (f_set_apart _ _ _ _ _ _ (.inl (by rw [hx]; simp only [Fld.key]; omega))).trans
    (f_set_apart _ _ _ _ _ _ (.inl (by rw [hx]; simp only [Fld.key]; omega)))

theorem off_tearing : (tearing d n).f R.SQ_CTL.ENABLE n = 0 :=
  (f_set_apart _ _ _ _ _ _ (.inl (by simp only [Fld.key]; omega))).trans (f_set_same _ _ _ _ (by decide))

theorem word_tearing (h : k ∉ [R.SQ_CTL.ENABLE.key n, R.SQ_ABORT.ABORT.key n]) : (tearing d n).word k = d.word k :=
  word_frame_set (word_frame_set (fun _ _ => rfl) _ _ _ (by simp)) _ _ _ (by simp) k h

section
variable (hidle : (d.ring n).reading = none) (hfetched : (d.ring n).fetched = []) (hops : d.opsOf n = [])
include hidle hfetched hops

/-- SQ_ABORT of a ring without a read, a fetched descriptor or an operation only begins its teardown (R57). -/
theorem ringAbort_quiet : d.ringAbort n = (tearing d n).tearEnd n := by
  have haborting : aborting d n = (d.set R.SQ_CTL.ENABLE n 0).set R.SQ_ABORT.ABORT n 1 := by
    unfold aborting
    rw [dropFetch_idle hidle]
  have hended : opsAborted d n = aborting d n := by
    have hnone : (aborting d n).opsOf n = [] := by rw [haborting]; exact hops
    unfold opsAborted
    rw [hnone]
    rfl
  have hring : (aborting d n).ring n = d.ring n := by rw [haborting]; rfl
  have hmine : abortedFetched (aborting d n) n = [] := by
    unfold abortedFetched
    rw [hring, hfetched]
    rfl
  have htorn : tornDown (aborting d n) n = (aborting d n).setRing n { d.ring n with tear := 1 } := by
    unfold tornDown
    rw [hmine, hring, List.append_nil, ← hfetched]
  rw [ringAbort_eq, hended, htorn, haborting]
  rfl

theorem ringAbort_filled (h : d.f R.SQ_STATE.TAIL n ≠ d.f R.SQ_STATE.HEAD n) : d.ringAbort n = tearing d n := by
  rw [ringAbort_quiet hidle hfetched hops, tearEnd_of_filled]
  rwa [state_tearing (x := R.SQ_STATE.TAIL) rfl, state_tearing (x := R.SQ_STATE.HEAD) rfl]

theorem ringAbort_empty (h : d.f R.SQ_STATE.TAIL n = d.f R.SQ_STATE.HEAD n) :
    d.ringAbort n = ((tearing d n).setRing n { d.ring n with tear := 0 }).set R.SQ_ABORT.ABORT n 0 := by
  have hstate : (tearing d n).f R.SQ_STATE.TAIL n = (tearing d n).f R.SQ_STATE.HEAD n := by
    rwa [state_tearing (x := R.SQ_STATE.TAIL) rfl, state_tearing (x := R.SQ_STATE.HEAD) rfl]
  rw [ringAbort_quiet hidle hfetched hops, tearEnd_empty (d := tearing d n) (by rw [ring_tearing]; exact one_ne_zero) hstate hops
    (by rw [ring_tearing]; exact hfetched), ring_tearing]

end

/-! ### The statements -/

/-- Settles O16: the effects of a fetch, of a failed one, of a teardown and of one of its records, from the lemmas about each. -/
theorem descriptorsAreFetchedOrGivenUp : Obligations.DescriptorsAreFetchedOrGivenUp := by
  unfold Obligations.DescriptorsAreFetchedOrGivenUp
  refine ⟨?_, ?_, ?_, ?_⟩
  · intro n s hsel
    refine completes_onDev (exec_descriptorFetch hsel) rfl ?_
    obtain ⟨x, hx, htag, huse, hlen, haddr⟩ := asked_fetchFrom s.dev n (s.dev.fetchCount n)
    have hreqs : s.dev.reqs ++ [x] = (fetching s.dev n).reqs := (congrArg Prod.fst hx).symm
    exact ⟨congrArg RingX.reading ring_fetchFrom, congrArg Prod.snd hx, reserved_fetchFrom,
      ⟨x, hreqs ▸ List.mem_append_right _ (List.mem_singleton_self x), htag, huse, hlen, haddr⟩,
      sameMem_of_eq rfl⟩
  · intro n tag k s hread
    refine completes_onDev (exec_fetchFailed hread) rfl ?_
    obtain ⟨hfetch, hoff, hidle, hgiven⟩ := fetchFail_words hread
    exact ⟨hfetch, hoff, hidle, hgiven, sameMem_of_eq rfl⟩
  · intro n s hs htear
    refine completes_onDev (exec_sqAbort hs htear) rfl ?_
    obtain ⟨hoff, hidle, hnone, hrun⟩ := ringAbort_effect (d := s.dev) (n := n)
    exact ⟨hoff, hidle, hnone, hrun, sameMem_of_eq rfl⟩
  · intro n readOk writeOk s htear hfill hslot
    refine completes_onBoth (exec_abortRecordWrite htear hfill hslot) Prod.mk.eta.symm ?_
    exact ⟨head_abortStep, tail_abortStep cqOf_lt⟩

/-- Settles O58: each step of a host ring's life, from the lemmas about its doorbell, its fetch, its failed fetch, its teardown and the records
that follow. -/
theorem ringsTakeDoorbellsFetchAndTearDown : Obligations.RingsTakeDoorbellsFetchAndTearDown := by
  unfold Obligations.RingsTakeDoorbellsFetchAndTearDown
  refine ⟨?_, ?_, ?_, ?_, ?_, ?_, ?_, ?_⟩
  · intro f n index s hs hloc hsrc hon htear hforward hbound
    refine completes_onDev (exec_ringDoorbell_ready hs)
      ((ringDoorbell_enabled hloc hsrc hon htear).trans (sqDoorbell_inRange ⟨hforward, hbound⟩)) ?_
    exact ⟨(f_set_same _ _ _ _ (by decide)).trans (Nat.mod_eq_of_lt index.isLt), f_set_apart _ _ _ _ _ _ (.inr (.inr (by decide))),
      sameMem_of_eq rfl, sameParts_set .., word_frame_set (fun _ _ => rfl) _ _ _ (by simp)⟩
  · intro n s honly hloc
    have hmay : s.dev.canFetch n = true := (List.mem_filter.1 (honly ▸ List.mem_singleton_self n)).2
    refine completes_onDev (exec_descriptorFetch (selectRing_singleton honly)) rfl ?_
    obtain ⟨hwords, hout⟩ := fetchFrom_host (k := s.dev.fetchCount n) hloc
    obtain ⟨x, hx, -⟩ := asked_fetchFrom s.dev n (s.dev.fetchCount n)
    exact ⟨fetchCount_pos hloc hmay, fetchCount_le, congrArg RingX.reading ring_fetchFrom, congrArg Prod.snd hx, reserved_fetchFrom, hout,
      sameMem_of_eq rfl, fun k hk => (congrArg (tabGet resetWord · k) hwords).trans (word_frame_set (fun _ _ => rfl) _ _ _ (by simp) k hk)⟩
  · exact fun s hnone => ⟨s, exec_descriptorFetch_none (selectRing_none hnone), rfl⟩
  · intro n tag k s hread htear hfilled
    refine completes_onDev (exec_fetchFailed hread) rfl ?_
    obtain ⟨hfetch, hoff, hidle, hgiven⟩ := fetchFail_words hread
    have hdrop : (givenUp s.dev n tag k).ring n = { s.dev.ring n with reading := none } := (ring_setRing ..).trans (if_pos rfl)
    have htwo : ((fetchLost s.dev n).ring n).tear = 2 := by
      rw [ring_fetchLost, dropFetch_reading hread, hdrop]
      dsimp only
      rw [htear]
      rfl
    have hreqs : (fetchLost s.dev n).reqs = s.dev.reqs.filter (fun r => r.tag != tag) := congrArg Dev.reqs (dropFetch_reading hread)
    dsimp only
    rw [fetchFail_filled hfilled] at hfetch hoff hidle hgiven ⊢
    exact ⟨hfetch, hoff, hidle, htwo, hgiven, hreqs, sameMem_of_eq rfl, fun _ => word_fetchLost⟩
  · exact fun n s hidle => ⟨s, congrArg Host.Outcome.next (if_neg (by simp [hidle])), rfl⟩
  · intro n s hs htear hidle hfetched hops
    have hexec := exec_sqAbort (n := n) hs (by omega)
    by_cases h : s.dev.f R.SQ_STATE.TAIL n = s.dev.f R.SQ_STATE.HEAD n
    · refine completes_onDev hexec (ringAbort_empty hidle hfetched hops h) ?_
      exact ⟨(f_set_apart _ _ _ _ _ _ (.inl (by simp only [Fld.key]; omega))).trans off_tearing, rfl,
        (if_pos h).symm ▸ ⟨f_set_same _ _ _ _ (by decide), congrArg RingX.tear ((ring_setRing ..).trans (if_pos rfl))⟩, sameMem_of_eq rfl,
        word_frame_set (fun _ => word_tearing) _ _ _ (by simp)⟩
    · refine completes_onDev hexec (ringAbort_filled hidle hfetched hops h) ?_
      exact ⟨off_tearing, rfl, (if_neg h).symm ▸ ⟨f_set_same _ _ _ _ (by decide), congrArg RingX.tear ring_tearing⟩, sameMem_of_eq rfl,
        fun _ => word_tearing⟩
  · exact fun n s hs htear => ⟨s, congrArg Host.Outcome.next (if_neg (fun h => h.2 htear)), rfl⟩
  · intro n s htear hfilled hslot hloc hqloc
    refine completes_onBoth (exec_abortRecordWrite htear hfilled hslot) Prod.mk.eta.symm ?_
    obtain ⟨p2, w2, h2⟩ := memGet_abortStep (m := s.mem) (n := n) cqOf_lt hqloc (i := 2) (by decide)
    obtain ⟨p3, w3, h3⟩ := memGet_abortStep (m := s.mem) (n := n) cqOf_lt hqloc (i := 3) (by decide)
    obtain ⟨p8, w8, h8⟩ := memGet_abortStep (m := s.mem) (n := n) cqOf_lt hqloc (i := 8) (by decide)
    refine ⟨h2.trans (status_recBytes _), h3.trans ((detail_recBytes _).trans ?_), h8.trans (ring_recBytes _),
      fun _ hb => memGet_abortStep_outside cqOf_lt hqloc hb, head_abortStep, tail_abortStep cqOf_lt⟩
    unfold abortRec
    dsimp only
    split <;> rfl

end Sys2Proof.Laws
end

section
/-! Courier channels (R68 to R72): what a list of moves leaves in memory, how a transfer loads, starts and ends, and what its record says. -/

namespace Sys2Proof.Laws
-- One theorem after another: a thread of its own for each passes the memory that the whole text may take.
set_option Elab.async false

open Sys2Proof Sys2Proof.Machine

variable {d e : Dev} {c : Fin 16} {v : Verdict} {moved st : Nat} {ok : Bool} {s : State} {m : List Host.Cell} {mv : List (Nat × Nat)} {ctr a : Nat}

/-! ### The bytes of a list of moves -/

/-- Bytes put at the destinations of a list of moves, each by its address alone. -/
theorem memGet_putAll {l : List (Nat × Nat)} {g : Nat → Byte} :
    memGet (l.foldl (fun acc p => memPut acc p.2 (g p.2)) m) a = if a ∈ l.map (·.2) then g a else memGet m a := by
  induction l generalizing m with
  | nil => simp
  | cons p t ih =>
    rw [List.foldl_cons, ih, memGet_memPut, List.map_cons]
    by_cases ht : a ∈ t.map (·.2)
    · rw [if_pos ht, if_pos (List.mem_cons_of_mem _ ht)]
    · rw [if_neg ht]
      by_cases hp : a = p.2
      · rw [if_pos hp, if_pos (List.mem_cons.2 (.inl hp)), hp]
      · rw [if_neg hp, if_neg (fun h => (List.mem_cons.1 h).elim hp ht)]

theorem memGet_courierCopy_off (h : a ∉ mv.map (·.2)) : memGet (courierCopy ctr mv m) a = memGet m a := memGet_putAll.trans (if_neg h)

theorem memGet_courierCopy_on (h : a ∈ mv.map (·.2)) : memGet (courierCopy ctr mv m) a = courierByte ctr mv m a := memGet_putAll.trans (if_pos h)

/-- A destination byte that is no source byte takes the byte of a move to it (R68). -/
theorem courierByte_moved {p : Nat × Nat} (hp : p ∈ mv) (hsrc : p.2 ∉ mv.map (·.1)) :
    ∃ q ∈ mv, q.2 = p.2 ∧ courierByte ctr mv m p.2 = memGet m q.1 := by
  have hfree : mv.any (fun q => q.1 == p.2) = false := by
    simp only [List.any_eq_false, beq_iff_eq]
    exact fun q hq he => hsrc (he ▸ List.mem_map_of_mem hq)
  unfold courierByte
  rw [hfree]
  extract_lets vals
  have hpos : 0 < vals.length := List.length_pos_of_mem (List.mem_map_of_mem (List.mem_filter.2 ⟨hp, beq_self_eq_true _⟩))
  rw [if_neg Bool.false_ne_true]
  generalize hi : (if vals.all (fun v => vals.head? == some v) then 0 else Config.freePick ctr p.2 % vals.length) = i
  have hlt : i < vals.length := by
    rw [← hi]
    split
    · exact hpos
    · exact Nat.mod_lt _ hpos
  obtain ⟨q, hq, hbyte⟩ := List.mem_map.1 (List.getElem_mem hlt)
  obtain ⟨hmem, hdst⟩ := List.mem_filter.1 hq
  exact ⟨q, hmem, beq_iff_eq.1 hdst, by rw [List.getD_eq_getElem _ _ hlt, hbyte]⟩

/-! ### The words of a channel -/

/-- Every word but ARM, the status and the progress of channel c is as it was. -/
def ChannelMoved (c : Nat) (d e : Dev) : Prop := ∀ k, k ∉ [R.CR_CTL.ARM.key c, R.CR_STAT.STATE.key c, R.CR_PROG.DONE.key c] → e.word k = d.word k

namespace ChannelMoved

theorem ofWords {c : Nat} (h : e.words = d.words) : ChannelMoved c d e := fun k _ => congrArg (tabGet resetWord · k) h

theorem field (h : ChannelMoved c d e) {x : Fld} {i : Nat}
    (hk : x.key i < 0xE00030 ∨ 0xE01000 ≤ x.key i ∨ x.key i % 0x100 < 0x30 ∨ x.key i % 0x100 = 0x40) : e.f x i = d.f x i := by
  have hc := c.isLt
  refine f_of_word (h _ ?_)
  simp only [Fld.key, List.mem_cons, List.not_mem_nil, or_false] at hk ⊢
  omega

theorem shadowSet (h : ChannelMoved c d e) : e.shadowSet c = d.shadowSet c := by
  have hf {x : Fld} (hx : x.key c % 0x100 < 0x30) : e.f x c = d.f x c := h.field (.inr (.inr (.inl hx)))
  unfold Dev.shadowSet Dev.sf Dev.on
  simp (disch := (simp only [Fld.key]; omega)) only [hf]

theorem courierCheck (h : ChannelMoved c d e) (x : CourierX) : e.courierCheck x = d.courierCheck x := by
  unfold Dev.courierCheck Dev.outsideHbm
  rw [h.field (x := R.COURIER_HBM_BASE.ADDR) (by decide), h.field (x := R.COURIER_HBM_LIMIT.ADDR) (by decide)]

theorem queue (h : ChannelMoved c d e) {x : Fld} {q : Nat} (hq : q < 4096) (hx : x.base + 4096 * x.stride < 0xE00030 := by decide) :
    e.f x q = d.f x q := by
  refine h.field (.inl (lt_of_le_of_lt ?_ hx))
  have : x.stride * q ≤ x.stride * 4096 := Nat.mul_le_mul_left _ hq.le
  unfold Fld.key
  rw [Nat.mul_comm 4096]
  omega

theorem cqCredit (h : ChannelMoved c d e) {q : Nat} (hq : q < 4096) : e.cqCredit q = d.cqCredit q := by
  unfold Dev.cqCredit
  rw [cqUsed_eq, cqUsed_eq, h.queue (x := R.CQ_CTL.SIZE_LOG) hq, h.queue (x := R.CQ_STATE.TAIL) hq, h.queue (x := R.CQ_STATE.HEAD) hq,
    h.queue (x := R.CQ_CREDIT.RESERVED) hq]

theorem recordQueue (h : ChannelMoved c d e) : e.f R.CR_CQ.CQ c = d.f R.CR_CQ.CQ c := h.field (by simp only [Fld.key]; omega)

theorem recordOn (h : ChannelMoved c d e) : e.f R.CR_ATTR.REC_EN c = d.f R.CR_ATTR.REC_EN c := h.field (by simp only [Fld.key]; omega)

theorem set (h : ChannelMoved c d e) {x : Fld} {i v : Nat}
    (hx : x.key i ∈ [R.CR_CTL.ARM.key c, R.CR_STAT.STATE.key c, R.CR_PROG.DONE.key c]) : ChannelMoved c d (e.set x i v) :=
  word_frame_set h _ _ _ hx

theorem setCourier {c j : Nat} {x : CourierX} (h : ChannelMoved c d e) : ChannelMoved c d (e.setCourier j x) := h

theorem usedFree {c : Nat} (h : ChannelMoved c d e) : ChannelMoved c d e.usedFree := h

/-- ARM cleared and a free value taken. -/
theorem disarmed {c : Nat} : ChannelMoved c d (d.set R.CR_CTL.ARM c 0).usedFree := usedFree (word_frame_set (fun _ _ => rfl) _ _ _ (by simp))

end ChannelMoved

/-! ### A transfer's end without its record -/

/-- A channel with the state, LAST and DONE of a transfer that has ended (R72). -/
def endedSet (c : Nat) (v : Verdict) (moved st : Nat) (d : Dev) : Dev :=
  ((d.set R.CR_STAT.STATE c st).set R.CR_STAT.LAST c v.status).set R.CR_PROG.DONE c moved

theorem state_endedSet (hst : st < 4) : (endedSet c v moved st d).f R.CR_STAT.STATE c = st :=
  (f_set_apart _ _ _ _ _ _ (.inl (by simp only [Fld.key]; omega))).trans
    ((f_set_apart _ _ _ _ _ _ (.inr (.inr (by decide)))).trans ((f_set_same _ _ _ _ (by decide)).trans (Nat.mod_eq_of_lt hst)))

theorem last_endedSet (hv : v.status < 256) : (endedSet c v moved st d).f R.CR_STAT.LAST c = v.status :=
  (f_set_apart _ _ _ _ _ _ (.inl (by simp only [Fld.key]; omega))).trans ((f_set_same _ _ _ _ (by decide)).trans (Nat.mod_eq_of_lt hv))

theorem done_endedSet : (endedSet c v moved st d).f R.CR_PROG.DONE c = moved % 2 ^ 64 := f_set_same _ _ _ _ (by decide)

theorem loads_endedSet : (endedSet c v moved st d).f R.CR_STAT.LOADS c = d.f R.CR_STAT.LOADS c :=
  (f_set_apart _ _ _ _ _ _ (.inl (by simp only [Fld.key]; omega))).trans
    ((f_set_apart _ _ _ _ _ _ (.inr (.inl (by decide)))).trans (f_set_apart _ _ _ _ _ _ (.inr (.inl (by decide)))))

theorem word_endedSet {k : Nat} (hk : k ∉ [R.CR_STAT.STATE.key c, R.CR_PROG.DONE.key c]) : (endedSet c v moved st d).word k = d.word k :=
  word_frame_set (word_frame_set (word_frame_set (fun _ _ => rfl) _ _ _ (by simp)) _ _ _ (by simp [Fld.key])) _ _ _ (by simp) k hk

theorem arm_endedSet : (endedSet c v moved st d).f R.CR_CTL.ARM c = d.f R.CR_CTL.ARM c :=
  f_of_word (word_endedSet (by simp only [Fld.key, List.mem_cons, List.not_mem_nil, or_false]; omega))

theorem channelMoved_endedSet (h : ChannelMoved c d e) : ChannelMoved c d (endedSet c v moved st e) :=
  ((h.set (by simp)).set (by simp [Fld.key])).set (by simp)

theorem courier_endedSet {i : Nat} : (endedSet c v moved st d).courier i = d.courier i := rfl

theorem courierEnd_bare (hrec : (d.courier c).recEn = false) : courierEnd c v moved st ok d m = (endedSet c v moved st d, m) :=
  if_neg (by simp [hrec])

/-! ### Starts -/

theorem f_setCourier {x : CourierX} {y : Fld} {i j : Nat} : (d.setCourier j x).f y i = d.f y i := rfl

theorem courierCheck_setCourier {x y : CourierX} {j : Nat} : (d.setCourier j x).courierCheck y = d.courierCheck y := rfl

theorem courierCheck_reserved {x : CourierX} {q : Nat} (hq : q < 4096) : (d.bump R.CQ_CREDIT.RESERVED q).courierCheck x = d.courierCheck x := by
  unfold Dev.courierCheck Dev.outsideHbm
  rw [f_bump_apart _ _ _ _ _ _ (.inl (by simp only [Fld.key]; omega)), f_bump_apart _ _ _ _ _ _ (.inl (by simp only [Fld.key]; omega))]

section
variable {x : CourierX} (hx : d.courier c = x) (hwait : x.waiting = false)
include hx

theorem courierStart_waits (hrec : x.recEn = true) (hfull : d.cqCredit (d.f R.CR_CQ.CQ c) = 0) :
    courierStart c d m = (d.setCourier c { x with waiting := true }, m) := by
  unfold courierStart
  rw [hx]
  exact if_pos ⟨hrec, hfull⟩

include hwait

theorem courierStart_passed (hrec : x.recEn = false) (hcheck : d.courierCheck x = none) : courierStart c d m = (d.setCourier c x, m) := by
  have hx' : ({ x with waiting := false } : CourierX) = x := by cases x; cases hwait; rfl
  unfold courierStart
  rw [hx]
  dsimp only
  rw [if_neg (by simp [hrec]), if_neg (by simp [hrec]), hx', courierCheck_setCourier, hcheck]

theorem courierStart_failed (hrec : x.recEn = false) (hcheck : d.courierCheck x = some v) :
    courierStart c d m = (endedSet c v 0 0 (d.setCourier c x), m) := by
  have hx' : ({ x with waiting := false } : CourierX) = x := by cases x; cases hwait; rfl
  have hkept : ((d.setCourier c x).courier c).recEn = false := by rw [courier_setCourier, if_pos rfl, hrec]
  unfold courierStart
  rw [hx]
  dsimp only
  rw [if_neg (by simp [hrec]), if_neg (by simp [hrec]), hx', courierCheck_setCourier, hcheck]
  exact courierEnd_bare hkept

theorem courierStart_reserves (hrec : x.recEn = true) (hslot : d.cqCredit (d.f R.CR_CQ.CQ c) ≠ 0) (hcheck : d.courierCheck x = none) :
    courierStart c d m = ((d.setCourier c x).bump R.CQ_CREDIT.RESERVED (d.f R.CR_CQ.CQ c), m) := by
  have hx' : ({ x with waiting := false } : CourierX) = x := by cases x; cases hwait; rfl
  unfold courierStart
  rw [hx]
  dsimp only
  rw [if_neg (fun h => hslot h.2), if_pos hrec, hx', courierCheck_reserved (f_lt d R.CR_CQ.CQ c), courierCheck_setCourier, hcheck]
end

/-! ### Loads -/

/-- A channel with its shadow set loaded (R71). -/
def loadedSet (c : Nat) (d : Dev) : Dev :=
  ((((d.setCourier c (d.shadowSet c)).set R.CR_CTL.ARM c 0).set R.CR_STAT.LOADS c (idxAdd (d.f R.CR_STAT.LOADS c) 1)).set R.CR_STAT.STATE c 1).set
    R.CR_PROG.DONE c 0

theorem courierLoad_eq : courierLoad c d m = courierStart c (loadedSet c d) m := rfl

theorem courier_loadedSet : (loadedSet c d).courier c = d.shadowSet c := (courier_setCourier ..).trans (if_pos rfl)

theorem channelMoved_loadedSet : ChannelMoved c d (loadedSet c d) :=
  ((((ChannelMoved.ofWords rfl).set (by simp)).set (by simp [Fld.key])).set (by simp)).set (by simp)

theorem arm_loadedSet : (loadedSet c d).f R.CR_CTL.ARM c = 0 :=
  (f_set_apart _ _ _ _ _ _ (.inl (by simp only [Fld.key]; omega))).trans ((f_set_apart _ _ _ _ _ _ (.inl (by simp only [Fld.key]; omega))).trans
    ((f_set_apart _ _ _ _ _ _ (.inl (by simp only [Fld.key]; omega))).trans (f_set_same _ _ _ _ (by decide))))

theorem state_loadedSet : (loadedSet c d).f R.CR_STAT.STATE c = 1 :=
  (f_set_apart _ _ _ _ _ _ (.inl (by simp only [Fld.key]; omega))).trans (f_set_same _ _ _ _ (by decide))

theorem done_loadedSet : (loadedSet c d).f R.CR_PROG.DONE c = 0 := f_set_same _ _ _ _ (by decide)

theorem loads_loadedSet : (loadedSet c d).f R.CR_STAT.LOADS c = (d.f R.CR_STAT.LOADS c + 1) % 2 ^ 32 :=
  (f_set_apart _ _ _ _ _ _ (.inl (by simp only [Fld.key]; omega))).trans ((f_set_apart _ _ _ _ _ _ (.inr (.inl (by decide)))).trans
    ((f_set_same _ _ _ _ (by decide)).trans (Nat.mod_eq_of_lt (idxAdd_lt _ _))))

theorem check_loadedSet : (loadedSet c d).courierCheck (d.shadowSet c) = d.courierCheck (d.shadowSet c) := channelMoved_loadedSet.courierCheck _

/-- A channel that runs what it has loaded. -/
def runningSet (c : Nat) (d : Dev) : Dev := (loadedSet c d).setCourier c (d.shadowSet c)

theorem courier_runningSet : (runningSet c d).courier c = d.shadowSet c := (courier_setCourier ..).trans (if_pos rfl)

theorem channelMoved_runningSet : ChannelMoved c d (runningSet c d) := channelMoved_loadedSet.setCourier
theorem arm_runningSet : (runningSet c d).f R.CR_CTL.ARM c = 0 := f_setCourier.trans arm_loadedSet
theorem state_runningSet : (runningSet c d).f R.CR_STAT.STATE c = 1 := f_setCourier.trans state_loadedSet
theorem done_runningSet : (runningSet c d).f R.CR_PROG.DONE c = 0 := f_setCourier.trans done_loadedSet
theorem loads_runningSet : (runningSet c d).f R.CR_STAT.LOADS c = (d.f R.CR_STAT.LOADS c + 1) % 2 ^ 32 := f_setCourier.trans loads_loadedSet

theorem cqCredit_loadedSet : (loadedSet c d).cqCredit ((loadedSet c d).f R.CR_CQ.CQ c) = d.cqCredit (d.f R.CR_CQ.CQ c) := by
  rw [channelMoved_loadedSet.recordQueue, channelMoved_loadedSet.cqCredit (f_lt d R.CR_CQ.CQ c)]

section
variable (hrec : d.f R.CR_ATTR.REC_EN c = 0)
include hrec

theorem recEn_shadowSet_off : (d.shadowSet c).recEn = false := by simp [Dev.shadowSet, Dev.on, hrec]

theorem courierLoad_passed (hcheck : d.courierCheck (d.shadowSet c) = none) : courierLoad c d m = (runningSet c d, m) :=
  courierLoad_eq.trans (courierStart_passed courier_loadedSet rfl (recEn_shadowSet_off hrec) (check_loadedSet.trans hcheck))

theorem courierLoad_failed (hcheck : d.courierCheck (d.shadowSet c) = some v) : courierLoad c d m = (endedSet c v 0 0 (runningSet c d), m) :=
  courierLoad_eq.trans (courierStart_failed courier_loadedSet rfl (recEn_shadowSet_off hrec) (check_loadedSet.trans hcheck))
end

section
variable (hrec : d.f R.CR_ATTR.REC_EN c = 1)
include hrec

theorem recEn_shadowSet_on : (d.shadowSet c).recEn = true := by simp [Dev.shadowSet, Dev.on, hrec]

theorem courierLoad_waits (hfull : d.cqCredit (d.f R.CR_CQ.CQ c) = 0) :
    courierLoad c d m = ((loadedSet c d).setCourier c { d.shadowSet c with waiting := true }, m) :=
  courierLoad_eq.trans (courierStart_waits courier_loadedSet (recEn_shadowSet_on hrec) (cqCredit_loadedSet.trans hfull))

theorem courierLoad_reserves (hslot : d.cqCredit (d.f R.CR_CQ.CQ c) ≠ 0) (hcheck : d.courierCheck (d.shadowSet c) = none) :
    courierLoad c d m = ((runningSet c d).bump R.CQ_CREDIT.RESERVED (d.f R.CR_CQ.CQ c), m) := by
  rw [courierLoad_eq, courierStart_reserves courier_loadedSet rfl (recEn_shadowSet_on hrec) (by rwa [cqCredit_loadedSet])
    (check_loadedSet.trans hcheck), channelMoved_loadedSet.recordQueue]
  rfl
end

end Sys2Proof.Laws
end

section
/-! Courier channels whose sets write records, and the commands of a channel (R63, R68 to R72). -/

namespace Sys2Proof.Laws
-- One theorem after another: a thread of its own for each passes the memory that the whole text may take.
set_option Elab.async false

open Sys2Proof Sys2Proof.Machine

variable {d e d0 : Dev} {c : Fin 16} {v : Verdict} {moved st q : Nat} {ok : Bool} {s : State} {m m0 m' : List Host.Cell} {a : Nat}

/-! ### A transfer's end with its record -/

/-- The record of a transfer as it is written (R72). -/
def recordOut (c : Nat) (v : Verdict) (moved st : Nat) (ok : Bool) (d : Dev) (m : List Host.Cell) : Dev × List Host.Cell :=
  writeRecord (d.f R.CR_CQ.CQ c) ((endedSet c v moved st d).courierRec c (d.courier c) v moved) ok (endedSet c v moved st d) m

theorem courierEnd_recorded (hrec : (d.courier c).recEn = true) : courierEnd c v moved st ok d m =
    ((recordOut c v moved st ok d m).1.drop R.CQ_CREDIT.RESERVED (d.f R.CR_CQ.CQ c), (recordOut c v moved st ok d m).2) := if_pos hrec

theorem word_recordOut {k : Nat} (hk : 0xE00000 ≤ k) (hk' : k < 0xE01000) :
    (recordOut c v moved st ok d m).1.word k = (endedSet c v moved st d).word k := by
  have hq : d.f R.CR_CQ.CQ c < 4096 := f_lt d R.CR_CQ.CQ c
  refine word_writeRecord (.inr (by omega)) ?_
  simp only [Fld.key, List.mem_cons, List.not_mem_nil, or_false]
  omega

/-- A field of the channel after the record of its transfer. -/
theorem field_recorded {x : Fld} (hk : 0xE00000 ≤ x.key c) (hk' : x.key c < 0xE01000) :
    ((recordOut c v moved st ok d m).1.drop R.CQ_CREDIT.RESERVED (d.f R.CR_CQ.CQ c)).f x c = (endedSet c v moved st d).f x c := by
  have hq : d.f R.CR_CQ.CQ c < 4096 := f_lt d R.CR_CQ.CQ c
  exact (f_set_apart _ _ _ _ _ _ (.inl (by
    simp only [Fld.key] at hk ⊢
    omega))).trans (f_of_word (word_recordOut hk hk'))

section
variable (hmoved : ChannelMoved c d d0) (hloc : d.f R.CQ_CTL.LOC (d.f R.CR_CQ.CQ c) = 0) (hcourier : d0.courier c = d.courier c)
  (hloads : d0.f R.CR_STAT.LOADS c = d.f R.CR_STAT.LOADS c)
include hmoved

theorem tail_recordOut : (recordOut c v moved st ok d0 m0).1.f R.CQ_STATE.TAIL (d.f R.CR_CQ.CQ c) =
    (d.f R.CQ_STATE.TAIL (d.f R.CR_CQ.CQ c) + 1) % 2 ^ 32 := by
  have hq : d.f R.CR_CQ.CQ c < 4096 := f_lt d R.CR_CQ.CQ c
  unfold recordOut
  rw [hmoved.recordQueue, tail_writeRecord hq, (channelMoved_endedSet hmoved).queue hq]

theorem reserved_recordOut : (recordOut c v moved st ok d0 m0).1.f R.CQ_CREDIT.RESERVED (d.f R.CR_CQ.CQ c) =
    d.f R.CQ_CREDIT.RESERVED (d.f R.CR_CQ.CQ c) := by
  have hq : d.f R.CR_CQ.CQ c < 4096 := f_lt d R.CR_CQ.CQ c
  unfold recordOut
  rw [hmoved.recordQueue, f_of_word (word_writeRecord (offPorts_cq _ hq (by decide)) (by
    simp only [Fld.key, List.mem_cons, List.not_mem_nil, or_false]
    omega)), (channelMoved_endedSet hmoved).queue hq]

theorem recordKey_endedSet : recordKey (endedSet c v moved st d0) (d.f R.CR_CQ.CQ c) = recordKey d (d.f R.CR_CQ.CQ c) := by
  have hq : d.f R.CR_CQ.CQ c < 4096 := f_lt d R.CR_CQ.CQ c
  have hkept := channelMoved_endedSet (v := v) (moved := moved) (st := st) hmoved
  unfold recordKey
  rw [hkept.queue (x := R.CQ_BIND.DST) hq, hkept.queue (x := R.CQ_BASE.ADDR) hq, hkept.queue (x := R.CQ_STATE.TAIL) hq,
    hkept.queue (x := R.CQ_CTL.SIZE_LOG) hq]

include hloads in
theorem nextRecord_endedSet {x : CourierX} {n : Nat} :
    nextRecord (endedSet c v moved st d0) (d.f R.CR_CQ.CQ c) ((endedSet c v moved st d0).courierRec c x v n) =
    recBytes (d.courierRec c x v n) (phaseOf (d.f R.CQ_CTL.SIZE_LOG (d.f R.CR_CQ.CQ c)) (d.f R.CQ_STATE.TAIL (d.f R.CR_CQ.CQ c))) := by
  have hq : d.f R.CR_CQ.CQ c < 4096 := f_lt d R.CR_CQ.CQ c
  have hkept := channelMoved_endedSet (v := v) (moved := moved) (st := st) hmoved
  unfold nextRecord Dev.courierRec
  rw [hkept.queue (x := R.CQ_STATE.TAIL) hq, hkept.queue (x := R.CQ_CTL.SIZE_LOG) hq, loads_endedSet, hloads]

include hloc in
theorem memGet_recordOut_outside (ha : ¬ (recordKey d (d.f R.CR_CQ.CQ c) ≤ a ∧ a < recordKey d (d.f R.CR_CQ.CQ c) + 32)) :
    memGet (recordOut c v moved st ok d0 m0).2 a = memGet m0 a := by
  have hq : d.f R.CR_CQ.CQ c < 4096 := f_lt d R.CR_CQ.CQ c
  unfold recordOut
  rw [hmoved.recordQueue]
  refine memGet_writeRecord_outside hq (((channelMoved_endedSet hmoved).queue hq).trans hloc) ?_
  rw [recordKey_endedSet hmoved]
  omega

include hloc hcourier hloads in
theorem memGet_recordOut_inside (hlo : recordKey d (d.f R.CR_CQ.CQ c) ≤ a) (hhi : a < recordKey d (d.f R.CR_CQ.CQ c) + 32) :
    memGet (recordOut c v moved st true d0 m0).2 a = (recBytes (d.courierRec c (d.courier c) v moved)
      (phaseOf (d.f R.CQ_CTL.SIZE_LOG (d.f R.CR_CQ.CQ c)) (d.f R.CQ_STATE.TAIL (d.f R.CR_CQ.CQ c)))).getD (a - recordKey d (d.f R.CR_CQ.CQ c)) 0 := by
  have hq : d.f R.CR_CQ.CQ c < 4096 := f_lt d R.CR_CQ.CQ c
  obtain ⟨i, rfl⟩ := Nat.exists_eq_add_of_le hlo
  unfold recordOut
  rw [hmoved.recordQueue, hcourier, Nat.add_sub_cancel_left, ← nextRecord_endedSet hmoved hloads, ← recordKey_endedSet hmoved]
  exact memGet_writeRecord_inside hq (((channelMoved_endedSet hmoved).queue hq).trans hloc) (by omega)
end

/-! ### The commands of a channel -/

section
variable (hs : s.dev.f R.SYS_BOOT.STATE = 4)
include hs

theorem exec_courierGo_busy (h : s.dev.f R.CR_STAT.STATE c = 1 ∨ s.dev.blkHeld 6 c = true) :
    exec (.courierGo c) s = .next (s.onDev (fun d => d.set R.CR_STAT.BUSY c 1)) := by
  have hopen : s.dev.courierOpen = true := ready_of hs
  change execCourierGo c s = _
  unfold execCourierGo
  rw [if_pos hopen, if_pos (by simpa using h)]

theorem exec_courierGo_load (hidle : s.dev.f R.CR_STAT.STATE c ≠ 1) (hfree : s.dev.blkHeld 6 c = false) :
    exec (.courierGo c) s = .next (s.onBoth (courierLoad c)) := by
  have hopen : s.dev.courierOpen = true := ready_of hs
  change execCourierGo c s = _
  unfold execCourierGo
  rw [if_pos hopen, if_neg (by simp [hidle, hfree])]

theorem exec_courierArm {on : Bool} (hfree : s.dev.blkHeld 6 c = false) :
    exec (.courierArm c on) s = .next { s with dev := s.dev.set R.CR_CTL.ARM c (if on then 1 else 0) } := by
  have hopen : s.dev.courierOpen = true := ready_of hs
  change execCourierArm c on s = _
  unfold execCourierArm State.onDev
  dsimp only
  rw [if_pos hopen, if_neg (by simp [hfree])]

theorem exec_courierAbort_idle {n : Nat} (hidle : s.dev.f R.CR_STAT.STATE c ≠ 1) :
    exec (.courierAbort c n ok) s = .next { s with dev := (s.dev.set R.CR_CTL.ARM c 0).set R.CR_STAT.STATE c 0 } := by
  have hopen : s.dev.courierOpen = true := ready_of hs
  change execCourierAbort c n ok s = _
  unfold execCourierAbort State.onBoth
  dsimp only
  rw [if_pos hopen, if_neg hidle]
end

section
variable (hrun : s.dev.f R.CR_STAT.STATE c = 1) (hwait : (s.dev.courier c).waiting = false)
include hrun hwait

theorem exec_courierAbort_running {n : Nat} (hs : s.dev.f R.SYS_BOOT.STATE = 4)
    (hr : courierEnd c ⟨0x0F, 0x40⟩ ((s.dev.courier c).moves.take (4096 * n)).length 0 ok (s.dev.set R.CR_CTL.ARM c 0).usedFree
      (courierCopy s.dev.freeCtr ((s.dev.courier c).moves.take (4096 * n)) s.mem) = (e, m')) :
    exec (.courierAbort c n ok) s = .next { s with dev := e, mem := m' } := by
  have hopen : s.dev.courierOpen = true := ready_of hs
  change execCourierAbort c n ok s = _
  unfold execCourierAbort State.onBoth
  dsimp only
  rw [if_pos hopen, if_pos hrun, if_neg (by simp [hwait]), hr]

theorem exec_courierMemoryError {n : Nat}
    (hr : courierEnd c ⟨0x0F, 0x30⟩ ((s.dev.courier c).moves.take n).length 2 ok s.dev.usedFree
      (courierCopy s.dev.freeCtr ((s.dev.courier c).moves.take n) s.mem) = (e, m')) :
    exec (.courierMemoryError c n ok) s = .next { s with dev := e, mem := m' } := by
  change execCourierMemoryError c n ok s = _
  unfold execCourierMemoryError State.onBoth
  dsimp only
  rw [if_pos ⟨hrun, hwait⟩, hr]

section
variable (hr : courierEnd c ⟨0, 0⟩ (s.dev.courier c).moves.length 0 ok s.dev.usedFree
  (courierCopy s.dev.freeCtr (s.dev.courier c).moves s.mem) = (e, m'))
include hr

theorem exec_courierTransferEnd_rest (harm : e.f R.CR_CTL.ARM c = 0) :
    exec (.courierTransferEnd c ok) s = .next { s with dev := e, mem := m' } := by
  change execCourierTransferEnd c ok s = _
  unfold execCourierTransferEnd State.onBoth
  dsimp only
  rw [if_pos hrun, if_neg (by simp [hwait]), hr, if_neg (by simp [Dev.on, harm])]

theorem exec_courierTransferEnd_next {e' : Dev} {m'' : List Host.Cell} (harm : e.f R.CR_CTL.ARM c = 1) (hload : courierLoad c e m' = (e', m'')) :
    exec (.courierTransferEnd c ok) s = .next { s with dev := e', mem := m'' } := by
  change execCourierTransferEnd c ok s = _
  unfold execCourierTransferEnd State.onBoth
  dsimp only
  rw [if_pos hrun, if_neg (by simp [hwait]), hr, if_pos (by simp [Dev.on, harm]), hload]
end
end

end Sys2Proof.Laws
end

section
/-! The statement about courier channels (R68 to R72). -/

namespace Sys2Proof.Laws
-- One theorem after another: a thread of its own for each passes the memory that the whole text may take.
set_option Elab.async false

open Sys2Proof Sys2Proof.Machine

variable {d e : Dev} {c : Fin 16} {v : Verdict} {moved st : Nat} {ok : Bool} {s : State} {m m' : List Host.Cell} {a : Nat}

theorem courier_bump {x : Fld} {i n j : Nat} : (d.bump x i n).courier j = d.courier j := rfl

theorem status_courierCheck {x : CourierX} (h : d.courierCheck x = some v) : v.status < 256 := by
  unfold Dev.courierCheck at h
  split at h
  · cases h; decide
  · split at h
    · cases h; decide
    · split at h <;> cases h
      decide

/-- What the end of a transfer with a record leaves, for a channel whose ARM alone may have changed before (R72). -/
theorem courierEnd_effect {d0 : Dev} {m0 : List Host.Cell} {mv : List (Nat × Nat)} {ctr : Nat} (hmoved : ChannelMoved c s.dev d0)
    (hcourier : d0.courier c = s.dev.courier c) (hloads : d0.f R.CR_STAT.LOADS c = s.dev.f R.CR_STAT.LOADS c)
    (hrec : (s.dev.courier c).recEn = true) (hloc : s.dev.f R.CQ_CTL.LOC (s.dev.f R.CR_CQ.CQ c) = 0) (hst : st < 4) (hv : v.status < 256)
    (hm : m0 = courierCopy ctr mv s.mem) (hr : courierEnd c v mv.length st ok d0 m0 = (e, m')) :
    let q := s.dev.f R.CR_CQ.CQ c
    let i := s.dev.f R.CQ_STATE.TAIL q
    let sl := s.dev.f R.CQ_CTL.SIZE_LOG q
    let at_ := memKey (hostSpace (s.dev.f R.CQ_BIND.DST q)) ((s.dev.f R.CQ_BASE.ADDR q + 32 * (i % 2 ^ sl)) % 2 ^ 64)
    let rec_ := recBytes (s.dev.courierRec c (s.dev.courier c) v mv.length) (phaseOf sl i)
    e.f R.CR_STAT.STATE c = st ∧ e.f R.CR_STAT.LAST c = v.status ∧ e.f R.CR_PROG.DONE c = mv.length % 2 ^ 64 ∧
      e.f R.CQ_STATE.TAIL q = (i + 1) % 2 ^ 32 ∧ e.f R.CQ_CREDIT.RESERVED q = s.dev.f R.CQ_CREDIT.RESERVED q - 1 ∧
      (∀ a, at_ ≤ a → a < at_ + 32 → ok = true → memGet m' a = rec_.getD (a - at_) 0) ∧
      ∀ a, ¬ (at_ ≤ a ∧ a < at_ + 32) → a ∉ mv.map (·.2) → memGet m' a = memGet s.mem a := by
  have hq : s.dev.f R.CR_CQ.CQ c < 4096 := f_lt s.dev R.CR_CQ.CQ c
  rw [courierEnd_recorded (by rw [hcourier, hrec])] at hr
  obtain ⟨he, hm'⟩ := Prod.mk.inj hr
  rw [← he, ← hm']
  refine ⟨?_, ?_, ?_, ?_, ?_, ?_, ?_⟩
  · exact (field_recorded (by simp only [Fld.key]; omega) (by simp only [Fld.key]; omega)).trans (state_endedSet hst)
  · exact (field_recorded (by simp only [Fld.key]; omega) (by simp only [Fld.key]; omega)).trans (last_endedSet hv)
  · exact (field_recorded (by simp only [Fld.key]; omega) (by simp only [Fld.key]; omega)).trans done_endedSet
  · exact (f_set_apart _ _ _ _ _ _ (.inl (by simp only [Fld.key]; omega))).trans (tail_recordOut hmoved)
  · rw [hmoved.recordQueue, f_drop_same (by decide), reserved_recordOut hmoved]
  · rintro a hlo hhi rfl
    exact memGet_recordOut_inside hmoved hloc hcourier hloads hlo hhi
  · intro a hout hoff
    rw [memGet_recordOut_outside hmoved hloc hout, hm, memGet_courierCopy_off hoff]

/-- Settles O34: loads, ends and their records, from the lemmas about each; the bytes of a transfer from those about its moves. -/
theorem courierChannelsRunTheirTransfers : Obligations.CourierChannelsRunTheirTransfers := by
  unfold Obligations.CourierChannelsRunTheirTransfers
  refine ⟨?_, ?_, ?_, ?_, ?_, ?_, ?_, ?_, ?_, ?_, ?_⟩
  · intro c s hs hbusy
    refine completes_onDev (exec_courierGo_busy hs hbusy) rfl ?_
    exact ⟨f_set_same _ _ _ _ (by decide), sameMem_of_eq rfl, sameParts_set .., word_frame_set (fun _ _ => rfl) _ _ _ (by simp)⟩
  · intro c s hs hidle hfree hrec
    have hexec := exec_courierGo_load hs hidle hfree
    cases hcheck : s.dev.courierCheck (s.dev.shadowSet c) with
    | none =>
      refine completes_onBoth hexec (courierLoad_passed hrec hcheck) ?_
      exact ⟨arm_runningSet, loads_runningSet, done_runningSet, courier_runningSet, sameMem_of_eq rfl, channelMoved_runningSet, state_runningSet⟩
    | some v =>
      refine completes_onBoth hexec (courierLoad_failed hrec hcheck) ?_
      exact ⟨arm_endedSet.trans arm_runningSet, loads_endedSet.trans loads_runningSet, done_endedSet.trans (Nat.zero_mod _),
        courier_endedSet.trans courier_runningSet, sameMem_of_eq rfl,
        channelMoved_endedSet channelMoved_runningSet, state_endedSet (by decide), last_endedSet (status_courierCheck hcheck)⟩
  · intro c on s hs hfree
    refine ⟨_, exec_courierArm hs hfree, ?_⟩
    exact ⟨(f_set_same _ _ _ _ (by decide)).trans (by cases on <;> rfl), sameMem_of_eq rfl, sameParts_set ..,
      word_frame_set (fun _ _ => rfl) _ _ _ (by simp)⟩
  · intro c n ok s hs hidle
    refine ⟨_, exec_courierAbort_idle hs hidle, ?_⟩
    exact ⟨(f_set_apart _ _ _ _ _ _ (.inl (by simp only [Fld.key]; omega))).trans (f_set_same _ _ _ _ (by decide)), f_set_same _ _ _ _ (by decide),
      sameMem_of_eq rfl, (sameParts_set ..).trans (sameParts_set ..),
      word_frame_set (word_frame_set (fun _ _ => rfl) _ _ _ (by simp)) _ _ _ (by simp)⟩
  · intro c n ok s hs hrun hwait hrec
    refine ⟨_, exec_courierAbort_running hrun hwait hs (courierEnd_bare hrec), ?_⟩
    refine ⟨arm_endedSet.trans (f_set_same _ _ _ _ (by decide)), state_endedSet (by decide), last_endedSet (by decide), ?_,
      fun _ => memGet_courierCopy_off, channelMoved_endedSet .disarmed⟩
    rw [← List.length_take]
    exact done_endedSet
  · intro c ok s hrun hwait hrec harm
    refine ⟨_, exec_courierTransferEnd_rest hrun hwait (courierEnd_bare hrec) (arm_endedSet.trans harm), ?_⟩
    refine ⟨state_endedSet (by decide), last_endedSet (by decide), done_endedSet, fun p hp hsrc => ?_, fun _ => memGet_courierCopy_off,
      fun _ => word_endedSet⟩
    obtain ⟨q, hq, hdst, hbyte⟩ := courierByte_moved (ctr := s.dev.freeCtr) (m := s.mem) hp hsrc
    exact ⟨q, hq, hdst, (memGet_courierCopy_on (List.mem_map_of_mem hp)).trans hbyte⟩
  · intro c ok s hrun hwait hrec harm hnext hcheck
    have hmoved := channelMoved_endedSet (c := c) (v := ⟨0, 0⟩) (moved := (s.dev.courier c).moves.length) (st := 0)
      (.ofWords rfl : ChannelMoved c s.dev s.dev.usedFree)
    have hset := hmoved.shadowSet
    refine ⟨_, exec_courierTransferEnd_next hrun hwait (courierEnd_bare hrec) (arm_endedSet.trans harm)
      (courierLoad_passed (hmoved.recordOn.trans hnext) (by rw [hset, hmoved.courierCheck, hcheck])), ?_⟩
    exact ⟨state_runningSet, arm_runningSet, loads_runningSet.trans (by rw [loads_endedSet]; rfl), courier_runningSet.trans hset,
      fun _ => memGet_courierCopy_off⟩
  · intro c n ok s hrun hwait hrec
    refine ⟨_, exec_courierMemoryError hrun hwait (courierEnd_bare hrec), ?_⟩
    refine ⟨state_endedSet (by decide), last_endedSet (by decide), ?_, arm_endedSet, fun _ => memGet_courierCopy_off, fun _ => word_endedSet⟩
    rw [← List.length_take]
    exact done_endedSet
  · intro c s hs hidle hfree hrec hfull
    refine completes_onBoth (exec_courierGo_load hs hidle hfree) (courierLoad_waits hrec hfull) ?_
    exact ⟨f_setCourier.trans state_loadedSet, (courier_setCourier ..).trans (if_pos rfl), sameMem_of_eq rfl, channelMoved_loadedSet.setCourier⟩
  · intro c s hs hidle hfree hrec hslot hcheck
    have hq : s.dev.f R.CR_CQ.CQ c < 4096 := f_lt s.dev R.CR_CQ.CQ c
    refine completes_onBoth (exec_courierGo_load hs hidle hfree) (courierLoad_reserves hrec hslot hcheck) ?_
    refine ⟨(f_bump_apart _ _ _ _ _ _ (.inl (by simp only [Fld.key]; omega))).trans state_runningSet, courier_bump.trans courier_runningSet,
      (f_bump_same _ _ _ _ (by decide)).trans ?_, sameMem_of_eq rfl, ?_⟩
    · exact congrArg (fun n => min (n + 1) (2 ^ 32 - 1)) (channelMoved_runningSet.queue (x := R.CQ_CREDIT.RESERVED) hq)
    · exact word_frame_set (fun k hk => channelMoved_runningSet k (fun h => hk (by
        simp only [List.mem_cons, List.not_mem_nil, or_false] at h ⊢
        omega))) _ _ _ (by simp)
  · intro c n ok x s hx hs hrun hwait hrec harm hloc
    simp only [List.mem_cons, List.not_mem_nil, or_false] at hx
    have hfree : ChannelMoved c s.dev s.dev.usedFree := .ofWords rfl
    rcases hx with rfl | rfl | rfl <;> dsimp only
    · refine ⟨_, exec_courierTransferEnd_rest hrun hwait Prod.mk.eta.symm ?_,
        courierEnd_effect hfree rfl rfl hrec hloc (by decide) (by decide) rfl Prod.mk.eta.symm⟩
      rw [courierEnd_recorded (d := s.dev.usedFree) hrec]
      exact (field_recorded (by simp only [Fld.key]; omega) (by simp only [Fld.key]; omega)).trans (arm_endedSet.trans harm)
    · exact ⟨_, exec_courierAbort_running hrun hwait hs Prod.mk.eta.symm, courierEnd_effect .disarmed rfl
        (f_set_apart _ _ _ _ _ _ (.inl (by simp only [Fld.key]; omega))) hrec hloc (by decide) (by decide) rfl Prod.mk.eta.symm⟩
    · exact ⟨_, exec_courierMemoryError hrun hwait Prod.mk.eta.symm,
        courierEnd_effect hfree rfl rfl hrec hloc (by decide) (by decide) rfl Prod.mk.eta.symm⟩

end Sys2Proof.Laws
end

section
/-! A record whose operation names a context of a pool that no register file holds (R65, R67). -/

namespace Sys2Proof.Laws
-- One theorem after another: a thread of its own for each passes the memory that the whole text may take.
set_option Elab.async false

open Sys2Proof Sys2Proof.Machine

/-- A failed context whose buffers are of pool 49,912. BPM has far fewer pools; the words of this one would stand where RING_RETAIN of queue 2
stands. -/
def strayCtx : Ctx := { Ctx.empty with state := .failed, txPool := 49912 }

/-- A done operation of ring 0 on that context. -/
def strayOp : Op := { newOp 0 0 ⟨0, 0, 0, 0, 0, 0, 0, 0⟩ with stage := .done, ctx := some 5 }

/-- A gateway with that operation, whose record goes to queue 2. -/
def strayPool : State := State.reset.onDev (fun d => Dev.setCtx { d.set R.SQ_CTL.CQ 0 2 with ops := [strayOp] } 5 strayCtx)

/-- What a command leaves in a field of the register file; 1 where it has no next state. -/
def fieldLeft (r : Res) (x : Fld) (i : Nat) : Nat :=
  match r with
  | .next t => t.dev.f x i
  | _ => 1

theorem retain_strayPool : fieldLeft (exec (.completionRecordWrite 0 0 false) strayPool) R.RING_RETAIN.TAIL 2 = 0 := by decide

theorem queue_strayPool : strayPool.dev.f R.SQ_CTL.CQ ((0 : Fin 4096) : Nat) = 2 := by decide

theorem tail_strayPool : strayPool.dev.f R.CQ_STATE.TAIL 2 = 0 := by decide

/-- Refutes O18: a context may name a pool beyond BPM's, and closing it, once its last operation's record is written, then writes that pool's free
and reserved counts over RING_RETAIN of the queue. Contexts are opened on pools of six bits, so that no run from reset comes to this one: what the
statement lacks is a premise about pools. -/
theorem not_completionRecordsAreWritten : ¬ Obligations.CompletionRecordsAreWritten := by
  unfold Obligations.CompletionRecordsAreWritten
  intro h
  obtain ⟨t, ht, -, -, -, -, hretain, -, -, -⟩ := h 0 0 false strayOp strayPool (by decide) (by decide) (by decide) (by decide)
  have hone : t.dev.f R.RING_RETAIN.TAIL 2 = 1 := by rwa [queue_strayPool, tail_strayPool] at hretain
  have hzero : t.dev.f R.RING_RETAIN.TAIL 2 = 0 := by
    have hleft := retain_strayPool
    rwa [ht] at hleft
  omega

end Sys2Proof.Laws
end

section
/-! Packets and completions of memory requests (R55, R331 to R339): what every accepted packet does first, the request it answers, and what stays as
it is while held reads are sent. -/

namespace Sys2Proof.Laws
-- One theorem after another: a thread of its own for each passes the memory that the whole text may take.
set_option Elab.async false

open Sys2Proof Sys2Proof.Machine

variable {d e : Dev} {s : State} {m m' : List Host.Cell} {x : LrmIn} {q : Req} {raw : List Byte} {p typ tag k n : Nat} {use : ReqUse}

/-! ### Every accepted packet -/

/-- The block once an accepted packet of a tenant without a meter is counted (R338). -/
def counted (d : Dev) (x : LrmIn) : Dev := d.bump R.FTEN.GREEN x.tenant x.len

theorem headerSample_off {dir time : Nat} (h : d.f R.FAB_HS.EN = 0) : headerSample p dir time raw d m = (d, m) :=
  if_pos (by simp [Dev.sampling, Dev.on, h])

theorem meter_unmetered {t b : Nat} (h : d.f R.FTEN.EN t = 0) : d.meter t b = (d.bump R.FTEN.GREEN t b, false) := if_neg (by simp [Dev.on, h])

theorem lrmReceive_down {act : LrmIn → Bool → Dev → List Host.Cell → Dev × List Host.Cell} (h : s.dev.lportUp p = false) :
    lrmReceive p raw typ act s = s := if_pos (by simp [h])

/-- An accepted packet is counted, then acts (R331, R338). -/
theorem lrmReceive_accepted {act : LrmIn → Bool → Dev → List Host.Cell → Dev × List Host.Cell} {pkt : LrmPacket} (h : LrmArrives s p pkt typ)
    (hin : lrmTypeIn typ = true) (hr : act (lrmParse pkt.raw) false (counted s.dev (lrmParse pkt.raw)) s.mem = (e, m')) :
    lrmReceive p pkt.raw typ act s = { s with dev := e, mem := m' } := by
  obtain ⟨hon, hup, hquiet, hok, htyp, hmeter⟩ := h
  unfold lrmReceive State.onBoth
  rw [if_neg (by simp [hup])]
  dsimp only
  rw [headerSample_off hquiet, if_neg (by simp [htyp]), if_neg (by simp [Dev.on, hon]), if_neg (by simp [hok, htyp, hin]), meter_unmetered hmeter]
  exact congrArg (fun r : Dev × List Host.Cell => { s with dev := r.1, mem := r.2 }) hr

/-- A packet that fails a check of R331 is only counted. -/
theorem lrmReceive_dropped {act : LrmIn → Bool → Dev → List Host.Cell → Dev × List Host.Cell} (hon : s.dev.f R.FAB_CTL.ENABLE = 1)
    (hup : s.dev.lportUp p = true) (hquiet : s.dev.f R.FAB_HS.EN = 0) (hbad : s.dev.lrmOk raw = false) :
    lrmReceive p raw typ act s = { s with dev := s.dev.bump R.FAB_PORT_CNT.RX_DROP (p / 4) } := by
  unfold lrmReceive State.onBoth
  rw [if_neg (by simp [hup])]
  dsimp only
  rw [headerSample_off hquiet, if_neg (by simp [hbad]), if_neg (by simp [Dev.on, hon]), if_pos (by simp [hbad])]

/-- A command that hands on a packet completes with what the packet's act answers. -/
theorem completes_lrm {act : LrmIn → Bool → Dev → List Host.Cell → Dev × List Host.Cell} {pkt : LrmPacket} {c : Instr} {P : State → Prop}
    (hexec : exec c s = .next (lrmReceive p pkt.raw typ act s)) (h : LrmArrives s p pkt typ) (hin : lrmTypeIn typ = true)
    (hr : act (lrmParse pkt.raw) false (counted s.dev (lrmParse pkt.raw)) s.mem = (e, m')) (hP : P { s with dev := e, mem := m' }) :
    Completes c s P :=
  ⟨_, hexec.trans (congrArg Host.Outcome.next (lrmReceive_accepted h hin hr)), hP⟩

theorem sameParts_counted : SameParts d (counted d x) := sameParts_set ..

theorem word_counted (h : k ≠ R.FTEN.GREEN.key x.tenant) : (counted d x).word k = d.word k := word_bump_other _ _ _ _ h

theorem f_counted {y : Fld} {i : Nat} (h : y.key i < 0x24000000) : (counted d x).f y i = d.f y i :=
  f_of_word (word_counted (by simp only [Fld.key] at h ⊢; omega))

theorem reqFor_counted {y : LrmIn} {write : Bool} : (counted d x).reqFor y write = d.reqFor y write := rfl

/-! ### Requests -/

theorem recoverReq_none (h : d.recovery = none) : d.recoverReq tag = d := by
  unfold Dev.recoverReq
  rw [h]

theorem recoverReq_counted (h : d.recovery = none) : (counted d x).recoverReq tag = counted d x := recoverReq_none h

theorem parts_dropReq (h : SameParts d e) : { e.dropReq tag with words := d.words, reqs := d.reqs } = d :=
  congrArg (fun c : Dev => { c with reqs := d.reqs }) h

/-! ### Watched requests, and reads sent late, leave rings as they are -/

theorem word_recoverEnd {r : Recovery} (h : k ≠ R.HEALTH_RECOV.LAST.key 0) : (d.recoverEnd r).word k = d.word k := by
  have hmax : k ≠ R.HEALTH_RECOV.MAX.key 0 := h
  have hover : k ≠ R.HEALTH_RECOV.OVER.key 0 := h
  unfold Dev.recoverEnd
  extract_lets d1 us d2
  have h2 : d2.word k = d.word k := (word_set_other _ _ _ _ hmax).trans (word_set_other _ _ _ _ h)
  split
  · rfl
  · split
    · rfl
    · split
      · exact (word_bump_other _ _ _ _ hover).trans h2
      · exact h2

/-- Everything but the register words and the measured recovery. -/
def sansRecovery (d : Dev) : Dev := { d with words := [], recovery := none }

theorem rings_of_sansRecovery (h : sansRecovery e = sansRecovery d) : e.rings = d.rings :=
  show (sansRecovery e).rings = (sansRecovery d).rings from congrArg Dev.rings h

theorem sansRecovery_recoverEnd {r : Recovery} : sansRecovery (d.recoverEnd r) = sansRecovery d := by
  unfold Dev.recoverEnd
  dsimp only
  split
  · rfl
  · split
    · rfl
    · split <;> rfl

theorem sansRecovery_recoverSweep : sansRecovery d.recoverSweep = sansRecovery d := by
  unfold Dev.recoverSweep
  split
  · rfl
  · split
    · rfl
    · exact sansRecovery_recoverEnd

theorem sansRecovery_recoverReq : sansRecovery (d.recoverReq tag) = sansRecovery d := by
  unfold Dev.recoverReq
  split
  · rfl
  · split
    · exact sansRecovery_recoverEnd
    · rfl

theorem word_recoverReq (h : k ≠ R.HEALTH_RECOV.LAST.key 0) : (d.recoverReq tag).word k = d.word k := by
  unfold Dev.recoverReq
  split
  · rfl
  · split
    · exact word_recoverEnd h
    · rfl

/-- d holds the rings of a, the words of a but the counters of the fabric ports, and requests under the tags of a. -/
structure ReadsSent (a d : Dev) : Prop where
  rings : d.rings = a.rings
  words : ∀ k, OffPorts k → d.word k = a.word k
  tags : d.reqs.map (·.tag) = a.reqs.map (·.tag)

theorem reqs_transmit : (d.transmit q).reqs = d.reqs := congrArg Prod.fst (asked_transmit q)

theorem readsSent_releaseReads : ReadsSent d d.releaseReads := by
  refine List.foldlRecOn (motive := ReadsSent d) _ _ ⟨rfl, fun _ _ => rfl, rfl⟩ (fun a h q _ => ?_)
  split
  · refine ⟨(sansLrm_rings (sansLrm_transmit _)).trans h.rings, fun k hk => (word_transmit _ hk).trans (h.words k hk), ?_⟩
    rw [reqs_transmit, ← h.tags, List.map_map]
    refine List.map_congr_left (fun r _ => ?_)
    dsimp only [Function.comp_apply]
    split <;> rfl
  · exact h

theorem releaseReads_none (h : ∀ r ∈ d.reqs, 0 < r.attempts) : d.releaseReads = d := by
  have hnone : d.reqs.filter (fun q => q.attempts == 0) = [] := by
    rw [List.filter_eq_nil_iff]
    intro r hr
    have := h r hr
    simp
    omega
  unfold Dev.releaseReads
  rw [hnone]
  rfl

/-! ### Fetched descriptors that arrive -/

/-- The descriptors that a completed fetch brings (R55). -/
def arrived (d : Dev) (n k : Nat) (data : List Byte) : List (Nat × Desc) :=
  (List.range k).map (fun i => (idxAdd (d.f R.SQ_STATE.HEAD n) i, descOf (slice data (64 * i) 64)))

/-- A block whose ring n has taken in the k descriptors of its fetch (R55). -/
def tookIn (d : Dev) (n k : Nat) (data : List Byte) : Dev :=
  (d.set R.SQ_STATE.HEAD n (idxAdd (d.f R.SQ_STATE.HEAD n) k)).setRing n
    { d.ring n with fetched := (d.ring n).fetched ++ arrived d n k data, reading := none }

theorem fetchArrive_reading {a : Nat} {data : List Byte} (h : (d.ring n).reading = some (a, k)) : d.fetchArrive n data = tookIn d n k data := by
  unfold Dev.fetchArrive
  rw [h]
  rfl

theorem ring_tookIn {data : List Byte} :
    (tookIn d n k data).ring n = { d.ring n with fetched := (d.ring n).fetched ++ arrived d n k data, reading := none } :=
  (ring_setRing ..).trans (if_pos rfl)

theorem head_tookIn {data : List Byte} : (tookIn d n k data).f R.SQ_STATE.HEAD n = idxAdd (d.f R.SQ_STATE.HEAD n) k :=
  (f_set_same _ _ _ _ (by decide)).trans (Nat.mod_eq_of_lt (idxAdd_lt _ _))

theorem word_tookIn {data : List Byte} {j : Nat} (h : j ≠ R.SQ_STATE.HEAD.key n) : (tookIn d n k data).word j = d.word j := word_set_other _ _ _ _ h

/-! ### Limiters -/

theorem find?_tabIns {α : Type} (i : Nat) (v : α) (l : List (Nat × α)) : (tabIns i v l).find? (fun e => e.1 == i) = some (i, v) := by
  induction l with
  | nil => simp [tabIns]
  | cons p t ih =>
    obtain ⟨j, u⟩ := p
    unfold tabIns
    split
    · simp
    · next hlt =>
      split
      · simp
      · next hne =>
        rw [List.find?_cons_of_neg (by simpa using fun he => hne he.symm)]
        exact ih

end Sys2Proof.Laws
end

section
/-! Ports that come up and go down, and the statement about memory requests (R55, R330 to R339). -/

namespace Sys2Proof.Laws
-- One theorem after another: a thread of its own for each passes the memory that the whole text may take.
set_option Elab.async false

open Sys2Proof Sys2Proof.Machine

variable {d e : Dev} {s : State} {m m' : List Host.Cell} {q : Req} {k n : Nat} {p : Fin 128}

/-! ### Alarms and the start of a measured recovery -/

/-- What waits on the ports, and the requests outstanding. -/
def waits (d : Dev) : List (Nat × List LrmOut) × List (Nat × List PtpOut) × List Req := (d.portQ, d.ptpQ, d.reqs)

theorem portQueue_of_waits {j : Nat} (h : waits e = waits d) : e.portQueue j = d.portQueue j :=
  congrArg (tabGet (fun _ => []) · j) (congrArg Prod.fst h)

theorem ptpQueue_of_waits {j : Nat} (h : waits e = waits d) : e.ptpQueue j = d.ptpQueue j :=
  congrArg (tabGet (fun _ => []) · j) (congrArg (fun w => w.2.1) h)

theorem reqs_of_waits (h : waits e = waits d) : e.reqs = d.reqs := congrArg (fun w => w.2.2) h

section
variable {uclass unit cond level detail kind peers : Nat}

theorem waits_alarm : waits (d.alarm uclass unit cond level detail kind peers) = waits d := by
  unfold Dev.alarm
  refine (apply_ite waits _ _ _).trans (ite_eq_iff'.2 ⟨fun _ => rfl, fun _ => ?_⟩)
  refine (apply_ite waits _ _ _).trans (ite_eq_iff'.2 ⟨fun _ => rfl, fun _ => ?_⟩)
  refine (apply_ite waits _ _ _).trans (ite_eq_iff'.2 ⟨fun _ => rfl, fun _ => ?_⟩)
  dsimp only
  split <;> rfl

theorem word_alarm (h : k ≠ R.HEALTH_ALM_DROP.OVERFLOW.key 0) : (d.alarm uclass unit cond level detail kind peers).word k = d.word k := by
  have hbump : (d.bump R.HEALTH_ALM_DROP.OVERFLOW 0).word k = d.word k := word_bump_other _ _ _ _ h
  unfold Dev.alarm
  refine (apply_ite (Dev.word · k) _ _ _).trans (ite_eq_iff'.2 ⟨fun _ => rfl, fun _ => ?_⟩)
  refine (apply_ite (Dev.word · k) _ _ _).trans (ite_eq_iff'.2 ⟨fun _ => rfl, fun _ => ?_⟩)
  refine (apply_ite (Dev.word · k) _ _ _).trans (ite_eq_iff'.2 ⟨fun _ => rfl, fun _ => ?_⟩)
  dsimp only
  split <;> exact hbump
end

theorem waits_of_sansRecovery (h : sansRecovery e = sansRecovery d) : waits e = waits d :=
  show waits (sansRecovery e) = waits (sansRecovery d) from congrArg waits h

theorem waits_recoverStart {pick : Nat → LogEnt → Bool} {l : List Nat} : waits (d.recoverStart pick l) = waits d := by
  unfold Dev.recoverStart
  dsimp only
  have hsweep : waits d.recoverSweep = waits d := waits_of_sansRecovery sansRecovery_recoverSweep
  split
  · exact hsweep
  · split <;> exact hsweep

theorem word_recoverSweep (h : k ≠ R.HEALTH_RECOV.LAST.key 0) : d.recoverSweep.word k = d.word k := by
  unfold Dev.recoverSweep
  split
  · rfl
  · split
    · rfl
    · exact word_recoverEnd h

theorem word_recoverStart {pick : Nat → LogEnt → Bool} {l : List Nat} (h : k ≠ R.HEALTH_RECOV.LAST.key 0) :
    (d.recoverStart pick l).word k = d.word k := by
  unfold Dev.recoverStart
  dsimp only
  have hsweep : d.recoverSweep.word k = d.word k := word_recoverSweep h
  split
  · exact hsweep
  · split <;> exact hsweep

/-! ### The UP bits of a port -/

theorem lportExists_congr (h : e.f R.FAB_PORT_CFG.MODE (p.val / 4) = d.f R.FAB_PORT_CFG.MODE (p.val / 4)) : e.lportExists p = d.lportExists p := by
  unfold Dev.lportExists
  rw [h]

/-- A port that comes up (R330). -/
def raised (d : Dev) (p : Nat) : Dev := d.set R.FAB_PORT_STAT.UP (p / 4) (d.f R.FAB_PORT_STAT.UP (p / 4) ||| 2 ^ (p % 4))

theorem up_raised : (raised d p).f R.FAB_PORT_STAT.UP (p.val / 4) = d.f R.FAB_PORT_STAT.UP (p.val / 4) ||| 2 ^ (p.val % 4) := by
  have hbit : 2 ^ (p.val % 4) < 2 ^ 4 := Nat.pow_lt_pow_right (by decide) (Nat.mod_lt _ (by decide))
  exact (f_set_same _ _ _ _ (by decide)).trans (Nat.mod_eq_of_lt (Nat.or_lt_two_pow (f_lt d R.FAB_PORT_STAT.UP (p.val / 4)) hbit))

theorem lportUp_raised (h : d.lportExists p = true) : (raised d p).lportUp p = true := by
  have hexists : (raised d p).lportExists p = true :=
    (lportExists_congr (f_set_apart _ _ _ _ _ _ (.inl (by simp only [Fld.key]; omega)))).trans h
  unfold Dev.lportUp
  rw [hexists, up_raised, Nat.testBit_or, Nat.testBit_two_pow_self, Bool.or_true]
  rfl

theorem testBit_cleared : ∀ v < 16, ∀ k < 4, v.testBit k = true → ((v - 2 ^ k) % 2 ^ 4).testBit k = false := by decide

/-- A port that goes down, its requests watched from now on (R330, R376). -/
def lowered (d : Dev) (p : Nat) (hit : List Nat) : Dev :=
  ((d.recoverStart (fun _ _ => false) hit).set R.FAB_PORT_STAT.UP (p / 4) (d.f R.FAB_PORT_STAT.UP (p / 4) - 2 ^ (p % 4))).discardPort p

theorem lportUp_lowered {hit : List Nat} {uclass unit cond level detail : Nat} (h : d.lportUp p = true) :
    ((lowered d p hit).alarm uclass unit cond level detail).lportUp p = false := by
  have hbit : (d.f R.FAB_PORT_STAT.UP (p.val / 4)).testBit (p.val % 4) = true := (Bool.and_eq_true_iff.1 h).2
  have hup : ((lowered d p hit).alarm uclass unit cond level detail).f R.FAB_PORT_STAT.UP (p.val / 4) =
      (d.f R.FAB_PORT_STAT.UP (p.val / 4) - 2 ^ (p.val % 4)) % 2 ^ 4 := by
    rw [f_of_word (word_alarm (by simp only [Fld.key]; omega))]
    exact f_set_same _ _ _ _ (by decide)
  unfold Dev.lportUp
  rw [hup, testBit_cleared _ (f_lt d R.FAB_PORT_STAT.UP (p.val / 4)) _ (Nat.mod_lt _ (by decide)) hbit, Bool.and_false]

theorem portQueue_discardPort {j : Nat} : (d.discardPort j).portQueue j = [] := (portQueue_setPortQueue d j j []).trans (if_pos rfl)

theorem ptpQueue_discardPort {j : Nat} : (d.discardPort j).ptpQueue j = [] :=
  (ptpQueue_setPtpQueue (d.setPortQueue j []) j j []).trans (if_pos rfl)

theorem waits_lowered {hit : List Nat} :
    (lowered d p hit).portQueue p = [] ∧ (lowered d p hit).ptpQueue p = [] ∧ (lowered d p hit).reqs = d.reqs :=
  ⟨portQueue_discardPort, ptpQueue_discardPort, congrArg (fun w => w.2.2) (waits_recoverStart (d := d))⟩

/-! ### One act of a packet or a completion at a time -/

section
variable {pkt : LrmPacket} {faults : List BeatFault} {port : Fin 128}

theorem exec_lrmReadResp_down (h : s.dev.lportUp port = false) : exec (.lrmReadResp port ⟨pkt, faults⟩) s = .next s :=
  congrArg Host.Outcome.next (lrmReceive_down h)
theorem exec_lrmWriteAck_down (h : s.dev.lportUp port = false) : exec (.lrmWriteAck port pkt) s = .next s :=
  congrArg Host.Outcome.next (lrmReceive_down h)
theorem exec_lrmDoorbell_down (h : s.dev.lportUp port = false) : exec (.lrmDoorbell port pkt) s = .next s :=
  congrArg Host.Outcome.next (lrmReceive_down h)
theorem exec_lrmNak_down (h : s.dev.lportUp port = false) : exec (.lrmNak port pkt) s = .next s :=
  congrArg Host.Outcome.next (lrmReceive_down h)
theorem exec_lrmCnp_dropped (hon : s.dev.f R.FAB_CTL.ENABLE = 1) (hup : s.dev.lportUp port = true) (hquiet : s.dev.f R.FAB_HS.EN = 0)
    (hbad : s.dev.lrmOk pkt.raw = false) :
    exec (.lrmCnp port pkt) s = .next { s with dev := s.dev.bump R.FAB_PORT_CNT.RX_DROP (port.val / 4) } :=
  congrArg Host.Outcome.next (lrmReceive_dropped hon hup hquiet hbad)
end

section
variable {P : State → Prop} {pkt : LrmPacket} {faults : List BeatFault} {port : Fin 128}

/-- A READ_RESP that leaves its read incomplete is kept with the parts before it (R332). -/
theorem completes_lrmReadResp_part (h : LrmArrives s port pkt 2) (hce : (lrmParse pkt.raw).ce = false)
    (hreq : s.dev.reqFor (lrmParse pkt.raw) false = some q)
    (hpart : gathered q.addr q.len (q.parts ++ [((lrmParse pkt.raw).addr, (lrmParse pkt.raw).payload)]) = none)
    (hP : P { s with dev := { counted s.dev (lrmParse pkt.raw) with reqs := s.dev.reqs.map (fun r =>
      if r.tag = q.tag then { r with parts := q.parts ++ [((lrmParse pkt.raw).addr, (lrmParse pkt.raw).payload)] } else r) } }) :
    Completes (.lrmReadResp port ⟨pkt, faults⟩) s P := by
  refine completes_lrm (m' := s.mem) rfl h rfl ?_ hP
  dsimp only
  rw [if_neg (by simp [hce]), reqFor_counted, hreq]
  dsimp only
  rw [hpart]
  rfl

/-- A READ_RESP that completes a descriptor fetch (R332). -/
theorem completes_lrmReadResp_fetch {data : List Byte} (h : LrmArrives s port pkt 2) (hce : (lrmParse pkt.raw).ce = false)
    (hreq : s.dev.reqFor (lrmParse pkt.raw) false = some q) (huse : q.use = .fetch n)
    (hall : gathered q.addr q.len (q.parts ++ [((lrmParse pkt.raw).addr, (lrmParse pkt.raw).payload)]) = some data)
    (hP : P { s with dev := ((((counted s.dev (lrmParse pkt.raw)).recoverReq q.tag).dropReq q.tag).fetchArrive n data).releaseReads }) :
    Completes (.lrmReadResp port ⟨pkt, faults⟩) s P := by
  refine completes_lrm (m' := s.mem) rfl h rfl ?_ hP
  dsimp only
  rw [if_neg (by simp [hce]), reqFor_counted, hreq]
  dsimp only
  rw [hall, huse]
  rfl

/-- A WRITE_ACK ends its write (R332). -/
theorem completes_lrmWriteAck (h : LrmArrives s port pkt 4) (hreq : s.dev.reqFor (lrmParse pkt.raw) true = some q) (hquiet : s.dev.recovery = none)
    (hP : P { s with dev := ((counted s.dev (lrmParse pkt.raw)).dropReq q.tag).acked q.use, mem := ackMemory q s.mem }) :
    Completes (.lrmWriteAck port pkt) s P := by
  refine completes_lrm rfl h rfl ?_ hP
  rw [reqFor_counted, hreq]
  dsimp only
  rw [recoverReq_counted hquiet]

theorem completes_lrmWriteAck_stray (h : LrmArrives s port pkt 4) (hreq : s.dev.reqFor (lrmParse pkt.raw) true = none)
    (hP : P { s with dev := (counted s.dev (lrmParse pkt.raw)).bump R.FAB_ERR.DUP_RESP 0 }) : Completes (.lrmWriteAck port pkt) s P := by
  refine completes_lrm (m' := s.mem) rfl h rfl ?_ hP
  rw [reqFor_counted, hreq]

/-- A NAK of a record's write (R334). -/
theorem completes_lrmNak_record {c : Nat} (h : LrmArrives s port pkt 7) (hread : s.dev.reqFor (lrmParse pkt.raw) false = none)
    (hreq : s.dev.reqFor (lrmParse pkt.raw) true = some q) (huse : q.use = .record c) (hquiet : s.dev.recovery = none)
    (hP : P { s with dev := ((counted s.dev (lrmParse pkt.raw)).set R.CQ_ERR.WRITE c 1).dropReq q.tag }) : Completes (.lrmNak port pkt) s P := by
  refine completes_lrm (m' := s.mem) rfl h rfl ?_ hP
  rw [reqFor_counted, reqFor_counted, hread, hreq]
  dsimp only [Option.orElse]
  rw [huse, recoverSweep_none]
  · rfl
  · exact hquiet

theorem reduceRate_cut {tenant ep i : Nat} {write : Bool} {x : Limiter} (hfind : d.limiterOf tenant ep write = some (i, x))
    (hdue : max (d.f R.FAB_ECN.CNP_INT) 1 * 1000 ≤ d.now - x.cut) :
    d.reduceRate tenant ep write = d.setLimiter i { x with rate := d.cutRate x.rate, cut := d.now, raised := d.now } := by
  unfold Dev.reduceRate
  rw [hfind]
  exact if_neg (not_lt.2 hdue)

/-- A CNP is counted and cuts its flow's limiter (R337). -/
theorem completes_lrmCnp {i : Nat} {x : Limiter} {d1 : Dev} (h : LrmArrives s port pkt 6)
    (hd1 : (counted s.dev (lrmParse pkt.raw)).bump R.FAB_PORT_CNT2.CNP_RX (port.val / 4) = d1)
    (hfind : d1.limiterOf (lrmParse pkt.raw).tenant (lrmParse pkt.raw).ep true = some (i, x))
    (hdue : max (d1.f R.FAB_ECN.CNP_INT) 1 * 1000 ≤ d1.now - x.cut)
    (hP : P { s with dev := d1.setLimiter i { x with rate := d1.cutRate x.rate, cut := d1.now, raised := d1.now } }) :
    Completes (.lrmCnp port pkt) s P := by
  refine completes_lrm (m' := s.mem) rfl h rfl ?_ hP
  rw [hd1, reduceRate_cut hfind hdue]

/-- An LRM doorbell of a ring (R333, R339). -/
theorem completes_lrmDoorbell_ring {n : Fin 4096} (h : LrmArrives s port pkt 5) (hring : (lrmParse pkt.raw).addr / 2 ^ 63 = 0)
    (hn : (lrmParse pkt.raw).addr / 2 ^ 48 % 2 ^ 13 = n.val)
    (hP : P { s with dev := if (counted s.dev (lrmParse pkt.raw)).f R.SQ_CTL.TENANT n = (lrmParse pkt.raw).tenant then
      (counted s.dev (lrmParse pkt.raw)).ringDoorbell 1 (lrmParse pkt.raw).ep n ((lrmParse pkt.raw).addr % 2 ^ 32)
      else (counted s.dev (lrmParse pkt.raw)).dbDrop }) : Completes (.lrmDoorbell port pkt) s P := by
  refine completes_lrm (m' := s.mem) rfl h rfl ?_ hP
  dsimp only
  rw [if_neg Bool.false_ne_true, hn, if_neg (not_le.2 n.isLt), if_pos hring]
end

end Sys2Proof.Laws
end

section
/-! The statement about memory requests, one clause of it at a time (R55, R331 to R339). -/

namespace Sys2Proof.Laws
-- One theorem after another: a thread of its own for each passes the memory that the whole text may take.
set_option Elab.async false

open Sys2Proof Sys2Proof.Machine

variable {d e d1 : Dev} {s : State} {m m' : List Host.Cell} {q : Req} {k n index : Nat} {p : Fin 128} {tag : BitVec 32}

/-! ### A ring doorbell, its range seen from the block before the packet was counted -/

section
variable (hhead : d1.f R.SQ_STATE.HEAD n = d.f R.SQ_STATE.HEAD n) (htail : d1.f R.SQ_STATE.TAIL n = d.f R.SQ_STATE.TAIL n)
  (hsize : d1.f R.SQ_CTL.SIZE_LOG n = d.f R.SQ_CTL.SIZE_LOG n)
include hhead htail hsize

theorem ringInRange_congr : RingInRange d1 n index ↔ RingInRange d n index := by simp only [RingInRange, hhead, htail, hsize]

theorem tail_sqDoorbell_of_eq (hi : index < 2 ^ 32) {inst : Decidable (RingInRange d n index)} :
    (d1.sqDoorbell n index).f R.SQ_STATE.TAIL n = if RingInRange d n index then index else d.f R.SQ_STATE.TAIL n :=
  (tail_sqDoorbell hi (inst := inferInstance)).trans (if_congr (ringInRange_congr hhead htail hsize) rfl htail)

theorem range_sqDoorbell_of_eq (hrange : d1.f R.SQ_ERR.DB_RANGE n = d.f R.SQ_ERR.DB_RANGE n) {inst : Decidable (RingInRange d n index)} :
    (d1.sqDoorbell n index).f R.SQ_ERR.DB_RANGE n = if RingInRange d n index then d.f R.SQ_ERR.DB_RANGE n else 1 :=
  (range_sqDoorbell (inst := inferInstance)).trans (if_congr (ringInRange_congr hhead htail hsize) hrange rfl)
end

/-! ### Collectives, retries, ports, limiters -/

theorem coll_owed {id : Nat} {y : Coll} (h : d.coll id = some y) :
    (d.updColl id (fun x => { x with owed := x.owed - 1 })).coll id = some { y with owed := y.owed - 1 } := by
  have hid : y.id = id := by simpa using List.find?_some h
  have hsame : ((fun x : Coll => x.id == id) ∘ fun x : Coll => if x.id = id then { x with owed := x.owed - 1 } else x) = fun x => x.id == id := by
    funext x
    dsimp only [Function.comp_apply]
    split <;> rfl
  unfold Dev.coll Dev.updColl at *
  dsimp only
  rw [List.find?_map, hsame, h]
  exact congrArg some (if_pos hid)

/-- A request sent once more, on the RTO of now (R334). -/
def sentAgain (d : Dev) (q : Req) : Req := { q with attempts := q.attempts + 1, parts := [], sentAt := d.now, rto := d.lrmRto }

theorem retry_due (hdue : q.rto ≤ d.now - q.sentAt) : ¬ d.since q.sentAt < q.rto := not_lt.2 hdue

section
variable (hreqs : s.dev.reqs = [q]) (htag : q.tag = tag.toNat) (hhost : q.host = false) (hsent : 0 < q.attempts)
  (hdue : q.rto ≤ s.dev.now - q.sentAt)
include hreqs htag hhost hsent

theorem find_retry : s.dev.reqs.find? (fun r => r.tag == tag.toNat && !r.host && decide (0 < r.attempts)) = some q := by
  rw [hreqs]
  simp [htag, hhost, hsent]

include hdue

theorem exec_lrmRetryTimeout_again (hfew : q.attempts < 8) :
    ∃ e, exec (.lrmRetryTimeout tag) s = .next { s with dev := e } ∧ e.reqs = [sentAgain s.dev q] := by
  have hmap : s.dev.reqs.map (fun r => if r.tag = q.tag then sentAgain s.dev q else r) = [sentAgain s.dev q] := by rw [hreqs]; simp
  refine ⟨(({ s.dev with reqs := s.dev.reqs.map (fun r => if r.tag = q.tag then sentAgain s.dev q else r) } : Dev).transmit
    (sentAgain s.dev q)).releaseReads, ?_, ?_⟩
  · change execLrmRetryTimeout tag s = _
    unfold execLrmRetryTimeout State.onDev
    dsimp only
    rw [find_retry hreqs htag hhost hsent]
    dsimp only
    rw [if_neg (retry_due hdue), if_neg (not_le.2 hfew)]
    rfl
  · rw [releaseReads_none, reqs_transmit]
    · exact hmap
    · rw [reqs_transmit]
      dsimp only
      rw [hmap]
      simp [sentAgain]

theorem exec_lrmRetryTimeout_failed {c : Nat} (hmany : 8 ≤ q.attempts) (huse : q.use = .record c) (hquiet : s.dev.recovery = none) :
    exec (.lrmRetryTimeout tag) s = .next { s with dev := (s.dev.set R.CQ_ERR.WRITE c 1).dropReq q.tag } := by
  have hquiet' : ((s.dev.set R.CQ_ERR.WRITE c 1).dropReq q.tag).recovery = none := hquiet
  change execLrmRetryTimeout tag s = _
  unfold execLrmRetryTimeout State.onDev
  dsimp only
  rw [find_retry hreqs htag hhost hsent]
  dsimp only
  rw [if_neg (retry_due hdue), if_pos hmany, huse]
  exact congrArg (fun e => Host.Outcome.next { s with dev := e }) (recoverSweep_none _ hquiet')
end

theorem exec_lrmRetryTimeout_early (hreqs : s.dev.reqs = [q]) (hearly : s.dev.now - q.sentAt < q.rto) : exec (.lrmRetryTimeout tag) s = .next s := by
  change execLrmRetryTimeout tag s = _
  unfold execLrmRetryTimeout State.onDev
  dsimp only
  split
  · rfl
  · next r hr =>
    have hq : r = q := List.mem_singleton.1 (hreqs ▸ List.mem_of_find?_eq_some hr)
    have hwait : s.dev.since q.sentAt < q.rto := hearly
    rw [hq, if_pos hwait]

theorem exec_portStateChange_up (h : s.dev.lportExists p = true) : exec (.portStateChange p true) s = .next { s with dev := raised s.dev p } := by
  change execPortStateChange p true s = _
  unfold execPortStateChange State.onDev
  dsimp only
  rw [if_neg (by simp [h]), if_pos rfl]
  rfl

theorem exec_portStateChange_down (h : s.dev.lportUp p = true) : ∃ hit, exec (.portStateChange p false) s =
    .next { s with dev := (lowered s.dev p hit).alarm 6 (p.val / 4) 0x030 1 (s.dev.laneMaskOf p) } := by
  have hexists : s.dev.lportExists p = true := (Bool.and_eq_true_iff.1 h).1
  change ∃ hit, execPortStateChange p false s = _
  unfold execPortStateChange State.onDev
  dsimp only
  rw [if_neg (by simp [hexists]), if_neg Bool.false_ne_true, if_neg (by simp [h])]
  exact ⟨_, rfl⟩

section
variable {i : Fin 16384} {x : Limiter} (hone : s.dev.limiters = [(i.val, x)])
include hone

theorem find_limiter : s.dev.limiters.find? (fun e => e.1 == i.val) = some (i.val, x) := by
  rw [hone]
  simp

theorem exec_rateIncrease {port : Nat} (hport : s.dev.egressPort x.ep x.tenant = some port)
    (hdue : max (s.dev.f R.FAB_ECN.RAI_INT) 1 * 1000 ≤ s.dev.now - x.raised) :
    exec (.rateIncrease i) s = .next { s with dev := { s.dev with limiters := if s.dev.portRate port ≤ x.rate + s.dev.f R.FAB_ECN.RAI then []
      else [(i.val, { x with rate := x.rate + s.dev.f R.FAB_ECN.RAI, raised := s.dev.now })] } } := by
  change execRateIncrease i s = _
  unfold execRateIncrease State.onDev
  dsimp only
  rw [find_limiter hone]
  dsimp only
  have hready : ¬ s.dev.since x.raised < max (s.dev.f R.FAB_ECN.RAI_INT) 1 * 1000 := not_lt.2 hdue
  rw [if_neg hready, hport]
  dsimp only
  by_cases htop : s.dev.portRate port ≤ x.rate + s.dev.f R.FAB_ECN.RAI
  · rw [if_pos (by simpa using htop), if_pos htop, hone]
    simp
  · rw [if_neg (by simpa using htop), if_neg htop]
    unfold Dev.setLimiter
    rw [hone]
    simp [tabIns]

theorem exec_rateIncrease_early (hearly : s.dev.now - x.raised < max (s.dev.f R.FAB_ECN.RAI_INT) 1 * 1000) : exec (.rateIncrease i) s = .next s := by
  change execRateIncrease i s = _
  unfold execRateIncrease State.onDev
  dsimp only
  rw [find_limiter hone]
  dsimp only
  have hwait : s.dev.since x.raised < max (s.dev.f R.FAB_ECN.RAI_INT) 1 * 1000 := hearly
  rw [if_pos hwait]
end

section
variable {data : List Byte} {faults : List BeatFault}

theorem exec_pcieReadCompletion_fetch {a : Nat} (hfind : s.dev.reqs.find? (fun r => r.tag == tag.toNat && r.host && !r.write) = some q)
    (hlen : data.length = q.len) (huse : q.use = .fetch n) (hread : (s.dev.ring n).reading = some (a, k)) :
    exec (.pcieReadCompletion tag ⟨data, faults⟩) s = .next { s with dev := tookIn (s.dev.dropReq q.tag) n k data } := by
  change execPcieReadCompletion tag ⟨data, faults⟩ s = _
  unfold execPcieReadCompletion State.onBoth
  rw [hfind]
  dsimp only
  rw [if_pos hlen, huse, ← fetchArrive_reading (d := s.dev.dropReq q.tag) hread]
  rfl

theorem exec_pcieReadCompletion_stray (h : s.dev.reqs.any (fun r => r.tag == tag.toNat && r.host && !r.write) = false) :
    exec (.pcieReadCompletion tag ⟨data, faults⟩) s = .next s := by
  have hnone : s.dev.reqs.find? (fun r => r.tag == tag.toNat && r.host && !r.write) = none :=
    List.find?_eq_none.2 (fun r hr hc => by
      have := List.any_eq_false.1 h r hr
      exact this hc)
  change execPcieReadCompletion tag ⟨data, faults⟩ s = _
  unfold execPcieReadCompletion
  rw [hnone]
end

/-! ### The statement -/

/-- A read of host memory that completes a descriptor fetch moves the descriptors to the ring, also where held reads go out behind it (R55, R339). -/
theorem tookIn_released {tag : Nat} {data : List Byte} (hd1 : d1.rings = d.rings) (hwords : ∀ j, j = R.SQ_STATE.HEAD.key n → d1.word j = d.word j)
    (hn : n < 4096) :
    ((tookIn (d1.dropReq tag) n k data).releaseReads.ring n).reading = none ∧
    ((tookIn (d1.dropReq tag) n k data).releaseReads.ring n).fetched = (d.ring n).fetched ++ arrived d n k data ∧
    (tookIn (d1.dropReq tag) n k data).releaseReads.f R.SQ_STATE.HEAD n = idxAdd (d.f R.SQ_STATE.HEAD n) k ∧
    (tookIn (d1.dropReq tag) n k data).releaseReads.reqs.any (fun r => r.tag == tag) = false := by
  obtain ⟨hrings, hsent, htags⟩ := readsSent_releaseReads (d := tookIn (d1.dropReq tag) n k data)
  have hring : (tookIn (d1.dropReq tag) n k data).releaseReads.ring n = (tookIn (d1.dropReq tag) n k data).ring n := ring_of_rings hrings
  have hbefore : (d1.dropReq tag).ring n = d.ring n := ring_of_rings hd1
  have hhead : (d1.dropReq tag).f R.SQ_STATE.HEAD n = d.f R.SQ_STATE.HEAD n := f_of_word (hwords _ rfl)
  refine ⟨?_, ?_, ?_, ?_⟩
  · rw [hring, ring_tookIn]
  · rw [hring, ring_tookIn, hbefore]
    unfold arrived
    rw [hhead]
  · rw [f_of_word (hsent _ (.inl (by simp only [Fld.key]; omega))), head_tookIn, hhead]
  · rw [List.any_eq_false]
    intro r hr
    have hmem : r.tag ∈ (d1.dropReq tag).reqs.map (·.tag) := htags ▸ List.mem_map_of_mem hr
    obtain ⟨r', hr', he⟩ := List.mem_map.1 hmem
    have hne := (List.mem_filter.1 hr').2
    simp only [bne_iff_ne] at hne
    rw [he] at hne
    simpa using hne

end Sys2Proof.Laws
end

section
/-! What each packet and completion does to the request it is for (R55, R331 to R339). -/

namespace Sys2Proof.Laws
-- One theorem after another: a thread of its own for each passes the memory that the whole text may take.
set_option Elab.async false

open Sys2Proof Sys2Proof.Machine

variable {d : Dev} {x : LrmIn}

theorem frame_counted : ∀ k, k ∉ [R.FTEN.GREEN.key x.tenant] → (counted d x).word k = d.word k :=
  word_frame_set (fun _ _ => rfl) _ _ _ (by simp)

/-- The counted packet and one further word of the block. -/
theorem frame_counted_set {y : Fld} {i v : Nat} : ∀ k, k ∉ [y.key i, R.FTEN.GREEN.key x.tenant] → ((counted d x).set y i v).word k = d.word k :=
  word_frame_set (fun k hk => frame_counted k (fun h => hk (List.mem_cons_of_mem _ h))) _ _ _ (by simp)

/-- Settles O56: each act of a packet, a completion, a timer or a port by its own lemma, the packet counted first. -/
theorem memoryAnswersReachTheirRequests : Obligations.MemoryAnswersReachTheirRequests := by
  unfold Obligations.MemoryAnswersReachTheirRequests
  refine ⟨?_, ?_, ?_, ?_, ?_, ?_, ?_, ?_, ?_, ?_, ?_, ?_, ?_, ?_, ?_, ?_, ?_, ?_, ?_, ?_⟩
  · intro p pkt faults q s h hce hreq hpart
    refine completes_lrmReadResp_part h hce hreq hpart ?_
    exact ⟨rfl, congrArg (fun c : Dev => { c with reqs := s.dev.reqs }) (sameParts_counted (d := s.dev)), sameMem_of_eq rfl, frame_counted⟩
  · intro p pkt faults q n a k data s h hce hreq huse hread hall
    refine completes_lrmReadResp_fetch h hce hreq huse hall ?_
    have hrings : ((counted s.dev (lrmParse pkt.raw)).recoverReq q.tag).rings = s.dev.rings :=
      rings_of_sansRecovery sansRecovery_recoverReq
    have hread' : ((((counted s.dev (lrmParse pkt.raw)).recoverReq q.tag).dropReq q.tag).ring n).reading = some (a, k) :=
      (congrArg RingX.reading (ring_of_rings hrings)).trans hread
    rw [fetchArrive_reading hread']
    obtain ⟨hidle, htaken, hhead, hgone⟩ := tookIn_released (d := s.dev) (k := k) (tag := q.tag) (data := data) (n := n) hrings (fun j hj => by
      rw [word_recoverReq (by rw [hj]; simp only [Fld.key]; omega), word_counted (by rw [hj]; simp only [Fld.key]; omega)]) n.isLt
    exact ⟨hidle, htaken, hhead, hgone, sameMem_of_eq rfl⟩
  · intro p pkt id y q s h hreq huse hcoll hquiet
    refine completes_lrmWriteAck h hreq hquiet ?_
    rw [huse]
    have hmem : ackMemory q s.mem = s.mem := if_neg (by rw [huse]; exact Bool.false_ne_true)
    exact ⟨coll_owed (d := (counted s.dev (lrmParse pkt.raw)).dropReq q.tag) hcoll, rfl,
      congrArg (fun c : Dev => { c with reqs := s.dev.reqs, colls := s.dev.colls })
        (sameParts_counted (d := s.dev) (x := lrmParse pkt.raw)), sameMem_of_eq hmem, frame_counted⟩
  · intro p pkt q c s h hreq huse hquiet
    refine completes_lrmWriteAck h hreq hquiet ?_
    rw [huse]
    have hmem : ackMemory q s.mem = memWrite s.mem (memKey (nodeSpace false q.node) q.addr) q.data := if_pos (by rw [huse]; rfl)
    rw [hmem]
    refine ⟨rfl, fun i hi => ?_, fun b hb => memGet_memWrite_outside _ _ _ _ hb, parts_dropReq sameParts_counted, frame_counted⟩
    rw [List.getD_eq_getElem _ _ hi]
    exact memGet_memWrite_inside _ _ _ _ hi
  · intro p pkt s h hreq
    refine completes_lrmWriteAck_stray h hreq ?_
    exact ⟨(f_bump_same _ _ _ _ (by decide)).trans (by rw [f_counted (by decide)]), sameMem_of_eq rfl, sameParts_counted.trans (sameParts_set ..),
      frame_counted_set⟩
  · intro p pkt q c s h hread hreq huse hquiet
    refine completes_lrmNak_record h hread hreq huse hquiet ?_
    exact ⟨f_set_same _ _ _ _ (by decide), rfl, parts_dropReq (sameParts_counted.trans (sameParts_set ..)), sameMem_of_eq rfl, frame_counted_set⟩
  · intro p pkt i x s h hfind hdue
    have hkept {y : Fld} (hy : y.key 0 < 0x900100) :
        ((counted s.dev (lrmParse pkt.raw)).bump R.FAB_PORT_CNT2.CNP_RX (p.val / 4)).f y = s.dev.f y :=
      (f_bump_apart _ _ _ _ _ _ (.inl (by simp only [Fld.key] at hy ⊢; omega))).trans (f_counted (by omega))
    refine completes_lrmCnp (i := i) (x := x) h rfl hfind ?_ ?_
    · rw [hkept (by decide)]
      exact hdue
    refine ⟨(f_bump_same _ _ _ _ (by decide)).trans (by rw [f_counted (by simp only [Fld.key]; omega)]), ?_, sameMem_of_eq rfl, frame_counted_set⟩
    refine (find?_tabIns ..).trans ?_
    unfold Dev.cutRate
    rw [hkept (by decide), hkept (by decide)]
    rfl
  · intro p pkt n s h hring hn hten hloc hsrc hon htear
    have hkept {y : Fld} (hy : y.key n < 0x900000) : (counted s.dev (lrmParse pkt.raw)).f y n = s.dev.f y n := f_counted (by omega)
    refine completes_lrmDoorbell_ring h hring hn ?_
    rw [if_pos ((hkept (by simp only [Fld.key]; omega)).trans hten), ringDoorbell_enabled ((hkept (by simp only [Fld.key]; omega)).trans hloc)
      ((hkept (by simp only [Fld.key]; omega)).trans hsrc) ((hkept (by simp only [Fld.key]; omega)).trans hon) htear]
    have hhead : (counted s.dev (lrmParse pkt.raw)).f R.SQ_STATE.HEAD n = s.dev.f R.SQ_STATE.HEAD n := hkept (by simp only [Fld.key]; omega)
    have htail : (counted s.dev (lrmParse pkt.raw)).f R.SQ_STATE.TAIL n = s.dev.f R.SQ_STATE.TAIL n := hkept (by simp only [Fld.key]; omega)
    have hsize : (counted s.dev (lrmParse pkt.raw)).f R.SQ_CTL.SIZE_LOG n = s.dev.f R.SQ_CTL.SIZE_LOG n := hkept (by simp only [Fld.key]; omega)
    refine ⟨tail_sqDoorbell_of_eq hhead htail hsize (Nat.mod_lt _ (by decide)), head_sqDoorbell.trans hhead,
      range_sqDoorbell_of_eq hhead htail hsize (hkept (by simp only [Fld.key]; omega)), sameMem_of_eq rfl, fun k hk => ?_⟩
    simp only [List.mem_cons, List.not_mem_nil, or_false, not_or] at hk
    obtain ⟨hktail, hkrange, hkgreen⟩ := hk
    rw [word_sqDoorbell (by simp only [List.mem_cons, List.not_mem_nil, or_false, not_or]; exact ⟨hktail, hkrange⟩), word_counted hkgreen]
  · intro p pkt n s h hring hn hten
    refine completes_lrmDoorbell_ring h hring hn ?_
    rw [if_neg (by rw [f_counted (by simp only [Fld.key]; omega)]; exact hten)]
    exact ⟨(f_bump_same _ _ _ _ (by decide)).trans (by rw [f_counted (by decide)]), sameMem_of_eq rfl, sameParts_counted.trans (sameParts_set ..),
      frame_counted_set⟩
  · intro p pkt s hon hup hquiet hbad
    refine ⟨_, exec_lrmCnp_dropped hon hup hquiet hbad, ?_⟩
    exact ⟨f_bump_same _ _ _ _ (by decide), sameMem_of_eq rfl, sameParts_set .., word_frame_set (fun _ _ => rfl) _ _ _ (by simp)⟩
  · intro p pkt faults s hdown
    exact ⟨⟨s, exec_lrmReadResp_down hdown, rfl⟩, ⟨s, exec_lrmWriteAck_down hdown, rfl⟩, ⟨s, exec_lrmDoorbell_down hdown, rfl⟩,
      ⟨s, exec_lrmNak_down hdown, rfl⟩⟩
  · intro tag q s hreqs htag hhost hsent hfew hdue
    obtain ⟨e, hexec, he⟩ := exec_lrmRetryTimeout_again hreqs htag hhost hsent hdue hfew
    exact ⟨_, hexec, he, sameMem_of_eq rfl⟩
  · intro tag q c s hreqs htag hhost hmany huse hquiet hdue
    refine ⟨_, exec_lrmRetryTimeout_failed hreqs htag hhost (by omega) hdue hmany huse hquiet, ?_⟩
    have hgone : s.dev.reqs.filter (fun r => r.tag != q.tag) = [] := by rw [hreqs]; simp
    exact ⟨hgone, f_set_same _ _ _ _ (by decide), sameMem_of_eq rfl, word_frame_set (fun _ _ => rfl) _ _ _ (by simp)⟩
  · exact fun tag q s hreqs hearly => ⟨s, exec_lrmRetryTimeout_early hreqs hearly, rfl⟩
  · intro p s hexists
    refine ⟨_, exec_portStateChange_up hexists, ?_⟩
    exact ⟨up_raised, lportUp_raised hexists, sameMem_of_eq rfl, sameParts_set .., word_frame_set (fun _ _ => rfl) _ _ _ (by simp)⟩
  · intro p s hup
    obtain ⟨hit, hexec⟩ := exec_portStateChange_down hup
    obtain ⟨hport, hptp, hreqs⟩ := waits_lowered (d := s.dev) (p := p) (hit := hit)
    have hkept : waits ((lowered s.dev p hit).alarm 6 (p.val / 4) 0x030 1 (s.dev.laneMaskOf p)) = waits (lowered s.dev p hit) := waits_alarm
    exact ⟨_, hexec, lportUp_lowered hup, (portQueue_of_waits hkept).trans hport, (ptpQueue_of_waits hkept).trans hptp,
      (reqs_of_waits hkept).trans hreqs, sameMem_of_eq rfl⟩
  · intro i x port s hone hport hdue
    exact ⟨_, exec_rateIncrease hone hport hdue, rfl, rfl, sameMem_of_eq rfl⟩
  · exact fun i x s hone hearly => ⟨s, exec_rateIncrease_early hone hearly, rfl⟩
  · intro tag data faults q n a k s hfind hlen huse hread
    refine ⟨_, exec_pcieReadCompletion_fetch hfind hlen huse hread, ?_⟩
    exact ⟨congrArg RingX.reading ring_tookIn, congrArg RingX.fetched ring_tookIn, head_tookIn, rfl, sameMem_of_eq rfl,
      fun j hj => word_tookIn (d := s.dev.dropReq q.tag) (fun he => hj (by simp [he]))⟩
  · exact fun tag data faults s hnone => ⟨s, exec_pcieReadCompletion_stray hnone, rfl⟩

end Sys2Proof.Laws
end
